-- ==== Sys2Proof/Word.lean ====
section
/-! DEFINITION. The words of the machine (R3, R8, R69). -/
namespace Sys2Proof

/-- A scalar register, an address register, a memory double word (R69). -/
abbrev W64 := BitVec 64
/-- An instruction word (R8), a vector lane (R69). -/
abbrev W32 := BitVec 32
/-- A byte (R3). -/
abbrev Byte := BitVec 8
/-- Scalar register number (R10). -/
abbrev SReg := BitVec 6
/-- Vector register number (R10). -/
abbrev VReg := BitVec 6
/-- Predicate register number (R10). -/
abbrev PReg := BitVec 3
/-- Future register number (R10). -/
abbrev FReg := BitVec 4
/-- One bit per lane, lane 0 in bit 0 (R69). -/
abbrev LaneMask := BitVec 32

end Sys2Proof
end

