-- ==== Sys2Proof/Config.lean ====
section
/-! DEFINITION. What the part fixes (figures of the spec) and the free values: opaque constants without a body, for what
the spec leaves open. -/
namespace Sys2Proof.Config

/-- Bundle size in bytes (R21). -/
def bundleBytes : Nat := 64
/-- Bytes of a row of the private region (R87). -/
def rowBytes : Nat := 128
/-- Coil entries a slot's coil holds (R84). -/
def coilEntries : Nat := 64
/-- Reservation table entries of a cluster (R228). -/
def tableEntries : Nat := 64
/-- Gather queue of a cluster (R260). -/
def gatherQueue : Nat := 16
/-- Put engine operations of a die (R294). -/
def putSlots : Nat := 32
/-- Record cache entries of a die and partition (R288). -/
def recordEntries : Nat := 64
/-- IXRED operations a base die accepts (R370). -/
def ixredSlots : Nat := 64
/-- RRED operations of a die (R425). -/
def rredSlots : Nat := 64
/-- Collectives a die may hold outstanding at one sequencer (R376). -/
def collSlots : Nat := 16
/-- Step queue of an NMU (R363). -/
def nmuSteps : Nat := 64
/-- Accumulators of an NMU (R363). -/
def nmuAccumulators : Nat := 8
/-- Deferred-free queue of a context (R343). -/
def freeQueue : Nat := 65536
/-- Entries of a deferred-free batch (R344). -/
def batchEntries : Nat := 256
/-- Open grace periods of a context (R340). -/
def gracePeriods : Nat := 64
/-- Miss table entries of a core (R173). -/
def missEntries : Nat := 2048
/-- Ways and sets of a die's last-level TLB of 32,768 entries (R280); walkers of a die (R280) and of an agent of a base die (R352). -/
def tlbWays : Nat := 8
def tlbSets : Nat := 4096
def walkers : Nat := 1024
def agentWalkers : Nat := 64
/-- TLB entries of a core (R280). -/
def tlbEntries : Nat := 256
/-- Export table entries of a core (R216). -/
def expoEntries : Nat := 128
/-- Exchange rounds a context may hold open (R427). -/
def openRounds : Nat := 16
/-- First address of the host aperture (R278). -/
def hostAperture : Nat := 0xC000000000
/-- Where the dump is written (R410). -/
def dumpBase : Nat := 0xBF00000000

/-- FREE VALUE (log 5): the package time, in ns, that passes at step `tick`. -/
opaque elapsed : Nat → Nat
/-- FREE VALUE (log 8): which of the outcomes that the spec allows is taken, by step and choice point. -/
opaque choice : Nat → Nat → Nat
/-- FREE VALUE (log 41): the set of a die's last-level TLB that holds a page: partition, context, page. -/
opaque tlbSet : Nat → Nat → Nat → Nat
/-- FREE VALUE (log 57): the switch plane that carries the accesses to a line: package, line. -/
opaque plane : Nat → Nat → Nat
/-- FREE VALUE (log 6): the encoding an SFU function returns within its bound (R160): function number, input. -/
opaque sfu : Nat → W32 → W32
/-- FREE VALUE (log 10): SM4-GCM sealing of the standard R396 names: key, IV, AAD, plaintext; ciphertext and tag. -/
opaque gcmSeal : List Byte → List Byte → List Byte → List Byte → List Byte × List Byte
/-- FREE VALUE (log 10): SM4-GCM opening: key, IV, AAD, ciphertext, tag; the plaintext when the tag verifies. -/
opaque gcmOpen : List Byte → List Byte → List Byte → List Byte → List Byte → Option (List Byte)
/-- FREE VALUE (log 10): the SM3 digest. -/
opaque sm3 : List Byte → List Byte
/-- FREE VALUE (log 10): HMAC-SM3: key, message. -/
opaque hmacSm3 : List Byte → List Byte → List Byte
/-- FREE VALUE (log 10): SM2 verification of GB/T 32918: public key, message, signature. -/
opaque sm2Verify : List Byte → List Byte → List Byte → Bool
/-- FREE VALUE (log 10): the device secret from which the root's own keys come (R393). -/
opaque deviceSecret : List Byte
/-- FREE VALUE (log 70): SM4-XTS of IEEE 1619 over one sector: data key, tweak key, tweak, 32 bytes. -/
opaque xtsSeal : List Byte → List Byte → Nat → List Byte → List Byte
opaque xtsOpen : List Byte → List Byte → Nat → List Byte → List Byte
/-- What an SPDM request offers, or asks for, of the options that R391 names: the SM2 signature, the SM3 hash, SM3 for measurements, the
SM2_P256 exchange, AEAD_SM4_GCM, a pre-shared key, mutual authentication. -/
structure SpdmOptions where
  asym : Bool
  hash : Bool
  measurement : Bool
  dhe : Bool
  aead : Bool
  psk : Bool
  peerAuth : Bool
  deriving DecidableEq, Repr, Inhabited
/-- FREE VALUE (log 10): the options in the bytes of an SPDM request, whose layout is not the spec's: request code, request. -/
opaque spdmOptions : Nat → List Byte → SpdmOptions
/-- FREE VALUE (log 10): the body of an SPDM response: request code, options chosen, measurements, transcript so far, request. -/
opaque spdmReply : Nat → SpdmOptions → List (List Byte) → List Byte → List Byte → List Byte
/-- FREE VALUE (log 10): the firmware images that measurements 1 and 3 cover (R391). -/
opaque firmware : Nat → List Byte
/-- FREE VALUE (log 11): what comes from outside in bring-up (R408), at a step: whether the firmware's signatures verify, the dies that pass
step 4. -/
opaque firmwareSigned : Nat → Bool
opaque diesUp : Nat → BitVec 6
/-- FREE VALUE (log 34): the module's configuration (R414, R415): the package's number, the planes of its domain. -/
opaque moduleNumber : Nat
opaque modulePlanes : Nat
/-- FREE VALUE (log 10): whether an SPDM request is well formed and its checks hold: request code, transcript, request. -/
opaque spdmAccepts : Nat → List Byte → List Byte → Bool
/-- FREE VALUE (log 27): bytes that the saved image of a context takes, by its QUOTA word. -/
opaque saveSize : Nat → Nat
/-- FREE VALUE (log 27): the byte of a saved image, by step and position. -/
opaque saveByte : Nat → Nat → Byte
/-- FREE VALUE (log 42): the firmware image of the NMUs: a micro-word, the micro-word an entry point names. -/
opaque microWord : Nat → BitVec 128
opaque entryPoint : Nat → Nat
/-- FREE VALUE (log 33): the words of a termination record that the spec does not give: step, word. -/
opaque freeValue : Nat → Nat → W64

end Sys2Proof.Config
end

