-- ==== Sys2Proof/Syntax.lean ====
section
/-! DEFINITION. The instructions: one constructor per row of the opcode table, its operands as the encoding gives them. -/
namespace Sys2Proof

/-- Type codes 0x00 to 0x1A (R15). -/
inductive Ty where
  | i8 | i16 | i32 | i64 | z8 | z16 | z32 | z64 | f64 | f32 | bf16 | f16 | e4m3 | e5m2 | e3m2 | e2m3 | e2m1
  | b8 | b16 | b32 | b64 | b128 | k48e2m1 | k48e3m2 | k48e2m3 | k48e4m3 | k48i8
  deriving DecidableEq, Repr

/-- Rounding codes 0 to 6 (R14). -/
inductive Rnd where
  | rne | rtz | rup | rdn | rna | sr | dyn
  deriving DecidableEq, Repr

/-- Scopes, codes 0 to 4 (R16). -/
inductive Scope where
  | grp | gang | die | pkg | sys
  deriving DecidableEq, Repr

/-- Memory orders, codes 0 to 3 (R16). -/
inductive Order where
  | rlx | acq | rel | ar
  deriving DecidableEq, Repr

/-- Cache policies, codes 0 to 5 (R17). -/
inductive Cp where
  | dflt | l2 | strm | last | na | keep
  deriving DecidableEq, Repr

/-- Compare codes 0 to 9 (R40). -/
inductive Cmp where
  | eq | ne | lt | le | gt | ge | ltu | leu | gtu | geu
  deriving DecidableEq, Repr

/-- Compare codes of FCMP, 0 to 7 (R40, R152). -/
inductive FCmp where
  | eq | ne | lt | le | gt | ge | un | ord
  deriving DecidableEq, Repr

/-- Atomic and reduction operations, codes 0 to 12 (R41). -/
inductive AtomOp where
  | add | min | max | and | or | xor | exch | cas | inc | dec | fadd | fmin | fmax
  deriving DecidableEq, Repr

/-- Operations of VSCAN, codes 0 to 2 (R164). -/
inductive ScanOp where
  | add | min | max
  deriving DecidableEq, Repr

/-- System registers 0 to 18 (R70). -/
inductive SysReg where
  | exec | gid | role | gang | core | cluster | die | pkg | sp | sl | tfp | dtb | dtl | rngk | rngc | fmode | time | wcnt | rsd
  deriving DecidableEq, Repr

/-- A guard: PN and P of W1 under PE = 1 (R18). -/
structure Guard where
  neg : Bool
  p : PReg
  deriving DecidableEq, Repr

/-- Condition of BR (R118). -/
inductive BrMode where
  | always
  | nz (a : SReg)
  | z (a : SReg)
  deriving DecidableEq, Repr

/-- The index of an address-mode operand (R54): `signed` is M[3], `scale` is M[1:0]. -/
structure Idx where
  signed : Bool
  scale : BitVec 2
  v : VReg
  deriving DecidableEq, Repr

/-- An address-mode operand without its offset (R54). -/
structure MemOp where
  a : SReg
  idx : Option Idx
  deriving DecidableEq, Repr

/-- Memory kinds of a page (R168). -/
inductive Kind where
  | normal | atomicHome | host
  deriving DecidableEq, Repr

/-- A unit that takes power states (R406). -/
inductive PowerUnit where
  | die (d : Nat)
  | quadrant (d q : Nat)
  | stack (s : Nat)
  deriving DecidableEq, Repr

/-- Agents that have a standby (R336, R345, R390, R431); a Weaver by the package of the primary. -/
inductive Agent where
  | syncEngine | regulator | weaver (pkg : Nat) | root (i : Nat)
  deriving DecidableEq, Repr

/-- What a remote access does at the peer (R419, R422). -/
inductive RemKind where
  | fill
  | load
  | store (data : List Byte)
  | atomic (op : AtomOp) (ty : Ty) (b c : BitVec 128)
  deriving DecidableEq, Repr

/-- A remote access as it arrives at the peer (R418, R422): the issuing context, the context reached, the offset. -/
structure RemReq where
  srcPkg : Nat
  srcVf : Nat
  srcPart : Nat
  vf : Nat
  part : Nat
  off : Nat
  n : Nat
  kind : RemKind
  deriving DecidableEq, Repr

/-- The reply to a remote TLB fill (R419). -/
structure RemReply where
  reached : Bool
  mapped : Bool
  r : Bool
  w : Bool
  kind : Kind
  deriving DecidableEq, Repr

/-- One lane's answer from a peer of another package (R422). -/
structure RemLane where
  lane : Nat
  value : BitVec 128
  bad : Bool
  deriving DecidableEq, Repr

/-- A contribution to an in-switch reduction (R425). -/
structure RredMsg where
  group : Nat
  tag : Nat
  n : Nat
  idx : Nat
  op : AtomOp
  ty : Ty
  timeout : Nat
  vals : List W64
  pkg : Nat
  opId : Nat
  deriving DecidableEq, Repr

/-- A demand row of DPOST (R427): the context that posts it, the packages of the two Weavers, the row. -/
structure RowMsg where
  pkg : Nat
  part : Nat
  vf : Nat
  prim : Nat
  stby : Nat
  group : Nat
  round : Nat
  n : Nat
  idx : Nat
  digest : List Byte
  tau : Nat
  notBefore : Nat
  u : List Nat
  deriving DecidableEq, Repr

/-- One calendar entry (R429). -/
structure CalEntry where
  start : Nat
  units : Nat
  dest : Nat
  deriving DecidableEq, Repr

/-- A calendar or a notice as it reaches a participant's root (R429, R430, R431). -/
inductive CalBody where
  | calendar (t0 tau phases total : Nat) (entries : List CalEntry) (overflow : Nat)
  | mismatch
  | abort
  deriving DecidableEq, Repr

/-- A calendar message (R431): `complete` says that every announced entry has arrived. -/
structure CalMsg where
  pkg : Nat
  group : Nat
  round : Nat
  vf : Nat
  part : Nat
  n : Nat
  idx : Nat
  complete : Bool
  body : CalBody
  deriving DecidableEq, Repr

/-- Exchange data or an end marker, which tells the bytes that came before it (R434, R443). -/
inductive XchBody where
  | data (off : Nat) (bytes : List Byte)
  | marker (cancelled : Bool) (sent : Nat)
  | ack (upto : Nat)
  | refused
  deriving DecidableEq, Repr

/-- An exchange packet: the round, the stream's source and destination indexes, the context it comes from (package, partition,
VF), the context it is for. -/
structure XchMsg where
  group : Nat
  round : Nat
  src : Nat
  dst : Nat
  sender : Nat × Nat × Nat
  vf : Nat
  part : Nat
  body : XchBody
  deriving DecidableEq, Repr

/-- Special functions and random numbers, as the decoder reads them: kept apart because a compiled program can build only
the first 245 constructors of `Instr`. -/
inductive SfuInstr where
  | xrcp (d a : VReg)
  | xrcpW1 (g : Option Guard) (d a : VReg)
  | xrsq (d a : VReg)
  | xrsqW1 (g : Option Guard) (d a : VReg)
  | xsqrt (d a : VReg)
  | xsqrtW1 (g : Option Guard) (d a : VReg)
  | xexp2 (d a : VReg)
  | xexp2W1 (g : Option Guard) (d a : VReg)
  | xlog2 (d a : VReg)
  | xlog2W1 (g : Option Guard) (d a : VReg)
  | xsin (d a : VReg)
  | xsinW1 (g : Option Guard) (d a : VReg)
  | xcos (d a : VReg)
  | xcosW1 (g : Option Guard) (d a : VReg)
  | xtanh (d a : VReg)
  | xtanhW1 (g : Option Guard) (d a : VReg)
  | rngseed (a b : SReg)
  | rng (unit : Bool) (d : VReg)
  | rngW1 (g : Option Guard) (unit : Bool) (d : VReg)
  | rngskip (a : SReg)
  deriving DecidableEq, Repr

/-- One constructor per row of spec/opcode_table.json: 269 instruction forms, then 122 events. A suffix W1 is the form with
the extension words, Lit the form with a literal, Imm the immediate form (R11, R9). The order is the table's, but the special
functions stand after the others and the events last. -/
inductive Instr where
  /-- SADD (R114). -/
  | sadd (d a b : SReg)
  /-- SADD_LIT (R114). -/
  | saddLit (d a : SReg) (lit : W64)
  /-- SADD_IMM (R114). -/
  | saddImm (d a : SReg) (i : BitVec 10)
  /-- SSUB (R114). -/
  | ssub (d a b : SReg)
  /-- SSUB_LIT (R114). -/
  | ssubLit (d a : SReg) (lit : W64)
  /-- SMUL (R114). -/
  | smul (d a b : SReg)
  /-- SMUL_LIT (R114). -/
  | smulLit (d a : SReg) (lit : W64)
  /-- SMULH (R114). -/
  | smulh (u : Bool) (d a b : SReg)
  /-- SMULH_LIT (R114). -/
  | smulhLit (u : Bool) (d a : SReg) (lit : W64)
  /-- SAND (R114). -/
  | sand (d a b : SReg)
  /-- SAND_LIT (R114). -/
  | sandLit (d a : SReg) (lit : W64)
  /-- SAND_IMM (R114). -/
  | sandImm (d a : SReg) (i : BitVec 10)
  /-- SOR (R114). -/
  | sor (d a b : SReg)
  /-- SOR_LIT (R114). -/
  | sorLit (d a : SReg) (lit : W64)
  /-- SOR_IMM (R114). -/
  | sorImm (d a : SReg) (i : BitVec 10)
  /-- SXOR (R114). -/
  | sxor (d a b : SReg)
  /-- SXOR_LIT (R114). -/
  | sxorLit (d a : SReg) (lit : W64)
  /-- SXOR_IMM (R114). -/
  | sxorImm (d a : SReg) (i : BitVec 10)
  /-- SSHL (R115). -/
  | sshl (d a b : SReg)
  /-- SSHL_IMM (R115). -/
  | sshlImm (d a : SReg) (i : BitVec 6)
  /-- SSHR (R115). -/
  | sshr (d a b : SReg)
  /-- SSHR_IMM (R115). -/
  | sshrImm (d a : SReg) (i : BitVec 6)
  /-- SSRA (R115). -/
  | ssra (d a b : SReg)
  /-- SSRA_IMM (R115). -/
  | ssraImm (d a : SReg) (i : BitVec 6)
  /-- SMIN (R114). -/
  | smin (u : Bool) (d a b : SReg)
  /-- SMIN_LIT (R114). -/
  | sminLit (u : Bool) (d a : SReg) (lit : W64)
  /-- SMAX (R114). -/
  | smax (u : Bool) (d a b : SReg)
  /-- SMAX_LIT (R114). -/
  | smaxLit (u : Bool) (d a : SReg) (lit : W64)
  /-- SCMP (R114). -/
  | scmp (cc : Cmp) (d a b : SReg)
  /-- SCMP_LIT (R114). -/
  | scmpLit (cc : Cmp) (d a : SReg) (lit : W64)
  /-- SSEL (R114). -/
  | ssel (d a b c : SReg)
  /-- SMOV (R114). -/
  | smov (d a : SReg)
  /-- SLI_W2 (R114). -/
  | sliW2 (d : SReg) (w : W32)
  /-- SLI_LIT (R114). -/
  | sliLit (d : SReg) (lit : W64)
  /-- SLI_IMM (R114). -/
  | sliImm (d : SReg) (i : BitVec 10)
  /-- SPOPC (R114). -/
  | spopc (d a : SReg)
  /-- SCLZ (R114). -/
  | sclz (d a : SReg)
  /-- SBFE (R116). -/
  | sbfe (s : Bool) (d a : SReg) (pos width : BitVec 8)
  /-- SBFI (R116). -/
  | sbfi (d a : SReg) (pos width : BitVec 8)
  /-- BR (R118). -/
  | br (m : BrMode) (off : W32)
  /-- BRD (R119). -/
  | brd (g : Guard) (target join : BitVec 16)
  /-- CALL (R120). -/
  | call (off : W32)
  /-- CALLT_SCALAR (R126). -/
  | calltScalar (a : SReg)
  /-- CALLT_SCALAR_W1 (R126). -/
  | calltScalarW1 (a : SReg)
  /-- CALLT_LANE (R126). -/
  | calltLane (a : VReg)
  /-- CALLT_LANE_W1 (R126). -/
  | calltLaneW1 (g : Option Guard) (a : VReg)
  /-- ENTER (R121). -/
  | enter (f : BitVec 3)
  /-- JTS (R126). -/
  | jts (a : SReg)
  /-- JTV (R126). -/
  | jtv (a : VReg)
  /-- JTV_W1 (R126). -/
  | jtvW1 (g : Option Guard) (a : VReg)
  /-- PAND (R136). -/
  | pand (nb : Bool) (d a b : PReg)
  /-- PAND_W1 (R136). -/
  | pandW1 (g : Option Guard) (nb : Bool) (d a b : PReg)
  /-- POR (R136). -/
  | por (nb : Bool) (d a b : PReg)
  /-- POR_W1 (R136). -/
  | porW1 (g : Option Guard) (nb : Bool) (d a b : PReg)
  /-- PXOR (R136). -/
  | pxor (nb : Bool) (d a b : PReg)
  /-- PXOR_W1 (R136). -/
  | pxorW1 (g : Option Guard) (nb : Bool) (d a b : PReg)
  /-- PNOT (R136). -/
  | pnot (d a : PReg)
  /-- PNOT_W1 (R136). -/
  | pnotW1 (g : Option Guard) (d a : PReg)
  /-- PMOV (R136). -/
  | pmov (d a : PReg)
  /-- PMOV_W1 (R136). -/
  | pmovW1 (g : Option Guard) (d a : PReg)
  /-- PPACK (R136). -/
  | ppack (d : VReg)
  /-- PPACK_W1 (R136). -/
  | ppackW1 (g : Option Guard) (d : VReg)
  /-- PUNPK (R136). -/
  | punpk (a : VReg)
  /-- PUNPK_W1 (R136). -/
  | punpkW1 (g : Option Guard) (a : VReg)
  /-- PANY (R136). -/
  | pany (d : SReg) (a : PReg)
  /-- PALL (R136). -/
  | pall (d : SReg) (a : PReg)
  /-- TRAP (R129). -/
  | trap (n : BitVec 9)
  /-- SVC (R129). -/
  | svc (n : BitVec 9)
  /-- TGET (R197). -/
  | tget (d : SReg) (n : BitVec 9)
  /-- SGET (R133). -/
  | sget (d : SReg) (r : SysReg)
  /-- SSET (R133). -/
  | sset (r : SysReg) (a : SReg)
  /-- EXGET (R134). -/
  | exget (d : SReg)
  /-- EXSET (R134). -/
  | exset (a : SReg)
  /-- RDTIME (R132). -/
  | rdtime (d : SReg)
  /-- SPAWN (R218). -/
  | spawn (r : BitVec 2) (d a : SReg)
  /-- FWAIT (R215). -/
  | fwait (d : SReg) (f : FReg)
  /-- FTEST (R215). -/
  | ftest (d : SReg) (f : FReg)
  /-- FCANCEL (R215). -/
  | fcancel (f : FReg)
  /-- FEXP (R215). -/
  | fexp (d : SReg) (f : FReg)
  /-- FIMP (R215). -/
  | fimp (f : FReg) (a : SReg)
  /-- WAITC (R130). -/
  | waitc (m : BitVec 4)
  /-- SLEEP (R131). -/
  | sleep (d a : SReg)
  /-- WAITA (R187). -/
  | waita (cc : Cmp) (d a b : SReg)
  /-- WAITA_W1 (R187). -/
  | waitaW1 (cc : Cmp) (sc : Scope) (ord : Order) (off : W32) (d a b : SReg)
  /-- WAKE (R188). -/
  | wake (a : SReg)
  /-- WAKE_W1 (R188). -/
  | wakeW1 (sc : Scope) (ord : Order) (off : W32) (a : SReg)
  /-- LDSTAT (R225). -/
  | ldstat (q : BitVec 2) (ty : Ty) (f : FReg) (a : SReg)
  /-- SWAP (R227). -/
  | swap (q : BitVec 2)
  /-- MMQ (R234). -/
  | mmq (q : BitVec 2) (fus : BitVec 2) (n : BitVec 2) (ty : Ty) (sn : Bool) (t : SReg) (a : VReg) (b : SReg)
  /-- MMQS (R234). -/
  | mmqs (q : BitVec 2) (fus : BitVec 2) (n : BitVec 2) (ty : Ty) (sn : Bool) (t : SReg) (a : VReg) (b : SReg)
  /-- TALLOC (R239). -/
  | talloc (d : SReg)
  /-- TFREE (R239). -/
  | tfree (a : SReg)
  /-- TZERO (R239). -/
  | tzero (a : SReg)
  /-- TLD (R240). -/
  | tld (c : BitVec 3) (d : VReg) (a : SReg)
  /-- TST (R240). -/
  | tst (c : BitVec 3) (ty : Ty) (rnd : Rnd) (sat : Bool) (d : VReg) (a : SReg)
  /-- BARV (R253). -/
  | barv (d a : SReg)
  /-- BWAIT (R253). -/
  | bwait (a b : SReg)
  /-- BSYNC (R253). -/
  | bsync (a : SReg)
  /-- SETLEAVE (R253). -/
  | setleave (a : SReg)
  /-- GATHER (R258). -/
  | gather (ty : Ty) (f : FReg) (a : SReg)
  /-- TCOPY (R285). -/
  | tcopy (out : Bool) (sc : Scope) (ord : Order) (cp : Cp) (f : FReg) (a : SReg)
  /-- RFENCE (R289). -/
  | rfence (a : SReg)
  /-- PUT (R292). -/
  | put (sp : Bool) (sc : Scope) (ord : Order) (f : FReg) (a : SReg)
  /-- TOWN_THREAD (R296). -/
  | townThread (a b : SReg)
  /-- TOWN_ENGINE (R296). -/
  | townEngine (a b : SReg)
  /-- GPWAIT (R341). -/
  | gpwait (d : SReg)
  /-- GPWAIT_T (R341). -/
  | gpwaitT (d a : SReg)
  /-- GPWAIT_F (R341). -/
  | gpwaitF (f : FReg)
  /-- GPWAIT_F_T (R341). -/
  | gpwaitFT (f : FReg) (a : SReg)
  /-- DFREE (R343). -/
  | dfree (a : SReg)
  /-- NMCALL (R369). -/
  | nmcall (sc : Scope) (ord : Order) (entry : BitVec 5) (f : FReg) (a : SReg)
  /-- IXRED (R371). -/
  | ixred (ty : Ty) (sc : Scope) (ord : Order) (a : SReg)
  /-- WALK (R375). -/
  | walk (sc : Scope) (ord : Order) (f : FReg) (a : SReg)
  /-- COLL (R377). -/
  | coll (sc : Scope) (ord : Order) (f : FReg) (a : SReg)
  /-- DPOST (R427). -/
  | dpost (round : W32) (f : FReg) (a : SReg)
  /-- XRUN (R434). -/
  | xrun (f : FReg) (a : SReg)
  /-- XCAL (R432). -/
  | xcal (f : FReg) (a : SReg)
  /-- VADD (R142). -/
  | vadd (s : Bool) (d a b : VReg)
  /-- VADD_W1 (R142). -/
  | vaddW1 (g : Option Guard) (ty : Ty) (sat : Bool) (s : Bool) (d a b : VReg)
  /-- VADD_LIT (R142). -/
  | vaddLit (d a : VReg) (lit : W64)
  /-- VADD_LIT_W1 (R142). -/
  | vaddLitW1 (g : Option Guard) (ty : Ty) (sat : Bool) (d a : VReg) (lit : W64)
  /-- VADD_IMM (R147). -/
  | vaddImm (d a : VReg) (i : BitVec 10)
  /-- VSUB (R142). -/
  | vsub (s : Bool) (d a b : VReg)
  /-- VSUB_W1 (R142). -/
  | vsubW1 (g : Option Guard) (ty : Ty) (sat : Bool) (s : Bool) (d a b : VReg)
  /-- VSUB_LIT (R142). -/
  | vsubLit (d a : VReg) (lit : W64)
  /-- VSUB_LIT_W1 (R142). -/
  | vsubLitW1 (g : Option Guard) (ty : Ty) (sat : Bool) (d a : VReg) (lit : W64)
  /-- VMUL (R142). -/
  | vmul (s : Bool) (d a b : VReg)
  /-- VMUL_W1 (R142). -/
  | vmulW1 (g : Option Guard) (ty : Ty) (sat : Bool) (s : Bool) (d a b : VReg)
  /-- VMUL_LIT (R142). -/
  | vmulLit (d a : VReg) (lit : W64)
  /-- VMUL_LIT_W1 (R142). -/
  | vmulLitW1 (g : Option Guard) (ty : Ty) (sat : Bool) (d a : VReg) (lit : W64)
  /-- VMULH (R142). -/
  | vmulh (u : Bool) (s : Bool) (d a b : VReg)
  /-- VMULH_W1 (R142). -/
  | vmulhW1 (g : Option Guard) (ty : Ty) (u : Bool) (s : Bool) (d a b : VReg)
  /-- VMAD (R142). -/
  | vmad (g : Option Guard) (ty : Ty) (sat : Bool) (s : Bool) (d a b c : VReg)
  /-- VADDC (R143). -/
  | vaddc (g : Option Guard) (ty : Ty) (s : Bool) (d a b : VReg) (c : PReg)
  /-- VAND (R142). -/
  | vand (s : Bool) (d a b : VReg)
  /-- VAND_W1 (R142). -/
  | vandW1 (g : Option Guard) (ty : Ty) (s : Bool) (d a b : VReg)
  /-- VAND_LIT (R142). -/
  | vandLit (d a : VReg) (lit : W64)
  /-- VAND_LIT_W1 (R142). -/
  | vandLitW1 (g : Option Guard) (ty : Ty) (d a : VReg) (lit : W64)
  /-- VAND_IMM (R147). -/
  | vandImm (d a : VReg) (i : BitVec 10)
  /-- VOR (R142). -/
  | vor (s : Bool) (d a b : VReg)
  /-- VOR_W1 (R142). -/
  | vorW1 (g : Option Guard) (ty : Ty) (s : Bool) (d a b : VReg)
  /-- VOR_LIT (R142). -/
  | vorLit (d a : VReg) (lit : W64)
  /-- VOR_LIT_W1 (R142). -/
  | vorLitW1 (g : Option Guard) (ty : Ty) (d a : VReg) (lit : W64)
  /-- VXOR (R142). -/
  | vxor (s : Bool) (d a b : VReg)
  /-- VXOR_W1 (R142). -/
  | vxorW1 (g : Option Guard) (ty : Ty) (s : Bool) (d a b : VReg)
  /-- VXOR_LIT (R142). -/
  | vxorLit (d a : VReg) (lit : W64)
  /-- VXOR_LIT_W1 (R142). -/
  | vxorLitW1 (g : Option Guard) (ty : Ty) (d a : VReg) (lit : W64)
  /-- VSHL (R144). -/
  | vshl (s : Bool) (d a b : VReg)
  /-- VSHL_W1 (R144). -/
  | vshlW1 (g : Option Guard) (ty : Ty) (s : Bool) (d a b : VReg)
  /-- VSHL_IMM (R147). -/
  | vshlImm (d a : VReg) (i : BitVec 5)
  /-- VSHR (R144). -/
  | vshr (s : Bool) (d a b : VReg)
  /-- VSHR_W1 (R144). -/
  | vshrW1 (g : Option Guard) (ty : Ty) (s : Bool) (d a b : VReg)
  /-- VSHR_IMM (R147). -/
  | vshrImm (d a : VReg) (i : BitVec 5)
  /-- VSRA (R144). -/
  | vsra (s : Bool) (d a b : VReg)
  /-- VSRA_W1 (R144). -/
  | vsraW1 (g : Option Guard) (ty : Ty) (s : Bool) (d a b : VReg)
  /-- VSRA_IMM (R147). -/
  | vsraImm (d a : VReg) (i : BitVec 5)
  /-- VMIN (R142). -/
  | vmin (u : Bool) (s : Bool) (d a b : VReg)
  /-- VMIN_W1 (R142). -/
  | vminW1 (g : Option Guard) (ty : Ty) (u : Bool) (s : Bool) (d a b : VReg)
  /-- VMIN_LIT (R142). -/
  | vminLit (u : Bool) (d a : VReg) (lit : W64)
  /-- VMIN_LIT_W1 (R142). -/
  | vminLitW1 (g : Option Guard) (ty : Ty) (u : Bool) (d a : VReg) (lit : W64)
  /-- VMAX (R142). -/
  | vmax (u : Bool) (s : Bool) (d a b : VReg)
  /-- VMAX_W1 (R142). -/
  | vmaxW1 (g : Option Guard) (ty : Ty) (u : Bool) (s : Bool) (d a b : VReg)
  /-- VMAX_LIT (R142). -/
  | vmaxLit (u : Bool) (d a : VReg) (lit : W64)
  /-- VMAX_LIT_W1 (R142). -/
  | vmaxLitW1 (g : Option Guard) (ty : Ty) (u : Bool) (d a : VReg) (lit : W64)
  /-- VPOPC (R142). -/
  | vpopc (d a : VReg)
  /-- VPOPC_W1 (R142). -/
  | vpopcW1 (g : Option Guard) (ty : Ty) (d a : VReg)
  /-- VCLZ (R142). -/
  | vclz (d a : VReg)
  /-- VCLZ_W1 (R142). -/
  | vclzW1 (g : Option Guard) (ty : Ty) (d a : VReg)
  /-- VBFE (R145). -/
  | vbfe (g : Option Guard) (ty : Ty) (s : Bool) (d a : VReg) (pos width : BitVec 8)
  /-- VBFI (R145). -/
  | vbfi (g : Option Guard) (ty : Ty) (d a : VReg) (pos width : BitVec 8)
  /-- VSEL (R146). -/
  | vsel (g : Option Guard) (ty : Ty) (d a b : VReg) (c : PReg)
  /-- VMOV (R146). -/
  | vmov (s : Bool) (d a : VReg)
  /-- VMOV_W1 (R146). -/
  | vmovW1 (g : Option Guard) (ty : Ty) (s : Bool) (d a : VReg)
  /-- VMOV_LIT (R146). -/
  | vmovLit (d : VReg) (lit : W64)
  /-- VMOV_LIT_W1 (R146). -/
  | vmovLitW1 (g : Option Guard) (ty : Ty) (d : VReg) (lit : W64)
  /-- VCMP (R146). -/
  | vcmp (g : Option Guard) (ty : Ty) (cc : Cmp) (s : Bool) (d : PReg) (a b : VReg)
  /-- FADD (R150). -/
  | fadd (s : Bool) (d a b : VReg)
  /-- FADD_W1 (R150). -/
  | faddW1 (g : Option Guard) (ty : Ty) (rnd : Rnd) (s : Bool) (d a b : VReg)
  /-- FSUB (R150). -/
  | fsub (s : Bool) (d a b : VReg)
  /-- FSUB_W1 (R150). -/
  | fsubW1 (g : Option Guard) (ty : Ty) (rnd : Rnd) (s : Bool) (d a b : VReg)
  /-- FMUL (R150). -/
  | fmul (s : Bool) (d a b : VReg)
  /-- FMUL_W1 (R150). -/
  | fmulW1 (g : Option Guard) (ty : Ty) (rnd : Rnd) (s : Bool) (d a b : VReg)
  /-- FFMA (R150). -/
  | ffma (np na : Bool) (s : Bool) (d a b : VReg)
  /-- FFMA_W1 (R150). -/
  | ffmaW1 (g : Option Guard) (ty : Ty) (rnd : Rnd) (np na : Bool) (s : Bool) (d a b c : VReg)
  /-- FMIN (R151). -/
  | fmin (num : Bool) (d a b : VReg)
  /-- FMIN_W1 (R151). -/
  | fminW1 (g : Option Guard) (ty : Ty) (num : Bool) (d a b : VReg)
  /-- FMAX (R151). -/
  | fmax (num : Bool) (d a b : VReg)
  /-- FMAX_W1 (R151). -/
  | fmaxW1 (g : Option Guard) (ty : Ty) (num : Bool) (d a b : VReg)
  /-- FCMP (R152). -/
  | fcmp (g : Option Guard) (ty : Ty) (cc : FCmp) (s : Bool) (d : PReg) (a b : VReg)
  /-- FCLASS (R153). -/
  | fclass (d a : VReg)
  /-- FCLASS_W1 (R153). -/
  | fclassW1 (g : Option Guard) (ty : Ty) (d a : VReg)
  /-- FRND (R154). -/
  | frnd (g : Option Guard) (ty : Ty) (rnd : Rnd) (d a : VReg)
  /-- CVT (R155). -/
  | cvt (g : Option Guard) (ty : Ty) (rnd : Rnd) (sat : Bool) (src : Ty) (d a : VReg)
  /-- PKADD (R156). -/
  | pkadd (d a b : VReg)
  /-- PKADD_W1 (R156). -/
  | pkaddW1 (g : Option Guard) (ty : Ty) (rnd : Rnd) (d a b : VReg)
  /-- PKMUL (R156). -/
  | pkmul (d a b : VReg)
  /-- PKMUL_W1 (R156). -/
  | pkmulW1 (g : Option Guard) (ty : Ty) (rnd : Rnd) (d a b : VReg)
  /-- PKFMA (R156). -/
  | pkfma (d a b : VReg)
  /-- PKFMA_W1 (R156). -/
  | pkfmaW1 (g : Option Guard) (ty : Ty) (rnd : Rnd) (d a b c : VReg)
  /-- VSHFL (R161). -/
  | vshfl (m : BitVec 2) (d a b : VReg)
  /-- VSHFL_W1 (R161). -/
  | vshflW1 (g : Option Guard) (ty : Ty) (m : BitVec 2) (d a b : VReg)
  /-- VROT (R161). -/
  | vrot (d a : VReg) (b : SReg)
  /-- VROT_W1 (R161). -/
  | vrotW1 (g : Option Guard) (ty : Ty) (d a : VReg) (b : SReg)
  /-- VBCAST (R161). -/
  | vbcast (d a : VReg) (b : SReg)
  /-- VBCAST_W1 (R161). -/
  | vbcastW1 (g : Option Guard) (ty : Ty) (d a : VReg) (b : SReg)
  /-- VBALLOT (R162). -/
  | vballot (d : SReg) (a : PReg)
  /-- VBALLOT_W1 (R162). -/
  | vballotW1 (g : Option Guard) (d : SReg) (a : PReg)
  /-- VRADD (R163). -/
  | vradd (d : SReg) (a : VReg)
  /-- VRADD_W1 (R163). -/
  | vraddW1 (g : Option Guard) (ty : Ty) (d : SReg) (a : VReg)
  /-- VRMIN (R163). -/
  | vrmin (u : Bool) (d : SReg) (a : VReg)
  /-- VRMIN_W1 (R163). -/
  | vrminW1 (g : Option Guard) (ty : Ty) (u : Bool) (d : SReg) (a : VReg)
  /-- VRMAX (R163). -/
  | vrmax (u : Bool) (d : SReg) (a : VReg)
  /-- VRMAX_W1 (R163). -/
  | vrmaxW1 (g : Option Guard) (ty : Ty) (u : Bool) (d : SReg) (a : VReg)
  /-- VSCAN (R164). -/
  | vscan (g : Option Guard) (ty : Ty) (op : ScanOp) (excl : Bool) (d a : VReg)
  /-- VDOT4 (R111). -/
  | vdot4 (ua ub : Bool) (d a b : VReg)
  /-- VDOT4_W1 (R111). -/
  | vdot4W1 (g : Option Guard) (sat : Bool) (ua ub : Bool) (d a b c : VReg)
  /-- VDOT2H (R111). -/
  | vdot2h (d a b : VReg)
  /-- VDOT2H_W1 (R111). -/
  | vdot2hW1 (g : Option Guard) (ty : Ty) (d a b c : VReg)
  /-- LD (R175). -/
  | ld (m : MemOp) (d : VReg)
  /-- LD_W1 (R175). -/
  | ldW1 (g : Option Guard) (ty : Ty) (sc : Scope) (ord : Order) (cp : Cp) (m : MemOp) (off : W32) (d : VReg)
  /-- ST (R175). -/
  | st (m : MemOp) (d : VReg)
  /-- ST_W1 (R175). -/
  | stW1 (g : Option Guard) (ty : Ty) (sc : Scope) (ord : Order) (cp : Cp) (m : MemOp) (off : W32) (d : VReg)
  /-- LDG (R175). -/
  | ldg (m : MemOp) (d : VReg)
  /-- LDG_W1 (R175). -/
  | ldgW1 (g : Option Guard) (ty : Ty) (sc : Scope) (ord : Order) (cp : Cp) (m : MemOp) (off : W32) (d : VReg)
  /-- STG (R175). -/
  | stg (m : MemOp) (d : VReg)
  /-- STG_W1 (R175). -/
  | stgW1 (g : Option Guard) (ty : Ty) (sc : Scope) (ord : Order) (cp : Cp) (m : MemOp) (off : W32) (d : VReg)
  /-- LDP (R175). -/
  | ldp (x : Option Idx) (d : VReg)
  /-- LDP_W1 (R175). -/
  | ldpW1 (g : Option Guard) (ty : Ty) (x : Option Idx) (off : W32) (d : VReg)
  /-- STP (R175). -/
  | stp (x : Option Idx) (d : VReg)
  /-- STP_W1 (R175). -/
  | stpW1 (g : Option Guard) (ty : Ty) (x : Option Idx) (off : W32) (d : VReg)
  /-- ATOM (R180). -/
  | atom (g : Option Guard) (ty : Ty) (sc : Scope) (ord : Order) (cp : Cp) (op : AtomOp) (m : MemOp) (off : W32) (d c : VReg)
  /-- ATOMG (R180). -/
  | atomg (g : Option Guard) (ty : Ty) (sc : Scope) (ord : Order) (op : AtomOp) (m : MemOp) (off : W32) (d c : VReg)
  /-- RED (R180). -/
  | red (g : Option Guard) (ty : Ty) (sc : Scope) (ord : Order) (cp : Cp) (op : AtomOp) (m : MemOp) (off : W32) (d : VReg)
  /-- PREF (R184). -/
  | pref (m : MemOp)
  /-- PREF_W1 (R184). -/
  | prefW1 (g : Option Guard) (cp : Cp) (m : MemOp) (off : W32)
  /-- FENCE (R185). -/
  | fence (sc : Scope) (ord : Order)
  /-- CCTL (R186). -/
  | cctl (op : BitVec 2) (m : MemOp) (off : W32)
  /-- REMLD (R422). -/
  | remld (g : Option Guard) (ty : Ty) (sc : Scope) (ord : Order) (off : W32) (d a b : VReg)
  /-- REMST (R422). -/
  | remst (g : Option Guard) (ty : Ty) (sc : Scope) (ord : Order) (off : W32) (d a b : VReg)
  /-- REMATOM (R422). -/
  | rematom (g : Option Guard) (ty : Ty) (sc : Scope) (ord : Order) (op : AtomOp) (off : W32) (d a b c : VReg)
  /-- RRED (R425). -/
  | rred (g : Option Guard) (ty : Ty) (op : AtomOp) (f : FReg) (a : VReg) (b : SReg)
  /-- GRED (R372). -/
  | gred (g : Option Guard) (ty : Ty) (op : AtomOp) (d a : VReg)
  /-- RET (R122). -/
  | ret
  /-- EXIT (R127). -/
  | exit
  /-- NOP (R128). -/
  | nop
  /-- YIELD (R128). -/
  | yield
  /-- RETT (R197). -/
  | rett
  /-- RSOPEN (R339). -/
  | rsopen
  /-- RSCLOSE (R339). -/
  | rsclose
  /-- XRCP (R160). -/
  | xrcp (d a : VReg)
  /-- XRCP_W1 (R160). -/
  | xrcpW1 (g : Option Guard) (d a : VReg)
  /-- XRSQ (R160). -/
  | xrsq (d a : VReg)
  /-- XRSQ_W1 (R160). -/
  | xrsqW1 (g : Option Guard) (d a : VReg)
  /-- XSQRT (R160). -/
  | xsqrt (d a : VReg)
  /-- XSQRT_W1 (R160). -/
  | xsqrtW1 (g : Option Guard) (d a : VReg)
  /-- XEXP2 (R160). -/
  | xexp2 (d a : VReg)
  /-- XEXP2_W1 (R160). -/
  | xexp2W1 (g : Option Guard) (d a : VReg)
  /-- XLOG2 (R160). -/
  | xlog2 (d a : VReg)
  /-- XLOG2_W1 (R160). -/
  | xlog2W1 (g : Option Guard) (d a : VReg)
  /-- XSIN (R160). -/
  | xsin (d a : VReg)
  /-- XSIN_W1 (R160). -/
  | xsinW1 (g : Option Guard) (d a : VReg)
  /-- XCOS (R160). -/
  | xcos (d a : VReg)
  /-- XCOS_W1 (R160). -/
  | xcosW1 (g : Option Guard) (d a : VReg)
  /-- XTANH (R160). -/
  | xtanh (d a : VReg)
  /-- XTANH_W1 (R160). -/
  | xtanhW1 (g : Option Guard) (d a : VReg)
  /-- RNGSEED (R167). -/
  | rngseed (a b : SReg)
  /-- RNG (R167). -/
  | rng (unit : Bool) (d : VReg)
  /-- RNG_W1 (R167). -/
  | rngW1 (g : Option Guard) (unit : Bool) (d : VReg)
  /-- RNGSKIP (R167). -/
  | rngskip (a : SReg)
  /-- BUNDLE_DECODE (R25). -/
  | bundleDecode
  /-- INSTRUCTION_CACHE_MISS (R35). -/
  | instructionCacheMiss
  /-- MULTICAST_FILL (R36). -/
  | multicastFill (i : Nat)
  /-- JOIN_ARRIVAL (R78). -/
  | joinArrival
  /-- LOAD_RESULT_RETURN (R174). -/
  | loadResultReturn (i : Nat) (lanes : BitVec 32) (rem : List RemLane)
  /-- STORE_PERFORMED (R174). -/
  | storePerformed (i : Nat)
  /-- SFU_RESULT (R159). -/
  | sfuResult (i : Nat)
  /-- TRANSLATION_WALK_DONE (R173). -/
  | translationWalkDone (i : Nat)
  /-- STAGE2_FAULT_TO_ROOT (R281). -/
  | stage2FaultToRoot (i : Nat)
  /-- TRAP_ENTRY (R191). -/
  | trapEntry
  /-- SLEEP_DEADLINE (R131). -/
  | sleepDeadline
  /-- WAITA_REREAD (R187). -/
  | waitaReread
  /-- WAITA_POLL_TIMEOUT (R187). -/
  | waitaPollTimeout
  /-- BANK_SWITCH (R205). -/
  | bankSwitch (part bank : Nat)
  /-- GANG_ADMIT (R207). -/
  | gangAdmit (i : Nat)
  /-- GANG_RETIRE (R209). -/
  | gangRetire (key : Nat)
  /-- LDSTAT_LOAD_END (R225). -/
  | ldstatLoadEnd (i : Nat)
  /-- SWAP_EFFECT (R228). -/
  | swapEffect (i : Nat)
  /-- MATRIX_PASS_GRANT (R230). -/
  | matrixPassGrant (i : Nat)
  /-- MATRIX_ENTRY_APPLIED (R234). -/
  | matrixEntryApplied (i : Nat)
  /-- TILE_STORE_SERVE (R240). -/
  | tileStoreServe (i : Nat)
  /-- BARRIER_TIMEOUT (R256). -/
  | barrierTimeout (key n : Nat)
  /-- GATHER_SERVICE (R260). -/
  | gatherService (i : Nat)
  /-- GATHER_COMPLETE (R259). -/
  | gatherComplete (i : Nat)
  /-- RECORD_FILL (R288). -/
  | recordFill (i : Nat)
  /-- TCOPY_COMPLETE (R286). -/
  | tcopyComplete (i n : Nat)
  /-- PUT_ARRIVAL (R292). -/
  | putArrival (i : Nat)
  /-- PUT_COMPLETE (R293). -/
  | putComplete (i : Nat)
  /-- L2_EVICTION (R271). -/
  | l2Eviction (i : Nat)
  /-- WRITEBACK_ACK (R359). -/
  | writebackAck (i : Nat)
  /-- FENCE_RELEASE_DONE (R185). -/
  | fenceReleaseDone
  /-- ENTRY_START (R319). -/
  | entryStart (i : Nat)
  /-- WAIT_CONDITION_POLL (R319). -/
  | waitConditionPoll (i : Nat)
  /-- LAUNCH_COMPLETE (R327). -/
  | launchComplete (i : Nat)
  /-- STEAL_REQUEST (R326). -/
  | stealRequest (thief victim launch : Nat)
  /-- SLICE_END (R333). -/
  | sliceEnd (part : Nat)
  /-- CONTEXT_LOAD (R331). -/
  | contextLoad (i : Nat)
  /-- GANG_SAVE (R334). -/
  | gangSave (key : Nat)
  /-- GANG_RESUME (R337). -/
  | gangResume (i : Nat)
  /-- SAVED_RESOLUTION_APPLY (R335). -/
  | savedResolutionApply (i : Nat)
  /-- SYNC_ENGINE_TAKEOVER (R336). -/
  | syncEngineTakeover
  /-- GRACE_PERIOD_END (R340). -/
  | gracePeriodEnd (i : Nat)
  /-- GPWAIT_DEADLINE (R341). -/
  | gpwaitDeadline (i : Nat)
  /-- BATCH_CLOSE (R344). -/
  | batchClose (i : Nat)
  /-- BATCH_PUSH (R344). -/
  | batchPush (i : Nat)
  /-- REGULATOR_TAKEOVER (R345). -/
  | regulatorTakeover
  /-- NMU_STEP (R363). -/
  | nmuStep (ch : Nat)
  /-- NMCALL_COMPLETE (R369). -/
  | nmcallComplete (i : Nat)
  /-- NMU_WATCHDOG (R365). -/
  | nmuWatchdog (ch : Nat)
  /-- IXRED_COMPLETE (R371). -/
  | ixredComplete (i : Nat)
  /-- GRED_SHARE_RETURN (R372). -/
  | gredShareReturn (i : Nat)
  /-- WALK_HOP (R375). -/
  | walkHop (i w : Nat)
  /-- COLL_LINE (R377). -/
  | collLine (stack : Nat)
  /-- SEQUENCER_WATCHDOG (R378). -/
  | sequencerWatchdog (stack : Nat)
  /-- REFRESH_PAUSE (R379). -/
  | refreshPause (ch : Nat)
  /-- RATE_LIMITED_INJECT (R360). -/
  | rateLimitedInject (i : Nat)
  /-- POWER_STATE_NOTICE (R361). -/
  | powerStateNotice (die quad : Nat) (enter : Bool)
  /-- DIE_FAILURE (R361). -/
  | dieFailure (die : Nat)
  /-- ROOT_TAKEOVER (R390). -/
  | rootTakeover (lost : Nat)
  /-- GET_VERSION (R391). -/
  | getVersion (pf : Nat) (req : List Byte)
  /-- GET_CAPABILITIES (R391). -/
  | getCapabilities (pf : Nat) (req : List Byte)
  /-- NEGOTIATE_ALGORITHMS (R391). -/
  | negotiateAlgorithms (pf : Nat) (req : List Byte)
  /-- GET_DIGESTS (R391). -/
  | getDigests (pf : Nat) (req : List Byte)
  /-- GET_CERTIFICATE (R391). -/
  | getCertificate (pf : Nat) (req : List Byte)
  /-- CHALLENGE (R391). -/
  | challenge (pf : Nat) (req : List Byte)
  /-- GET_MEASUREMENTS (R391). -/
  | getMeasurements (pf : Nat) (req : List Byte)
  /-- KEY_EXCHANGE (R391). -/
  | keyExchange (pf : Nat) (req : List Byte)
  /-- FINISH (R391). -/
  | finish (pf : Nat) (req : List Byte)
  /-- END_SESSION (R391). -/
  | endSession (pf : Nat) (req : List Byte)
  /-- KEY_SET (R392). -/
  | keySet (pf vf : Nat) (secret : List Byte)
  /-- POLICY_SET (R395). -/
  | policySet (pf vf : Nat) (policy : List Byte)
  /-- VF_QUERY (R392). -/
  | vfQuery (pf vf : Nat)
  /-- ALLOC (R400). -/
  | alloc (pf tag vf size : Nat) (localBand : Bool) (stack : Nat)
  /-- HWIN (R400). -/
  | hwin (pf tag vf dataBase tagBase len : Nat)
  /-- FREE (R400). -/
  | free (pf tag handle : Nat)
  /-- MAP (R400). -/
  | map (pf tag vf part handle ia off len : Nat)
  /-- UNMAP (R400). -/
  | unmap (pf tag vf part ia len : Nat)
  /-- QCREATE (R400). -/
  | qcreate (pf tag vf part q level handle logN ctr : Nat) (intr : Bool)
  /-- QDESTROY (R400). -/
  | qdestroy (pf tag vf q : Nat)
  /-- PAUSE (R402). -/
  | pause (pf tag vf part : Nat)
  /-- UNPAUSE (R400). -/
  | unpause (pf tag vf part : Nat)
  /-- EVICT (R402). -/
  | evict (pf tag vf part : Nat)
  /-- RESIZE (R400). -/
  | resize (pf tag vf part quota : Nat)
  /-- PARTITION (R387). -/
  | partition (pf tag die quad part : Nat)
  /-- RESET (R400). -/
  | reset (pf tag vf part : Nat)
  /-- SETLTOL (R400). -/
  | setltol (pf tag vf ns : Nat)
  /-- DUMPGET (R412). -/
  | dumpget (pf tag sec dest : Nat)
  /-- SAVEAREA (R400). -/
  | savearea (pf tag vf part handle : Nat)
  /-- DOORBELL (R404). -/
  | doorbell (vf q t : Nat)
  /-- QSTAT_WRITE (R403). -/
  | qstatWrite (vf q : Nat) (v : W64)
  /-- LOAD_RECORD (R405). -/
  | loadRecord (vf off : Nat) (bytes : List Byte)
  /-- LSTAT_READ (R405): function and offset of the register that is read, as 65,536 × function + offset. -/
  | lstatRead (reg : Nat)
  /-- REGISTER_WRITE (R403). -/
  | registerWrite (vf bar off : Nat) (bytes : List Byte)
  /-- POWER_STATE_CHANGE (R407). -/
  | powerStateChange (unit : PowerUnit)
  /-- POWER_EXIT_COMPLETE (R407). -/
  | powerExitComplete (unit : PowerUnit)
  /-- POWER_GOOD (R408). -/
  | powerGood
  /-- CALIBRATION_END (R408). -/
  | calibrationEnd (die : Nat)
  /-- FATAL_ERROR (R410). -/
  | fatalError (cls : Nat)
  /-- CLOCK_SYNC (R416). -/
  | clockSync (master : Nat) (inBound : Bool)
  /-- REMOTE_TLB_FILL (R419). -/
  | remoteTlbFill (i : Nat) (reply : RemReply)
  /-- REMOTE_TLB_TIMEOUT (R419). -/
  | remoteTlbTimeout (i : Nat)
  /-- REMOTE_ACCESS_ARRIVAL (R423). -/
  | remoteAccessArrival (req : RemReq)
  /-- RRED_CONTRIBUTION (R425). -/
  | rredContribution (msg : RredMsg)
  /-- RRED_TIMEOUT (R425). -/
  | rredTimeout (i : Nat)
  /-- WEAVER_ROW_ARRIVAL (R430). -/
  | weaverRowArrival (standby : Bool) (msg : RowMsg)
  /-- WEAVER_COLLECT_TIMEOUT (R430). -/
  | weaverCollectTimeout (i : Nat)
  /-- WEAVER_TAKEOVER (R431). -/
  | weaverTakeover
  /-- CALENDAR_ARRIVAL (R431). -/
  | calendarArrival (msg : CalMsg)
  /-- WEAVER_QUERY (R434). -/
  | weaverQuery (i : Nat) (answered : Bool)
  /-- XCH_SLOT_START (R434). -/
  | xchSlotStart (i k : Nat)
  /-- XCH_OVERFLOW_START (R434). -/
  | xchOverflowStart (i : Nat)
  /-- XCH_DATA_ARRIVAL (R434). -/
  | xchDataArrival (msg : XchMsg)
  /-- XRUN_TIMEOUT (R434). -/
  | xrunTimeout (i : Nat)
  /-- CANCEL_ACKNOWLEDGE (R215). -/
  | cancelAcknowledge (i : Nat)
  /-- HEARTBEAT (R431). -/
  | heartbeat (agent : Agent) (missed : Nat) (rounds : List (Nat × Nat))
  /-- PACKAGE_RESET (R410). -/
  | packageReset
  /-- PACKAGE_LOST (R425). -/
  | packageLost (pkg : Nat)
  /-- EXTERNAL_PORT_CHANGE (R414). -/
  | externalPortChange (port : Nat) (works : Bool)
  /-- THROTTLING (R406). -/
  | throttling (die mhz : Nat)
  /-- DPOST_ACKNOWLEDGE_TIMEOUT (R427). -/
  | dpostAcknowledgeTimeout (i : Nat)
  /-- XCH_SLOT_END (R434). -/
  | xchSlotEnd (i k : Nat)
  /-- REFRESH_COMPLETE (R379). -/
  | refreshComplete (ch : Nat)
  deriving DecidableEq, Repr

/-- The words an instruction occupies in its bundle (R11); 0 for an event. -/
def Instr.words : Instr → Nat
  | .sadd _ _ _ => 1
  | .saddLit _ _ _ => 3
  | .saddImm _ _ _ => 1
  | .ssub _ _ _ => 1
  | .ssubLit _ _ _ => 3
  | .smul _ _ _ => 1
  | .smulLit _ _ _ => 3
  | .smulh _ _ _ _ => 1
  | .smulhLit _ _ _ _ => 3
  | .sand _ _ _ => 1
  | .sandLit _ _ _ => 3
  | .sandImm _ _ _ => 1
  | .sor _ _ _ => 1
  | .sorLit _ _ _ => 3
  | .sorImm _ _ _ => 1
  | .sxor _ _ _ => 1
  | .sxorLit _ _ _ => 3
  | .sxorImm _ _ _ => 1
  | .sshl _ _ _ => 1
  | .sshlImm _ _ _ => 1
  | .sshr _ _ _ => 1
  | .sshrImm _ _ _ => 1
  | .ssra _ _ _ => 1
  | .ssraImm _ _ _ => 1
  | .smin _ _ _ _ => 1
  | .sminLit _ _ _ _ => 3
  | .smax _ _ _ _ => 1
  | .smaxLit _ _ _ _ => 3
  | .scmp _ _ _ _ => 1
  | .scmpLit _ _ _ _ => 3
  | .ssel _ _ _ _ => 3
  | .smov _ _ => 1
  | .sliW2 _ _ => 3
  | .sliLit _ _ => 3
  | .sliImm _ _ => 1
  | .spopc _ _ => 1
  | .sclz _ _ => 1
  | .sbfe _ _ _ _ _ => 3
  | .sbfi _ _ _ _ => 3
  | .br _ _ => 3
  | .brd _ _ _ => 3
  | .call _ => 3
  | .calltScalar _ => 1
  | .calltScalarW1 _ => 3
  | .calltLane _ => 1
  | .calltLaneW1 _ _ => 3
  | .enter _ => 1
  | .jts _ => 1
  | .jtv _ => 1
  | .jtvW1 _ _ => 3
  | .pand _ _ _ _ => 1
  | .pandW1 _ _ _ _ _ => 3
  | .por _ _ _ _ => 1
  | .porW1 _ _ _ _ _ => 3
  | .pxor _ _ _ _ => 1
  | .pxorW1 _ _ _ _ _ => 3
  | .pnot _ _ => 1
  | .pnotW1 _ _ _ => 3
  | .pmov _ _ => 1
  | .pmovW1 _ _ _ => 3
  | .ppack _ => 1
  | .ppackW1 _ _ => 3
  | .punpk _ => 1
  | .punpkW1 _ _ => 3
  | .pany _ _ => 1
  | .pall _ _ => 1
  | .trap _ => 1
  | .svc _ => 1
  | .tget _ _ => 1
  | .sget _ _ => 1
  | .sset _ _ => 1
  | .exget _ => 1
  | .exset _ => 1
  | .rdtime _ => 1
  | .spawn _ _ _ => 1
  | .fwait _ _ => 1
  | .ftest _ _ => 1
  | .fcancel _ => 1
  | .fexp _ _ => 1
  | .fimp _ _ => 1
  | .waitc _ => 1
  | .sleep _ _ => 1
  | .waita _ _ _ _ => 1
  | .waitaW1 _ _ _ _ _ _ _ => 3
  | .wake _ => 1
  | .wakeW1 _ _ _ _ => 3
  | .ldstat _ _ _ _ => 3
  | .swap _ => 1
  | .mmq _ _ _ _ _ _ _ _ => 3
  | .mmqs _ _ _ _ _ _ _ _ => 3
  | .talloc _ => 1
  | .tfree _ => 1
  | .tzero _ => 1
  | .tld _ _ _ => 3
  | .tst _ _ _ _ _ _ => 3
  | .barv _ _ => 1
  | .bwait _ _ => 1
  | .bsync _ => 1
  | .setleave _ => 1
  | .gather _ _ _ => 3
  | .tcopy _ _ _ _ _ _ => 3
  | .rfence _ => 1
  | .put _ _ _ _ _ => 3
  | .townThread _ _ => 1
  | .townEngine _ _ => 1
  | .gpwait _ => 1
  | .gpwaitT _ _ => 1
  | .gpwaitF _ => 1
  | .gpwaitFT _ _ => 1
  | .dfree _ => 1
  | .nmcall _ _ _ _ _ => 3
  | .ixred _ _ _ _ => 3
  | .walk _ _ _ _ => 3
  | .coll _ _ _ _ => 3
  | .dpost _ _ _ => 3
  | .xrun _ _ => 1
  | .xcal _ _ => 1
  | .vadd _ _ _ _ => 1
  | .vaddW1 _ _ _ _ _ _ _ => 3
  | .vaddLit _ _ _ => 3
  | .vaddLitW1 _ _ _ _ _ _ => 5
  | .vaddImm _ _ _ => 1
  | .vsub _ _ _ _ => 1
  | .vsubW1 _ _ _ _ _ _ _ => 3
  | .vsubLit _ _ _ => 3
  | .vsubLitW1 _ _ _ _ _ _ => 5
  | .vmul _ _ _ _ => 1
  | .vmulW1 _ _ _ _ _ _ _ => 3
  | .vmulLit _ _ _ => 3
  | .vmulLitW1 _ _ _ _ _ _ => 5
  | .vmulh _ _ _ _ _ => 1
  | .vmulhW1 _ _ _ _ _ _ _ => 3
  | .vmad _ _ _ _ _ _ _ _ => 3
  | .vaddc _ _ _ _ _ _ _ => 3
  | .vand _ _ _ _ => 1
  | .vandW1 _ _ _ _ _ _ => 3
  | .vandLit _ _ _ => 3
  | .vandLitW1 _ _ _ _ _ => 5
  | .vandImm _ _ _ => 1
  | .vor _ _ _ _ => 1
  | .vorW1 _ _ _ _ _ _ => 3
  | .vorLit _ _ _ => 3
  | .vorLitW1 _ _ _ _ _ => 5
  | .vxor _ _ _ _ => 1
  | .vxorW1 _ _ _ _ _ _ => 3
  | .vxorLit _ _ _ => 3
  | .vxorLitW1 _ _ _ _ _ => 5
  | .vshl _ _ _ _ => 1
  | .vshlW1 _ _ _ _ _ _ => 3
  | .vshlImm _ _ _ => 1
  | .vshr _ _ _ _ => 1
  | .vshrW1 _ _ _ _ _ _ => 3
  | .vshrImm _ _ _ => 1
  | .vsra _ _ _ _ => 1
  | .vsraW1 _ _ _ _ _ _ => 3
  | .vsraImm _ _ _ => 1
  | .vmin _ _ _ _ _ => 1
  | .vminW1 _ _ _ _ _ _ _ => 3
  | .vminLit _ _ _ _ => 3
  | .vminLitW1 _ _ _ _ _ _ => 5
  | .vmax _ _ _ _ _ => 1
  | .vmaxW1 _ _ _ _ _ _ _ => 3
  | .vmaxLit _ _ _ _ => 3
  | .vmaxLitW1 _ _ _ _ _ _ => 5
  | .vpopc _ _ => 1
  | .vpopcW1 _ _ _ _ => 3
  | .vclz _ _ => 1
  | .vclzW1 _ _ _ _ => 3
  | .vbfe _ _ _ _ _ _ _ => 3
  | .vbfi _ _ _ _ _ _ => 3
  | .vsel _ _ _ _ _ _ => 3
  | .vmov _ _ _ => 1
  | .vmovW1 _ _ _ _ _ => 3
  | .vmovLit _ _ => 3
  | .vmovLitW1 _ _ _ _ => 5
  | .vcmp _ _ _ _ _ _ _ => 3
  | .fadd _ _ _ _ => 1
  | .faddW1 _ _ _ _ _ _ _ => 3
  | .fsub _ _ _ _ => 1
  | .fsubW1 _ _ _ _ _ _ _ => 3
  | .fmul _ _ _ _ => 1
  | .fmulW1 _ _ _ _ _ _ _ => 3
  | .ffma _ _ _ _ _ _ => 1
  | .ffmaW1 _ _ _ _ _ _ _ _ _ _ => 3
  | .fmin _ _ _ _ => 1
  | .fminW1 _ _ _ _ _ _ => 3
  | .fmax _ _ _ _ => 1
  | .fmaxW1 _ _ _ _ _ _ => 3
  | .fcmp _ _ _ _ _ _ _ => 3
  | .fclass _ _ => 1
  | .fclassW1 _ _ _ _ => 3
  | .frnd _ _ _ _ _ => 3
  | .cvt _ _ _ _ _ _ _ => 3
  | .pkadd _ _ _ => 1
  | .pkaddW1 _ _ _ _ _ _ => 3
  | .pkmul _ _ _ => 1
  | .pkmulW1 _ _ _ _ _ _ => 3
  | .pkfma _ _ _ => 1
  | .pkfmaW1 _ _ _ _ _ _ _ => 3
  | .vshfl _ _ _ _ => 1
  | .vshflW1 _ _ _ _ _ _ => 3
  | .vrot _ _ _ => 1
  | .vrotW1 _ _ _ _ _ => 3
  | .vbcast _ _ _ => 1
  | .vbcastW1 _ _ _ _ _ => 3
  | .vballot _ _ => 1
  | .vballotW1 _ _ _ => 3
  | .vradd _ _ => 1
  | .vraddW1 _ _ _ _ => 3
  | .vrmin _ _ _ => 1
  | .vrminW1 _ _ _ _ _ => 3
  | .vrmax _ _ _ => 1
  | .vrmaxW1 _ _ _ _ _ => 3
  | .vscan _ _ _ _ _ _ => 3
  | .vdot4 _ _ _ _ _ => 1
  | .vdot4W1 _ _ _ _ _ _ _ _ => 3
  | .vdot2h _ _ _ => 1
  | .vdot2hW1 _ _ _ _ _ _ => 3
  | .ld _ _ => 1
  | .ldW1 _ _ _ _ _ _ _ _ => 3
  | .st _ _ => 1
  | .stW1 _ _ _ _ _ _ _ _ => 3
  | .ldg _ _ => 1
  | .ldgW1 _ _ _ _ _ _ _ _ => 3
  | .stg _ _ => 1
  | .stgW1 _ _ _ _ _ _ _ _ => 3
  | .ldp _ _ => 1
  | .ldpW1 _ _ _ _ _ => 3
  | .stp _ _ => 1
  | .stpW1 _ _ _ _ _ => 3
  | .atom _ _ _ _ _ _ _ _ _ _ => 3
  | .atomg _ _ _ _ _ _ _ _ _ => 3
  | .red _ _ _ _ _ _ _ _ _ => 3
  | .pref _ => 1
  | .prefW1 _ _ _ _ => 3
  | .fence _ _ => 3
  | .cctl _ _ _ => 3
  | .remld _ _ _ _ _ _ _ _ => 3
  | .remst _ _ _ _ _ _ _ _ => 3
  | .rematom _ _ _ _ _ _ _ _ _ _ => 3
  | .rred _ _ _ _ _ _ => 3
  | .gred _ _ _ _ _ => 3
  | .ret => 1
  | .exit => 1
  | .nop => 1
  | .yield => 1
  | .rett => 1
  | .rsopen => 1
  | .rsclose => 1
  | .xrcp _ _ => 1
  | .xrcpW1 _ _ _ => 3
  | .xrsq _ _ => 1
  | .xrsqW1 _ _ _ => 3
  | .xsqrt _ _ => 1
  | .xsqrtW1 _ _ _ => 3
  | .xexp2 _ _ => 1
  | .xexp2W1 _ _ _ => 3
  | .xlog2 _ _ => 1
  | .xlog2W1 _ _ _ => 3
  | .xsin _ _ => 1
  | .xsinW1 _ _ _ => 3
  | .xcos _ _ => 1
  | .xcosW1 _ _ _ => 3
  | .xtanh _ _ => 1
  | .xtanhW1 _ _ _ => 3
  | .rngseed _ _ => 1
  | .rng _ _ => 1
  | .rngW1 _ _ _ => 3
  | .rngskip _ => 1
  | .bundleDecode => 0
  | .instructionCacheMiss => 0
  | .multicastFill _ => 0
  | .joinArrival => 0
  | .loadResultReturn _ _ _ => 0
  | .storePerformed _ => 0
  | .sfuResult _ => 0
  | .translationWalkDone _ => 0
  | .stage2FaultToRoot _ => 0
  | .trapEntry => 0
  | .sleepDeadline => 0
  | .waitaReread => 0
  | .waitaPollTimeout => 0
  | .bankSwitch _ _ => 0
  | .gangAdmit _ => 0
  | .gangRetire _ => 0
  | .ldstatLoadEnd _ => 0
  | .swapEffect _ => 0
  | .matrixPassGrant _ => 0
  | .matrixEntryApplied _ => 0
  | .tileStoreServe _ => 0
  | .barrierTimeout _ _ => 0
  | .gatherService _ => 0
  | .gatherComplete _ => 0
  | .recordFill _ => 0
  | .tcopyComplete _ _ => 0
  | .putArrival _ => 0
  | .putComplete _ => 0
  | .l2Eviction _ => 0
  | .writebackAck _ => 0
  | .fenceReleaseDone => 0
  | .entryStart _ => 0
  | .waitConditionPoll _ => 0
  | .launchComplete _ => 0
  | .stealRequest _ _ _ => 0
  | .sliceEnd _ => 0
  | .contextLoad _ => 0
  | .gangSave _ => 0
  | .gangResume _ => 0
  | .savedResolutionApply _ => 0
  | .syncEngineTakeover => 0
  | .gracePeriodEnd _ => 0
  | .gpwaitDeadline _ => 0
  | .batchClose _ => 0
  | .batchPush _ => 0
  | .regulatorTakeover => 0
  | .nmuStep _ => 0
  | .nmcallComplete _ => 0
  | .nmuWatchdog _ => 0
  | .ixredComplete _ => 0
  | .gredShareReturn _ => 0
  | .walkHop _ _ => 0
  | .collLine _ => 0
  | .sequencerWatchdog _ => 0
  | .refreshPause _ => 0
  | .rateLimitedInject _ => 0
  | .powerStateNotice _ _ _ => 0
  | .dieFailure _ => 0
  | .rootTakeover _ => 0
  | .getVersion _ _ => 0
  | .getCapabilities _ _ => 0
  | .negotiateAlgorithms _ _ => 0
  | .getDigests _ _ => 0
  | .getCertificate _ _ => 0
  | .challenge _ _ => 0
  | .getMeasurements _ _ => 0
  | .keyExchange _ _ => 0
  | .finish _ _ => 0
  | .endSession _ _ => 0
  | .keySet _ _ _ => 0
  | .policySet _ _ _ => 0
  | .vfQuery _ _ => 0
  | .alloc _ _ _ _ _ _ => 0
  | .hwin _ _ _ _ _ _ => 0
  | .free _ _ _ => 0
  | .map _ _ _ _ _ _ _ _ => 0
  | .unmap _ _ _ _ _ _ => 0
  | .qcreate _ _ _ _ _ _ _ _ _ _ => 0
  | .qdestroy _ _ _ _ => 0
  | .pause _ _ _ _ => 0
  | .unpause _ _ _ _ => 0
  | .evict _ _ _ _ => 0
  | .resize _ _ _ _ _ => 0
  | .partition _ _ _ _ _ => 0
  | .reset _ _ _ _ => 0
  | .setltol _ _ _ _ => 0
  | .dumpget _ _ _ _ => 0
  | .savearea _ _ _ _ _ => 0
  | .doorbell _ _ _ => 0
  | .qstatWrite _ _ _ => 0
  | .loadRecord _ _ _ => 0
  | .lstatRead _ => 0
  | .registerWrite _ _ _ _ => 0
  | .powerStateChange _ => 0
  | .powerExitComplete _ => 0
  | .powerGood => 0
  | .calibrationEnd _ => 0
  | .fatalError _ => 0
  | .clockSync _ _ => 0
  | .remoteTlbFill _ _ => 0
  | .remoteTlbTimeout _ => 0
  | .remoteAccessArrival _ => 0
  | .rredContribution _ => 0
  | .rredTimeout _ => 0
  | .weaverRowArrival _ _ => 0
  | .weaverCollectTimeout _ => 0
  | .weaverTakeover => 0
  | .calendarArrival _ => 0
  | .weaverQuery _ _ => 0
  | .xchSlotStart _ _ => 0
  | .xchOverflowStart _ => 0
  | .xchDataArrival _ => 0
  | .xrunTimeout _ => 0
  | .cancelAcknowledge _ => 0
  | .heartbeat _ _ _ => 0
  | .packageReset => 0
  | .packageLost _ => 0
  | .externalPortChange _ _ => 0
  | .throttling _ _ => 0
  | .dpostAcknowledgeTimeout _ => 0
  | .xchSlotEnd _ _ => 0
  | .refreshComplete _ => 0

end Sys2Proof
end

