-- ==== Sys2Proof/WellFormed.lean ====
section
/-! DEFINITION. Static checks on an instruction's fields (R9 to R20 and each opcode's own limits): what a decoder refuses
besides unassigned opcodes and nonzero unused fields. -/
namespace Sys2Proof

/-- The pair types (R10, R139). -/
def Ty.is64 : Ty → Bool
  | .i64 | .z64 | .f64 | .b64 => true
  | _ => false

/-- Types of the vector integer row of R139. -/
def Ty.isInt : Ty → Bool
  | .i32 | .z32 | .b32 | .i64 | .z64 | .b64 => true
  | _ => false

/-- Raw-bit types (R100). -/
def Ty.isRaw : Ty → Bool
  | .b8 | .b16 | .b32 | .b64 | .b128 => true
  | _ => false

/-- Types that VMULH, VMIN, VMAX and VCMP accept (R139). -/
def Ty.isWidth : Ty → Bool
  | .i32 | .i64 => true
  | _ => false

/-- Types of VSEL, VMOV and the lane exchanges (R139). -/
def Ty.isMove : Ty → Bool
  | .i32 | .z32 | .f32 | .b32 | .i64 | .z64 | .f64 | .b64 => true
  | _ => false

/-- .f32 and .f64 (R139). -/
def Ty.isFp : Ty → Bool
  | .f32 | .f64 => true
  | _ => false

/-- Every floating-point type (R96). -/
def Ty.isFloat : Ty → Bool
  | .f64 | .f32 | .bf16 | .f16 | .e4m3 | .e5m2 | .e3m2 | .e2m3 | .e2m1 => true
  | _ => false

/-- Types of the packed pairs (R139). -/
def Ty.isHalf : Ty → Bool
  | .f16 | .bf16 => true
  | _ => false

/-- Types of VRADD and VSCAN (R139). -/
def Ty.isSum : Ty → Bool
  | .i32 | .z32 | .i64 | .z64 | .f32 | .f64 => true
  | _ => false

/-- Types of VRMIN and VRMAX (R139). -/
def Ty.isExtr : Ty → Bool
  | .i32 | .i64 | .f32 | .f64 => true
  | _ => false

/-- The block-scaled types (R107). -/
def Ty.isBlock : Ty → Bool
  | .k48e2m1 | .k48e3m2 | .k48e2m3 | .k48e4m3 | .k48i8 => true
  | _ => false

/-- Types that a CVT side accepts, codes 0x00 to 0x10 (R155). -/
def Ty.isCvt (t : Ty) : Bool := !t.isRaw && !t.isBlock

/-- The sub-byte types (R171). -/
def Ty.isSub : Ty → Bool
  | .e3m2 | .e2m3 | .e2m1 => true
  | _ => false

/-- Types of LD, ST, LDG and STG (R170). -/
def Ty.isMem (t : Ty) : Bool := !t.isBlock

/-- Types of LDP and STP (R170). -/
def Ty.isRow : Ty → Bool
  | .i32 | .z32 | .f32 | .b32 | .i64 | .z64 | .f64 | .b64 | .b128 => true
  | _ => false

/-- Types of REMLD and REMST (R420). -/
def Ty.isRem (t : Ty) : Bool := !t.isBlock && !t.isSub

/-- Unblocked operand types of the matrix engine (R221, R232). -/
def Ty.isMat : Ty → Bool
  | .f16 | .bf16 | .e4m3 | .e5m2 => true
  | _ => false

/-- Index types of GATHER (R257). -/
def Ty.isIndex : Ty → Bool
  | .z16 | .z32 | .z64 | .i32 | .i64 => true
  | _ => false

/-- A register number that a value of type `t` may name: even for a pair, a multiple of 4 for a quad (R10, R170). -/
def VReg.fits (r : VReg) (t : Ty) : Bool :=
  if t = .b128 then r &&& 3 == 0 else if t.is64 then r &&& 1 == 0 else true

/-- The second operand: a vector register of type `t`, or a scalar register (M[3]). -/
def VReg.fitsOr (r : VReg) (s : Bool) (t : Ty) : Bool := s || r.fits t

/-- Pairings of atomic operation and type (R179); `quad` where .b128 is accepted. -/
def AtomOp.accepts (op : AtomOp) (t : Ty) (quad : Bool) : Bool :=
  match op with
  | .add | .and | .or | .xor | .inc | .dec => t.isInt
  | .min | .max => t == .i32 || t == .z32 || t == .i64 || t == .z64
  | .exch | .cas => t == .b32 || t == .b64 || (quad && t == .b128)
  | .fadd | .fmin | .fmax => t.isFp

/-- Pairings of RRED (R424). -/
def AtomOp.rredOk (op : AtomOp) (t : Ty) : Bool :=
  match op with
  | .add | .min | .max => t == .i32 || t == .z32 || t == .i64 || t == .z64
  | .fadd | .fmin | .fmax => t.isFp
  | _ => false

/-- Bit-field limits (R116, R145) at width `w`. -/
def fieldOk (w : Nat) (pos width : BitVec 8) : Bool :=
  decide (pos.toNat < w ∧ 1 ≤ width.toNat ∧ width.toNat ≤ w ∧ pos.toNat + width.toNat ≤ w)

/-- Orders of a load, and of a store or command (R176, R284). -/
def Order.isLoad : Order → Bool
  | .rlx | .acq => true
  | _ => false
def Order.isStore : Order → Bool
  | .rlx | .rel => true
  | _ => false

/-- Writable system registers (R70). -/
def SysReg.writable : SysReg → Bool
  | .sp | .sl | .tfp | .rngk | .rngc | .fmode => true
  | _ => false

/-- Quadrants a fusion mode allows, and .deep's types (R232, R233). -/
def mmqShape (q fus : BitVec 2) (t : Ty) : Bool :=
  match fus.toNat with
  | 0 => true
  | 1 => q == 0 || q == 2
  | 2 => q == 0
  | _ => (q == 0 || q == 1) && t != .k48e3m2 && t != .k48e2m3

/-- An address-mode index under type `t`: a sub-byte type takes no scale (R171). -/
def MemOp.fits (m : MemOp) (t : Ty) : Bool :=
  match m.idx with
  | none => true
  | some x => !t.isSub || x.scale == 0

/-- The width of a vector integer type in bits (R142). -/
def Ty.width (t : Ty) : Nat := if t.is64 then 64 else 32

/-- The static checks of one instruction. An event has none. -/
def Instr.wf : Instr → Bool
  | .sadd _ _ _ => true
  | .saddLit _ _ _ => true
  | .saddImm _ _ _ => true
  | .ssub _ _ _ => true
  | .ssubLit _ _ _ => true
  | .smul _ _ _ => true
  | .smulLit _ _ _ => true
  | .smulh _ _ _ _ => true
  | .smulhLit _ _ _ _ => true
  | .sand _ _ _ => true
  | .sandLit _ _ _ => true
  | .sandImm _ _ _ => true
  | .sor _ _ _ => true
  | .sorLit _ _ _ => true
  | .sorImm _ _ _ => true
  | .sxor _ _ _ => true
  | .sxorLit _ _ _ => true
  | .sxorImm _ _ _ => true
  | .sshl _ _ _ => true
  | .sshlImm _ _ _ => true
  | .sshr _ _ _ => true
  | .sshrImm _ _ _ => true
  | .ssra _ _ _ => true
  | .ssraImm _ _ _ => true
  | .smin _ _ _ _ => true
  | .sminLit _ _ _ _ => true
  | .smax _ _ _ _ => true
  | .smaxLit _ _ _ _ => true
  | .scmp _ _ _ _ => true
  | .scmpLit _ _ _ _ => true
  | .ssel _ _ _ _ => true
  | .smov _ _ => true
  | .sliW2 _ _ => true
  | .sliLit _ _ => true
  | .sliImm _ _ => true
  | .spopc _ _ => true
  | .sclz _ _ => true
  | .sbfe _ _ _ pos width => fieldOk 64 pos width
  | .sbfi _ _ pos width => fieldOk 64 pos width
  | .br _ _ => true
  | .brd _ _ _ => true
  | .call _ => true
  | .calltScalar _ => true
  | .calltScalarW1 _ => true
  | .calltLane _ => true
  | .calltLaneW1 _ _ => true
  | .ret => true
  | .enter _ => true
  | .jts _ => true
  | .jtv _ => true
  | .jtvW1 _ _ => true
  | .exit => true
  | .nop => true
  | .yield => true
  | .pand _ _ _ _ => true
  | .pandW1 _ _ _ _ _ => true
  | .por _ _ _ _ => true
  | .porW1 _ _ _ _ _ => true
  | .pxor _ _ _ _ => true
  | .pxorW1 _ _ _ _ _ => true
  | .pnot _ _ => true
  | .pnotW1 _ _ _ => true
  | .pmov _ _ => true
  | .pmovW1 _ _ _ => true
  | .ppack _ => true
  | .ppackW1 _ _ => true
  | .punpk _ => true
  | .punpkW1 _ _ => true
  | .pany _ _ => true
  | .pall _ _ => true
  | .trap _ => true
  | .svc _ => true
  | .rett => true
  | .tget _ _ => true
  | .sget _ _ => true
  | .sset r _ => r.writable
  | .exget _ => true
  | .exset _ => true
  | .rdtime _ => true
  | .spawn _ _ a => a &&& 7 == 0
  | .fwait _ _ => true
  | .ftest _ _ => true
  | .fcancel _ => true
  | .fexp _ _ => true
  | .fimp _ _ => true
  | .waitc m => m != 0
  | .sleep _ _ => true
  | .waita _ _ _ _ => true
  | .waitaW1 _ _ ord _ _ _ _ => ord.isLoad
  | .wake _ => true
  | .wakeW1 _ ord _ _ => ord.isStore
  | .ldstat _ ty _ _ => ty.isMat || ty.isBlock
  | .swap _ => true
  | .mmq q fus _ ty sn _ _ b => ty.isMat && mmqShape q fus ty && (sn || b == 0)
  | .mmqs q fus _ ty sn _ _ b => ty.isBlock && mmqShape q fus ty && (sn || b == 0)
  | .talloc _ => true
  | .tfree _ => true
  | .tzero _ => true
  | .tld _ _ _ => true
  | .tst _ ty rnd sat _ _ => (ty == .f16 || ty == .bf16 || ty == .e4m3) || (ty == .f32 && rnd == .rne && !sat)
  | .barv _ _ => true
  | .bwait _ _ => true
  | .bsync _ => true
  | .setleave _ => true
  | .gather ty _ a => ty.isIndex && a &&& 7 == 0
  | .tcopy _ _ ord cp _ a => ord.isStore && (cp == .dflt || cp == .strm || cp == .na || cp == .keep) && a &&& 7 == 0
  | .rfence _ => true
  | .put _ _ ord _ a => ord.isStore && a &&& 7 == 0
  | .townThread _ _ => true
  | .townEngine _ _ => true
  | .rsopen => true
  | .rsclose => true
  | .gpwait _ => true
  | .gpwaitT _ _ => true
  | .gpwaitF _ => true
  | .gpwaitFT _ _ => true
  | .dfree a => a &&& 3 == 0
  | .nmcall _ ord _ _ a => ord.isStore && a &&& 7 == 0
  | .ixred ty _ ord a => (ty == .f32 || ty == .bf16) && ord.isStore && a &&& 7 == 0
  | .walk _ ord _ a => ord.isStore && a &&& 7 == 0
  | .coll _ ord _ a => ord.isStore && a &&& 7 == 0
  | .dpost _ _ a => a &&& 7 == 0
  | .xrun _ a => a &&& 7 == 0
  | .xcal _ a => a &&& 7 == 0
  | .vadd _ _ _ _ => true
  | .vaddW1 _ ty sat s d a b => ty.isInt && !(sat && ty.isRaw) && d.fits ty && a.fits ty && b.fitsOr s ty
  | .vaddLit _ _ _ => true
  | .vaddLitW1 _ ty sat d a _ => ty.isInt && !(sat && ty.isRaw) && d.fits ty && a.fits ty
  | .vaddImm _ _ _ => true
  | .vsub _ _ _ _ => true
  | .vsubW1 _ ty sat s d a b => ty.isInt && !(sat && ty.isRaw) && d.fits ty && a.fits ty && b.fitsOr s ty
  | .vsubLit _ _ _ => true
  | .vsubLitW1 _ ty sat d a _ => ty.isInt && !(sat && ty.isRaw) && d.fits ty && a.fits ty
  | .vmul _ _ _ _ => true
  | .vmulW1 _ ty sat s d a b => ty.isInt && !(sat && ty.isRaw) && d.fits ty && a.fits ty && b.fitsOr s ty
  | .vmulLit _ _ _ => true
  | .vmulLitW1 _ ty sat d a _ => ty.isInt && !(sat && ty.isRaw) && d.fits ty && a.fits ty
  | .vmulh _ _ _ _ _ => true
  | .vmulhW1 _ ty _ s d a b => ty.isWidth && d.fits ty && a.fits ty && b.fitsOr s ty
  | .vmad _ ty sat s d a b c => ty.isInt && !(sat && ty.isRaw) && d.fits ty && a.fits ty && b.fitsOr s ty && c.fits ty
  | .vaddc _ ty s d a b _ => ty.isInt && d.fits ty && a.fits ty && b.fitsOr s ty
  | .vand _ _ _ _ => true
  | .vandW1 _ ty s d a b => ty.isInt && d.fits ty && a.fits ty && b.fitsOr s ty
  | .vandLit _ _ _ => true
  | .vandLitW1 _ ty d a _ => ty.isInt && d.fits ty && a.fits ty
  | .vandImm _ _ _ => true
  | .vor _ _ _ _ => true
  | .vorW1 _ ty s d a b => ty.isInt && d.fits ty && a.fits ty && b.fitsOr s ty
  | .vorLit _ _ _ => true
  | .vorLitW1 _ ty d a _ => ty.isInt && d.fits ty && a.fits ty
  | .vxor _ _ _ _ => true
  | .vxorW1 _ ty s d a b => ty.isInt && d.fits ty && a.fits ty && b.fitsOr s ty
  | .vxorLit _ _ _ => true
  | .vxorLitW1 _ ty d a _ => ty.isInt && d.fits ty && a.fits ty
  | .vshl _ _ _ _ => true
  | .vshlW1 _ ty s d a b => ty.isInt && d.fits ty && a.fits ty && b.fitsOr s ty
  | .vshlImm _ _ _ => true
  | .vshr _ _ _ _ => true
  | .vshrW1 _ ty s d a b => ty.isInt && d.fits ty && a.fits ty && b.fitsOr s ty
  | .vshrImm _ _ _ => true
  | .vsra _ _ _ _ => true
  | .vsraW1 _ ty s d a b => ty.isInt && d.fits ty && a.fits ty && b.fitsOr s ty
  | .vsraImm _ _ _ => true
  | .vmin _ _ _ _ _ => true
  | .vminW1 _ ty _ s d a b => ty.isWidth && d.fits ty && a.fits ty && b.fitsOr s ty
  | .vminLit _ _ _ _ => true
  | .vminLitW1 _ ty _ d a _ => ty.isWidth && d.fits ty && a.fits ty
  | .vmax _ _ _ _ _ => true
  | .vmaxW1 _ ty _ s d a b => ty.isWidth && d.fits ty && a.fits ty && b.fitsOr s ty
  | .vmaxLit _ _ _ _ => true
  | .vmaxLitW1 _ ty _ d a _ => ty.isWidth && d.fits ty && a.fits ty
  | .vpopc _ _ => true
  | .vpopcW1 _ ty _ a => ty.isInt && a.fits ty
  | .vclz _ _ => true
  | .vclzW1 _ ty _ a => ty.isInt && a.fits ty
  | .vbfe _ ty _ d a pos width => ty.isInt && fieldOk ty.width pos width && d.fits ty && a.fits ty
  | .vbfi _ ty d a pos width => ty.isInt && fieldOk ty.width pos width && d.fits ty && a.fits ty
  | .vsel _ ty d a b _ => ty.isMove && d.fits ty && a.fits ty && b.fits ty
  | .vmov _ _ _ => true
  | .vmovW1 _ ty s d a => ty.isMove && d.fits ty && a.fitsOr s ty
  | .vmovLit _ _ => true
  | .vmovLitW1 _ ty d _ => ty.isMove && d.fits ty
  | .vcmp _ ty _ s _ a b => ty.isWidth && a.fits ty && b.fitsOr s ty
  | .fadd _ _ _ _ => true
  | .faddW1 _ ty _ s d a b => ty.isFp && d.fits ty && a.fits ty && b.fitsOr s ty
  | .fsub _ _ _ _ => true
  | .fsubW1 _ ty _ s d a b => ty.isFp && d.fits ty && a.fits ty && b.fitsOr s ty
  | .fmul _ _ _ _ => true
  | .fmulW1 _ ty _ s d a b => ty.isFp && d.fits ty && a.fits ty && b.fitsOr s ty
  | .ffma _ _ _ _ _ _ => true
  | .ffmaW1 _ ty _ _ _ s d a b c => ty.isFp && d.fits ty && a.fits ty && b.fitsOr s ty && c.fits ty
  | .fmin _ _ _ _ => true
  | .fminW1 _ ty _ d a b => ty.isFp && d.fits ty && a.fits ty && b.fits ty
  | .fmax _ _ _ _ => true
  | .fmaxW1 _ ty _ d a b => ty.isFp && d.fits ty && a.fits ty && b.fits ty
  | .fcmp _ ty _ s _ a b => ty.isFp && a.fits ty && b.fitsOr s ty
  | .fclass _ _ => true
  | .fclassW1 _ ty _ a => ty.isFloat && a.fits ty
  | .frnd _ ty _ d a => ty.isFp && d.fits ty && a.fits ty
  | .cvt _ ty _ _ src d a => ty.isCvt && src.isCvt && d.fits ty && a.fits src
  | .pkadd _ _ _ => true
  | .pkaddW1 _ ty _ _ _ _ => ty.isHalf
  | .pkmul _ _ _ => true
  | .pkmulW1 _ ty _ _ _ _ => ty.isHalf
  | .pkfma _ _ _ => true
  | .pkfmaW1 _ ty _ _ _ _ _ => ty.isHalf
  | .xrcp _ _ => true
  | .xrcpW1 _ _ _ => true
  | .xrsq _ _ => true
  | .xrsqW1 _ _ _ => true
  | .xsqrt _ _ => true
  | .xsqrtW1 _ _ _ => true
  | .xexp2 _ _ => true
  | .xexp2W1 _ _ _ => true
  | .xlog2 _ _ => true
  | .xlog2W1 _ _ _ => true
  | .xsin _ _ => true
  | .xsinW1 _ _ _ => true
  | .xcos _ _ => true
  | .xcosW1 _ _ _ => true
  | .xtanh _ _ => true
  | .xtanhW1 _ _ _ => true
  | .rngseed _ _ => true
  | .rng _ _ => true
  | .rngW1 _ _ _ => true
  | .rngskip _ => true
  | .vshfl _ _ _ _ => true
  | .vshflW1 _ ty _ d a _ => ty.isMove && d.fits ty && a.fits ty
  | .vrot _ _ _ => true
  | .vrotW1 _ ty d a _ => ty.isMove && d.fits ty && a.fits ty
  | .vbcast _ _ _ => true
  | .vbcastW1 _ ty d a _ => ty.isMove && d.fits ty && a.fits ty
  | .vballot _ _ => true
  | .vballotW1 _ _ _ => true
  | .vradd _ _ => true
  | .vraddW1 _ ty _ a => ty.isSum && a.fits ty
  | .vrmin _ _ _ => true
  | .vrminW1 _ ty u _ a => ty.isExtr && !(u && ty.isFloat) && a.fits ty
  | .vrmax _ _ _ => true
  | .vrmaxW1 _ ty u _ a => ty.isExtr && !(u && ty.isFloat) && a.fits ty
  | .vscan _ ty _ _ d a => ty.isSum && d.fits ty && a.fits ty
  | .vdot4 _ _ _ _ _ => true
  | .vdot4W1 _ _ _ _ _ _ _ _ => true
  | .vdot2h _ _ _ => true
  | .vdot2hW1 _ ty _ _ _ _ => ty.isHalf
  | .ld _ _ => true
  | .ldW1 _ ty _ ord _ m _ d => ty.isMem && ord.isLoad && d.fits ty && m.fits ty
  | .st _ _ => true
  | .stW1 _ ty _ ord _ m _ d => ty.isMem && ord.isStore && d.fits ty && m.fits ty
  | .ldg _ _ => true
  | .ldgW1 _ ty _ ord _ m _ d => ty.isMem && ord.isLoad && d.fits ty && m.fits ty
  | .stg _ _ => true
  | .stgW1 _ ty _ ord _ m _ d => ty.isMem && ord.isStore && d.fits ty && m.fits ty
  | .ldp _ _ => true
  | .ldpW1 _ ty _ _ d => ty.isRow && d.fits ty
  | .stp _ _ => true
  | .stpW1 _ ty _ _ d => ty.isRow && d.fits ty
  | .atom _ ty _ _ _ op _ _ d c => op.accepts ty true && (op == .cas || c == 0) && d.fits ty && c.fits ty
  | .atomg _ ty _ _ op _ _ d c => op.accepts ty false && (op == .cas || c == 0) && d.fits ty && c.fits ty
  | .red _ ty _ ord _ op _ _ d => op.accepts ty false && op != .exch && op != .cas && ord.isStore && d.fits ty
  | .pref _ => true
  | .prefW1 _ cp _ _ => cp != .last && cp != .na
  | .fence _ ord => ord != .ar
  | .cctl _ _ _ => true
  | .remld _ ty _ ord _ d _ b => ty.isRem && ord.isLoad && d.fits ty && b &&& 1 == 0
  | .remst _ ty _ ord _ d _ b => ty.isRem && ord.isStore && d.fits ty && b &&& 1 == 0
  | .rematom _ ty _ _ op _ d _ b c => op.accepts ty true && (op == .cas || c == 0) && d.fits ty && c.fits ty && b &&& 1 == 0
  | .rred _ ty op _ a b => op.rredOk ty && a.fits ty && b &&& 3 == 0
  | .gred _ ty op _ a => (op == .fadd || op == .fmin || op == .fmax) && (ty == .f32 || ty == .bf16) && a &&& 1 == 0
  | .bundleDecode => true
  | .instructionCacheMiss => true
  | .multicastFill _ => true
  | .joinArrival => true
  | .loadResultReturn _ _ _ => true
  | .storePerformed _ => true
  | .sfuResult _ => true
  | .translationWalkDone _ => true
  | .stage2FaultToRoot _ => true
  | .trapEntry => true
  | .sleepDeadline => true
  | .waitaReread => true
  | .waitaPollTimeout => true
  | .bankSwitch _ _ => true
  | .gangAdmit _ => true
  | .gangRetire _ => true
  | .ldstatLoadEnd _ => true
  | .swapEffect _ => true
  | .matrixPassGrant _ => true
  | .matrixEntryApplied _ => true
  | .tileStoreServe _ => true
  | .barrierTimeout _ _ => true
  | .gatherService _ => true
  | .gatherComplete _ => true
  | .recordFill _ => true
  | .tcopyComplete _ _ => true
  | .putArrival _ => true
  | .putComplete _ => true
  | .l2Eviction _ => true
  | .writebackAck _ => true
  | .fenceReleaseDone => true
  | .entryStart _ => true
  | .waitConditionPoll _ => true
  | .launchComplete _ => true
  | .stealRequest _ _ _ => true
  | .sliceEnd _ => true
  | .contextLoad _ => true
  | .gangSave _ => true
  | .gangResume _ => true
  | .savedResolutionApply _ => true
  | .syncEngineTakeover => true
  | .gracePeriodEnd _ => true
  | .gpwaitDeadline _ => true
  | .batchClose _ => true
  | .batchPush _ => true
  | .regulatorTakeover => true
  | .nmuStep _ => true
  | .nmcallComplete _ => true
  | .nmuWatchdog _ => true
  | .ixredComplete _ => true
  | .gredShareReturn _ => true
  | .walkHop _ _ => true
  | .collLine _ => true
  | .sequencerWatchdog _ => true
  | .refreshPause _ => true
  | .rateLimitedInject _ => true
  | .powerStateNotice _ _ _ => true
  | .dieFailure _ => true
  | .rootTakeover _ => true
  | .getVersion _ _ => true
  | .getCapabilities _ _ => true
  | .negotiateAlgorithms _ _ => true
  | .getDigests _ _ => true
  | .getCertificate _ _ => true
  | .challenge _ _ => true
  | .getMeasurements _ _ => true
  | .keyExchange _ _ => true
  | .finish _ _ => true
  | .endSession _ _ => true
  | .keySet _ _ _ => true
  | .policySet _ _ _ => true
  | .vfQuery _ _ => true
  | .alloc _ _ _ _ _ _ => true
  | .hwin _ _ _ _ _ _ => true
  | .free _ _ _ => true
  | .map _ _ _ _ _ _ _ _ => true
  | .unmap _ _ _ _ _ _ => true
  | .qcreate _ _ _ _ _ _ _ _ _ _ => true
  | .qdestroy _ _ _ _ => true
  | .pause _ _ _ _ => true
  | .unpause _ _ _ _ => true
  | .evict _ _ _ _ => true
  | .resize _ _ _ _ _ => true
  | .partition _ _ _ _ _ => true
  | .reset _ _ _ _ => true
  | .setltol _ _ _ _ => true
  | .dumpget _ _ _ _ => true
  | .savearea _ _ _ _ _ => true
  | .doorbell _ _ _ => true
  | .qstatWrite _ _ _ => true
  | .loadRecord _ _ _ => true
  | .lstatRead _ => true
  | .registerWrite _ _ _ _ => true
  | .powerStateChange _ => true
  | .powerExitComplete _ => true
  | .powerGood => true
  | .calibrationEnd _ => true
  | .fatalError _ => true
  | .clockSync _ _ => true
  | .remoteTlbFill _ _ => true
  | .remoteTlbTimeout _ => true
  | .remoteAccessArrival _ => true
  | .rredContribution _ => true
  | .rredTimeout _ => true
  | .weaverRowArrival _ _ => true
  | .weaverCollectTimeout _ => true
  | .weaverTakeover => true
  | .calendarArrival _ => true
  | .weaverQuery _ _ => true
  | .xchSlotStart _ _ => true
  | .xchOverflowStart _ => true
  | .xchDataArrival _ => true
  | .xrunTimeout _ => true
  | .cancelAcknowledge _ => true
  | .heartbeat _ _ _ => true
  | .packageReset => true
  | .packageLost _ => true
  | .externalPortChange _ _ => true
  | .throttling _ _ => true
  | .dpostAcknowledgeTimeout _ => true
  | .xchSlotEnd _ _ => true
  | .refreshComplete _ => true

end Sys2Proof
end

