-- ==== Sys2Proof/Decode.lean ====
section
/-! DEFINITION. The decoder (R8 to R20, R42 to R54), total on any words and refusing by name, and after it the encoder
written from the same tables. -/
namespace Sys2Proof

/-- Why the words at an instruction are refused (R25): too few words left, an unassigned opcode or a LEN it does not accept, a field value. -/
inductive DecodeError where
  | truncated | opcode | field
  deriving DecidableEq, Repr

/-- The fields of the base word (R8). -/
structure BaseWord where
  len : BitVec 2
  u : Bool
  op : BitVec 7
  d : BitVec 6
  a : BitVec 6
  b : BitVec 6
  m : BitVec 4
  deriving DecidableEq, Repr

/-- The fields of W1 (R13). -/
structure ExtWord where
  c : BitVec 6 := 0
  pe : Bool := false
  pn : Bool := false
  p : BitVec 3 := 0
  rnd : BitVec 3 := 0
  sat : Bool := false
  ty : BitVec 5 := 0
  sc : BitVec 3 := 0
  ord : BitVec 2 := 0
  cp : BitVec 3 := 0
  xop : BitVec 4 := 0
  deriving DecidableEq, Repr

/-- The words after the base word, by LEN (R11). -/
inductive Form where
  | short
  | ext (w : ExtWord) (w2 : W32)
  | lit (l : W64)
  | extLit (w : ExtWord) (w2 : W32) (l : W64)
  deriving DecidableEq, Repr

/-- Base word fields of a word (R8). -/
def unpackBase (w : W32) : BaseWord :=
  { len := w.extractLsb' 0 2, u := w.getLsbD 2, op := w.extractLsb' 3 7, d := w.extractLsb' 10 6,
    a := w.extractLsb' 16 6, b := w.extractLsb' 22 6, m := w.extractLsb' 28 4 }

/-- The word of base word fields (R8). -/
def packBase (x : BaseWord) : W32 :=
  x.m ++ x.b ++ x.a ++ x.d ++ x.op ++ BitVec.ofBool x.u ++ x.len

/-- W1 fields of a word (R13). -/
def unpackExt (w : W32) : ExtWord :=
  { c := w.extractLsb' 0 6, pe := w.getLsbD 6, pn := w.getLsbD 7, p := w.extractLsb' 8 3, rnd := w.extractLsb' 11 3,
    sat := w.getLsbD 14, ty := w.extractLsb' 15 5, sc := w.extractLsb' 20 3, ord := w.extractLsb' 23 2,
    cp := w.extractLsb' 25 3, xop := w.extractLsb' 28 4 }

/-- The word of W1 fields (R13). -/
def packExt (x : ExtWord) : W32 :=
  x.xop ++ x.cp ++ x.ord ++ x.sc ++ x.ty ++ BitVec.ofBool x.sat ++ x.rnd ++ x.p ++ BitVec.ofBool x.pn ++
    BitVec.ofBool x.pe ++ x.c

/-- Type codes (R15). -/
def tyOf (c : BitVec 5) : Option Ty :=
  match c.toNat with
  | 0 => some .i8 | 1 => some .i16 | 2 => some .i32 | 3 => some .i64 | 4 => some .z8 | 5 => some .z16 | 6 => some .z32
  | 7 => some .z64 | 8 => some .f64 | 9 => some .f32 | 10 => some .bf16 | 11 => some .f16 | 12 => some .e4m3 | 13 => some .e5m2
  | 14 => some .e3m2 | 15 => some .e2m3 | 16 => some .e2m1 | 17 => some .b8 | 18 => some .b16 | 19 => some .b32 | 20 => some .b64
  | 21 => some .b128 | 22 => some .k48e2m1 | 23 => some .k48e3m2 | 24 => some .k48e2m3 | 25 => some .k48e4m3 | 26 => some .k48i8
  | _ => none
def tyCode : Ty → BitVec 5
  | .i8 => 0 | .i16 => 1 | .i32 => 2 | .i64 => 3 | .z8 => 4 | .z16 => 5 | .z32 => 6
  | .z64 => 7 | .f64 => 8 | .f32 => 9 | .bf16 => 10 | .f16 => 11 | .e4m3 => 12 | .e5m2 => 13
  | .e3m2 => 14 | .e2m3 => 15 | .e2m1 => 16 | .b8 => 17 | .b16 => 18 | .b32 => 19 | .b64 => 20
  | .b128 => 21 | .k48e2m1 => 22 | .k48e3m2 => 23 | .k48e2m3 => 24 | .k48e4m3 => 25 | .k48i8 => 26

/-- Rounding codes (R14). -/
def rndOf (c : BitVec 3) : Option Rnd :=
  match c.toNat with
  | 0 => some .rne | 1 => some .rtz | 2 => some .rup | 3 => some .rdn | 4 => some .rna | 5 => some .sr | 6 => some .dyn
  | _ => none
def rndCode : Rnd → BitVec 3
  | .rne => 0 | .rtz => 1 | .rup => 2 | .rdn => 3 | .rna => 4 | .sr => 5 | .dyn => 6

/-- Scope codes (R16). -/
def scopeOf (c : BitVec 3) : Option Scope :=
  match c.toNat with
  | 0 => some .grp | 1 => some .gang | 2 => some .die | 3 => some .pkg | 4 => some .sys | _ => none
def scopeCode : Scope → BitVec 3
  | .grp => 0 | .gang => 1 | .die => 2 | .pkg => 3 | .sys => 4

/-- Order codes (R16). -/
def orderOf (c : BitVec 2) : Order :=
  match c.toNat with
  | 0 => .rlx | 1 => .acq | 2 => .rel | _ => .ar
def orderCode : Order → BitVec 2
  | .rlx => 0 | .acq => 1 | .rel => 2 | .ar => 3

/-- Cache policy codes (R17). -/
def cpOf (c : BitVec 3) : Option Cp :=
  match c.toNat with
  | 0 => some .dflt | 1 => some .l2 | 2 => some .strm | 3 => some .last | 4 => some .na | 5 => some .keep | _ => none
def cpCode : Cp → BitVec 3
  | .dflt => 0 | .l2 => 1 | .strm => 2 | .last => 3 | .na => 4 | .keep => 5

/-- Compare codes (R40). -/
def cmpOf (c : BitVec 4) : Option Cmp :=
  match c.toNat with
  | 0 => some .eq | 1 => some .ne | 2 => some .lt | 3 => some .le | 4 => some .gt | 5 => some .ge
  | 6 => some .ltu | 7 => some .leu | 8 => some .gtu | 9 => some .geu | _ => none
def cmpCode : Cmp → BitVec 4
  | .eq => 0 | .ne => 1 | .lt => 2 | .le => 3 | .gt => 4 | .ge => 5 | .ltu => 6 | .leu => 7 | .gtu => 8 | .geu => 9

/-- Compare codes of FCMP (R40). -/
def fcmpOf (c : BitVec 4) : Option FCmp :=
  match c.toNat with
  | 0 => some .eq | 1 => some .ne | 2 => some .lt | 3 => some .le | 4 => some .gt | 5 => some .ge
  | 6 => some .un | 7 => some .ord | _ => none
def fcmpCode : FCmp → BitVec 4
  | .eq => 0 | .ne => 1 | .lt => 2 | .le => 3 | .gt => 4 | .ge => 5 | .un => 6 | .ord => 7

/-- Atomic operation codes (R41). -/
def atomOf (c : BitVec 4) : Option AtomOp :=
  match c.toNat with
  | 0 => some .add | 1 => some .min | 2 => some .max | 3 => some .and | 4 => some .or | 5 => some .xor | 6 => some .exch
  | 7 => some .cas | 8 => some .inc | 9 => some .dec | 10 => some .fadd | 11 => some .fmin | 12 => some .fmax | _ => none
def atomCode : AtomOp → BitVec 4
  | .add => 0 | .min => 1 | .max => 2 | .and => 3 | .or => 4 | .xor => 5 | .exch => 6 | .cas => 7 | .inc => 8 | .dec => 9
  | .fadd => 10 | .fmin => 11 | .fmax => 12

/-- VSCAN operation codes (R164). -/
def scanOf (c : BitVec 4) : Option ScanOp :=
  match c.toNat with
  | 0 => some .add | 1 => some .min | 2 => some .max | _ => none
def scanCode : ScanOp → BitVec 4
  | .add => 0 | .min => 1 | .max => 2

/-- System register numbers (R70). -/
def sysRegOf (c : BitVec 6) : Option SysReg :=
  match c.toNat with
  | 0 => some .exec | 1 => some .gid | 2 => some .role | 3 => some .gang | 4 => some .core | 5 => some .cluster
  | 6 => some .die | 7 => some .pkg | 8 => some .sp | 9 => some .sl | 10 => some .tfp | 11 => some .dtb | 12 => some .dtl
  | 13 => some .rngk | 14 => some .rngc | 15 => some .fmode | 16 => some .time | 17 => some .wcnt | 18 => some .rsd
  | _ => none
def sysRegCode : SysReg → BitVec 6
  | .exec => 0 | .gid => 1 | .role => 2 | .gang => 3 | .core => 4 | .cluster => 5 | .die => 6 | .pkg => 7 | .sp => 8
  | .sl => 9 | .tfp => 10 | .dtb => 11 | .dtl => 12 | .rngk => 13 | .rngc => 14 | .fmode => 15 | .time => 16 | .wcnt => 17
  | .rsd => 18

/-- The guard of W1 (R18): with PE = 0, PN and P must be 0. -/
def guardOf (w : ExtWord) : Option (Option Guard) :=
  if w.pe then some (some ⟨w.pn, w.p⟩) else if w.pn || w.p != 0 then none else some none

/-- The address mode of B and M (R54). -/
def idxOf (b : BitVec 6) (m : BitVec 4) : Option (Option Idx) :=
  if m.getLsbD 2 then some (some ⟨m.getLsbD 3, m.extractLsb' 0 2, b⟩)
  else if b == 0 && m == 0 then some none else none
def idxB : Option Idx → BitVec 6
  | none => 0
  | some x => x.v
def idxM : Option Idx → BitVec 4
  | none => 0
  | some x => BitVec.ofBool x.signed ++ 1#1 ++ x.scale

/-- The condition of BR in A and M (R118). -/
def brOf (a : BitVec 6) (m : BitVec 4) : Option BrMode :=
  match m.toNat with
  | 0 => if a == 0 then some .always else none
  | 1 => some (.nz a)
  | 2 => some (.z a)
  | _ => none
def brA : BrMode → BitVec 6
  | .always => 0
  | .nz a => a
  | .z a => a
def brM : BrMode → BitVec 4
  | .always => 0
  | .nz _ => 1
  | .z _ => 2

/-- W1 with a guard. -/
def extGuard : Option Guard → ExtWord
  | none => {}
  | some g => { pe := true, pn := g.neg, p := g.p }

/-- A field value that must have been assigned a meaning. -/
def need {α : Type} : Option α → Except DecodeError α
  | some x => .ok x
  | none => .error .field

/-- An instruction whose unused fields must be zero (R10, R19, R20) and whose static checks must hold. -/
def accept (zero : Bool) (i : Instr) : Except DecodeError Instr :=
  if zero && i.wf then .ok i else .error .field

/-- As `accept`, for the special functions and random numbers, which have no static checks of their own. -/
def acceptSfu (zero : Bool) (i : SfuInstr) : Except DecodeError SfuInstr :=
  if zero then .ok i else .error .field

/-- U = 0, LEN 0b00 (R42 to R53). -/
def decodeScalar (b : BaseWord) : Except DecodeError Instr :=
  match b.op.toNat with
  | 0x01 => accept (b.m == 0) (.sadd b.d b.a b.b)
  | 0x02 => accept (b.m == 0) (.ssub b.d b.a b.b)
  | 0x03 => accept (b.m == 0) (.smul b.d b.a b.b)
  | 0x04 => accept (b.m.getLsbD 1 == false && b.m.getLsbD 2 == false && b.m.getLsbD 3 == false) (.smulh (b.m.getLsbD 0) b.d b.a b.b)
  | 0x05 => accept (b.m == 0) (.sand b.d b.a b.b)
  | 0x06 => accept (b.m == 0) (.sor b.d b.a b.b)
  | 0x07 => accept (b.m == 0) (.sxor b.d b.a b.b)
  | 0x08 => accept (b.m == 0) (.sshl b.d b.a b.b)
  | 0x09 => accept (b.m == 0) (.sshr b.d b.a b.b)
  | 0x0a => accept (b.m == 0) (.ssra b.d b.a b.b)
  | 0x0b => accept (b.m.getLsbD 1 == false && b.m.getLsbD 2 == false && b.m.getLsbD 3 == false) (.smin (b.m.getLsbD 0) b.d b.a b.b)
  | 0x0c => accept (b.m.getLsbD 1 == false && b.m.getLsbD 2 == false && b.m.getLsbD 3 == false) (.smax (b.m.getLsbD 0) b.d b.a b.b)
  | 0x0d => do
      let cc ← need (cmpOf b.m)
      accept (true) (.scmp cc b.d b.a b.b)
  | 0x0f => accept (b.b == 0 && b.m == 0) (.smov b.d b.a)
  | 0x11 => accept (b.b == 0 && b.m == 0) (.spopc b.d b.a)
  | 0x12 => accept (b.b == 0 && b.m == 0) (.sclz b.d b.a)
  | 0x18 => accept (true) (.saddImm b.d b.a (b.m ++ b.b))
  | 0x19 => accept (true) (.sandImm b.d b.a (b.m ++ b.b))
  | 0x1a => accept (true) (.sorImm b.d b.a (b.m ++ b.b))
  | 0x1b => accept (true) (.sxorImm b.d b.a (b.m ++ b.b))
  | 0x1c => accept ((b.m ++ b.b).extractLsb' 6 4 == 0) (.sshlImm b.d b.a ((b.m ++ b.b).extractLsb' 0 6))
  | 0x1d => accept ((b.m ++ b.b).extractLsb' 6 4 == 0) (.sshrImm b.d b.a ((b.m ++ b.b).extractLsb' 0 6))
  | 0x1e => accept ((b.m ++ b.b).extractLsb' 6 4 == 0) (.ssraImm b.d b.a ((b.m ++ b.b).extractLsb' 0 6))
  | 0x1f => accept (b.a == 0) (.sliImm b.d (b.m ++ b.b))
  | 0x23 =>
    if b.m == 0 then accept (b.d == 0 && b.b == 0) (.calltScalar b.a)
    else if b.m == 1 then accept (b.d == 0 && b.b == 0) (.calltLane b.a)
    else .error .field
  | 0x24 => accept (b.d == 0 && b.a == 0 && b.b == 0 && b.m == 0) .ret
  | 0x25 => accept (b.d == 0 && b.a == 0 && b.b == 0 && b.m.getLsbD 3 == false) (.enter (b.m.extractLsb' 0 3))
  | 0x26 => accept (b.d == 0 && b.b == 0 && b.m == 0) (.jts b.a)
  | 0x27 => accept (b.d == 0 && b.b == 0 && b.m == 0) (.jtv b.a)
  | 0x28 => accept (b.d == 0 && b.a == 0 && b.b == 0 && b.m == 0) .exit
  | 0x29 => accept (b.d == 0 && b.a == 0 && b.b == 0 && b.m == 0) .nop
  | 0x2a => accept (b.d == 0 && b.a == 0 && b.b == 0 && b.m == 0) .yield
  | 0x38 => accept (b.d.extractLsb' 3 3 == 0 && b.a.extractLsb' 3 3 == 0 && b.b.extractLsb' 3 3 == 0 && b.m.getLsbD 1 == false && b.m.getLsbD 2 == false && b.m.getLsbD 3 == false) (.pand (b.m.getLsbD 0) (b.d.extractLsb' 0 3) (b.a.extractLsb' 0 3) (b.b.extractLsb' 0 3))
  | 0x39 => accept (b.d.extractLsb' 3 3 == 0 && b.a.extractLsb' 3 3 == 0 && b.b.extractLsb' 3 3 == 0 && b.m.getLsbD 1 == false && b.m.getLsbD 2 == false && b.m.getLsbD 3 == false) (.por (b.m.getLsbD 0) (b.d.extractLsb' 0 3) (b.a.extractLsb' 0 3) (b.b.extractLsb' 0 3))
  | 0x3a => accept (b.d.extractLsb' 3 3 == 0 && b.a.extractLsb' 3 3 == 0 && b.b.extractLsb' 3 3 == 0 && b.m.getLsbD 1 == false && b.m.getLsbD 2 == false && b.m.getLsbD 3 == false) (.pxor (b.m.getLsbD 0) (b.d.extractLsb' 0 3) (b.a.extractLsb' 0 3) (b.b.extractLsb' 0 3))
  | 0x3b => accept (b.d.extractLsb' 3 3 == 0 && b.a.extractLsb' 3 3 == 0 && b.b == 0 && b.m == 0) (.pnot (b.d.extractLsb' 0 3) (b.a.extractLsb' 0 3))
  | 0x3c => accept (b.d.extractLsb' 3 3 == 0 && b.a.extractLsb' 3 3 == 0 && b.b == 0 && b.m == 0) (.pmov (b.d.extractLsb' 0 3) (b.a.extractLsb' 0 3))
  | 0x3d => accept (b.a == 0 && b.b == 0 && b.m == 0) (.ppack b.d)
  | 0x3e => accept (b.d == 0 && b.b == 0 && b.m == 0) (.punpk b.a)
  | 0x3f =>
    if b.m == 0 then accept (b.a.extractLsb' 3 3 == 0 && b.b == 0) (.pany b.d (b.a.extractLsb' 0 3))
    else if b.m == 1 then accept (b.a.extractLsb' 3 3 == 0 && b.b == 0) (.pall b.d (b.a.extractLsb' 0 3))
    else .error .field
  | 0x40 => accept ((b.m ++ b.b).extractLsb' 9 1 == 0 && b.d == 0 && b.a == 0) (.trap ((b.m ++ b.b).extractLsb' 0 9))
  | 0x41 => accept ((b.m ++ b.b).extractLsb' 9 1 == 0 && b.d == 0 && b.a == 0) (.svc ((b.m ++ b.b).extractLsb' 0 9))
  | 0x42 => accept (b.d == 0 && b.a == 0 && b.b == 0 && b.m == 0) .rett
  | 0x43 => accept ((b.m ++ b.b).extractLsb' 9 1 == 0 && b.a == 0) (.tget b.d ((b.m ++ b.b).extractLsb' 0 9))
  | 0x44 => do
      let r ← need (sysRegOf b.a)
      accept (b.b == 0 && b.m == 0) (.sget b.d r)
  | 0x45 => do
      let r ← need (sysRegOf b.d)
      accept (b.b == 0 && b.m == 0) (.sset r b.a)
  | 0x46 => accept (b.a == 0 && b.b == 0 && b.m == 0) (.exget b.d)
  | 0x47 => accept (b.d == 0 && b.b == 0 && b.m == 0) (.exset b.a)
  | 0x48 => accept (b.a == 0 && b.b == 0 && b.m == 0) (.rdtime b.d)
  | 0x50 => accept (b.b == 0 && b.m.getLsbD 2 == false && b.m.getLsbD 3 == false) (.spawn (b.m.extractLsb' 0 2) b.d b.a)
  | 0x51 => accept (b.a.extractLsb' 4 2 == 0 && b.b == 0 && b.m == 0) (.fwait b.d (b.a.extractLsb' 0 4))
  | 0x52 => accept (b.a.extractLsb' 4 2 == 0 && b.b == 0 && b.m == 0) (.ftest b.d (b.a.extractLsb' 0 4))
  | 0x53 => accept (b.a.extractLsb' 4 2 == 0 && b.d == 0 && b.b == 0 && b.m == 0) (.fcancel (b.a.extractLsb' 0 4))
  | 0x54 => accept (b.a.extractLsb' 4 2 == 0 && b.b == 0 && b.m == 0) (.fexp b.d (b.a.extractLsb' 0 4))
  | 0x55 => accept (b.d.extractLsb' 4 2 == 0 && b.b == 0 && b.m == 0) (.fimp (b.d.extractLsb' 0 4) b.a)
  | 0x56 => accept (b.d == 0 && b.a == 0 && b.b == 0) (.waitc b.m)
  | 0x57 => accept (b.b == 0 && b.m == 0) (.sleep b.d b.a)
  | 0x58 => do
      let cc ← need (cmpOf b.m)
      accept (true) (.waita cc b.d b.a b.b)
  | 0x59 => accept (b.d == 0 && b.b == 0 && b.m == 0) (.wake b.a)
  | 0x61 => accept (b.d == 0 && b.a == 0 && b.b == 0 && b.m.getLsbD 2 == false && b.m.getLsbD 3 == false) (.swap (b.m.extractLsb' 0 2))
  | 0x64 => accept (b.a == 0 && b.b == 0 && b.m == 0) (.talloc b.d)
  | 0x65 => accept (b.d == 0 && b.b == 0 && b.m == 0) (.tfree b.a)
  | 0x66 => accept (b.d == 0 && b.b == 0 && b.m == 0) (.tzero b.a)
  | 0x69 => accept (b.b == 0 && b.m == 0) (.barv b.d b.a)
  | 0x6a => accept (b.d == 0 && b.m == 0) (.bwait b.a b.b)
  | 0x6b => accept (b.d == 0 && b.b == 0 && b.m == 0) (.bsync b.a)
  | 0x6c => accept (b.d == 0 && b.b == 0 && b.m == 0) (.setleave b.a)
  | 0x71 => accept (b.d == 0 && b.b == 0 && b.m == 0) (.rfence b.a)
  | 0x73 =>
    if b.m == 0 then accept (b.d == 0) (.townThread b.a b.b)
    else if b.m == 1 then accept (b.d == 0) (.townEngine b.a b.b)
    else .error .field
  | 0x74 => accept (b.d == 0 && b.a == 0 && b.b == 0 && b.m == 0) .rsopen
  | 0x75 => accept (b.d == 0 && b.a == 0 && b.b == 0 && b.m == 0) .rsclose
  | 0x76 =>
    if b.m == 0 then accept (b.a == 0 && b.b == 0) (.gpwait b.d)
    else if b.m == 2 then accept (b.b == 0) (.gpwaitT b.d b.a)
    else if b.m == 1 then accept (b.d.extractLsb' 4 2 == 0 && b.a == 0 && b.b == 0) (.gpwaitF (b.d.extractLsb' 0 4))
    else if b.m == 3 then accept (b.d.extractLsb' 4 2 == 0 && b.b == 0) (.gpwaitFT (b.d.extractLsb' 0 4) b.a)
    else .error .field
  | 0x77 => accept (b.d == 0 && b.b == 0 && b.m == 0) (.dfree b.a)
  | 0x7d => accept (b.d.extractLsb' 4 2 == 0 && b.b == 0 && b.m == 0) (.xrun (b.d.extractLsb' 0 4) b.a)
  | 0x7e => accept (b.d.extractLsb' 4 2 == 0 && b.b == 0 && b.m == 0) (.xcal (b.d.extractLsb' 0 4) b.a)
  | _ => .error .opcode

/-- U = 0, LEN 0b01 (R42 to R53). -/
def decodeScalarExt (b : BaseWord) (w : ExtWord) (w2 : W32) : Except DecodeError Instr :=
  match b.op.toNat with
  | 0x0e => accept (b.m == 0 && w.pe == false && w.pn == false && w.p == 0 && w.rnd == 0 && w.sat == false && w.ty == 0 && w.sc == 0 && w.ord == 0 && w.cp == 0 && w.xop == 0 && w2 == 0) (.ssel b.d b.a b.b w.c)
  | 0x10 => accept (b.a == 0 && b.b == 0 && b.m == 0 && w == {}) (.sliW2 b.d w2)
  | 0x13 => accept (w2.extractLsb' 16 16 == 0 && b.b == 0 && b.m.getLsbD 1 == false && b.m.getLsbD 2 == false && b.m.getLsbD 3 == false && w == {}) (.sbfe (b.m.getLsbD 0) b.d b.a (w2.extractLsb' 0 8) (w2.extractLsb' 8 8))
  | 0x14 => accept (w2.extractLsb' 16 16 == 0 && b.b == 0 && b.m == 0 && w == {}) (.sbfi b.d b.a (w2.extractLsb' 0 8) (w2.extractLsb' 8 8))
  | 0x20 => do
      let m ← need (brOf b.a b.m)
      accept (b.d == 0 && b.b == 0 && w == {}) (.br m w2)
  | 0x21 => accept (w.pe && b.d == 0 && b.a == 0 && b.b == 0 && b.m == 0 && w.c == 0 && w.rnd == 0 && w.sat == false && w.ty == 0 && w.sc == 0 && w.ord == 0 && w.cp == 0 && w.xop == 0) (.brd ⟨w.pn, w.p⟩ (w2.extractLsb' 0 16) (w2.extractLsb' 16 16))
  | 0x22 => accept (b.d == 0 && b.a == 0 && b.b == 0 && b.m == 0 && w == {}) (.call w2)
  | 0x23 =>
    if b.m == 0 then accept (b.d == 0 && b.b == 0 && w == {} && w2 == 0) (.calltScalarW1 b.a)
    else if b.m == 1 then do
      let g ← need (guardOf w)
      accept (b.d == 0 && b.b == 0 && w.c == 0 && w.rnd == 0 && w.sat == false && w.ty == 0 && w.sc == 0 && w.ord == 0 && w.cp == 0 && w.xop == 0 && w2 == 0) (.calltLaneW1 g b.a)
    else .error .field
  | 0x27 => do
      let g ← need (guardOf w)
      accept (b.d == 0 && b.b == 0 && b.m == 0 && w.c == 0 && w.rnd == 0 && w.sat == false && w.ty == 0 && w.sc == 0 && w.ord == 0 && w.cp == 0 && w.xop == 0 && w2 == 0) (.jtvW1 g b.a)
  | 0x38 => do
      let g ← need (guardOf w)
      accept (b.d.extractLsb' 3 3 == 0 && b.a.extractLsb' 3 3 == 0 && b.b.extractLsb' 3 3 == 0 && b.m.getLsbD 1 == false && b.m.getLsbD 2 == false && b.m.getLsbD 3 == false && w.c == 0 && w.rnd == 0 && w.sat == false && w.ty == 0 && w.sc == 0 && w.ord == 0 && w.cp == 0 && w.xop == 0 && w2 == 0) (.pandW1 g (b.m.getLsbD 0) (b.d.extractLsb' 0 3) (b.a.extractLsb' 0 3) (b.b.extractLsb' 0 3))
  | 0x39 => do
      let g ← need (guardOf w)
      accept (b.d.extractLsb' 3 3 == 0 && b.a.extractLsb' 3 3 == 0 && b.b.extractLsb' 3 3 == 0 && b.m.getLsbD 1 == false && b.m.getLsbD 2 == false && b.m.getLsbD 3 == false && w.c == 0 && w.rnd == 0 && w.sat == false && w.ty == 0 && w.sc == 0 && w.ord == 0 && w.cp == 0 && w.xop == 0 && w2 == 0) (.porW1 g (b.m.getLsbD 0) (b.d.extractLsb' 0 3) (b.a.extractLsb' 0 3) (b.b.extractLsb' 0 3))
  | 0x3a => do
      let g ← need (guardOf w)
      accept (b.d.extractLsb' 3 3 == 0 && b.a.extractLsb' 3 3 == 0 && b.b.extractLsb' 3 3 == 0 && b.m.getLsbD 1 == false && b.m.getLsbD 2 == false && b.m.getLsbD 3 == false && w.c == 0 && w.rnd == 0 && w.sat == false && w.ty == 0 && w.sc == 0 && w.ord == 0 && w.cp == 0 && w.xop == 0 && w2 == 0) (.pxorW1 g (b.m.getLsbD 0) (b.d.extractLsb' 0 3) (b.a.extractLsb' 0 3) (b.b.extractLsb' 0 3))
  | 0x3b => do
      let g ← need (guardOf w)
      accept (b.d.extractLsb' 3 3 == 0 && b.a.extractLsb' 3 3 == 0 && b.b == 0 && b.m == 0 && w.c == 0 && w.rnd == 0 && w.sat == false && w.ty == 0 && w.sc == 0 && w.ord == 0 && w.cp == 0 && w.xop == 0 && w2 == 0) (.pnotW1 g (b.d.extractLsb' 0 3) (b.a.extractLsb' 0 3))
  | 0x3c => do
      let g ← need (guardOf w)
      accept (b.d.extractLsb' 3 3 == 0 && b.a.extractLsb' 3 3 == 0 && b.b == 0 && b.m == 0 && w.c == 0 && w.rnd == 0 && w.sat == false && w.ty == 0 && w.sc == 0 && w.ord == 0 && w.cp == 0 && w.xop == 0 && w2 == 0) (.pmovW1 g (b.d.extractLsb' 0 3) (b.a.extractLsb' 0 3))
  | 0x3d => do
      let g ← need (guardOf w)
      accept (b.a == 0 && b.b == 0 && b.m == 0 && w.c == 0 && w.rnd == 0 && w.sat == false && w.ty == 0 && w.sc == 0 && w.ord == 0 && w.cp == 0 && w.xop == 0 && w2 == 0) (.ppackW1 g b.d)
  | 0x3e => do
      let g ← need (guardOf w)
      accept (b.d == 0 && b.b == 0 && b.m == 0 && w.c == 0 && w.rnd == 0 && w.sat == false && w.ty == 0 && w.sc == 0 && w.ord == 0 && w.cp == 0 && w.xop == 0 && w2 == 0) (.punpkW1 g b.a)
  | 0x58 => do
      let cc ← need (cmpOf b.m)
      let sc ← need (scopeOf w.sc)
      accept (w.c == 0 && w.pe == false && w.pn == false && w.p == 0 && w.rnd == 0 && w.sat == false && w.ty == 0 && w.cp == 0 && w.xop == 0) (.waitaW1 cc sc (orderOf w.ord) w2 b.d b.a b.b)
  | 0x59 => do
      let sc ← need (scopeOf w.sc)
      accept (b.d == 0 && b.b == 0 && b.m == 0 && w.c == 0 && w.pe == false && w.pn == false && w.p == 0 && w.rnd == 0 && w.sat == false && w.ty == 0 && w.cp == 0 && w.xop == 0) (.wakeW1 sc (orderOf w.ord) w2 b.a)
  | 0x60 => do
      let ty ← need (tyOf w.ty)
      accept (b.d.extractLsb' 4 2 == 0 && b.b == 0 && b.m.getLsbD 2 == false && b.m.getLsbD 3 == false && w.c == 0 && w.pe == false && w.pn == false && w.p == 0 && w.rnd == 0 && w.sat == false && w.sc == 0 && w.ord == 0 && w.cp == 0 && w.xop == 0 && w2 == 0) (.ldstat (b.m.extractLsb' 0 2) ty (b.d.extractLsb' 0 4) b.a)
  | 0x62 => do
      let ty ← need (tyOf w.ty)
      accept (w.xop.extractLsb' 2 2 == 0 && w2.extractLsb' 1 31 == 0 && w.c == 0 && w.pe == false && w.pn == false && w.p == 0 && w.rnd == 0 && w.sat == false && w.sc == 0 && w.ord == 0 && w.cp == 0) (.mmq (b.m.extractLsb' 0 2) (b.m.extractLsb' 2 2) (w.xop.extractLsb' 0 2) ty (w2.getLsbD 0) b.d b.a b.b)
  | 0x63 => do
      let ty ← need (tyOf w.ty)
      accept (w.xop.extractLsb' 2 2 == 0 && w2.extractLsb' 1 31 == 0 && w.c == 0 && w.pe == false && w.pn == false && w.p == 0 && w.rnd == 0 && w.sat == false && w.sc == 0 && w.ord == 0 && w.cp == 0) (.mmqs (b.m.extractLsb' 0 2) (b.m.extractLsb' 2 2) (w.xop.extractLsb' 0 2) ty (w2.getLsbD 0) b.d b.a b.b)
  | 0x67 => accept (w.xop.extractLsb' 3 1 == 0 && b.b == 0 && b.m == 0 && w.c == 0 && w.pe == false && w.pn == false && w.p == 0 && w.rnd == 0 && w.sat == false && w.ty == 0 && w.sc == 0 && w.ord == 0 && w.cp == 0 && w2 == 0) (.tld (w.xop.extractLsb' 0 3) b.d b.a)
  | 0x68 => do
      let ty ← need (tyOf w.ty)
      let rnd ← need (rndOf w.rnd)
      accept (w.xop.extractLsb' 3 1 == 0 && b.b == 0 && b.m == 0 && w.c == 0 && w.pe == false && w.pn == false && w.p == 0 && w.sc == 0 && w.ord == 0 && w.cp == 0 && w2 == 0) (.tst (w.xop.extractLsb' 0 3) ty rnd w.sat b.d b.a)
  | 0x6d => do
      let ty ← need (tyOf w.ty)
      accept (b.d.extractLsb' 4 2 == 0 && b.b == 0 && b.m == 0 && w.c == 0 && w.pe == false && w.pn == false && w.p == 0 && w.rnd == 0 && w.sat == false && w.sc == 0 && w.ord == 0 && w.cp == 0 && w.xop == 0 && w2 == 0) (.gather ty (b.d.extractLsb' 0 4) b.a)
  | 0x70 => do
      let sc ← need (scopeOf w.sc)
      let cp ← need (cpOf w.cp)
      accept (b.d.extractLsb' 4 2 == 0 && b.b == 0 && b.m.getLsbD 1 == false && b.m.getLsbD 2 == false && b.m.getLsbD 3 == false && w.c == 0 && w.pe == false && w.pn == false && w.p == 0 && w.rnd == 0 && w.sat == false && w.ty == 0 && w.xop == 0 && w2 == 0) (.tcopy (b.m.getLsbD 0) sc (orderOf w.ord) cp (b.d.extractLsb' 0 4) b.a)
  | 0x72 => do
      let sc ← need (scopeOf w.sc)
      accept (b.d.extractLsb' 4 2 == 0 && b.b == 0 && b.m.getLsbD 1 == false && b.m.getLsbD 2 == false && b.m.getLsbD 3 == false && w.c == 0 && w.pe == false && w.pn == false && w.p == 0 && w.rnd == 0 && w.sat == false && w.ty == 0 && w.cp == 0 && w.xop == 0 && w2 == 0) (.put (b.m.getLsbD 0) sc (orderOf w.ord) (b.d.extractLsb' 0 4) b.a)
  | 0x78 => do
      let sc ← need (scopeOf w.sc)
      accept (b.d.extractLsb' 4 2 == 0 && w2.extractLsb' 5 27 == 0 && b.b == 0 && b.m == 0 && w.c == 0 && w.pe == false && w.pn == false && w.p == 0 && w.rnd == 0 && w.sat == false && w.ty == 0 && w.cp == 0 && w.xop == 0) (.nmcall sc (orderOf w.ord) (w2.extractLsb' 0 5) (b.d.extractLsb' 0 4) b.a)
  | 0x79 => do
      let ty ← need (tyOf w.ty)
      let sc ← need (scopeOf w.sc)
      accept (b.d == 0 && b.b == 0 && b.m == 0 && w.c == 0 && w.pe == false && w.pn == false && w.p == 0 && w.rnd == 0 && w.sat == false && w.cp == 0 && w.xop == 0 && w2 == 0) (.ixred ty sc (orderOf w.ord) b.a)
  | 0x7a => do
      let sc ← need (scopeOf w.sc)
      accept (b.d.extractLsb' 4 2 == 0 && b.b == 0 && b.m == 0 && w.c == 0 && w.pe == false && w.pn == false && w.p == 0 && w.rnd == 0 && w.sat == false && w.ty == 0 && w.cp == 0 && w.xop == 0 && w2 == 0) (.walk sc (orderOf w.ord) (b.d.extractLsb' 0 4) b.a)
  | 0x7b => do
      let sc ← need (scopeOf w.sc)
      accept (b.d.extractLsb' 4 2 == 0 && b.b == 0 && b.m == 0 && w.c == 0 && w.pe == false && w.pn == false && w.p == 0 && w.rnd == 0 && w.sat == false && w.ty == 0 && w.cp == 0 && w.xop == 0 && w2 == 0) (.coll sc (orderOf w.ord) (b.d.extractLsb' 0 4) b.a)
  | 0x7c => accept (b.d.extractLsb' 4 2 == 0 && b.b == 0 && b.m == 0 && w == {}) (.dpost w2 (b.d.extractLsb' 0 4) b.a)
  | _ => .error .opcode

/-- U = 0, LEN 0b10 (R42 to R53). -/
def decodeScalarLit (b : BaseWord) (l : W64) : Except DecodeError Instr :=
  match b.op.toNat with
  | 0x01 => accept (b.b == 0 && b.m == 0) (.saddLit b.d b.a l)
  | 0x02 => accept (b.b == 0 && b.m == 0) (.ssubLit b.d b.a l)
  | 0x03 => accept (b.b == 0 && b.m == 0) (.smulLit b.d b.a l)
  | 0x04 => accept (b.b == 0 && b.m.getLsbD 1 == false && b.m.getLsbD 2 == false && b.m.getLsbD 3 == false) (.smulhLit (b.m.getLsbD 0) b.d b.a l)
  | 0x05 => accept (b.b == 0 && b.m == 0) (.sandLit b.d b.a l)
  | 0x06 => accept (b.b == 0 && b.m == 0) (.sorLit b.d b.a l)
  | 0x07 => accept (b.b == 0 && b.m == 0) (.sxorLit b.d b.a l)
  | 0x0b => accept (b.b == 0 && b.m.getLsbD 1 == false && b.m.getLsbD 2 == false && b.m.getLsbD 3 == false) (.sminLit (b.m.getLsbD 0) b.d b.a l)
  | 0x0c => accept (b.b == 0 && b.m.getLsbD 1 == false && b.m.getLsbD 2 == false && b.m.getLsbD 3 == false) (.smaxLit (b.m.getLsbD 0) b.d b.a l)
  | 0x0d => do
      let cc ← need (cmpOf b.m)
      accept (b.b == 0) (.scmpLit cc b.d b.a l)
  | 0x10 => accept (b.a == 0 && b.b == 0 && b.m == 0) (.sliLit b.d l)
  | _ => .error .opcode

/-- U = 1, LEN 0b00 (R42 to R53). -/
def decodeVector (b : BaseWord) : Except DecodeError Instr :=
  match b.op.toNat with
  | 0x00 => accept (b.m.getLsbD 0 == false && b.m.getLsbD 1 == false && b.m.getLsbD 2 == false) (.vadd (b.m.getLsbD 3) b.d b.a b.b)
  | 0x01 => accept (b.m.getLsbD 0 == false && b.m.getLsbD 1 == false && b.m.getLsbD 2 == false) (.vsub (b.m.getLsbD 3) b.d b.a b.b)
  | 0x02 => accept (b.m.getLsbD 0 == false && b.m.getLsbD 1 == false && b.m.getLsbD 2 == false) (.vmul (b.m.getLsbD 3) b.d b.a b.b)
  | 0x03 => accept (b.m.getLsbD 1 == false && b.m.getLsbD 2 == false) (.vmulh (b.m.getLsbD 0) (b.m.getLsbD 3) b.d b.a b.b)
  | 0x06 => accept (b.m.getLsbD 0 == false && b.m.getLsbD 1 == false && b.m.getLsbD 2 == false) (.vand (b.m.getLsbD 3) b.d b.a b.b)
  | 0x07 => accept (b.m.getLsbD 0 == false && b.m.getLsbD 1 == false && b.m.getLsbD 2 == false) (.vor (b.m.getLsbD 3) b.d b.a b.b)
  | 0x08 => accept (b.m.getLsbD 0 == false && b.m.getLsbD 1 == false && b.m.getLsbD 2 == false) (.vxor (b.m.getLsbD 3) b.d b.a b.b)
  | 0x09 => accept (b.m.getLsbD 0 == false && b.m.getLsbD 1 == false && b.m.getLsbD 2 == false) (.vshl (b.m.getLsbD 3) b.d b.a b.b)
  | 0x0a => accept (b.m.getLsbD 0 == false && b.m.getLsbD 1 == false && b.m.getLsbD 2 == false) (.vshr (b.m.getLsbD 3) b.d b.a b.b)
  | 0x0b => accept (b.m.getLsbD 0 == false && b.m.getLsbD 1 == false && b.m.getLsbD 2 == false) (.vsra (b.m.getLsbD 3) b.d b.a b.b)
  | 0x0c => accept (b.m.getLsbD 1 == false && b.m.getLsbD 2 == false) (.vmin (b.m.getLsbD 0) (b.m.getLsbD 3) b.d b.a b.b)
  | 0x0d => accept (b.m.getLsbD 1 == false && b.m.getLsbD 2 == false) (.vmax (b.m.getLsbD 0) (b.m.getLsbD 3) b.d b.a b.b)
  | 0x0e => accept (b.b == 0 && b.m == 0) (.vpopc b.d b.a)
  | 0x0f => accept (b.b == 0 && b.m == 0) (.vclz b.d b.a)
  | 0x13 => accept (b.b == 0 && b.m.getLsbD 0 == false && b.m.getLsbD 1 == false && b.m.getLsbD 2 == false) (.vmov (b.m.getLsbD 3) b.d b.a)
  | 0x18 => accept (true) (.vaddImm b.d b.a (b.m ++ b.b))
  | 0x19 => accept (true) (.vandImm b.d b.a (b.m ++ b.b))
  | 0x1a => accept ((b.m ++ b.b).extractLsb' 5 5 == 0) (.vshlImm b.d b.a ((b.m ++ b.b).extractLsb' 0 5))
  | 0x1b => accept ((b.m ++ b.b).extractLsb' 5 5 == 0) (.vshrImm b.d b.a ((b.m ++ b.b).extractLsb' 0 5))
  | 0x1c => accept ((b.m ++ b.b).extractLsb' 5 5 == 0) (.vsraImm b.d b.a ((b.m ++ b.b).extractLsb' 0 5))
  | 0x20 => accept (b.m.getLsbD 0 == false && b.m.getLsbD 1 == false && b.m.getLsbD 2 == false) (.fadd (b.m.getLsbD 3) b.d b.a b.b)
  | 0x21 => accept (b.m.getLsbD 0 == false && b.m.getLsbD 1 == false && b.m.getLsbD 2 == false) (.fsub (b.m.getLsbD 3) b.d b.a b.b)
  | 0x22 => accept (b.m.getLsbD 0 == false && b.m.getLsbD 1 == false && b.m.getLsbD 2 == false) (.fmul (b.m.getLsbD 3) b.d b.a b.b)
  | 0x23 => accept (b.m.getLsbD 2 == false) (.ffma (b.m.getLsbD 0) (b.m.getLsbD 1) (b.m.getLsbD 3) b.d b.a b.b)
  | 0x24 => accept (b.m.getLsbD 1 == false && b.m.getLsbD 2 == false && b.m.getLsbD 3 == false) (.fmin (b.m.getLsbD 0) b.d b.a b.b)
  | 0x25 => accept (b.m.getLsbD 1 == false && b.m.getLsbD 2 == false && b.m.getLsbD 3 == false) (.fmax (b.m.getLsbD 0) b.d b.a b.b)
  | 0x27 => accept (b.b == 0 && b.m == 0) (.fclass b.d b.a)
  | 0x2a => accept (b.m == 0) (.pkadd b.d b.a b.b)
  | 0x2b => accept (b.m == 0) (.pkmul b.d b.a b.b)
  | 0x2c => accept (b.m == 0) (.pkfma b.d b.a b.b)
  | 0x50 => accept (b.m.getLsbD 2 == false && b.m.getLsbD 3 == false) (.vshfl (b.m.extractLsb' 0 2) b.d b.a b.b)
  | 0x51 => accept (b.m == 0) (.vrot b.d b.a b.b)
  | 0x52 => accept (b.m == 0) (.vbcast b.d b.a b.b)
  | 0x53 => accept (b.a.extractLsb' 3 3 == 0 && b.b == 0 && b.m == 0) (.vballot b.d (b.a.extractLsb' 0 3))
  | 0x54 => accept (b.b == 0 && b.m == 0) (.vradd b.d b.a)
  | 0x55 => accept (b.b == 0 && b.m.getLsbD 1 == false && b.m.getLsbD 2 == false && b.m.getLsbD 3 == false) (.vrmin (b.m.getLsbD 0) b.d b.a)
  | 0x56 => accept (b.b == 0 && b.m.getLsbD 1 == false && b.m.getLsbD 2 == false && b.m.getLsbD 3 == false) (.vrmax (b.m.getLsbD 0) b.d b.a)
  | 0x58 => accept (b.m.getLsbD 2 == false && b.m.getLsbD 3 == false) (.vdot4 (b.m.getLsbD 0) (b.m.getLsbD 1) b.d b.a b.b)
  | 0x59 => accept (b.m == 0) (.vdot2h b.d b.a b.b)
  | 0x60 => do
      let x ← need (idxOf b.b b.m)
      accept (true) (.ld ⟨b.a, x⟩ b.d)
  | 0x61 => do
      let x ← need (idxOf b.b b.m)
      accept (true) (.st ⟨b.a, x⟩ b.d)
  | 0x62 => do
      let x ← need (idxOf b.b b.m)
      accept (true) (.ldg ⟨b.a, x⟩ b.d)
  | 0x63 => do
      let x ← need (idxOf b.b b.m)
      accept (true) (.stg ⟨b.a, x⟩ b.d)
  | 0x64 => do
      let x ← need (idxOf b.b b.m)
      accept (b.a == 0) (.ldp x b.d)
  | 0x65 => do
      let x ← need (idxOf b.b b.m)
      accept (b.a == 0) (.stp x b.d)
  | 0x69 => do
      let x ← need (idxOf b.b b.m)
      accept (b.d == 0) (.pref ⟨b.a, x⟩)
  | _ => .error .opcode

/-- U = 1, LEN 0b01 (R42 to R53). -/
def decodeVectorExt (b : BaseWord) (w : ExtWord) (w2 : W32) : Except DecodeError Instr :=
  match b.op.toNat with
  | 0x00 => do
      let g ← need (guardOf w)
      let ty ← need (tyOf w.ty)
      accept (b.m.getLsbD 0 == false && b.m.getLsbD 1 == false && b.m.getLsbD 2 == false && w.c == 0 && w.rnd == 0 && w.sc == 0 && w.ord == 0 && w.cp == 0 && w.xop == 0 && w2 == 0) (.vaddW1 g ty w.sat (b.m.getLsbD 3) b.d b.a b.b)
  | 0x01 => do
      let g ← need (guardOf w)
      let ty ← need (tyOf w.ty)
      accept (b.m.getLsbD 0 == false && b.m.getLsbD 1 == false && b.m.getLsbD 2 == false && w.c == 0 && w.rnd == 0 && w.sc == 0 && w.ord == 0 && w.cp == 0 && w.xop == 0 && w2 == 0) (.vsubW1 g ty w.sat (b.m.getLsbD 3) b.d b.a b.b)
  | 0x02 => do
      let g ← need (guardOf w)
      let ty ← need (tyOf w.ty)
      accept (b.m.getLsbD 0 == false && b.m.getLsbD 1 == false && b.m.getLsbD 2 == false && w.c == 0 && w.rnd == 0 && w.sc == 0 && w.ord == 0 && w.cp == 0 && w.xop == 0 && w2 == 0) (.vmulW1 g ty w.sat (b.m.getLsbD 3) b.d b.a b.b)
  | 0x03 => do
      let g ← need (guardOf w)
      let ty ← need (tyOf w.ty)
      accept (b.m.getLsbD 1 == false && b.m.getLsbD 2 == false && w.c == 0 && w.rnd == 0 && w.sat == false && w.sc == 0 && w.ord == 0 && w.cp == 0 && w.xop == 0 && w2 == 0) (.vmulhW1 g ty (b.m.getLsbD 0) (b.m.getLsbD 3) b.d b.a b.b)
  | 0x04 => do
      let g ← need (guardOf w)
      let ty ← need (tyOf w.ty)
      accept (b.m.getLsbD 0 == false && b.m.getLsbD 1 == false && b.m.getLsbD 2 == false && w.rnd == 0 && w.sc == 0 && w.ord == 0 && w.cp == 0 && w.xop == 0 && w2 == 0) (.vmad g ty w.sat (b.m.getLsbD 3) b.d b.a b.b w.c)
  | 0x05 => do
      let g ← need (guardOf w)
      let ty ← need (tyOf w.ty)
      accept (w.c.extractLsb' 3 3 == 0 && b.m.getLsbD 0 == false && b.m.getLsbD 1 == false && b.m.getLsbD 2 == false && w.rnd == 0 && w.sat == false && w.sc == 0 && w.ord == 0 && w.cp == 0 && w.xop == 0 && w2 == 0) (.vaddc g ty (b.m.getLsbD 3) b.d b.a b.b (w.c.extractLsb' 0 3))
  | 0x06 => do
      let g ← need (guardOf w)
      let ty ← need (tyOf w.ty)
      accept (b.m.getLsbD 0 == false && b.m.getLsbD 1 == false && b.m.getLsbD 2 == false && w.c == 0 && w.rnd == 0 && w.sat == false && w.sc == 0 && w.ord == 0 && w.cp == 0 && w.xop == 0 && w2 == 0) (.vandW1 g ty (b.m.getLsbD 3) b.d b.a b.b)
  | 0x07 => do
      let g ← need (guardOf w)
      let ty ← need (tyOf w.ty)
      accept (b.m.getLsbD 0 == false && b.m.getLsbD 1 == false && b.m.getLsbD 2 == false && w.c == 0 && w.rnd == 0 && w.sat == false && w.sc == 0 && w.ord == 0 && w.cp == 0 && w.xop == 0 && w2 == 0) (.vorW1 g ty (b.m.getLsbD 3) b.d b.a b.b)
  | 0x08 => do
      let g ← need (guardOf w)
      let ty ← need (tyOf w.ty)
      accept (b.m.getLsbD 0 == false && b.m.getLsbD 1 == false && b.m.getLsbD 2 == false && w.c == 0 && w.rnd == 0 && w.sat == false && w.sc == 0 && w.ord == 0 && w.cp == 0 && w.xop == 0 && w2 == 0) (.vxorW1 g ty (b.m.getLsbD 3) b.d b.a b.b)
  | 0x09 => do
      let g ← need (guardOf w)
      let ty ← need (tyOf w.ty)
      accept (b.m.getLsbD 0 == false && b.m.getLsbD 1 == false && b.m.getLsbD 2 == false && w.c == 0 && w.rnd == 0 && w.sat == false && w.sc == 0 && w.ord == 0 && w.cp == 0 && w.xop == 0 && w2 == 0) (.vshlW1 g ty (b.m.getLsbD 3) b.d b.a b.b)
  | 0x0a => do
      let g ← need (guardOf w)
      let ty ← need (tyOf w.ty)
      accept (b.m.getLsbD 0 == false && b.m.getLsbD 1 == false && b.m.getLsbD 2 == false && w.c == 0 && w.rnd == 0 && w.sat == false && w.sc == 0 && w.ord == 0 && w.cp == 0 && w.xop == 0 && w2 == 0) (.vshrW1 g ty (b.m.getLsbD 3) b.d b.a b.b)
  | 0x0b => do
      let g ← need (guardOf w)
      let ty ← need (tyOf w.ty)
      accept (b.m.getLsbD 0 == false && b.m.getLsbD 1 == false && b.m.getLsbD 2 == false && w.c == 0 && w.rnd == 0 && w.sat == false && w.sc == 0 && w.ord == 0 && w.cp == 0 && w.xop == 0 && w2 == 0) (.vsraW1 g ty (b.m.getLsbD 3) b.d b.a b.b)
  | 0x0c => do
      let g ← need (guardOf w)
      let ty ← need (tyOf w.ty)
      accept (b.m.getLsbD 1 == false && b.m.getLsbD 2 == false && w.c == 0 && w.rnd == 0 && w.sat == false && w.sc == 0 && w.ord == 0 && w.cp == 0 && w.xop == 0 && w2 == 0) (.vminW1 g ty (b.m.getLsbD 0) (b.m.getLsbD 3) b.d b.a b.b)
  | 0x0d => do
      let g ← need (guardOf w)
      let ty ← need (tyOf w.ty)
      accept (b.m.getLsbD 1 == false && b.m.getLsbD 2 == false && w.c == 0 && w.rnd == 0 && w.sat == false && w.sc == 0 && w.ord == 0 && w.cp == 0 && w.xop == 0 && w2 == 0) (.vmaxW1 g ty (b.m.getLsbD 0) (b.m.getLsbD 3) b.d b.a b.b)
  | 0x0e => do
      let g ← need (guardOf w)
      let ty ← need (tyOf w.ty)
      accept (b.b == 0 && b.m == 0 && w.c == 0 && w.rnd == 0 && w.sat == false && w.sc == 0 && w.ord == 0 && w.cp == 0 && w.xop == 0 && w2 == 0) (.vpopcW1 g ty b.d b.a)
  | 0x0f => do
      let g ← need (guardOf w)
      let ty ← need (tyOf w.ty)
      accept (b.b == 0 && b.m == 0 && w.c == 0 && w.rnd == 0 && w.sat == false && w.sc == 0 && w.ord == 0 && w.cp == 0 && w.xop == 0 && w2 == 0) (.vclzW1 g ty b.d b.a)
  | 0x10 => do
      let g ← need (guardOf w)
      let ty ← need (tyOf w.ty)
      accept (w2.extractLsb' 16 16 == 0 && b.b == 0 && b.m.getLsbD 1 == false && b.m.getLsbD 2 == false && b.m.getLsbD 3 == false && w.c == 0 && w.rnd == 0 && w.sat == false && w.sc == 0 && w.ord == 0 && w.cp == 0 && w.xop == 0) (.vbfe g ty (b.m.getLsbD 0) b.d b.a (w2.extractLsb' 0 8) (w2.extractLsb' 8 8))
  | 0x11 => do
      let g ← need (guardOf w)
      let ty ← need (tyOf w.ty)
      accept (w2.extractLsb' 16 16 == 0 && b.b == 0 && b.m == 0 && w.c == 0 && w.rnd == 0 && w.sat == false && w.sc == 0 && w.ord == 0 && w.cp == 0 && w.xop == 0) (.vbfi g ty b.d b.a (w2.extractLsb' 0 8) (w2.extractLsb' 8 8))
  | 0x12 => do
      let g ← need (guardOf w)
      let ty ← need (tyOf w.ty)
      accept (w.c.extractLsb' 3 3 == 0 && b.m == 0 && w.rnd == 0 && w.sat == false && w.sc == 0 && w.ord == 0 && w.cp == 0 && w.xop == 0 && w2 == 0) (.vsel g ty b.d b.a b.b (w.c.extractLsb' 0 3))
  | 0x13 => do
      let g ← need (guardOf w)
      let ty ← need (tyOf w.ty)
      accept (b.b == 0 && b.m.getLsbD 0 == false && b.m.getLsbD 1 == false && b.m.getLsbD 2 == false && w.c == 0 && w.rnd == 0 && w.sat == false && w.sc == 0 && w.ord == 0 && w.cp == 0 && w.xop == 0 && w2 == 0) (.vmovW1 g ty (b.m.getLsbD 3) b.d b.a)
  | 0x14 => do
      let g ← need (guardOf w)
      let ty ← need (tyOf w.ty)
      let cc ← need (cmpOf w.xop)
      accept (b.d.extractLsb' 3 3 == 0 && b.m.getLsbD 0 == false && b.m.getLsbD 1 == false && b.m.getLsbD 2 == false && w.c == 0 && w.rnd == 0 && w.sat == false && w.sc == 0 && w.ord == 0 && w.cp == 0 && w2 == 0) (.vcmp g ty cc (b.m.getLsbD 3) (b.d.extractLsb' 0 3) b.a b.b)
  | 0x20 => do
      let g ← need (guardOf w)
      let ty ← need (tyOf w.ty)
      let rnd ← need (rndOf w.rnd)
      accept (b.m.getLsbD 0 == false && b.m.getLsbD 1 == false && b.m.getLsbD 2 == false && w.c == 0 && w.sat == false && w.sc == 0 && w.ord == 0 && w.cp == 0 && w.xop == 0 && w2 == 0) (.faddW1 g ty rnd (b.m.getLsbD 3) b.d b.a b.b)
  | 0x21 => do
      let g ← need (guardOf w)
      let ty ← need (tyOf w.ty)
      let rnd ← need (rndOf w.rnd)
      accept (b.m.getLsbD 0 == false && b.m.getLsbD 1 == false && b.m.getLsbD 2 == false && w.c == 0 && w.sat == false && w.sc == 0 && w.ord == 0 && w.cp == 0 && w.xop == 0 && w2 == 0) (.fsubW1 g ty rnd (b.m.getLsbD 3) b.d b.a b.b)
  | 0x22 => do
      let g ← need (guardOf w)
      let ty ← need (tyOf w.ty)
      let rnd ← need (rndOf w.rnd)
      accept (b.m.getLsbD 0 == false && b.m.getLsbD 1 == false && b.m.getLsbD 2 == false && w.c == 0 && w.sat == false && w.sc == 0 && w.ord == 0 && w.cp == 0 && w.xop == 0 && w2 == 0) (.fmulW1 g ty rnd (b.m.getLsbD 3) b.d b.a b.b)
  | 0x23 => do
      let g ← need (guardOf w)
      let ty ← need (tyOf w.ty)
      let rnd ← need (rndOf w.rnd)
      accept (b.m.getLsbD 2 == false && w.sat == false && w.sc == 0 && w.ord == 0 && w.cp == 0 && w.xop == 0 && w2 == 0) (.ffmaW1 g ty rnd (b.m.getLsbD 0) (b.m.getLsbD 1) (b.m.getLsbD 3) b.d b.a b.b w.c)
  | 0x24 => do
      let g ← need (guardOf w)
      let ty ← need (tyOf w.ty)
      accept (b.m.getLsbD 1 == false && b.m.getLsbD 2 == false && b.m.getLsbD 3 == false && w.c == 0 && w.rnd == 0 && w.sat == false && w.sc == 0 && w.ord == 0 && w.cp == 0 && w.xop == 0 && w2 == 0) (.fminW1 g ty (b.m.getLsbD 0) b.d b.a b.b)
  | 0x25 => do
      let g ← need (guardOf w)
      let ty ← need (tyOf w.ty)
      accept (b.m.getLsbD 1 == false && b.m.getLsbD 2 == false && b.m.getLsbD 3 == false && w.c == 0 && w.rnd == 0 && w.sat == false && w.sc == 0 && w.ord == 0 && w.cp == 0 && w.xop == 0 && w2 == 0) (.fmaxW1 g ty (b.m.getLsbD 0) b.d b.a b.b)
  | 0x26 => do
      let g ← need (guardOf w)
      let ty ← need (tyOf w.ty)
      let cc ← need (fcmpOf w.xop)
      accept (b.d.extractLsb' 3 3 == 0 && b.m.getLsbD 0 == false && b.m.getLsbD 1 == false && b.m.getLsbD 2 == false && w.c == 0 && w.rnd == 0 && w.sat == false && w.sc == 0 && w.ord == 0 && w.cp == 0 && w2 == 0) (.fcmp g ty cc (b.m.getLsbD 3) (b.d.extractLsb' 0 3) b.a b.b)
  | 0x27 => do
      let g ← need (guardOf w)
      let ty ← need (tyOf w.ty)
      accept (b.b == 0 && b.m == 0 && w.c == 0 && w.rnd == 0 && w.sat == false && w.sc == 0 && w.ord == 0 && w.cp == 0 && w.xop == 0 && w2 == 0) (.fclassW1 g ty b.d b.a)
  | 0x28 => do
      let g ← need (guardOf w)
      let ty ← need (tyOf w.ty)
      let rnd ← need (rndOf w.rnd)
      accept (b.b == 0 && b.m == 0 && w.c == 0 && w.sat == false && w.sc == 0 && w.ord == 0 && w.cp == 0 && w.xop == 0 && w2 == 0) (.frnd g ty rnd b.d b.a)
  | 0x29 => do
      let src ← need (tyOf (b.b.extractLsb' 0 5))
      let g ← need (guardOf w)
      let ty ← need (tyOf w.ty)
      let rnd ← need (rndOf w.rnd)
      accept (b.b.getLsbD 5 == false && b.m == 0 && w.c == 0 && w.sc == 0 && w.ord == 0 && w.cp == 0 && w.xop == 0 && w2 == 0) (.cvt g ty rnd w.sat src b.d b.a)
  | 0x2a => do
      let g ← need (guardOf w)
      let ty ← need (tyOf w.ty)
      let rnd ← need (rndOf w.rnd)
      accept (b.m == 0 && w.c == 0 && w.sat == false && w.sc == 0 && w.ord == 0 && w.cp == 0 && w.xop == 0 && w2 == 0) (.pkaddW1 g ty rnd b.d b.a b.b)
  | 0x2b => do
      let g ← need (guardOf w)
      let ty ← need (tyOf w.ty)
      let rnd ← need (rndOf w.rnd)
      accept (b.m == 0 && w.c == 0 && w.sat == false && w.sc == 0 && w.ord == 0 && w.cp == 0 && w.xop == 0 && w2 == 0) (.pkmulW1 g ty rnd b.d b.a b.b)
  | 0x2c => do
      let g ← need (guardOf w)
      let ty ← need (tyOf w.ty)
      let rnd ← need (rndOf w.rnd)
      accept (b.m == 0 && w.sat == false && w.sc == 0 && w.ord == 0 && w.cp == 0 && w.xop == 0 && w2 == 0) (.pkfmaW1 g ty rnd b.d b.a b.b w.c)
  | 0x50 => do
      let g ← need (guardOf w)
      let ty ← need (tyOf w.ty)
      accept (b.m.getLsbD 2 == false && b.m.getLsbD 3 == false && w.c == 0 && w.rnd == 0 && w.sat == false && w.sc == 0 && w.ord == 0 && w.cp == 0 && w.xop == 0 && w2 == 0) (.vshflW1 g ty (b.m.extractLsb' 0 2) b.d b.a b.b)
  | 0x51 => do
      let g ← need (guardOf w)
      let ty ← need (tyOf w.ty)
      accept (b.m == 0 && w.c == 0 && w.rnd == 0 && w.sat == false && w.sc == 0 && w.ord == 0 && w.cp == 0 && w.xop == 0 && w2 == 0) (.vrotW1 g ty b.d b.a b.b)
  | 0x52 => do
      let g ← need (guardOf w)
      let ty ← need (tyOf w.ty)
      accept (b.m == 0 && w.c == 0 && w.rnd == 0 && w.sat == false && w.sc == 0 && w.ord == 0 && w.cp == 0 && w.xop == 0 && w2 == 0) (.vbcastW1 g ty b.d b.a b.b)
  | 0x53 => do
      let g ← need (guardOf w)
      accept (b.a.extractLsb' 3 3 == 0 && b.b == 0 && b.m == 0 && w.c == 0 && w.rnd == 0 && w.sat == false && w.ty == 0 && w.sc == 0 && w.ord == 0 && w.cp == 0 && w.xop == 0 && w2 == 0) (.vballotW1 g b.d (b.a.extractLsb' 0 3))
  | 0x54 => do
      let g ← need (guardOf w)
      let ty ← need (tyOf w.ty)
      accept (b.b == 0 && b.m == 0 && w.c == 0 && w.rnd == 0 && w.sat == false && w.sc == 0 && w.ord == 0 && w.cp == 0 && w.xop == 0 && w2 == 0) (.vraddW1 g ty b.d b.a)
  | 0x55 => do
      let g ← need (guardOf w)
      let ty ← need (tyOf w.ty)
      accept (b.b == 0 && b.m.getLsbD 1 == false && b.m.getLsbD 2 == false && b.m.getLsbD 3 == false && w.c == 0 && w.rnd == 0 && w.sat == false && w.sc == 0 && w.ord == 0 && w.cp == 0 && w.xop == 0 && w2 == 0) (.vrminW1 g ty (b.m.getLsbD 0) b.d b.a)
  | 0x56 => do
      let g ← need (guardOf w)
      let ty ← need (tyOf w.ty)
      accept (b.b == 0 && b.m.getLsbD 1 == false && b.m.getLsbD 2 == false && b.m.getLsbD 3 == false && w.c == 0 && w.rnd == 0 && w.sat == false && w.sc == 0 && w.ord == 0 && w.cp == 0 && w.xop == 0 && w2 == 0) (.vrmaxW1 g ty (b.m.getLsbD 0) b.d b.a)
  | 0x57 => do
      let g ← need (guardOf w)
      let ty ← need (tyOf w.ty)
      let op ← need (scanOf w.xop)
      accept (b.b == 0 && b.m.getLsbD 1 == false && b.m.getLsbD 2 == false && b.m.getLsbD 3 == false && w.c == 0 && w.rnd == 0 && w.sat == false && w.sc == 0 && w.ord == 0 && w.cp == 0 && w2 == 0) (.vscan g ty op (b.m.getLsbD 0) b.d b.a)
  | 0x58 => do
      let g ← need (guardOf w)
      accept (b.m.getLsbD 2 == false && b.m.getLsbD 3 == false && w.rnd == 0 && w.ty == 0 && w.sc == 0 && w.ord == 0 && w.cp == 0 && w.xop == 0 && w2 == 0) (.vdot4W1 g w.sat (b.m.getLsbD 0) (b.m.getLsbD 1) b.d b.a b.b w.c)
  | 0x59 => do
      let g ← need (guardOf w)
      let ty ← need (tyOf w.ty)
      accept (b.m == 0 && w.rnd == 0 && w.sat == false && w.sc == 0 && w.ord == 0 && w.cp == 0 && w.xop == 0 && w2 == 0) (.vdot2hW1 g ty b.d b.a b.b w.c)
  | 0x60 => do
      let x ← need (idxOf b.b b.m)
      let g ← need (guardOf w)
      let ty ← need (tyOf w.ty)
      let sc ← need (scopeOf w.sc)
      let cp ← need (cpOf w.cp)
      accept (w.c == 0 && w.rnd == 0 && w.sat == false && w.xop == 0) (.ldW1 g ty sc (orderOf w.ord) cp ⟨b.a, x⟩ w2 b.d)
  | 0x61 => do
      let x ← need (idxOf b.b b.m)
      let g ← need (guardOf w)
      let ty ← need (tyOf w.ty)
      let sc ← need (scopeOf w.sc)
      let cp ← need (cpOf w.cp)
      accept (w.c == 0 && w.rnd == 0 && w.sat == false && w.xop == 0) (.stW1 g ty sc (orderOf w.ord) cp ⟨b.a, x⟩ w2 b.d)
  | 0x62 => do
      let x ← need (idxOf b.b b.m)
      let g ← need (guardOf w)
      let ty ← need (tyOf w.ty)
      let sc ← need (scopeOf w.sc)
      let cp ← need (cpOf w.cp)
      accept (w.c == 0 && w.rnd == 0 && w.sat == false && w.xop == 0) (.ldgW1 g ty sc (orderOf w.ord) cp ⟨b.a, x⟩ w2 b.d)
  | 0x63 => do
      let x ← need (idxOf b.b b.m)
      let g ← need (guardOf w)
      let ty ← need (tyOf w.ty)
      let sc ← need (scopeOf w.sc)
      let cp ← need (cpOf w.cp)
      accept (w.c == 0 && w.rnd == 0 && w.sat == false && w.xop == 0) (.stgW1 g ty sc (orderOf w.ord) cp ⟨b.a, x⟩ w2 b.d)
  | 0x64 => do
      let x ← need (idxOf b.b b.m)
      let g ← need (guardOf w)
      let ty ← need (tyOf w.ty)
      accept (b.a == 0 && w.c == 0 && w.rnd == 0 && w.sat == false && w.sc == 0 && w.ord == 0 && w.cp == 0 && w.xop == 0) (.ldpW1 g ty x w2 b.d)
  | 0x65 => do
      let x ← need (idxOf b.b b.m)
      let g ← need (guardOf w)
      let ty ← need (tyOf w.ty)
      accept (b.a == 0 && w.c == 0 && w.rnd == 0 && w.sat == false && w.sc == 0 && w.ord == 0 && w.cp == 0 && w.xop == 0) (.stpW1 g ty x w2 b.d)
  | 0x66 => do
      let x ← need (idxOf b.b b.m)
      let g ← need (guardOf w)
      let ty ← need (tyOf w.ty)
      let sc ← need (scopeOf w.sc)
      let cp ← need (cpOf w.cp)
      let op ← need (atomOf w.xop)
      accept (w.rnd == 0 && w.sat == false) (.atom g ty sc (orderOf w.ord) cp op ⟨b.a, x⟩ w2 b.d w.c)
  | 0x67 => do
      let x ← need (idxOf b.b b.m)
      let g ← need (guardOf w)
      let ty ← need (tyOf w.ty)
      let sc ← need (scopeOf w.sc)
      let op ← need (atomOf w.xop)
      accept (w.rnd == 0 && w.sat == false && w.cp == 0) (.atomg g ty sc (orderOf w.ord) op ⟨b.a, x⟩ w2 b.d w.c)
  | 0x68 => do
      let x ← need (idxOf b.b b.m)
      let g ← need (guardOf w)
      let ty ← need (tyOf w.ty)
      let sc ← need (scopeOf w.sc)
      let cp ← need (cpOf w.cp)
      let op ← need (atomOf w.xop)
      accept (w.c == 0 && w.rnd == 0 && w.sat == false) (.red g ty sc (orderOf w.ord) cp op ⟨b.a, x⟩ w2 b.d)
  | 0x69 => do
      let x ← need (idxOf b.b b.m)
      let g ← need (guardOf w)
      let cp ← need (cpOf w.cp)
      accept (b.d == 0 && w.c == 0 && w.rnd == 0 && w.sat == false && w.ty == 0 && w.sc == 0 && w.ord == 0 && w.xop == 0) (.prefW1 g cp ⟨b.a, x⟩ w2)
  | 0x6a => do
      let sc ← need (scopeOf w.sc)
      accept (b.d == 0 && b.a == 0 && b.b == 0 && b.m == 0 && w.c == 0 && w.pe == false && w.pn == false && w.p == 0 && w.rnd == 0 && w.sat == false && w.ty == 0 && w.cp == 0 && w.xop == 0 && w2 == 0) (.fence sc (orderOf w.ord))
  | 0x6b => do
      let x ← need (idxOf b.b b.m)
      accept (w.xop.extractLsb' 2 2 == 0 && b.d == 0 && w.c == 0 && w.pe == false && w.pn == false && w.p == 0 && w.rnd == 0 && w.sat == false && w.ty == 0 && w.sc == 0 && w.ord == 0 && w.cp == 0) (.cctl (w.xop.extractLsb' 0 2) ⟨b.a, x⟩ w2)
  | 0x70 => do
      let g ← need (guardOf w)
      let ty ← need (tyOf w.ty)
      let sc ← need (scopeOf w.sc)
      accept (b.m == 0 && w.c == 0 && w.rnd == 0 && w.sat == false && w.cp == 0 && w.xop == 0) (.remld g ty sc (orderOf w.ord) w2 b.d b.a b.b)
  | 0x71 => do
      let g ← need (guardOf w)
      let ty ← need (tyOf w.ty)
      let sc ← need (scopeOf w.sc)
      accept (b.m == 0 && w.c == 0 && w.rnd == 0 && w.sat == false && w.cp == 0 && w.xop == 0) (.remst g ty sc (orderOf w.ord) w2 b.d b.a b.b)
  | 0x72 => do
      let g ← need (guardOf w)
      let ty ← need (tyOf w.ty)
      let sc ← need (scopeOf w.sc)
      let op ← need (atomOf w.xop)
      accept (b.m == 0 && w.rnd == 0 && w.sat == false && w.cp == 0) (.rematom g ty sc (orderOf w.ord) op w2 b.d b.a b.b w.c)
  | 0x73 => do
      let g ← need (guardOf w)
      let ty ← need (tyOf w.ty)
      let op ← need (atomOf w.xop)
      accept (b.d.extractLsb' 4 2 == 0 && b.m == 0 && w.c == 0 && w.rnd == 0 && w.sat == false && w.sc == 0 && w.ord == 0 && w.cp == 0 && w2 == 0) (.rred g ty op (b.d.extractLsb' 0 4) b.a b.b)
  | 0x74 => do
      let g ← need (guardOf w)
      let ty ← need (tyOf w.ty)
      let op ← need (atomOf w.xop)
      accept (b.b == 0 && b.m == 0 && w.c == 0 && w.rnd == 0 && w.sat == false && w.sc == 0 && w.ord == 0 && w.cp == 0 && w2 == 0) (.gred g ty op b.d b.a)
  | _ => .error .opcode

/-- U = 1, LEN 0b10 (R42 to R53). -/
def decodeVectorLit (b : BaseWord) (l : W64) : Except DecodeError Instr :=
  match b.op.toNat with
  | 0x00 => accept (b.b == 0 && b.m == 0) (.vaddLit b.d b.a l)
  | 0x01 => accept (b.b == 0 && b.m == 0) (.vsubLit b.d b.a l)
  | 0x02 => accept (b.b == 0 && b.m == 0) (.vmulLit b.d b.a l)
  | 0x06 => accept (b.b == 0 && b.m == 0) (.vandLit b.d b.a l)
  | 0x07 => accept (b.b == 0 && b.m == 0) (.vorLit b.d b.a l)
  | 0x08 => accept (b.b == 0 && b.m == 0) (.vxorLit b.d b.a l)
  | 0x0c => accept (b.b == 0 && b.m.getLsbD 1 == false && b.m.getLsbD 2 == false && b.m.getLsbD 3 == false) (.vminLit (b.m.getLsbD 0) b.d b.a l)
  | 0x0d => accept (b.b == 0 && b.m.getLsbD 1 == false && b.m.getLsbD 2 == false && b.m.getLsbD 3 == false) (.vmaxLit (b.m.getLsbD 0) b.d b.a l)
  | 0x13 => accept (b.a == 0 && b.b == 0 && b.m == 0) (.vmovLit b.d l)
  | _ => .error .opcode

/-- U = 1, LEN 0b11 (R42 to R53). -/
def decodeVectorExtLit (b : BaseWord) (w : ExtWord) (w2 : W32) (l : W64) : Except DecodeError Instr :=
  match b.op.toNat with
  | 0x00 => do
      let g ← need (guardOf w)
      let ty ← need (tyOf w.ty)
      accept (b.b == 0 && b.m == 0 && w.c == 0 && w.rnd == 0 && w.sc == 0 && w.ord == 0 && w.cp == 0 && w.xop == 0 && w2 == 0) (.vaddLitW1 g ty w.sat b.d b.a l)
  | 0x01 => do
      let g ← need (guardOf w)
      let ty ← need (tyOf w.ty)
      accept (b.b == 0 && b.m == 0 && w.c == 0 && w.rnd == 0 && w.sc == 0 && w.ord == 0 && w.cp == 0 && w.xop == 0 && w2 == 0) (.vsubLitW1 g ty w.sat b.d b.a l)
  | 0x02 => do
      let g ← need (guardOf w)
      let ty ← need (tyOf w.ty)
      accept (b.b == 0 && b.m == 0 && w.c == 0 && w.rnd == 0 && w.sc == 0 && w.ord == 0 && w.cp == 0 && w.xop == 0 && w2 == 0) (.vmulLitW1 g ty w.sat b.d b.a l)
  | 0x06 => do
      let g ← need (guardOf w)
      let ty ← need (tyOf w.ty)
      accept (b.b == 0 && b.m == 0 && w.c == 0 && w.rnd == 0 && w.sat == false && w.sc == 0 && w.ord == 0 && w.cp == 0 && w.xop == 0 && w2 == 0) (.vandLitW1 g ty b.d b.a l)
  | 0x07 => do
      let g ← need (guardOf w)
      let ty ← need (tyOf w.ty)
      accept (b.b == 0 && b.m == 0 && w.c == 0 && w.rnd == 0 && w.sat == false && w.sc == 0 && w.ord == 0 && w.cp == 0 && w.xop == 0 && w2 == 0) (.vorLitW1 g ty b.d b.a l)
  | 0x08 => do
      let g ← need (guardOf w)
      let ty ← need (tyOf w.ty)
      accept (b.b == 0 && b.m == 0 && w.c == 0 && w.rnd == 0 && w.sat == false && w.sc == 0 && w.ord == 0 && w.cp == 0 && w.xop == 0 && w2 == 0) (.vxorLitW1 g ty b.d b.a l)
  | 0x0c => do
      let g ← need (guardOf w)
      let ty ← need (tyOf w.ty)
      accept (b.b == 0 && b.m.getLsbD 1 == false && b.m.getLsbD 2 == false && b.m.getLsbD 3 == false && w.c == 0 && w.rnd == 0 && w.sat == false && w.sc == 0 && w.ord == 0 && w.cp == 0 && w.xop == 0 && w2 == 0) (.vminLitW1 g ty (b.m.getLsbD 0) b.d b.a l)
  | 0x0d => do
      let g ← need (guardOf w)
      let ty ← need (tyOf w.ty)
      accept (b.b == 0 && b.m.getLsbD 1 == false && b.m.getLsbD 2 == false && b.m.getLsbD 3 == false && w.c == 0 && w.rnd == 0 && w.sat == false && w.sc == 0 && w.ord == 0 && w.cp == 0 && w.xop == 0 && w2 == 0) (.vmaxLitW1 g ty (b.m.getLsbD 0) b.d b.a l)
  | 0x13 => do
      let g ← need (guardOf w)
      let ty ← need (tyOf w.ty)
      accept (b.a == 0 && b.b == 0 && b.m == 0 && w.c == 0 && w.rnd == 0 && w.sat == false && w.sc == 0 && w.ord == 0 && w.cp == 0 && w.xop == 0 && w2 == 0) (.vmovLitW1 g ty b.d l)
  | _ => .error .opcode

/-- U = 1, LEN 0b00 (R42 to R53). -/
def decodeSfu (b : BaseWord) : Except DecodeError SfuInstr :=
  match b.op.toNat with
  | 0x40 => acceptSfu (b.b == 0 && b.m == 0) (.xrcp b.d b.a)
  | 0x41 => acceptSfu (b.b == 0 && b.m == 0) (.xrsq b.d b.a)
  | 0x42 => acceptSfu (b.b == 0 && b.m == 0) (.xsqrt b.d b.a)
  | 0x43 => acceptSfu (b.b == 0 && b.m == 0) (.xexp2 b.d b.a)
  | 0x44 => acceptSfu (b.b == 0 && b.m == 0) (.xlog2 b.d b.a)
  | 0x45 => acceptSfu (b.b == 0 && b.m == 0) (.xsin b.d b.a)
  | 0x46 => acceptSfu (b.b == 0 && b.m == 0) (.xcos b.d b.a)
  | 0x47 => acceptSfu (b.b == 0 && b.m == 0) (.xtanh b.d b.a)
  | 0x48 => acceptSfu (b.d == 0 && b.m == 0) (.rngseed b.a b.b)
  | 0x49 => acceptSfu (b.a == 0 && b.b == 0 && b.m.getLsbD 1 == false && b.m.getLsbD 2 == false && b.m.getLsbD 3 == false) (.rng (b.m.getLsbD 0) b.d)
  | 0x4a => acceptSfu (b.d == 0 && b.b == 0 && b.m == 0) (.rngskip b.a)
  | _ => .error .opcode

/-- U = 1, LEN 0b01 (R42 to R53). -/
def decodeSfuExt (b : BaseWord) (w : ExtWord) (w2 : W32) : Except DecodeError SfuInstr :=
  match b.op.toNat with
  | 0x40 => do
      let g ← need (guardOf w)
      acceptSfu (w.ty == 9 && b.b == 0 && b.m == 0 && w.c == 0 && w.rnd == 0 && w.sat == false && w.sc == 0 && w.ord == 0 && w.cp == 0 && w.xop == 0 && w2 == 0) (.xrcpW1 g b.d b.a)
  | 0x41 => do
      let g ← need (guardOf w)
      acceptSfu (w.ty == 9 && b.b == 0 && b.m == 0 && w.c == 0 && w.rnd == 0 && w.sat == false && w.sc == 0 && w.ord == 0 && w.cp == 0 && w.xop == 0 && w2 == 0) (.xrsqW1 g b.d b.a)
  | 0x42 => do
      let g ← need (guardOf w)
      acceptSfu (w.ty == 9 && b.b == 0 && b.m == 0 && w.c == 0 && w.rnd == 0 && w.sat == false && w.sc == 0 && w.ord == 0 && w.cp == 0 && w.xop == 0 && w2 == 0) (.xsqrtW1 g b.d b.a)
  | 0x43 => do
      let g ← need (guardOf w)
      acceptSfu (w.ty == 9 && b.b == 0 && b.m == 0 && w.c == 0 && w.rnd == 0 && w.sat == false && w.sc == 0 && w.ord == 0 && w.cp == 0 && w.xop == 0 && w2 == 0) (.xexp2W1 g b.d b.a)
  | 0x44 => do
      let g ← need (guardOf w)
      acceptSfu (w.ty == 9 && b.b == 0 && b.m == 0 && w.c == 0 && w.rnd == 0 && w.sat == false && w.sc == 0 && w.ord == 0 && w.cp == 0 && w.xop == 0 && w2 == 0) (.xlog2W1 g b.d b.a)
  | 0x45 => do
      let g ← need (guardOf w)
      acceptSfu (w.ty == 9 && b.b == 0 && b.m == 0 && w.c == 0 && w.rnd == 0 && w.sat == false && w.sc == 0 && w.ord == 0 && w.cp == 0 && w.xop == 0 && w2 == 0) (.xsinW1 g b.d b.a)
  | 0x46 => do
      let g ← need (guardOf w)
      acceptSfu (w.ty == 9 && b.b == 0 && b.m == 0 && w.c == 0 && w.rnd == 0 && w.sat == false && w.sc == 0 && w.ord == 0 && w.cp == 0 && w.xop == 0 && w2 == 0) (.xcosW1 g b.d b.a)
  | 0x47 => do
      let g ← need (guardOf w)
      acceptSfu (w.ty == 9 && b.b == 0 && b.m == 0 && w.c == 0 && w.rnd == 0 && w.sat == false && w.sc == 0 && w.ord == 0 && w.cp == 0 && w.xop == 0 && w2 == 0) (.xtanhW1 g b.d b.a)
  | 0x49 => do
      let g ← need (guardOf w)
      acceptSfu (b.a == 0 && b.b == 0 && b.m.getLsbD 1 == false && b.m.getLsbD 2 == false && b.m.getLsbD 3 == false && w.c == 0 && w.rnd == 0 && w.sat == false && w.ty == 0 && w.sc == 0 && w.ord == 0 && w.cp == 0 && w.xop == 0 && w2 == 0) (.rngW1 g (b.m.getLsbD 0) b.d)
  | _ => .error .opcode

/-- What the decoder reads: an instruction, or one of the special functions and random numbers. -/
inductive Decoded where
  | plain (i : Instr)
  | sfu (i : SfuInstr)
  deriving DecidableEq, Repr

/-- One instruction from its base word and the words after it, by LEN (R11). -/
def readForm (b : BaseWord) (f : Form) : Except DecodeError Decoded :=
  if b.u && b.op.extractLsb' 4 3 == 4 then
    match f with
    | .short => (decodeSfu b).map .sfu
    | .ext w w2 => (decodeSfuExt b w w2).map .sfu
    | _ => .error .opcode
  else
    (match f with
    | .short => if b.u then decodeVector b else decodeScalar b
    | .ext w w2 => if b.u then decodeVectorExt b w w2 else decodeScalarExt b w w2
    | .lit l => if b.u then decodeVectorLit b l else decodeScalarLit b l
    | .extLit w w2 l => if b.u then decodeVectorExtLit b w w2 l else .error .opcode).map .plain

/-- What stands at the head of a list of words (R11, R12). -/
def readWords (ws : List W32) : Except DecodeError Decoded :=
  match ws with
  | [] => .error .truncated
  | w :: rest =>
    let b := unpackBase w
    match b.len.toNat, rest with
    | 0, _ => readForm b .short
    | 1, w1 :: w2 :: _ => readForm b (.ext (unpackExt w1) w2)
    | 2, l :: h :: _ => readForm b (.lit (h ++ l))
    | 3, w1 :: w2 :: l :: h :: _ => readForm b (.extLit (unpackExt w1) w2 (h ++ l))
    | _, _ => .error .truncated

/-- The instruction that was read. Noncomputable only because a compiled program cannot build the later constructors
of `Instr`; the kernel evaluates it. -/
noncomputable def Decoded.instr : Decoded → Instr
  | .plain i => i
  | .sfu (.xrcp d a) => .xrcp d a
  | .sfu (.xrcpW1 g d a) => .xrcpW1 g d a
  | .sfu (.xrsq d a) => .xrsq d a
  | .sfu (.xrsqW1 g d a) => .xrsqW1 g d a
  | .sfu (.xsqrt d a) => .xsqrt d a
  | .sfu (.xsqrtW1 g d a) => .xsqrtW1 g d a
  | .sfu (.xexp2 d a) => .xexp2 d a
  | .sfu (.xexp2W1 g d a) => .xexp2W1 g d a
  | .sfu (.xlog2 d a) => .xlog2 d a
  | .sfu (.xlog2W1 g d a) => .xlog2W1 g d a
  | .sfu (.xsin d a) => .xsin d a
  | .sfu (.xsinW1 g d a) => .xsinW1 g d a
  | .sfu (.xcos d a) => .xcos d a
  | .sfu (.xcosW1 g d a) => .xcosW1 g d a
  | .sfu (.xtanh d a) => .xtanh d a
  | .sfu (.xtanhW1 g d a) => .xtanhW1 g d a
  | .sfu (.rngseed a b) => .rngseed a b
  | .sfu (.rng unit d) => .rng unit d
  | .sfu (.rngW1 g unit d) => .rngW1 g unit d
  | .sfu (.rngskip a) => .rngskip a

/-- The instruction at the head of a list of words. -/
noncomputable def decodeWords (ws : List W32) : Except DecodeError Instr := (readWords ws).map Decoded.instr

/-- The words of four bytes each, little-endian (R3); a rest of fewer than four bytes is dropped. -/
def wordsOfBytes : List Byte → List W32
  | b0 :: b1 :: b2 :: b3 :: r => (b3 ++ b2 ++ b1 ++ b0) :: wordsOfBytes r
  | _ => []

/-- The bytes of words, little-endian (R3). -/
def bytesOfWords : List W32 → List Byte
  | [] => []
  | w :: r => w.extractLsb' 0 8 :: w.extractLsb' 8 8 :: w.extractLsb' 16 8 :: w.extractLsb' 24 8 :: bytesOfWords r

/-- The instruction at the head of a list of bytes. -/
noncomputable def decodeBytes (bs : List Byte) : Except DecodeError Instr := decodeWords (wordsOfBytes bs)

/-- The five words of a number whose bit 0 is bit 0 of the first word. -/
def tableWords (w : Nat) : List W32 :=
  [BitVec.ofNat 32 w, BitVec.ofNat 32 (w / 2 ^ 32), BitVec.ofNat 32 (w / 2 ^ 64), BitVec.ofNat 32 (w / 2 ^ 96),
    BitVec.ofNat 32 (w / 2 ^ 128)]

/-- The instruction of opcode-table bits `w`, laid out in memory order and decoded. Bits at or above `nbits` are 0. -/
noncomputable def decodeTableWord (nbits w : Nat) : Option Instr :=
  match decodeBytes (bytesOfWords (tableWords (w % 2 ^ nbits))) with
  | .ok i => some i
  | .error _ => none

/-- The fields of an instruction's words, from the encoding tables of the spec; none for an event. -/
def encodeFields : Instr → Option (BaseWord × Form)
  | .sadd d a b => some (⟨0, false, 0x01, d, a, b, 0⟩, .short)
  | .saddLit d a lit => some (⟨2, false, 0x01, d, a, 0, 0⟩, .lit lit)
  | .saddImm d a i => some (⟨0, false, 0x18, d, a, (i.extractLsb' 0 6), (i.extractLsb' 6 4)⟩, .short)
  | .ssub d a b => some (⟨0, false, 0x02, d, a, b, 0⟩, .short)
  | .ssubLit d a lit => some (⟨2, false, 0x02, d, a, 0, 0⟩, .lit lit)
  | .smul d a b => some (⟨0, false, 0x03, d, a, b, 0⟩, .short)
  | .smulLit d a lit => some (⟨2, false, 0x03, d, a, 0, 0⟩, .lit lit)
  | .smulh u d a b => some (⟨0, false, 0x04, d, a, b, (0#3 ++ BitVec.ofBool u)⟩, .short)
  | .smulhLit u d a lit => some (⟨2, false, 0x04, d, a, 0, (0#3 ++ BitVec.ofBool u)⟩, .lit lit)
  | .sand d a b => some (⟨0, false, 0x05, d, a, b, 0⟩, .short)
  | .sandLit d a lit => some (⟨2, false, 0x05, d, a, 0, 0⟩, .lit lit)
  | .sandImm d a i => some (⟨0, false, 0x19, d, a, (i.extractLsb' 0 6), (i.extractLsb' 6 4)⟩, .short)
  | .sor d a b => some (⟨0, false, 0x06, d, a, b, 0⟩, .short)
  | .sorLit d a lit => some (⟨2, false, 0x06, d, a, 0, 0⟩, .lit lit)
  | .sorImm d a i => some (⟨0, false, 0x1a, d, a, (i.extractLsb' 0 6), (i.extractLsb' 6 4)⟩, .short)
  | .sxor d a b => some (⟨0, false, 0x07, d, a, b, 0⟩, .short)
  | .sxorLit d a lit => some (⟨2, false, 0x07, d, a, 0, 0⟩, .lit lit)
  | .sxorImm d a i => some (⟨0, false, 0x1b, d, a, (i.extractLsb' 0 6), (i.extractLsb' 6 4)⟩, .short)
  | .sshl d a b => some (⟨0, false, 0x08, d, a, b, 0⟩, .short)
  | .sshlImm d a i => some (⟨0, false, 0x1c, d, a, ((0#4 ++ i).extractLsb' 0 6), ((0#4 ++ i).extractLsb' 6 4)⟩, .short)
  | .sshr d a b => some (⟨0, false, 0x09, d, a, b, 0⟩, .short)
  | .sshrImm d a i => some (⟨0, false, 0x1d, d, a, ((0#4 ++ i).extractLsb' 0 6), ((0#4 ++ i).extractLsb' 6 4)⟩, .short)
  | .ssra d a b => some (⟨0, false, 0x0a, d, a, b, 0⟩, .short)
  | .ssraImm d a i => some (⟨0, false, 0x1e, d, a, ((0#4 ++ i).extractLsb' 0 6), ((0#4 ++ i).extractLsb' 6 4)⟩, .short)
  | .smin u d a b => some (⟨0, false, 0x0b, d, a, b, (0#3 ++ BitVec.ofBool u)⟩, .short)
  | .sminLit u d a lit => some (⟨2, false, 0x0b, d, a, 0, (0#3 ++ BitVec.ofBool u)⟩, .lit lit)
  | .smax u d a b => some (⟨0, false, 0x0c, d, a, b, (0#3 ++ BitVec.ofBool u)⟩, .short)
  | .smaxLit u d a lit => some (⟨2, false, 0x0c, d, a, 0, (0#3 ++ BitVec.ofBool u)⟩, .lit lit)
  | .scmp cc d a b => some (⟨0, false, 0x0d, d, a, b, (cmpCode cc)⟩, .short)
  | .scmpLit cc d a lit => some (⟨2, false, 0x0d, d, a, 0, (cmpCode cc)⟩, .lit lit)
  | .ssel d a b c => some (⟨1, false, 0x0e, d, a, b, 0⟩, .ext ({ c := c }) (0))
  | .smov d a => some (⟨0, false, 0x0f, d, a, 0, 0⟩, .short)
  | .sliW2 d w => some (⟨1, false, 0x10, d, 0, 0, 0⟩, .ext ({}) (w))
  | .sliLit d lit => some (⟨2, false, 0x10, d, 0, 0, 0⟩, .lit lit)
  | .sliImm d i => some (⟨0, false, 0x1f, d, 0, (i.extractLsb' 0 6), (i.extractLsb' 6 4)⟩, .short)
  | .spopc d a => some (⟨0, false, 0x11, d, a, 0, 0⟩, .short)
  | .sclz d a => some (⟨0, false, 0x12, d, a, 0, 0⟩, .short)
  | .sbfe s d a pos width => some (⟨1, false, 0x13, d, a, 0, (0#3 ++ BitVec.ofBool s)⟩, .ext ({}) (0#16 ++ width ++ pos))
  | .sbfi d a pos width => some (⟨1, false, 0x14, d, a, 0, 0⟩, .ext ({}) (0#16 ++ width ++ pos))
  | .br m off => some (⟨1, false, 0x20, 0, (brA m), 0, (brM m)⟩, .ext ({}) (off))
  | .brd g target join => some (⟨1, false, 0x21, 0, 0, 0, 0⟩, .ext (extGuard (some g)) (join ++ target))
  | .call off => some (⟨1, false, 0x22, 0, 0, 0, 0⟩, .ext ({}) (off))
  | .calltScalar a => some (⟨0, false, 0x23, 0, a, 0, 0⟩, .short)
  | .calltScalarW1 a => some (⟨1, false, 0x23, 0, a, 0, 0⟩, .ext ({}) (0))
  | .calltLane a => some (⟨0, false, 0x23, 0, a, 0, 1⟩, .short)
  | .calltLaneW1 g a => some (⟨1, false, 0x23, 0, a, 0, 1⟩, .ext (extGuard g) (0))
  | .ret => some (⟨0, false, 0x24, 0, 0, 0, 0⟩, .short)
  | .enter f => some (⟨0, false, 0x25, 0, 0, 0, (0#1 ++ f)⟩, .short)
  | .jts a => some (⟨0, false, 0x26, 0, a, 0, 0⟩, .short)
  | .jtv a => some (⟨0, false, 0x27, 0, a, 0, 0⟩, .short)
  | .jtvW1 g a => some (⟨1, false, 0x27, 0, a, 0, 0⟩, .ext (extGuard g) (0))
  | .exit => some (⟨0, false, 0x28, 0, 0, 0, 0⟩, .short)
  | .nop => some (⟨0, false, 0x29, 0, 0, 0, 0⟩, .short)
  | .yield => some (⟨0, false, 0x2a, 0, 0, 0, 0⟩, .short)
  | .pand nb d a b => some (⟨0, false, 0x38, (0#3 ++ d), (0#3 ++ a), (0#3 ++ b), (0#3 ++ BitVec.ofBool nb)⟩, .short)
  | .pandW1 g nb d a b => some (⟨1, false, 0x38, (0#3 ++ d), (0#3 ++ a), (0#3 ++ b), (0#3 ++ BitVec.ofBool nb)⟩, .ext (extGuard g) (0))
  | .por nb d a b => some (⟨0, false, 0x39, (0#3 ++ d), (0#3 ++ a), (0#3 ++ b), (0#3 ++ BitVec.ofBool nb)⟩, .short)
  | .porW1 g nb d a b => some (⟨1, false, 0x39, (0#3 ++ d), (0#3 ++ a), (0#3 ++ b), (0#3 ++ BitVec.ofBool nb)⟩, .ext (extGuard g) (0))
  | .pxor nb d a b => some (⟨0, false, 0x3a, (0#3 ++ d), (0#3 ++ a), (0#3 ++ b), (0#3 ++ BitVec.ofBool nb)⟩, .short)
  | .pxorW1 g nb d a b => some (⟨1, false, 0x3a, (0#3 ++ d), (0#3 ++ a), (0#3 ++ b), (0#3 ++ BitVec.ofBool nb)⟩, .ext (extGuard g) (0))
  | .pnot d a => some (⟨0, false, 0x3b, (0#3 ++ d), (0#3 ++ a), 0, 0⟩, .short)
  | .pnotW1 g d a => some (⟨1, false, 0x3b, (0#3 ++ d), (0#3 ++ a), 0, 0⟩, .ext (extGuard g) (0))
  | .pmov d a => some (⟨0, false, 0x3c, (0#3 ++ d), (0#3 ++ a), 0, 0⟩, .short)
  | .pmovW1 g d a => some (⟨1, false, 0x3c, (0#3 ++ d), (0#3 ++ a), 0, 0⟩, .ext (extGuard g) (0))
  | .ppack d => some (⟨0, false, 0x3d, d, 0, 0, 0⟩, .short)
  | .ppackW1 g d => some (⟨1, false, 0x3d, d, 0, 0, 0⟩, .ext (extGuard g) (0))
  | .punpk a => some (⟨0, false, 0x3e, 0, a, 0, 0⟩, .short)
  | .punpkW1 g a => some (⟨1, false, 0x3e, 0, a, 0, 0⟩, .ext (extGuard g) (0))
  | .pany d a => some (⟨0, false, 0x3f, d, (0#3 ++ a), 0, 0⟩, .short)
  | .pall d a => some (⟨0, false, 0x3f, d, (0#3 ++ a), 0, 1⟩, .short)
  | .trap n => some (⟨0, false, 0x40, 0, 0, ((0#1 ++ n).extractLsb' 0 6), ((0#1 ++ n).extractLsb' 6 4)⟩, .short)
  | .svc n => some (⟨0, false, 0x41, 0, 0, ((0#1 ++ n).extractLsb' 0 6), ((0#1 ++ n).extractLsb' 6 4)⟩, .short)
  | .rett => some (⟨0, false, 0x42, 0, 0, 0, 0⟩, .short)
  | .tget d n => some (⟨0, false, 0x43, d, 0, ((0#1 ++ n).extractLsb' 0 6), ((0#1 ++ n).extractLsb' 6 4)⟩, .short)
  | .sget d r => some (⟨0, false, 0x44, d, (sysRegCode r), 0, 0⟩, .short)
  | .sset r a => some (⟨0, false, 0x45, (sysRegCode r), a, 0, 0⟩, .short)
  | .exget d => some (⟨0, false, 0x46, d, 0, 0, 0⟩, .short)
  | .exset a => some (⟨0, false, 0x47, 0, a, 0, 0⟩, .short)
  | .rdtime d => some (⟨0, false, 0x48, d, 0, 0, 0⟩, .short)
  | .spawn r d a => some (⟨0, false, 0x50, d, a, 0, (0#2 ++ r)⟩, .short)
  | .fwait d f => some (⟨0, false, 0x51, d, (0#2 ++ f), 0, 0⟩, .short)
  | .ftest d f => some (⟨0, false, 0x52, d, (0#2 ++ f), 0, 0⟩, .short)
  | .fcancel f => some (⟨0, false, 0x53, 0, (0#2 ++ f), 0, 0⟩, .short)
  | .fexp d f => some (⟨0, false, 0x54, d, (0#2 ++ f), 0, 0⟩, .short)
  | .fimp f a => some (⟨0, false, 0x55, (0#2 ++ f), a, 0, 0⟩, .short)
  | .waitc m => some (⟨0, false, 0x56, 0, 0, 0, m⟩, .short)
  | .sleep d a => some (⟨0, false, 0x57, d, a, 0, 0⟩, .short)
  | .waita cc d a b => some (⟨0, false, 0x58, d, a, b, (cmpCode cc)⟩, .short)
  | .waitaW1 cc sc ord off d a b => some (⟨1, false, 0x58, d, a, b, (cmpCode cc)⟩, .ext ({ sc := scopeCode sc, ord := orderCode ord }) (off))
  | .wake a => some (⟨0, false, 0x59, 0, a, 0, 0⟩, .short)
  | .wakeW1 sc ord off a => some (⟨1, false, 0x59, 0, a, 0, 0⟩, .ext ({ sc := scopeCode sc, ord := orderCode ord }) (off))
  | .ldstat q ty f a => some (⟨1, false, 0x60, (0#2 ++ f), a, 0, (0#2 ++ q)⟩, .ext ({ ty := tyCode ty }) (0))
  | .swap q => some (⟨0, false, 0x61, 0, 0, 0, (0#2 ++ q)⟩, .short)
  | .mmq q fus n ty sn t a b => some (⟨1, false, 0x62, t, a, b, (fus ++ q)⟩, .ext ({ ty := tyCode ty, xop := 0#2 ++ n }) (0#31 ++ BitVec.ofBool sn))
  | .mmqs q fus n ty sn t a b => some (⟨1, false, 0x63, t, a, b, (fus ++ q)⟩, .ext ({ ty := tyCode ty, xop := 0#2 ++ n }) (0#31 ++ BitVec.ofBool sn))
  | .talloc d => some (⟨0, false, 0x64, d, 0, 0, 0⟩, .short)
  | .tfree a => some (⟨0, false, 0x65, 0, a, 0, 0⟩, .short)
  | .tzero a => some (⟨0, false, 0x66, 0, a, 0, 0⟩, .short)
  | .tld c d a => some (⟨1, false, 0x67, d, a, 0, 0⟩, .ext ({ xop := 0#1 ++ c }) (0))
  | .tst c ty rnd sat d a => some (⟨1, false, 0x68, d, a, 0, 0⟩, .ext ({ ty := tyCode ty, rnd := rndCode rnd, sat := sat, xop := 0#1 ++ c }) (0))
  | .barv d a => some (⟨0, false, 0x69, d, a, 0, 0⟩, .short)
  | .bwait a b => some (⟨0, false, 0x6a, 0, a, b, 0⟩, .short)
  | .bsync a => some (⟨0, false, 0x6b, 0, a, 0, 0⟩, .short)
  | .setleave a => some (⟨0, false, 0x6c, 0, a, 0, 0⟩, .short)
  | .gather ty f a => some (⟨1, false, 0x6d, (0#2 ++ f), a, 0, 0⟩, .ext ({ ty := tyCode ty }) (0))
  | .tcopy out sc ord cp f a => some (⟨1, false, 0x70, (0#2 ++ f), a, 0, (0#3 ++ BitVec.ofBool out)⟩, .ext ({ sc := scopeCode sc, ord := orderCode ord, cp := cpCode cp }) (0))
  | .rfence a => some (⟨0, false, 0x71, 0, a, 0, 0⟩, .short)
  | .put sp sc ord f a => some (⟨1, false, 0x72, (0#2 ++ f), a, 0, (0#3 ++ BitVec.ofBool sp)⟩, .ext ({ sc := scopeCode sc, ord := orderCode ord }) (0))
  | .townThread a b => some (⟨0, false, 0x73, 0, a, b, 0⟩, .short)
  | .townEngine a b => some (⟨0, false, 0x73, 0, a, b, 1⟩, .short)
  | .rsopen => some (⟨0, false, 0x74, 0, 0, 0, 0⟩, .short)
  | .rsclose => some (⟨0, false, 0x75, 0, 0, 0, 0⟩, .short)
  | .gpwait d => some (⟨0, false, 0x76, d, 0, 0, 0⟩, .short)
  | .gpwaitT d a => some (⟨0, false, 0x76, d, a, 0, 2⟩, .short)
  | .gpwaitF f => some (⟨0, false, 0x76, (0#2 ++ f), 0, 0, 1⟩, .short)
  | .gpwaitFT f a => some (⟨0, false, 0x76, (0#2 ++ f), a, 0, 3⟩, .short)
  | .dfree a => some (⟨0, false, 0x77, 0, a, 0, 0⟩, .short)
  | .nmcall sc ord entry f a => some (⟨1, false, 0x78, (0#2 ++ f), a, 0, 0⟩, .ext ({ sc := scopeCode sc, ord := orderCode ord }) (0#27 ++ entry))
  | .ixred ty sc ord a => some (⟨1, false, 0x79, 0, a, 0, 0⟩, .ext ({ ty := tyCode ty, sc := scopeCode sc, ord := orderCode ord }) (0))
  | .walk sc ord f a => some (⟨1, false, 0x7a, (0#2 ++ f), a, 0, 0⟩, .ext ({ sc := scopeCode sc, ord := orderCode ord }) (0))
  | .coll sc ord f a => some (⟨1, false, 0x7b, (0#2 ++ f), a, 0, 0⟩, .ext ({ sc := scopeCode sc, ord := orderCode ord }) (0))
  | .dpost round f a => some (⟨1, false, 0x7c, (0#2 ++ f), a, 0, 0⟩, .ext ({}) (round))
  | .xrun f a => some (⟨0, false, 0x7d, (0#2 ++ f), a, 0, 0⟩, .short)
  | .xcal f a => some (⟨0, false, 0x7e, (0#2 ++ f), a, 0, 0⟩, .short)
  | .vadd s d a b => some (⟨0, true, 0x00, d, a, b, (BitVec.ofBool s ++ 0#3)⟩, .short)
  | .vaddW1 g ty sat s d a b => some (⟨1, true, 0x00, d, a, b, (BitVec.ofBool s ++ 0#3)⟩, .ext ({ extGuard g with ty := tyCode ty, sat := sat }) (0))
  | .vaddLit d a lit => some (⟨2, true, 0x00, d, a, 0, 0⟩, .lit lit)
  | .vaddLitW1 g ty sat d a lit => some (⟨3, true, 0x00, d, a, 0, 0⟩, .extLit ({ extGuard g with ty := tyCode ty, sat := sat }) (0) lit)
  | .vaddImm d a i => some (⟨0, true, 0x18, d, a, (i.extractLsb' 0 6), (i.extractLsb' 6 4)⟩, .short)
  | .vsub s d a b => some (⟨0, true, 0x01, d, a, b, (BitVec.ofBool s ++ 0#3)⟩, .short)
  | .vsubW1 g ty sat s d a b => some (⟨1, true, 0x01, d, a, b, (BitVec.ofBool s ++ 0#3)⟩, .ext ({ extGuard g with ty := tyCode ty, sat := sat }) (0))
  | .vsubLit d a lit => some (⟨2, true, 0x01, d, a, 0, 0⟩, .lit lit)
  | .vsubLitW1 g ty sat d a lit => some (⟨3, true, 0x01, d, a, 0, 0⟩, .extLit ({ extGuard g with ty := tyCode ty, sat := sat }) (0) lit)
  | .vmul s d a b => some (⟨0, true, 0x02, d, a, b, (BitVec.ofBool s ++ 0#3)⟩, .short)
  | .vmulW1 g ty sat s d a b => some (⟨1, true, 0x02, d, a, b, (BitVec.ofBool s ++ 0#3)⟩, .ext ({ extGuard g with ty := tyCode ty, sat := sat }) (0))
  | .vmulLit d a lit => some (⟨2, true, 0x02, d, a, 0, 0⟩, .lit lit)
  | .vmulLitW1 g ty sat d a lit => some (⟨3, true, 0x02, d, a, 0, 0⟩, .extLit ({ extGuard g with ty := tyCode ty, sat := sat }) (0) lit)
  | .vmulh u s d a b => some (⟨0, true, 0x03, d, a, b, (BitVec.ofBool s ++ 0#2 ++ BitVec.ofBool u)⟩, .short)
  | .vmulhW1 g ty u s d a b => some (⟨1, true, 0x03, d, a, b, (BitVec.ofBool s ++ 0#2 ++ BitVec.ofBool u)⟩, .ext ({ extGuard g with ty := tyCode ty }) (0))
  | .vmad g ty sat s d a b c => some (⟨1, true, 0x04, d, a, b, (BitVec.ofBool s ++ 0#3)⟩, .ext ({ extGuard g with ty := tyCode ty, sat := sat, c := c }) (0))
  | .vaddc g ty s d a b c => some (⟨1, true, 0x05, d, a, b, (BitVec.ofBool s ++ 0#3)⟩, .ext ({ extGuard g with ty := tyCode ty, c := 0#3 ++ c }) (0))
  | .vand s d a b => some (⟨0, true, 0x06, d, a, b, (BitVec.ofBool s ++ 0#3)⟩, .short)
  | .vandW1 g ty s d a b => some (⟨1, true, 0x06, d, a, b, (BitVec.ofBool s ++ 0#3)⟩, .ext ({ extGuard g with ty := tyCode ty }) (0))
  | .vandLit d a lit => some (⟨2, true, 0x06, d, a, 0, 0⟩, .lit lit)
  | .vandLitW1 g ty d a lit => some (⟨3, true, 0x06, d, a, 0, 0⟩, .extLit ({ extGuard g with ty := tyCode ty }) (0) lit)
  | .vandImm d a i => some (⟨0, true, 0x19, d, a, (i.extractLsb' 0 6), (i.extractLsb' 6 4)⟩, .short)
  | .vor s d a b => some (⟨0, true, 0x07, d, a, b, (BitVec.ofBool s ++ 0#3)⟩, .short)
  | .vorW1 g ty s d a b => some (⟨1, true, 0x07, d, a, b, (BitVec.ofBool s ++ 0#3)⟩, .ext ({ extGuard g with ty := tyCode ty }) (0))
  | .vorLit d a lit => some (⟨2, true, 0x07, d, a, 0, 0⟩, .lit lit)
  | .vorLitW1 g ty d a lit => some (⟨3, true, 0x07, d, a, 0, 0⟩, .extLit ({ extGuard g with ty := tyCode ty }) (0) lit)
  | .vxor s d a b => some (⟨0, true, 0x08, d, a, b, (BitVec.ofBool s ++ 0#3)⟩, .short)
  | .vxorW1 g ty s d a b => some (⟨1, true, 0x08, d, a, b, (BitVec.ofBool s ++ 0#3)⟩, .ext ({ extGuard g with ty := tyCode ty }) (0))
  | .vxorLit d a lit => some (⟨2, true, 0x08, d, a, 0, 0⟩, .lit lit)
  | .vxorLitW1 g ty d a lit => some (⟨3, true, 0x08, d, a, 0, 0⟩, .extLit ({ extGuard g with ty := tyCode ty }) (0) lit)
  | .vshl s d a b => some (⟨0, true, 0x09, d, a, b, (BitVec.ofBool s ++ 0#3)⟩, .short)
  | .vshlW1 g ty s d a b => some (⟨1, true, 0x09, d, a, b, (BitVec.ofBool s ++ 0#3)⟩, .ext ({ extGuard g with ty := tyCode ty }) (0))
  | .vshlImm d a i => some (⟨0, true, 0x1a, d, a, ((0#5 ++ i).extractLsb' 0 6), ((0#5 ++ i).extractLsb' 6 4)⟩, .short)
  | .vshr s d a b => some (⟨0, true, 0x0a, d, a, b, (BitVec.ofBool s ++ 0#3)⟩, .short)
  | .vshrW1 g ty s d a b => some (⟨1, true, 0x0a, d, a, b, (BitVec.ofBool s ++ 0#3)⟩, .ext ({ extGuard g with ty := tyCode ty }) (0))
  | .vshrImm d a i => some (⟨0, true, 0x1b, d, a, ((0#5 ++ i).extractLsb' 0 6), ((0#5 ++ i).extractLsb' 6 4)⟩, .short)
  | .vsra s d a b => some (⟨0, true, 0x0b, d, a, b, (BitVec.ofBool s ++ 0#3)⟩, .short)
  | .vsraW1 g ty s d a b => some (⟨1, true, 0x0b, d, a, b, (BitVec.ofBool s ++ 0#3)⟩, .ext ({ extGuard g with ty := tyCode ty }) (0))
  | .vsraImm d a i => some (⟨0, true, 0x1c, d, a, ((0#5 ++ i).extractLsb' 0 6), ((0#5 ++ i).extractLsb' 6 4)⟩, .short)
  | .vmin u s d a b => some (⟨0, true, 0x0c, d, a, b, (BitVec.ofBool s ++ 0#2 ++ BitVec.ofBool u)⟩, .short)
  | .vminW1 g ty u s d a b => some (⟨1, true, 0x0c, d, a, b, (BitVec.ofBool s ++ 0#2 ++ BitVec.ofBool u)⟩, .ext ({ extGuard g with ty := tyCode ty }) (0))
  | .vminLit u d a lit => some (⟨2, true, 0x0c, d, a, 0, (0#3 ++ BitVec.ofBool u)⟩, .lit lit)
  | .vminLitW1 g ty u d a lit => some (⟨3, true, 0x0c, d, a, 0, (0#3 ++ BitVec.ofBool u)⟩, .extLit ({ extGuard g with ty := tyCode ty }) (0) lit)
  | .vmax u s d a b => some (⟨0, true, 0x0d, d, a, b, (BitVec.ofBool s ++ 0#2 ++ BitVec.ofBool u)⟩, .short)
  | .vmaxW1 g ty u s d a b => some (⟨1, true, 0x0d, d, a, b, (BitVec.ofBool s ++ 0#2 ++ BitVec.ofBool u)⟩, .ext ({ extGuard g with ty := tyCode ty }) (0))
  | .vmaxLit u d a lit => some (⟨2, true, 0x0d, d, a, 0, (0#3 ++ BitVec.ofBool u)⟩, .lit lit)
  | .vmaxLitW1 g ty u d a lit => some (⟨3, true, 0x0d, d, a, 0, (0#3 ++ BitVec.ofBool u)⟩, .extLit ({ extGuard g with ty := tyCode ty }) (0) lit)
  | .vpopc d a => some (⟨0, true, 0x0e, d, a, 0, 0⟩, .short)
  | .vpopcW1 g ty d a => some (⟨1, true, 0x0e, d, a, 0, 0⟩, .ext ({ extGuard g with ty := tyCode ty }) (0))
  | .vclz d a => some (⟨0, true, 0x0f, d, a, 0, 0⟩, .short)
  | .vclzW1 g ty d a => some (⟨1, true, 0x0f, d, a, 0, 0⟩, .ext ({ extGuard g with ty := tyCode ty }) (0))
  | .vbfe g ty s d a pos width => some (⟨1, true, 0x10, d, a, 0, (0#3 ++ BitVec.ofBool s)⟩, .ext ({ extGuard g with ty := tyCode ty }) (0#16 ++ width ++ pos))
  | .vbfi g ty d a pos width => some (⟨1, true, 0x11, d, a, 0, 0⟩, .ext ({ extGuard g with ty := tyCode ty }) (0#16 ++ width ++ pos))
  | .vsel g ty d a b c => some (⟨1, true, 0x12, d, a, b, 0⟩, .ext ({ extGuard g with ty := tyCode ty, c := 0#3 ++ c }) (0))
  | .vmov s d a => some (⟨0, true, 0x13, d, a, 0, (BitVec.ofBool s ++ 0#3)⟩, .short)
  | .vmovW1 g ty s d a => some (⟨1, true, 0x13, d, a, 0, (BitVec.ofBool s ++ 0#3)⟩, .ext ({ extGuard g with ty := tyCode ty }) (0))
  | .vmovLit d lit => some (⟨2, true, 0x13, d, 0, 0, 0⟩, .lit lit)
  | .vmovLitW1 g ty d lit => some (⟨3, true, 0x13, d, 0, 0, 0⟩, .extLit ({ extGuard g with ty := tyCode ty }) (0) lit)
  | .vcmp g ty cc s d a b => some (⟨1, true, 0x14, (0#3 ++ d), a, b, (BitVec.ofBool s ++ 0#3)⟩, .ext ({ extGuard g with ty := tyCode ty, xop := cmpCode cc }) (0))
  | .fadd s d a b => some (⟨0, true, 0x20, d, a, b, (BitVec.ofBool s ++ 0#3)⟩, .short)
  | .faddW1 g ty rnd s d a b => some (⟨1, true, 0x20, d, a, b, (BitVec.ofBool s ++ 0#3)⟩, .ext ({ extGuard g with ty := tyCode ty, rnd := rndCode rnd }) (0))
  | .fsub s d a b => some (⟨0, true, 0x21, d, a, b, (BitVec.ofBool s ++ 0#3)⟩, .short)
  | .fsubW1 g ty rnd s d a b => some (⟨1, true, 0x21, d, a, b, (BitVec.ofBool s ++ 0#3)⟩, .ext ({ extGuard g with ty := tyCode ty, rnd := rndCode rnd }) (0))
  | .fmul s d a b => some (⟨0, true, 0x22, d, a, b, (BitVec.ofBool s ++ 0#3)⟩, .short)
  | .fmulW1 g ty rnd s d a b => some (⟨1, true, 0x22, d, a, b, (BitVec.ofBool s ++ 0#3)⟩, .ext ({ extGuard g with ty := tyCode ty, rnd := rndCode rnd }) (0))
  | .ffma np na s d a b => some (⟨0, true, 0x23, d, a, b, (BitVec.ofBool s ++ 0#1 ++ BitVec.ofBool na ++ BitVec.ofBool np)⟩, .short)
  | .ffmaW1 g ty rnd np na s d a b c => some (⟨1, true, 0x23, d, a, b, (BitVec.ofBool s ++ 0#1 ++ BitVec.ofBool na ++ BitVec.ofBool np)⟩, .ext ({ extGuard g with ty := tyCode ty, rnd := rndCode rnd, c := c }) (0))
  | .fmin num d a b => some (⟨0, true, 0x24, d, a, b, (0#3 ++ BitVec.ofBool num)⟩, .short)
  | .fminW1 g ty num d a b => some (⟨1, true, 0x24, d, a, b, (0#3 ++ BitVec.ofBool num)⟩, .ext ({ extGuard g with ty := tyCode ty }) (0))
  | .fmax num d a b => some (⟨0, true, 0x25, d, a, b, (0#3 ++ BitVec.ofBool num)⟩, .short)
  | .fmaxW1 g ty num d a b => some (⟨1, true, 0x25, d, a, b, (0#3 ++ BitVec.ofBool num)⟩, .ext ({ extGuard g with ty := tyCode ty }) (0))
  | .fcmp g ty cc s d a b => some (⟨1, true, 0x26, (0#3 ++ d), a, b, (BitVec.ofBool s ++ 0#3)⟩, .ext ({ extGuard g with ty := tyCode ty, xop := fcmpCode cc }) (0))
  | .fclass d a => some (⟨0, true, 0x27, d, a, 0, 0⟩, .short)
  | .fclassW1 g ty d a => some (⟨1, true, 0x27, d, a, 0, 0⟩, .ext ({ extGuard g with ty := tyCode ty }) (0))
  | .frnd g ty rnd d a => some (⟨1, true, 0x28, d, a, 0, 0⟩, .ext ({ extGuard g with ty := tyCode ty, rnd := rndCode rnd }) (0))
  | .cvt g ty rnd sat src d a => some (⟨1, true, 0x29, d, a, (0#1 ++ tyCode src), 0⟩, .ext ({ extGuard g with ty := tyCode ty, rnd := rndCode rnd, sat := sat }) (0))
  | .pkadd d a b => some (⟨0, true, 0x2a, d, a, b, 0⟩, .short)
  | .pkaddW1 g ty rnd d a b => some (⟨1, true, 0x2a, d, a, b, 0⟩, .ext ({ extGuard g with ty := tyCode ty, rnd := rndCode rnd }) (0))
  | .pkmul d a b => some (⟨0, true, 0x2b, d, a, b, 0⟩, .short)
  | .pkmulW1 g ty rnd d a b => some (⟨1, true, 0x2b, d, a, b, 0⟩, .ext ({ extGuard g with ty := tyCode ty, rnd := rndCode rnd }) (0))
  | .pkfma d a b => some (⟨0, true, 0x2c, d, a, b, 0⟩, .short)
  | .pkfmaW1 g ty rnd d a b c => some (⟨1, true, 0x2c, d, a, b, 0⟩, .ext ({ extGuard g with ty := tyCode ty, rnd := rndCode rnd, c := c }) (0))
  | .xrcp d a => some (⟨0, true, 0x40, d, a, 0, 0⟩, .short)
  | .xrcpW1 g d a => some (⟨1, true, 0x40, d, a, 0, 0⟩, .ext ({ extGuard g with ty := 9 }) (0))
  | .xrsq d a => some (⟨0, true, 0x41, d, a, 0, 0⟩, .short)
  | .xrsqW1 g d a => some (⟨1, true, 0x41, d, a, 0, 0⟩, .ext ({ extGuard g with ty := 9 }) (0))
  | .xsqrt d a => some (⟨0, true, 0x42, d, a, 0, 0⟩, .short)
  | .xsqrtW1 g d a => some (⟨1, true, 0x42, d, a, 0, 0⟩, .ext ({ extGuard g with ty := 9 }) (0))
  | .xexp2 d a => some (⟨0, true, 0x43, d, a, 0, 0⟩, .short)
  | .xexp2W1 g d a => some (⟨1, true, 0x43, d, a, 0, 0⟩, .ext ({ extGuard g with ty := 9 }) (0))
  | .xlog2 d a => some (⟨0, true, 0x44, d, a, 0, 0⟩, .short)
  | .xlog2W1 g d a => some (⟨1, true, 0x44, d, a, 0, 0⟩, .ext ({ extGuard g with ty := 9 }) (0))
  | .xsin d a => some (⟨0, true, 0x45, d, a, 0, 0⟩, .short)
  | .xsinW1 g d a => some (⟨1, true, 0x45, d, a, 0, 0⟩, .ext ({ extGuard g with ty := 9 }) (0))
  | .xcos d a => some (⟨0, true, 0x46, d, a, 0, 0⟩, .short)
  | .xcosW1 g d a => some (⟨1, true, 0x46, d, a, 0, 0⟩, .ext ({ extGuard g with ty := 9 }) (0))
  | .xtanh d a => some (⟨0, true, 0x47, d, a, 0, 0⟩, .short)
  | .xtanhW1 g d a => some (⟨1, true, 0x47, d, a, 0, 0⟩, .ext ({ extGuard g with ty := 9 }) (0))
  | .rngseed a b => some (⟨0, true, 0x48, 0, a, b, 0⟩, .short)
  | .rng unit d => some (⟨0, true, 0x49, d, 0, 0, (0#3 ++ BitVec.ofBool unit)⟩, .short)
  | .rngW1 g unit d => some (⟨1, true, 0x49, d, 0, 0, (0#3 ++ BitVec.ofBool unit)⟩, .ext (extGuard g) (0))
  | .rngskip a => some (⟨0, true, 0x4a, 0, a, 0, 0⟩, .short)
  | .vshfl m d a b => some (⟨0, true, 0x50, d, a, b, (0#2 ++ m)⟩, .short)
  | .vshflW1 g ty m d a b => some (⟨1, true, 0x50, d, a, b, (0#2 ++ m)⟩, .ext ({ extGuard g with ty := tyCode ty }) (0))
  | .vrot d a b => some (⟨0, true, 0x51, d, a, b, 0⟩, .short)
  | .vrotW1 g ty d a b => some (⟨1, true, 0x51, d, a, b, 0⟩, .ext ({ extGuard g with ty := tyCode ty }) (0))
  | .vbcast d a b => some (⟨0, true, 0x52, d, a, b, 0⟩, .short)
  | .vbcastW1 g ty d a b => some (⟨1, true, 0x52, d, a, b, 0⟩, .ext ({ extGuard g with ty := tyCode ty }) (0))
  | .vballot d a => some (⟨0, true, 0x53, d, (0#3 ++ a), 0, 0⟩, .short)
  | .vballotW1 g d a => some (⟨1, true, 0x53, d, (0#3 ++ a), 0, 0⟩, .ext (extGuard g) (0))
  | .vradd d a => some (⟨0, true, 0x54, d, a, 0, 0⟩, .short)
  | .vraddW1 g ty d a => some (⟨1, true, 0x54, d, a, 0, 0⟩, .ext ({ extGuard g with ty := tyCode ty }) (0))
  | .vrmin u d a => some (⟨0, true, 0x55, d, a, 0, (0#3 ++ BitVec.ofBool u)⟩, .short)
  | .vrminW1 g ty u d a => some (⟨1, true, 0x55, d, a, 0, (0#3 ++ BitVec.ofBool u)⟩, .ext ({ extGuard g with ty := tyCode ty }) (0))
  | .vrmax u d a => some (⟨0, true, 0x56, d, a, 0, (0#3 ++ BitVec.ofBool u)⟩, .short)
  | .vrmaxW1 g ty u d a => some (⟨1, true, 0x56, d, a, 0, (0#3 ++ BitVec.ofBool u)⟩, .ext ({ extGuard g with ty := tyCode ty }) (0))
  | .vscan g ty op excl d a => some (⟨1, true, 0x57, d, a, 0, (0#3 ++ BitVec.ofBool excl)⟩, .ext ({ extGuard g with ty := tyCode ty, xop := scanCode op }) (0))
  | .vdot4 ua ub d a b => some (⟨0, true, 0x58, d, a, b, (0#2 ++ BitVec.ofBool ub ++ BitVec.ofBool ua)⟩, .short)
  | .vdot4W1 g sat ua ub d a b c => some (⟨1, true, 0x58, d, a, b, (0#2 ++ BitVec.ofBool ub ++ BitVec.ofBool ua)⟩, .ext ({ extGuard g with sat := sat, c := c }) (0))
  | .vdot2h d a b => some (⟨0, true, 0x59, d, a, b, 0⟩, .short)
  | .vdot2hW1 g ty d a b c => some (⟨1, true, 0x59, d, a, b, 0⟩, .ext ({ extGuard g with ty := tyCode ty, c := c }) (0))
  | .ld m d => some (⟨0, true, 0x60, d, m.a, (idxB m.idx), (idxM m.idx)⟩, .short)
  | .ldW1 g ty sc ord cp m off d => some (⟨1, true, 0x60, d, m.a, (idxB m.idx), (idxM m.idx)⟩, .ext ({ extGuard g with ty := tyCode ty, sc := scopeCode sc, ord := orderCode ord, cp := cpCode cp }) (off))
  | .st m d => some (⟨0, true, 0x61, d, m.a, (idxB m.idx), (idxM m.idx)⟩, .short)
  | .stW1 g ty sc ord cp m off d => some (⟨1, true, 0x61, d, m.a, (idxB m.idx), (idxM m.idx)⟩, .ext ({ extGuard g with ty := tyCode ty, sc := scopeCode sc, ord := orderCode ord, cp := cpCode cp }) (off))
  | .ldg m d => some (⟨0, true, 0x62, d, m.a, (idxB m.idx), (idxM m.idx)⟩, .short)
  | .ldgW1 g ty sc ord cp m off d => some (⟨1, true, 0x62, d, m.a, (idxB m.idx), (idxM m.idx)⟩, .ext ({ extGuard g with ty := tyCode ty, sc := scopeCode sc, ord := orderCode ord, cp := cpCode cp }) (off))
  | .stg m d => some (⟨0, true, 0x63, d, m.a, (idxB m.idx), (idxM m.idx)⟩, .short)
  | .stgW1 g ty sc ord cp m off d => some (⟨1, true, 0x63, d, m.a, (idxB m.idx), (idxM m.idx)⟩, .ext ({ extGuard g with ty := tyCode ty, sc := scopeCode sc, ord := orderCode ord, cp := cpCode cp }) (off))
  | .ldp x d => some (⟨0, true, 0x64, d, 0, (idxB x), (idxM x)⟩, .short)
  | .ldpW1 g ty x off d => some (⟨1, true, 0x64, d, 0, (idxB x), (idxM x)⟩, .ext ({ extGuard g with ty := tyCode ty }) (off))
  | .stp x d => some (⟨0, true, 0x65, d, 0, (idxB x), (idxM x)⟩, .short)
  | .stpW1 g ty x off d => some (⟨1, true, 0x65, d, 0, (idxB x), (idxM x)⟩, .ext ({ extGuard g with ty := tyCode ty }) (off))
  | .atom g ty sc ord cp op m off d c => some (⟨1, true, 0x66, d, m.a, (idxB m.idx), (idxM m.idx)⟩, .ext ({ extGuard g with ty := tyCode ty, sc := scopeCode sc, ord := orderCode ord, cp := cpCode cp, xop := atomCode op, c := c }) (off))
  | .atomg g ty sc ord op m off d c => some (⟨1, true, 0x67, d, m.a, (idxB m.idx), (idxM m.idx)⟩, .ext ({ extGuard g with ty := tyCode ty, sc := scopeCode sc, ord := orderCode ord, xop := atomCode op, c := c }) (off))
  | .red g ty sc ord cp op m off d => some (⟨1, true, 0x68, d, m.a, (idxB m.idx), (idxM m.idx)⟩, .ext ({ extGuard g with ty := tyCode ty, sc := scopeCode sc, ord := orderCode ord, cp := cpCode cp, xop := atomCode op }) (off))
  | .pref m => some (⟨0, true, 0x69, 0, m.a, (idxB m.idx), (idxM m.idx)⟩, .short)
  | .prefW1 g cp m off => some (⟨1, true, 0x69, 0, m.a, (idxB m.idx), (idxM m.idx)⟩, .ext ({ extGuard g with cp := cpCode cp }) (off))
  | .fence sc ord => some (⟨1, true, 0x6a, 0, 0, 0, 0⟩, .ext ({ sc := scopeCode sc, ord := orderCode ord }) (0))
  | .cctl op m off => some (⟨1, true, 0x6b, 0, m.a, (idxB m.idx), (idxM m.idx)⟩, .ext ({ xop := 0#2 ++ op }) (off))
  | .remld g ty sc ord off d a b => some (⟨1, true, 0x70, d, a, b, 0⟩, .ext ({ extGuard g with ty := tyCode ty, sc := scopeCode sc, ord := orderCode ord }) (off))
  | .remst g ty sc ord off d a b => some (⟨1, true, 0x71, d, a, b, 0⟩, .ext ({ extGuard g with ty := tyCode ty, sc := scopeCode sc, ord := orderCode ord }) (off))
  | .rematom g ty sc ord op off d a b c => some (⟨1, true, 0x72, d, a, b, 0⟩, .ext ({ extGuard g with ty := tyCode ty, sc := scopeCode sc, ord := orderCode ord, xop := atomCode op, c := c }) (off))
  | .rred g ty op f a b => some (⟨1, true, 0x73, (0#2 ++ f), a, b, 0⟩, .ext ({ extGuard g with ty := tyCode ty, xop := atomCode op }) (0))
  | .gred g ty op d a => some (⟨1, true, 0x74, d, a, 0, 0⟩, .ext ({ extGuard g with ty := tyCode ty, xop := atomCode op }) (0))
  | .bundleDecode => none
  | .instructionCacheMiss => none
  | .multicastFill _ => none
  | .joinArrival => none
  | .loadResultReturn _ _ _ => none
  | .storePerformed _ => none
  | .sfuResult _ => none
  | .translationWalkDone _ => none
  | .stage2FaultToRoot _ => none
  | .trapEntry => none
  | .sleepDeadline => none
  | .waitaReread => none
  | .waitaPollTimeout => none
  | .bankSwitch _ _ => none
  | .gangAdmit _ => none
  | .gangRetire _ => none
  | .ldstatLoadEnd _ => none
  | .swapEffect _ => none
  | .matrixPassGrant _ => none
  | .matrixEntryApplied _ => none
  | .tileStoreServe _ => none
  | .barrierTimeout _ _ => none
  | .gatherService _ => none
  | .gatherComplete _ => none
  | .recordFill _ => none
  | .tcopyComplete _ _ => none
  | .putArrival _ => none
  | .putComplete _ => none
  | .l2Eviction _ => none
  | .writebackAck _ => none
  | .fenceReleaseDone => none
  | .entryStart _ => none
  | .waitConditionPoll _ => none
  | .launchComplete _ => none
  | .stealRequest _ _ _ => none
  | .sliceEnd _ => none
  | .contextLoad _ => none
  | .gangSave _ => none
  | .gangResume _ => none
  | .savedResolutionApply _ => none
  | .syncEngineTakeover => none
  | .gracePeriodEnd _ => none
  | .gpwaitDeadline _ => none
  | .batchClose _ => none
  | .batchPush _ => none
  | .regulatorTakeover => none
  | .nmuStep _ => none
  | .nmcallComplete _ => none
  | .nmuWatchdog _ => none
  | .ixredComplete _ => none
  | .gredShareReturn _ => none
  | .walkHop _ _ => none
  | .collLine _ => none
  | .sequencerWatchdog _ => none
  | .refreshPause _ => none
  | .rateLimitedInject _ => none
  | .powerStateNotice _ _ _ => none
  | .dieFailure _ => none
  | .rootTakeover _ => none
  | .getVersion _ _ => none
  | .getCapabilities _ _ => none
  | .negotiateAlgorithms _ _ => none
  | .getDigests _ _ => none
  | .getCertificate _ _ => none
  | .challenge _ _ => none
  | .getMeasurements _ _ => none
  | .keyExchange _ _ => none
  | .finish _ _ => none
  | .endSession _ _ => none
  | .keySet _ _ _ => none
  | .policySet _ _ _ => none
  | .vfQuery _ _ => none
  | .alloc _ _ _ _ _ _ => none
  | .hwin _ _ _ _ _ _ => none
  | .free _ _ _ => none
  | .map _ _ _ _ _ _ _ _ => none
  | .unmap _ _ _ _ _ _ => none
  | .qcreate _ _ _ _ _ _ _ _ _ _ => none
  | .qdestroy _ _ _ _ => none
  | .pause _ _ _ _ => none
  | .unpause _ _ _ _ => none
  | .evict _ _ _ _ => none
  | .resize _ _ _ _ _ => none
  | .partition _ _ _ _ _ => none
  | .reset _ _ _ _ => none
  | .setltol _ _ _ _ => none
  | .dumpget _ _ _ _ => none
  | .savearea _ _ _ _ _ => none
  | .doorbell _ _ _ => none
  | .qstatWrite _ _ _ => none
  | .loadRecord _ _ _ => none
  | .lstatRead _ => none
  | .registerWrite _ _ _ _ => none
  | .powerStateChange _ => none
  | .powerExitComplete _ => none
  | .powerGood => none
  | .calibrationEnd _ => none
  | .fatalError _ => none
  | .clockSync _ _ => none
  | .remoteTlbFill _ _ => none
  | .remoteTlbTimeout _ => none
  | .remoteAccessArrival _ => none
  | .rredContribution _ => none
  | .rredTimeout _ => none
  | .weaverRowArrival _ _ => none
  | .weaverCollectTimeout _ => none
  | .weaverTakeover => none
  | .calendarArrival _ => none
  | .weaverQuery _ _ => none
  | .xchSlotStart _ _ => none
  | .xchOverflowStart _ => none
  | .xchDataArrival _ => none
  | .xrunTimeout _ => none
  | .cancelAcknowledge _ => none
  | .heartbeat _ _ _ => none
  | .packageReset => none
  | .packageLost _ => none
  | .externalPortChange _ _ => none
  | .throttling _ _ => none
  | .dpostAcknowledgeTimeout _ => none
  | .xchSlotEnd _ _ => none
  | .refreshComplete _ => none

/-- The words after the base word, in order (R11). -/
def formWords : Form → List W32
  | .short => []
  | .ext w w2 => [packExt w, w2]
  | .lit l => [l.extractLsb' 0 32, l.extractLsb' 32 32]
  | .extLit w w2 l => [packExt w, w2, l.extractLsb' 0 32, l.extractLsb' 32 32]

/-- The words of an instruction (R8, R11, R13); an event has none. -/
def encode (i : Instr) : List W32 :=
  match encodeFields i with
  | some (b, f) => packBase b :: formWords f
  | none => []

end Sys2Proof
end

