-- ==== Sys2Proof/Machine/State.lean ====
section
/-! DEFINITION. The state of one package: everything the spec gives the machine, as plain data, and the state right after
reset. Lists whose items do not exist yet are empty at reset. -/
namespace Sys2Proof.Machine

/-- Memory: address and byte, addresses strictly rising, no entry equal to what an unlisted address reads as (0). -/
abbrev Mem := List Host.Cell

/-- The two path slots of a group (R69). -/
inductive SlotId where
  | a | b
  deriving DecidableEq, Repr

/-- Owner of a gang-memory or scratchpad tile (R247, R296): THREAD, ENGINE by an operation, ENGINE by a software hold. -/
inductive Owner where
  | thread
  | engine (op : Nat)
  | software
  deriving DecidableEq, Repr

/-- Which wait counter an outstanding result counts on (R168). -/
inductive Counter where
  | ld | st | sm | tl | sfu | none
  deriving DecidableEq, Repr

/-- The slots in which an outstanding result counts (R76): the two live slots and, in trap mode, the two interrupted ones. -/
structure Tags where
  a : Bool := false
  b : Bool := false
  ia : Bool := false
  ib : Bool := false
  deriving DecidableEq, Repr

/-- A path waiting on a word (R187): the operands as read at issue. -/
structure Waiting where
  ea : W64
  v : W64
  cc : Cmp
  sc : Scope
  acq : Bool
  d : SReg
  len : Nat
  since : Nat
  /-- a WAKE has named the word since the last read (R188) -/
  due : Bool
  /-- whether its page is of kind HOST (R189), and its physical address, as it was last read -/
  host : Bool := false
  pa : Option Nat := none
  /-- a translation miss of a re-read is open (R173): the operands stay as read at issue -/
  miss : Bool := false
  deriving DecidableEq, Repr

/-- Why a path is parked (R210). -/
inductive Park where
  | none
  /-- after a bundle with SWITCH (R26) -/
  | switch
  /-- at its pending join (R78) -/
  | join
  /-- WAITC, RDTIME, RETT, TGET or RSCLOSE waiting for counters (R130, R132, R197, R339) -/
  | drain
  | sleep (d : SReg) (deadline : Nat)
  | waita (w : Waiting)
  /-- an open translation miss (R173) or remote TLB miss (R419) -/
  | miss
  /-- an instruction-cache miss (R35) -/
  | fetch
  /-- FWAIT on a future and the operation it holds (R217) -/
  | future (f : FReg) (op : Nat)
  /-- FWAIT on a future that has become idle meanwhile: it raises FUTURE_INVALID (R217) -/
  | gone (f : FReg)
  | cancel (f : FReg) (op : Nat)
  /-- a full counter, a full table or queue, a register with an outstanding result (R130, R159, R174, R228) -/
  | room
  /-- DFREE whose checks have passed waits for room with the entry read at issue (R343): node, size class, head, words -/
  | dfree (node : W64) (class' : Nat) (head : W64)
  /-- the release part of a fence (R185) -/
  | release (sc : Scope)
  /-- an acquire waiting for its own load (R176); whether a SWITCH park follows (R26) -/
  | acquire (sc : Scope) (switch : Bool)
  /-- BWAIT, or BSYNC after its arrival (R253) -/
  | barrier (set : Nat) (phase : Bool)
  /-- BWAIT or BSYNC whose phase has ended: it completes (R253) -/
  | released
  /-- BARV, BSYNC or SETLEAVE of a group that has already arrived (R253) -/
  | arrived (set : Nat) (phase : Bool)
  | gpwait (d : SReg) (id : Nat)
  /-- GPWAIT whose grace period has ended or run out of time: it completes with a status (R341) -/
  | gpdone (d : SReg) (status : W32)
  deriving DecidableEq, Repr

/-- Kinds of a coil entry (R83). -/
inductive CoilKind where
  | merge | resume | resumeCall
  deriving DecidableEq, Repr

/-- A coil entry, the device's own copy (R83, R85). -/
structure CoilEntry where
  pc : W64
  join : W64
  mask : LaneMask
  kind : CoilKind
  depth : Nat
  sp : W64
  deriving DecidableEq, Repr

/-- A caller's frame (R89 to R91): its size, base, return address of its callee, first position, whether it is resident;
`rows` is what the device spilled of it (register rows, then the two rows of its own link record, which a root frame has not);
`link` is its callee's link record as filled again, empty while the device's own copy stands. -/
structure Frame where
  fsize : Nat
  fb : W64
  ret : W64
  wbase : Nat
  resident : Bool
  rows : List (Vector W32 32)
  link : List (Vector W32 32) := []
  deriving DecidableEq, Repr

/-- A bundle as fetched: its 16 words (R21, R33). -/
structure Bundle where
  addr : W64
  words : List W32
  deriving DecidableEq, Repr

/-- A data error that a drained load left (R193): data address, instruction address, lane. -/
structure DataErr where
  ea : W64
  epc : W64
  lane : Nat
  /-- the code raised at the boundary: DATA_ERROR, or NMU_WATCHDOG for a GRED (R372) -/
  code : Nat := 0x10
  deriving DecidableEq, Repr

/-- Why a walk ended without a mapping (R281, R442): a fault, a permission fault of a table read, an uncorrectable entry. -/
inductive WalkFault where
  | unmapped | permission | dataError
  deriving DecidableEq, Repr

/-- A path slot (R69, R193). The wait counters are a view of what is outstanding (see `Ops`). -/
structure Slot where
  occ : Bool := false
  pcb : W64 := 0
  idx : Nat := 1
  ibuf : Option Bundle := none
  mask : LaneMask := 0
  pj : Option W64 := none
  view : BitVec 16 := 0
  depth : Nat := 0
  fsize : Nat := 8
  fb : W64 := 0
  sp : W64 := 0
  wbase : Nat := 0
  frames : List Frame := []
  coil : List CoilEntry := []
  park : Park := .none
  derr : Option DataErr := none
  /-- the age stamp, and since when it has been eligible without issue (R210 to R212) -/
  age : Nat := 0
  since : Option Nat := none
  yielded : Bool := false
  /-- pages of 64 KiB whose walks for its instruction have failed (R173, R280) -/
  failed : List (Nat × WalkFault) := []
  /-- remote pages whose fills for its instruction have failed: peer, page, whether the peer is reached (R419) -/
  farFailed : List (Nat × Nat × Bool) := []
  /-- asleep, resumed by RETT at another place than its SLEEP (R197) -/
  moved : Bool := false
  /-- what the device spilled of the current frame of an interrupted slot (R196) -/
  cur : Option (List (Vector W32 32)) := none
  deriving DecidableEq, Repr

/-- The slot-level join (R69, R76). -/
structure SlotJoin where
  addr : W64
  depth : Nat
  sp : W64
  deriving DecidableEq, Repr

/-- States of a future (R213). -/
inductive FutState where
  | idle | pending | resolved
  deriving DecidableEq, Repr

/-- A future: state, status word, the operation issued into it (its issue number, R336). -/
structure Future where
  state : FutState := .idle
  status : W32 := 0
  op : Nat := 0
  deriving DecidableEq, Repr

/-- A piece of memory that one lane's access covers: physical address, bytes, kind, whether its data are of the host aperture. -/
structure Piece where
  pa : Nat
  n : Nat
  kind : Kind
  deriving DecidableEq, Repr

/-- One lane of an access: its effective address, pieces in order of rising register bytes, a bit offset for sub-byte
elements (R171), its operand and compare value as read at issue. -/
structure LaneAcc where
  lane : Nat
  ea : W64
  pieces : List Piece
  bit : Nat := 0
  data : BitVec 128 := 0
  cmp : BitVec 128 := 0
  peer : Nat := 0
  deriving DecidableEq, Repr

/-- A result that will be written to lane registers (R174). -/
inductive OutKind where
  | load (ty : Ty) (sc : Scope) (cp : Cp) (acq : Bool)
  | loadLocal (ty : Ty)
  | atomic (op : AtomOp) (ty : Ty) (sc : Scope) (cp : Cp) (acq : Bool)
  | atomicLocal (op : AtomOp) (ty : Ty)
  | remote (ty : Ty) (acq : Bool) (op : Option AtomOp)
  /-- GRED, by its engine operation (R372) -/
  | gred (op : Nat)
  /-- an SFU result: function, inputs lane by lane (R159) -/
  | sfu (fn : Nat) (inputs : List W32)
  deriving DecidableEq, Repr

/-- An outstanding result: the slots it counts in, its counter, first register position and count, its lanes. -/
structure Outst where
  id : Nat
  tags : Tags
  cnt : Counter
  pos : Nat
  regs : Nat
  pc : W64
  pend : LaneMask
  full : LaneMask
  lanes : List LaneAcc
  kind : OutKind
  err : Option DataErr := none
  deriving DecidableEq, Repr

/-- What an instruction raises: code, address and aux words, lane, reason or kind, operand (R193, R194). -/
structure Cause where
  code : Nat
  addr : W64 := 0
  aux0 : W64 := 0
  aux1 : W64 := 0
  lane : Option Nat := none
  reason : Nat := 0
  n : Nat := 0
  deriving DecidableEq, Repr

/-- What a trap saved (R191, R196). -/
structure TrapCtx where
  fa : W64
  slotA : Slot
  slotB : Slot
  sjoin : Option SlotJoin
  sl : W64
  deriving DecidableEq, Repr

/-- A group (R69, R70, R86, R203). `live = 0` is a group that has ended, or none. -/
structure Group where
  key : Nat := 0
  live : LaneMask := 0
  slotA : Slot := {}
  slotB : Slot := {}
  sjoin : Option SlotJoin := none
  s : Vector W64 64 := Vector.replicate 64 0
  p : Vector LaneMask 8 := Vector.replicate 8 0
  f : Vector Future 16 := Vector.replicate 16 {}
  vrf : List (Vector W32 32) := List.replicate 8 (Vector.replicate 32 0)
  sl : W64 := 0
  tfp : W64 := 0
  dtb : W64 := 0
  dtl : W64 := 0
  rngk : W64 := 0
  rngc : W64 := 0
  fmode : W64 := 0
  rsd : BitVec 4 := 0
  gid : Nat := 0
  role : Nat := 0
  gang : Nat := 0
  die : Nat := 0
  cluster : Nat := 0
  core : Nat := 0
  cslot : Nat := 0
  part : Nat := 0
  vf : Nat := 0
  bank : Nat := 0
  level : Nat := 0
  priv : W64 := 0
  psize : Nat := 0
  f0 : Nat := 8
  wcap : Nat := 0
  outst : List Outst := []
  /-- what scalar registers held before the write of a slot, while the other slot's path has not joined it (R74) -/
  olds : List (SlotId × Nat × W64) := []
  /-- a code raised by a slot whose trap waits for the drain of R191 -/
  raised : Option (SlotId × Cause) := none
  trap : Option TrapCtx := none
  deriving DecidableEq, Repr

/-- A set-table entry (R251) and the watchdog's measure (R256): VALID is that the gang holds it. -/
structure SetEntry where
  phase : Bool := false
  member : BitVec 256 := 0
  arrv : BitVec 256 := 0
  exited : BitVec 256 := 0
  left : BitVec 256 := 0
  since : Option Nat := none
  deriving DecidableEq, Repr

/-- An entry of a future export table (R215, R216). -/
structure ExpoEntry where
  core : Nat
  entry : Nat
  gen : Nat
  live : Bool
  fut : Future
  deriving DecidableEq, Repr

/-- A role of a launch header (R321). -/
structure Role where
  entry : W64
  f0 : Nat
  w : Nat
  g : Nat
  deriving DecidableEq, Repr

/-- A launch header's fields (R321). -/
structure Header where
  trap : W64
  dtb : W64
  dtl : Nat
  wdog : Nat
  cores : Nat
  shared : Nat
  tiles : Nat
  scratch : Nat
  roles : List Role
  sets : List (BitVec 256)
  code : W64
  deriving DecidableEq, Repr

/-- A gang and what it holds of its cluster and die (R206, R238, R244, R274). Local memories are keyed by local address;
owner bits list the tiles that are not THREAD. -/
structure Gang where
  key : Nat := 0
  launch : Nat := 0
  index : Nat := 0
  vf : Nat := 0
  part : Nat := 0
  bank : Nat := 0
  die : Nat := 0
  cluster : Nat := 0
  core0 : Nat := 0
  cores : Nat := 1
  tag : Nat := 0
  level : Nat := 0
  roles : List Role := []
  trapEntry : W64 := 0
  wdog : Nat := 0
  dtb : W64 := 0
  dtl : Nat := 0
  codeBase : W64 := 0
  privBase : W64 := 0
  privSize : Nat := 0
  tfb : W64 := 0
  seed : W64 := 0
  shared : Nat := 0
  scratch : Nat := 0
  quota : Nat := 0
  gm : Mem := []
  sp : Mem := []
  /-- sectors of local memory, by local address / 32, whose data are uncorrectable -/
  bad : List Nat := []
  gmOwn : List (Nat × Owner) := []
  spOwn : List (Nat × Owner) := []
  alloc : List Bool := []
  tiles : List (Nat × W32) := []
  sets : List SetEntry := []
  expo : List ExpoEntry := []
  physTiles : List Nat := []
  physGm : List Nat := []
  physSp : List Nat := []
  physSets : List Nat := []
  groups : List Nat := []
  deriving DecidableEq, Repr

/-- A plane (R221): the type it has taken, its source bytes once loaded, poisoned mark, whether its LDSTAT was cancelled. -/
structure Plane where
  ty : Option Ty := none
  bytes : List Byte := []
  loaded : Bool := false
  poisoned : Bool := false
  cancelled : Bool := false
  gen : Nat := 0
  deriving DecidableEq, Repr

/-- A quadrant's plane pair in a bank, bound to a gang (R221, R222). -/
structure PlanePair where
  die : Nat
  cluster : Nat
  bank : Nat
  quad : Nat
  gang : Nat
  active : Plane
  shadow : Plane
  deriving DecidableEq, Repr

/-- What a reservation-table entry does (R228). Planes are named by their generation. -/
inductive TabKind where
  | ldstat (q : Nat) (ty : Ty) (src : Nat) (op : Nat) (gen : Nat)
  | swap (q : Nat)
  | mmq (block : Bool) (ty : Ty) (fus : Nat) (quads : List Nat) (gens : List Nat) (rows : List Nat) (tiles : List Nat)
      (sigma : Option W32) (a : List (List W32))
  | tld (col : Nat) (tile : Nat) (lanes : LaneMask) (pos : Nat) (pc : W64)
  | tst (col : Nat) (tile : Nat) (lanes : LaneMask) (vals : List (List W32))
  | tzero (tile : Nat)
  deriving DecidableEq, Repr

/-- A reservation-table entry: `granted` once the arbiter has placed it in a pass (R229, R230). -/
structure TabEntry where
  id : Nat
  die : Nat
  cluster : Nat
  bank : Nat
  gang : Nat
  group : Nat
  tags : Tags
  level : Nat
  granted : Bool
  kind : TabKind
  /-- the cycles in which it could have been granted (R229) -/
  elig : Nat := 0
  deriving DecidableEq, Repr

/-- A store, reduction or cache operation that has issued and is not complete at every level it names (R174, R300). -/
inductive StoreKind where
  | store (sc : Scope) (cp : Cp) (lanes : List LaneAcc) (ty : Ty)
  | red (op : AtomOp) (ty : Ty) (sc : Scope) (cp : Cp) (lanes : List LaneAcc)
  | tile (gang : Nat) (ty : Ty) (lanes : List LaneAcc)
  | cctl (op : Nat) (lines : List Nat)
  | remote (ty : Ty) (lanes : List LaneAcc)
  deriving DecidableEq, Repr

structure StoreOp where
  group : Nat
  tags : Tags
  cnt : Counter
  counted : Bool
  part : Nat
  vf : Nat
  die : Nat
  cluster : Nat
  core : Nat
  kind : StoreKind
  lost : Option Nat := none
  deriving DecidableEq, Repr

/-- A 32-byte sector of L1 (R177): whole and valid; `first` marks a line that .strm made the first to evict (R17). -/
structure L1Sector where
  die : Nat
  cluster : Nat
  core : Nat
  vf : Nat
  sec : Nat
  bytes : List Byte
  first : Bool := false
  deriving DecidableEq, Repr

/-- A 32-byte sector of L2 (R177, R270, R271): valid and dirty byte masks, line tag, replacement rank, error mark. -/
structure L2Sector where
  die : Nat
  part : Nat
  vf : Nat
  sec : Nat
  bytes : List Byte
  valid : LaneMask
  dirty : LaneMask
  rank : Nat
  bad : Bool
  deriving DecidableEq, Repr

/-- A sector in a slice's write-back buffer (R359): the bytes of `mask` are still to be written; `whole` marks one that left L2
wholly dirty. -/
structure WbEntry where
  die : Nat
  part : Nat
  vf : Nat
  sec : Nat
  bytes : List Byte
  mask : LaneMask
  whole : Bool := false
  deriving DecidableEq, Repr

/-- An instruction-cache line (R32, R35), tagged with its core and kernel code key; `bad` lists its bundles with uncorrectable
data (R34), `fault` the reason of a fault that fetching it ahead met (R32). -/
structure ILine where
  die : Nat
  cluster : Nat
  core : Nat
  part : Nat
  vf : Nat
  codeBase : W64
  line : Nat
  bytes : List Byte
  bad : List Nat
  fault : Option Nat := none
  deriving DecidableEq, Repr

/-- An open entry of the die fetch agent (R35): key, line, requesting cores. -/
structure FetchEntry where
  die : Nat
  part : Nat
  vf : Nat
  codeBase : W64
  line : Nat
  pa : Nat
  kind : Kind
  cores : List (Nat × Nat)
  deriving DecidableEq, Repr

/-- A combined mapping in a TLB (R279, R280): virtual page of 64 KiB units, physical page, size in pages, permissions, kind. -/
structure TlbEntry where
  die : Nat
  core : Option (Nat × Nat)
  part : Nat
  vf : Nat
  vpage : Nat
  ppage : Nat
  pages : Nat
  r : Bool
  w : Bool
  x : Bool
  kind : Kind
  deriving DecidableEq, Repr

/-- An open miss (R173): `toRoot` while a stage-2 failure is with the root (R281). -/
structure Miss where
  die : Nat
  cluster : Nat
  core : Nat
  part : Nat
  vf : Nat
  vpage : Nat
  toRoot : Bool
  deriving DecidableEq, Repr

/-- A remote TLB entry, or an open fill with no reply yet (R419). -/
structure RemEntry where
  die : Nat
  part : Nat
  vf : Nat
  peer : Nat
  page : Nat
  reply : Option RemReply
  since : Nat
  deriving DecidableEq, Repr

/-- A record-cache entry (R288), most recently used first. -/
structure RecEntry where
  die : Nat
  part : Nat
  vf : Nat
  addr : Nat
  bytes : List Byte
  deriving DecidableEq, Repr

/-- A GATHER (R257, R258): `k` rows are written; `row` is the row being read, none inside for a row of zeros, `buf` its bytes so
far, `wrote` how many of them are written; `status` once the engine has stopped. -/
structure GatherOp where
  cluster : Nat
  ty : Ty
  base : W64
  idx : W64
  n : Nat
  bound : Nat
  len : Nat
  stride : W64
  dst : Nat
  cw : W64
  cv : W64
  k : Nat := 0
  clipped : Nat := 0
  row : Option (Option W64) := none
  buf : List Byte := []
  wrote : Nat := 0
  status : Option W32 := none
  deriving DecidableEq, Repr

/-- A TCOPY (R284, R285, R288): the record taken so far, whether its fill still runs and will be entered in the record cache,
DETAIL of a record that cannot be used, elements moved, bytes of a sector of the tile not yet written whole. -/
structure TcopyOp where
  out : Bool
  sc : Scope
  cp : Cp
  loc : Nat
  len : Nat
  cw : W64
  cv : W64
  org : List Int
  recAddr : W64
  shape : List Byte
  filling : Bool
  keep : Bool
  bad : Option Nat := none
  d : Nat := 0
  buf : List Byte := []
  deriving DecidableEq, Repr

/-- A PUT (R291, R292): whether it holds its destination tiles, of which gang, its status once it is decided. -/
structure PutOp where
  sc : Scope
  src : Nat
  len : Nat
  tgt : Nat
  dst : Nat
  ctr : W64
  cw : W64
  cv : W64
  landed : Option Nat := none
  status : Option W32 := none
  deriving DecidableEq, Repr

/-- An NMCALL (R368, R369): lines stepped, its accumulator once it has one, its count, its status once it has ended. -/
structure NmcallOp where
  entry : Nat
  sc : Scope
  addr : W64
  count : Nat
  stride : W64
  arg : W64
  res : W64
  cw : W64
  cv : W64
  ch : Nat
  k : Nat := 0
  acc : Option (List W32) := none
  hits : Nat := 0
  status : Option W32 := none
  deriving DecidableEq, Repr

/-- An IXRED (R370): addresses as translated at issue. -/
structure IxredOp where
  ty : Ty
  wide : Bool
  sc : Scope
  rows : List (List Piece)
  dst : List Piece
  ctr : Option (Nat × Nat)
  stack : Nat
  deriving DecidableEq, Repr

/-- What a walk's token reads next (R375): its start vertex, a row's two offsets, a neighbour. -/
inductive WalkAt where
  | start
  | low
  | high (lo : Nat)
  | next (j : Nat)
  deriving DecidableEq, Repr

/-- A running walk of WALK (R375): its number, the channel at whose NMU its token is, hops taken, vertex, path so far, what its token reads
next, status once it has ended. -/
structure Walk where
  w : Nat
  ch : Nat
  hop : Nat
  v : Nat
  path : List Nat
  at_ : WalkAt
  st : Option Nat
  deriving DecidableEq, Repr

/-- A WALK (R373 to R375): walks started, those running, how many ended with status 1 or 2, the lowest that ended with more. -/
structure WalkOp where
  sc : Scope
  rowptr : W64
  col : W64
  v : Nat
  hops : Nat
  rnlog : Nat
  start : W64
  nw : Nat
  ring : W64
  ctr : W64
  kw : W64
  /-- the channel whose NMU has taken the command -/
  ch : Nat
  next : Nat := 0
  live : List Walk := []
  partials : Nat := 0
  bad : Option (Nat × Nat) := none
  deriving DecidableEq, Repr

/-- A COLL (R376): its buffers, none where LIST could not be read; line positions completed; since when its position runs. -/
structure CollOp where
  sc : Scope
  stack : Nat
  bufs : Option (List W64)
  len : Nat
  opc : Nat
  ty : Ty
  cw : W64
  cv : W64
  p : Nat := 0
  since : Option Nat := none
  deriving DecidableEq, Repr

/-- A GRED (R372): the group and result it serves, the die's edge port of its quadrant, each channel's lanes and addresses, and what a channel's NMU has answered: a
value, or the lane whose data were uncorrectable. -/
structure GredOp where
  group : Nat
  outst : Nat
  port : Nat
  op : AtomOp
  ty : Ty
  shares : List (Nat × List (Nat × Nat))
  results : List (Nat × Option Nat × W32)
  deriving DecidableEq, Repr

/-- Outgoing stream of an XRUN to one destination (R434): buffer, bytes to send, sent, acknowledged; whether its marker has gone,
an entry has fallen short, bytes went late, the destination refused, the buffer faulted or could not be read; entries of the
calendar under way. -/
structure XStream where
  dst : Nat
  va : W64
  count : Nat
  sent : Nat := 0
  acked : Nat := 0
  marked : Bool := false
  short : Bool := false
  late : Bool := false
  refused : Bool := false
  fault : Bool := false
  readErr : Bool := false
  deriving DecidableEq, Repr

/-- Incoming stream of an XRUN from one source (R434): buffer, capacity, bytes arrived in order, end marker, cancel mark, fault,
bytes above the capacity. -/
structure XSource where
  src : Nat
  va : W64
  cap : Nat
  got : Nat := 0
  marked : Bool := false
  cancelled : Bool := false
  fault : Bool := false
  excess : Bool := false
  deriving DecidableEq, Repr

/-- An XRUN (R433, R434): the edge port of its quadrant, calendar entries started with the bytes they carried, entries ended. -/
structure XrunOp where
  group : Nat
  round : Nat
  port : Nat
  timeout : Nat
  cw : W64
  cv : W64
  issued : Nat
  outs : List XStream
  ins : List XSource
  started : List (Nat × Nat) := []
  ended : List Nat := []
  deriving DecidableEq, Repr

/-- What an engine operation is and how far it has come. -/
inductive OpKind where
  | gather (x : GatherOp)
  | tcopy (x : TcopyOp)
  | put (x : PutOp)
  | nmcall (x : NmcallOp)
  | ixred (x : IxredOp)
  | walk (x : WalkOp)
  | coll (x : CollOp)
  | gred (x : GredOp)
  | gpwait (grace : Nat)
  /-- DPOST: acknowledged by the primary, by the standby -/
  | dpost (group round : Nat) (primary standby : Bool) (since : Nat)
  | xcal (group round : Nat) (cal : W64) (cap : Nat)
  | xrun (x : XrunOp)
  | rred (group tag idx : Nat) (dst : W64) (ty : Ty)
  deriving DecidableEq, Repr

/-- An engine operation. `live` is off once the context that issued it was terminated or its future was cancelled. -/
structure EngineOp where
  id : Nat
  gang : Nat
  vf : Nat
  part : Nat
  die : Nat
  live : Bool
  cancel : Bool
  kind : OpKind
  deriving DecidableEq, Repr

/-- States of a context (R331). -/
inductive CtxState where
  | absent | loading | resident | active | saving | saved | terminated
  deriving DecidableEq, Repr

/-- A batch of deferred frees (R344): entries not yet pushed (node, size class, head), when its first one came, its grace period,
the head's old value recorded for the entry under way, entries pushed and lost. -/
inductive BatchState where
  | opened | closed | waiting | pushing | done
  deriving DecidableEq, Repr
structure Batch where
  entries : List (W64 × Nat × W64)
  since : Nat
  state : BatchState
  grace : Nat := 0
  cur : Option Nat := none
  pushed : Nat := 0
  lost : Nat := 0
  deriving DecidableEq, Repr

/-- An open grace period (R340): whether its start has been made, the groups of its snapshot that have not left since, its
deadline. -/
structure Grace where
  id : Nat
  started : Bool
  readers : List Nat
  deadline : Option Nat
  deriving DecidableEq, Repr

/-- A context: the descriptor of R389 with its slice (R333), reader set and grace periods (R338 to R344), shares (R331),
and the quota RESIZE set (R400). -/
structure Ctx where
  vf : Nat
  part : Nat
  state : CtxState
  paused : Bool
  bank : Nat
  s1root : Nat
  s2root : Nat
  dfc : Nat
  pver : Nat
  save : Nat
  carry : Nat
  /-- thousandths of cycles that each die has run in the slice (R333) -/
  ran : Vector Nat 6
  sliceStart : Nat
  /-- SLICE, WALL, RATE and BURST of the policy as the slice began (R395) -/
  slice : Nat
  wall : Nat
  rate : Nat
  burst : Nat
  resize : Option Nat
  /-- the QUOTA word in force (R395) -/
  quota : Nat
  evict : Bool
  /-- the saved image as it was written so far, and the tags and counters of its chunks while it is being written (R398) -/
  image : List Byte
  seals : List Byte := []
  lastSlice : Nat
  kinds : List (Nat × Nat × Kind)
  readers : List Nat
  graces : List Grace
  batches : List Batch
  posted : List (Nat × Nat)
  deriving DecidableEq, Repr

/-- A context's shares of one core, cluster or quadrant, as R204, R237, R243 and R273 lay them out: one set of figures per
context, every core, cluster and quadrant of its partition alike. -/
structure Share where
  part : Nat
  vf : Nat
  bank : Nat
  rbase : Nat
  rcount : Nat
  cslots : Nat
  tbase : Nat
  tcount : Nat
  mbase : Nat
  mcount : Nat
  sbase : Nat
  scount : Nat
  pbase : Nat
  pcount : Nat
  deriving DecidableEq, Repr

/-- A launch (R319 to R328). -/
structure Launch where
  id : Nat
  vf : Nat
  part : Nat
  q : Nat
  entry : Nat
  level : Nat
  gangs : Nat
  hdr : Header
  priv : W64
  psize : Nat
  diag : W64
  tfb : W64
  seed : W64
  start : Nat
  unplaced : List (Nat × Nat)
  stolen : List Nat
  retired : Nat
  status : Nat
  trec : Bool
  /-- an INVALIDATE entry (R330) -/
  inval : Bool := false
  /-- dies on which a gang of it has been placed (R361) -/
  placed : List Nat := []
  deriving DecidableEq, Repr

/-- A hardware work queue (R319, R403, R404): `done` lists completed entries past the leading ones, `ovl` the started ones. -/
structure Queue where
  vf : Nat
  q : Nat
  part : Nat
  level : Nat
  ring : Nat
  logN : Nat
  ctr : Nat
  intr : Bool
  taken : Nat
  started : Nat
  done : List Nat
  overrun : Bool
  /-- the QDESTROY under way: physical function, tag -/
  dying : Option (Nat × Nat)
  /-- when the root last read the wait word of the next entry, 0 when it is due at once; whether the condition held -/
  lastPoll : Nat
  waitOk : Bool
  deriving DecidableEq, Repr

/-- A policy (R394). -/
structure Policy where
  version : Nat
  pubkey : List Byte
  permit : Nat
  quota : Nat
  memq : Nat
  queues : List Nat
  maxHandles : Nat
  slice : Nat
  wall : Nat
  rate : Nat
  burst : Nat
  ltol : Nat
  s1root : Nat
  dfc : Nat
  kinds : List (Nat × Nat × Kind)
  peers : List (Nat × Nat × Nat)
  xgroups : List Nat
  deriving DecidableEq, Repr

/-- A virtual function (R388, R392, R397, R398, R403, R405, R407). -/
structure Vf where
  vf : Nat
  secret : Option (List Byte)
  policy : Option Policy
  bound : Option (List Byte)
  lstat : Nat
  lerr : Nat
  ltol : Option Nat
  devCtr : Nat
  saveCtr : Nat
  /-- the host has freed its last handle since it was bound (R392) -/
  freed : Bool := false
  deriving DecidableEq, Repr

/-- A handle (R400): memory as a list of 64 KiB pages, or a host window (R397). -/
inductive HandleKind where
  | memory (pages : List Nat)
  | window (dataBase tagBase len base : Nat)
  deriving DecidableEq, Repr
structure Handle where
  id : Nat
  vf : Nat
  kind : HandleKind
  part : Option Nat
  deriving DecidableEq, Repr

/-- A mapping that MAP recorded (R400), by 64 KiB pages of intermediate addresses. -/
structure MapRec where
  vf : Nat
  part : Nat
  handle : Nat
  ipage : Nat
  ppages : List Nat
  kind : Kind
  deriving DecidableEq, Repr

/-- A saved gang (R334) with its groups, planes and unresolved operations. -/
structure Saved where
  gang : Gang
  groups : List Group
  planes : List PlanePair
  pendingRes : List (Nat × W32)
  deriving DecidableEq, Repr

/-- Power states (R406). -/
inductive PowerState where
  | full | low | qgate | doff | sref
  deriving DecidableEq, Repr

/-- A compute die's service (R361, R406 to R409). -/
structure Die where
  present : Bool := false
  fullService : Bool := false
  failed : Bool := false
  mhz : Nat := 0
  power : PowerState := .full
  quads : List PowerState := [.full, .full, .full, .full]
  idlePorts : List Nat := []
  deriving DecidableEq, Repr

/-- A bridge gate (R268). -/
structure Gate where
  lock : Bool
  part : Nat
  deriving DecidableEq, Repr

/-- A step in an NMU's queue (R363): a line of an NMCALL, a hop of a walk, a GRED share, by operation. -/
inductive NmuStep where
  | call (op : Nat)
  | hop (op w : Nat)
  | share (op : Nat)
  deriving DecidableEq, Repr

/-- A channel's NMU and refresh (R363, R365, R379): its step queue, the step that holds compute mode, and since when; since when refresh
pauses a lock-step operation on it. -/
structure Nmu where
  ch : Nat
  queue : List NmuStep := []
  run : Option NmuStep := none
  since : Nat := 0
  paused : Option Nat := none
  deriving DecidableEq, Repr

/-- A credit counter of a partition and die (R360), in 1/1,024 byte, as it stood at an instant. -/
structure Credit where
  part : Nat
  die : Nat
  c : Int
  last : Nat
  deriving DecidableEq, Repr

/-- Traffic classes (R357). -/
inductive Traffic where
  | req | rsp | wb | nmc | coll | xch | mgmt
  deriving DecidableEq, Repr

/-- A physical function's mailbox (R399) and its SPDM session (R391). -/
structure Pf where
  alive : Bool := true
  command : List Byte := []
  response : List Byte := []
  done : Bool := true
  transcript : List Byte := []
  stage : Nat := 0
  session : Bool := false
  deriving DecidableEq, Repr

/-- A message the device has sent to the host (R391, R399, R403, R412). -/
inductive HostMsg where
  | response (pf tag status : Nat) (result : List Nat)
  | spdm (pf : Nat) (error : Bool) (body : List Byte)
  | msix (vf vector : Nat)
  | dmaWrite (addr : Nat) (bytes : List Byte)
  | readValue (vf : Nat) (v : Nat)
  | internalError (pf : Nat)
  deriving DecidableEq, Repr

/-- A message the package has sent to the fabric (R414 to R436). -/
inductive NetMsg where
  | remote (peer : Nat) (req : RemReq)
  | remoteReply (peer : Nat) (n : Nat) (data : BitVec 128) (bad : Bool)
  | fillReply (peer : Nat) (rep : RemReply)
  | rred (m : RredMsg)
  | rredResult (pkg opId : Nat) (status : W32) (vals : List W64)
  | row (standby : Bool) (m : RowMsg)
  | rowAck (pkg group round : Nat) (standby : Bool)
  | calendar (m : CalMsg)
  | xch (pkg : Nat) (m : XchMsg)
  | query (pkg group round : Nat)
  | roundDone (pkg group round : Nat)
  | drainedPlane (plane : Nat)
  /-- entries of the remote TLBs of package `pkg` for a context of this one are to go (R419) -/
  | remove (pkg vf part : Nat)
  deriving DecidableEq, Repr

/-- What a packet of an operation brings (R357): its command, the token of a walk, an answer for an edge port of the die. -/
inductive Carry where
  | command
  | token (w : Nat)
  | answer
  deriving DecidableEq, Repr

/-- A packet of the memory network (R357 to R360): originator, payload, the operation or result it serves, its class, the port where it
enters (an edge port of the die, or 4 and the stack whose agents send it), the channel it is for, or the die's edge port of an answer, or the
switch plane of the message that it takes to another package; the line of 256 bytes that it addresses, none for several; `at_` is the stack
it has reached and the hops it has taken, none while it waits in its port's queue of its class. -/
structure Packet where
  part : Nat
  vf : Nat
  die : Nat
  bytes : Nat
  id : Nat
  cls : Traffic := .nmc
  port : Nat := 0
  ch : Nat := 0
  line : Option Nat := none
  msg : Option NetMsg := none
  at_ : Option (Nat × Nat) := none
  what : Carry := .command
  deriving DecidableEq, Repr

/-- An in-switch reduction instance (R425). -/
structure RredInst where
  group : Nat
  tag : Nat
  first : Nat
  msgs : List RredMsg
  deriving DecidableEq, Repr

/-- States of a Weaver's round (R430). -/
inductive RoundState where
  | collecting | decomposing | issuing | held | done
  deriving DecidableEq, Repr

/-- A round at a Weaver of this package (R428 to R431), the primary or the standby: its rows by index, calendars or notices per
participant, the participants that have acknowledged theirs. -/
structure Round where
  group : Nat
  round : Nat
  standby : Bool
  state : RoundState
  first : Nat
  rows : List RowMsg
  cals : List CalMsg
  acked : List Nat
  deriving DecidableEq, Repr

/-- A round that a context of this package has posted and holds open (R427, R431 to R434): the membership table as package,
partition and VF; the calendar or notice accepted and when; whether XRUN has issued; when a Weaver last answered; when the root last asked them. -/
structure Posted where
  vf : Nat
  part : Nat
  group : Nat
  round : Nat
  idx : Nat
  members : List (Nat × Nat × Nat)
  cal : Option CalBody
  accepted : Nat
  ran : Bool
  answered : Nat
  asked : Nat
  deriving DecidableEq, Repr

/-- Agents with a standby (R336, R345, R390, R431): whether the primary serves, heartbeats missed in a row. For the root: whether
they are those of instance 0. -/
structure Duty where
  primary : Bool := true
  missed : Nat := 0
  deriving DecidableEq, Repr

/-- The dump written at a fatal error (R410, R411): its sections, each with whether its reader may copy it (the device's, or a tenant's
under DEBUG = 1), the VF, the sealed bytes. -/
structure Dump where
  cls : Nat
  time : Nat
  sections : List (Bool × Nat × List Byte)
  deriving DecidableEq, Repr

/-- One move: which group and slot are selected first (if any), then which event happens; no event is the issue of the
selected path's next instruction (MODEL, log 1). -/
structure Move where
  group : Option Nat
  slot : SlotId
  ev : Option Instr
  deriving DecidableEq, Repr

/-- The whole machine. -/
structure State where
  -- the model's own fields (log 1, log 4)
  agenda : List Move := []
  sel : SlotId := .a
  tick : Nat := 0
  nextId : Nat := 1
  -- groups and gangs
  grp : Group := {}
  groups : List Group := []
  gangs : List Gang := []
  -- time
  time : Nat := 0
  synced : Bool := false
  -- cores, clusters, dies
  wq : List StoreOp := []
  l1 : List L1Sector := []
  l2 : List L2Sector := []
  wbuf : List WbEntry := []
  icache : List ILine := []
  fetchq : List FetchEntry := []
  tlb : List TlbEntry := []
  misses : List Miss := []
  rtlb : List RemEntry := []
  recs : List RecEntry := []
  planes : List PlanePair := []
  rtab : List TabEntry := []
  ops : List EngineOp := []
  /-- operations that an FCANCEL has asked to stop, until they acknowledge (R215) -/
  stopping : List Nat := []
  shares : List Share := []
  abank : List (Nat × Nat) := []
  admits : Vector Nat 6 := Vector.replicate 6 0
  dies : Vector Die 6 := Vector.replicate 6 {}
  gates : Vector Gate 24 := Vector.replicate 24 ⟨true, 31⟩
  gateCopy : Vector Gate 24 := Vector.replicate 24 ⟨true, 31⟩
  -- package
  mem : Mem := []
  hmem : Mem := []
  poison : List Nat := []
  /-- dirty-line errors met and not yet acted on (R271): context, partition, address -/
  kills : List (Nat × Nat × Nat) := []
  /-- regions of 1 GiB whose MODE is LOCAL in the region table (R353) -/
  regions : List Nat := []
  /-- the NMUs' control store and entry points, as firmware loaded them (R363) -/
  control : List (BitVec 128) := []
  entries : List Nat := []
  nmus : List Nmu := []
  credits : List Credit := []
  /-- requests that the dies' accesses have put on the memory network (R360): the model's own count -/
  reqs : Nat := 0
  /-- the channels' write queues (R182, R309, R352): partition of the virtual queue and line, oldest first; the
  merged bytes stand in `mem`, and a line's channel is where it lies -/
  chq : List (Nat × Nat) := []
  inject : List Packet := []
  srefStacks : List Nat := []
  /-- when a request last reached a channel of each stack (R406) -/
  stackUse : Vector Nat 12 := Vector.replicate 12 0
  /-- stacks in SREF to which the event under way has addressed a request: it waits for their exits (R407) -/
  called : List Nat := []
  /-- units on the way out of a power state, since when (R361, R406) -/
  wake : List (PowerUnit × Nat) := []
  pkg : Nat := 0
  -- the root
  ctxs : List Ctx := []
  launches : List Launch := []
  queues : List Queue := []
  vfs : List Vf := []
  handles : List Handle := []
  maps : List MapRec := []
  /-- 64 KiB pages that hold the root's tables (R389) -/
  rootPages : List Nat := []
  /-- quadrants on the way to another partition (R387): die, quadrant, partition -/
  moving : List (Nat × Nat × Nat) := []
  saved : List Saved := []
  resolutions : List (Nat × W32) := []
  pfs : Vector Pf 2 := Vector.replicate 2 {}
  host : List HostMsg := []
  bring : Nat := 0
  dump : Option Dump := none
  fatal : Bool := false
  regulator : Duty := {}
  syncEngine : Duty := {}
  /-- primary Weavers that a standby of this package watches, by package -/
  weavers : List (Nat × Duty) := []
  roots : Duty := {}
  -- fabric
  planesP : Nat := 1
  badPorts : List Nat := []
  rreds : List RredInst := []
  rounds : List Round := []
  posted : List Posted := []
  lostPkgs : List Nat := []
  net : List NetMsg := []
  deriving DecidableEq, Repr

/-- Why a step stops. -/
inductive Fault where
  /-- A fatal error has stopped every group and the device accepts nothing until a reset (R410). Raised by
  `step` alone, when no move is prescribed. Safe: the device does nothing more either. -/
  | fatal
  deriving DecidableEq, Repr

/-- Why an instruction has no meaning in the model. -/
inductive Refusal where
  /-- An arm of `exec` whose meaning is not written. Safe: no claim about that instruction can be proved. -/
  | notModelled (mnemonic : String)
  deriving DecidableEq, Repr

/-- The machine right after reset: power is not yet good, no context exists, memory lists nothing. -/
def State.reset : State := {}

end Sys2Proof.Machine
end

