-- ==== Sys2Proof/Machine/Flags.lean ====
section
/-! DEFINITION. Floating-point formats, exact arithmetic, rounding, and the sticky flags of $fmode they set (R96 to R106). -/
namespace Sys2Proof.Machine

/-- Flags as they stand in $fmode (R71). -/
abbrev Flags := W64
def fNV : Flags := 0x8
def fDZ : Flags := 0x10
def fOF : Flags := 0x20
def fUF : Flags := 0x40
def fNX : Flags := 0x80
def fSF : Flags := 0x100

/-- A flag when a condition holds. -/
def flagIf (c : Bool) (f : Flags) : Flags := if c then f else 0

/-- A floating-point format (R96, R98): widths of E and M, bias, whether it has infinities, its canonical NaN if any, and
the encoding of its largest finite value. -/
structure Fmt where
  bits : Nat
  e : Nat
  m : Nat
  bias : Nat
  inf : Bool
  nan : Option Nat
  maxFin : Nat
  deriving DecidableEq, Repr

/-- The formats of R96 and R98; other types are read as .f32. -/
def fmtOf : Ty → Fmt
  | .f64 => ⟨64, 11, 52, 1023, true, some 0x7FF8000000000000, 0x7FEFFFFFFFFFFFFF⟩
  | .bf16 => ⟨16, 8, 7, 127, true, some 0x7FC0, 0x7F7F⟩
  | .f16 => ⟨16, 5, 10, 15, true, some 0x7E00, 0x7BFF⟩
  | .e5m2 => ⟨8, 5, 2, 15, true, some 0x7E, 0x7B⟩
  | .e4m3 => ⟨8, 4, 3, 7, false, some 0x7F, 0x7E⟩
  | .e3m2 => ⟨6, 3, 2, 3, false, none, 0x1F⟩
  | .e2m3 => ⟨6, 2, 3, 1, false, none, 0x1F⟩
  | .e2m1 => ⟨4, 2, 1, 1, false, none, 0x7⟩
  | _ => ⟨32, 8, 23, 127, true, some 0x7FC00000, 0x7F7FFFFF⟩

/-- A value: NaN (signalling or quiet), an infinity, or sign, magnitude and exponent of (-1)^neg × mant × 2^exp. -/
inductive Fp where
  | nan (signalling : Bool)
  | inf (neg : Bool)
  | fin (neg : Bool) (mant : Nat) (exp : Int)
  deriving DecidableEq, Repr

/-- The value of an encoding (R97, R98). -/
def decodeFp (f : Fmt) (v : Nat) : Fp :=
  let neg := v.testBit (f.bits - 1)
  let e := bits v f.m f.e
  let m := bits v 0 f.m
  if f.inf && e == 2 ^ f.e - 1 then
    if m = 0 then .inf neg else .nan (!m.testBit (f.m - 1))
  else if !f.inf && f.nan.isSome && bits v 0 (f.bits - 1) == f.maxFin + 1 then .nan false
  else if e = 0 then .fin neg m (1 - f.bias - f.m)
  else .fin neg (2 ^ f.m + m) ((e : Int) - f.bias - f.m)

/-- The encoding's sign bit. -/
def signBit (f : Fmt) (neg : Bool) : Nat := if neg then 2 ^ (f.bits - 1) else 0

/-- The canonical NaN of a format; +0 in a format without one (R99, R105). -/
def canonNaN (f : Fmt) : Nat := f.nan.getD 0

/-- mant × 2^exp divided by 2^q, as quotient, remainder and the bits dropped. -/
def scaled (mant : Nat) (exp q : Int) : Nat × Nat × Nat :=
  if q ≤ exp then (mant * 2 ^ (exp - q).toNat, 0, 0)
  else (mant / 2 ^ (q - exp).toNat, mant % 2 ^ (q - exp).toNat, (q - exp).toNat)

/-- Whether a mode moves the magnitude up by one unit: quotient, remainder of `s` bits, sign, draw (R101, R102). -/
def roundsUp (mode : Rnd) (draw : Nat) (neg : Bool) (m rem s : Nat) : Bool :=
  if rem = 0 then false
  else match mode with
    | .rne => 2 ^ s < 2 * rem || (2 * rem == 2 ^ s && m % 2 == 1)
    | .rna => 2 ^ s ≤ 2 * rem
    | .rtz => false
    | .rup => !neg
    | .rdn => neg
    | .sr | .dyn => 2 ^ 32 ≤ rem * 2 ^ 32 / 2 ^ s + draw

/-- mant × 2^exp rounded to a multiple of 2^q: the multiple, and whether it is inexact. -/
def roundAt (mode : Rnd) (draw : Nat) (neg : Bool) (mant : Nat) (exp q : Int) : Nat × Bool :=
  let (m, rem, s) := scaled mant exp q
  (if roundsUp mode draw neg m rem s then m + 1 else m, rem != 0)

/-- The encoding of an overflowing result (R101). -/
def overflowBits (f : Fmt) (mode : Rnd) (sat neg : Bool) : Nat :=
  let toMax := sat || !f.inf || match mode with
    | .rtz => true
    | .rup => neg
    | .rdn => !neg
    | _ => false
  signBit f neg + if toMax then f.maxFin else (2 ^ f.e - 1) * 2 ^ f.m

/-- Rounds (-1)^neg × mant × 2^exp to a format (R101 to R104): encoding and flags. -/
def roundFin (f : Fmt) (mode : Rnd) (draw : Nat) (sat neg : Bool) (mant : Nat) (exp : Int) : Nat × Flags :=
  if mant = 0 then (signBit f neg, 0)
  else
    let top : Int := exp + Nat.log2 mant
    let emin : Int := 1 - f.bias
    let q : Int := max top emin - f.m
    let (m, nx) := roundAt mode draw neg mant exp q
    let mag : Nat := if m < 2 ^ f.m then m else ((q + f.m + f.bias).toNat - 1) * 2 ^ f.m + m
    if f.maxFin < mag then (overflowBits f mode sat neg, fOF ||| fNX)
    else
      let unbounded := (roundAt mode draw neg mant exp (top - f.m)).1
      let tiny := decide (top < emin) && !(decide (top + 1 = emin) && unbounded == 2 ^ (f.m + 1))
      (signBit f neg + mag, flagIf nx fNX ||| flagIf (nx && tiny && m != 0) fUF)

/-- Rounds a value to a format. A NaN gives the canonical NaN; an infinity stays one, or the largest finite value where
the format has none or saturation is asked (R99, R101, R106). -/
def roundFp (f : Fmt) (mode : Rnd) (draw : Nat) (x : Fp) : Nat × Flags :=
  match x with
  | .nan _ => (canonNaN f, 0)
  | .inf neg => (signBit f neg + if f.inf then (2 ^ f.e - 1) * 2 ^ f.m else f.maxFin, 0)
  | .fin neg mant exp => roundFin f mode draw false neg mant exp

/-- NV for a signalling NaN operand (R104). -/
def nvOf : Fp → Flags
  | .nan true => fNV
  | _ => 0

/-- Whether a value is NaN. -/
def Fp.isNaN : Fp → Bool
  | .nan _ => true
  | _ => false

/-- The value with its sign inverted when `c`. -/
def negIf (c : Bool) : Fp → Fp
  | .nan s => .nan s
  | .inf n => .inf (n != c)
  | .fin n m e => .fin (n != c) m e

/-- The exact product (R104: 0 × ∞ is invalid). -/
def mulFp (x y : Fp) : Fp × Flags :=
  let nv := nvOf x ||| nvOf y
  match x, y with
  | .nan _, _ => (.nan false, nv)
  | _, .nan _ => (.nan false, nv)
  | .inf a, .inf b => (.inf (a != b), nv)
  | .inf a, .fin b m _ => if m = 0 then (.nan false, fNV) else (.inf (a != b), nv)
  | .fin a m _, .inf b => if m = 0 then (.nan false, fNV) else (.inf (a != b), nv)
  | .fin a m e, .fin b n g => (.fin (a != b) (m * n) (e + g), nv)

/-- The signed integer mant × 2^(exp − q), for q at most exp. -/
def signedAt (neg : Bool) (mant : Nat) (exp q : Int) : Int :=
  let v : Int := (mant * 2 ^ (exp - q).toNat : Nat)
  if neg then -v else v

/-- The exact sum of two values; a zero sum of opposite signs is −0 under RDN and +0 otherwise (R103, R104). -/
def addFp (rdn : Bool) (x y : Fp) : Fp × Flags :=
  let nv := nvOf x ||| nvOf y
  match x, y with
  | .nan _, _ => (.nan false, nv)
  | _, .nan _ => (.nan false, nv)
  | .inf a, .inf b => if a == b then (.inf a, nv) else (.nan false, fNV)
  | .inf a, .fin _ _ _ => (.inf a, nv)
  | .fin _ _ _, .inf b => (.inf b, nv)
  | .fin a m e, .fin b n g =>
    if m = 0 ∧ n = 0 then (.fin (if a == b then a else rdn) 0 0, nv)
    else
      let q := min e g
      let t := signedAt a m e q + signedAt b n g q
      if t = 0 then (.fin rdn 0 0, nv) else (.fin (decide (t < 0)) t.natAbs q, nv)

/-- NV of an exact sum (R104, R163): a signalling NaN, or both infinities, wherever they stand among the values and whatever
quiet NaN stands beside them (DEDUCED, log 38). -/
def sumNv (xs : List Fp) : Flags :=
  flagIf (xs.any (fun x => x == .nan true) || (xs.any (fun x => x == .inf false) && xs.any fun x => x == .inf true)) fNV

/-- The exact sum of a list, in a sum that is rounded once afterwards (R111, R163). An empty list gives +0. -/
def sumFp (rdn : Bool) (xs : List Fp) : Fp × Flags :=
  match xs with
  | [] => (.fin false 0 0, 0)
  | x :: r => (r.foldl (fun acc y => (addFp rdn acc y).1) x, sumNv xs)

/-- Numeric order of two values that are not NaN: whether x < y. -/
def ltFp (x y : Fp) : Bool :=
  match x, y with
  | .inf a, .inf b => a && !b
  | .inf a, .fin _ _ _ => a
  | .fin _ _ _, .inf b => !b
  | .fin a m e, .fin b n g => decide (signedAt a m e (min e g) < signedAt b n g (min e g))
  | _, _ => false

/-- Numeric equality of two values that are not NaN; +0 equals −0. -/
def eqFp (x y : Fp) : Bool := !x.isNaN && !y.isNaN && !ltFp x y && !ltFp y x

/-- The sign of a value. -/
def Fp.neg : Fp → Bool
  | .nan _ => false
  | .inf n => n
  | .fin n _ _ => n

/-- FMIN and FMAX on encodings (R151): `num` is the number-preferring variant. -/
def minmaxBits (f : Fmt) (isMax num : Bool) (a b : Nat) : Nat × Flags :=
  let x := decodeFp f a
  let y := decodeFp f b
  let nv := nvOf x ||| nvOf y
  match x.isNaN, y.isNaN with
  | true, true => (canonNaN f, nv)
  | true, false => (if num then b else canonNaN f, nv)
  | false, true => (if num then a else canonNaN f, nv)
  | false, false =>
    let aFirst := ltFp x y || (!ltFp y x && x.neg)
    (if aFirst != isMax then a else b, nv)

/-- FCMP (R152): the relation and its flags. -/
def compareFp (cc : FCmp) (x y : Fp) : Bool × Flags :=
  let un := x.isNaN || y.isNaN
  let nv := nvOf x ||| nvOf y
  let nvq := nv ||| flagIf un fNV
  match cc with
  | .eq => (eqFp x y, nv)
  | .ne => (!eqFp x y, nv)
  | .lt => (!un && ltFp x y, nvq)
  | .le => (!un && !ltFp y x, nvq)
  | .gt => (!un && ltFp y x, nvq)
  | .ge => (!un && !ltFp x y, nvq)
  | .un => (un, nv)
  | .ord => (!un, nv)

/-- The class mask of FCLASS (R153). -/
def classOf (f : Fmt) (v : Nat) : Nat :=
  match decodeFp f v with
  | .nan s => if s then 0x100 else 0x200
  | .inf n => if n then 0x1 else 0x80
  | .fin n m _ =>
    if m = 0 then if n then 0x8 else 0x10
    else if m < 2 ^ f.m then if n then 0x4 else 0x20
    else if n then 0x2 else 0x40

/-- FRND (R154): the integral value in the same format. -/
def integralBits (f : Fmt) (mode : Rnd) (draw v : Nat) : Nat × Flags :=
  match decodeFp f v with
  | .nan s => (canonNaN f, flagIf s fNV)
  | .inf _ => (v, 0)
  | .fin n m e =>
    if 0 ≤ e then (v, 0)
    else
      let (k, _) := roundAt mode draw n m e 0
      ((roundFin f .rtz 0 false n k 0).1, 0)

/-- The range of an integer type (R100): width and signedness. -/
def intRange (w : Nat) (signed : Bool) : Int × Int :=
  if signed then (-(2 ^ (w - 1) : Nat), (2 ^ (w - 1) : Nat) - 1) else (0, (2 ^ w : Nat) - 1)

/-- x clamped to a range. -/
def clampInt (r : Int × Int) (x : Int) : Int := if x < r.1 then r.1 else if r.2 < x then r.2 else x

/-- Kinds of a type for conversion: float, or integer of a width and signedness. -/
def intOf : Ty → Option (Nat × Bool)
  | .i8 => some (8, true)
  | .i16 => some (16, true)
  | .i32 => some (32, true)
  | .i64 => some (64, true)
  | .z8 => some (8, false)
  | .z16 => some (16, false)
  | .z32 => some (32, false)
  | .z64 => some (64, false)
  | _ => none

/-- Float to integer (R105): NaN gives 0, out of range clamps, both with NV alone. -/
def floatToInt (w : Nat) (signed : Bool) (mode : Rnd) (draw : Nat) (x : Fp) : Nat × Flags :=
  let r := intRange w signed
  match x with
  | .nan _ => (0, fNV)
  | .inf n => (wrap w (if n then r.1 else r.2), fNV)
  | .fin n m e =>
    let (k, nx) := roundAt mode draw n m e 0
    let v : Int := if n then -(k : Int) else k
    if v < r.1 ∨ r.2 < v then (wrap w (clampInt r v), fNV) else (wrap w v, flagIf nx fNX)

/-- Float to float (R105, R106); `same` for a conversion of a type to itself. Under SAT = 1 a NaN or an infinity gives what R106
says of the destination, also for a type converted to itself, of which R155 says that the value stays (DESIGN CHOICE, log 39). -/
def floatToFloat (f : Fmt) (same : Bool) (mode : Rnd) (draw : Nat) (sat : Bool) (x : Fp) : Nat × Flags :=
  match x with
  | .nan s =>
    if sat && f.inf then (0, fNV)
    else if f.inf then (canonNaN f, flagIf s fNV)
    else if f.nan.isSome then (canonNaN f, flagIf (!same || s) fNV)
    else (0, fNV)
  | .inf n =>
    if f.inf && !sat then (signBit f n + (2 ^ f.e - 1) * 2 ^ f.m, 0) else (signBit f n + f.maxFin, fNV)
  | .fin n m e => roundFin f mode draw (sat && f.inf) n m e

/-- One conversion (R105, R106): the low bits of the destination, and flags. -/
def convert (src dst : Ty) (mode : Rnd) (draw : Nat) (sat : Bool) (v : Nat) : Nat × Flags :=
  match intOf src, intOf dst with
  | some (ws, ss), some (wd, sd) =>
    let x : Int := if ss then signedOf ws v else (v % 2 ^ ws : Nat)
    (wrap wd (if sat then clampInt (intRange wd sd) x else x), 0)
  | some (ws, ss), none =>
    let x : Int := if ss then signedOf ws v else (v % 2 ^ ws : Nat)
    roundFin (fmtOf dst) mode draw (sat && (fmtOf dst).inf) (decide (x < 0)) x.natAbs 0
  | none, some (wd, sd) => floatToInt wd sd mode draw (decodeFp (fmtOf src) (v % 2 ^ (fmtOf src).bits))
  | none, none => floatToFloat (fmtOf dst) (src == dst) mode draw sat (decodeFp (fmtOf src) (v % 2 ^ (fmtOf src).bits))

/-- round_rne to FP32 of an exact value: the encoding (R110, R371). -/
def rneF32 (x : Fp) : Nat × Flags := roundFp (fmtOf .f32) .rne 0 x

/-- A block or per-tensor scale is valid when positive and finite (R108, R109). -/
def scaleValid (v : Nat) : Bool := v < 0x7F800000 && v != 0

end Sys2Proof.Machine
end

