-- ==== Sys2Proof/Machine/Mem.lean ====
section
/-! DEFINITION. Bytes of memory, sectors of L1 and L2, the write-back buffer, host blocks: what stands at each point (R176,
R177, R270, R271, R300, R301, R359, R397). -/
namespace Sys2Proof.Machine

/-- The byte at an address; an unlisted address reads as 0 (R408: memory is zeroed at bring-up). -/
def memGet : Mem → Nat → Byte
  | [], _ => 0
  | (k, b) :: r, a => if a = k then b else memGet r a

/-- One byte written, the canonical form kept: a byte equal to what an unlisted address reads as is not listed. -/
def memSet : Mem → Nat → Byte → Mem
  | [], a, v => if v = 0 then [] else [(a, v)]
  | (k, b) :: r, a, v =>
    if a < k then if v = 0 then (k, b) :: r else (a, v) :: (k, b) :: r
    else if a = k then if v = 0 then r else (a, v) :: r
    else (k, b) :: memSet r a v

/-- `n` bytes from an address. -/
def memRead (m : Mem) (a : Nat) : Nat → List Byte
  | 0 => []
  | n + 1 => memGet m a :: memRead m (a + 1) n

/-- Bytes written from an address upward. -/
def memWrite (m : Mem) (a : Nat) : List Byte → Mem
  | [] => m
  | b :: r => memWrite (memSet m a b) (a + 1) r

/-- The canonical form above a bound: addresses rising, no listed byte equal to 0. -/
def memAbove : Option Nat → Mem → Bool
  | _, [] => true
  | lo, (k, b) :: r => (match lo with | none => true | some l => decide (l < k)) && b != 0 && memAbove (some k) r

/-- The canonical form of a memory. -/
def Mem.wf (m : Mem) : Bool := memAbove none m

/-- Sector of an address, 32 bytes each (R177). -/
def secOf (pa : Nat) : Nat := pa / 32

/-- The byte mask of a sector that the bytes [pa, pa + n) cover. -/
def secMask (sec pa n : Nat) : LaneMask := maskOf fun i => decide (pa ≤ 32 * sec + i ∧ 32 * sec + i < pa + n)

/-- New bytes laid over old ones where a mask is set. -/
def overlay (old new : List Byte) (mask : LaneMask) : List Byte :=
  (List.range 32).map fun i => if mask.getLsbD i then new.getD i 0 else old.getD i 0

/-- The bytes [pa, pa + n) of `data`, placed at their positions in sector `sec`. -/
def placeIn (sec pa : Nat) (data : List Byte) : List Byte :=
  (List.range 32).map fun i => if pa ≤ 32 * sec + i then data.getD (32 * sec + i - pa) 0 else 0

/-- The sectors that [pa, pa + n) touches, ascending. -/
def sectorsOf (pa n : Nat) : List Nat :=
  if n = 0 then [] else (List.range ((pa + n - 1) / 32 - pa / 32 + 1)).map (pa / 32 + ·)

/-! ### The address map (R354, R406, R407) -/

/-- Where a package address lies (R354): stack and stack address. -/
def State.place (s : State) (pa : Nat) : Nat × Nat :=
  let i := pa / 2 ^ 30
  let b := i / 12
  let off := pa - b * 12 * 2 ^ 30
  if 12 * b ∈ s.regions then (i % 12, b * 2 ^ 30 + pa % 2 ^ 30)
  else
    let g := off / 4096
    (g % 12, b * 2 ^ 30 + g / 12 * 4096 + off % 4096)

/-- Stack and channel id of an address (R354). -/
def State.stackOf (s : State) (pa : Nat) : Nat := (s.place pa).1
def State.channelOf (s : State) (pa : Nat) : Nat := 32 * (s.place pa).1 + (s.place pa).2 / 256 % 32

/-- Requests reach the channels of some addresses (R406); one that is addressed to a stack in SREF has to wait (R407). -/
def State.touch (s : State) (pas : List Nat) : State :=
  let ks := distinct (pas.map s.stackOf)
  { s with
    stackUse := ks.foldl (fun v k => v.setIfInBounds k s.time) s.stackUse
    called := s.called ++ ks.filter fun k => decide (k ∈ s.srefStacks ∧ k ∉ s.called) }

/-- Stacks in SREF that requests have called begin their exit (R407). -/
def State.rouse (s : State) (ks : List Nat) : State :=
  { s with
    called := []
    wake := s.wake ++ (ks.filter fun k => s.wake.all fun w => w.1 != .stack k).map fun k => (PowerUnit.stack k, s.time) }

/-- A channel's write queue accepts a write of a line into the virtual queue of a partition; a write to a line that waits there merges with
it (R182, R309, R352). -/
def acceptLine (q : List (Nat × Nat)) (part line : Nat) : List (Nat × Nat) := if (part, line) ∈ q then q else q ++ [(part, line)]

/-- Bytes written at the base die (R176), tagged with their originator's partition (R309): a sector written whole is no longer
uncorrectable. -/
def State.basePut (s : State) (part pa : Nat) (bs : List Byte) : State :=
  let lines := distinct ((sectorsOf pa bs.length).map (· / 8))
  { s.touch (lines.map (256 * ·)) with
    chq := lines.foldl (fun q l => acceptLine q part l) s.chq
    mem := memWrite s.mem pa bs
    poison := s.poison.filter fun x => !(decide (pa ≤ 32 * x) && decide (32 * x + 32 ≤ pa + bs.length)) }

/-- The bytes of a sector where a mask is set, written at the base die. -/
def State.basePutMasked (s : State) (part sec : Nat) (bs : List Byte) (mask : LaneMask) : State :=
  (List.range 32).foldl (fun s i => if mask.getLsbD i then { s with mem := memSet s.mem (32 * sec + i) (bs.getD i 0) } else s)
    { s.touch (if mask = 0 then [] else [32 * sec]) with
      chq := if mask = 0 then s.chq else acceptLine s.chq part (sec / 8)
      poison := if mask = 0xFFFFFFFF then s.poison.filter (· != sec) else s.poison }

/-- A channel writes a waiting line to its DRAM (R309, R352): which one goes next the spec leaves open (log 58). -/
def State.drainChannel (s : State) : State :=
  let c := Config.choice s.tick 0xC400
  { s with chq := if c % 2 = 0 then s.chq else dropAt s.chq (c / 2 % max s.chq.length 1) }

/-- Whether the base die's data of [pa, pa + n) are uncorrectable. -/
def State.baseBad (s : State) (pa n : Nat) : Bool := (sectorsOf pa n).any fun x => x ∈ s.poison

/-! ### Rate limiters (R360) -/

/-- The RATE and BURST in force for a partition (R360, R395): those of its active context's slice. -/
def State.rateOf (s : State) (part : Nat) : Option (Nat × Nat) :=
  (s.ctxs.find? fun c => c.part == part && c.state == .active).map fun c => (c.rate, c.burst)

/-- The credit of a partition and die now (R360). -/
def State.creditNow (s : State) (part die : Nat) : Int :=
  match s.rateOf part, s.credits.find? fun c => c.part == part && c.die == die with
  | some (r, b), some c => min (c.c + r * (s.time - c.last : Nat)) (1024 * b : Nat)
  | some (_, b), none => (1024 * b : Nat)
  | none, some c => c.c
  | none, none => 1

/-- Credit set. -/
def State.setCredit (s : State) (part die : Nat) (v : Int) : State :=
  { s with credits := ⟨part, die, v, s.time⟩ :: s.credits.filter fun c => !(c.part == part && c.die == die) }

/-- Packets of a partition charged to a die's counter (R360): each counts 32 bytes beside its payload. Without an active context no
policy limits the partition. -/
def State.charge (s : State) (part die packets payload : Nat) : State :=
  match s.rateOf part, decide (die < 6) with
  | some _, true => s.setCredit part die (s.creditNow part die - 1024 * (32 * packets + payload : Nat))
  | _, _ => s

/-- The packets of a request and its answer (R357, R360): a REQ packet, which waits for credit, and the RSP packet that answers it. -/
def State.request (s : State) (part die payload : Nat) : State := { s.charge part die 2 payload with reqs := s.reqs + 1 }

/-- An access that sends a request to the memory network waits while the counter is not above 0 (R360): then the event has not
happened yet. Write-backs and answers never wait. -/
def State.paid (s : State) (part die : Nat) (t : State) : State :=
  if s.creditNow part die ≤ 0 ∧ t.reqs ≠ s.reqs then s else t

/-- Every counter of a partition brought to now, before its RATE changes (R360, R395). -/
def State.settleCredits (s : State) (part : Nat) : State :=
  { s with credits := s.credits.map fun c => if c.part = part then { c with c := s.creditNow part c.die, last := s.time } else c }

/-! ### Sectors beyond L2 (R359) -/

/-- A sector as a die sees it beyond its L2: base memory under the die's own write-back buffer (R359). -/
def State.beyond (s : State) (die sec : Nat) : List Byte :=
  (s.wbuf.filter fun w => w.die == die && w.sec == sec).foldl (fun bs w => overlay bs w.bytes w.mask) (memRead s.mem (32 * sec) 32)

/-- A sector fetched by a die (R357, R360): a request without payload and 32 bytes of read data. -/
def State.chargeFetch (s : State) (part die : Nat) : State := s.request part die 32

/-- A die's newer bytes of a sector go to the base die (R359, R300): what its write-back buffer still holds of those bytes is
older and is written no more. -/
def State.baseStore (s : State) (die part sec : Nat) (bs : List Byte) (mask : LaneMask) : State :=
  ({ s with wbuf := updateAll (fun w => w.die == die && w.sec == sec) (fun w => { w with mask := w.mask &&& ~~~mask }) s.wbuf }).basePutMasked
    part sec bs mask

/-- The base die takes a write-back (R359, R360). -/
def State.ackEntry (s : State) (w : WbEntry) : State :=
  let s := (s.basePutMasked w.part w.sec w.bytes w.mask).charge w.part w.die 2 32
  if w.whole then { s with poison := s.poison.filter (· != w.sec) } else s

/-- Every write-back that satisfies `p` acknowledged (R359), oldest first. -/
def State.ackAll (s : State) (p : WbEntry → Bool) : State :=
  let s' := (s.wbuf.filter p).foldl State.ackEntry s
  { s' with wbuf := s'.wbuf.filter fun w => !p w }

/-- Whether the die's write-back buffer holds a sector whole (R359). -/
def State.buffered (s : State) (die sec : Nat) : Bool := s.wbuf.any fun w => w.die == die && w.sec == sec && w.whole

/-- A sector fetched from beyond L2 (R357, R359): its bytes, whether they are uncorrectable. The write-back buffer serves one that it holds
whole; else no read of the sector leaves the die before the base die has acknowledged what the buffer holds of it. -/
def State.fetchSector (s : State) (die part sec : Nat) : List Byte × Bool × State :=
  if s.buffered die sec then (s.beyond die sec, false, s)
  else
    let t := (s.ackAll fun w => w.die == die && w.sec == sec).touch [32 * sec]
    (memRead t.mem (32 * sec) 32, decide (sec ∈ t.poison), t.chargeFetch part die)

/-! ### L2 (R177, R270, R271) -/

/-- The die's L2 copy of a sector within a partition (R270). -/
def State.l2Find (s : State) (die part sec : Nat) : Option L2Sector :=
  s.l2.find? fun x => x.die == die && x.part == part && x.sec == sec

/-- One L2 sector changed. -/
def State.l2Set (s : State) (die part sec : Nat) (f : L2Sector → L2Sector) : State :=
  { s with l2 := updateAll (fun y => y.die == die && y.part == part && y.sec == sec) f s.l2 }

def State.l2Drop (s : State) (p : L2Sector → Bool) : State := { s with l2 := s.l2.filter fun x => !p x }
def State.l1Drop (s : State) (p : L1Sector → Bool) : State := { s with l1 := s.l1.filter fun x => !p x }

/-- Whether a sector is of a line of 256 bytes, within a die and partition. -/
def L2Sector.ofLine (x : L2Sector) (die part line : Nat) : Bool := x.die == die && x.part == part && x.sec / 8 == line

/-- Replacement ranks (R17, R271): 0 first to evict, 1 normal, 2 last to evict. -/
def rankOf : Cp → Nat
  | .strm => 0
  | .keep => 2
  | _ => 1

/-- Quadrants of a die with a PART (R268, R270): k of the slice group, at least 1. -/
def State.sliceQuads (s : State) (die part : Nat) : Nat :=
  max 1 ((List.range 4).countP fun q => match s.gates[4 * die + q]? with
    | some g => g.part == part
    | none => false)

/-- The slice and set of a line (R270), by its line number. -/
def State.sliceSet (s : State) (die part line : Nat) : Nat × Nat :=
  let h := bits line 0 16 ^^^ bits line 16 16
  (h % (8 * s.sliceQuads die part), bits line 0 9 ^^^ bits line 9 9)

/-- The lines that stand in the set of a line, most recently used first. -/
def State.setLines (s : State) (die part line : Nat) : List Nat :=
  let at_ := s.sliceSet die part line
  distinct ((s.l2.filter fun x => x.die == die && x.part == part && s.sliceSet die part (x.sec / 8) == at_).map fun x => x.sec / 8)

/-- The line that replacement chooses in the set of a line (R271): the lowest rank, of those the least recently used. -/
def State.victim (s : State) (die part line : Nat) : Option Nat :=
  let lines := s.setLines die part line
  let rank (l : Nat) : Nat := ((s.l2.find? fun x => x.ofLine die part l).map (·.rank)).getD 1
  let least := lines.foldl (fun r l => min r (rank l)) 2
  (lines.filter fun l => rank l == least).getLast?

/-- A line leaves L2 (R177, R271, R359): its dirty bytes go to the write-back buffer; a dirty sector in error is discarded and its
context ends. -/
def State.evictLine (s : State) (die part line : Nat) : State :=
  let gone := s.l2.filter fun x => x.ofLine die part line && x.dirty != 0
  { s with
    l2 := s.l2.filter fun x => !x.ofLine die part line
    wbuf := s.wbuf ++ (gone.filter fun x => !x.bad).map fun x => ⟨x.die, x.part, x.vf, x.sec, x.bytes, x.dirty, x.dirty == 0xFFFFFFFF⟩
    kills := s.kills ++ (gone.filter (·.bad)).map fun x => (x.vf, x.part, 32 * x.sec) }

/-- Ways of a set of a slice (R270). -/
def l2Ways : Nat := 16

/-- The line of a sector is now the most recently used of its set. -/
def State.l2Touch (s : State) (die part sec : Nat) : State :=
  let (l, r) := s.l2.partition fun x => x.ofLine die part (sec / 8)
  { s with l2 := l ++ r }

/-- A sector allocated in L2 (R177, R271): in a line that is there it takes the line's tag and rank (log 40); a new line may replace
another. -/
def State.l2New (s : State) (x : L2Sector) : State :=
  match s.l2.find? fun y => y.ofLine x.die x.part (x.sec / 8) with
  | some y => ({ s with l2 := { x with vf := y.vf, rank := y.rank } :: s.l2 }).l2Touch x.die x.part x.sec
  | none =>
    let t : State := if (s.setLines x.die x.part (x.sec / 8)).length < l2Ways then s
      else match s.victim x.die x.part (x.sec / 8) with
        | some l => s.evictLine x.die x.part l
        | none => s
    { t with l2 := x :: t.l2 }

/-- A sector read at the L2 slice (R271, R301): its bytes, whether they are uncorrectable, and the state with the sector
filled. A sector that is not clean and whole, or wholly dirty, is fetched and overlaid with its dirty bytes; a clean sector in error
is fetched again; a dirty one is discarded and its context will be terminated. -/
def State.readDie (s : State) (die part vf sec : Nat) (cp : Cp) : List Byte × Bool × State :=
  match s.l2Find die part sec with
  | some x =>
    let s := s.l2Touch die part sec
    if x.bad && x.dirty != 0 then
      let s := s.l2Drop fun y => y.die == die && y.part == part && y.sec == sec
      (x.bytes, true, { s with kills := s.kills ++ [(x.vf, x.part, 32 * sec)] })
    else if !x.bad && (x.dirty == 0xFFFFFFFF || (x.dirty == 0 && x.valid == 0xFFFFFFFF)) then (x.bytes, false, s)
    else
      let (base, bad, s) := s.fetchSector die part sec
      let bs := overlay base x.bytes x.dirty
      if bad then
        (bs, true, if x.bad then s.l2Drop fun y => y.die == die && y.part == part && y.sec == sec else s)
      else (bs, false, s.l2Set die part sec fun y => { y with bytes := bs, valid := 0xFFFFFFFF, bad := false })
  | none =>
    let (base, bad, s) := s.fetchSector die part sec
    if bad then (base, true, s)
    else if cp = .na then (base, false, s)
    else (base, false, s.l2New ⟨die, part, vf, sec, base, 0xFFFFFFFF, 0, rankOf cp, false⟩)

/-- Bytes of one sector stored at the L2 slice (R177): a store reads no memory; a new sector holds only the stored bytes, and so does
a clean one in error. Under .na a store that misses goes to the base die. -/
def State.storeDie (s : State) (die part vf sec : Nat) (cp : Cp) (bs : List Byte) (mask : LaneMask) : State :=
  match s.l2Find die part sec with
  | some _ =>
    (s.l2Touch die part sec).l2Set die part sec fun y =>
      if y.bad && y.dirty == 0 then { y with bytes := overlay y.bytes bs mask, valid := mask, dirty := mask, bad := false }
      else { y with bytes := overlay y.bytes bs mask, valid := y.valid ||| mask, dirty := y.dirty ||| mask }
  | none =>
    if cp = .na then (s.baseStore die part sec bs mask).request part die 32
    else s.l2New ⟨die, part, vf, sec, overlay [] bs mask, mask, mask, rankOf cp, false⟩

/-- Bytes of one sector stored at .pkg or .sys: into L2, and through to the base die (R176). -/
def State.storePkg (s : State) (die part vf sec : Nat) (bs : List Byte) (mask : LaneMask) : State :=
  let s := (s.baseStore die part sec bs mask).request part die 32
  match s.l2Find die part sec with
  | some _ =>
    (s.l2Touch die part sec).l2Set die part sec fun y =>
      { y with bytes := overlay y.bytes bs mask, valid := y.valid ||| mask, dirty := y.dirty &&& ~~~mask }
  | none => s.l2New ⟨die, part, vf, sec, overlay [] bs mask, mask, 0, 1, false⟩

/-- A sector read at .pkg or .sys (R176, R301): the base die, once it has what the die's write-back buffer held of the sector (R359),
overlaid with the die's dirty bytes; clean copies in the die's L2 are replaced. -/
def State.readPkg (s : State) (die part sec : Nat) : List Byte × Bool × State :=
  let s := s.ackAll fun w => w.die == die && w.sec == sec
  let (base, bad, s) := s.fetchSector die part sec
  match s.l2Find die part sec with
  | some x =>
    if x.bad && x.dirty != 0 then
      let s := s.l2Drop fun y => y.die == die && y.part == part && y.sec == sec
      (base, true, { s with kills := s.kills ++ [(x.vf, x.part, 32 * sec)] })
    else if bad && x.dirty != 0xFFFFFFFF then
      (overlay base x.bytes x.dirty, true, if x.bad then s.l2Drop fun y => y.die == die && y.part == part && y.sec == sec else s)
    else
      (overlay base x.bytes x.dirty, false,
        s.l2Set die part sec fun y => { y with bytes := overlay base y.bytes y.dirty, valid := 0xFFFFFFFF, bad := false })
  | none => (base, bad, s)

/-- Dirty bytes of one L2 sector moved to the base die and acknowledged at once. -/
def State.cleanSector (s : State) (x : L2Sector) : State :=
  ((s.baseStore x.die x.part x.sec x.bytes x.dirty).charge x.part x.die 2 32).l2Set x.die x.part x.sec fun y => { y with dirty := 0 }

/-- The die's L2 writes back every dirty sector tagged with a partition, and waits for the acknowledgements (R185, R309). A
dirty sector in error is discarded (R271). -/
def State.cleanPart (s : State) (p : L2Sector → Bool) : State :=
  (s.l2.filter fun x => p x && x.dirty != 0).foldl
    (fun s x =>
      if x.bad then
        let s := s.l2Drop fun y => y.die == x.die && y.part == x.part && y.sec == x.sec
        { s with kills := s.kills ++ [(x.vf, x.part, 32 * x.sec)] }
      else s.cleanSector x) s

/-- Key material of a VF (R393): the first 16 bytes of HMAC-SM3 over label and VF number; `labelText` as its ASCII codes. -/
def State.vfKey (s : State) (vf : Nat) (labelText : List Nat) : List Byte :=
  match s.vfs.find? (fun v => v.vf == vf) with
  | some v =>
    ((Config.hmacSm3 (v.secret.getD []) (labelText.map (BitVec.ofNat 8) ++ bytesOfNat 2 vf)).take 16)
  | none => []

/-- The root's own keys of the same kinds (R393), from the device secret; no VF number follows the label (log 10). -/
def rootKey (labelText : List Nat) : List Byte := (Config.hmacSm3 Config.deviceSecret (labelText.map (BitVec.ofNat 8))).take 16

/-- ASCII of the labels of R393. -/
def labelMemx1 : List Nat := [77, 69, 77, 88, 49]
def labelMemx2 : List Nat := [77, 69, 77, 88, 50]
def labelHost : List Nat := [72, 79, 83, 84]
def labelQueue : List Nat := [81, 85, 69, 85, 69]
def labelLoad : List Nat := [76, 79, 65, 68]
def labelSave : List Nat := [83, 65, 86, 69]
def labelDump : List Nat := [68, 85, 77, 80]

/-- The pair of keys of a sector (R393, R396): data and tweak key of a VF, or the root's. Memory holds what each sector's own pair decrypts: a
handle's under the pair of its VF, whichever agent writes or reads it (log 70), the others' under the root's. -/
def State.vfPair (s : State) (vf : Nat) : List Byte × List Byte := (s.vfKey vf labelMemx1, s.vfKey vf labelMemx2)
def rootPair : List Byte × List Byte := (rootKey labelMemx1, rootKey labelMemx2)

/-- A sector written under one pair and read under another (R396): its tweak is its number. -/
def reread (old new : List Byte × List Byte) (sec : Nat) (bs : List Byte) : List Byte :=
  slice (Config.xtsOpen new.1 new.2 sec (Config.xtsSeal old.1 old.2 sec bs)) 0 32

/-- A sector of memory, then those of a 64 KiB page, written under one pair, as another reads them (R396). -/
def rereadSec (old new : List Byte × List Byte) (m : Mem) (sec : Nat) : Mem :=
  memWrite m (32 * sec) (reread old new sec (memRead m (32 * sec) 32))
def State.rereadPage (s : State) (old new : List Byte × List Byte) (page : Nat) : State :=
  { s with mem := ((List.range 2048).map (2048 * page + ·)).foldl (rereadSec old new) s.mem }

/-- The IV of a host block (R397). -/
def hostIv (vf dir ctr : Nat) : List Byte := bytesOfNat 2 vf ++ [BitVec.ofNat 8 dir, 0] ++ bytesOfNat 8 ctr

/-- The window that covers a physical address of the host aperture (R397): data base, tag base, offset. -/
def State.windowOf (s : State) (pa : Nat) : Option (Nat × Nat × Nat) :=
  s.handles.findSome? fun h =>
    match h.kind with
    | .window d tb len base => if base ≤ pa ∧ pa < base + len then some (d, tb, pa - base) else none
    | .memory _ => none

/-- A host block read and verified (R397): the plaintext of the 256-byte block at window offset `o`, none when the tag of
neither direction verifies. -/
def State.hostBlock (s : State) (vf d tb o : Nat) : Option (List Byte) :=
  let o := o / 256 * 256
  let ct := memRead s.hmem (d + o) 256
  let tag := memRead s.hmem (tb + o / 8) 32
  let key := s.vfKey vf labelHost
  let ctr := field tag 16 8
  match Config.gcmOpen key (hostIv vf 0 ctr) (bytesOfNat 8 o) ct (tag.take 16) with
  | some p => some p
  | none => Config.gcmOpen key (hostIv vf 1 ctr) (bytesOfNat 8 o) ct (tag.take 16)

/-- A read of a HOST page that stays in one block (R397): the bytes, and whether they are uncorrectable. -/
def State.hostRead (s : State) (vf pa n : Nat) : List Byte × Bool :=
  match s.windowOf pa with
  | none => (List.replicate n 0, true)
  | some (d, tb, o) =>
    match s.hostBlock vf d tb o with
    | some p => (slice p (o % 256) n, false)
    | none => (List.replicate n 0, true)

/-- A write to a HOST page that stays in one block (R397): merge, seal under the VF's device counter plus 1, write the block
and then its tag record. -/
def State.hostWrite (s : State) (vf pa : Nat) (bs : List Byte) : State :=
  match s.windowOf pa with
  | none => s
  | some (d, tb, o) =>
    let blk := o / 256 * 256
    let old := if bs.length = 256 then some [] else s.hostBlock vf d tb o
    match old with
    | none => s
    | some p =>
      let pt := (List.range 256).map fun i =>
        if o % 256 ≤ i ∧ i < o % 256 + bs.length then bs.getD (i - o % 256) 0 else p.getD i 0
      let ctr := ((s.vfs.find? (fun v => v.vf == vf)).map (·.devCtr)).getD 0 + 1
      let (ct, tag) := Config.gcmSeal (s.vfKey vf labelHost) (hostIv vf 0 ctr) (bytesOfNat 8 blk) pt
      { s with
        hmem := memWrite (memWrite s.hmem (d + blk) ct) (tb + blk / 8) (tag.take 16 ++ bytesOfNat 8 ctr ++ bytesOfNat 8 0)
        vfs := updateFirst (fun v => v.vf == vf) (fun v => { v with devCtr := ctr }) s.vfs }

end Sys2Proof.Machine
end

