-- ==== Sys2Proof/Machine/Xlate.lean ====
section
/-! DEFINITION. Address translation in two stages, TLBs and open misses (R2, R173, R276 to R282, R442). -/
namespace Sys2Proof.Machine

/-- Bits [63:55] equal bit 54 (R2). -/
def canonical (a : W64) : Bool := (a.extractLsb' 54 10 == 0) || (a.extractLsb' 54 10 == 0x3FF)

/-- The 55 significant bits of a virtual address (R2). -/
def va55 (a : W64) : Nat := a.toNat % 2 ^ 55

/-- A leaf of a table (R277, R278): first 64 KiB page, whether it maps 512 MiB, permissions, kind. -/
structure Leaf where
  page : Nat
  big : Bool
  r : Bool
  w : Bool
  x : Bool
  kind : Kind
  deriving DecidableEq, Repr

/-- What an entry gives at its level (R279). -/
inductive Entry where
  | invalid
  | table (base : Nat)
  | leaf (l : Leaf)
  deriving DecidableEq, Repr

/-- Whether L of an entry is allowed at its level, and a 512 MiB leaf is aligned (R277). -/
def levelOk (level : Nat) (l : Bool) (page : Nat) : Bool :=
  match level with
  | 1 => !l
  | 2 => !l || page % 8192 == 0
  | _ => l

/-- A stage-1 entry (R277, R279). -/
def entry1 (level e : Nat) : Entry :=
  let l := e.testBit 1
  let page := bits e 16 39
  if !e.testBit 0 || bits e 5 11 != 0 || bits e 55 9 != 0 || !levelOk level l page then .invalid
  else if l then .leaf ⟨page, level == 2, e.testBit 2, e.testBit 3, e.testBit 4, .normal⟩
  else .table (page * 65536)

/-- KIND of a stage-2 leaf (R278). -/
def kindOf : Nat → Option Kind
  | 0 => some .normal
  | 1 => some .atomicHome
  | 2 => some .host
  | _ => none

/-- Whether a page of a kind may lie at a physical page (R278). -/
def kindRange (k : Kind) (page : Nat) : Bool := (k == .host) == decide (Config.hostAperture ≤ page * 65536)

/-- A stage-2 entry (R278, R279). -/
def entry2 (level e : Nat) : Entry :=
  let l := e.testBit 1
  let page := bits e 16 24
  if !e.testBit 0 || bits e 7 9 != 0 || bits e 40 24 != 0 || !levelOk level l page then .invalid
  else if l then
    match kindOf (bits e 5 2) with
    | some k => if kindRange k page then .leaf ⟨page, level == 2, e.testBit 2, e.testBit 3, e.testBit 4, k⟩ else .invalid
    | none => .invalid
  else if page * 65536 < Config.hostAperture then .table (page * 65536) else .invalid

/-- Index of an input address at a level (R276). -/
def tableIndex (x level : Nat) : Nat := bits x (16 + 13 * (3 - level)) 13

/-- 8 bytes of a table read at the L2 slice of a die (R280). The translation agent of stack k's base die is numbered 6 + k and reads
the base die's memory (R364). -/
def State.readTable (s : State) (die part vf pa : Nat) : Nat × Bool × State :=
  let (bs, bad, s) := s.readDie die part vf (secOf pa) (if die < 6 then .dflt else .na)
  (field bs (pa % 32) 8, bad, s)

/-- A stage-2 entry read (R280); the root rebuilds one whose data are uncorrectable and the walk reads it again (R442, log 12). -/
def State.readRoot (s : State) (die part vf pa : Nat) : Nat × State :=
  match s.readTable die part vf pa with
  | (e, false, s) => (e, s)
  | (_, true, s) =>
    let sec := secOf pa
    let s := ({ s with poison := s.poison.filter (· != sec) } : State).l2Drop fun x => x.sec == sec
    (natOfBytes (memRead s.mem pa 8), s)

/-- The stage-2 walk from level `4 - n` (R276). -/
def State.walk2 (s : State) (die part vf x : Nat) : Nat → Nat → Option Leaf × State
  | 0, _ => (none, s)
  | n + 1, t =>
    let (e, s) := s.readRoot die part vf (t + 8 * tableIndex x (3 - n))
    match entry2 (3 - n) e with
    | .invalid => (none, s)
    | .leaf l => (some l, s)
    | .table b => s.walk2 die part vf x n b

/-- The page of a leaf that an address falls in, and the address mapped. -/
def Leaf.map (l : Leaf) (x : Nat) : Nat := l.page * 65536 + x % (if l.big then 2 ^ 29 else 65536)

/-- How a two-stage walk ends (R281): a combined mapping, a failure of stage 1, or one of stage 2 that first goes to the root. -/
inductive WalkEnd where
  | mapped (l1 l2 : Leaf)
  | stage1 (f : WalkFault)
  | stage2 (f : WalkFault)
  deriving DecidableEq, Repr

/-- A stage-1 entry read (R276, R280): at the L2 slice on a NORMAL page, at the base die on an ATOMIC_HOME page, which L2 never holds
(R271), at the host port on a HOST page. -/
def State.readEntry (s : State) (die part vf : Nat) (kind : Kind) (pa : Nat) : Nat × Bool × State :=
  match kind with
  | .normal => s.readTable die part vf pa
  | .atomicHome => (natOfBytes (memRead s.mem pa 8), s.baseBad pa 8, (s.touch [pa]).chargeFetch part die)
  | .host =>
    let (bs, bad) := s.hostRead vf pa 8
    (natOfBytes bs, bad, s.chargeFetch part die)

/-- The stage-1 walk with stage 2 below it (R276, R279, R280, R442). -/
def State.walk1 (s : State) (die part vf root2 x : Nat) : Nat → Nat → WalkEnd × State
  | 0, _ => (.stage1 .unmapped, s)
  | n + 1, t =>
    let ia := t + 8 * tableIndex x (3 - n)
    match s.walk2 die part vf ia 3 root2 with
    | (none, s) => (.stage2 .unmapped, s)
    | (some l2, s) =>
      if !l2.r then (.stage2 .permission, s)
      else
        let (e, bad, s) := s.readEntry die part vf l2.kind (l2.map ia)
        if bad then (.stage1 .dataError, s)
        else match entry1 (3 - n) e with
          | .invalid => (.stage1 .unmapped, s)
          | .table b => s.walk1 die part vf root2 x n b
          | .leaf l1 =>
            match s.walk2 die part vf (l1.map x) 3 root2 with
            | (none, s) => (.stage2 .unmapped, s)
            | (some l, s) => (.mapped l1 l, s)

/-- A context of a partition (R331). -/
def State.ctx (s : State) (vf part : Nat) : Option Ctx := s.ctxs.find? fun c => c.vf == vf && c.part == part

/-- One context changed. -/
def State.setCtx (s : State) (vf part : Nat) (f : Ctx → Ctx) : State :=
  { s with ctxs := updateFirst (fun c => c.vf == vf && c.part == part) f s.ctxs }

/-- The walk of a context's virtual address (R276). A context that does not exist maps nothing. -/
def State.walkVa (s : State) (die part vf : Nat) (va : Nat) : WalkEnd × State :=
  match s.ctx vf part with
  | none => (.stage1 .unmapped, s)
  | some c => s.walk1 die part vf c.s2root va 3 c.s1root

/-- The combined mapping of two leaves (R279): size the smaller, permissions ANDed, kind of stage 2. -/
def combine (die : Nat) (core : Option (Nat × Nat)) (part vf va : Nat) (l1 l2 : Leaf) : TlbEntry :=
  let big := l1.big && l2.big
  let pages := if big then 8192 else 1
  let page := va / 65536
  { die, core, part, vf, pages
    vpage := page / pages * pages
    ppage := l2.map (l1.map va) / 65536 / pages * pages
    r := l1.r && l2.r, w := l1.w && l2.w, x := l1.x && l2.x, kind := l2.kind }

/-- Whether an entry maps a page of a context on a die (R280). -/
def TlbEntry.hits (e : TlbEntry) (die part vf page : Nat) : Bool :=
  e.die == die && e.part == part && e.vf == vf && decide (e.vpage ≤ page ∧ page < e.vpage + e.pages)

/-- The mapping held for a page in the TLB of a core or the die's last-level TLB (R280). -/
def State.tlbFind (s : State) (die : Nat) (core : Option (Nat × Nat)) (part vf page : Nat) : Option TlbEntry :=
  match s.tlb.find? (fun e => e.hits die part vf page && e.core.isSome && e.core == core) with
  | some e => some e
  | none => s.tlb.find? (fun e => e.hits die part vf page && e.core.isNone)

/-- The set of a die's last-level TLB that holds a page, of 4,096 (R280, log 41). -/
def tlbSetOf (e : TlbEntry) : Nat := Config.tlbSet e.part e.vf e.vpage % Config.tlbSets

/-- The entries of one TLB among which a new one may replace another (R280, R364): all 256 of a core's and 4,096 of an agent's, the 8 of
a set of a die's last-level TLB. -/
def State.tlbRivals (s : State) (e : TlbEntry) : List TlbEntry × Nat :=
  let own := s.tlb.filter fun x => x.die == e.die && x.core == e.core
  if e.core.isSome then (own, Config.tlbEntries)
  else if 6 ≤ e.die then (own, 4096)
  else if own.length < Config.tlbWays then (own, Config.tlbWays)
  else (own.filter fun x => tlbSetOf x == tlbSetOf e, Config.tlbWays)

/-- A mapping entered in a TLB, the oldest entry of a full one or of a full set dropped (R280). -/
def State.tlbAdd (s : State) (e : TlbEntry) : State :=
  let (own, n) := s.tlbRivals e
  { s with tlb := e :: if own.length < n then s.tlb else s.tlb.erase (own.getLastD e) }

/-- A translated address. -/
structure Xl where
  pa : Nat
  r : Bool
  w : Bool
  x : Bool
  kind : Kind
  deriving DecidableEq, Repr

/-- The address that an entry maps an address to. -/
def TlbEntry.at (e : TlbEntry) (va : Nat) : Xl := ⟨e.ppage * 65536 + (va - e.vpage * 65536), e.r, e.w, e.x, e.kind⟩

/-- The pages a MAP recorded for an intermediate page (R400), with kind: what the root installs on a stage-2 failure (R281). -/
def State.mapFor (s : State) (vf part ipage : Nat) : Option (Nat × Kind) :=
  s.maps.findSome? fun m =>
    if m.vf == vf && m.part == part && decide (m.ipage ≤ ipage ∧ ipage < m.ipage + m.ppages.length) then
      some (m.ppages.getD (ipage - m.ipage) 0, m.kind)
    else none

/-- Translation by an agent that waits for its walk at once: an engine, a spill, the root (R276, R281). The root finds no
mapping for a stage-2 failure that its records do not hold (log 12). The walk's mapping is entered in the die's last-level TLB, or in
the agent's own (DESIGN CHOICE, log 59). -/
def State.translate (s : State) (die part vf : Nat) (a : W64) : Except WalkFault Xl × State :=
  if !canonical a then (.error .unmapped, s)
  else
    let va := va55 a
    match s.tlbFind die none part vf (va / 65536) with
    | some e => (.ok (e.at va), s)
    | none =>
      match s.walkVa die part vf va with
      | (.mapped l1 l2, s) =>
        let e := combine die none part vf va l1 l2
        (.ok (e.at va), s.tlbAdd e)
      | (.stage1 f, s) => (.error f, s)
      | (.stage2 f, s) => (.error f, s)

/-- Translation with a permission (R279): a mapping without it is a permission fault. -/
def State.translateFor (s : State) (die part vf : Nat) (a : W64) (need : Xl → Bool) : Except WalkFault Xl × State :=
  match s.translate die part vf a with
  | (.ok x, s) => if need x then (.ok x, s) else (.error .permission, s)
  | r => r

/-- The open miss of a core for a page (R173). -/
def State.missFind (s : State) (die cluster core part vf page : Nat) : Option Miss :=
  s.misses.find? fun m =>
    m.die == die && m.cluster == cluster && m.core == core && m.part == part && m.vf == vf && m.vpage == page

/-- What a lookup for a group's access finds (R173): a mapping, the failure of a completed walk, or nothing yet. -/
inductive Lookup where
  | hit (x : Xl)
  | failed (f : WalkFault)
  | miss
  deriving DecidableEq, Repr

/-- The lookup of a core for a virtual address of the selected path (R173, R280): no fault is cached, but for the instruction whose walk
has failed. -/
def State.lookup (s : State) (failed : List (Nat × WalkFault)) (die cluster core part vf : Nat) (a : W64) : Lookup :=
  if !canonical a then .failed .unmapped
  else
    let va := va55 a
    match s.tlbFind die (some (cluster, core)) part vf (va / 65536) with
    | some e => .hit (e.at va)
    | none =>
      match failed.find? fun x => x.1 == va / 65536 with
      | some x => .failed x.2
      | none => .miss

/-- A miss entered in the core's miss table unless it is there already or the table is full (R173). -/
def State.openMiss (s : State) (die cluster core part vf page : Nat) : State :=
  if (s.missFind die cluster core part vf page).isSome then s
  else if Config.missEntries ≤ (s.misses.filter fun m => m.die == die && m.cluster == cluster && m.core == core).length then s
  else { s with misses := s.misses ++ [⟨die, cluster, core, part, vf, page, false⟩] }

end Sys2Proof.Machine
end

