-- ==== Sys2Proof/Machine/Network.lean ====
section
/-! DEFINITION. The memory network: ports, routes, packets and the ports to other packages (R352 to R361, R414). -/
namespace Sys2Proof.Machine

/-- Where an access comes from. -/
structure Here where
  die : Nat
  cluster : Nat
  core : Nat
  part : Nat
  vf : Nat
  deriving DecidableEq, Repr

def Group.here (g : Group) : Here := ⟨g.die, g.cluster, g.core, g.part, g.vf⟩
def StoreOp.here (o : StoreOp) : Here := ⟨o.die, o.cluster, o.core, o.part, o.vf⟩

/-- A cluster number that no core has: accesses of an engine meet no core's L1. -/
def noCluster : Nat := 40

/-- A base-die agent of a stack, acting for a context (R297, R364): it meets no die's caches. -/
def agentHere (stack part vf : Nat) : Here := ⟨6 + stack, noCluster, 0, part, vf⟩

/-! ### Ports and routes -/

/-- The stack at which a quadrant's requests enter the network (R355). -/
def entryStack (die quad : Nat) : Nat := (2 * die + quad) % 12

/-- The dies and edge ports that a stack serves (R355). -/
def servedPorts (stack : Nat) : List (Nat × Nat) := [(stack / 2, stack % 2), ((stack / 2 + 5) % 6, 2 + stack % 2)]

/-- Offsets of the hops between two stacks (R356). -/
def hopOffsets (d : Nat) : List Nat :=
  match d with
  | 1 => [1]
  | 2 => [1, 1]
  | 3 => [3]
  | 4 => [1, 3]
  | 5 => [6, 11]
  | 6 => [6]
  | 7 => [6, 1]
  | 8 => [11, 9]
  | 9 => [9]
  | 10 => [11, 11]
  | 11 => [11]
  | _ => []

/-- The stacks that a packet from stack `e` to stack `t` passes after `e` (R356). -/
def route (e t : Nat) : List Nat := (hopOffsets ((t + 12 - e) % 12)).foldl (fun l h => l ++ [(l.getLast?.getD e + h) % 12]) []

/-- The working external port that takes a plane's traffic from an entry stack (R414): of the plane, or of the next one above it,
cyclically, that has one; the fewest hops, then the lowest number. -/
def State.exitPort (s : State) (entry plane : Nat) : Option Nat :=
  (List.range s.planesP).findSome? fun k =>
    let ports := (List.range 24).filter fun x => x % s.planesP == (plane + k) % s.planesP && decide (x ∉ s.badPorts)
    ports.foldl (fun (b : Option Nat) x => match b with
      | some y => if (route entry (x / 2)).length < (route entry (y / 2)).length then some x else some y
      | none => some x) none

/-! ### Packets -/

/-- The stack at which a packet enters the network: that of its edge port (R355), or the one whose agents send it. -/
def Packet.entry (p : Packet) : Nat := if p.port < 4 then entryStack p.die p.port else p.port - 4

/-- Port number of the agents of a stack. -/
def agentPort (stack : Nat) : Nat := 4 + stack

/-- The stack that a packet goes to: that of its channel, of the edge port for which an answer is, or of the port by which a message
leaves the package. -/
def State.target (s : State) (p : Packet) : Option Nat :=
  if p.msg.isSome then (s.exitPort p.entry p.ch).map (· / 2)
  else if p.what = .answer then some (entryStack p.die p.ch)
  else some (p.ch / 32)

/-- Whether a packet brings a command to what it is for. -/
def Packet.command (p : Packet) : Bool := p.msg.isNone && p.what == .command

/-- Classes whose packets wait for credit (R357, R360). -/
def Traffic.metered : Traffic → Bool
  | .req | .nmc | .coll | .xch => true
  | .rsp | .wb | .mgmt => false

/-- Whether a packet at its source must wait (R360, R361): for credit, where its class is metered and a partition and die are charged, or
for its edge port, which carries nothing in its idle link state. -/
def State.blocked (s : State) (p : Packet) : Bool :=
  (p.cls.metered && decide (s.creditNow p.part p.die ≤ 0)) ||
    (decide (p.port < 4) && decide (p.port ∈ ((s.dies[p.die]?).map (·.idlePorts)).getD []))

/-- A packet charged as it enters the network (R360): MGMT has no effect. -/
def State.toll (s : State) (p : Packet) : State := if p.cls = .mgmt then s else s.charge p.part p.die 1 p.bytes

/-- A packet waits in the queue of its class at its port (R358). -/
def State.putPacket (s : State) (p : Packet) : State := { s with inject := s.inject ++ [p] }

/-- Whether every command packet of an operation or result has reached what it is for. -/
def State.injected (s : State) (id : Nat) : Bool := s.inject.all fun p => p.id != id || !p.command

/-- Whether an earlier packet is before another in a queue (R358, R359): one of its class, source port, destination and line, at that port,
or in a virtual channel of a stack link, the channel being the number of hops taken. No other pair is ordered. -/
def Packet.before (q p : Packet) : Bool :=
  q.cls == p.cls && q.die == p.die && q.port == p.port && q.ch == p.ch && q.msg.isSome == p.msg.isSome && q.at_ == p.at_ &&
    (q.line.isNone || p.line.isNone || q.line == p.line)

/-! ### Messages to other packages (R357, R414) -/

/-- The package that a message is for; none for what the switch or the host side of this package takes. -/
def NetMsg.dest : NetMsg → Option Nat
  | .remote peer _ | .remoteReply peer _ _ _ | .fillReply peer _ => some peer
  | .row standby m => some (if standby then m.stby else m.prim)
  | .rowAck pkg _ _ _ | .query pkg _ _ | .roundDone pkg _ _ => some pkg
  | .calendar m => some m.pkg
  | .xch pkg _ | .remove pkg _ _ => some pkg
  | .rred _ | .rredResult _ _ _ _ | .drainedPlane _ => none

/-- A message of a partition's die or of a stack's agents sent: to this package it goes straight; to another, and to a switch, as a packet by a
port of a plane (R414). -/
def State.sendMsg (s : State) (cls : Traffic) (part vf die port bytes plane : Nat) (line : Option Nat) (m : NetMsg) : State :=
  if m.dest = some s.pkg then { s with net := s.net ++ [m] }
  else s.putPacket { part, vf, die, bytes, id := 0, cls, port, ch := plane % s.planesP, line, msg := some m }

/-- Messages of the root or a Weaver, which run in the root instance of stack 0 or 6 (R352, R357): class MGMT, which is not metered. They keep
their order (DESIGN CHOICE, log 57). -/
def State.sendFrom (s : State) (stack : Nat) (ms : List NetMsg) : State :=
  ms.foldl (fun s m => s.sendMsg .mgmt 31 0 (6 + stack) (agentPort stack) 0 (Config.plane ((m.dest).getD 0) 0) none m) s

/-- Answers of a base die to another package: class RSP, never metered there (R357, R358). -/
def State.answerFrom (s : State) (stack part vf bytes line : Nat) (m : NetMsg) : State :=
  s.sendMsg .rsp part vf (6 + stack) (agentPort stack) bytes (Config.plane ((m.dest).getD 0) line) (some line) m

/-! ### Reaching a context (R418) -/

/-- The policy in force for a context's VF. -/
def State.policyOf (s : State) (vf : Nat) : Option Policy := (s.vfs.find? fun v => v.vf == vf).bind (·.policy)

/-- The context that a PEERS entry names for a package: VF and partition. -/
def State.peerOf (s : State) (vf pkg : Nat) : Option (Nat × Nat) :=
  (s.policyOf vf).bind fun p => (p.peers.find? fun e => e.1 == pkg).map (·.2)

/-- Whether a context of package `pkg` reaches a context of this package (R418). -/
def State.exportsTo (s : State) (vf part pkg srcVf srcPart : Nat) : Bool :=
  match s.ctx vf part with
  | some c => c.state != .absent && c.state != .terminated &&
      match s.policyOf vf with
      | some p => (pkg, srcVf, srcPart) ∈ p.peers
      | none => false
  | none => false

/-- The virtual address of an offset in the export half (R418). -/
def exportVa (off : Nat) : W64 := 0xFFC0000000000000 + BitVec.ofNat 64 off

/-- An offset translated by a base die of this package through the exporting context (R418). -/
def State.exportMap (s : State) (vf part off : Nat) : Except WalkFault Xl × State :=
  if 2 ^ 54 ≤ off then (.error .unmapped, s)
  else
    let w := agentHere 0 part vf
    s.translateFor w.die w.part w.vf (exportVa off) fun _ => true

/-- Payload of a request to another package (R360). -/
def remPayload (bytes : Ty → Nat) : RemKind → Nat
  | .store bs => bs.length
  | .atomic _ ty _ _ => 2 * bytes ty
  | _ => 0

end Sys2Proof.Machine
end

