-- ==== Sys2Proof/Machine/SfuMath.lean ====
section
/-! DEFINITION. The special functions: an enclosure of the exact value, the bound of R160, and the result, a free value
within the bound (R158 to R160). Numbers are scaled by 2^300. -/
namespace Sys2Proof.Machine

/-- The scale of the enclosures. -/
def sfuScale : Nat := 300

/-- π and log2 e, times 2^256. -/
def piScaled : Nat := 0x3243f6a8885a308d313198a2e03707344a4093822299f31d0082efa98ec4e6c89
def log2eScaled : Nat := 0x171547652b82fe1777d0ffda0d23a7d11d6aef551bad2b4b1164a2cd9a342648f

/-- x × 2^sh rounded down. -/
def shiftInt (x : Int) (sh : Int) : Int := if 0 ≤ sh then x * 2 ^ sh.toNat else x / (2 ^ (-sh).toNat : Nat)

/-- 2^f for f = n / 2^100, times 2^100, within 1024: product of the square roots of 2 that the bits of f select. -/
def exp2Frac : Nat → Nat → Nat → Nat → Nat
  | 0, _, _, r => r
  | i + 1, f, c, r =>
    let c := Nat.sqrt (c * 2 ^ 100)
    exp2Frac i f c (if f.testBit i then r * c / 2 ^ 100 else r)

/-- An enclosure of 2^(x / 2^300), within one binade but for a power of two, which no x here but an integer has. -/
def encloseExp2 (x : Int) : Int × Int :=
  let k := max (-500) (min 300 (x / (2 ^ sfuScale : Nat)))
  let f := (x % (2 ^ sfuScale : Nat)).toNat / 2 ^ 200
  let r := exp2Frac 100 f (2 ^ 101) (2 ^ 100)
  (shiftInt (max ((r : Int) - 1024) (2 ^ 100 : Nat)) (k + 200), 
    min (shiftInt ((r : Int) + 1024) (k + 200) + 1) (max 1 (shiftInt 1 (k + 301) - 1)))

/-- Bits of log2 m for m in [1, 2) times 2^220, by repeated squaring. -/
def log2Frac : Nat → Nat → Nat → Nat
  | 0, _, acc => acc
  | i + 1, m, acc =>
    let q := m * m / 2 ^ 220
    if 2 ^ 221 ≤ q then log2Frac i (q / 2) (2 * acc + 1) else log2Frac i q (2 * acc)

/-- An enclosure of log2 (mant × 2^exp). -/
def encloseLog2 (mant : Nat) (exp : Int) : Int × Int :=
  let lg := Nat.log2 mant
  let f := log2Frac 90 (mant * 2 ^ 220 / 2 ^ lg) 0
  let t : Int := ((lg : Int) + exp) * (2 ^ 90 : Nat) + f
  (t * (2 ^ 210 : Nat), (t + 2) * (2 ^ 210 : Nat))

/-- Taylor terms from `t`, divided by n (n + 1), (n + 2)(n + 3), ...: their alternating sum; all times 2^128. -/
def taylor : Nat → Nat → Int → Int → Int
  | 0, _, _, t => t
  | i + 1, n, r2, t => t + taylor i (n + 2) r2 (-(t * r2 / (2 ^ 128 : Nat)) / ((n * (n + 1) : Nat) : Int))

/-- An enclosure of sin or cos of x / 2^300, with exact argument reduction. -/
def encloseSin (cosine : Bool) (x : Int) : Int × Int :=
  let r := x / (2 ^ 44 : Nat) % (2 * piScaled : Nat)
  let r := if (piScaled : Int) < r then r - (2 * piScaled : Nat) else r
  let r := r / (2 ^ 128 : Nat)
  let r2 := r * r / (2 ^ 128 : Nat)
  let t := if cosine then taylor 34 1 r2 (2 ^ 128 : Nat) else taylor 34 2 r2 r
  ((t - (2 ^ 30 : Nat)) * (2 ^ 172 : Nat), (t + (2 ^ 30 : Nat)) * (2 ^ 172 : Nat))

/-- An enclosure of tanh (x / 2^300). -/
def encloseTanh (x : Int) : Int × Int :=
  let one : Int := (2 ^ sfuScale : Nat)
  if 20 * one ≤ x then (one - (2 ^ 250 : Nat), one - 1)
  else if x ≤ -20 * one then (1 - one, (2 ^ 250 : Nat) - one)
  else
    let (e, _) := encloseExp2 (2 * x * (log2eScaled : Int) / (2 ^ 256 : Nat))
    let t := (e - one) * one / (e + one)
    (t - (2 ^ 220 : Nat), t + (2 ^ 220 : Nat))

/-- An enclosure of function `fn` of R158 at mant × 2^exp, sign `neg`, in a domain where it has a finite value. -/
def enclose (fn : Nat) (neg : Bool) (mant : Nat) (exp : Int) : Int × Int :=
  let x : Int := signedAt neg mant (exp + sfuScale) 0
  let sgn : Int := if neg then -1 else 1
  match fn with
  | 0 =>
    let q : Int := ((2 ^ (2 * sfuScale) : Nat) / x.natAbs : Nat)
    if neg then (sgn * q - 1, sgn * q) else (q, q + 1)
  | 1 =>
    let q : Int := Nat.sqrt (2 ^ (3 * sfuScale) / x.natAbs)
    (q, q + 2)
  | 3 => encloseExp2 x
  | 4 => encloseLog2 mant exp
  | 5 => encloseSin false x
  | 6 => encloseSin true x
  | _ => encloseTanh x

/-- The spacing of FP32 at a scaled value (R160). -/
def ulpScaled (v : Int) : Int :=
  let e : Int := max ((Nat.log2 v.natAbs : Int) - sfuScale) (-126) - 23
  (2 ^ (e + sfuScale).toNat : Nat)

/-- The bound of R160 for a function at its exact value. -/
def sfuBound (fn : Nat) (v : Int) : Int :=
  match fn with
  | 0 | 1 => ulpScaled v
  | 3 | 4 => 2 * ulpScaled v
  | 5 | 6 => (2 ^ (sfuScale - 22) : Nat)
  | _ => max (2 * ulpScaled v) (2 ^ (sfuScale - 24) : Nat)

/-- Where R160 asks for the exact result: XEXP2 of an integer, XLOG2 of a power of two. -/
def sfuExact (fn mant : Nat) (exp : Int) : Bool :=
  match fn with
  | 3 => 0 ≤ exp || mant % 2 ^ (-exp).toNat == 0
  | 4 => mant == 2 ^ Nat.log2 mant
  | _ => false

/-- Whether an encoding is a value of function `fn` that R160 allows, for an enclosure of the exact value: its ends lie in one binade, so the
smaller of their bounds is that of the exact value. -/
def sfuAllowed (fn : Nat) (enc : Int × Int) (y : W32) : Bool :=
  match decodeFp (fmtOf .f32) y.toNat with
  | .fin n m e =>
    let v := signedAt n m (e + sfuScale) 0
    let b := min (sfuBound fn enc.1) (sfuBound fn enc.2)
    decide (enc.1 - b ≤ v ∧ v ≤ enc.2 + b)
  | _ => false

/-- A scaled value rounded to FP32. -/
def roundScaled (v : Int) : W32 :=
  BitVec.ofNat 32 (roundFin (fmtOf .f32) .rne 0 false (decide (v < 0)) v.natAbs (-sfuScale)).1

/-- UF of R160: the result is subnormal, or zero from a nonzero exact value. -/
def sfuUf (exact0 : Bool) (y : W32) : Flags :=
  flagIf ((y.toNat / 2 ^ 23) % 256 == 0 && !(exact0 && y.toNat % 2 ^ 31 == 0)) fUF

/-- A free encoding that is no NaN but the canonical one (R99). -/
def freeF32 (y : W32) : W32 := if (decodeFp (fmtOf .f32) y.toNat).isNaN then 0x7FC00000 else y

/-- The result at a finite argument in the function's domain: the part's own function where it lies within the bound, and
free where the exact value lies beyond the largest finite number (log 6). XRCP of 2^127 gives 2^-127, as R160's example says; of −2^127 it
gives −2^-127, which the spec leaves open within 1 ulp (DESIGN CHOICE, log 67). -/
def sfuFinite (fn : Nat) (x : W32) (neg : Bool) (mant : Nat) (exp : Int) : W32 × Flags :=
  let enc := enclose fn neg mant exp
  if fn = 0 ∧ x.toNat % 2 ^ 31 = 0x7F000000 then (x - 0x7EC00000, fUF)
  else if fn = 3 ∧ ((2 ^ (128 + sfuScale) : Nat) : Int) ≤ enc.2 then (0x7F800000, fOF)
  else if sfuExact fn mant exp then
    let lg : Int := (Nat.log2 mant : Int) + exp
    let v : Int := if fn = 4 then lg * (2 ^ sfuScale : Nat)
      else shiftInt 1 (signedAt neg mant (max exp 0) 0 / (2 ^ (-exp).toNat : Nat) + sfuScale)
    let y := roundScaled v
    if fn = 3 ∧ v = 0 ∨ (fn = 3 ∧ y = 0) then
      let y := if sfuAllowed fn enc (Config.sfu fn x) then Config.sfu fn x else 0
      (y, sfuUf false y)
    else (y, sfuUf (v == 0) y)
  else if (2 ^ (128 + sfuScale) : Nat) ≤ enc.1.natAbs ∧ fn ≤ 1 then
    let y := freeF32 (Config.sfu fn x)
    (y, sfuUf false y)
  else
    let y := if sfuAllowed fn enc (Config.sfu fn x) then Config.sfu fn x else roundScaled ((enc.1 + enc.2) / 2)
    (y, sfuUf false y)

/-- XSQRT of a positive finite value: correctly rounded, RNE (R160). -/
def sqrtBits (mant : Nat) (exp : Int) : Nat :=
  let (m, e) := if exp % 2 = 0 then (mant * 2 ^ 100, exp - 100) else (mant * 2 ^ 101, exp - 101)
  let q := Nat.sqrt m
  (roundFin (fmtOf .f32) .rne 0 false false (2 * q + if q * q = m then 0 else 1) (e / 2 - 1)).1

/-- The canonical NaN of FP32, +0 or −0, 1 or −1, the infinities. -/
def f32NaN : W32 := 0x7FC00000
def f32Zero (neg : Bool) : W32 := if neg then 0x80000000 else 0
def f32One (neg : Bool) : W32 := if neg then 0xBF800000 else 0x3F800000
def f32Inf (neg : Bool) : W32 := if neg then 0xFF800000 else 0x7F800000

/-- One SFU function (R158, R160): 0 XRCP, 1 XRSQ, 2 XSQRT, 3 XEXP2, 4 XLOG2, 5 XSIN, 6 XCOS, 7 XTANH. -/
def sfuResult (fn : Nat) (x : W32) : W32 × Flags :=
  match decodeFp (fmtOf .f32) x.toNat with
  | .nan s => (f32NaN, flagIf s fNV)
  | .inf n =>
    match fn with
    | 0 => (f32Zero n, 0)
    | 1 => if n then (f32NaN, fNV) else (0, 0)
    | 2 | 4 => if n then (f32NaN, fNV) else (f32Inf false, 0)
    | 3 => if n then (0, 0) else (f32Inf false, 0)
    | 5 | 6 => (f32NaN, fNV)
    | _ => (f32One n, 0)
  | .fin n m e =>
    if m = 0 then
      match fn with
      | 0 | 1 => (f32Inf n, fDZ)
      | 3 | 6 => (f32One false, 0)
      | 4 => (f32Inf true, fDZ)
      | _ => (f32Zero n, 0)
    else if n && (fn == 1 || fn == 2 || fn == 4) then (f32NaN, fNV)
    else if fn = 2 then (BitVec.ofNat 32 (sqrtBits m e), 0)
    else sfuFinite fn x n m e

end Sys2Proof.Machine
end

