-- ==== Sys2Proof/Machine/Access.lean ====
section
/-! DEFINITION. Accesses performed at their points: loads, stores in the write-through queue, atomics, gang memory and
scratchpad (R168 to R182, R248, R297 to R307). -/
namespace Sys2Proof.Machine

/-- Registers a value of a type takes (R10, R170). -/
def tyRegs (t : Ty) : Nat := if t == .b128 then 4 else if t.is64 then 2 else 1

/-- Bits of an element in memory (R170, R171). -/
def tyBits : Ty → Nat
  | .i8 | .z8 | .b8 | .e4m3 | .e5m2 => 8
  | .i16 | .z16 | .b16 | .bf16 | .f16 => 16
  | .i64 | .z64 | .b64 | .f64 => 64
  | .b128 => 128
  | .e3m2 | .e2m3 => 6
  | .e2m1 => 4
  | _ => 32

/-- Bytes of an element in memory; 1 for a sub-byte type. -/
def tyBytes (t : Ty) : Nat := if t.isSub then 1 else tyBits t / 8

/-- What a load writes of an element's bits (R170). -/
def extendLoad (t : Ty) (v : Nat) : BitVec 128 :=
  match t with
  | .i8 => ((BitVec.ofNat 8 v).signExtend 32).zeroExtend 128
  | .i16 => ((BitVec.ofNat 16 v).signExtend 32).zeroExtend 128
  | _ => BitVec.ofNat 128 (v % 2 ^ tyBits t)

/-- The element's value in its bytes: at bit `bit` for a sub-byte type (R171). -/
def elementOf (t : Ty) (bit : Nat) (bs : List Byte) : BitVec 128 := extendLoad t (natOfBytes bs / 2 ^ bit)

/-- The bytes of a store over the old ones: whole bytes, or the element's bits alone for a sub-byte type (R171). -/
def mergeElement (t : Ty) (bit : Nat) (old : List Byte) (v : BitVec 128) : List Byte :=
  if t.isSub then
    let m := (2 ^ tyBits t - 1) * 2 ^ bit
    let o := natOfBytes old
    bytesOfNat old.length ((o &&& (2 ^ (8 * old.length) - 1 - m)) + v.toNat % 2 ^ tyBits t * 2 ^ bit)
  else bytesOfNat (tyBytes t) v.toNat

/-- The new value of an atomic step on `w`-bit values (R180). -/
def atomNew (op : AtomOp) (t : Ty) (old b c : Nat) : Nat :=
  let w := tyBits t
  let f := fmtOf t
  let signed : Bool := match t with
    | .i32 | .i64 => true
    | _ => false
  let lt (x y : Nat) : Bool := if signed then decide (signedOf w x < signedOf w y) else decide (x < y)
  match op with
  | .add => (old + b) % 2 ^ w
  | .min => if lt b old then b else old
  | .max => if lt old b then b else old
  | .and => old &&& b
  | .or => old ||| b
  | .xor => old ^^^ b
  | .exch => b
  | .cas => if old = c then b else old
  | .inc => if b ≤ old then 0 else old + 1
  | .dec => if old = 0 ∨ b < old then b else old - 1
  | .fadd => (roundFp f .rne 0 (addFp false (decodeFp f old) (decodeFp f b)).1).1
  | .fmin => (minmaxBits f false false old b).1
  | .fmax => (minmaxBits f true false old b).1

/-! ### Gangs and their local memories -/

/-- A gang by key; a gang without groups or memory when there is none. -/
def State.gang (s : State) (key : Nat) : Gang := (s.gangs.find? fun g => g.key == key).getD {}

/-- One gang changed. -/
def State.setGang (s : State) (key : Nat) (f : Gang → Gang) : State := { s with gangs := updateFirst (fun g => g.key == key) f s.gangs }

/-- First local address of the scratchpad (R169). -/
def spBase : Nat := 0x10000000

/-- Bytes of a gang's local memory (R169). -/
def Gang.localRead (g : Gang) (a n : Nat) : List Byte := if a < spBase then memRead g.gm a n else memRead g.sp (a - spBase) n

/-- Bytes written to a gang's local memory: a sector written whole is no longer uncorrectable. -/
def Gang.localWrite (g : Gang) (a : Nat) (bs : List Byte) : Gang :=
  let g := { g with bad := g.bad.filter fun x => !decide (a ≤ 32 * x ∧ 32 * x + 32 ≤ a + bs.length) }
  if a < spBase then { g with gm := memWrite g.gm a bs } else { g with sp := memWrite g.sp (a - spBase) bs }

/-- Whether the data of [a, a + n) of local memory are uncorrectable. -/
def Gang.localBad (g : Gang) (a n : Nat) : Bool := (sectorsOf a n).any fun x => x ∈ g.bad

/-- Whether [a, a + n) is inside the gang's gang memory or scratchpad (R169, R244, R274). -/
def Gang.localOk (g : Gang) (a n : Nat) : Bool :=
  decide (a + n ≤ g.shared) || decide (spBase ≤ a ∧ a + n ≤ spBase + 4096 * g.scratch)

/-- The tiles that [a, a + n) of local memory touches: (false, gang-memory tile of 1 KiB) or (true, scratchpad tile of 4 KiB). -/
def localTiles (a n : Nat) : List (Bool × Nat) :=
  if n = 0 then []
  else if a < spBase then (List.range ((a + n - 1) / 1024 - a / 1024 + 1)).map fun i => (false, a / 1024 + i)
  else
    let b := a - spBase
    (List.range ((b + n - 1) / 4096 - b / 4096 + 1)).map fun i => (true, b / 4096 + i)

/-- The owner of a tile (R247): THREAD unless listed. -/
def Gang.owner (g : Gang) (t : Bool × Nat) : Owner :=
  (((if t.1 then g.spOwn else g.gmOwn).find? fun x => x.1 == t.2).map (·.2)).getD .thread

/-- The owner of a tile set. -/
def Gang.setOwner (g : Gang) (t : Bool × Nat) (o : Owner) : Gang :=
  let upd (l : List (Nat × Owner)) := let r := l.filter fun x => x.1 != t.2; if o = .thread then r else (t.2, o) :: r
  if t.1 then { g with spOwn := upd g.spOwn } else { g with gmOwn := upd g.gmOwn }

/-! ### Stores in the write-through queue -/

/-- The sectors that a queued entry writes, or whose lines it cleans: of memory (0), or of a gang's local memory (its key + 1). -/
def StoreOp.secs (o : StoreOp) : List (Nat × Nat) :=
  let of (space : Nat) (lanes : List LaneAcc) := lanes.flatMap fun l => l.pieces.map fun p => (space, secOf p.pa)
  match o.kind with
  | .store _ _ lanes _ => of 0 lanes
  | .red _ _ _ _ lanes => of 0 lanes
  | .tile key _ lanes => of (key + 1) lanes
  | .cctl _ lines => lines.flatMap fun l => (List.range 8).map fun k => (0, 8 * l + k)
  | .remote _ _ => []

/-- A sub-byte element stored at .pkg or .sys (R171, R176): its bits alone, in the base die's byte and in the die's own copies of it. -/
def State.storeSub (s : State) (w : Here) (p : Piece) (merge : List Byte → List Byte) : State :=
  let sec := secOf p.pa
  let put (bs : List Byte) := overlay bs (placeIn sec p.pa (merge (slice bs (p.pa % 32) p.n))) (secMask sec p.pa p.n)
  (({ s with wbuf := updateAll (fun e => e.die == w.die && e.sec == sec) (fun e => { e with bytes := put e.bytes }) s.wbuf }).l2Set
    w.die w.part sec fun y => { y with bytes := put y.bytes }).basePut w.part p.pa (merge (memRead s.mem p.pa p.n)) |>.request w.part w.die p.n

/-- A piece of register data stored at a point (R176, R177, R300): `data` are the piece's bytes. -/
def State.storePiece (s : State) (w : Here) (sc : Scope) (cp : Cp) (p : Piece) (data : List Byte) : State :=
  match p.kind with
  | .atomicHome => (s.basePut w.part p.pa data).request w.part w.die data.length
  | .host => (s.hostWrite w.vf p.pa data).request w.part w.die data.length
  | .normal =>
    let sec := secOf p.pa
    let bs := placeIn sec p.pa data
    let m := secMask sec p.pa data.length
    match sc with
    | .pkg | .sys => s.storePkg w.die w.part w.vf sec bs m
    | _ => s.storeDie w.die w.part w.vf sec cp bs m

/-- The bytes at a point, as an access of the die reads them: at L2, or at the base die where `wide` (R301). -/
def State.readPiece (s : State) (w : Here) (wide : Bool) (cp : Cp) (p : Piece) : List Byte × Bool × State :=
  match p.kind with
  | .atomicHome => (memRead s.mem p.pa p.n, s.baseBad p.pa p.n, (s.touch [p.pa]).request w.part w.die p.n)
  | .host => let (bs, bad) := s.hostRead w.vf p.pa p.n; (bs, bad, s.request w.part w.die p.n)
  | .normal =>
    let sec := secOf p.pa
    let (bs, bad, s) := if wide then s.readPkg w.die w.part sec else s.readDie w.die w.part w.vf sec cp
    (slice bs (p.pa % 32) p.n, bad, s)

/-- The bytes of a lane's data that go to its piece number `i` (R170, R175). -/
def LaneAcc.pieceData (l : LaneAcc) (i : Nat) : List Byte :=
  bytesOfNat ((l.pieces[i]?.map (·.n)).getD 0) (l.data.toNat / 2 ^ (8 * ((l.pieces.take i).map (·.n)).sum))

/-- One lane's store performed at its point. -/
def State.storeLane (s : State) (w : Here) (sc : Scope) (cp : Cp) (t : Ty) (l : LaneAcc) : State :=
  (List.range l.pieces.length).foldl
    (fun s i =>
      match l.pieces[i]? with
      | none => s
      | some p =>
        if t.isSub && (sc == .pkg || sc == .sys) && p.kind == .normal then s.storeSub w p fun old => mergeElement t l.bit old l.data
        else if t.isSub then
          let (old, _, s) := s.readPiece w false cp p
          s.storePiece w sc cp p (mergeElement t l.bit old l.data)
        else s.storePiece w sc cp p (l.pieceData i)) s

/-- The core's L1 copy of a sector dropped (R181). -/
def State.l1DropSec (s : State) (w : Here) (sec : Nat) : State :=
  s.l1Drop fun x => x.die == w.die && x.cluster == w.cluster && x.core == w.core && x.sec == sec

/-- One indivisible step of R180 on a piece at its point (R181): the old value, whether it was uncorrectable. Its CP field acts in L2 as on
a load and a store (R17; R177 names these alone: DESIGN CHOICE, log 60). -/
def State.atomicStep (s : State) (w : Here) (op : AtomOp) (t : Ty) (cp : Cp) (p : Piece) (b c : Nat) : Nat × Bool × State :=
  let (bs, bad, s) := s.readPiece w false cp p
  let old := natOfBytes bs
  if bad then (old, true, s)
  else
    let s := s.storePiece w .die cp p (bytesOfNat p.n (atomNew op t old b c))
    (old, false, if p.kind = .normal then s.l1DropSec w (secOf p.pa) else s)

/-! ### Remote accesses (R418 to R423) -/

/-- A remote access served at the base dies of the package that it names (R418, R423): the value, whether it cannot be had, the stack that
serves it. A mapping that has gone since the checks answers as data that cannot be read (log 23). -/
def State.serve (s : State) (req : RemReq) : BitVec 128 × Bool × Nat × State :=
  if !s.exportsTo req.vf req.part req.srcPkg req.srcVf req.srcPart then (0, true, 0, s)
  else match s.exportMap req.vf req.part req.off with
    | (.error _, s) => (0, true, 0, s)
    | (.ok x, s) =>
      let at_ := s.stackOf x.pa
      match req.kind with
      | .fill => (0, true, at_, s)
      | .load =>
        if !x.r ∨ x.kind = .host then (0, true, at_, s)
        else (BitVec.ofNat 128 (natOfBytes (memRead s.mem x.pa req.n)), s.baseBad x.pa req.n, at_, s.touch [x.pa])
      | .store data => if !x.w ∨ x.kind = .host then (0, true, at_, s) else (0, false, at_, s.basePut req.part x.pa data)
      | .atomic op ty b c =>
        if !x.r ∨ !x.w ∨ x.kind ≠ .atomicHome then (0, true, at_, s)
        else
          let (old, bad, s) := s.atomicStep (agentHere at_ req.part req.vf) op ty .dflt ⟨x.pa, tyBytes ty, x.kind⟩ (b.toNat % 2 ^ tyBits ty)
            (c.toNat % 2 ^ tyBits ty)
          (BitVec.ofNat 128 old, bad, at_, s)

/-- What a lane of a remote access asks of its peer (R418, R422), for the context of `w`. -/
def State.remReq (s : State) (w : Here) (l : LaneAcc) (n : Nat) (kind : RemKind) : RemReq :=
  let tgt := (s.peerOf w.vf l.peer).getD (0, 0)
  ⟨s.pkg, w.vf, w.part, tgt.1, tgt.2, l.ea.toNat, n, kind⟩

/-- A lane whose peer is this package (R418: P may equal Q) served, a request on its network (R357). -/
def State.serveOwn (s : State) (w : Here) (l : LaneAcc) (n : Nat) (kind : RemKind) : BitVec 128 × Bool × State :=
  let (v, bad, _, s) := (s.request w.part w.die (remPayload tyBytes kind + n)).serve (s.remReq w l n kind)
  (v, bad, s)

/-- The lowest peer of some lanes: replays go in ascending peer order (R422). -/
def lowestPeer (lanes : List LaneAcc) : Option Nat := (lanes.map (·.peer)).min?

/-- The lanes of the lowest peer send their requests, where it is another package (R422): through the network of this one (R357, R414), those
to one line by one plane, so that they stay in order (R423, log 57). -/
def State.sendPeer (s : State) (w : Here) (n : Nat) (lanes : List LaneAcc) (kind : LaneAcc → RemKind) : State :=
  (lanes.filter fun l => some l.peer == lowestPeer lanes && l.peer != s.pkg).foldl
    (fun s l =>
      let line := l.ea.toNat / 256
      s.sendMsg .req w.part w.vf w.die (w.cluster / 10) (remPayload tyBytes (kind l)) (Config.plane l.peer line) (some (2 ^ 48 * l.peer + line))
        (.remote l.peer (s.remReq w l n (kind l)))) s

/-- A lane of a remote store writes its register data. -/
def storeKind (t : Ty) (l : LaneAcc) : RemKind := .store (bytesOfNat (tyBytes t) l.data.toNat)

/-- A queued entry performed where it belongs (R176, R181, R186). Remote stores go by their own events (R422). -/
def State.performEntry (s : State) (o : StoreOp) : State :=
  let w := o.here
  match o.kind with
  | .store sc cp lanes t => lanes.foldl (fun s l => s.storeLane w sc cp t l) s
  | .red op t _ cp lanes =>
    lanes.foldl (fun s l => match l.pieces with
      | p :: _ => (s.atomicStep w op t cp p (l.data.toNat % 2 ^ tyBits t) 0).2.2
      | [] => s) s
  | .tile key t lanes =>
    lanes.foldl (fun s l => match l.pieces with
      | p :: _ =>
        s.setGang key fun g => g.localWrite p.pa (mergeElement t l.bit (g.localRead p.pa p.n) l.data)
      | [] => s) s
  | .cctl op lines =>
    lines.foldl (fun s line =>
      let inLine (sec : Nat) := sec / 8 == line
      let mine (x : L2Sector) := x.die == w.die && x.part == w.part && inLine x.sec
      let l1 (x : L1Sector) := x.die == w.die && x.cluster == w.cluster && x.core == w.core && inLine x.sec
      let clean (s : State) := (s.cleanPart mine).ackAll fun e => e.die == w.die && e.part == w.part && inLine e.sec
      match op with
      | 1 => clean s
      | 2 => (s.l1Drop l1).l2Drop fun x => mine x && x.dirty == 0
      | _ => ((clean s).l1Drop l1).l2Drop mine) s
  | .remote _ _ => s

/-- The entries of a queue that must be performed before sectors are read or written: those of the core that touch them, and
with each the earlier ones of its own sectors, so that stores to one byte stay in order (R300). -/
def dueEntries (p : StoreOp → Bool) (q : List StoreOp) (secs : List (Nat × Nat)) : List StoreOp × List StoreOp :=
  let (due, rest, _) := q.foldr
    (fun o (due, rest, ss) => if p o && o.secs.any (fun x => x ∈ ss) then (o :: due, rest, ss ++ o.secs) else (due, o :: rest, ss))
    (([], [], secs) : List StoreOp × List StoreOp × List (Nat × Nat))
  (due, rest)

/-- Whether a queued entry belongs to the core of an access. -/
def StoreOp.ofCore (o : StoreOp) (w : Here) : Bool := o.die == w.die && o.cluster == w.cluster && o.core == w.core

/-- The core's queued stores to sectors performed (R300). -/
def State.drainSecs (s : State) (w : Here) (secs : List Nat) : State :=
  let (due, rest) := dueEntries (fun o => o.ofCore w) s.wq (secs.map fun x => (0, x))
  due.foldl State.performEntry { s with wq := rest }

/-- A remote store without the lanes that `p` names (R422): with none left it counts no more. -/
def StoreOp.without (o : StoreOp) (p : LaneAcc → Bool) : StoreOp :=
  match o.kind with
  | .remote t lanes =>
    let rest := lanes.filter fun l => !p l
    { o with kind := .remote t rest, counted := o.counted && !rest.isEmpty }
  | _ => o

/-- The lanes of a remote store. -/
def StoreOp.far (o : StoreOp) : List LaneAcc :=
  match o.kind with
  | .remote _ lanes => lanes
  | _ => []

/-- Whether an entry is a remote store; whether lanes of it have not been acknowledged (R308, R422). -/
def StoreOp.isRemote (o : StoreOp) : Bool :=
  match o.kind with
  | .remote _ _ => true
  | _ => false
def StoreOp.unanswered (o : StoreOp) : Bool := !o.far.isEmpty

/-- A remote store that has changed from `o`: where another peer is now the lowest, its requests go (R422). -/
def State.sendStore (s : State) (o o' : StoreOp) : State :=
  match o'.kind with
  | .remote t lanes => if lowestPeer lanes = lowestPeer o.far then s else s.sendPeer o.here (tyBytes t) lanes (storeKind t)
  | _ => s

/-- The entries that satisfy `p`, with each the earlier ones of its core that touch its sectors (R300), and the others. -/
def splitQueue (p : StoreOp → Bool) (q : List StoreOp) : List StoreOp × List StoreOp :=
  q.foldr
    (fun o (due, rest) =>
      if p o || due.any (fun x => x.ofCore o.here && x.secs.any fun y => y ∈ o.secs) then (o :: due, rest) else (due, o :: rest)) ([], [])

/-- Queued entries that satisfy `p` performed, in order. -/
def State.drainQueue (s : State) (p : StoreOp → Bool) : State :=
  (splitQueue p s.wq).1.foldl State.performEntry { s with wq := (splitQueue p s.wq).2 }

/-- The core's L1 copy of a sector. -/
def State.l1Find (s : State) (w : Here) (sec : Nat) : Option L1Sector :=
  s.l1.find? fun x => x.die == w.die && x.cluster == w.cluster && x.core == w.core && x.vf == w.vf && x.sec == sec

/-- The core's L1 copy of a sector changed. -/
def State.l1Set (s : State) (w : Here) (sec : Nat) (f : List Byte → List Byte) : State :=
  { s with
    l1 := updateAll (fun x => x.die == w.die && x.cluster == w.cluster && x.core == w.core && x.vf == w.vf && x.sec == sec)
      (fun x => { x with bytes := f x.bytes }) s.l1 }

/-- Lines that a core's L1 holds: 256 KiB (R177, R203). -/
def l1Lines : Nat := 1024

/-- A line of a core's L1 dropped. -/
def State.l1DropLine (s : State) (w : Here) (line : Nat) : State :=
  s.l1Drop fun x => x.die == w.die && x.cluster == w.cluster && x.core == w.core && x.sec / 8 == line

/-- A new line may replace another of the core's L1, and does when L1 is full (R177, R301); lines that are first to evict go before
others (R17). Which one, and whether one does, the spec leaves to the sets of L1 (log 43). -/
def State.l1Room (s : State) (w : Here) (sec : Nat) : State :=
  let mine := s.l1.filter fun x => x.die == w.die && x.cluster == w.cluster && x.core == w.core
  let lines := distinct (mine.map fun x => x.sec / 8)
  if lines = [] ∨ sec / 8 ∈ lines then s
  else
    let early := distinct ((mine.filter (·.first)).map fun x => x.sec / 8)
    let cand := if early = [] then lines else early
    let c := Config.choice s.tick (0x1000000 + sec)
    if lines.length < l1Lines ∧ c % 2 = 0 then s else s.l1DropLine w (cand.getD (c / 2 % cand.length) 0)

/-- A sector entered in the core's L1 (R177). -/
def State.l1Fill (s : State) (w : Here) (cp : Cp) (sec : Nat) (bs : List Byte) : State :=
  let s := s.l1Room w sec
  { s with l1 := ⟨w.die, w.cluster, w.core, w.vf, sec, bs, cp == .strm⟩ :: (s.l1DropSec w sec).l1 }

/-- Whether the scope is performed at L1 (R176). -/
def isNarrow : Scope → Bool
  | .grp | .gang => true
  | _ => false

/-- Whether the scope is performed at the base die (R176). -/
def isWide : Scope → Bool
  | .pkg | .sys => true
  | _ => false

/-- A piece loaded at its scope (R176, R177, R301): bytes, whether they are uncorrectable, and the copies changed. -/
def State.loadPiece (s : State) (w : Here) (sc : Scope) (cp : Cp) (p : Piece) : List Byte × Bool × State :=
  if p.kind ≠ .normal then (s.drainSecs w [secOf p.pa]).readPiece w true .dflt p
  else
    let sec := secOf p.pa
    let cut (bs : List Byte) := slice bs (p.pa % 32) p.n
    match s.l1Find w sec, isNarrow sc with
    | some x, true => (cut x.bytes, false, if cp = .last then s.l1DropSec w sec else s)
    | hit, _ =>
      let s := s.drainSecs w [sec]
      let (bs, bad, s) := if isWide sc then s.readPkg w.die w.part sec else s.readDie w.die w.part w.vf sec cp
      if bad then (cut bs, true, s)
      else if isNarrow sc then
        (cut bs, false, match cp with
          | .l2 | .na | .last => s
          | _ => s.l1Fill w cp sec bs)
      else (cut bs, false, if cp = .last ∧ !isWide sc then s.l1DropSec w sec else if hit.isSome then s.l1Set w sec (fun _ => bs) else s)

/-- Every piece of a lane loaded: its bytes in register order. -/
def State.loadLane (s : State) (w : Here) (sc : Scope) (cp : Cp) (ps : List Piece) : List Byte × Bool × State :=
  ps.foldl (fun (bs, bad, s) p => let (b, e, s) := s.loadPiece w sc cp p; (bs ++ b, bad || e, s)) ([], false, s)

/-- The core's L1 copies updated by one piece of a lane's store (R177). -/
def State.l1Update (s : State) (w : Here) (cp : Cp) (t : Ty) (l : LaneAcc) (i : Nat) (p : Piece) : State :=
  if p.kind ≠ .normal then s
  else
    let sec := secOf p.pa
    let s := s.l1Set w sec fun bs =>
      let data := if t.isSub then mergeElement t l.bit (slice bs (p.pa % 32) p.n) l.data else l.pieceData i
      overlay bs (placeIn sec p.pa data) (secMask sec p.pa p.n)
    if cp = .last then s.l1DropSec w sec else s

/-- The core's L1 copies updated by one lane's store. -/
def State.l1UpdateLane (s : State) (w : Here) (cp : Cp) (t : Ty) (l : LaneAcc) : State :=
  (List.range l.pieces.length).foldl
    (fun s i => match l.pieces[i]? with
      | none => s
      | some p => s.l1Update w cp t l i p) s

/-- A store enters the core's write-through queue and updates the L1 copies of its sectors (R177, R300). -/
def State.enqueueStore (s : State) (o : StoreOp) : State :=
  let s : State := match o.kind with
    | .store sc cp lanes t => lanes.foldl (fun s l => s.l1UpdateLane o.here (if isWide sc then .dflt else cp) t l) s
    | .red _ _ _ _ _ => o.secs.foldl (fun s x => s.l1DropSec o.here x.2) s
    | _ => s
  { s with wq := s.wq ++ [o] }

/-! ### Registers and outstanding results -/

/-- One vector register position (R88, R203): position `pos` of the group's allotment, which wraps. -/
def Group.vpos (g : Group) (pos : Nat) : Vector W32 32 := g.vrf.getD (pos % g.vrf.length) (Vector.replicate 32 0)

/-- One lane of a position written. -/
def Group.vset (g : Group) (pos lane : Nat) (v : W32) : Group :=
  let i := pos % g.vrf.length
  { g with vrf := g.vrf.set i ((g.vpos pos).set! lane v) }

/-- `n` consecutive registers of one lane written from a 128-bit value (R170). -/
def Group.vsetWide (g : Group) (pos n lane : Nat) (v : BitVec 128) : Group :=
  (List.range n).foldl (fun g i => g.vset (pos + i) lane (v.extractLsb' (32 * i) 32)) g

/-- `n` consecutive registers of one lane as a 128-bit value, absent registers 0. -/
def Group.vgetWide (g : Group) (pos n lane : Nat) : BitVec 128 :=
  (List.range n).foldl (fun v i => v ||| (((g.vpos (pos + i))[lane]!).zeroExtend 128 <<< (32 * i))) 0

/-- The current group changed. -/
def State.setGrp (s : State) (f : Group → Group) : State := { s with grp := f s.grp }

/-- What a lane of a remote load or atomic asks of its peer. -/
def Outst.remKind (e : Outst) (l : LaneAcc) : RemKind :=
  match e.kind with
  | .remote ty _ (some op) => .atomic op ty l.data l.cmp
  | _ => .load

/-- The lanes of a remote result that are pending; none of another result. -/
def Outst.far (e : Outst) : List LaneAcc :=
  match e.kind with
  | .remote _ _ _ => e.lanes.filter fun l => e.pend.getLsbD l.lane
  | _ => []

/-- A remote result that has changed from `e`: where another peer is now the lowest, its requests go (R422). -/
def State.sendLoad (s : State) (e e' : Outst) : State :=
  match e'.kind with
  | .remote t _ _ => if lowestPeer e'.far = lowestPeer e.far then s else s.sendPeer s.grp.here (tyBytes t) e'.far e'.remKind
  | _ => s

/-- What one lane of an outstanding result receives, none when its data are uncorrectable. `rem` are the lanes that a peer
of another package has answered (R422); a remote lane without an answer does not return. -/
def State.returnLane (s : State) (e : Outst) (l : LaneAcc) (rem : List RemLane) : Option (Option (BitVec 128)) × State :=
  let w := s.grp.here
  match e.kind with
  | .load t sc cp _ =>
    let (bs, bad, s) := s.loadLane w sc cp l.pieces
    (some (if bad then none else some (elementOf t l.bit bs)), s)
  | .loadLocal t =>
    let s := s.drainQueue fun o => match o.kind with
      | .tile k _ _ => k == s.grp.gang && o.group == s.grp.key
      | _ => false
    match l.pieces with
    | p :: _ =>
      let g := s.gang s.grp.gang
      (some (if g.localBad p.pa p.n then none else some (elementOf t l.bit (g.localRead p.pa p.n))), s)
    | [] => (some none, s)
  | .atomic op t _ cp _ =>
    match l.pieces with
    | p :: _ =>
      let s := s.drainSecs w [secOf p.pa]
      let (old, bad, s) := s.atomicStep w op t cp p (l.data.toNat % 2 ^ tyBits t) (l.cmp.toNat % 2 ^ tyBits t)
      (some (if bad then none else some (BitVec.ofNat 128 old)), s)
    | [] => (some none, s)
  | .atomicLocal op t =>
    let s := s.drainQueue fun o => match o.kind with
      | .tile k _ _ => k == s.grp.gang && o.group == s.grp.key
      | _ => false
    match l.pieces with
    | p :: _ =>
      let g := s.gang s.grp.gang
      if g.localBad p.pa p.n then (some none, s) else
      let old := natOfBytes (g.localRead p.pa p.n)
      let new := atomNew op t old (l.data.toNat % 2 ^ tyBits t) (l.cmp.toNat % 2 ^ tyBits t)
      (some (some (BitVec.ofNat 128 old)), s.setGang s.grp.gang fun g => g.localWrite p.pa (bytesOfNat p.n new))
    | [] => (some none, s)
  | .remote t _ _ =>
    let value (v : BitVec 128) (bad : Bool) : Option (BitVec 128) := if bad then none else some (extendLoad t (v.toNat % 2 ^ tyBits t))
    if l.peer = s.pkg then
      let (v, bad, s) := s.serveOwn w l (tyBytes t) (e.remKind l)
      (some (value v bad), s)
    else match rem.find? fun r => r.lane == l.lane with
      | some r => (some (value r.value r.bad), s.charge w.part w.die 1 (tyBytes t))
      | none => (none, s)
  | .gred _ => (none, s)
  | .sfu fn inputs => (some (some ((sfuResult fn (inputs.getD l.lane 0)).1.zeroExtend 128)), s)

/-- The bytes two lanes' accesses have in common, at all. -/
def LaneAcc.overlaps (x y : LaneAcc) : Bool :=
  x.pieces.any fun p => y.pieces.any fun q => decide (p.pa < q.pa + q.n ∧ q.pa < p.pa + p.n)

/-- Whether a result comes from gang memory or the scratchpad. -/
def Outst.isLocal (e : Outst) : Bool :=
  match e.kind with
  | .loadLocal _ | .atomicLocal _ _ => true
  | _ => false

/-- Whether two results count in a slot in common. -/
def Tags.meets (t u : Tags) : Bool := (t.a && u.a) || (t.b && u.b) || (t.ia && u.ia) || (t.ib && u.ib)

/-- Whether a result is of a GRED: an NMU command reads its bytes, an agent of its own (R297, R308). -/
def Outst.isGred (e : Outst) : Bool :=
  match e.kind with
  | .gred _ => true
  | _ => false

/-- Whether an earlier outstanding access of the path to the same bytes has yet to return (R302). -/
def blockedBy (before : List Outst) (e : Outst) (l : LaneAcc) : Bool :=
  before.any fun b => !b.isGred && b.tags.meets e.tags && b.isLocal == e.isLocal &&
    b.lanes.any fun x => b.pend.getLsbD x.lane && x.overlaps l

/-- The results that satisfy `p`, with the earlier ones that block a lane of one of them. -/
def dueResults (p : Outst → Bool) (l : List Outst) : List Outst :=
  l.foldr (fun b due => if p b || due.any (fun e => e.lanes.any fun x => e.pend.getLsbD x.lane && blockedBy [b] e x) then b :: due else due) []

/-- One slot of a group. -/
def Group.slot (g : Group) : SlotId → Slot
  | .a => g.slotA
  | .b => g.slotB

/-- One slot of a group changed. -/
def Group.setSlot (g : Group) (i : SlotId) (f : Slot → Slot) : Group :=
  match i with
  | .a => { g with slotA := f g.slotA }
  | .b => { g with slotB := f g.slotB }

/-- A data error recorded in the slots that the result counts in (R193, R195). One that is recorded already stays (DESIGN CHOICE,
log 61). -/
def Group.addErr (g : Group) (t : Tags) (e : DataErr) : Group :=
  let put (c : Bool) (x : Slot) : Slot := if c && x.derr.isNone then { x with derr := some e } else x
  { g with
    slotA := put t.a g.slotA
    slotB := put (t.b && !t.a) g.slotB
    trap := g.trap.map fun c => { c with slotA := put t.ia c.slotA, slotB := put (t.ib && !t.ia) c.slotB } }

/-- Whether a lane must wait for another: the lower lanes of an atomic come first (R180), and so do the lanes of lower peers
(R422). A lane that its peer has answered, or that a lost peer will not, waits for no lane of that peer, or for none. -/
def State.waitsLower (s : State) (e : Outst) (l : LaneAcc) (rem : List RemLane) : Bool :=
  match e.kind with
  | .atomic _ _ _ _ _ | .atomicLocal _ _ => (lanesOf e.pend).any fun k => decide (k < l.lane)
  | .remote _ _ op => decide (l.peer ∉ s.lostPkgs) && e.far.any fun x => decide (x.peer < l.peer) ||
      (op.isSome && (rem.all fun r => r.lane != l.lane) && x.peer == l.peer && decide (x.lane < l.lane))
  | _ => false

/-- Lanes of an outstanding result return (R174): registers are written, failing lanes keep theirs, and when no lane is
pending the entry ends and counts no more. -/
def State.returnEntry (s : State) (before : List Outst) (e : Outst) (lanes : LaneMask) (rem : List RemLane) : Option Outst × State :=
  let (e, s) := e.lanes.foldl
    (fun (e, s) l =>
      if !(e.pend &&& lanes).getLsbD l.lane || blockedBy before e l || s.waitsLower e l rem then (e, s)
      else
        match s.returnLane e l rem with
        | (none, s) => (e, s)
        | (some (some v), s) =>
          ({ e with pend := e.pend &&& ~~~laneBit l.lane }, s.setGrp fun g => g.vsetWide e.pos e.regs l.lane v)
        | (some none, s) =>
          ({ e with
              pend := e.pend &&& ~~~laneBit l.lane
              err := match e.err with
                | some d => some (if d.lane < l.lane then d else { ea := l.ea, epc := e.pc, lane := l.lane })
                | none => some { ea := l.ea, epc := e.pc, lane := l.lane } }, s)) (e, s)
  if e.pend = 0 then
    (none, match e.err with
      | some x => s.setGrp fun g => g.addErr e.tags x
      | none => s)
  else (some e, s)

/-- Lanes of outstanding result `i` of the current group return. -/
def State.returnAt (s : State) (i : Nat) (lanes : LaneMask) (rem : List RemLane) : State :=
  match s.grp.outst[i]? with
  | none => s
  | some e =>
    match s.returnEntry (s.grp.outst.take i) e lanes rem with
    | (some e', s) => (s.setGrp fun g => { g with outst := g.outst.set i e' }).sendLoad e e'
    | (none, s) => s.setGrp fun g => { g with outst := dropAt g.outst i }

/-- Whether a result is of a remote access: it returns by events of its own (R422). -/
def Outst.isRemote (e : Outst) : Bool :=
  match e.kind with
  | .remote _ _ _ => true
  | _ => false

/-- Whether a result that satisfies `p`, or one that blocks it, is of a remote access or with near memory (R302, R308). -/
def State.awaits (s : State) (p : Outst → Bool) : Bool := (dueResults p s.grp.outst).any fun e => e.isRemote || e.isGred

/-- Every local result of the current group that satisfies `p` returned, oldest first, and with it what blocks it (R191 step 3, R185,
R302). What waits for another package or for near memory (`State.awaits`) stays. -/
def State.returnAll (s : State) (p : Outst → Bool) : State :=
  (s.grp.outst.map (·.id)).foldl
    (fun s k =>
      match s.grp.outst.findIdx? fun e => e.id == k && decide (e ∈ dueResults p s.grp.outst) && !e.isRemote && !e.isGred with
      | some i => s.returnAt i 0xFFFFFFFF []
      | none => s) s

end Sys2Proof.Machine
end

