-- ==== Sys2Proof/Machine/Ops.lean ====
section
/-! DEFINITION. Operations over a group's registers, paths, windows, coil and futures; the end of a context; taking a trap
and returning from one (R69 to R95, R121 to R127, R190 to R199, R213 to R216, R329). -/
namespace Sys2Proof.Machine

/-- The outcome of an instruction. -/
abbrev Out := Host.Outcome State Fault Refusal

/-! ### Registers -/

def State.slot (s : State) : Slot := s.grp.slot s.sel
def State.setSlot (s : State) (f : Slot → Slot) : State := s.setGrp fun g => g.setSlot s.sel f

/-- The other slot. -/
def SlotId.other : SlotId → SlotId
  | .a => .b
  | .b => .a

/-- The program counter of a path (R23). -/
def Slot.pc (x : Slot) : W64 := x.pcb + BitVec.ofNat 64 (4 * x.idx)
def State.pc (s : State) : W64 := s.slot.pc

/-- Whether the other slot holds a path, so that a scalar register may be read by one and written by the other (R74). -/
def State.shared (s : State) : Bool := (s.grp.slot s.sel.other).occ

/-- What a read of a register that the other path has written may also give, until the paths join (R74): what it held before. -/
def State.oldRs (s : State) (r : SReg) : Option W64 :=
  if s.shared then (s.grp.olds.find? fun o => o.1 != s.sel && o.2.1 == r.toNat).map (·.2.2) else none

/-- A scalar register (R69) as the selected path reads it: one that the other path wrote last gives the old value or the new one, on each
read (R74, log 44). -/
def State.rs (s : State) (r : SReg) : W64 :=
  let v := s.grp.s[r.toNat]'(by have := r.isLt; omega)
  match s.oldRs r with
  | some o => if Config.choice s.tick (0xD000 + r.toNat) % 2 = 0 then v else o
  | none => v

/-- A scalar register written (R69); what it held before is kept while another path may read it (R74). -/
def State.setRs (s : State) (r : SReg) (v : W64) : State :=
  s.setGrp fun g => { g with
    s := g.s.set r.toNat v (by have := r.isLt; omega)
    olds := if s.shared then (s.sel, r.toNat, g.s[r.toNat]'(by have := r.isLt; omega)) :: g.olds.filter fun o => o.2.1 != r.toNat
      else g.olds }

/-- Predicate and future of the current group (R69). -/
def State.rp (s : State) (p : PReg) : LaneMask := s.grp.p[p.toNat]'(by have := p.isLt; omega)
def State.setRp (s : State) (p : PReg) (v : LaneMask) : State :=
  s.setGrp fun g => { g with p := g.p.set p.toNat v (by have := p.isLt; omega) }
def State.fut (s : State) (f : FReg) : Future := s.grp.f[f.toNat]'(by have := f.isLt; omega)
def State.setFut (s : State) (f : FReg) (v : Future) : State :=
  s.setGrp fun g => { g with f := g.f.set f.toNat v (by have := f.isLt; omega) }

/-- A scalar register by number, of the registers that follow a base register in a descriptor. -/
def State.rsAt (s : State) (a : SReg) (i : Nat) : W64 := s.rs (a + BitVec.ofNat 6 i)

/-- active(path): the lanes of $exec that the guard selects (R18). -/
def State.active (s : State) (g : Option Guard) : LaneMask :=
  match g with
  | none => s.slot.mask
  | some g => s.slot.mask &&& (if g.neg then ~~~s.rp g.p else s.rp g.p)

/-- Whether the group is in trap mode (R191). -/
def State.inTrap (s : State) : Bool := s.grp.trap.isSome

/-! ### Wait counters, a view of what is outstanding (R72, R76, R130) -/

/-- Whether a result counts in a slot. -/
def Tags.has (t : Tags) : SlotId → Bool
  | .a => t.a
  | .b => t.b

/-- Whether a result counts in an interrupted slot (R191). -/
def Tags.hasInt (t : Tags) : SlotId → Bool
  | .a => t.ia
  | .b => t.ib

/-- The tags of what the current slot issues. -/
def State.tags (s : State) : Tags := { a := s.sel == .a, b := s.sel == .b }

/-- Whether a reservation-table entry counts on TL (R228). -/
def TabKind.counts : TabKind → Bool
  | .mmq _ _ _ _ _ _ _ _ _ => true
  | .tld _ _ _ _ _ => true
  | .tst _ _ _ _ => true
  | .tzero _ => true
  | _ => false

/-- The number of outstanding results of the current group that count on `c` under tags that satisfy `p`. -/
def State.count (s : State) (p : Tags → Bool) (c : Counter) : Nat :=
  s.grp.outst.countP (fun e => p e.tags && e.cnt == c) +
  s.wq.countP (fun o => o.group == s.grp.key && o.counted && p o.tags && o.cnt == c) +
  if c = .tl then s.rtab.countP fun e => e.group == s.grp.key && p e.tags && e.kind.counts else 0

/-- A counter of the issuing path. -/
def State.cnt (s : State) (c : Counter) : Nat := s.count (fun t => t.has s.sel) c

/-- $wcnt of the slots that satisfy `p` (R72). -/
def State.wcnt (s : State) (p : Tags → Bool) : W64 :=
  BitVec.ofNat 64 (s.count p .ld + 2 ^ 6 * s.count p .st + 2 ^ 12 * s.count p .sm + 2 ^ 18 * s.count p .tl +
    if s.count p .sfu = 0 then 0 else 2 ^ 24)

/-- Every counter of the path is 0 and no SFU result is outstanding (R26). -/
def State.drained (s : State) : Bool := s.wcnt (fun t => t.has s.sel) == 0

/-- Whether an entry of the reservation table is a TLD, which writes lane registers (R240). -/
def TabKind.isTld : TabKind → Bool
  | .tld _ _ _ _ _ => true
  | _ => false

/-- The path has no outstanding vector result (R159, R174, R240): no load, atomic, SFU or TLD result. -/
def State.quiet (s : State) : Bool :=
  (s.grp.outst.all fun e => !e.tags.has s.sel) &&
    s.rtab.all fun e => !(e.group == s.grp.key && e.tags.has s.sel && e.kind.isTld)

/-- A full counter holds an instruction at issue (R130). -/
def State.full (s : State) (c : Counter) : Bool := decide (63 ≤ s.cnt c)

/-! ### The program counter (R21 to R27) -/

/-- The control word of the bundle the path holds; with none, a full bundle without marks (R22). -/
def Slot.ctl (x : Slot) : Nat := match x.ibuf with
  | some b => (b.words.headD 0).toNat
  | none => 15

/-- A path leaves its bundle for word 1 of another: SWITCH parks it there, YIELD may rank it last (R23, R26, R27). -/
def Slot.leave (x : Slot) (target : W64) (tick : Nat) : Slot :=
  { x with
    pcb := target, idx := 1, ibuf := none, failed := [], farFailed := []
    park := if x.ctl.testBit 4 then .switch else .none
    yielded := x.ctl.testBit 5 && Config.choice tick 0 % 2 == 1 }

/-- The path goes to word 1 of a bundle. -/
def State.jump (s : State) (target : W64) : State := s.setSlot fun x => x.leave target s.tick

/-- The path goes on after an instruction of `n` words. -/
def State.advance (s : State) (n : Nat) : State :=
  s.setSlot fun x =>
    if x.idx + n ≤ x.ctl % 16 then { x with idx := x.idx + n, park := .none, failed := [], farFailed := [] }
    else x.leave (x.pcb + 64) s.tick

/-- The path parks at its instruction (R210). -/
def State.park (s : State) (p : Park) : State := s.setSlot fun x => { x with park := p }

/-! ### Causes -/

/-- Codes of R5. -/
def cIllegal : Nat := 0x01
def cBranchAlign : Nat := 0x02
def cTableRange : Nat := 0x03
def cTableFetch : Nat := 0x04
def cStackLimit : Nat := 0x05
def cFetchFault : Nat := 0x06
def cTranslation : Nat := 0x07
def cPermission : Nat := 0x08
def cMisaligned : Nat := 0x09
def cAtomPage : Nat := 0x0A
def cOwner : Nat := 0x0B
def cSpawnRole : Nat := 0x0C
def cTileInvalid : Nat := 0x0D
def cTileOverdraw : Nat := 0x0E
def cBarrierTimeout : Nat := 0x0F
def cDataError : Nat := 0x10
def cBridge : Nat := 0x11
def cDouble : Nat := 0x12
def cSoftware : Nat := 0x13
def cFuture : Nat := 0x14
def cSet : Nat := 0x15
def cRemotePeer : Nat := 0x16
def cNmu : Nat := 0x17
def cScope : Nat := 0x18
def cExchange : Nat := 0x19

/-- The code of a failed walk (R281, R442). -/
def WalkFault.code : WalkFault → Nat
  | .unmapped => cTranslation
  | .permission => cPermission
  | .dataError => cDataError

/-- The cause word (R193), with the code in CODE and, under DOUBLE_FAULT, the code raised in SEC. -/
def Cause.word (c : Cause) (slot : SlotId) (double : Bool) : W64 :=
  BitVec.ofNat 64 ((if double then cDouble else c.code) + (if slot = .b then 0x100 else 0) +
    (match c.lane with
      | some l => l % 32 * 0x200 + 0x4000
      | none => 0) +
    (if double then c.code % 256 * 2 ^ 16 else 0) + c.reason % 256 * 2 ^ 24 + c.n % 512 * 2 ^ 32)

/-- How an operation stops short of its end: a code is raised and nothing has changed, or the path holds in a state. -/
inductive Stop where
  | raise (c : Cause)
  | hold (s : State)
  deriving DecidableEq, Repr

/-- An operation that may stop short. -/
abbrev Res (α : Type) := Except Stop α

/-- Raising a code. -/
def raise {α : Type} (c : Cause) : Res α := .error (.raise c)

/-- ILLEGAL_OP at the instruction (R25). -/
def State.illegal {α : Type} (s : State) : Res α := raise { code := cIllegal, addr := s.pc }

/-- A condition that must hold, or a code is raised. -/
def must (b : Bool) (c : Cause) : Res Unit := if b then .ok () else raise c

/-! ### Other groups -/

/-- Another group made the current one. -/
def State.focus (s : State) (key : Nat) : State :=
  if s.grp.key = key then s
  else match s.groups.find? fun g => g.key == key with
    | none => s
    | some g =>
      let rest := s.groups.filter fun x => x.key != key
      { s with grp := g, groups := if s.grp.live = 0 then rest else s.grp :: rest }

/-- `f` applied with a group and slot made current, the selection restored afterwards. -/
def State.within (s : State) (key : Nat) (slot : SlotId) (f : State → State) : State :=
  let k := s.grp.key
  let i := s.sel
  let s := f { s.focus key with sel := slot }
  { s.focus k with sel := i }

/-- Every live group, the current one first. -/
def State.allGroups (s : State) : List Group := (if s.grp.live = 0 then [] else [s.grp]) ++ s.groups

/-- `f` applied with each group that satisfies `p` made current. -/
def State.forGroups (s : State) (p : Group → Bool) (f : State → State) : State :=
  (s.allGroups.filter p).foldl (fun s g => s.within g.key .a f) s

/-! ### Memory by virtual address, for agents and for the group's own device accesses -/

/-- [a, a + n) cut at multiples of `unit`: offset and length of each part. -/
def chunks (unit a n : Nat) : List (Nat × Nat) :=
  if n = 0 then []
  else (List.range ((a + n - 1) / unit - a / unit + 1)).map fun i =>
    let lo := max a (unit * (a / unit + i))
    (lo - a, min (a + n) (unit * (a / unit + i + 1)) - lo)

/-- The pieces of [a, a + n), each within one unit, every page with a permission; or the first failure. -/
def State.mapVa (s : State) (w : Here) (unit : Nat) (a : W64) (n : Nat) (need : Xl → Bool) :
    Except WalkFault (List Piece) × State :=
  (chunks unit a.toNat n).foldl
    (fun (r, s) (o, len) =>
      match r with
      | .error f => (.error f, s)
      | .ok ps =>
        match s.translateFor w.die w.part w.vf (a + BitVec.ofNat 64 o) need with
        | (.ok x, s) => (.ok (ps ++ [⟨x.pa, len, x.kind⟩]), s)
        | (.error f, s) => (.error f, s))
    (.ok [], s)

/-- `n` bytes read at the die's or the package's point through a context's translation. -/
def State.readVa (s : State) (w : Here) (wide : Bool) (a : W64) (n : Nat) (cp : Cp := .dflt) : Except WalkFault (List Byte) × State :=
  match s.mapVa w 32 a n (·.r) with
  | (.error f, s) => (.error f, s)
  | (.ok ps, s) =>
    let (bs, bad, s) := ps.foldl (fun (bs, bad, s) p =>
      let (b, e, s) := s.readPiece w wide cp p; (bs ++ b, bad || e, s)) (([] : List Byte), false, s)
    (if bad then .error .dataError else .ok bs, s)

/-- Pieces written in ascending order at a scope. -/
def State.writePieces (s : State) (w : Here) (sc : Scope) (cp : Cp) (ps : List Piece) (bs : List Byte) : State :=
  (ps.foldl (fun (s, bs) p => (s.storePiece w sc cp p (bs.take p.n), bs.drop p.n)) (s, bs)).1

/-- Bytes written at a scope through a context's translation. -/
def State.writeVa (s : State) (w : Here) (sc : Scope) (a : W64) (bs : List Byte) (cp : Cp := .dflt) : Except WalkFault Unit × State :=
  match s.mapVa w 32 a bs.length (·.w) with
  | (.error f, s) => (.error f, s)
  | (.ok ps, s) => (.ok (), s.writePieces w sc cp ps bs)

/-- `n` bytes read at .grp scope by the current group (R191, R197). -/
def State.grpRead (s : State) (a : W64) (n : Nat) : Except WalkFault (List Byte) × State :=
  let w := s.grp.here
  match s.mapVa w 32 a n (·.r) with
  | (.error f, s) => (.error f, s)
  | (.ok ps, s) =>
    let (bs, bad, s) := s.loadLane w .grp .dflt ps
    (if bad then .error .dataError else .ok bs, s)

/-- Bytes written through L1 at .grp scope on behalf of the current group; they count on no counter (R85, R91, R191). -/
def State.grpWrite (s : State) (a : W64) (bs : List Byte) : Except WalkFault State :=
  let w := s.grp.here
  match s.mapVa w 16 a bs.length (·.w) with
  | (.error f, _) => .error f
  | (.ok ps, s) =>
    let lanes : List LaneAcc := (ps.foldl (fun (acc, bs) p =>
      (acc ++ [{ lane := 0, ea := a, pieces := [p], data := BitVec.ofNat 128 (natOfBytes (bs.take p.n)) }], bs.drop p.n))
      (([] : List LaneAcc), bs)).1
    .ok (s.enqueueStore
      { group := s.grp.key, tags := {}, cnt := .none, counted := false, part := w.part, vf := w.vf, die := w.die
        cluster := w.cluster, core := w.core, kind := .store .grp .dflt lanes .b128 })

/-- The cause of a failed device access at an address. A data error names the instruction and a lane, 0 for an access that is of no lane
(R194, log 45). -/
def State.vaCause (s : State) (f : WalkFault) (a : W64) (lane : Nat := 0) : Cause :=
  match f with
  | .dataError => { code := f.code, addr := a, aux0 := s.pc, lane := some lane }
  | _ => { code := f.code, addr := a }

/-- A row of the private region written in some lanes (R87). -/
def State.rowWrite (s : State) (a : W64) (lanes : LaneMask) (v : Vector W32 32) : Res State :=
  let w := s.grp.here
  match s.translateFor w.die w.part w.vf a (·.w) with
  | (.error f, _) => raise (s.vaCause f a ((lanesOf lanes).headD 0))
  | (.ok x, s) =>
    let accs := (lanesOf lanes).map fun l =>
      { lane := l, ea := a, pieces := [⟨x.pa + 4 * l, 4, x.kind⟩], data := (v[l]!).zeroExtend 128 : LaneAcc }
    .ok (s.enqueueStore
      { group := s.grp.key, tags := {}, cnt := .none, counted := false, part := w.part, vf := w.vf, die := w.die
        cluster := w.cluster, core := w.core, kind := .store .grp .dflt accs .b32 })

/-- A row of the private region read in some lanes (R87): the words of those lanes, by lane number. -/
def State.rowRead (s : State) (a : W64) (lanes : LaneMask) : Res (List (Nat × W32) × State) :=
  let w := s.grp.here
  match s.translateFor w.die w.part w.vf a (·.r) with
  | (.error f, _) => raise (s.vaCause f a ((lanesOf lanes).headD 0))
  | (.ok x, s) =>
    let (ws, bad, s) := (lanesOf lanes).foldl (fun (ws, bad, s) l =>
      let (bs, e, s) := s.loadLane w .grp .dflt [⟨x.pa + 4 * l, 4, x.kind⟩]
      (ws ++ [(l, BitVec.ofNat 32 (natOfBytes bs))], if e then bad ++ [l] else bad, s)) (([] : List (Nat × W32)), ([] : List Nat), s)
    match bad with
    | l :: _ => raise (s.vaCause .dataError (a + BitVec.ofNat 64 (4 * l)) l)
    | [] => .ok (ws, s)

/-! ### Windows (R86 to R93, R196) -/

/-- The lanes whose frames a slot keeps: its path and the lanes deferred on its coil. -/
def Slot.lanes (x : Slot) (live : LaneMask) : LaneMask := (x.coil.foldl (fun m e => m ||| e.mask) x.mask) &&& live

/-- Base address of the register area of a frame (R88). -/
def areaOf (fb : W64) (fsize : Nat) : W64 := fb - BitVec.ofNat 64 ((fsize - 8) * 128)

/-- The lane words of a link record (R89). -/
def linkRows (ret : W64) (fsize : Nat) : List (Vector W32 32) :=
  [Vector.replicate 32 ((ret.extractLsb' 0 32 &&& 0xFFFFFFF8) ||| BitVec.ofNat 32 (fsize / 8 - 1)),
   Vector.replicate 32 (ret.extractLsb' 32 32)]

/-- The link record in which caller frame number `k` is the caller (R89): the record of its callee's frame; none past the root. -/
def Slot.linkBelow (x : Slot) (k : Nat) : List (Vector W32 32) :=
  match x.frames[k]? with
  | some f => if f.link = [] then linkRows f.ret f.fsize else f.link
  | none => []

/-- What the record of caller frame number `k`'s callee holds after a fill (R90, R93). -/
def Slot.relink (x : Slot) (k : Nat) (link : List (Vector W32 32)) : Slot :=
  if link = [] then x else { x with frames := x.frames.modify k fun f => { f with link := link } }

/-- Rows written upward from an address. -/
def State.rowsWrite (s : State) (lanes : LaneMask) : W64 → List (Vector W32 32) → Res State
  | _, [] => .ok s
  | a, v :: r => do
    let s ← s.rowWrite a lanes v
    s.rowsWrite lanes (a + 128) r

/-- The registers of a frame, by position. -/
def Group.frameRows (g : Group) (wbase n : Nat) : List (Vector W32 32) := (List.range n).map fun k => g.vpos (wbase + k)

/-- Spills caller frame number `k` of a slot for its lanes: register area and its own link record, which the root frame has not
(R89, R91, R202). The slot's record of it changes. -/
def State.spillFrame (s : State) (x : Slot) (k : Nat) : Res (Slot × State) :=
  match x.frames[k]? with
  | none => .ok (x, s)
  | some f => do
    let lanes := x.lanes s.grp.live
    let rows := s.grp.frameRows f.wbase (f.fsize - 8)
    let link := x.linkBelow (k + 1)
    let s ← s.rowsWrite lanes (areaOf f.fb f.fsize) rows
    let s ← s.rowsWrite lanes f.fb link
    .ok ({ x with frames := x.frames.set k { f with resident := false, rows := rows ++ link } }, s)

/-- The index of a slot's oldest resident caller frame. -/
def Slot.oldest (x : Slot) : Option Nat :=
  ((List.range x.frames.length).filter fun k => ((x.frames[k]?).map (·.resident)).getD false).getLast?

/-- The lowest position that a slot's resident frames hold; none for an interrupted slot that holds none (R196). -/
def Slot.low (x : Slot) : Option Nat :=
  match x.oldest with
  | some k => (x.frames[k]?).map (·.wbase)
  | none => if x.cur.isSome || !x.occ then none else some x.wbase

/-- Spills the oldest resident frame of an interrupted slot, its current frame last (R196). -/
def State.spillInterrupted (s : State) (x : Slot) : Res (Slot × State) :=
  match x.oldest with
  | some k => s.spillFrame x k
  | none => do
    let rows := s.grp.frameRows x.wbase x.fsize
    let s ← s.rowsWrite (x.lanes s.grp.live) (areaOf x.fb x.fsize) (rows.take (x.fsize - 8))
    let s ← s.rowsWrite (x.lanes s.grp.live) x.fb (x.linkBelow 0)
    .ok ({ x with cur := some rows }, s)

/-- The interrupted slot that holds the lowest position, if any. -/
def TrapCtx.lowest (t : TrapCtx) : Option (SlotId × Nat) :=
  match t.slotA.low, t.slotB.low with
  | some p, some q => some (if p ≤ q then (.a, p) else (.b, q))
  | some p, none => some (.a, p)
  | none, some q => some (.b, q)
  | none, none => none

/-- Makes the span of the path's frames fit the window capacity: interrupted frames first, then its own, oldest first, one
whole frame at a time (R91, R196). -/
def State.fit : Nat → State → Res State
  | 0, s => .ok s
  | n + 1, s =>
    let x := s.slot
    let top := x.wbase + x.fsize
    let own := (x.low).getD x.wbase
    let cap := s.grp.vrf.length
    match s.grp.trap.bind (·.lowest), s.grp.trap with
    | some (i, q), some t =>
      if top - min own q ≤ cap then .ok s
      else do
        match i with
        | .a =>
          let (y, s) ← s.spillInterrupted t.slotA
          State.fit n (s.setGrp fun g => { g with trap := g.trap.map fun c => { c with slotA := y } })
        | .b =>
          let (y, s) ← s.spillInterrupted t.slotB
          State.fit n (s.setGrp fun g => { g with trap := g.trap.map fun c => { c with slotB := y } })
    | _, _ =>
      if top - own ≤ cap then .ok s
      else match x.oldest with
        | none => .ok s
        | some k => do
          let (y, s) ← s.spillFrame x k
          State.fit n (s.setSlot fun _ => y)

/-- Steps that `fit` can need: every frame of the path and of the interrupted slots. -/
def State.fitFuel (s : State) : Nat :=
  s.slot.frames.length + 1 + match s.grp.trap with
    | some t => t.slotA.frames.length + t.slotB.frames.length + 2
    | none => 0

/-- Written content or the device's own where they differ: either may be taken (R85, R93). -/
def pick {α : Type} [DecidableEq α] (tick point : Nat) (written own : α) : α :=
  if written = own then own else if Config.choice tick point % 2 = 0 then written else own

/-- Rows read upward from an address in some lanes, each lane the written or the spilled value (R87, R93). -/
def State.rowsFill (s : State) (lanes : LaneMask) (point : Nat) : W64 → List (Vector W32 32) → Res (List (Vector W32 32) × State)
  | _, [] => .ok ([], s)
  | a, v :: r => do
    let (m, s) ← s.rowRead a lanes
    let (rest, s) ← s.rowsFill lanes (point + 32) (a + 128) r
    let word (i : Fin 32) : W32 := match m.find? fun x => x.1 == i.val with
      | some x => pick s.tick (point + i) x.2 v[i]
      | none => v[i]
    .ok (Vector.ofFn word :: rest, s)

/-- Rows put into positions, in some lanes. -/
def Group.putRows (g : Group) (wbase : Nat) (lanes : LaneMask) (rows : List (Vector W32 32)) : Group :=
  (List.range rows.length).foldl (fun g k =>
    let v := rows.getD k (Vector.replicate 32 0)
    let i := (wbase + k) % g.vrf.length
    let o := g.vpos (wbase + k)
    { g with vrf := g.vrf.set i (Vector.ofFn fun l => if lanes.getLsbD l then v[l] else o[l]) }) g

/-- What `n` registers from a position on hold once a frame exposes them: zero or an earlier value, lane by lane (R88, R196, log 7). -/
def State.exposed (s : State) (pos n : Nat) : List (Vector W32 32) :=
  (List.range n).map fun k => Vector.ofFn fun l : Fin 32 =>
    if Config.choice s.tick (0x1000 + 32 * k + l) % 2 = 0 then 0 else (s.grp.vpos (pos + k))[l]

/-- ENTER F (R88, R121). -/
def State.enterFrame (s : State) (f : Nat) : Res State :=
  let x := s.slot
  let lo := areaOf x.fb f
  if s.grp.vrf.length < f ∨ (f - 8) * 128 > x.fb.toNat ∨ lo < s.grp.sl then raise { code := cStackLimit, addr := lo }
  else do
    let lanes := x.lanes s.grp.live
    let rows := s.exposed (x.wbase + x.fsize) (f - x.fsize)
    let t := (s.setSlot fun x => { x with sp := lo, fsize := f })
    let t ← t.fit t.fitFuel
    .ok (t.setGrp fun g => g.putRows (x.wbase + x.fsize) lanes rows)

/-- Whether a call has no room (R92). -/
def State.callLimit (s : State) : Bool :=
  s.slot.sp.toNat < 256 || decide (s.slot.sp - 256 < s.grp.sl) || decide (65535 ≤ s.slot.depth)

/-- The window part of CALL (R89, R120): link, slide, depth. The pc is the caller's business. -/
def State.callFrame (s : State) (ret : W64) : Res State :=
  if s.callLimit then raise { code := cStackLimit, addr := s.slot.sp - 256 }
  else
    let t := s.setSlot fun x =>
      { x with
        sp := x.sp - 256, fb := x.sp - 256, fsize := 8, depth := x.depth + 1, wbase := x.wbase + x.fsize - 8
        frames := { fsize := x.fsize, fb := x.fb, ret, wbase := x.wbase, resident := true, rows := [] } :: x.frames }
    t.fit t.fitFuel

/-! ### The coil (R82 to R85) -/

/-- Base of a slot's coil: in the private region, or in the trap frame in trap mode (R82, R192). -/
def Group.coilBase (g : Group) (i : SlotId) : W64 :=
  (match g.trap with
    | some t => t.fa + 4096
    | none => g.priv) + (if i = .b then 2048 else 0)

/-- KIND codes (R83). -/
def CoilKind.code : CoilKind → Nat
  | .merge => 0
  | .resume => 1
  | .resumeCall => 2

/-- The 32 bytes of an entry (R83). -/
def CoilEntry.bytes (e : CoilEntry) : List Byte :=
  bytesOfNat 8 e.pc.toNat ++ bytesOfNat 8 e.join.toNat ++ bytesOfNat 4 e.mask.toNat ++
    bytesOfNat 4 (e.kind.code + e.depth % 65536 * 65536) ++ bytesOfNat 8 e.sp.toNat

/-- An entry from its bytes; none where a pop raises ILLEGAL_OP (R85). -/
def coilOf (bs : List Byte) : Option CoilEntry :=
  let k := field bs 20 4
  let kind := match k % 65536 with
    | 0 => some CoilKind.merge
    | 1 => some CoilKind.resume
    | 2 => some CoilKind.resumeCall
    | _ => none
  let pc := field bs 0 8
  let join := field bs 8 8
  match kind with
  | none => none
  | some kind =>
    if pc % 64 ≠ 0 ∨ join % 64 ≠ 0 then none
    else some ⟨BitVec.ofNat 64 pc, BitVec.ofNat 64 join, BitVec.ofNat 32 (field bs 16 4), kind, k / 65536,
      BitVec.ofNat 64 (field bs 24 8)⟩

/-- Pushes an entry on a slot's coil and into memory (R85). -/
def State.pushCoil (s : State) (i : SlotId) (e : CoilEntry) : Res State :=
  let a := s.grp.coilBase i + BitVec.ofNat 64 (32 * (s.grp.slot i).coil.length)
  match s.grpWrite a e.bytes with
  | .error f => raise (s.vaCause f a)
  | .ok s => .ok (s.setGrp fun g => g.setSlot i fun x => { x with coil := e :: x.coil })

/-- Pushes entries in order, the last one ending on top. -/
def State.pushAll (s : State) (i : SlotId) : List CoilEntry → Res State
  | [] => .ok s
  | e :: r => do
    let s ← s.pushCoil i e
    s.pushAll i r

/-- The top entry as a pop would read it: the device's copy, or what software wrote over it (R85). -/
def State.coilTop (s : State) : Res (Option CoilEntry × State) :=
  match s.slot.coil with
  | [] => .ok (none, s)
  | e :: r =>
    let a := s.grp.coilBase s.sel + BitVec.ofNat 64 (32 * r.length)
    let (bs, s) := match s.grpRead a 32 with
      | (.ok bs, s) => (bs, s)
      | (.error _, s) => (e.bytes, s)
    if bs = e.bytes then .ok (some e, s)
    else if Config.choice s.tick 1 % 2 = 0 then
      match coilOf bs with
      | some e => .ok (some e, s)
      | none => raise { code := cIllegal, addr := s.slot.pcb }
    else .ok (some e, s)

/-! ### Splits, arrivals and merges (R76 to R80) -/

/-- The pending join as a coil entry holds it: 0 for none. -/
def joinWord (j : Option W64) : W64 := j.getD 0
def joinOf (w : W64) : Option W64 := if w = 0 then none else some w

/-- Results of slot `i` count in the other slot as well (R76). -/
def Tags.spread (t : Tags) (i : SlotId) : Tags :=
  if t.has i then { t with a := true, b := true } else t

/-- Every tag of the current group changed. -/
def State.retag (s : State) (f : Tags → Tags) : State :=
  { s with
    grp := { s.grp with outst := s.grp.outst.map fun e => { e with tags := f e.tags } }
    wq := updateAll (fun o => o.group == s.grp.key) (fun o => { o with tags := f o.tags }) s.wq
    rtab := updateAll (fun e => e.group == s.grp.key) (fun e => { e with tags := f e.tags }) s.rtab }

/-- A destination of a split (R77, R126): where its lanes go, whether by a call. -/
structure Dest where
  pc : W64
  mask : LaneMask
  call : Bool
  deriving DecidableEq, Repr

/-- Whether the other slot can take a path (R76, R77). -/
def State.slotFree (s : State) : Bool := !(s.grp.slot s.sel.other).occ && s.grp.sjoin.isNone

/-- The path of the current slot copied into the other slot at word 1 of a bundle (R76). -/
def State.copyPath (s : State) (d : Dest) (j : W64) : State :=
  let x := s.slot
  let y : Slot :=
    { x with
      occ := true, pcb := d.pc, idx := 1, ibuf := none, mask := d.mask, pj := some j, coil := [], park := .none
      derr := none, age := s.tick, since := none, yielded := false, failed := [], farFailed := [] }
  (s.setGrp fun g => { g.setSlot s.sel.other (fun _ => y) with sjoin := some ⟨j, x.depth, x.sp⟩, olds := [] }).retag
    fun t => t.spread s.sel

/-- A coil entry with the path's depth and $sp (R76). -/
def Slot.entry (x : Slot) (pc join : W64) (mask : LaneMask) (kind : CoilKind) : CoilEntry := ⟨pc, join, mask, kind, x.depth, x.sp⟩

/-- The kind under which a destination waits (R77). -/
def Dest.kind (d : Dest) : CoilKind := if d.call then .resumeCall else .resume

/-- The current slot goes to a destination: its lanes, its pending join, its call. -/
def State.goDest (s : State) (d : Dest) (pj : Option W64) (ret : W64) : Res State := do
  let t := s.setSlot fun x => { x with mask := d.mask, pj := pj }
  let t ← if d.call then t.callFrame ret else .ok t
  .ok (t.jump d.pc)

/-- BRD into two nonempty parts (R76): `d` is the target, the rest continues at the next bundle. -/
def State.splitTwo (s : State) (d : Dest) (rest : LaneMask) (j : W64) : Res State :=
  let x := s.slot
  let next := x.pcb + 64
  if s.slotFree then
    .ok (((s.copyPath d j).setSlot fun x => { x with mask := rest, pj := some j }).jump next)
  else do
    let s ← s.pushAll s.sel [x.entry j (joinWord x.pj) x.mask .merge, x.entry d.pc j d.mask .resume]
    .ok ((s.setSlot fun x => { x with mask := rest, pj := some j }).jump next)

/-- JTV and per-lane CALLT into destinations d1, d2, … (R77): one destination is no split. -/
def State.splitMany (s : State) (ds : List Dest) (j : W64) : Res State :=
  let x := s.slot
  match ds with
  | [] => .ok (s.jump j)
  | [d] => s.goDest d x.pj j
  | d1 :: d2 :: more =>
    let later := (more.map fun d => x.entry d.pc j d.mask d.kind).reverse
    if s.slotFree then do
      let o := s.sel.other
      let s := s.copyPath d2 j
      let s ← if more.isEmpty then .ok s
        else s.pushAll o (x.entry j j (more.foldl (fun m d => m ||| d.mask) d2.mask) .merge :: later)
      let s ← if d2.call then do
            let i := s.sel
            let t ← ({ s with sel := o }).callFrame j
            Except.ok { t with sel := i }
          else Except.ok s
      s.goDest d1 (some j) j
    else do
      let s ← s.pushAll s.sel (x.entry j (joinWord x.pj) x.mask .merge :: later)
      let s ← s.pushAll s.sel [x.entry d2.pc j d2.mask d2.kind]
      s.goDest d1 (some j) j

/-- Rows of two slots joined lane by lane: those of the second in its lanes. -/
def joinRows (lanes : LaneMask) (ra rb : List (Vector W32 32)) : List (Vector W32 32) :=
  (List.range (max ra.length rb.length)).map fun i =>
    let va := ra.getD i (Vector.replicate 32 0)
    let vb := rb.getD i (Vector.replicate 32 0)
    Vector.ofFn fun l : Fin 32 => if lanes.getLsbD l then vb[l] else va[l]

/-- The resident frames the two slots of a merge have in common, each slot spilling for its own lanes what the other no
longer holds (R91); rows spilled are joined lane by lane. -/
def State.mergeFrames (s : State) (a b : Slot) : Res (List Frame × State) :=
  (List.range (min a.frames.length b.frames.length)).foldlM
    (fun (acc, s) k =>
      match a.frames[k]?, b.frames[k]? with
      | some f, some g =>
        let lb := b.lanes s.grp.live
        let f := if f.link = g.link then f else { f with link := joinRows lb (a.linkBelow k) (b.linkBelow k) }
        if f.resident && g.resident then .ok (acc ++ [f], s)
        else do
          let (a', s) ← if f.resident then s.spillFrame a k else .ok (a, s)
          let (b', s) ← if g.resident then s.spillFrame b k else .ok (b, s)
          let ra := ((a'.frames[k]?).map (·.rows)).getD []
          let rb := ((b'.frames[k]?).map (·.rows)).getD []
          .ok (acc ++ [{ f with resident := false, rows := joinRows lb ra rb }], s)
      | _, _ => .ok (acc, s))
    (([] : List Frame), s)

/-- Whether the other slot lets a path parked at its slot-level join merge (R78): a pending error of either comes first (R195). -/
def State.mergeReady (s : State) : Bool :=
  let y := s.grp.slot s.sel.other
  (!y.occ || (y.park == .join && y.pcb == s.slot.pcb && y.derr.isNone)) && s.slot.derr.isNone &&
  decide (s.count (fun t => t.a || t.b) .ld ≤ 63 ∧ s.count (fun t => t.a || t.b) .st ≤ 63 ∧
    s.count (fun t => t.a || t.b) .sm ≤ 63 ∧ s.count (fun t => t.a || t.b) .tl ≤ 63)

/-- The merge of R78: one path in slot A at word 1 of the join bundle, with the older of the two age stamps (R212). Where the frame sizes
of the two differ, that of the slot that completes the merge stands (DESIGN CHOICE, log 62). -/
def State.merge (s : State) : Res State := do
  let x := s.slot
  let y := s.grp.slot s.sel.other
  let (frames, s) ← if y.occ then
      (if s.sel = .a then s.mergeFrames x y else s.mergeFrames y x)
    else .ok (x.frames, s)
  let z : Slot :=
    { x with
      mask := ((if y.occ then x.mask ||| y.mask else x.mask) &&& s.grp.live), pj := none, park := .none, idx := 1
      frames := frames
      view := if y.occ then x.view ||| y.view else x.view
      age := if y.occ then min x.age y.age else x.age
      since := some s.tick }
  let s := (s.setGrp fun g => { g with slotA := z, slotB := {}, sjoin := none }).retag fun t => { t with a := t.a || t.b, b := false }
  .ok { s with sel := .a }

/-- What is recorded for the pending join (R79): depth and $sp. -/
def State.recorded (s : State) (top : Option CoilEntry) : Option (Nat × W64) :=
  match top with
  | some e => some (e.depth, e.sp)
  | none => s.grp.sjoin.map fun j => (j.depth, j.sp)

/-- The arrival loop of R78 with the check of R79, at bundle `a`. A path that a merge leaves without a lane goes to its own pending join,
and its slot is free where it has none (R80). -/
def State.arriveLoop : Nat → State → W64 → Res State
  | 0, s, _ => .ok s
  | n + 1, s, a =>
    if s.slot.pj ≠ some a then .ok s
    else do
      let (top, s) ← s.coilTop
      let x := s.slot
      match s.recorded top with
      | some r => must (r.1 == x.depth && r.2 == x.sp) { code := cIllegal, addr := a }
      | none => .ok ()
      let pop := fun (x : Slot) => { x with coil := x.coil.drop 1 }
      match top with
      | some e =>
        if e.kind = .merge then
          if e.pc = a then
            let t := s.setSlot fun x => { pop x with mask := e.mask &&& s.grp.live, pj := joinOf e.join }
            if e.mask &&& s.grp.live ≠ 0 then State.arriveLoop n t a
            else match joinOf e.join with
              | some j => State.arriveLoop n (t.setSlot fun x => { x with pcb := j, idx := 1, ibuf := none }) j
              | none => .ok (t.setSlot fun _ => {})
          else .ok (s.park .join)
        else if e.join ≠ a then .ok (s.park .join)
        else if e.mask &&& s.grp.live = 0 then State.arriveLoop n (s.setSlot pop) a
        else if e.kind = .resume then
          .ok (s.setSlot fun x =>
            { pop x with mask := e.mask &&& s.grp.live, sp := e.sp, pcb := e.pc, idx := 1, ibuf := none, park := .none })
        else if !s.quiet then .error (.hold (s.park .room))
        else do
          let t := s.setSlot fun x => { pop x with mask := e.mask &&& s.grp.live, sp := e.sp }
          let t ← t.callFrame a
          .ok (t.setSlot fun x => { x with pcb := e.pc, idx := 1, ibuf := none, park := .none })
      | none => .ok (s.park .join)

/-- A path arrives at its pending join (R28, R78): the bundle must have JOIN set; a path left parked merges when it can. -/
def State.arrive (s : State) : Res State := do
  let x := s.slot
  must (x.ctl.testBit 6) { code := cIllegal, addr := x.pcb }
  let s ← s.arriveLoop (x.coil.length + 2) x.pcb
  if s.slot.park = .join ∧ s.mergeReady then s.merge else .ok s

/-- A path in slot B moves to a free slot A (R80), its coil entries with it. -/
def State.normalize (s : State) : State :=
  if s.grp.slotA.occ || !s.grp.slotB.occ then s
  else
    let x := s.grp.slotB
    let s := (s.setGrp fun g => { g with slotA := { x with coil := [] }, slotB := {} }).retag
      fun t => { t with a := t.a || t.b, b := false }
    let s := { s with sel := .a }
    match s.pushAll .a x.coil.reverse with
    | .ok s => s
    | .error _ => s.setGrp fun g => g.setSlot .a fun y => { y with coil := x.coil }

/-! ### Futures (R75, R213 to R216) -/

/-- HELD of a status word (R213). -/
def held (status : W32) : Bool := status.getLsbD 8

/-- Whether an operation may be issued into a future (R213). -/
def Future.open (f : Future) : Bool :=
  match f.state with
  | .pending => false
  | .resolved => !held f.status
  | .idle => true

/-- FUTURE_INVALID naming a future (R194). -/
def State.futureInvalid (s : State) (f : FReg) : Cause := { code := cFuture, addr := s.pc, aux0 := f.zeroExtend 64 }

/-- Both views of a future changed, of the interrupted slots too (R75, R196). -/
def Group.setView (g : Group) (f : Nat) (pending : Bool) : Group :=
  let put (x : Slot) : Slot := { x with view := if pending then x.view ||| (1#16 <<< f) else x.view &&& ~~~(1#16 <<< f) }
  { g with
    slotA := put g.slotA, slotB := put g.slotB
    trap := g.trap.map fun t => { t with slotA := put t.slotA, slotB := put t.slotB } }

/-- An operation is issued into a future (R213). -/
def State.issueFut (s : State) (f : FReg) (op : Nat) : State :=
  (s.setFut f ⟨.pending, 0, op⟩).setGrp fun g => g.setView f.toNat true

/-- A future set to a state that is not pending. -/
def State.settleFut (s : State) (f : FReg) (v : Future) : State :=
  (s.setFut f v).setGrp fun g => g.setView f.toNat false

/-- A path parked in FWAIT on a future that becomes idle raises FUTURE_INVALID when it goes on (R217). -/
def Slot.orphan (x : Slot) (f : FReg) : Slot :=
  match x.park with
  | .future k _ => if k = f then { x with park := .gone f } else x
  | _ => x

/-- A future that FCANCEL or FEXP makes idle (R215, R217). -/
def State.idleFut (s : State) (f : FReg) : State :=
  (s.settleFut f {}).setGrp fun g =>
    { g with
      slotA := g.slotA.orphan f, slotB := g.slotB.orphan f
      trap := g.trap.map fun t => { t with slotA := t.slotA.orphan f, slotB := t.slotB.orphan f } }

/-- One group's futures: the pending one that holds operation `op` is resolved. -/
def Group.resolve (g : Group) (op : Nat) (status : W32) : Group :=
  (List.range 16).foldl
    (fun g k =>
      match g.f[k]? with
      | some x => if x.state = .pending ∧ x.op = op then ({ g with f := g.f.setIfInBounds k ⟨.resolved, status, op⟩ }).setView k false else g
      | none => g) g

/-- An export entry that holds operation `op` is resolved (R216). -/
def Gang.resolve (g : Gang) (op : Nat) (status : W32) : Gang :=
  { g with
    expo := updateAll (fun e => e.live && e.fut.state == .pending && e.fut.op == op)
      (fun e => { e with fut := ⟨.resolved, status, op⟩ }) g.expo }

/-- An operation resolves with a status, wherever its future stands: a group, an export table, or a saved gang, whose
resolution goes to the synchronisation engine (R75, R216, R335, R336). -/
def State.resolve (s : State) (op : Nat) (status : W32) : State :=
  let inGroup (g : Group) := g.f.toList.any fun x => x.state == .pending && x.op == op
  let inSaved := s.saved.any fun v => v.groups.any inGroup || v.gang.expo.any fun e => e.live && e.fut.state == .pending && e.fut.op == op
  { s with
    grp := s.grp.resolve op status
    groups := s.groups.map fun g => g.resolve op status
    gangs := s.gangs.map fun g => g.resolve op status
    resolutions := if inSaved then s.resolutions ++ [(op, status)] else s.resolutions }

/-- A status word (R213). -/
def statusWord (code : Nat) (held : Bool) (detail : Nat) : W32 :=
  BitVec.ofNat 32 (code % 256 + (if held then 256 else 0) + detail % 65536 * 65536)

/-! ### The end of a context (R329) -/

/-- A record of 8-byte words written in ascending order through a context's translation, until one cannot be (R329). -/
def State.writeWords (s : State) (w : Here) : W64 → List W64 → Bool × State
  | _, [] => (true, s)
  | a, v :: r =>
    match s.writeVa w .pkg a (bytesOfNat 8 v.toNat) with
    | (.ok _, s) => s.writeWords w (a + 8) r
    | (.error _, s) => (false, s)

/-- Whether an operation stops with its context (R329); the others run on without an issuer (R380, R436). -/
def OpKind.stops : OpKind → Bool
  | .gather _ => true
  | .tcopy _ => true
  | .put _ => true
  | _ => false

/-- Whether an operation belongs to a context. -/
def EngineOp.ofCtx (o : EngineOp) (vf part : Nat) : Bool := o.vf == vf && o.part == part

/-- The operations left when a context ends: those that stop are gone, its others go on without an issuer (R329). -/
def opsAfter (l : List EngineOp) (vf part : Nat) : List EngineOp :=
  (l.filter fun o => !(o.ofCtx vf part && o.kind.stops)).map fun o => if o.ofCtx vf part then { o with live := false } else o

/-- A launch that runs ends without running further (R329); one that has failed its checks, has retired its gangs or is an invalidate
keeps its status. -/
def Launch.stop (l : Launch) : Launch :=
  if l.status = 0 ∧ l.inval = false ∧ l.retired < l.gangs then { l with status := 2, unplaced := [] } else l

/-- The context's groups, gangs and operations are gone, its launches ended with a status, its bank and shares freed; the host is
notified (R329, R403). -/
def State.endContext (s : State) (vf part : Nat) : State :=
  let keys := (s.gangs.filter fun g => g.vf == vf && g.part == part).map (·.key)
  let mine (g : Group) := g.vf == vf && g.part == part
  let active (c : Ctx) (a : Nat × Nat) : Bool := c.state == .active && c.bank == a.2
  let on : Bool := (s.ctx vf part).any fun c => c.state == .active
  let s : State := if on then s.settleCredits part else s
  let s : State := { s with
    grp := if mine s.grp then { s.grp with live := 0, slotA := {}, slotB := {}, sjoin := none, outst := [], raised := none, trap := none } else s.grp
    groups := s.groups.filter fun g => !mine g
    gangs := s.gangs.filter fun g => g.key ∉ keys
    planes := s.planes.filter fun p => p.gang ∉ keys
    rtab := s.rtab.filter fun e => e.gang ∉ keys
    ops := opsAfter s.ops vf part
    shares := s.shares.filter fun h => !(h.vf == vf && h.part == part)
    abank := s.abank.filter fun a => !(a.1 == part && (s.ctx vf part).any fun c => active c a)
    recs := s.recs.filter fun x => !(x.vf == vf && x.part == part)
    misses := s.misses.filter fun x => !(x.vf == vf && x.part == part)
    rtlb := s.rtlb.filter fun x => !(x.vf == vf && x.part == part)
    posted := s.posted.filter fun x => !(x.vf == vf && x.part == part && !x.ran)
    host := s.host ++ [.msix vf 128]
    saved := s.saved.filter fun v => !(v.gang.vf == vf && v.gang.part == part)
    launches := updateAll (fun l => l.vf == vf && l.part == part) Launch.stop s.launches }
  s.setCtx vf part fun c =>
    { c with
      state := .terminated, carry := 0, readers := [], lastSlice := if on then s.tick + 1 else c.lastSlice
      graces := c.graces.map fun g => { g with readers := [] } }

/-- A context is terminated (R329): the record goes to DIAG of the launch named. -/
def State.terminate (s : State) (vf part launch : Nat) (record : List W64) : State :=
  let s := match s.launches.find? fun l => l.id == launch with
    | some l =>
      if l.diag = 0 then s
      else
        let (ok, s) := s.writeWords ⟨s.grp.die, 0, 0, part, vf⟩ l.diag record
        { s with launches := updateFirst (fun l => l.id == launch) (fun l => { l with trec := ok }) s.launches }
    | none => s
  s.endContext vf part

/-- The program counter that a termination record shows for a slot (R329). -/
def Slot.pcWord (x : Slot) : W64 := if x.occ then x.pc else 0

/-- The current group's context is terminated for a cause (R190, R198): `double` under DOUBLE_FAULT. -/
def State.terminateFor (s : State) (c : Cause) (double : Bool) : State :=
  let g := s.grp
  let gang := s.gang g.gang
  let who := g.gid % 256 + (if double then 0x100 else 0) + gang.index % 2 ^ 32 * 2 ^ 32
  s.terminate g.vf g.part gang.launch
    [c.word s.sel double, c.addr, c.aux0, c.aux1, BitVec.ofNat 64 who, g.slotA.pcWord, g.slotB.pcWord, BitVec.ofNat 64 s.time]

/-! ### Taking a trap (R190 to R196) -/

/-- Whether the groups of a group's context issue: its bank is the one that ABANK names (R205, R331). A group without a context
does not exist on the device; it runs. -/
def State.runs (s : State) (g : Group) : Bool :=
  match s.ctx g.vf g.part with
  | some c => c.state == .active
  | none => true

/-- Whether a parked path of the current group may go on: its bank is active and no trap of the group waits for its drain (R191, R205). -/
def State.stirs (s : State) : Bool := s.runs s.grp && s.grp.raised.isNone

/-- STATE of a slot block (R193). -/
def Slot.stateCode (x : Slot) : Nat :=
  if !x.occ then 0
  else match x.park with
    | .join => 2
    | .sleep _ _ => 3
    | _ => 1

/-- The block of a slot (R193). -/
def State.slotBlock (s : State) (i : SlotId) : List W64 :=
  let x := s.grp.slot i
  if !x.occ then List.replicate 12 0
  else
    let err := x.derr.isSome
    [x.pcb,
     BitVec.ofNat 64 (x.idx % 16 + x.stateCode * 16 + (if err then 64 else 0) + x.mask.toNat * 2 ^ 32),
     joinWord x.pj,
     s.wcnt (fun t => t.has i),
     BitVec.ofNat 64 (x.view.toNat + x.depth % 65536 * 2 ^ 16 + x.fsize * 2 ^ 32 + x.coil.length * 2 ^ 40),
     x.sp, x.fb,
     match x.park with
      | .sleep _ d => BitVec.ofNat 64 d
      | _ => 0,
     (x.derr.map (·.ea)).getD 0, (x.derr.map (·.epc)).getD 0, 0, 0]

/-- A future's word in the frame (R192). -/
def Future.word (f : Future) : W64 :=
  BitVec.ofNat 64 ((match f.state with
    | .idle => 0
    | .pending => 1
    | .resolved => 2) + f.status.toNat * 2 ^ 32)

/-- Words 0 to 511 of the trap frame (R192). -/
def State.frameWords (s : State) (c : Cause) : List W64 :=
  let g := s.grp
  let words : List W64 :=
    [c.word s.sel false, c.addr, c.aux0, c.aux1, g.live.zeroExtend 64] ++
    (match g.sjoin with
      | some j => [j.addr, BitVec.ofNat 64 (j.depth % 65536), j.sp]
      | none => [0, 0, 0]) ++
    s.slotBlock .a ++ s.slotBlock .b ++
    g.f.toList.map Future.word ++
    (List.range 4).map (fun k => BitVec.ofNat 64 (((g.p[2 * k]?).getD 0).toNat + ((g.p[2 * k + 1]?).getD 0).toNat * 2 ^ 32)) ++
    [0, 0, 0, 0, g.fmode, g.rngk, g.rngc, g.rsd.zeroExtend 64, BitVec.ofNat 64 s.time, 0, 0, 0] ++
    g.s.toList
  words ++ List.replicate (512 - words.length) 0

/-- Results of the live slots become those of the interrupted slots (R191). -/
def Tags.interrupt (t : Tags) : Tags := { ia := t.a || t.ia, ib := t.b || t.ib }

/-- The lower $sp of the occupied slots (R196). -/
def Group.lowSp (g : Group) : W64 :=
  if !g.slotB.occ then g.slotA.sp else if !g.slotA.occ then g.slotB.sp
  else if g.slotA.sp < g.slotB.sp then g.slotA.sp else g.slotB.sp

/-- The handler's slot A at entry (R196). -/
def State.handlerSlot (s : State) (entry : W64) : Slot :=
  let g := s.grp
  let top (x : Slot) := if x.occ then x.wbase + x.fsize else 0
  { occ := true, pcb := entry, mask := g.live, view := g.slotA.view ||| g.slotB.view, fsize := 8, fb := g.lowSp
    sp := g.lowSp, wbase := max (top g.slotA) (top g.slotB), age := s.tick }

/-- What a GRED's watchdog left at a drain is a data error when the slot resumes (R372). -/
def Slot.dataErr (x : Slot) : Slot := { x with derr := x.derr.map fun e => { e with code := cDataError } }

/-- Trap mode is entered (R191 step 6, R196). -/
def State.enterTrap (s : State) (entry : W64) : Res State :=
  let h := s.handlerSlot entry
  let s := (s.setGrp fun g =>
    { g with
      trap := some ⟨g.tfp, g.slotA.dataErr, g.slotB.dataErr, g.sjoin, g.sl⟩
      slotA := h, slotB := {}, sjoin := none, olds := [] }).retag Tags.interrupt
  let s := { s with sel := .a }
  let rows := s.exposed h.wbase 8
  do
    let s ← s.fit s.fitFuel
    .ok (s.setGrp fun g => g.putRows h.wbase g.live rows)

/-- Whether a queued entry is a device write of a group: a coil entry, a spilled row, a trap frame (R85, R91, R191). -/
def StoreOp.ofDevice (o : StoreOp) (key : Nat) : Bool := o.group == key && o.cnt == .none

/-- TAKING A TRAP (R190, R191, R198): the current slot's pc already holds the resume address; every result has returned, or returns
now, and every coil entry is in memory. -/
def State.takeTrap (s : State) (c : Cause) : State :=
  if s.inTrap then s.terminateFor c true
  else
    let entry := (s.gang s.grp.gang).trapEntry
    if entry = 0 then s.terminateFor c false
    else
      let s := (s.returnAll fun _ => true).drainQueue fun o => o.ofDevice s.grp.key
      match s.grpWrite s.grp.tfp ((s.frameWords c).flatMap fun w => bytesOfNat 8 w.toNat) with
      | .error f => s.terminateFor { c with code := f.code } true
      | .ok t =>
        match t.enterTrap entry with
        | .ok t => t
        | .error (.raise d) => t.terminateFor { c with code := d.code } true
        | .error (.hold t) => t

/-- Whether a result is with another package, with near memory or in the reservation table, so that a drain must wait for it. -/
def State.mustWait (s : State) : Bool :=
  (s.rtab.any fun e => e.group == s.grp.key && e.kind.isTld) || s.grp.outst.any fun e => e.isRemote || e.isGred

/-- An instruction raises a code: the trap is taken with the resume address that `resume` sets. While results are still with another
package, near memory or the reservation table the code stays raised, no path of the group issues, and the trap is taken when they have
returned (R191, log 13); while others are outstanding it may also be taken later. A code that ends the context is recorded where it was
raised (R198, R329). -/
def State.trapTo (s : State) (c : Cause) (resume : State → State) : State :=
  if s.inTrap || (s.gang s.grp.gang).trapEntry == 0 then s.takeTrap c
  else
    let t := resume s
    if t.mustWait || (t.grp.outst != [] && Config.choice s.tick 2 % 2 == 1) then t.setGrp fun g => { g with raised := some (t.sel, c) }
    else t.takeTrap c

/-- A code raised by the instruction at the program counter. -/
def State.trap (s : State) (c : Cause) : State := s.trapTo c id

/-- The outcome of an operation that may stop short. -/
def finish (s : State) (r : Res State) : Out :=
  match r with
  | .ok t => .next t
  | .error (.raise c) => .next (s.trap c)
  | .error (.hold t) => .next t

/-! ### Returning from a trap (R197) -/

/-- Tags after RETT: the interrupted slots are live again; what the handler left outstanding counts no more. -/
def Tags.resume (t : Tags) : Tags := { a := t.ia, b := t.ib }

/-- Rows filled again where they can be read: what memory holds, or what was spilled (R93, R196, R197). Where they cannot, the device's own
copy stands (DESIGN CHOICE, log 63). -/
def State.fillOr (s : State) (lanes : LaneMask) (point : Nat) (a : W64) (rows : List (Vector W32 32)) : List (Vector W32 32) × State :=
  match s.rowsFill lanes point a rows with
  | .ok r => r
  | .error _ => (rows, s)

/-- The register area of a frame of a resumed slot filled again, and the registers above it kept. -/
def State.refill (s : State) (x : Slot) (area : W64) (wbase : Nat) (rows : List (Vector W32 32)) (stored : Nat) : State :=
  let lanes := x.lanes s.grp.live
  let (r, s) := s.fillOr lanes 0x2000 area (rows.take stored)
  s.setGrp fun g => g.putRows wbase lanes (r ++ rows.drop stored)

/-- The frames of a resumed slot made resident, newest first, while they fit (R197). -/
def State.refillSlot (s : State) (x : Slot) : Slot × State :=
  let (x, s) := match x.cur with
    | some rows =>
      let s := s.refill x (areaOf x.fb x.fsize) x.wbase rows (x.fsize - 8)
      let (link, s) := s.fillOr (x.lanes s.grp.live) 0x6000 x.fb (x.linkBelow 0)
      (({ x with cur := none } : Slot).relink 0 link, s)
    | none => (x, s)
  (List.range x.frames.length).foldl
    (fun (x, s) k =>
      match x.frames[k]? with
      | some f =>
        if f.resident || decide (s.grp.vrf.length < x.wbase + x.fsize - f.wbase) then (x, s)
        else
          let s := s.refill x (areaOf f.fb f.fsize) f.wbase (f.rows.take (f.fsize - 8)) (f.fsize - 8)
          let (link, s) := s.fillOr (x.lanes s.grp.live) 0x6000 f.fb (f.rows.drop (f.fsize - 8))
          (({ x with frames := x.frames.set k { f with resident := true, rows := [] } } : Slot).relink (k + 1) link, s)
      | none => (x, s)) (x, s)

/-- Whether a path is asleep (R131). -/
def Slot.isAsleep (x : Slot) : Bool :=
  match x.park with
  | .sleep _ _ => true
  | _ => false

/-- A slot as RETT resumes it (R197): pc and mask from the frame, the rest from the device's copy. A parked path stays
parked while its pc is unchanged; a WAITA executes again; one at its join arrives again; one asleep sleeps on, wherever it is to start. -/
def Slot.resumed (x : Slot) (pcb w1 : W64) : Slot :=
  let idx := w1.toNat % 16
  let same := pcb == x.pcb && idx == x.idx
  { x with
    pcb := pcb, idx := idx, mask := w1.extractLsb' 32 32, ibuf := none, failed := [], farFailed := [], moved := !same && x.isAsleep
    park := match x.park with
      | .sleep d t => .sleep d t
      | .join | .waita _ | .miss | .fetch | .room => .none
      | p => if same then p else .none }

/-- The words of the frame that RETT restores, and those between them: first word, words, whether they are read (R192, R193). -/
def restoreWords : List (Nat × Nat × Bool) :=
  [(0, 8, false), (8, 2, true), (10, 10, false), (20, 2, true), (22, 26, false), (48, 4, true), (52, 4, false), (56, 3, true), (59, 5, false)] ++
    (List.range 16).map fun i => (64 + 4 * i, 4, true)

/-- The first 128 words of the frame as RETT reads them, zeros for those it does not restore. -/
def State.readFrame (s : State) (fa : W64) : List (Nat × Nat × Bool) → Res (List Byte × State)
  | [] => .ok ([], s)
  | (o, n, read) :: more => do
    let a := fa + BitVec.ofNat 64 (8 * o)
    let (bs, s) ← if read then match s.grpRead a (8 * n) with
        | (.ok bs, s) => Except.ok (bs, s)
        | (.error f, _) => raise (s.vaCause f a)
      else Except.ok (List.replicate (8 * n) 0, s)
    let (rest, s) ← s.readFrame fa more
    .ok (bs ++ rest, s)

/-- The words of the frame that RETT restores, and its checks (R197). -/
def State.rettBody (s : State) (t : TrapCtx) : Res State := do
  let (bs, s) ← s.readFrame t.fa restoreWords
  let word (i : Nat) : W64 := BitVec.ofNat 64 (field bs (8 * i) 8)
  let fm := word 56
  must (fm.toNat % 8 < 6 && fm.toNat < 512) { code := cIllegal, addr := s.pc }
  let block (x : Slot) (o : Nat) : Res Unit :=
    if !x.occ then .ok ()
    else do
      must ((word o).toNat % 64 == 0) { code := cBranchAlign, addr := word o }
      let w1 := word (o + 1)
      let m := w1.extractLsb' 32 32
      must (w1.toNat % 16 != 0 && m != 0 && m &&& ~~~s.grp.live == 0) { code := cIllegal, addr := s.pc }
  block t.slotA 8
  block t.slotB 20
  must (!(t.slotA.occ && t.slotB.occ && ((word 9).extractLsb' 32 32 &&& (word 21).extractLsb' 32 32) != 0))
    { code := cIllegal, addr := s.pc }
  let s := s.setGrp fun g =>
    { g with
      s := Vector.ofFn fun i => word (64 + i)
      p := Vector.ofFn fun i => (word (48 + i / 2)).extractLsb' (32 * (i.val % 2)) 32
      fmode := fm, rngk := word 57, rngc := word 58 }
  let (a, s) := s.refillSlot t.slotA
  let (b, s) := s.refillSlot t.slotB
  let s := (s.setGrp fun g =>
    { g with
      slotA := if a.occ then a.resumed (word 8) (word 9) else a
      slotB := if b.occ then b.resumed (word 20) (word 21) else b
      sjoin := t.sjoin, olds := [], trap := none }).retag Tags.resume
  .ok { s with sel := if a.occ then .a else .b }

/-- RETT (R197). The handler's results that are outstanding return first, their errors discarded, and RETT waits for those of other packages,
near memory and tables (DESIGN CHOICE, log 64). -/
def State.returnTrap (s : State) : Res State :=
  match s.grp.trap with
  | none => s.illegal
  | some t =>
    if s.sel ≠ .a ∨ s.grp.slotB.occ ∨ s.slot.coil ≠ [] ∨ s.slot.depth ≠ 0 ∨ s.slot.mask ≠ s.grp.live then s.illegal
    else if s.cnt .st ≠ 0 ∨ s.cnt .sm ≠ 0 then .error (.hold (s.park .drain))
    else if s.mustWait then .error (.hold (s.park .drain))
    else (s.returnAll fun e => e.tags.a).rettBody t

/-! ### Release and acquire (R185, R304) -/

/-- Whether an entry's sectors or lines concern the die's points: everything but local and remote stores. -/
def StoreOp.isGlobal (o : StoreOp) : Bool :=
  match o.kind with
  | .store _ _ _ _ => true
  | .red _ _ _ _ _ => true
  | .cctl _ _ => true
  | _ => false

/-- Whether an entry's accesses are performed at .grp once they are in the queue (R176, R300): stores to NORMAL pages. -/
def StoreOp.near (o : StoreOp) : Bool :=
  match o.kind with
  | .store _ _ lanes _ => lanes.all fun l => l.pieces.all fun p => p.kind == .normal
  | _ => false

/-- The accesses that come before the selected path's next one in program order (R298): its own, in trap mode those of both interrupted
slots, and those of a slot whose path has ended. -/
def State.earlier (s : State) (t : Tags) : Bool :=
  t.has s.sel || (s.inTrap && (t.ia || t.ib)) || (t.has s.sel.other && !s.shared)

/-- Whether a release must wait: at .sys for the path's accesses to other packages (R308), at any scope for a result that is blocked by one
(R185, R302). -/
def State.releaseWaits (s : State) (sc : Scope) : Bool :=
  let mine (t : Tags) := s.earlier t
  (sc == .sys && (s.wq.any (fun o => o.group == s.grp.key && mine o.tags && o.unanswered) ||
    s.grp.outst.any fun e => mine e.tags && e.isRemote)) ||
  s.awaits fun e => mine e.tags && e.cnt != .sfu && !e.isRemote && !e.isGred

/-- Whether an acquire must wait for loads of another package, or for a result that is blocked by one (R302, R303, R308). -/
def State.acquireWaits (s : State) (sc : Scope) : Bool :=
  (sc == .sys && s.grp.outst.any fun e => s.earlier e.tags && e.isRemote) ||
  s.awaits fun e => s.earlier e.tags && e.cnt != .sfu && !e.isRemote && !e.isGred

/-- The stores of the selected path to a lost package (R423). -/
def State.lostStore (s : State) : Option Nat :=
  (s.wq.find? fun o => o.group == s.grp.key && s.earlier o.tags && o.lost.isSome).bind (·.lost)

/-- The release part of a fence at a scope (R185, R304): what the path accessed is performed, with every store that the core
performed at .grp; at .pkg and .sys the die's dirty sectors of the partition go to the base dies. Accesses to other packages
hold a .sys release; every release of .grp or wider waits for loads (R303). -/
def State.release (s : State) (sc : Scope) : Res State :=
  let mine (t : Tags) := s.earlier t
  let w := s.grp.here
  if s.releaseWaits sc then .error (.hold (s.park (.release sc)))
  else
    let lost := if sc = .sys then s.lostStore else none
    let s := s.returnAll fun e => mine e.tags && e.cnt != .sfu
    let s := s.drainQueue fun o => o.group == s.grp.key && mine o.tags && !o.near && !o.isRemote
    let s := if isNarrow sc then s else s.drainQueue fun o => o.ofCore w && o.isGlobal
    let s := if isWide sc then (s.cleanPart fun x => x.die == w.die && x.part == w.part).ackAll (fun x => x.die == w.die && x.part == w.part) else s
    match lost with
    | some p =>
      .error (.hold (s.trapTo { code := cRemotePeer, addr := s.pc, aux0 := BitVec.ofNat 64 p } fun s =>
        { s with wq := s.wq.filter fun o => !(o.group == s.grp.key && mine o.tags && o.lost.isSome) }))
    | none => .ok s

/-- Clean NORMAL copies dropped by an acquire (R185). -/
def State.dropClean (s : State) (w : Here) (sc : Scope) : State :=
  let s := if isNarrow sc then s else s.l1Drop fun x => x.die == w.die && x.cluster == w.cluster && x.core == w.core
  if isWide sc then s.l2Drop fun x => x.die == w.die && x.part == w.part && x.dirty == 0 else s

/-- The acquire part of a fence at a scope (R185): the path's outstanding loads are performed first (R303, log 14); only a .sys fence
waits for those of another package (R308). -/
def State.acquire (s : State) (sc : Scope) : State :=
  if s.acquireWaits sc then s.park (.acquire sc (s.slot.park == .switch))
  else
    let s := s.returnAll fun e => s.earlier e.tags && e.cnt != .sfu
    -- stores queued for a sector stay ahead of a later fill of it: they are drained when the sector is read
    s.dropClean s.grp.here sc

/-- Whether an order has a release part, or an acquire part (R16). -/
def releases : Order → Bool
  | .rel | .ar => true
  | _ => false
def acquires : Order → Bool
  | .acq | .ar => true
  | _ => false

/-- The release part that an order asks for. -/
def State.releaseFor (s : State) (ord : Order) (sc : Scope) : Res State := if releases ord then s.release sc else .ok s

/-- The acquire part that an order asks for. -/
def State.acquireFor (s : State) (ord : Order) (sc : Scope) : State := if acquires ord then s.acquire sc else s

/-! ### Fresh names -/

/-- A fresh name for an operation, a result or a gang. -/
def State.fresh (s : State) : Nat × State := (s.nextId, { s with nextId := s.nextId + 1 })

end Sys2Proof.Machine
end

