-- ==== Sys2Proof/Machine/Operands.lean ====
section
/-! DEFINITION. Vector operands: registers, pairs and quads of a frame, scalars and literals broadcast, frame bounds and
the interlock; rounding modes and random draws (R10, R101, R102, R138 to R140, R159, R166, R174). -/
namespace Sys2Proof.Machine

/-- A vector operand's source (R138): a register, pair or quad, a scalar register broadcast, a literal broadcast. -/
inductive Src where
  | v (r : VReg)
  | s (r : SReg)
  | lit (x : W64)
  deriving DecidableEq, Repr

/-- The operand that M[3] selects (R138). -/
def srcOf (scalar : Bool) (r : BitVec 6) : Src := if scalar then .s r else .v r

/-- One lane of `n` registers from register `r` of the current frame (R88, R170). -/
def State.vlane (s : State) (r : VReg) (n lane : Nat) : BitVec 128 := s.grp.vgetWide (s.slot.wbase + r.toNat) n lane

/-- One lane of an operand of a 32-bit or 64-bit type, as a number (R138, R140). -/
def State.src (s : State) (x : Src) (t : Ty) (lane : Nat) : Nat :=
  match x with
  | .v r => (s.vlane r (tyRegs t) lane).toNat
  | .s r => (s.rs r).toNat % 2 ^ t.width
  | .lit v => v.toNat % 2 ^ t.width

/-- The registers an operand reads. -/
def Src.reads (x : Src) (n : Nat) : List (VReg × Nat) :=
  match x with
  | .v r => [(r, n)]
  | _ => []

/-- Registers `r` to `r + n - 1` lie below the frame size (R10). -/
def State.inFrame (s : State) (x : VReg × Nat) : Bool := decide (x.1.toNat + x.2 ≤ s.slot.fsize)

/-- An outstanding result of the path will still write one of the registers (R159, R174). -/
def State.locked (s : State) (x : VReg × Nat) : Bool :=
  let lo := s.slot.wbase + x.1.toNat
  let hits (pos n : Nat) := decide (pos < lo + x.2 ∧ lo < pos + n)
  (s.grp.outst.any fun e => e.tags.has s.sel && hits e.pos e.regs) ||
  s.rtab.any fun e => e.group == s.grp.key && e.tags.has s.sel && match e.kind with
    | .tld _ _ _ pos _ => hits pos 8
    | _ => false

/-- The checks of a vector instruction at execution: frame bounds, then the interlock of its destinations (R10, R174). -/
def State.vcheck (s : State) (reads writes : List (VReg × Nat)) : Res Unit :=
  if !(reads ++ writes).all s.inFrame then s.illegal
  else if writes.any s.locked then .error (.hold (s.park .room))
  else .ok ()

/-- One register position with some lanes replaced. -/
def mixLanes (old : Vector W32 32) (mask : LaneMask) (f : Nat → W32) : Vector W32 32 :=
  Vector.ofFn fun l => if mask.getLsbD l then f l else old[l]

/-- `n` registers from `r` written in the lanes of a mask; lane values are numbers, their low words first (R138). -/
def State.vput (s : State) (r : VReg) (n : Nat) (mask : LaneMask) (f : Nat → Nat) : State :=
  s.setGrp fun g =>
    (List.range n).foldl
      (fun g i =>
        let pos := s.slot.wbase + r.toNat + i
        { g with
          vrf := g.vrf.set (pos % g.vrf.length) (mixLanes (g.vpos pos) mask fun l => BitVec.ofNat 32 (f l / 2 ^ (32 * i))) }) g

/-- The flags that some lane of a mask raises (R138). -/
def flagsOver (mask : LaneMask) (f : Nat → Flags) : Flags :=
  (List.range 32).foldl (fun acc l => if mask.getLsbD l then acc ||| f l else acc) 0

/-- Sticky flags set (R71). -/
def State.orFlags (s : State) (fl : Flags) : State := s.setGrp fun g => { g with fmode := g.fmode ||| fl }

/-- The rounding mode in force: DYN takes RM of $fmode (R71, R101). -/
def State.mode (s : State) (r : Rnd) : Rnd :=
  match r with
  | .dyn => match s.grp.fmode.toNat % 8 with
    | 0 => .rne
    | 1 => .rtz
    | 2 => .rup
    | 3 => .rdn
    | 4 => .rna
    | _ => .sr
  | m => m

/-- The generator function H (R166). -/
def hashH (key x : W64) : W32 :=
  let z := x ^^^ key
  let z := (z ^^^ (z >>> 33)) * 0xA3C51E975B2D4F61
  let z := (z ^^^ (z >>> 29)) * 0x7F4A9C23E816D0B5
  (z ^^^ (z >>> 32)).extractLsb' 0 32

/-- Draw number `n + j` of a lane, n the group's counter (R102, R166). -/
def State.draw (s : State) (j lane : Nat) : Nat :=
  (hashH s.grp.rngk (32 * (s.grp.rngc + BitVec.ofNat 64 j) + BitVec.ofNat 64 lane)).toNat

/-- The counter after `c` draws. -/
def State.drawn (s : State) (c : Nat) : State := s.setGrp fun g => { g with rngc := g.rngc + BitVec.ofNat 64 c }

/-- The shape of a vector instruction (R138): `d` receives `f l` in each active lane, flags are gathered, and the path goes
on by `words`. -/
def vecOp (s : State) (words : Nat) (g : Option Guard) (reads : List (VReg × Nat)) (d : VReg) (n : Nat)
    (f : Nat → Nat × Flags) : Out :=
  finish s do
    s.vcheck reads [(d, n)]
    let m := s.active g
    .ok (((s.vput d n m fun l => (f l).1).orFlags (flagsOver m fun l => (f l).2)).advance words)

/-- As `vecOp`, for instructions that set no flag. -/
def vecInt (s : State) (words : Nat) (g : Option Guard) (reads : List (VReg × Nat)) (d : VReg) (n : Nat) (f : Nat → Nat) : Out :=
  vecOp s words g reads d n fun l => (f l, 0)

/-- As `vecOp`, for instructions that round: `f mode draw l`, `draws` draws under SR (R102). -/
def vecRound (s : State) (words : Nat) (g : Option Guard) (rnd : Rnd) (draws : Nat) (reads : List (VReg × Nat)) (d : VReg) (n : Nat)
    (f : Rnd → (Nat → Nat) → Nat → Nat × Flags) : Out :=
  let mode := s.mode rnd
  finish s do
    s.vcheck reads [(d, n)]
    let m := s.active g
    let r := fun l => f mode (fun j => s.draw j l) l
    let t := (s.vput d n m fun l => (r l).1).orFlags (flagsOver m fun l => (r l).2)
    .ok ((if mode = .sr then t.drawn draws else t).advance words)

/-- The shape of a vector instruction that writes a predicate in the active lanes. -/
def predOp (s : State) (words : Nat) (g : Option Guard) (reads : List (VReg × Nat)) (d : PReg) (f : Nat → Bool × Flags) : Out :=
  finish s do
    s.vcheck reads []
    let m := s.active g
    let v := (s.rp d &&& ~~~m) ||| (maskOf (fun l => (f l).1) &&& m)
    .ok (((s.setRp d v).orFlags (flagsOver m fun l => (f l).2)).advance words)

/-- The shape of an instruction that writes one scalar register. -/
def scalarOp (s : State) (words : Nat) (d : SReg) (v : W64) : Out := .next ((s.setRs d v).advance words)

/-- Whether a relation of R40 holds between two `w`-bit numbers. -/
def cmpHolds (cc : Cmp) (w x y : Nat) : Bool :=
  match cc with
  | .eq => x == y
  | .ne => x != y
  | .lt => decide (signedOf w x < signedOf w y)
  | .le => decide (signedOf w x ≤ signedOf w y)
  | .gt => decide (signedOf w y < signedOf w x)
  | .ge => decide (signedOf w y ≤ signedOf w x)
  | .ltu => decide (x < y)
  | .leu => decide (x ≤ y)
  | .gtu => decide (y < x)
  | .geu => decide (y ≤ x)

/-- A bit field extracted and inserted at a width (R116, R145). -/
def extractField (w : Nat) (signed : Bool) (a pos width : Nat) : Nat :=
  let f := bits a pos width
  if signed then wrap w (signedOf width f) else f
def insertField (w d a pos width : Nat) : Nat :=
  let m := (2 ^ width - 1) * 2 ^ pos
  (d &&& (2 ^ w - 1 - m)) + a % 2 ^ width * 2 ^ pos

/-- Shifts of a `w`-bit number by n (R115, R144). -/
def shiftLeft (w a n : Nat) : Nat := if w ≤ n then 0 else a * 2 ^ n % 2 ^ w
def shiftRight (w a n : Nat) : Nat := if w ≤ n then 0 else a / 2 ^ n
def shiftArith (w a n : Nat) : Nat :=
  if w ≤ n then if a.testBit (w - 1) then 2 ^ w - 1 else 0 else wrap w (signedOf w a / (2 ^ n : Nat))

/-- A number read as a type reads it: signed under .iN, unsigned otherwise (R142). -/
def valueOf (t : Ty) (v : Nat) : Int :=
  match t with
  | .i32 => signedOf 32 v
  | .i64 => signedOf 64 v
  | _ => v

/-- A number read as signed, or as unsigned with .u. -/
def signOr (u : Bool) (w v : Nat) : Int := if u then v else signedOf w v

/-- Minimum and maximum by a signed or unsigned reading: the operand itself. -/
def minBy (u : Bool) (w x y : Nat) : Nat := if signOr u w y < signOr u w x then y else x
def maxBy (u : Bool) (w x y : Nat) : Nat := if signOr u w x < signOr u w y then y else x

/-- An exact integer put into a destination: wrapped, or clamped with SAT to the range of the type (R100, R142). -/
def intResult (t : Ty) (sat : Bool) (x : Int) : Nat :=
  let signed := match t with
    | .i32 => true
    | .i64 => true
    | _ => false
  wrap t.width (if sat then clampInt (intRange t.width signed) x else x)

/-- A die's service (R407 to R409). -/
def State.die (s : State) (d : Nat) : Die := (s.dies.toList[d]?).getD {}

end Sys2Proof.Machine
end

