-- ==== Sys2Proof/Machine/Reach.lean ====
section
/-! DEFINITION. Effective addresses and the staged checks of a memory instruction (R54, R169 to R173). -/
namespace Sys2Proof.Machine

/-- What one lane reaches: its effective address, whether it is aligned, the virtual pieces with their lengths, a bit offset. -/
structure Reach where
  lane : Nat
  ea : W64
  ok : Bool
  parts : List (W64 × Nat)
  bit : Nat := 0
  deriving DecidableEq, Repr

/-- The index of one lane, before scaling (R54, R169). -/
def State.idxOf (s : State) (x : Option Idx) (lane : Nat) : Int :=
  match x with
  | none => 0
  | some i =>
    let v := (s.vlane i.v 1 lane).toNat
    if i.signed then signedOf 32 v else v

/-- Its scale (R54). -/
def idxScale (x : Option Idx) : Nat := 2 ^ (x.map (·.scale.toNat)).getD 0

/-- The effective address of one lane (R169). -/
def State.eaOf (s : State) (base : W64) (x : Option Idx) (off : W32) (lane : Nat) : W64 :=
  base + BitVec.ofInt 64 (s.idxOf x lane * idxScale x) + off.signExtend 64

/-- A global or local access of a type by one lane (R169 to R171). -/
def State.reach (s : State) (base : W64) (x : Option Idx) (off : W32) (t : Ty) (lane : Nat) : Reach :=
  if t.isSub then
    let w := tyBits t
    let b := wrap 67 (8 * (base + off.signExtend 64).toNat + w * s.idxOf x lane)
    let ea := BitVec.ofNat 64 (b / 8)
    { lane, ea, ok := b / 256 == (b + w - 1) / 256, parts := [(ea, (b % 8 + w + 7) / 8)], bit := b % 8 }
  else
    let ea := s.eaOf base x off lane
    { lane, ea, ok := ea.toNat % tyBytes t == 0, parts := [(ea, tyBytes t)] }

/-- A private access by one lane: its word of each row (R169, R175). -/
def State.reachRows (s : State) (x : Option Idx) (off : W32) (t : Ty) (lane : Nat) : Reach :=
  let ea := s.eaOf s.slot.sp x off lane
  { lane, ea, ok := ea.toNat % 128 == 0
    parts := (List.range (tyRegs t)).map fun i => (ea + BitVec.ofNat 64 (128 * i + 4 * lane), 4) }

/-- The alignment stage (R172). -/
def alignStage (rs : List Reach) : Res Unit :=
  match rs.find? fun r => !r.ok with
  | some r => raise { code := cMisaligned, addr := r.ea, lane := some r.lane }
  | none => .ok ()

/-- The lowest row of a private access that lies outside [$sl, P + S) (R172, R194). -/
def State.rowOutside (s : State) (r : Reach) : Option W64 :=
  let top := s.grp.priv.toNat + s.grp.psize
  (r.parts.map fun p => p.1 - BitVec.ofNat 64 (p.1.toNat % 128)).find? fun a => decide (a < s.grp.sl ∨ top < a.toNat + 128)

/-- What the TLBs hold for a lane's pieces. -/
def State.lookups (s : State) (r : Reach) : List (W64 × Nat × Lookup) :=
  let g := s.grp
  r.parts.map fun p => (p.1, p.2, s.lookup s.slot.failed g.die g.cluster g.core g.part g.vf p.1)

/-- The failure of a lane in the translation stage (R172). -/
def State.laneFault (s : State) (isPrivate : Bool) (r : Reach) : Option Cause :=
  match if isPrivate then s.rowOutside r else none with
  | some a => some { code := cStackLimit, addr := a, lane := some r.lane }
  | none => (s.lookups r).findSome? fun x =>
    match x.2.2 with
    | .failed f =>
      some { code := f.code, addr := r.ea, aux0 := if f = .dataError then s.pc else 0, lane := some r.lane }
    | _ => none

/-- The translation stage (R172, R173): the path parks while a lane's walk is open. -/
def State.translateStage (s : State) (isPrivate : Bool) (rs : List Reach) : Res Unit :=
  let g := s.grp
  let checked := rs.filter fun r => !(isPrivate && (s.rowOutside r).isSome)
  let missing := checked.flatMap fun r => (s.lookups r).filterMap fun x =>
    match x.2.2 with
    | .miss => some (va55 x.1 / 65536)
    | _ => none
  if missing ≠ [] then
    .error (.hold ((missing.foldl (fun s p => s.openMiss g.die g.cluster g.core g.part g.vf p) s).park .miss))
  else match rs.findSome? (s.laneFault isPrivate) with
    | some c => raise c
    | none => .ok ()

/-- The translated pieces of a lane. -/
def State.piecesOf (s : State) (r : Reach) : List (Piece × Xl) :=
  (s.lookups r).filterMap fun x =>
    match x.2.2 with
    | .hit y => some (⟨y.pa, x.2.1, y.kind⟩, y)
    | _ => none

/-- A stage in which a piece of a lane fails with a code (R172). -/
def pieceStage (rs : List (Reach × List (Piece × Xl))) (bad : Xl → Option Nat) : Res Unit :=
  match rs.findSome? fun r => r.2.findSome? fun p => (bad p.2).map fun c => (r.1, c) with
  | some (r, c) => raise { code := c, addr := r.ea, lane := some r.lane }
  | none => .ok ()

/-- Every stage of R172 for global and private accesses: permissions needed, the kind stage of the instruction. -/
def State.checkGlobal (s : State) (isPrivate : Bool) (rs : List Reach) (perm : Xl → Bool) (kind : Xl → Option Nat) :
    Res (List LaneAcc) := do
  alignStage rs
  s.translateStage isPrivate rs
  let ps := rs.map fun r => (r, s.piecesOf r)
  pieceStage ps fun x => if perm x then none else some cPermission
  pieceStage ps kind
  .ok (ps.map fun (r, p) => { lane := r.lane, ea := r.ea, pieces := p.map (·.1), bit := r.bit })

/-- Whether a local access may have a scope (R176, R181). -/
def localScopeOk (sc : Scope) (a : Nat) : Bool := if a < spBase then isNarrow sc else !isWide sc

/-- Every stage of R172 for local accesses (R169, R176, R247, R275). -/
def State.checkLocal (s : State) (sc : Scope) (rs : List Reach) : Res (List LaneAcc) := do
  let g := s.gang s.grp.gang
  let fail (code : Nat) (bad : Nat → Nat → Bool) : Res Unit :=
    match rs.find? fun r => r.parts.any fun p => bad p.1.toNat p.2 with
    | some r => raise { code, addr := r.ea, lane := some r.lane }
    | none => .ok ()
  alignStage rs
  fail cTranslation fun a n => !g.localOk a n
  fail cScope fun a _ => !localScopeOk sc a
  fail cOwner fun a n => (localTiles a n).any fun t => g.owner t != .thread
  .ok (rs.map fun r =>
    { lane := r.lane, ea := r.ea, pieces := r.parts.map fun p => ⟨p.1.toNat, p.2, .normal⟩, bit := r.bit })

/-- The reaches of the lanes of a mask. -/
def reaches (m : LaneMask) (f : Nat → Reach) : List Reach := (lanesOf m).map f

/-- The registers that an index reads. -/
def idxReads (x : Option Idx) : List (VReg × Nat) :=
  match x with
  | some i => [(i.v, 1)]
  | none => []

/-- The outcome of a memory instruction. -/
def memFinish (s : State) (r : Res State) : Out := finish s r

/-- The path's earlier results that reach the bytes of an access (R302). -/
def State.overlapping (s : State) (isLocal : Bool) (accs : List LaneAcc) (e : Outst) : Bool :=
  s.earlier e.tags && !e.isGred && e.isLocal == isLocal && e.lanes.any fun x => accs.any fun y => x.overlaps y

/-- Results of the path that reach the same bytes as later stores are returned first (log 17). -/
def State.returnOverlaps (s : State) (isLocal : Bool) (accs : List LaneAcc) : State := s.returnAll (s.overlapping isLocal accs)

/-- A store waits at issue while such a result is behind one of another package (R302, R422). -/
def State.overlapsWait (s : State) (isLocal : Bool) (accs : List LaneAcc) : Res Unit :=
  if s.awaits (s.overlapping isLocal accs) then .error (.hold (s.park .room)) else .ok ()

end Sys2Proof.Machine
end

