-- ==== Sys2Proof/Machine/LoadStore.lean ====
section
/-! DEFINITION. Loads, stores, prefetch, fences and cache control (R168 to R178, R184 to R186). -/
namespace Sys2Proof.Machine

/-- A load's result becomes outstanding; the path goes on by `words`, then an acquire follows (R174, R176). -/
def State.issueLoad (s : State) (words : Nat) (cnt : Counter) (d : VReg) (n : Nat) (mask : LaneMask) (accs : List LaneAcc)
    (kind : OutKind) (ord : Order) (sc : Scope) : State :=
  let (id, s) := s.fresh
  let e : Outst :=
    { id, tags := s.tags, cnt, pos := s.slot.wbase + d.toNat, regs := n, pc := s.pc, pend := mask, full := mask, lanes := accs, kind }
  ((s.setGrp fun g => { g with outst := g.outst ++ [e] }).advance words).acquireFor ord sc

/-- A store, reduction or cache operation of the current path. -/
def State.storeOp (s : State) (cnt : Counter) (kind : StoreKind) : StoreOp :=
  let g := s.grp
  { group := g.key, tags := s.tags, cnt, counted := true, part := g.part, vf := g.vf, die := g.die, cluster := g.cluster
    core := g.core, kind }

/-- A full counter holds the instruction (R130). -/
def State.room (s : State) (c : Counter) : Res Unit := if s.full c then .error (.hold (s.park .room)) else .ok ()

/-- The data of each lane as read at issue (R174). -/
def State.withData (s : State) (d : VReg) (n : Nat) (accs : List LaneAcc) : List LaneAcc :=
  accs.map fun a => { a with data := s.vlane d n a.lane }

/-- No kind fails (R172). -/
def anyKind (_ : Xl) : Option Nat := none

/-- LD and LDP: `reach` gives what each lane reaches. With an empty active set the fence that an order joins to the access is all that
happens (R18, R176, R304). -/
def loadGlobal (s : State) (words : Nat) (g : Option Guard) (isPrivate : Bool) (t : Ty) (sc : Scope) (ord : Order) (cp : Cp)
    (x : Option Idx) (d : VReg) (reach : Nat → Reach) : Out :=
  memFinish s do
    s.vcheck (idxReads x) [(d, tyRegs t)]
    let m := s.active g
    if m = 0 then .ok ((s.advance words).acquireFor ord sc)
    else
      s.room .ld
      let accs ← s.checkGlobal isPrivate (reaches m reach) (·.r) anyKind
      .ok (s.issueLoad words .ld d (tyRegs t) m accs (.load t sc cp (acquires ord)) ord sc)

/-- ST and STP. -/
def storeGlobal (s : State) (words : Nat) (g : Option Guard) (isPrivate : Bool) (t : Ty) (sc : Scope) (ord : Order) (cp : Cp)
    (x : Option Idx) (d : VReg) (reach : Nat → Reach) : Out :=
  memFinish s do
    s.vcheck ((d, tyRegs t) :: idxReads x) []
    let m := s.active g
    if m = 0 then
      let s ← s.releaseFor ord sc
      .ok (s.advance words)
    else
      s.room .st
      let accs ← s.checkGlobal isPrivate (reaches m reach) (·.w) anyKind
      let s ← s.releaseFor ord sc
      s.overlapsWait false accs
      let s := s.returnOverlaps false accs
      let accs := s.withData d (tyRegs t) accs
      .ok ((s.enqueueStore (s.storeOp .st (.store sc cp accs t))).advance words)

/-- LDG (R175). -/
def loadLocal (s : State) (words : Nat) (g : Option Guard) (t : Ty) (sc : Scope) (ord : Order) (x : Option Idx) (d : VReg)
    (reach : Nat → Reach) : Out :=
  finish s do
    s.vcheck (idxReads x) [(d, tyRegs t)]
    let m := s.active g
    if m = 0 then .ok ((s.advance words).acquireFor ord sc)
    else
      s.room .sm
      let accs ← s.checkLocal sc (reaches m reach)
      .ok (s.issueLoad words .sm d (tyRegs t) m accs (.loadLocal t) ord sc)

/-- STG (R175). -/
def storeLocal (s : State) (words : Nat) (g : Option Guard) (t : Ty) (sc : Scope) (ord : Order) (x : Option Idx) (d : VReg)
    (reach : Nat → Reach) : Out :=
  finish s do
    s.vcheck ((d, tyRegs t) :: idxReads x) []
    let m := s.active g
    if m = 0 then
      let s ← s.releaseFor ord sc
      .ok (s.advance words)
    else
      s.room .sm
      let accs ← s.checkLocal sc (reaches m reach)
      let s ← s.releaseFor ord sc
      s.overlapsWait true accs
      let s := s.returnOverlaps true accs
      let accs := s.withData d (tyRegs t) accs
      .ok ((s.enqueueStore (s.storeOp .sm (.tile s.grp.gang t accs))).advance words)

def execLd (m : MemOp) (d : VReg) (s : State) : Out :=
  loadGlobal s 1 none false .b32 .grp .rlx .dflt m.idx d (s.reach (s.rs m.a) m.idx 0 .b32)
def execLdW1 (g : Option Guard) (t : Ty) (sc : Scope) (ord : Order) (cp : Cp) (m : MemOp) (off : W32) (d : VReg) (s : State) : Out :=
  loadGlobal s 3 g false t sc ord cp m.idx d (s.reach (s.rs m.a) m.idx off t)
def execSt (m : MemOp) (d : VReg) (s : State) : Out :=
  storeGlobal s 1 none false .b32 .grp .rlx .dflt m.idx d (s.reach (s.rs m.a) m.idx 0 .b32)
def execStW1 (g : Option Guard) (t : Ty) (sc : Scope) (ord : Order) (cp : Cp) (m : MemOp) (off : W32) (d : VReg) (s : State) : Out :=
  storeGlobal s 3 g false t sc ord cp m.idx d (s.reach (s.rs m.a) m.idx off t)
def execLdg (m : MemOp) (d : VReg) (s : State) : Out :=
  loadLocal s 1 none .b32 .grp .rlx m.idx d (s.reach (s.rs m.a) m.idx 0 .b32)
def execLdgW1 (g : Option Guard) (t : Ty) (sc : Scope) (ord : Order) (_cp : Cp) (m : MemOp) (off : W32) (d : VReg) (s : State) : Out :=
  loadLocal s 3 g t sc ord m.idx d (s.reach (s.rs m.a) m.idx off t)
def execStg (m : MemOp) (d : VReg) (s : State) : Out :=
  storeLocal s 1 none .b32 .grp .rlx m.idx d (s.reach (s.rs m.a) m.idx 0 .b32)
def execStgW1 (g : Option Guard) (t : Ty) (sc : Scope) (ord : Order) (_cp : Cp) (m : MemOp) (off : W32) (d : VReg) (s : State) : Out :=
  storeLocal s 3 g t sc ord m.idx d (s.reach (s.rs m.a) m.idx off t)
def execLdp (x : Option Idx) (d : VReg) (s : State) : Out :=
  loadGlobal s 1 none true .b32 .grp .rlx .dflt x d (s.reachRows x 0 .b32)
def execLdpW1 (g : Option Guard) (t : Ty) (x : Option Idx) (off : W32) (d : VReg) (s : State) : Out :=
  loadGlobal s 3 g true t .grp .rlx .dflt x d (s.reachRows x off t)
def execStp (x : Option Idx) (d : VReg) (s : State) : Out :=
  storeGlobal s 1 none true .b32 .grp .rlx .dflt x d (s.reachRows x 0 .b32)
def execStpW1 (g : Option Guard) (t : Ty) (x : Option Idx) (off : W32) (d : VReg) (s : State) : Out :=
  storeGlobal s 3 g true t .grp .rlx .dflt x d (s.reachRows x off t)

/-- One lane of PREF (R184): nothing, or its sector fetched. -/
def State.prefLane (s : State) (cp : Cp) (ea : W64) (lane : Nat) : State :=
  let g := s.grp
  match s.lookup [] g.die g.cluster g.core g.part g.vf ea with
  | .hit x =>
    if x.kind ≠ .normal ∨ !x.r ∨ Config.choice s.tick (0x9000 + lane) % 2 = 0 then s
    else
      let w := g.here
      match cp with
      | .l2 => ((s.drainSecs w [secOf x.pa]).readDie w.die w.part w.vf (secOf x.pa) cp).2.2
      | cp => (s.loadPiece w .grp cp ⟨x.pa, 1, .normal⟩).2.2
  | _ => s

/-- PREF (R184): a memory fault of a lane does nothing; an index register outside the frame raises ILLEGAL_OP as in every instruction
(R10; DESIGN CHOICE, log 46). -/
def prefetch (s : State) (words : Nat) (g : Option Guard) (cp : Cp) (m : MemOp) (off : W32) : Out :=
  finish s do
    s.vcheck (idxReads m.idx) []
    let ls := lanesOf (s.active g)
    let eas := ls.map fun l => (l, s.eaOf (s.rs m.a) m.idx off l)
    .ok ((eas.foldl (fun t (l, ea) => t.prefLane cp ea l) s).advance words)

def execPref (m : MemOp) (s : State) : Out := prefetch s 1 none .dflt m 0
def execPrefW1 (g : Option Guard) (cp : Cp) (m : MemOp) (off : W32) (s : State) : Out := prefetch s 3 g cp m off

/-- FENCE (R185): under ORD 0b00 both parts. -/
def execFence (sc : Scope) (ord : Order) (s : State) : Out :=
  finish s do
    let t ← if ord = .acq then .ok s else s.release sc
    let t := t.advance 3
    .ok (if ord = .rel then t else t.acquire sc)

/-- Lines dropped from the instruction cache of every core of a die (R33, R186). The die fetch agent's entries hold no data: each
reads L2 when it is filled, so what it delivers then is no older than this. -/
def State.dropCode (s : State) (w : Here) (lines : List Nat) : State :=
  let mine (die part vf line : Nat) : Bool := die == w.die && part == w.part && vf == w.vf && line ∈ lines
  { s with icache := s.icache.filter fun x => !mine x.die x.part x.vf x.line }

/-- The core's queued stores to the lines of some pieces brought to L2, which the fetch agent reads, so that a path which stores, invalidates
and transfers runs the new code (R33, R35, R300, log 37). -/
def State.settleCode (s : State) (w : Here) (ps : List Piece) : State :=
  s.drainSecs w (ps.flatMap fun p => if p.kind = .normal then (List.range 8).map fun k => p.pa / 256 * 8 + k else [])

/-- CCTL (R186): every lane of $exec, the translation stage alone. -/
def execCctl (op : BitVec 2) (m : MemOp) (off : W32) (s : State) : Out :=
  memFinish s do
    s.vcheck (idxReads m.idx) []
    if op = 0 ∧ s.cnt .st ≠ 0 then .error (.hold (s.park .drain))
    else
      if op ≠ 0 then s.room .st
      let rs := reaches s.slot.mask fun l =>
        let ea := s.eaOf (s.rs m.a) m.idx off l
        { lane := l, ea, ok := true, parts := [(ea, 1)] }
      let accs ← s.checkGlobal false rs (fun _ => true) anyKind
      if op = 0 then
        let s := s.settleCode s.grp.here (accs.flatMap (·.pieces))
        .ok ((s.dropCode s.grp.here (distinct ((accs.filter fun a => a.pieces.all fun p => p.kind == .normal).map fun a => lineOf a.ea))).advance 3)
      else
        let lines := distinct (accs.flatMap fun a => (a.pieces.filter fun p => p.kind == .normal).map fun p => p.pa / 256)
        .ok ((s.enqueueStore (s.storeOp .st (.cctl op.toNat lines))).advance 3)
where
  /-- The line of a code address (R32). -/
  lineOf (a : W64) : Nat := va55 a / 256

end Sys2Proof.Machine
end

