-- ==== Sys2Proof/Machine/Atomics.lean ====
section
/-! DEFINITION. Atomics and reductions (R179 to R183). -/
namespace Sys2Proof.Machine

/-- The kind stage of a global atomic (R181, R182): ATOM_PAGE. -/
def atomKind (sc : Scope) (x : Xl) : Option Nat :=
  match x.kind with
  | .normal => if isWide sc then some cAtomPage else none
  | .atomicHome => none
  | .host => some cAtomPage

/-- The operand and compare value of each lane as read at issue (R180). -/
def State.withOperands (s : State) (d c : VReg) (n : Nat) (accs : List LaneAcc) : List LaneAcc :=
  accs.map fun a => { a with data := s.vlane d n a.lane, cmp := s.vlane c n a.lane }

/-- The registers that an atomic reads: the compare value only under .cas (R179). -/
def atomReads (op : AtomOp) (x : Option Idx) (d c : VReg) (n : Nat) : List (VReg × Nat) :=
  (d, n) :: (if op = .cas then [(c, n)] else []) ++ idxReads x

/-- ATOM (R180, R181). With an empty active set the fences of its order are all that happens (R18, R304). -/
def execAtom (g : Option Guard) (t : Ty) (sc : Scope) (ord : Order) (cp : Cp) (op : AtomOp) (m : MemOp) (off : W32) (d c : VReg)
    (s : State) : Out :=
  memFinish s do
    let n := tyRegs t
    s.vcheck (atomReads op m.idx d c n) [(d, n)]
    let k := s.active g
    if k = 0 then
      let s ← s.releaseFor ord sc
      .ok ((s.advance 3).acquireFor ord sc)
    else
      s.room .ld
      let accs ← s.checkGlobal false (reaches k (s.reach (s.rs m.a) m.idx off t)) (fun x => x.r && x.w) (atomKind sc)
      let s ← s.releaseFor ord sc
      .ok (s.issueLoad 3 .ld d n k (s.withOperands d c n accs) (.atomic op t sc cp (acquires ord)) ord sc)

/-- ATOMG (R180, R181). -/
def execAtomg (g : Option Guard) (t : Ty) (sc : Scope) (ord : Order) (op : AtomOp) (m : MemOp) (off : W32) (d c : VReg)
    (s : State) : Out :=
  finish s do
    let n := tyRegs t
    s.vcheck (atomReads op m.idx d c n) [(d, n)]
    let k := s.active g
    if k = 0 then
      let s ← s.releaseFor ord sc
      .ok ((s.advance 3).acquireFor ord sc)
    else
      s.room .sm
      let accs ← s.checkLocal sc (reaches k (s.reach (s.rs m.a) m.idx off t))
      let s ← s.releaseFor ord sc
      .ok (s.issueLoad 3 .sm d n k (s.withOperands d c n accs) (.atomicLocal op t) ord sc)

/-- RED (R180, R181). -/
def execRed (g : Option Guard) (t : Ty) (sc : Scope) (ord : Order) (cp : Cp) (op : AtomOp) (m : MemOp) (off : W32) (d : VReg)
    (s : State) : Out :=
  memFinish s do
    let n := tyRegs t
    s.vcheck ((d, n) :: idxReads m.idx) []
    let k := s.active g
    if k = 0 then
      let s ← s.releaseFor ord sc
      .ok (s.advance 3)
    else
      s.room .st
      let accs ← s.checkGlobal false (reaches k (s.reach (s.rs m.a) m.idx off t)) (·.w) (atomKind sc)
      let s ← s.releaseFor ord sc
      s.overlapsWait false accs
      let s := s.returnOverlaps false accs
      .ok ((s.enqueueStore (s.storeOp .st (.red op t sc cp (s.withData d n accs)))).advance 3)

end Sys2Proof.Machine
end

