-- ==== Sys2Proof/Machine/Lanes.lean ====
section
/-! DEFINITION. Lane exchange, ballots, reductions, scans and dot products (R111, R161 to R165). -/
namespace Sys2Proof.Machine

/-- A lane exchange (R161): lane l takes v[A] of lane `src l` when that lane is of the path, and its own otherwise. -/
def exchange (s : State) (words : Nat) (g : Option Guard) (t : Ty) (d a : VReg) (extra : List (VReg × Nat)) (src : Nat → Nat) : Out :=
  let n := tyRegs t
  vecInt s words g ((a, n) :: extra) d n fun l =>
    s.src (.v a) t (if s.slot.mask.getLsbD (src l) then src l else l)

/-- The source lane of VSHFL by mode: .idx, .xor, .up, .down (R161). -/
def shuffleLane (mode k l : Nat) : Nat :=
  match mode with
  | 0 => k % 32
  | 1 => l ^^^ (k % 32)
  | 2 => if k ≤ l then l - k else l
  | _ => if l + k ≤ 31 then l + k else l

def shuffle (s : State) (words : Nat) (g : Option Guard) (t : Ty) (m : BitVec 2) (d a b : VReg) : Out :=
  exchange s words g t d a [(b, 1)] fun l => shuffleLane m.toNat (s.src (.v b) .b32 l) l

def execVshfl (m : BitVec 2) (d a b : VReg) (s : State) : Out := shuffle s 1 none .b32 m d a b
def execVshflW1 (g : Option Guard) (t : Ty) (m : BitVec 2) (d a b : VReg) (s : State) : Out := shuffle s 3 g t m d a b
def execVrot (d a : VReg) (b : SReg) (s : State) : Out := exchange s 1 none .b32 d a [] fun l => (l + (s.rs b).toNat) % 32
def execVrotW1 (g : Option Guard) (t : Ty) (d a : VReg) (b : SReg) (s : State) : Out := exchange s 3 g t d a [] fun l => (l + (s.rs b).toNat) % 32
def execVbcast (d a : VReg) (b : SReg) (s : State) : Out := exchange s 1 none .b32 d a [] fun _ => (s.rs b).toNat % 32
def execVbcastW1 (g : Option Guard) (t : Ty) (d a : VReg) (b : SReg) (s : State) : Out := exchange s 3 g t d a [] fun _ => (s.rs b).toNat % 32

def execVballot (d : SReg) (a : PReg) (s : State) : Out := scalarOp s 1 d ((s.active none &&& s.rp a).zeroExtend 64)
def execVballotW1 (g : Option Guard) (d : SReg) (a : PReg) (s : State) : Out := scalarOp s 3 d ((s.active g &&& s.rp a).zeroExtend 64)

/-- Whether a type is a float of R163. -/
def isF : Ty → Bool
  | .f32 | .f64 => true
  | _ => false

/-- The sum of values of a type (R163): exact, wrapped or rounded once with RNE. -/
def sumOf (t : Ty) (vs : List Nat) : Nat × Flags :=
  if isF t then roundResult (sumFp false (vs.map (decodeFp (fmtOf t))))
  else (vs.sum % 2 ^ t.width, 0)
where
  roundResult (x : Fp × Flags) : Nat × Flags :=
    let (v, fl) := roundFp (fmtOf t) .rne 0 x.1
    (v, fl ||| x.2)

/-- Least or greatest by the type (R163): as FMIN and FMAX on floats; the identity when there is no value. -/
def extremeOf (t : Ty) (isMax u : Bool) (vs : List Nat) : Nat × Flags :=
  let w := t.width
  let f := fmtOf t
  if isF t then
    let ident := (if isMax then 2 ^ (f.bits - 1) else 0) + (2 ^ f.e - 1) * 2 ^ f.m
    match vs with
    | [] => (ident, 0)
    | [x] => let y := decodeFp f x; (if y.isNaN then canonNaN f else x, nvOf y)
    | x :: r => r.foldl (fun (acc, fl) y => let (v, e) := minmaxBits f isMax false acc y; (v, fl ||| e)) (x, 0)
  else
    let u := u || t == .z32 || t == .z64
    let ident := if isMax then (if u then 0 else 2 ^ (w - 1)) else (if u then 2 ^ w - 1 else 2 ^ (w - 1) - 1)
    (vs.foldl (fun acc y => if isMax then maxBy u w acc y else minBy u w acc y) ident, 0)

/-- A reduction's result in a scalar register (R163): the type places it, also under .u (log 15). -/
def placeScalar (t : Ty) (v : Nat) : W64 :=
  match t with
  | .i32 => BitVec.ofNat 64 (wrap 64 (signedOf 32 v))
  | _ => BitVec.ofNat 64 v

/-- The shape of the reductions (R163). -/
def reduceOp (s : State) (words : Nat) (g : Option Guard) (t : Ty) (d : SReg) (a : VReg) (f : List Nat → Nat × Flags) : Out :=
  finish s do
    s.vcheck [(a, tyRegs t)] []
    let (v, fl) := f ((lanesOf (s.active g)).map fun l => s.src (.v a) t l)
    .ok (((s.setRs d (placeScalar t v)).orFlags fl).advance words)

def execVradd (d : SReg) (a : VReg) (s : State) : Out := reduceOp s 1 none .i32 d a (sumOf .i32)
def execVraddW1 (g : Option Guard) (t : Ty) (d : SReg) (a : VReg) (s : State) : Out := reduceOp s 3 g t d a (sumOf t)
def execVrmin (u : Bool) (d : SReg) (a : VReg) (s : State) : Out := reduceOp s 1 none .i32 d a (extremeOf .i32 false u)
def execVrminW1 (g : Option Guard) (t : Ty) (u : Bool) (d : SReg) (a : VReg) (s : State) : Out := reduceOp s 3 g t d a (extremeOf t false u)
def execVrmax (u : Bool) (d : SReg) (a : VReg) (s : State) : Out := reduceOp s 1 none .i32 d a (extremeOf .i32 true u)
def execVrmaxW1 (g : Option Guard) (t : Ty) (u : Bool) (d : SReg) (a : VReg) (s : State) : Out := reduceOp s 3 g t d a (extremeOf t true u)

/-- VSCAN (R164): each active lane combines the active lanes below it, itself included unless .excl. -/
def execVscan (g : Option Guard) (t : Ty) (op : ScanOp) (excl : Bool) (d a : VReg) (s : State) : Out :=
  let m := s.active g
  let combine (vs : List Nat) : Nat × Flags :=
    match op with
    | .add => sumOf t vs
    | .min => extremeOf t false false vs
    | .max => extremeOf t true false vs
  vecOp s 3 g [(a, tyRegs t)] d (tyRegs t) fun l =>
    combine (((lanesOf m).filter fun k => if excl then k < l else k ≤ l).map fun k => s.src (.v a) t k)

/-- VDOT4 (R111). -/
def dot4 (s : State) (words : Nat) (g : Option Guard) (sat ua ub : Bool) (d a b c : VReg) : Out :=
  let byte (u : Bool) (v j : Nat) : Int := signOr u 8 (bits v (8 * j) 8)
  vecInt s words g [(a, 1), (b, 1), (c, 1)] d 1 fun l =>
    let x := s.src (.v a) .b32 l
    let y := s.src (.v b) .b32 l
    intResult .i32 sat (signedOf 32 (s.src (.v c) .b32 l) + ((List.range 4).map fun j => byte ua x j * byte ub y j).sum)

/-- VDOT2H (R111): the exact sum rounded once to FP32. -/
def dot2 (s : State) (words : Nat) (g : Option Guard) (t : Ty) (d a b c : VReg) : Out :=
  let fm := fmtOf t
  let el (r : VReg) (h l : Nat) := decodeFp fm (bits (s.src (.v r) .b32 l) (16 * h) 16)
  vecOp s words g [(a, 1), (b, 1), (c, 1)] d 1 fun l =>
    let z := decodeFp (fmtOf .f32) (s.src (.v c) .b32 l)
    let p0 := mulFp (el a 0 l) (el b 0 l)
    let p1 := mulFp (el a 1 l) (el b 1 l)
    let (x, fl) := sumFp false [z, p0.1, p1.1]
    let (v, fr) := rneF32 x
    (v, fl ||| fr ||| p0.2 ||| p1.2 ||| nvOf z)

def execVdot4 (ua ub : Bool) (d a b : VReg) (s : State) : Out := dot4 s 1 none false ua ub d a b 0
def execVdot4W1 (g : Option Guard) (sat ua ub : Bool) (d a b c : VReg) (s : State) : Out := dot4 s 3 g sat ua ub d a b c
def execVdot2h (d a b : VReg) (s : State) : Out := dot2 s 1 none .f16 d a b 0
def execVdot2hW1 (g : Option Guard) (t : Ty) (d a b c : VReg) (s : State) : Out := dot2 s 3 g t d a b c

end Sys2Proof.Machine
end

