-- ==== Sys2Proof/Machine/Control.lean ====
section
/-! DEFINITION. Control flow: branches, calls, windows, dispatch tables, the end of a group, software traps (R118 to R129). -/
namespace Sys2Proof.Machine

/-- A direct target: bundles from the bundle of the branch (R30). -/
def State.bundleAt (s : State) (off : BitVec 64) : W64 := s.slot.pcb + 64 * off

/-- The bundle after the path's (R23). -/
def State.nextBundle (s : State) : W64 := s.slot.pcb + 64

/-- Whether BR is taken (R118). -/
def State.brTaken (s : State) (m : BrMode) : Bool :=
  match m with
  | .always => true
  | .nz a => s.rs a != 0
  | .z a => s.rs a == 0

/-- BR (R118). -/
def execBr (m : BrMode) (off : W32) (s : State) : Out :=
  .next (s.jump (if s.brTaken m then s.bundleAt (off.signExtend 64) else s.nextBundle))

/-- BRD (R76, R119). -/
def execBrd (g : Guard) (target join : BitVec 16) (s : State) : Out :=
  let t := s.active (some g)
  let n := s.slot.mask &&& ~~~t
  let goal := s.bundleAt (target.signExtend 64)
  if t = 0 then .next (s.jump s.nextBundle)
  else if n = 0 then .next (s.jump goal)
  else finish s (s.splitTwo ⟨goal, t, false⟩ n (s.bundleAt (join.signExtend 64)))

/-- A window change waits for outstanding vector results (R159, R174). -/
def State.whenQuiet (s : State) (r : Res State) : Res State := if s.quiet then r else .error (.hold (s.park .room))

/-- CALL (R120). -/
def execCall (off : W32) (s : State) : Out :=
  finish s (s.whenQuiet do
    let t ← s.callFrame s.nextBundle
    .ok (t.jump (s.bundleAt (off.signExtend 64))))

/-- ENTER (R88, R121). -/
def execEnter (f : BitVec 3) (s : State) : Out :=
  finish s (s.whenQuiet do
    let t ← s.enterFrame (8 * (f.toNat + 1))
    .ok (t.advance 1))

/-- The depth recorded for the path's pending join, if it has one (R79): that of the top coil entry, which may be a MERGE entry that EXSET
pushed in a deeper frame, or of the slot-level join (DEDUCED, log 47). -/
def State.joinDepth (s : State) : Option Nat :=
  if s.slot.pj.isNone then none else (s.recorded s.slot.coil.head?).map (·.1)

/-- A fill of rows that failed, with what R194 reports of uncorrectable data: the lowest failing lane of all the rows, at the word that it
read (DEDUCED, log 65: R122 says the row address). -/
def State.fillFault {α : Type} (s : State) (lanes : LaneMask) (rows : List W64) (r : Res α) : Res α :=
  match r with
  | .error (.raise c) =>
    if c.code = cDataError then
      raise (rows.foldl (fun (d : Cause) a => match s.rowRead a lanes with
        | .error (.raise e) => if e.code = cDataError ∧ e.lane.getD 32 < d.lane.getD 32 then e else d
        | _ => d) c)
    else raise c
  | r => r

/-- The addresses of `n` rows. -/
def rowsFrom (a : W64) (n : Nat) : List W64 := (List.range n).map fun k => a + BitVec.ofNat 64 (128 * k)

/-- The caller's frame as RET finds it (R90, R93, R122): its own link record where that is filled from memory, and the state with its
registers in place. -/
def State.fillCaller (s : State) (f : Frame) : Res (List (Vector W32 32) × State) :=
  if f.resident then .ok ([], s)
  else do
    let lanes := s.slot.lanes s.grp.live
    let n := f.fsize - 8
    let a := areaOf f.fb f.fsize
    let all := rowsFrom a n ++ rowsFrom f.fb (f.rows.length - n)
    let (regs, s) ← s.fillFault lanes all (s.rowsFill lanes 0x2000 a (f.rows.take n))
    let (link, s) ← s.fillFault lanes all (s.rowsFill lanes 0x6000 f.fb (f.rows.drop n))
    .ok (link, s.setGrp fun g => g.putRows f.wbase lanes regs)

/-- The return address that the current frame's link record gives: of the device's own copy, or of a filled one in the lowest lane of
the path (R90). -/
def State.returnTo (s : State) (f : Frame) : W64 :=
  if f.link = [] then f.ret
  else
    let l := (lanesOf s.slot.mask).headD 0
    let w (i : Nat) : W32 := ((f.link.getD i (Vector.replicate 32 0))[l]?).getD 0
    w 1 ++ (w 0 &&& 0xFFFFFFF8)

/-- The path back in its caller `f` (R90, R122 step 5), whose own link record was filled as `link`. Its frame size is the device's own,
whatever software wrote over the code bits of the record (DESIGN CHOICE, log 66). -/
def Slot.back (x : Slot) (f : Frame) (rest : List Frame) (link : List (Vector W32 32)) : Slot :=
  ({ x with
      sp := x.fb + 256, fsize := f.fsize, fb := f.fb, wbase := f.wbase, depth := x.depth - 1, frames := rest } : Slot).relink 0 link

/-- RET (R90, R122). -/
def execRet (s : State) : Out :=
  finish s (s.whenQuiet do
    let x := s.slot
    match x.frames with
    | [] => s.illegal
    | f :: rest =>
      must (s.joinDepth != some x.depth) { code := cIllegal, addr := s.pc }
      let (link, t) ← s.fillCaller f
      let ret := s.returnTo f
      must (ret.toNat % 64 == 0) { code := cBranchAlign, addr := ret }
      .ok ((t.setSlot fun x => x.back f rest link).jump ret))

/-! ### Dispatch tables (R123 to R126) -/

/-- Address of a table entry. -/
def State.entryAddr (s : State) (i : W64) : W64 := s.grp.dtb + 8 * i

/-- The entries of distinct indices, each read once, or why it could not be read. -/
def State.readEntries (s : State) : List W64 → List (W64 × Except WalkFault W64) × State
  | [] => ([], s)
  | i :: r =>
    let (v, s) := match s.grpRead (s.entryAddr i) 8 with
      | (.ok bs, s) => ((.ok (BitVec.ofNat 64 (natOfBytes bs)) : Except WalkFault W64), s)
      | (.error f, s) => (.error f, s)
    let (rest, s) := s.readEntries r
    ((i, v) :: rest, s)

/-- The three stages of R124 over the checked lanes. `alignLane` says that a misaligned entry reports its lane (R194). -/
def State.dispatch (s : State) (xs : List (Nat × W64)) (alignLane : Bool) : Res (List (Nat × W64) × State) :=
  match xs.find? fun x => decide (s.grp.dtl ≤ x.2) with
  | some (l, i) => raise { code := cTableRange, addr := s.entryAddr i, aux0 := i, aux1 := s.grp.dtl, lane := some l }
  | none =>
    let (es, t) := s.readEntries (distinct (xs.map (·.2)))
    let look (i : W64) : Except WalkFault W64 := ((es.find? fun e => e.1 == i).map (·.2)).getD (.error .unmapped)
    let failed : Option (Nat × W64 × WalkFault) := xs.findSome? fun (l, i) => match look i with
      | .error f => some (l, i, f)
      | .ok _ => none
    match failed with
    | some (l, i, .dataError) => raise { code := cDataError, addr := s.entryAddr i, aux0 := s.pc, lane := some l }
    | some (l, i, _) => raise { code := cTableFetch, addr := s.entryAddr i, aux0 := i, lane := some l }
    | none =>
      let goals := xs.map fun (l, i) => (l, match look i with
        | .ok e => e
        | .error _ => 0)
      match goals.find? fun x => x.2.toNat % 64 != 0 with
      | some (l, e) => raise { code := cBranchAlign, addr := e, lane := if alignLane then some l else none }
      | none => .ok (goals, t)

/-- The destinations of lanes in the order of their lowest lanes (R126). -/
def destinations (lanes : List (Nat × Dest)) : List Dest :=
  (distinct (lanes.map fun x => (x.2.pc, x.2.call))).map fun (pc, call) =>
    ⟨pc, maskOf fun l => lanes.any fun x => x.1 == l && x.2.pc == pc && x.2.call == call, call⟩

/-- Whether one of the destinations that start at once is a call (R124). -/
def State.callsNow (s : State) (ds : List Dest) : Bool :=
  (ds.take (if s.slotFree then 2 else 1)).any (·.call)

/-- JTS (R126). -/
def execJts (a : SReg) (s : State) : Out :=
  finish s do
    let (es, t) ← s.dispatch [(0, s.rs a)] false
    .ok (t.jump ((es.head?.map (·.2)).getD 0))

/-- CALLT by a scalar index (R126). -/
def calltScalar (a : SReg) (s : State) : Out :=
  finish s (s.whenQuiet do
    let (es, t) ← s.dispatch [(0, s.rs a)] true
    let t ← t.callFrame s.nextBundle
    .ok (t.jump ((es.head?.map (·.2)).getD 0)))

def execCalltScalar (a : SReg) (s : State) : Out := calltScalar a s
def execCalltScalarW1 (a : SReg) (s : State) : Out := calltScalar a s

/-- JTV and per-lane CALLT (R126). -/
def dispatchLanes (call : Bool) (g : Option Guard) (a : VReg) (s : State) : Out :=
  let body : Res State := do
    s.vcheck [(a, 1)] []
    let m := s.active g
    let (es, t) ← s.dispatch ((lanesOf m).map fun l => (l, (s.vlane a 1 l).extractLsb' 0 64)) true
    let j := s.nextBundle
    let lanes := (lanesOf s.slot.mask).map fun l =>
      (l, match es.find? fun x => x.1 == l with
        | some x => (⟨x.2, 0, call⟩ : Dest)
        | none => ⟨j, 0, false⟩)
    let ds := destinations lanes
    must (!(t.callsNow ds && t.callLimit)) { code := cStackLimit, addr := s.slot.sp - 256 }
    t.splitMany ds j
  finish s (if call then s.whenQuiet body else body)

def execJtv (a : VReg) (s : State) : Out := dispatchLanes false none a s
def execJtvW1 (g : Option Guard) (a : VReg) (s : State) : Out := dispatchLanes false g a s
def execCalltLane (a : VReg) (s : State) : Out := dispatchLanes true none a s
def execCalltLaneW1 (g : Option Guard) (a : VReg) (s : State) : Out := dispatchLanes true g a s

/-! ### Ending -/

/-- A group leaves the reader set of its context, and every snapshot (R338, R340). -/
def State.leaveReaders (s : State) (vf part key : Nat) : State :=
  s.setCtx vf part fun c =>
    { c with readers := c.readers.filter (· != key), graces := c.graces.map fun g => { g with readers := g.readers.filter (· != key) } }

/-- Membership of a group index in a set (R250). -/
def SetEntry.isMember (e : SetEntry) (gid : Nat) : Bool := e.member.getLsbD gid && !e.left.getLsbD gid && !e.exited.getLsbD gid

/-- A member that ends gains its EXITED bit (R251). -/
def SetEntry.exit (e : SetEntry) (gid : Nat) : SetEntry :=
  if e.isMember gid then { e with exited := e.exited ||| (1#256 <<< gid) } else e

/-- Whether a result is of an atomic, which changes memory (R127). -/
def Outst.isAtomic (e : Outst) : Bool :=
  match e.kind with
  | .atomic _ _ _ _ _ | .atomicLocal _ _ => true
  | .remote _ _ op => op.isSome
  | _ => false

/-- The current group ends (R127): its atomics complete, its results are discarded, its slot and allotment are free, it leaves its reader
set. -/
def State.endGroup (s : State) : State :=
  let s := s.returnAll Outst.isAtomic
  let g := s.grp
  let s := (s.setGrp fun g =>
    { g with live := 0, slotA := {}, slotB := {}, sjoin := none, outst := [], raised := none, trap := none, f := Vector.replicate 16 {}, rsd := 0 }).setGang
    g.gang fun x => { x with groups := x.groups.filter (· != g.key), sets := x.sets.map fun e => e.exit g.gid }
  s.leaveReaders g.vf g.part g.key

/-- EXIT (R80, R127, R196). -/
def execExit (s : State) : Out :=
  let x := s.slot
  let live := s.grp.live &&& ~~~x.mask
  if live = 0 ∨ s.inTrap then .next s.endGroup
  else
    let t := s.setGrp fun g => { g with live := live }
    match x.pj with
    | some j => .next ((t.setSlot fun x => { x with mask := 0 }).jump j)
    | none => .next ((t.setGrp fun g => g.setSlot s.sel fun _ => {}).normalize)

/-- NOP (R128). -/
def execNop (s : State) : Out := .next (s.advance 1)

/-- YIELD (R128). -/
def execYield (s : State) : Out := .next ((s.advance 1).setSlot fun x => { x with yielded := true })

/-- SOFTWARE_TRAP (R129): kind 0 resumes at the instruction, kind 1 at the next bundle. -/
def State.software (s : State) (kind : Nat) (n : BitVec 9) : State :=
  s.trapTo { code := cSoftware, addr := s.pc, reason := kind, n := n.toNat }
    fun t => if kind = 1 then t.jump s.nextBundle else t

def execTrap (n : BitVec 9) (s : State) : Out := .next (s.software 0 n)
def execSvc (n : BitVec 9) (s : State) : Out := .next (s.software 1 n)

end Sys2Proof.Machine
end

