-- ==== Sys2Proof/Machine/Engine.lean ====
section
/-! DEFINITION. What every engine operation does at issue and at its end: descriptor registers, tiles, futures, completion
words (R213, R215, R247 to R249, R257, R299). -/
namespace Sys2Proof.Machine

/-- A future that an operation is about to be issued into (R213). -/
def State.futReady (s : State) (f : FReg) : Res Unit := must (s.fut f).open (s.futureInvalid f)

/-- Every access of a gang's groups to its local memory performed (R248): a flip waits for the holds to end. -/
def State.settleLocal (s : State) (gang : Nat) : State :=
  let s := s.drainQueue fun o => match o.kind with
    | .tile k _ _ => k == gang
    | _ => false
  s.forGroups (fun g => g.gang == gang) fun s => s.returnAll Outst.isLocal

/-- The first of some tiles that ENGINE owns, by an operation or, where `software` counts, by a software hold (R247, R296). -/
def Gang.owned (g : Gang) (software : Bool) (ts : List (Bool × Nat)) : Option (Bool × Nat) :=
  ts.find? fun t => match g.owner t with
    | .thread => false
    | .engine _ => true
    | .software => software

/-- The local address of a tile. -/
def tileAddr (t : Bool × Nat) : Nat := if t.1 then spBase + 4096 * t.2 else 1024 * t.2

/-- Tiles flipped to ENGINE for an operation, once no hold remains on them (R247, R248). -/
def State.flipTiles (s : State) (gang : Nat) (op : Nat) (ts : List (Bool × Nat)) : State :=
  (s.settleLocal gang).setGang gang fun g => ts.foldl (fun g t => g.setOwner t (.engine op)) g

/-- Every tile that an operation holds goes back to THREAD (R215, R247). -/
def Gang.freeTiles (g : Gang) (op : Nat) : Gang :=
  let rest (l : List (Nat × Owner)) := l.filter fun x => x.2 != .engine op
  { g with gmOwn := rest g.gmOwn, spOwn := rest g.spOwn }

/-- Tiles of an operation flipped back to THREAD (R247). -/
def State.unflip (s : State) (gang op : Nat) : State := s.setGang gang fun g => g.freeTiles op

/-- RED.add.z64 at the base die by a base-die agent; dropped where the page is not ATOMIC_HOME or has no permission. -/
def State.redBase (s : State) (w : Here) (a : W64) (v : Nat) : State :=
  match s.mapVa w 32 a 8 fun x => x.w && x.kind == .atomicHome with
  | (.ok (p :: _), s) => (s.atomicStep w .add .z64 .dflt p v 0).2.2
  | (_, s) => s

/-- A completion word written at a scope through the issuing context's translation; a page no longer writable drops it. -/
def State.completionWord (s : State) (w : Here) (sc : Scope) (cw cv : W64) : State :=
  if cw = 0 then s else (s.writeVa w sc cw (bytesOfNat 8 cv.toNat)).2

/-- The place of an operation, and of what a group's engine does. -/
def EngineOp.here (o : EngineOp) : Here := ⟨o.die, noCluster, 0, o.part, o.vf⟩
def Group.engineHere (g : Group) : Here := ⟨g.die, noCluster, 0, g.part, g.vf⟩

/-- The end of an operation that still has an issuer: its future resolves, then its completion word is written (R299). -/
def State.endOp (s : State) (o : EngineOp) (status : W32) (sc : Scope) (cw cv : W64) : State :=
  if o.cancel then s
  else
    let s := { s with ops := s.ops.filter fun x => x.id != o.id }
    if o.live then (s.resolve o.id status).completionWord o.here sc cw cv else s

/-- An operation whose status is HELD ends: its tiles stay with it, and no completion word is written (R215, R259). -/
def State.endHeld (s : State) (o : EngineOp) (status : W32) : State :=
  if o.cancel then s
  else
    let s := { s with ops := s.ops.filter fun x => x.id != o.id }
    if o.live then s.resolve o.id status else s

/-- An operation of the current group entered among the running ones. -/
def State.startOp (s : State) (id : Nat) (kind : OpKind) : State :=
  let g := s.grp
  { s with ops := s.ops ++ [⟨id, g.gang, g.vf, g.part, g.die, true, false, kind⟩] }

/-- A running operation by its number. -/
def State.findOp (s : State) (id : Nat) : Option EngineOp := s.ops.find? fun o => o.id == id

/-- A limit of a descriptor (R258): a multiple, or a range. -/
def mustAlign (a : W64) (n : Nat) : Res Unit := must (a.toNat % n == 0) { code := cMisaligned, addr := a }
def State.mustRange (s : State) (b : Bool) : Res Unit := must b { code := cIllegal, addr := s.pc }

/-- A range of the gang's local space (R169), or DATA_TRANSLATION. -/
def State.mustLocal (s : State) (a : W64) (n : Nat) : Res Unit :=
  must ((s.gang s.grp.gang).localOk a.toNat n) { code := cTranslation, addr := a }

/-- The bytes [a, a + n) cut at pages of 64 KiB, by virtual address. -/
def pageParts (a : W64) (n : Nat) : List (W64 × Nat) := (chunks 65536 a.toNat n).map fun c => (a + BitVec.ofNat 64 c.1, c.2)

/-- One address of a descriptor to be checked (R172): bytes, permissions, the kind stage. -/
structure Check where
  addr : W64
  len : Nat
  perm : Xl → Bool
  kind : Xl → Option Nat

/-- The addresses of a descriptor checked in the stages of R172, across all together; no lane is reported but the 0 of an
uncorrectable table entry (R194). The pieces of each in order. -/
def State.checkAll (s : State) (cs : List Check) : Res (List (List Piece)) :=
  let strip {α : Type} (r : Res α) : Res α := match r with
    | .error (.raise c) => raise { c with lane := if c.code = cDataError then c.lane else none }
    | r => r
  strip do
    let rs : List (Reach × Check) := cs.map fun c => ({ lane := 0, ea := c.addr, ok := true, parts := pageParts c.addr c.len }, c)
    s.translateStage false (rs.map (·.1))
    let ps := rs.map fun (r, c) => (r, c, s.piecesOf r)
    let stage (bad : Check → Xl → Option Nat) : Res Unit :=
      match ps.findSome? fun (r, c, p) => p.findSome? fun x => (bad c x.2).map fun k => (r, k) with
      | some (r, k) => raise { code := k, addr := r.ea }
      | none => .ok ()
    stage fun c x => if c.perm x then none else some cPermission
    stage fun c x => c.kind x
    .ok (ps.map fun (_, _, p) => p.map (·.1))

/-- A completion word's check: an 8-byte global store, none where there is none (R258). -/
def cwCheck (cw : W64) (kind : Xl → Option Nat) : List Check := if cw = 0 then [] else [⟨cw, 8, (·.w), kind⟩]

/-- A scope at which an engine acts: .grp and .gang act as .die (R284, R291). -/
def engineScope (sc : Scope) : Scope := if isNarrow sc then .die else sc

/-- OWNER names the first ENGINE tile of a range (log 19). -/
def State.mustThread (s : State) (ts : List (Bool × Nat)) : Res Unit :=
  match (s.gang s.grp.gang).owned true ts with
  | some t => raise { code := cOwner, addr := BitVec.ofNat 64 (tileAddr t) }
  | none => .ok ()

/-- One operation changed. -/
def State.setOp (s : State) (id : Nat) (f : OpKind → OpKind) : State :=
  { s with ops := updateFirst (fun o => o.id == id) (fun o => { o with kind := f o.kind }) s.ops }

end Sys2Proof.Machine
end

