-- ==== Sys2Proof/Machine/Gather.lean ====
section
/-! DEFINITION. The gather engine (R257 to R261). -/
namespace Sys2Proof.Machine

/-- A gather among the operations. -/
def OpKind.gather? : OpKind → Option GatherOp
  | .gather x => some x
  | _ => none

/-- The GATHERs of a cluster in order of entry (R260). -/
def State.gathers (s : State) (die cluster : Nat) : List EngineOp :=
  s.ops.filter fun o => o.die == die && ((o.kind.gather?).map (·.cluster)) == some cluster

/-- No kind of page is refused. -/
def noKind (_ : Xl) : Option Nat := none

/-- GATHER (R257, R258, log 20). -/
def execGather (ty : Ty) (f : FReg) (a : SReg) (s : State) : Out :=
  memFinish s do
    let g := s.grp
    let d (i : Nat) : W64 := s.rsAt a i
    let n := (d 2).toNat % 2 ^ 32
    let len := (d 3).toNat % 2 ^ 32
    let dst := (d 5).toNat
    s.futReady f
    mustAlign (d 0) 32
    mustAlign (d 1) (tyBytes ty)
    s.mustRange (n ≤ 65536)
    s.mustRange ((d 3).toNat < 2 ^ 32 && len % 32 == 0 && 32 ≤ len && len ≤ 8192)
    mustAlign (d 4) 32
    mustAlign (d 5) 1024
    s.mustRange (!(spBase ≤ dst && dst < spBase + 4096 * (s.gang g.gang).scratch))
    mustAlign (d 6) 8
    must (dst + n * len ≤ (s.gang g.gang).shared) { code := cTranslation, addr := d 5 }
    let _ ← s.checkAll (cwCheck (d 6) noKind)
    if n = 0 then
      .ok (((s.settleFut f ⟨.resolved, 0, 0⟩).completionWord g.engineHere .die (d 6) (d 7)).advance 3)
    else
      let ts := localTiles dst (n * len)
      s.mustThread ts
      if Config.gatherQueue ≤ (s.gathers g.die g.cluster).length then .error (.hold (s.park .room))
      else
        let (id, s) := s.fresh
        let x : GatherOp :=
          { cluster := g.cluster, ty, base := d 0, idx := d 1, n, bound := (d 2).toNat / 2 ^ 32, len, stride := d 4, dst
            cw := d 6, cv := d 7 }
        .ok ((((s.flipTiles g.gang id ts).issueFut f id).startOp id (.gather x)).advance 3)

/-- The address of the row that index value `v` names, none for a row that is clipped (R258). -/
def GatherOp.rowOf (x : GatherOp) (v : Nat) : Option W64 :=
  let i := valueOf x.ty v
  if i < 0 ∨ (x.bound ≠ 0 ∧ (x.bound : Int) ≤ i) then none else some (x.base + BitVec.ofInt 64 i * x.stride)

/-- Statuses of an engine that stops at a position (R259, R286): a fault, or uncorrectable data with HELD. -/
def stopStatus (fault : Nat) (f : WalkFault) (k : Nat) : W32 :=
  match f with
  | .dataError => statusWord 1 true k
  | _ => statusWord fault false k

/-- One action of the engine on a GATHER: an index is read, a sector of its row is read, or one is written (R258, R303). -/
def State.gatherStep (s : State) (o : EngineOp) (x : GatherOp) : GatherOp × State :=
  let size := tyBytes x.ty
  match x.row with
  | none =>
    match s.readVa o.here false (x.idx + BitVec.ofNat 64 (x.k * size)) size with
    | (.error f, s) => ({ x with status := some (stopStatus 5 f x.k) }, s)
    | (.ok bs, s) =>
      let r := x.rowOf (natOfBytes bs)
      ({ x with row := some r, clipped := x.clipped + if r.isNone then 1 else 0 }, s)
  | some r =>
    if x.len ≤ x.buf.length then
      let s := s.setGang o.gang fun g => g.localWrite (x.dst + x.k * x.len + x.wrote) ((x.buf.drop x.wrote).take 32)
      if x.len ≤ x.wrote + 32 then ({ x with k := x.k + 1, row := none, buf := [], wrote := 0 }, s)
      else ({ x with wrote := x.wrote + 32 }, s)
    else match r with
      | none => ({ x with buf := List.replicate x.len 0 }, s)
      | some a =>
        match s.readVa o.here false (a + BitVec.ofNat 64 x.buf.length) 32 with
        | (.error f, s) => ({ x with status := some (stopStatus 5 f x.k) }, s)
        | (.ok bs, s) => ({ x with buf := x.buf ++ bs }, s)

/-- GATHER_SERVICE (R258, R260): the engine acts once on GATHER `i`, the first of its cluster's queue. -/
def execGatherService (i : Nat) (s : State) : Out :=
  match s.findOp i with
  | none => .next s
  | some o =>
    match o.kind with
    | .gather x =>
      if ((s.gathers o.die x.cluster).head?.map (·.id)) ≠ some i ∨ x.status.isSome ∨ x.n ≤ x.k ∨ o.cancel then .next s
      else
        let (x, t) := s.gatherStep o x
        .next (s.paid o.part o.die (t.setOp i fun _ => .gather x))
    | _ => .next s

/-- How a GATHER that has stopped resolves (R259). -/
def GatherOp.final (x : GatherOp) : W32 :=
  match x.status with
  | some st => st
  | none => if x.clipped = 0 then 0 else statusWord 4 false (min x.clipped 65535)

/-- GATHER_COMPLETE (R258, R259): GATHER `i` has written its last row, or has stopped. -/
def execGatherComplete (i : Nat) (s : State) : Out :=
  match s.findOp i with
  | none => .next s
  | some o =>
    match o.kind with
    | .gather x =>
      if x.status.isNone ∧ x.k < x.n ∨ o.cancel then .next s
      else if held x.final then .next (s.endHeld o x.final)
      else .next (s.paid o.part o.die ((s.unflip o.gang i).endOp o x.final .die x.cw x.cv))
    | _ => .next s

end Sys2Proof.Machine
end

