-- ==== Sys2Proof/Machine/Tcopy.lean ====
section
/-! DEFINITION. The tensor copy engine and its record cache (R283 to R290). -/
namespace Sys2Proof.Machine

/-- A shape record (R283): base, element size, and per dimension below RANK its extent, stride and box size. -/
structure Shape where
  base : W64
  size : Nat
  dims : List (Nat × Int × Nat)
  deriving DecidableEq, Repr

/-- Element sizes of the type codes a record may hold (R283). -/
def shapeSize (code : Nat) : Option Nat :=
  match code with
  | 0x00 | 0x04 | 0x0C | 0x0D | 0x11 => some 1
  | 0x01 | 0x05 | 0x0A | 0x0B | 0x12 => some 2
  | 0x02 | 0x06 | 0x09 | 0x13 => some 4
  | 0x03 | 0x07 | 0x08 | 0x14 => some 8
  | 0x15 => some 16
  | _ => none

/-- A record read from its 256 bytes; none where a field fails R283. -/
def shapeOf (r : List Byte) : Option Shape :=
  let rank := field r 9 1
  let dim (k : Nat) : Nat × Int × Nat := (field r (16 + 4 * k) 4, signedOf 64 (field r (80 + 8 * k) 8), field r (208 + 2 * k) 2)
  let all := (List.range 16).map dim
  match shapeSize (field r 8 1) with
  | none => none
  | some e =>
    if 1 ≤ rank ∧ rank ≤ 16 ∧ field r 10 6 = 0 ∧ field r 240 16 = 0 ∧ field r 0 8 % e = 0 ∧
        (all.take rank).all (fun d => d.1 != 0 && d.2.2 != 0 && d.2.1 % (e : Int) == 0) ∧
        (all.drop rank).all (fun d => d.1 == 0 && d.2.1 == 0 && d.2.2 == 0) then
      some ⟨BitVec.ofNat 64 (field r 0 8), e, all.take rank⟩
    else none

/-- The number of elements of a box: P(RANK). -/
def Shape.count (h : Shape) : Nat := h.dims.foldl (fun n d => n * d.2.2) 1

/-- Address of element `d` of the box at an origin; none where it lies outside the extents (R285). -/
def Shape.elemAt (h : Shape) (org : List Int) (d : Nat) : Option W64 :=
  let (a, inb, _, _) := h.dims.foldl
    (fun (a, inb, q, k) dim =>
      let c : Int := org.getD k 0 + (q % dim.2.2 : Nat)
      (a + c * dim.2.1, inb && decide (0 ≤ c ∧ c < dim.1), q / dim.2.2, k + 1))
    ((0 : Int), true, d, 0)
  if inb then some (h.base + BitVec.ofInt 64 a) else none

/-- The box origin of a descriptor (R284). -/
def State.origin (s : State) (a : SReg) : List Int :=
  (List.range 6).map fun i => signedOf 32 (bits (s.rsAt a (5 + i / 2)).toNat (32 * (i % 2)) 32)

/-- The record cache's entry of a key (R288). -/
def RecEntry.hits (e : RecEntry) (die part vf addr : Nat) : Bool := e.die == die && e.part == part && e.vf == vf && e.addr == addr

/-- An entry made the most recently used; the least recently used one of the die and partition leaves a full cache (R288). -/
def State.recTouch (s : State) (e : RecEntry) : State :=
  let rest := s.recs.filter fun x => !x.hits e.die e.part e.vf e.addr
  let own := rest.filter fun x => x.die == e.die && x.part == e.part
  let rest := if Config.recordEntries ≤ own.length then rest.erase (own.getLastD e) else rest
  { s with recs := e :: rest }

/-- TCOPY (R284, R285). -/
def execTcopy (out : Bool) (sc : Scope) (ord : Order) (cp : Cp) (f : FReg) (a : SReg) (s : State) : Out :=
  memFinish s do
    let g := s.grp
    let d (i : Nat) : W64 := s.rsAt a i
    let loc := (d 1).toNat
    let len := (d 2).toNat
    let sc := engineScope sc
    s.futReady f
    mustAlign (d 0) 256
    mustAlign (d 1) 32
    s.mustRange (len % 32 == 0 && 32 ≤ len && len ≤ 1048576)
    mustAlign (d 3) 8
    s.mustLocal (d 1) len
    let _ ← s.checkAll (cwCheck (d 3) noKind)
    let ts := localTiles loc len
    s.mustThread ts
    let org := s.origin a
    let recAddr := d 0
    let cw := d 3
    let cv := d 4
    let s ← s.releaseFor ord sc
    let (id, s) := s.fresh
    let s := (s.flipTiles g.gang id ts).issueFut f id
    let x : TcopyOp := { out, sc, cp, loc, len, cw, cv, org, recAddr, shape := [], filling := true, keep := true }
    match s.recs.find? fun e => e.hits g.die g.part g.vf recAddr.toNat with
    | some e => .ok (((s.recTouch e).startOp id (.tcopy { x with shape := e.bytes, filling := false })).advance 3)
    | none => .ok ((s.startOp id (.tcopy x)).advance 3)

/-- The next sector of a record read at the L2 slice (R286, R288). -/
def State.recordSector (s : State) (o : EngineOp) (x : TcopyOp) : TcopyOp × State :=
  let w := o.here
  match s.translateFor w.die w.part w.vf x.recAddr (·.r) with
  | (.error f, s) => ({ x with filling := false, bad := some (if f = .dataError then 3 else 1) }, s)
  | (.ok y, s) =>
    if y.kind ≠ .normal then ({ x with filling := false, bad := some 2 }, s)
    else
      let (bs, bad, s) := s.readPiece w false .dflt ⟨y.pa + x.shape.length, 32, .normal⟩
      if bad then ({ x with filling := false, bad := some 3 }, s)
      else
        let shape := x.shape ++ bs
        ({ x with shape, filling := decide (shape.length < 256) }, s)

/-- RECORD_FILL (R288): TCOPY `i` reads one more sector of its record; a whole record enters the cache, unless an RFENCE has
removed it meanwhile (R290). -/
def execRecordFill (i : Nat) (s : State) : Out :=
  match s.findOp i with
  | none => .next s
  | some o =>
    match o.kind with
    | .tcopy x =>
      if !x.filling then .next s
      else
        let (x, t) := s.recordSector o x
        let t := if !x.filling && x.bad.isNone && x.keep then t.recTouch ⟨o.die, o.part, o.vf, x.recAddr.toNat, x.shape⟩ else t
        .next (s.paid o.part o.die (t.setOp i fun _ => .tcopy x))
    | _ => .next s

/-- Bytes of element `d` on their way to the tile (R285, R303): a sector is written when it is whole, the last one as far as it goes. -/
def State.tcopyPut (s : State) (o : EngineOp) (x : TcopyOp) (h : Shape) (d : Nat) (bs : List Byte) : TcopyOp × State :=
  let buf := x.buf ++ bs
  let stop := h.size * (d + 1)
  if stop % 32 = 0 ∨ d + 1 = h.count then
    ({ x with buf := [] }, s.setGang o.gang fun g => g.localWrite (x.loc + stop - buf.length) buf)
  else ({ x with buf }, s)

/-- The bytes of a sector before an element that stops the engine. -/
def State.tcopyFlush (s : State) (o : EngineOp) (x : TcopyOp) (h : Shape) (d : Nat) : State :=
  if x.buf = [] then s else s.setGang o.gang fun g => g.localWrite (x.loc + h.size * d - x.buf.length) x.buf

/-- Element `d` moved (R285): what stops the engine, if anything. -/
def State.tcopyMove (s : State) (o : EngineOp) (x : TcopyOp) (h : Shape) (d : Nat) : Option WalkFault × TcopyOp × State :=
  let at_ := x.loc + h.size * d
  match h.elemAt x.org d with
  | none => (none, if x.out then (x, s) else s.tcopyPut o x h d (List.replicate h.size 0))
  | some a =>
    if x.out then
      let g := s.gang o.gang
      if g.localBad at_ h.size then (some .dataError, x, s)
      else match s.writeVa o.here x.sc a (g.localRead at_ h.size) x.cp with
        | (.error f, s) => (some f, x, s)
        | (.ok _, s) => (none, x, s)
    else match s.readVa o.here (isWide x.sc) a h.size x.cp with
      | (.error f, s) => (some f, x, s)
      | (.ok bs, s) => (none, s.tcopyPut o x h d bs)

/-- Up to `n` elements moved, in ascending order. -/
def State.tcopyMany (o : EngineOp) (h : Shape) : Nat → TcopyOp → State → Option WalkFault × TcopyOp × State
  | 0, x, s => (none, x, s)
  | n + 1, x, s =>
    if h.count ≤ x.d then (none, x, s)
    else match s.tcopyMove o x h x.d with
      | (some f, x, s) => (some f, x, s.tcopyFlush o x h x.d)
      | (none, x, s) => State.tcopyMany o h n { x with d := x.d + 1 } s

/-- A TCOPY's end (R285). -/
def State.tcopyEnd (s : State) (o : EngineOp) (x : TcopyOp) (status : W32) : State :=
  if held status then s.endHeld o status else (s.unflip o.gang o.id).endOp o status x.sc x.cw x.cv

/-- TCOPY_COMPLETE (R285, R286): TCOPY `i` moves up to `n` more elements, and ends if none is left or it stops. -/
def execTcopyComplete (i n : Nat) (s : State) : Out :=
  match s.findOp i with
  | none => .next s
  | some o =>
    match o.kind with
    | .tcopy x =>
      if x.filling ∨ o.cancel then .next s
      else match x.bad, shapeOf x.shape with
        | some detail, _ => .next (s.paid o.part o.die (s.tcopyEnd o x (statusWord 8 false detail)))
        | none, none => .next (s.paid o.part o.die (s.tcopyEnd o x (statusWord 8 false 0)))
        | none, some h =>
          if x.len < h.size * h.count then .next (s.paid o.part o.die (s.tcopyEnd o x (statusWord 9 false 0)))
          else match State.tcopyMany o h n x s with
            | (some f, y, t) => .next (s.paid o.part o.die (t.tcopyEnd o x (stopStatus 10 f y.d)))
            | (none, y, t) =>
              .next (s.paid o.part o.die (if h.count ≤ y.d then t.tcopyEnd o x 0 else t.setOp i fun _ => .tcopy y))
    | _ => .next s

/-- A fill of a record that will enter no entry. -/
def EngineOp.dropFill (o : EngineOp) (recAddr : W64) : EngineOp :=
  match o.kind with
  | .tcopy x => { o with kind := .tcopy { x with keep := x.keep && x.recAddr != recAddr } }
  | _ => o

/-- RFENCE (R289): the path's earlier stores, atomics and reductions are performed, those at another package waited for; the entry leaves the die's record cache, and
a fill of it under way enters none. -/
def execRfence (a : SReg) (s : State) : Out :=
  finish s do
    let g := s.grp
    let v := s.rs a
    mustAlign v 256
    if (s.wq.any fun o => o.group == g.key && s.earlier o.tags && o.unanswered) ||
        s.grp.outst.any fun e => s.earlier e.tags && e.isRemote && e.isAtomic then .error (.hold (s.park .room))
    else
    let s := s.drainQueue fun o => o.group == g.key && s.earlier o.tags && o.isGlobal
    let s := s.returnAll fun e => s.earlier e.tags && e.isAtomic
    let s := { s with
      recs := s.recs.filter fun e => !e.hits g.die g.part g.vf v.toNat
      ops := s.ops.map fun (o : EngineOp) => if o.die = g.die ∧ o.part = g.part ∧ o.vf = g.vf then o.dropFill v else o }
    .ok (s.advance 1)

end Sys2Proof.Machine
end

