-- ==== Sys2Proof/Machine/Put.lean ====
section
/-! DEFINITION. The put engine, the bridge gates it meets, and owner bits set directly (R268, R269, R291 to R296). -/
namespace Sys2Proof.Machine

/-- Whether a gate rejects a sender's partition tag (R268). -/
def Gate.rejects (g : Gate) (tag : Nat) : Bool := g.lock && tag != g.part && tag != 31

/-- The quadrant of the package that a cluster of a die lies in. -/
def quadOf (die cluster : Nat) : Nat := 4 * die + cluster / 10

/-- Whether a copy of the gates rejects a packet to a quadrant; the package has 24. -/
def gateRejects (gates : Vector Gate 24) (q tag : Nat) : Bool := ((gates.toList[q]?).map (·.rejects tag)).getD true

/-- Die, cluster and gang index that TGT names (R291). -/
def PutOp.die (x : PutOp) : Nat := bits x.tgt 16 3
def PutOp.cluster (x : PutOp) : Nat := bits x.tgt 19 6
def PutOp.gang (x : PutOp) : Nat := bits x.tgt 0 16

/-- Source and destination tiles. -/
def PutOp.srcTiles (x : PutOp) : List (Bool × Nat) := localTiles x.src x.len
def PutOp.dstTiles (x : PutOp) : List (Bool × Nat) := localTiles x.dst x.len

/-- PUTs of a die that run (R294). -/
def State.puts (s : State) (die : Nat) : Nat :=
  s.ops.countP fun o => o.die == die && match o.kind with
    | .put _ => true
    | _ => false

/-- PUT (R291, R292). -/
def execPut (sp : Bool) (sc : Scope) (ord : Order) (f : FReg) (a : SReg) (s : State) : Out :=
  memFinish s do
    let g := s.grp
    let d (i : Nat) : W64 := s.rsAt a i
    let sc := engineScope sc
    let x : PutOp :=
      { sc, src := (d 0).toNat, len := (d 1).toNat, tgt := (d 2).toNat, dst := (d 3).toNat, ctr := d 4, cw := d 5, cv := d 6 }
    s.futReady f
    mustAlign (d 0) 32
    s.mustRange (x.len % 32 == 0 && 32 ≤ x.len && x.len ≤ 1048576)
    s.mustRange (x.die ≤ 5 && x.cluster ≤ 39 && x.tgt < 2 ^ 25)
    mustAlign (d 3) 32
    s.mustRange (decide (spBase ≤ x.dst) == sp)
    mustAlign (d 4) 8
    mustAlign (d 5) 8
    s.mustRange (d 7 == 0)
    s.mustLocal (d 0) x.len
    let _ ← s.checkAll (if d 4 = 0 then [] else [⟨d 4, 8, fun x => x.r && x.w, atomKind sc⟩])
    let _ ← s.checkAll (cwCheck (d 5) noKind)
    must (!gateRejects s.gateCopy (quadOf x.die x.cluster) g.part) { code := cBridge, addr := s.pc, aux0 := d 2 }
    s.mustThread x.srcTiles
    if Config.putSlots ≤ s.puts g.die then .error (.hold (s.park .room))
    else
      let s ← s.releaseFor ord sc
      let (id, s) := s.fresh
      .ok ((((s.flipTiles g.gang id x.srcTiles).issueFut f id).startOp id (.put x)).advance 3)

/-- The gang that a PUT reaches: of the sender's launch if there is one, else of its context (log 21). -/
def State.putGang (s : State) (o : EngineOp) (x : PutOp) : Option Gang :=
  let hit (g : Gang) : Bool :=
    g.vf == o.vf && g.part == o.part && g.index == x.gang && g.die == x.die && g.cluster == x.cluster
  match s.gangs.find? fun g => hit g && g.launch == (s.gang o.gang).launch with
  | some g => some g
  | none => s.gangs.find? hit

/-- The sectors of a PUT before the first that cannot be read: all of them, or its position. -/
def State.putReadable (s : State) (o : EngineOp) (x : PutOp) : Nat :=
  ((List.range (x.len / 32)).find? fun k => (s.gang o.gang).localBad (x.src + 32 * k) 32).getD (x.len / 32)

/-- The first `n` sectors copied, from the source as it stood before any was written (R292, R295). -/
def State.putCopy (s : State) (o : EngineOp) (x : PutOp) (key n : Nat) : State :=
  let bs := (s.gang o.gang).localRead x.src (32 * n)
  s.setGang key fun g => g.localWrite x.dst bs

/-- The destination tiles of a PUT back to THREAD. -/
def State.freeDst (s : State) (key : Nat) (x : PutOp) : State :=
  s.setGang key fun g => x.dstTiles.foldl (fun g t => g.setOwner t .thread) g

/-- The receiver's counter incremented at SC by the target's die (R292). -/
def State.bump (s : State) (w : Here) (ctr : W64) : State :=
  if ctr = 0 then s
  else match s.mapVa w 32 ctr 8 (·.w) with
    | (.ok (p :: _), s) => (s.atomicStep w .add .z64 .dflt p 1 0).2.2
    | (_, s) => s

/-- PUT_ARRIVAL (R292): PUT `i` reaches the target cluster, is checked and takes its tiles; at the next arrival its bytes are
copied, the tiles flip to THREAD and the counter is incremented. -/
def execPutArrival (i : Nat) (s : State) : Out :=
  match s.findOp i with
  | none => .next s
  | some o =>
    match o.kind with
    | .put x =>
      let done (st : W32) (s : State) : State := s.setOp i fun _ => .put { x with status := some st }
      if x.status.isSome ∨ o.cancel then .next s
      else match x.landed with
        | some key =>
          let n := s.putReadable o x
          let s := s.putCopy o x key n
          if n < x.len / 32 then .next (done (statusWord 1 true n) s)
          else .next (s.paid o.part x.die (done 0 ((s.freeDst key x).bump ⟨x.die, noCluster, 0, o.part, o.vf⟩ x.ctr)))
        | none =>
          if gateRejects s.gates (quadOf x.die x.cluster) o.part then .next (done (statusWord 13 false 0) s)
          else match s.putGang o x with
            | none => .next (done (statusWord 11 false 0) s)
            | some g =>
              if !g.localOk x.dst x.len then .next (done (statusWord 11 false 1) s)
              else if x.dstTiles.any fun t => match g.owner t with
                  | .engine k => k != i
                  | _ => false then .next (done (statusWord 12 false 0) s)
              else
                let s := s.flipTiles g.key i x.dstTiles
                .next (s.setOp i fun _ => .put { x with landed := some g.key })
    | _ => .next s

/-- PUT_COMPLETE (R292, R293): the sender's source tiles flip back, its future resolves, its completion word is written. -/
def execPutComplete (i : Nat) (s : State) : Out :=
  match s.findOp i with
  | none => .next s
  | some o =>
    match o.kind with
    | .put x =>
      match x.status with
      | none => .next s
      | some st =>
        if o.cancel then .next s
        else if held st then .next (s.endHeld o st)
        else .next (s.paid o.part o.die ((s.unflip o.gang i).endOp o st x.sc x.cw x.cv))
    | _ => .next s

/-! ### TOWN (R296) -/

/-- TOWN: the tiles that cover a range get an owner. -/
def townOp (engine : Bool) (a b : SReg) (s : State) : Out :=
  finish s (
    let lo := s.rs a
    let n := s.rs b
    let unit := if lo.toNat < spBase then 1024 else 4096
    let g := s.gang s.grp.gang
    if n = 0 then .ok (s.advance 1)
    else do
      mustAlign lo unit
      mustAlign n unit
      s.mustLocal lo n.toNat
      let ts := localTiles lo.toNat n.toNat
      match ts.find? fun t => match g.owner t with
        | .engine _ => true
        | _ => false with
      | some t => raise { code := cOwner, addr := BitVec.ofNat 64 (tileAddr t) }
      | none =>
        let s := if engine then s.settleLocal g.key else s
        .ok ((s.setGang g.key fun g =>
          ts.foldl (fun g t => g.setOwner t (if engine then .software else .thread)) g).advance 1))

def execTownThread (a b : SReg) (s : State) : Out := townOp false a b s
def execTownEngine (a b : SReg) (s : State) : Out := townOp true a b s

end Sys2Proof.Machine
end

