-- ==== Sys2Proof/Machine/Sets.lean ====
section
/-! DEFINITION. Sets, barriers and the barrier watchdog (R250 to R256). -/
namespace Sys2Proof.Machine

/-- EXPECT and ARRIVED (R251). -/
def SetEntry.expect (e : SetEntry) : Nat := popCount 256 (e.member &&& ~~~e.left).toNat
def SetEntry.arrived (e : SetEntry) : Nat := popCount 256 e.arrv.toNat

/-- Entry `n` of a gang's sets changed. -/
def Gang.setAt (g : Gang) (n : Nat) (f : SetEntry → SetEntry) : Gang :=
  { g with sets := (List.range g.sets.length).map fun i =>
      let e := g.sets.getD i {}
      if i = n then f e else e }

/-- The checks of the barrier instructions (R252): the set's number and entry. -/
def State.setCheck (s : State) (a : SReg) (whole : Bool) : Res (Nat × SetEntry) :=
  let n := (s.rs a).toNat
  match (s.gang s.grp.gang).sets[n]? with
  | none => raise { code := cSet, addr := s.pc, aux0 := s.rs a }
  | some e =>
    if !e.isMember s.grp.gid then raise { code := cSet, addr := s.pc, aux0 := s.rs a }
    else if whole && s.slot.mask != s.grp.live then s.illegal
    else .ok (n, e)

/-- A path parked on set `n` is released when its phase ends (R253). -/
def Slot.phaseEnds (x : Slot) (n : Nat) : Slot :=
  match x.park with
  | .barrier m _ => if m = n then { x with park := .released } else x
  | .arrived m _ => if m = n then { x with park := .none } else x
  | _ => x

/-- Every slot of a group, the interrupted ones too. -/
def Group.mapSlots (g : Group) (f : Slot → Slot) : Group :=
  { g with
    slotA := f g.slotA, slotB := f g.slotB
    trap := g.trap.map fun t => { t with slotA := f t.slotA, slotB := f t.slotB } }

/-- complete(n) (R253). -/
def State.completeSet (s : State) (gang n : Nat) : State :=
  let s := s.setGang gang fun g => g.setAt n fun e => { e with phase := !e.phase, arrv := 0, since := none }
  let f (g : Group) : Group := if g.gang = gang then g.mapSlots fun x => x.phaseEnds n else g
  { s with grp := f s.grp, groups := s.groups.map f }

/-- The phase ends when every member in EXPECT has arrived. -/
def State.completeIf (s : State) (gang n : Nat) : State :=
  match (s.gang gang).sets[n]? with
  | some e => if e.expect = e.arrived ∧ 0 < e.expect then s.completeSet gang n else s
  | none => s

/-- arrive(g, n) (R253): the phase in which the group arrived. -/
def State.arriveSet (s : State) (n : Nat) (e : SetEntry) : Res State :=
  if e.arrv.getLsbD s.grp.gid then .error (.hold (s.park (.arrived n e.phase)))
  else do
    let t ← s.release .gang
    .ok (t.setGang s.grp.gang fun g => g.setAt n fun e => { e with arrv := e.arrv ||| (1#256 <<< s.grp.gid) })

/-- BARV (R253). -/
def execBarv (d a : SReg) (s : State) : Out :=
  finish s do
    let (n, e) ← s.setCheck a true
    let t ← s.arriveSet n e
    .ok (((t.setRs d (if e.phase then 1 else 0)).advance 1).completeIf s.grp.gang n)

/-- BWAIT and BSYNC complete (R253): the acquire part of FENCE.acq.gang. -/
def State.barrierDone (s : State) : State := (s.advance 1).acquire .gang

/-- BWAIT (R253). -/
def execBwait (a b : SReg) (s : State) : Out :=
  finish s do
    let (n, e) ← s.setCheck a false
    .ok (if e.phase ≠ (s.rs b).getLsbD 0 then s.barrierDone else s.park (.barrier n e.phase))

/-- BSYNC (R253): the arrival, then the wait for its phase to end. -/
def execBsync (a : SReg) (s : State) : Out :=
  finish s do
    let (n, e) ← s.setCheck a true
    let t ← s.arriveSet n e
    .ok ((t.park (.barrier n e.phase)).completeIf s.grp.gang n)

/-- SETLEAVE (R253, R304). -/
def execSetleave (a : SReg) (s : State) : Out :=
  finish s do
    let (n, e) ← s.setCheck a true
    if e.arrv.getLsbD s.grp.gid then .error (.hold (s.park (.arrived n e.phase)))
    else
      let t ← s.release .gang
      let t := t.setGang s.grp.gang fun g => g.setAt n fun e => { e with left := e.left ||| (1#256 <<< s.grp.gid) }
      .ok ((t.advance 1).completeIf s.grp.gang n)

/-! ### The watchdog (R256) -/

/-- A path parked in a barrier instruction whose phase has not ended. -/
def Slot.inBarrier (x : Slot) : Bool :=
  match x.park with
  | .barrier _ _ | .arrived _ _ => true
  | _ => false

/-- Whether a group is waiting. -/
def Group.waiting (g : Group) : Bool :=
  g.trap.isNone && (g.slotA.occ || g.slotB.occ) && (!g.slotA.occ || g.slotA.inBarrier) && (!g.slotB.occ || g.slotB.inBarrier)

/-- Whether the watchdog of a set runs. -/
def State.watching (s : State) (g : Gang) (e : SetEntry) : Bool :=
  let members := s.allGroups.filter fun x => x.gang == g.key && e.isMember x.gid
  decide (e.arrived < e.expect) && !members.isEmpty && members.all (·.waiting) && match s.ctx g.vf g.part with
    | some c => c.state == .active
    | none => true

/-- The watchdogs of every gang at an instant: a run starts, goes on, or ends. -/
def State.watch (s : State) : State :=
  { s with gangs := s.gangs.map fun g => { g with
      sets := g.sets.map fun e => { e with since := if s.watching g e then some (e.since.getD s.time) else none } } }

/-- Program counters of a member for the set diagnostic: 0 for one that has ended, though a spawned group may have its index (R250). -/
def State.memberPcs (s : State) (gang : Nat) (e : SetEntry) (gid : Nat) : List W64 :=
  match s.allGroups.find? fun g => g.gang == gang && g.gid == gid with
  | some g => if e.isMember gid then [g.slotA.pcWord, g.slotB.pcWord] else [0, 0]
  | none => [0, 0]

/-- A 256-bit mask as four words. -/
def maskWords (m : BitVec 256) : List W64 := (List.range 4).map fun i => m.extractLsb' (64 * i) 64

/-- The set diagnostic (R256). -/
def State.setDiagnostic (s : State) (g : Gang) (n : Nat) (e : SetEntry) : List W64 :=
  [BitVec.ofNat 64 cBarrierTimeout, BitVec.ofNat 64 n, BitVec.ofNat 64 g.index,
   BitVec.ofNat 64 (e.expect + e.arrived * 2 ^ 16 + if e.phase then 2 ^ 32 else 0),
   BitVec.ofNat 64 g.wdog, BitVec.ofNat 64 s.time, 0, 0] ++
    maskWords e.member ++ maskWords e.arrv ++ maskWords e.exited ++ maskWords e.left ++ List.replicate 8 0 ++
    ((List.range 256).filter fun i => e.member.getLsbD i && !e.left.getLsbD i).flatMap fun i => s.memberPcs g.key e i

/-- Whether the watchdog of a set has fired. -/
def State.fires (s : State) (g : Gang) (e : SetEntry) : Bool :=
  s.watching g e && match e.since with
    | some t => decide (t + g.wdog ≤ s.time)
    | none => false

/-- BARRIER_TIMEOUT (R256): the lowest set of the gang that fires ends the context. -/
def execBarrierTimeout (key n : Nat) (s : State) : Out :=
  let g := s.gang key
  match (g.sets[n]?).map (s.fires g) with
  | some true =>
    let m := (g.sets.findIdx? (s.fires g)).getD n
    let e := g.sets.getD m {}
    let record : List W64 :=
      [BitVec.ofNat 64 cBarrierTimeout, 0, 0, 0, BitVec.ofNat 64 (0x200 + g.index % 2 ^ 32 * 2 ^ 32), 0, 0, BitVec.ofNat 64 s.time]
    .next (s.terminate g.vf g.part g.launch (record ++ s.setDiagnostic g m e))
  | _ => .next s

end Sys2Proof.Machine
end

