-- ==== Sys2Proof/Machine/Grace.lean ====
section
/-! DEFINITION. Read sections, grace periods, deferred frees and the Regulator (R338 to R346). -/
namespace Sys2Proof.Machine

/-- RSOPEN (R338, R339). -/
def execRsopen (s : State) : Out :=
  finish s (
    let g := s.grp
    if s.slot.mask ≠ g.live ∨ g.rsd = 15 then s.illegal
    else
      let s : State := if g.rsd = 0 then s.setCtx g.vf g.part fun c => { c with readers := c.readers ++ [g.key] } else s
      .ok ((s.setGrp fun g => { g with rsd := g.rsd + 1 }).advance 1))

/-- RSCLOSE (R338, R339). -/
def execRsclose (s : State) : Out :=
  finish s (
    let g := s.grp
    if s.slot.mask ≠ g.live ∨ g.rsd = 0 then s.illegal
    else if s.cnt .ld ≠ 0 ∨ s.cnt .sm ≠ 0 then .error (.hold (s.park .drain))
    else
      let s : State := if g.rsd = 1 then s.leaveReaders g.vf g.part g.key else s
      .ok ((s.setGrp fun g => { g with rsd := g.rsd - 1 }).advance 1))

/-! ### Grace periods -/

/-- Whether a cluster lies in a partition's quadrants. -/
def State.inPart (s : State) (part die cluster : Nat) : Bool :=
  ((s.gates.toList[quadOf die cluster]?).map (·.part)) == some part

/-- Step 1 of a grace start (R340): clean NORMAL sectors of the context leave the partition's L2 slices, then its L1s. -/
def State.graceDrop (s : State) (vf part : Nat) : State :=
  (s.l2Drop fun x => x.vf == vf && x.part == part && x.dirty == 0).l1Drop fun x => x.vf == vf && s.inPart part x.die x.cluster

/-- Open grace periods that wait for their start make it while fewer than 64 are under way (R340). -/
def State.startGraces (s : State) (vf part : Nat) : State :=
  match s.ctx vf part with
  | none => s
  | some c =>
    let room := Config.gracePeriods - c.graces.countP (·.started)
    let ids := ((c.graces.filter fun g => !g.started).take room).map (·.id)
    if ids = [] then s
    else (s.graceDrop vf part).setCtx vf part fun c =>
      { c with
        graces := updateAll (fun g => g.id ∈ ids) (fun g => { g with started := true, readers := c.readers }) c.graces
        batches := updateAll (fun b => b.grace ∈ ids && b.state == .closed) (fun b => { b with state := .waiting }) c.batches }

/-- A grace period of a context opened (R340). -/
def State.openGrace (s : State) (vf part id : Nat) (deadline : Option Nat) : State :=
  (s.setCtx vf part fun c => { c with graces := c.graces ++ [⟨id, false, [], deadline⟩] }).startGraces vf part

/-- A path that waits for a grace period gets its status. -/
def Slot.graceEnds (x : Slot) (id : Nat) (status : W32) : Slot :=
  match x.park with
  | .gpwait d k => if k = id then { x with park := .gpdone d status } else x
  | _ => x

/-- A grace period closed with a status: its waiter, if it has one, gets it; a batch goes on to be pushed (R341, R344). -/
def State.endGrace (s : State) (vf part id : Nat) (status : W32) : State :=
  let f (g : Group) : Group := g.mapSlots fun x => x.graceEnds id status
  let s := { s with
    grp := f s.grp
    groups := s.groups.map f
    saved := s.saved.map fun (v : Saved) => { v with groups := v.groups.map f } }
  let s : State := match s.ops.find? fun (o : EngineOp) => o.kind == .gpwait id with
    | some o => s.endOp o status .pkg 0 0
    | none => s
  (s.setCtx vf part fun c =>
    { c with
      graces := c.graces.filter fun g => g.id != id
      batches := updateAll (fun b => b.grace == id && b.state == .waiting) (fun b => { b with state := .pushing }) c.batches }).startGraces
    vf part

/-- Whether a remaining reader cannot run (R341). -/
def State.savedReader (s : State) (c : Ctx) (readers : List Nat) : Bool :=
  readers.any fun k => c.state != .active || c.paused || s.saved.any fun v => v.groups.any fun g => g.key == k

/-- The status of a grace period at its deadline (R341). -/
def State.graceStatus (s : State) (c : Ctx) (g : Grace) : W32 :=
  if g.started && g.readers.isEmpty then 0
  else statusWord (if s.savedReader c g.readers then 0xC0 else 0xC1) false (min g.readers.length 65535)

/-- A grace period of any context by its number. -/
def State.findGrace (s : State) (id : Nat) : Option (Ctx × Grace) :=
  s.ctxs.findSome? fun c => (c.graces.find? fun g => g.id == id).map fun g => (c, g)

/-- A deadline that has come already decides at once (R346). -/
def State.graceNow (s : State) (id : Nat) : State :=
  match s.findGrace id with
  | some (c, g) =>
    match g.deadline with
    | some d => if d ≤ s.time then s.endGrace c.vf c.part id (s.graceStatus c g) else s
    | none => s
  | none => s

/-- GPWAIT in its forms (R341). -/
def gpwaitOp (d : SReg) (f : Option FReg) (t : Option SReg) (s : State) : Out :=
  finish s do
    let g := s.grp
    must (g.rsd == 0) { code := cIllegal, addr := s.pc }
    match f with
    | some f => s.futReady f
    | none => .ok ()
    let deadline := t.map fun a => min (s.time + (s.rs a).toNat) (2 ^ 64 - 1)
    let s ← s.release .pkg
    let (id, s) := s.fresh
    let s := match f with
      | some f => ((s.issueFut f id).startOp id (.gpwait id)).advance 1
      | none => s.park (.gpwait d id)
    if (s.ctx g.vf g.part).isNone then .ok (s.endGrace g.vf g.part id 0)
    else .ok ((s.openGrace g.vf g.part id deadline).graceNow id)

def execGpwait (d : SReg) (s : State) : Out := gpwaitOp d none none s
def execGpwaitT (d a : SReg) (s : State) : Out := gpwaitOp d none (some a) s
def execGpwaitF (f : FReg) (s : State) : Out := gpwaitOp 0 (some f) none s
def execGpwaitFT (f : FReg) (a : SReg) (s : State) : Out := gpwaitOp 0 (some f) (some a) s

/-- GRACE_PERIOD_END (R340): every group of the snapshot of grace period `i` has left the reader set. -/
def execGracePeriodEnd (i : Nat) (s : State) : Out :=
  match s.findGrace i with
  | some (c, g) => if g.started ∧ g.readers = [] then .next (s.endGrace c.vf c.part i 0) else .next s
  | none => .next s

/-- GPWAIT_DEADLINE (R341). -/
def execGpwaitDeadline (i : Nat) (s : State) : Out := .next (s.graceNow i)

/-! ### Deferred frees -/

/-- Entries of a context's deferred-free queue (R343). -/
def Ctx.queued (c : Ctx) : Nat := (c.batches.map fun b => b.entries.length).sum

/-- An entry appended to the open batch, or to a new one (R344). -/
def Ctx.deferFree (c : Ctx) (now : Nat) (x : W64 × Nat × W64) : Ctx :=
  let fits (b : Batch) : Bool := b.state == .opened && decide (b.entries.length < Config.batchEntries)
  if c.batches.any fits then { c with batches := updateFirst fits (fun b => { b with entries := b.entries ++ [x] }) c.batches }
  else { c with batches := c.batches ++ [{ entries := [x], since := now, state := .opened }] }

/-- Whether the deferred-free queue of the current group's context has room (R343). -/
def State.freeRoom (s : State) : Bool := ((s.ctx s.grp.vf s.grp.part).map fun c => decide (c.queued < Config.freeQueue)).getD true

/-- A DFREE whose checks have passed enters its entry (R343), and the path goes on. -/
def State.freeNow (s : State) (n : W64) (c : Nat) (h : W64) : State :=
  (s.setCtx s.grp.vf s.grp.part fun y => y.deferFree s.time (n, c, h)).advance 1

/-- DFREE (R343): with its queue full the path waits for room with the entry as read and checked at issue. -/
def execDfree (a : SReg) (s : State) : Out :=
  memFinish s do
    let x := s.rsAt a 0
    let c := (s.rsAt a 1).toNat
    let h := s.rsAt a 2
    s.mustRange (4 ≤ c && c ≤ 20)
    mustAlign x (2 ^ c)
    mustAlign h 8
    let home (y : Xl) : Option Nat := if y.kind = .atomicHome then none else some cAtomPage
    let _ ← s.checkAll [⟨x, 8, (·.w), noKind⟩, ⟨h, 8, fun y => y.r && y.w, home⟩]
    let s ← s.release .pkg
    if s.freeRoom then .ok (s.freeNow x c h) else .error (.hold (s.park (.dfree x c h)))

/-- The context at a position of the root's list. -/
def State.ctxAt (s : State) (i : Nat) : Option Ctx := s.ctxs[i]?

/-- BATCH_CLOSE (R344): the oldest open batch of context `i` closes at 256 entries or 10 µs, and its grace start is made. -/
def execBatchClose (i : Nat) (s : State) : Out :=
  match s.ctxAt i with
  | none => .next s
  | some c =>
    let due (b : Batch) : Bool :=
      b.state == .opened && (decide (Config.batchEntries ≤ b.entries.length) || decide (b.since + 10000 ≤ s.time))
    if !c.batches.any due then .next s
    else
      let (id, s) := s.fresh
      let s := s.setCtx c.vf c.part fun c => { c with batches := updateFirst due (fun b => { b with state := .closed, grace := id }) c.batches }
      .next (s.openGrace c.vf c.part id none)

/-- The word at an entry's head and where it lies; none where the entry is lost. -/
def State.headOf (s : State) (w : Here) (h : W64) : Option (Nat × Piece) × State :=
  match s.mapVa w 32 h 8 fun x => x.r && x.w && x.kind == .atomicHome with
  | (.ok (p :: _), s) =>
    let (bs, bad, s) := s.readPiece w true .dflt p
    (if bad then none else some (natOfBytes bs, p), s)
  | (_, s) => (none, s)

/-- One action on the first entry of a batch that is pushed (R344): the head is read and the node linked to it, or the CAS made;
a CAS that fails starts the entry again. `loseHead` is the takeover's rule, which does not start again (R345). -/
def State.pushStep (s : State) (w : Here) (b : Batch) (loseHead : Bool) : Batch × State :=
  match b.entries with
  | [] => (b, s)
  | (x, _, h) :: rest =>
    let lose (b : Batch) : Batch := { b with entries := rest, cur := none, lost := b.lost + 1 }
    let push (b : Batch) : Batch := { b with entries := rest, cur := none, pushed := b.pushed + 1 }
    match s.headOf w h with
    | (none, s) => (lose b, s)
    | (some (v, p), s) =>
      match b.cur with
      | none =>
        match s.writeVa w .pkg x (bytesOfNat 8 v) with
        | (.error _, s) => (lose b, s)
        | (.ok _, s) => ({ b with cur := some v }, s)
      | some old =>
        if v = old then (push b, (s.atomicStep w .cas .b64 .dflt p x.toNat old).2.2)
        else if !loseHead then ({ b with cur := none }, s)
        else if v = x.toNat then (push b, s) else (lose b, s)

/-- Whether every batch before one is done: those are gone from the list. -/
def Ctx.pushing (c : Ctx) : Option Batch :=
  match c.batches with
  | b :: _ => if b.state = .pushing then some b else none
  | [] => none

/-- A batch whose entries are all pushed or lost is counted and leaves (R344). -/
def State.batchDone (s : State) (w : Here) (c : Ctx) (b : Batch) : State :=
  if b.entries ≠ [] then s.setCtx c.vf c.part fun c => { c with batches := b :: c.batches.drop 1 }
  else
    let s := s.setCtx c.vf c.part fun c => { c with batches := c.batches.drop 1 }
    (s.redBase w (BitVec.ofNat 64 c.dfc) b.pushed).redBase w (BitVec.ofNat 64 (c.dfc + 8)) b.lost

/-- Where the Regulator acts: the base die of stack 0, or of stack 6 after a takeover (R344, R345). -/
def State.regulatorHere (s : State) (c : Ctx) : Here := agentHere (if s.regulator.primary then 0 else 6) c.part c.vf

/-- BATCH_PUSH (R344): the Regulator acts once on the first batch of context `i`. -/
def execBatchPush (i : Nat) (s : State) : Out :=
  match (s.ctxAt i).bind fun c => c.pushing.map fun b => (c, b) with
  | none => .next s
  | some (c, b) =>
    let w := s.regulatorHere c
    let (b, s) := s.pushStep w b false
    .next (s.batchDone w c b)

/-- What the standby Regulator does for one context (R345): a new grace start for every open grace period, which adds the current
readers, and the entry under way finished by its recorded old value. -/
def State.takeoverCtx (s : State) (c : Ctx) : State :=
  let s := (s.graceDrop c.vf c.part).setCtx c.vf c.part fun c =>
    { c with graces := updateAll (·.started) (fun g => { g with readers := g.readers ++ c.readers.filter (· ∉ g.readers) }) c.graces }
  match c.pushing with
  | some b =>
    if b.cur.isNone then s
    else
      let w := s.regulatorHere c
      let (b, s) := s.pushStep w b true
      s.batchDone w c b
  | none => s

/-- REGULATOR_TAKEOVER (R345): after three missed heartbeats of the primary. -/
def execRegulatorTakeover (s : State) : Out :=
  if !s.regulator.primary ∨ s.regulator.missed < 3 then .next s
  else .next (s.ctxs.foldl State.takeoverCtx { s with regulator := { s.regulator with primary := false } })

end Sys2Proof.Machine
end

