-- ==== Sys2Proof/Machine/Near.lean ====
section
/-! DEFINITION. Near-memory units: NMCALL, IXRED, GRED, WALK, COLL, their packets, units, watchdogs and refresh (R352 to R380). -/
namespace Sys2Proof.Machine

/-- A command's packet waits at its quadrant's edge port (R355, R358, R360): what it is for stands at channel `ch`. -/
def State.meter (s : State) (id bytes ch : Nat) (cls : Traffic) (line : Option Nat := none) : State :=
  s.putPacket { part := s.grp.part, vf := s.grp.vf, die := s.grp.die, bytes, id, cls, port := s.grp.cluster / 10, ch, line }

/-- A packet that the agents of a stack send for an operation (R357, R360): it waits for the credit of the issuing die. -/
def State.agentPacket (s : State) (o : EngineOp) (from_ bytes ch : Nat) (what : Carry) : State :=
  s.putPacket { part := o.part, vf := o.vf, die := o.die, bytes, id := o.id, cls := .nmc, port := agentPort (from_ / 32), ch, what }

/-! ### NMUs -/

/-- A channel's NMU. -/
def State.nmu (s : State) (ch : Nat) : Nmu := (s.nmus.find? fun u => u.ch == ch).getD { ch }

/-- A channel's NMU changed. -/
def State.setNmu (s : State) (ch : Nat) (f : Nmu → Nmu) : State :=
  { s with nmus := f (s.nmu ch) :: s.nmus.filter fun u => u.ch != ch }

/-- A step enters an NMU's queue; the first one begins to hold compute mode (R363). -/
def State.enqueueStep (s : State) (ch : Nat) (x : NmuStep) : State :=
  s.setNmu ch fun u => { u with queue := u.queue ++ [x], since := if u.queue.isEmpty then s.time else u.since }

/-- Steps leave an NMU's queue; where the first was among them, the next begins. -/
def Nmu.without (u : Nmu) (now : Nat) (p : NmuStep → Bool) : Nmu :=
  { u with queue := u.queue.filter fun x => !p x, since := if u.queue.head?.any p then now else u.since }

/-- The step under way leaves its NMU's queue; the next begins. -/
def State.dropSteps (s : State) (ch : Nat) (p : NmuStep → Bool) : State :=
  s.setNmu ch fun u => { u with queue := u.queue.filter fun x => !p x, since := s.time }

/-- Operation of a step. -/
def NmuStep.op : NmuStep → Nat
  | .call i => i
  | .hop i _ => i
  | .share i => i

/-- Steps and packets of an operation leave every queue. -/
def State.forget (s : State) (id : Nat) : State :=
  { s with
    nmus := s.nmus.map fun u => u.without s.time fun x => x.op == id
    inject := s.inject.filter fun p => p.id != id }

/-- Whether an operation's packets go to NMUs. -/
def OpKind.onNmu : OpKind → Bool
  | .nmcall x => x.status.isNone
  | .gred _ => true
  | .walk _ => true
  | _ => false

/-- Whether a channel's queue has room for one more command (R363, R367): steps in it and commands on their way to it. -/
def State.nmuRoom (s : State) (ch : Nat) : Bool :=
  decide ((s.nmu ch).queue.length + (s.inject.countP fun p => p.ch == ch && p.command && (s.findOp p.id).any fun o => o.kind.onNmu) <
    Config.nmuSteps)

/-- Since when the collective of a sequencer that is now first runs (R377, R378). -/
def State.beginColl (s : State) (stack : Nat) : State :=
  let mine (o : EngineOp) : Bool := match o.kind with
    | .coll x => x.stack == stack && s.injected o.id
    | _ => false
  match s.ops.find? mine with
  | some o => s.setOp o.id fun k => match k with
    | .coll x => .coll { x with since := some (x.since.getD s.time) }
    | k => k
  | none => s

/-- An operation put last: those that have reached one adder or sequencer stand in their order of arrival (R371, R377). -/
def State.lastOp (s : State) (o : EngineOp) : State := { s with ops := s.ops.filter (fun p => p.id != o.id) ++ [o] }

/-- What a packet does where it arrives: a message leaves the package, a walk's token is at its next NMU, a command's step enters its NMU's
queue, a collective begins if its sequencer is free. It is always accepted (R358). -/
def State.deliver (s : State) (p : Packet) : State :=
  match p.msg, s.findOp p.id with
  | some m, _ => { s with net := s.net ++ [m] }
  | none, some o =>
    match o.kind, p.what with
    | .walk x, .token w => s.setOp o.id fun _ => .walk { x with live := updateFirst (fun k => k.w == w) (fun k => { k with ch := p.ch }) x.live }
    | .nmcall x, .command => if x.status.isNone then s.enqueueStep x.ch (.call o.id) else s
    | .gred _, .command => s.enqueueStep p.ch (.share o.id)
    | .ixred _, .command => s.lastOp o
    | .coll x, .command => (s.lastOp o).beginColl x.stack
    | _, _ => s
  | none, none => s

/-- A packet at a stack of its route: it is there, or waits for the next link (R356, R358). -/
def State.forward (s : State) (p : Packet) (stack hop : Nat) : State :=
  if s.target p = some stack then s.deliver p else { s with inject := s.inject ++ [{ p with at_ := some (stack, hop) }] }

/-- RATE_LIMITED_INJECT (R356, R358 to R361): packet `i`, first in its queue, enters the network unless its counter or its port holds it, and
is charged; or, inside the network, takes the next hop of its route. Where it arrives it acts. -/
def execRateLimitedInject (i : Nat) (s : State) : Out :=
  match s.inject[i]? with
  | none => .next s
  | some p =>
    if (s.inject.take i).any fun q => q.before p then .next s
    else match s.target p, p.at_ with
      | none, _ => .next s
      | some _, none =>
        if s.blocked p then .next s else .next (({ s with inject := dropAt s.inject i }.toll p).forward p p.entry 0)
      | some t, some (e, h) =>
        .next ({ s with inject := dropAt s.inject i }.forward p (((route e t)[0]?).getD t) (h + 1))

/-! ### Issue -/

/-- No command touches a HOST page; a counter lies on an ATOMIC_HOME page (R367). -/
def nearKind (x : Xl) : Option Nat := if x.kind = .host then some cAtomPage else none
def homeKind (x : Xl) : Option Nat := if x.kind = .atomicHome then none else some cAtomPage

/-- The scope of a command: .grp, .gang and .die act as .pkg (R367). -/
def nearScope (sc : Scope) : Scope := if isWide sc then sc else .pkg

/-- Payload of a command's packet: its eight descriptor registers (log 22). -/
def commandBytes : Nat := 64

/-- A command sent (R367, R308) to what stands at channel `ch`: after the release of .rel it waits for its injection. -/
def State.sendCommand (s : State) (sc : Scope) (ord : Order) (f : Option FReg) (words ch : Nat) (line : Option Nat) (cls : Traffic)
    (kind : OpKind) : Res State := do
  let s ← s.releaseFor ord sc
  let (id, s) := s.fresh
  let s : State := match f with
    | some f => s.issueFut f id
    | none => s
  .ok (((s.startOp id kind).meter id commandBytes ch cls line).advance words)

/-- The first piece of the first checked address. -/
def firstPa (ps : List (List Piece)) : Nat := ((ps.head?.bind (·.head?)).map (·.pa)).getD 0

/-- NMCALL (R367 to R369). An entry point without a name needs no address. -/
def execNmcall (sc : Scope) (ord : Order) (entry : BitVec 5) (f : FReg) (a : SReg) (s : State) : Out :=
  memFinish s do
    let d (i : Nat) : W64 := s.rsAt a i
    let e := entry.toNat
    let sc := nearScope sc
    s.futReady f
    mustAlign (d 0) 256
    s.mustRange (1 ≤ (d 1).toNat && (d 1).toNat ≤ 65536)
    mustAlign (d 2) 256
    if e = 0 then s.mustRange (d 4 == 0)
    else if e = 2 then mustAlign (d 4) 8
    else if e < 4 then mustAlign (d 4) 256
    else .ok ()
    mustAlign (d 5) 8
    s.mustRange (d 7 == 0)
    let line : List Check := if e < 4 then [⟨d 0, 256, if e = 0 then (·.w) else (·.r), nearKind⟩] else []
    let res : List Check := if e < 4 && d 4 != 0 then [⟨d 4, if e = 2 then 8 else 256, (·.w), nearKind⟩] else []
    let ps ← s.checkAll (line ++ res ++ cwCheck (d 5) nearKind)
    let ch := if e < 4 then s.channelOf (firstPa ps) else 0
    if e < 4 && !s.nmuRoom ch then .error (.hold (s.park .room))
    else
      s.sendCommand sc ord (some f) 3 ch (if e < 4 then some (firstPa ps / 256) else none) .nmc (.nmcall
        { entry := e, sc, addr := d 0, count := (d 1).toNat, stride := d 2, arg := d 3, res := d 4, cw := d 5, cv := d 6, ch
          status := if e < 4 then none else some (statusWord 0x41 false e) })

/-- Index `k` of an IXRED (R370). -/
def State.ixIndex (s : State) (a : SReg) (k : Nat) : Nat := bits (s.rsAt a (2 + k / 4)).toNat (16 * (k % 4)) 16

/-- IXREDs that a stack's adders hold (R370). -/
def State.ixreds (s : State) (stack : Nat) : Nat :=
  s.ops.countP fun o => match o.kind with
    | .ixred x => x.stack == stack
    | _ => false

/-- IXRED (R367, R370). -/
def execIxred (ty : Ty) (sc : Scope) (ord : Order) (a : SReg) (s : State) : Out :=
  memFinish s do
    let d (i : Nat) : W64 := s.rsAt a i
    let sc := nearScope sc
    let meta_ := (d 1).toNat
    let rb := bits meta_ 0 16
    let n := bits meta_ 16 5
    let wide := ty != .f32 && meta_.testBit 21
    mustAlign (d 0) 32
    s.mustRange (rb % 32 == 0 && 32 ≤ rb && rb ≤ 4096 && 1 ≤ n && n ≤ 16 && meta_ < 2 ^ 22)
    s.mustRange ((List.range 16).all fun k => decide (k < n) || s.ixIndex a k == 0)
    mustAlign (d 6) 32
    mustAlign (d 7) 16
    let rows : List Check := (List.range n).map fun k => ⟨d 0 + BitVec.ofNat 64 (s.ixIndex a k * rb), rb, (·.r), nearKind⟩
    let dst : Check := ⟨d 6, if wide then 2 * rb else rb, (·.w), nearKind⟩
    let ctr : List Check := if d 7 = 0 then [] else [d 7, d 7 + 8].map fun a => ⟨a, 8, fun x => x.r && x.w, homeKind⟩
    let ps ← s.checkAll (rows ++ [dst] ++ ctr)
    let stack := s.stackOf (firstPa (ps.drop n))
    if Config.ixredSlots ≤ s.ixreds stack then .error (.hold (s.park .room))
    else
      s.sendCommand sc ord none 3 (32 * stack) (some (firstPa (ps.drop n) / 256)) .nmc (.ixred
        { ty, wide, sc, rows := ps.take n, dst := ps.getD n []
          ctr := if d 7 = 0 then none else some (firstPa (ps.drop (n + 1)), firstPa (ps.drop (n + 2))), stack })

/-- Bytes of a walk's record (R374). -/
def recordSize (hops : Nat) : Nat := 32 * ceilDiv (12 + 4 * hops) 32

/-- WALK (R367, R373, R375). It enters the queue of the NMU that holds the first start vertex (log 22). -/
def execWalk (sc : Scope) (ord : Order) (f : FReg) (a : SReg) (s : State) : Out :=
  memFinish s do
    let d (i : Nat) : W64 := s.rsAt a i
    let sc := nearScope sc
    let vh := (d 2).toNat
    let v := bits vh 0 32
    let hops := bits vh 32 8
    let rnlog := bits vh 40 4
    let nw := (d 4).toNat
    s.futReady f
    mustAlign (d 0) 8
    mustAlign (d 1) 4
    s.mustRange (1 ≤ v && 1 ≤ hops && vh < 2 ^ 44)
    mustAlign (d 3) 4
    s.mustRange (1 ≤ nw && nw ≤ 65536)
    mustAlign (d 5) 32
    mustAlign (d 6) 8
    s.mustRange (d 7 == 0)
    let ps ← s.checkAll
      [⟨d 3, 4 * nw, (·.r), nearKind⟩, ⟨d 5, recordSize hops * min nw (2 ^ rnlog), (·.w), nearKind⟩, ⟨d 6, 8, fun x => x.r && x.w, homeKind⟩]
    let n := s.grp.rngc
    let kw := (hashH s.grp.rngk (32 * n)).zeroExtend 64 + 2 ^ 32 * (hashH s.grp.rngk (32 * n + 1)).zeroExtend 64
    let ch := s.channelOf (firstPa ps)
    if !s.nmuRoom ch then .error (.hold (s.park .room))
    else
      (s.drawn 1).sendCommand sc ord (some f) 3 ch (some (firstPa ps / 256)) .nmc (.walk
        { sc, rowptr := d 0, col := d 1, v, hops, rnlog, start := d 3, nw, ring := d 5, ctr := d 6, kw, ch })

/-- Collectives of a die at a sequencer (R376). -/
def State.colls (s : State) (die stack : Nat) : Nat :=
  s.ops.countP fun o => o.die == die && match o.kind with
    | .coll x => x.stack == stack
    | _ => false

/-- LIST's buffers, none where it cannot be read, and the leading sequencer: the stack of the first buffer's first line (R376). -/
def State.collLead (s : State) (list : W64) (n : Nat) : Option (List W64) × Nat × State :=
  let w := agentHere 0 s.grp.part s.grp.vf
  let (r, s) := s.readVa w true list (8 * n)
  let bufs := match r with
    | .ok bs => some ((List.range n).map fun i => BitVec.ofNat 64 (field bs (8 * i) 8))
    | .error _ => none
  let (x, s) := s.translateFor w.die w.part w.vf ((bufs.bind (·.head?)).getD 0) fun _ => true
  (bufs, match x with
    | .ok y => s.stackOf y.pa
    | .error _ => 0, s)

/-- COLL (R367, R376). There must be room at the leading sequencer before the release, and after it, when LIST is read (log 22). -/
def execColl (sc : Scope) (ord : Order) (f : FReg) (a : SReg) (s : State) : Out :=
  memFinish s do
    let g := s.grp
    let d (i : Nat) : W64 := s.rsAt a i
    let sc := nearScope sc
    let m := (d 1).toNat
    let len := bits m 0 32
    let n := bits m 32 4 + 1
    let opc := bits m 36 4
    let tc := bits m 40 5
    s.futReady f
    mustAlign (d 0) 8
    s.mustRange (m < 2 ^ 45 && 2 ≤ n && n ≤ 12 && opc ≤ 2 && (tc == 9 || tc == 10) && 256 ≤ len && len ≤ 2 ^ 31 &&
      len % (if opc = 2 then 256 * n else 256) == 0)
    mustAlign (d 2) 8
    s.mustRange (d 4 == 0 && d 5 == 0 && d 6 == 0 && d 7 == 0)
    let _ ← s.checkAll (⟨d 0, 8 * n, (·.r), nearKind⟩ :: cwCheck (d 2) nearKind)
    let full (x : Option (List W64) × Nat × State) : Bool := decide (Config.collSlots ≤ x.2.2.colls g.die x.2.1)
    let op (x : Option (List W64) × Nat × State) : OpKind :=
      .coll { sc, stack := x.2.1, bufs := x.1, len, opc, ty := if tc = 9 then .f32 else .bf16, cw := d 2, cv := d 3 }
    if full (s.collLead (d 0) n) then .error (.hold (s.park .room))
    else do
      let t ← s.releaseFor ord sc
      let x := t.collLead (d 0) n
      if full x then .error (.hold (x.2.2.park .room))
      else x.2.2.sendCommand sc .rlx (some f) 3 (32 * x.2.1) none .coll (op x)

/-- GRED (R372). -/
def execGred (g : Option Guard) (ty : Ty) (op : AtomOp) (d a : VReg) (s : State) : Out :=
  memFinish s do
    s.vcheck [(a, 2)] [(d, 2)]
    let m := s.active g
    if m = 0 then .ok (s.advance 3)
    else
      s.room .ld
      let e := tyBytes ty
      let rs := reaches m fun l =>
        let ea := (s.vlane a 2 l).extractLsb' 0 64
        { lane := l, ea, ok := ea.toNat % e == 0, parts := [(ea, e)] }
      let accs ← s.checkGlobal false rs (·.r) nearKind
      let pa (x : LaneAcc) : Nat := (x.pieces.head?.map (·.pa)).getD 0
      let chans := (distinct (accs.map fun x => s.channelOf (pa x))).mergeSort
      let shares := chans.map fun c => (c, (accs.filter fun x => s.channelOf (pa x) == c).map fun x => (x.lane, pa x))
      if chans.any fun c => !s.nmuRoom c then .error (.hold (s.park .room))
      else
        let (id, s) := s.fresh
        let key := s.grp.key
        let t := s.issueLoad 3 .ld d 2 m accs (.gred id) .rlx .pkg
        let t := t.startOp id (.gred { group := key, outst := s.nextId, port := s.grp.cluster / 10, op, ty, shares, results := [] })
        .ok (shares.foldl (fun t c => t.meter id (8 * c.2.length) c.1 .nmc) t)

/-! ### Ends -/

/-- The end of a command, unless it has been asked to stop (R215, R367, R369): its future resolves if its context still runs, its completion word is written. -/
def State.endNear (s : State) (o : EngineOp) (w : Here) (status : W32) (sc : Scope) (cw cv : W64) : State :=
  if o.cancel then s
  else
    let s := { s with ops := s.ops.filter fun x => x.id != o.id }.forget o.id
    (if o.live then s.resolve o.id status else s).completionWord w sc cw cv

/-- Packets that base-die agents inject for an operation within one step (R360): charged to the issuing die, and not sent before its counter
allows. -/
def State.agentSends (s : State) (o : EngineOp) (packets payload : Nat) (t : State) : State :=
  s.paid o.part o.die { t.charge o.part o.die packets payload with reqs := t.reqs + 1 }

/-- The base-die agent of a stack, for an operation. -/
def EngineOp.agent (o : EngineOp) (stack : Nat) : Here := agentHere stack o.part o.vf

/-! ### NMCALL's lines -/

/-- FP32 operations of the NMUs (R151, R369), which set no flag. -/
def f32Add (x y : W32) : W32 := BitVec.ofNat 32 (atomNew .fadd .f32 x.toNat y.toNat 0)
def f32Max (x y : W32) : W32 := BitVec.ofNat 32 (atomNew .fmax .f32 x.toNat y.toNat 0)
def f32Min (x y : W32) : W32 := BitVec.ofNat 32 (atomNew .fmin .f32 x.toNat y.toNat 0)

/-- An element converted exactly to FP32 (R371). -/
def toF32 (ty : Ty) (v : Nat) : W32 := BitVec.ofNat 32 (convert ty .f32 .rne 0 false v).1

/-- The FP32 words of bytes that hold elements of a type. -/
def f32Words (ty : Ty) (bs : List Byte) : List W32 :=
  let e := tyBytes ty
  (List.range (bs.length / e)).map fun j => toF32 ty (field bs (e * j) e)

/-- FP32 values as bytes of a type (R371). -/
def f32Bytes (ty : Ty) (xs : List W32) : List Byte :=
  xs.flatMap fun x => if ty = .f32 then bytesOfNat 4 x.toNat else bytesOfNat 2 (convert .f32 ty .rne 0 false x.toNat).1

/-- Two lists combined element by element. -/
def zipOp (f : W32 → W32 → W32) (xs ys : List W32) : List W32 := (xs.zip ys).map fun p => f p.1 p.2

/-- The line an entry writes, or what it makes of the line it has read (R369). -/
def NmcallOp.take (x : NmcallOp) (bs : List Byte) : NmcallOp :=
  let words := (List.range 64).map fun j => BitVec.ofNat 32 (field bs (4 * j) 4)
  match x.entry with
  | 1 => { x with acc := some (zipOp f32Add (x.acc.getD (List.replicate 64 0)) words) }
  | 2 => { x with hits := x.hits + (List.range 32).countP fun j => field bs (8 * j) 8 == x.arg.toNat, acc := some [] }
  | 3 => { x with acc := some (zipOp f32Max (x.acc.getD (List.replicate 64 0xFF800000)) words) }
  | _ => x

/-- Line `k` of an NMCALL (R364, R369). -/
def State.nmcallLine (s : State) (o : EngineOp) (x : NmcallOp) : NmcallOp × State :=
  let w := o.agent (x.ch / 32)
  let a := x.addr + BitVec.ofNat 64 x.k * x.stride
  let stop (st : W32) : NmcallOp := { x with status := some st }
  match s.translateFor w.die w.part w.vf a fun y => (if x.entry = 0 then y.w else y.r) && y.kind != .host with
  | (.error .dataError, s) => (stop (statusWord 1 true x.k), s)
  | (.error _, s) => (stop (statusWord 0x42 false x.k), s)
  | (.ok y, s) =>
    if s.channelOf y.pa ≠ x.ch then (stop (statusWord 0x43 false x.k), s)
    else if x.entry = 0 then
      ({ x with k := x.k + 1 }, s.basePut o.part y.pa (List.replicate 32 (bytesOfNat 8 x.arg.toNat)).flatten)
    else if s.baseBad y.pa 256 then (stop (statusWord 1 true x.k), s.touch [y.pa])
    else ({ (x.take (memRead s.mem y.pa 256)) with k := x.k + 1 }, s.touch [y.pa])

/-- Whether an NMCALL has ended. -/
def NmcallOp.over (x : NmcallOp) : Bool := x.status.isSome || decide (x.count ≤ x.k)

/-- NMCALLs that hold an accumulator of a channel (R363). -/
def State.accumulators (s : State) (ch : Nat) : Nat :=
  s.ops.countP fun o => match o.kind with
    | .nmcall x => x.ch == ch && x.acc.isSome && !x.over
    | _ => false

/-- Whether a step waits for an accumulator (R363). -/
def State.awaitsAcc (s : State) (ch : Nat) (x : NmuStep) : Bool :=
  match x with
  | .call i =>
    match (s.findOp i).map EngineOp.kind with
    | some (.nmcall c) => c.entry != 0 && c.acc.isNone && decide (Config.nmuAccumulators ≤ s.accumulators ch)
    | _ => false
  | _ => false

/-- The step that an NMU executes (R363): the first in its queue that does not wait for an accumulator. -/
def State.stepOf (s : State) (ch : Nat) : Option NmuStep := (s.nmu ch).queue.find? fun x => !s.awaitsAcc ch x

/-- Which step holds compute mode, and since when, brought to now (R363, R365). -/
def State.settleNmus (s : State) : State :=
  { s with nmus := s.nmus.map fun u => if u.run = s.stepOf u.ch then u else { u with run := s.stepOf u.ch, since := s.time } }

/-- Whether refresh pauses a step (R379). -/
def State.stepPaused (s : State) (ch : Nat) (x : NmuStep) : Bool :=
  match x with
  | .call i =>
    match (s.findOp i).map EngineOp.kind with
    | some (.nmcall c) => c.entry == 0 && (s.nmu ch).paused.isSome
    | _ => false
  | _ => false

/-! ### Walks -/

/-- The address of the word that a walk's token reads next, and its size (R375). -/
def WalkOp.word (x : WalkOp) (k : Walk) : W64 × Nat :=
  match k.at_ with
  | .start => (x.start + BitVec.ofNat 64 (4 * k.w), 4)
  | .low => (x.rowptr + BitVec.ofNat 64 (8 * k.v), 8)
  | .high _ => (x.rowptr + BitVec.ofNat 64 (8 * (k.v + 1)), 8)
  | .next j => (x.col + BitVec.ofNat 64 (4 * j), 4)

/-- A walk at a vertex: it ends, or goes on to its next hop (R375). -/
def WalkOp.arrive (x : WalkOp) (k : Walk) : Walk :=
  if x.hops ≤ k.hop then { k with st := some 0 } else if x.v ≤ k.v then { k with st := some 2 } else { k with at_ := .low }

/-- What a walk does with the word it has read (R375). -/
def WalkOp.took (x : WalkOp) (k : Walk) (v : Nat) : Walk :=
  match k.at_ with
  | .start => x.arrive { k with v, path := [v] }
  | .low => { k with at_ := .high v }
  | .high lo =>
    if v ≤ lo then { k with st := some 1 }
    else
      let h := (hashH x.kw (BitVec.ofNat 64 (256 * k.w + k.hop + 1))).toNat
      { k with at_ := .next (lo + h * (v - lo) / 2 ^ 32) }
  | .next _ => x.arrive { k with v, path := k.path ++ [v], hop := k.hop + 1 }

/-- The walk's record (R374). -/
def WalkOp.record (x : WalkOp) (k : Walk) : List Byte :=
  let path := (List.range (x.hops + 1)).map fun i => k.path.getD i 0xFFFFFFFF
  let bs := bytesOfNat 4 k.w ++ bytesOfNat 1 k.hop ++ bytesOfNat 1 (k.st.getD 0) ++ bytesOfNat 2 0 ++ path.flatMap (bytesOfNat 4)
  bs ++ List.replicate (recordSize x.hops - bs.length) 0

/-- The status with which a WALK resolves (R375). -/
def WalkOp.final (x : WalkOp) : W32 :=
  match x.bad with
  | some (w, 3) => statusWord 0x42 false w
  | some (w, 4) => statusWord 1 true w
  | some (w, _) => statusWord 0x40 false w
  | none => if x.partials = 0 then 0 else statusWord 0x44 false x.partials

/-- A walk that has ended: its record, its counter, each a packet of the agents at the NMU where it ends (R357), and the end of the WALK with the
last one (R364, R375). -/
def State.walkEnds (s : State) (o : EngineOp) (x : WalkOp) (k : Walk) : State :=
  let w := o.agent (k.ch / 32)
  let slot := x.ring + BitVec.ofNat 64 (recordSize x.hops * (k.w % 2 ^ x.rnlog))
  let (st, s) := match s.mapVa w 32 slot (recordSize x.hops) fun y => y.w && y.kind != .host with
    | (.ok ps, s) => (k.st.getD 0, s.writePieces w .pkg .dflt ps (x.record k))
    | (.error .dataError, s) => (4, s)
    | (.error _, s) => (3, s)
  let s := s.redBase w x.ctr 1
  let s := { s.charge o.part o.die 2 (recordSize x.hops + 8) with reqs := s.reqs + 1 }
  let x := { x with
    live := x.live.filter fun y => y.w != k.w
    partials := x.partials + if st = 1 ∨ st = 2 then 1 else 0
    bad := if 3 ≤ st then (match x.bad with
      | some (w, t) => if w < k.w then some (w, t) else some (k.w, st)
      | none => some (k.w, st)) else x.bad }
  if x.live = [] ∧ (x.nw ≤ x.next ∨ x.bad.isSome) then s.endNear o w x.final x.sc 0 0
  else s.setOp o.id fun _ => .walk x

/-- A walk's token reads its next word at its NMU (R364, R375). -/
def State.walkReads (s : State) (o : EngineOp) (x : WalkOp) (k : Walk) : State :=
  let (a, n) := x.word k
  let w := o.agent (k.ch / 32)
  let (k, s) := match s.translateFor w.die w.part w.vf a fun y => y.r && y.kind != .host with
    | (.error .dataError, s) => ({ k with st := some 4 }, s)
    | (.error _, s) => ({ k with st := some 3 }, s)
    | (.ok y, s) => let s := s.touch [y.pa]
      if s.baseBad y.pa n then ({ k with st := some 4 }, s) else (x.took k (natOfBytes (memRead s.mem y.pa n)), s)
  if k.st.isSome then s.walkEnds o x k
  else s.setOp o.id fun _ => .walk { x with live := updateFirst (fun y => y.w == k.w) (fun _ => k) x.live }

/-- The NMU that holds a walk's next word, if its address is mapped. -/
def State.walkChannel (s : State) (o : EngineOp) (x : WalkOp) (k : Walk) : Option Nat :=
  let w := o.agent (k.ch / 32)
  match (s.translateFor w.die w.part w.vf (x.word k).1 fun y => y.r && y.kind != .host).1 with
  | .ok y => some (s.channelOf y.pa)
  | .error _ => none

/-- Whether walk `w` of a WALK may start (R375): every record that its slot held before is written. -/
def WalkOp.mayStart (x : WalkOp) (w : Nat) : Bool :=
  w == x.next && decide (w < x.nw) && x.bad.isNone && x.live.all fun k => k.w + 2 ^ x.rnlog != w

/-- Payload of a walk's token (log 22). -/
def tokenBytes : Nat := 32

/-- Whether a walk's token is in a step queue or on its way. -/
def State.walkBusy (s : State) (i w : Nat) : Bool :=
  (s.nmus.any fun u => u.queue.any fun q => q == .hop i w) || s.inject.any fun p => p.id == i && p.what == .token w

/-- WALK_HOP (R357, R373, R375): walk `w` of operation `i` starts where the command is; its token is sent to the NMU that holds its next word;
or it has reached it and takes its step there, unless others are before it in the queue. -/
def execWalkHop (i w : Nat) (s : State) : Out :=
  match s.findOp i with
  | none => .next s
  | some o =>
    match o.kind with
    | .walk x =>
      if o.cancel ∨ !s.injected i then .next s
      else match x.live.find? fun k => k.w == w with
        | none =>
          if x.mayStart w then
            .next (s.setOp i fun _ => .walk { x with next := w + 1, live := x.live ++ [⟨w, x.ch, 0, 0, [], .start, none⟩] })
          else .next s
        | some k =>
          if s.walkBusy i w then .next s
          else match s.walkChannel o x k with
            | none => .next (s.paid o.part o.die (s.walkReads o x k))
            | some ch =>
              if ch ≠ k.ch then .next (s.agentPacket o k.ch tokenBytes ch (.token w))
              else if (s.nmu ch).queue.isEmpty then .next (s.paid o.part o.die (s.walkReads o x k))
              else .next (if s.nmuRoom ch then s.enqueueStep ch (.hop i w) else s)
    | _ => .next s

/-! ### GRED's shares -/

/-- One channel's share reduced in ascending lane order (R372): a value, or the lane whose data are uncorrectable. -/
def State.gredShare (s : State) (x : GredOp) (lanes : List (Nat × Nat)) : Option Nat × W32 :=
  let e := tyBytes x.ty
  match lanes.find? fun l => s.baseBad l.2 e with
  | some l => (some l.1, 0)
  | none =>
    let vals := lanes.map fun l => toF32 x.ty (natOfBytes (memRead s.mem l.2 e))
    let f := match x.op with
      | .fmin => f32Min
      | .fmax => f32Max
      | _ => f32Add
    match vals with
    | [] => (none, 0)
    | v :: r => (none, r.foldl f v)

/-- A step of a queue executed (R363). -/
def State.runStep (s : State) (ch : Nat) (q : NmuStep) : State :=
  let s := s.dropSteps ch (· == q)
  match q with
  | .call i =>
    match s.findOp i with
    | some o =>
      match o.kind with
      | .nmcall x =>
        if o.cancel then s else
        let (x, s) := s.nmcallLine o x
        let s := s.setOp i fun _ => .nmcall x
        if x.over then s else s.enqueueStep ch (.call i)
      | _ => s
    | none => s
  | .hop i w =>
    match s.findOp i with
    | some o =>
      match o.kind with
      | .walk x => match x.live.find? fun k => k.w == w with
        | some k => if o.cancel then s else s.walkReads o x k
        | none => s
      | _ => s
    | none => s
  | .share i =>
    match s.findOp i with
    | some o =>
      match o.kind with
      | .gred x =>
        let lanes := ((x.shares.find? fun c => c.1 == ch).map (·.2)).getD []
        let r := s.gredShare x lanes
        ((s.touch (lanes.map (·.2))).setOp i fun _ => .gred { x with results := x.results ++ [(ch, r)] }).agentPacket o ch 4 x.port .answer
      | _ => s
    | none => s

/-- NMU_STEP (R363): the step of channel `ch` whose turn it is, is executed, unless refresh pauses it. -/
def execNmuStep (ch : Nat) (s : State) : Out :=
  match s.stepOf ch with
  | some q =>
    let t := if s.stepPaused ch q then s else s.runStep ch q
    .next (match s.findOp q.op with
      | some o => s.paid o.part o.die t
      | none => t)
  | none => .next s

/-- NMCALL_COMPLETE (R369): an NMCALL whose lines are done, or that has stopped, writes RES on OK and ends. A result whose page no
longer takes it gives NMU_FAULT (log 22). -/
def execNmcallComplete (i : Nat) (s : State) : Out :=
  match s.findOp i with
  | none => .next s
  | some o =>
    match o.kind with
    | .nmcall x =>
      if !x.over ∨ !s.injected i ∨ o.cancel then .next s
      else
        let w := o.agent (x.ch / 32)
        let s₀ := s
        let out := if x.entry = 2 then bytesOfNat 8 x.hits else f32Bytes .f32 (x.acc.getD [])
        let (st, s) := match x.status with
          | some st => (st, s)
          | none =>
            if x.res = 0 then (0, s)
            else match s.mapVa w 32 x.res out.length fun y => y.w && y.kind != Kind.host with
              | (.ok ps, s) => (0, s.writePieces w .pkg .dflt ps out)
              | (.error .dataError, s) => (statusWord 1 true x.k, s)
              | (.error _, s) => (statusWord 0x42 false x.k, s)
        let t := s.endNear o w st x.sc x.cw x.cv
        .next (if x.res = 0 ∨ x.status.isSome then t else s₀.agentSends o 1 out.length t)
    | _ => .next s

/-! ### IXRED (R371) -/

/-- The bytes of pieces at the base die; none where some are uncorrectable. -/
def State.basePieces (s : State) (ps : List Piece) : Option (List Byte) :=
  if ps.any fun p => s.baseBad p.pa p.n then none else some (ps.flatMap fun p => memRead s.mem p.pa p.n)

/-- Bytes written at the base die over pieces, for a partition. -/
def State.basePutPieces (s : State) (part : Nat) (ps : List Piece) (bs : List Byte) : State :=
  (ps.foldl (fun (s, bs) p => (s.basePut part p.pa (bs.take p.n), bs.drop p.n)) (s, bs)).1

/-- The pooled row of an IXRED; none where a row is uncorrectable. -/
def State.pooled (s : State) (x : IxredOp) : Option (List Byte) :=
  match x.rows.mapM fun ps => (s.basePieces ps).map (f32Words x.ty) with
  | some (r :: more) => some (f32Bytes (if x.wide then .f32 else x.ty) (more.foldl (zipOp f32Add) r))
  | _ => none

/-- RED.add.z64 of 1 at a base die's address. -/
def State.baseIncr (s : State) (part pa : Nat) : State :=
  s.basePut part pa (bytesOfNat 8 ((natOfBytes (memRead s.mem pa 8) + 1) % 2 ^ 64))

/-- Whether two pooled rows have bytes in common: two IXREDs have one DST then (R371, log 22). -/
def sameDst (x y : IxredOp) : Bool := x.dst.any fun p => y.dst.any fun q => decide (p.pa < q.pa + q.n ∧ q.pa < p.pa + p.n)

/-- IXRED_COMPLETE (R371): the adders read the rows, each a request and its data (R357), and finish IXRED `i`, after those with
its destination that have arrived before it. -/
def execIxredComplete (i : Nat) (s : State) : Out :=
  match s.findOp i with
  | none => .next s
  | some o =>
    match o.kind with
    | .ixred x =>
      let before := (s.ops.takeWhile fun p => p.id != i).any fun p => match p.kind with
        | .ixred y => y.stack == x.stack && sameDst x y && s.injected p.id
        | _ => false
      if before ∨ !s.injected i then .next s
      else
        let t := { s.touch (x.rows.flatten.map (·.pa)) with ops := s.ops.filter fun p => p.id != i }
        .next (s.agentSends o (2 * x.rows.length) (x.rows.flatten.map (·.n)).sum (match s.pooled x, x.ctr with
          | some bs, none => t.basePutPieces o.part x.dst bs
          | some bs, some (c, _) => (t.basePutPieces o.part x.dst bs).baseIncr o.part c
          | none, some (_, c) => t.baseIncr o.part c
          | none, none => t))
    | _ => .next s

/-! ### GRED's end -/

/-- The current group's GRED result written (R372), or its data error recorded. -/
def State.gredWrite (s : State) (x : GredOp) (e : Outst) : State :=
  let s := s.setGrp fun g => { g with outst := g.outst.filter fun y => y.id != e.id }
  let bad := (x.results.filterMap fun r => r.2.1).mergeSort.head?
  match bad with
  | some l =>
    let ea := ((e.lanes.find? fun a => a.lane == l).map (·.ea)).getD 0
    s.setGrp fun g => g.addErr e.tags { ea, epc := e.pc, lane := l }
  | none =>
    let identity : W32 := match x.op with
      | .fmin => 0x7F800000
      | .fmax => 0xFF800000
      | _ => 0
    let res := x.shares.map fun c => (c.1, ((x.results.find? fun r => r.1 == c.1).map (·.2.2)).getD 0)
    let lanes := lanesOf e.full
    s.setGrp fun g => (List.range lanes.length).foldl
      (fun g k =>
        let l := lanes.getD k 0
        match res[k]? with
        | some (c, v) => (g.vset e.pos l v).vset (e.pos + 1) l (BitVec.ofNat 32 c)
        | none => (g.vset e.pos l identity).vset (e.pos + 1) l 0xFFFFFFFF) g

/-- GRED_SHARE_RETURN (R372): when the answers of every NMU have come to the die of GRED `i` (R356), its lanes are written. -/
def execGredShareReturn (i : Nat) (s : State) : Out :=
  match s.findOp i with
  | none => .next s
  | some o =>
    match o.kind with
    | .gred x =>
      if (s.inject.any fun p => p.id == i) ∨ x.results.length < x.shares.length then .next s
      else
        .next (({ s with ops := s.ops.filter fun p => p.id != i } : State).forGroups (fun g => g.key == x.group) fun s =>
          match s.grp.outst.find? fun e => e.kind == .gred i with
          | some e => s.gredWrite x e
          | none => s)
    | _ => .next s

/-- A GRED ended by its NMU's watchdog (R365, R372): NMU_WATCHDOG at the group's next boundary. -/
def State.gredWatchdog (s : State) (i : Nat) (x : GredOp) (ch : Nat) : State :=
  let s := { s with ops := s.ops.filter fun p => p.id != i }.forget i
  let lane := (((x.shares.find? fun c => c.1 == ch).bind (·.2.head?)).map (·.1)).getD 0
  s.forGroups (fun g => g.key == x.group) fun s =>
    match s.grp.outst.find? fun e => e.kind == .gred i with
    | some e =>
      let ea := ((e.lanes.find? fun a => a.lane == lane).map (·.ea)).getD 0
      s.setGrp fun g => { g with outst := g.outst.filter fun y => y.id != e.id }.addErr e.tags { ea, epc := e.pc, lane, code := cNmu }
    | none => s

/-- One command ended by the watchdog of a channel (R365); one that has been asked to stop ends with its acknowledgement (R215). -/
def State.watchdogOp (s : State) (ch : Nat) (q : NmuStep) : State :=
  match (s.findOp q.op).filter fun o => !o.cancel, q with
  | some o, .call i =>
    match o.kind with
    | .nmcall x => s.setOp i fun _ => .nmcall { x with status := some (statusWord 0x40 false ch), acc := none }
    | _ => s
  | some o, .hop _ w =>
    match o.kind with
    | .walk x => match x.live.find? fun k => k.w == w with
      | some k => s.walkEnds o x { k with st := some 5 }
      | none => s
    | _ => s
  | some o, .share i =>
    match o.kind with
    | .gred x => s.gredWatchdog i x ch
    | _ => s
  | none, _ => s

/-- The line under way is left with its old or its new content in each sector (R365). -/
def State.tornLine (s : State) (ch : Nat) : State :=
  match s.stepOf ch with
  | some (.call i) =>
    match s.findOp i with
    | some o =>
      match o.kind with
      | .nmcall x =>
        let t := (s.nmcallLine o x).2
        if x.entry ≠ 0 then s
        else match (s.translateFor (6 + ch / 32) o.part o.vf (x.addr + BitVec.ofNat 64 x.k * x.stride) (·.w)).1 with
          | .ok y => (List.range 8).foldl
            (fun s k => if Config.choice s.tick (0xB000 + k) % 2 = 0 then s
              else s.basePut o.part (y.pa + 32 * k) (memRead t.mem (y.pa + 32 * k) 32)) s
          | .error _ => s
      | _ => s
    | none => s
  | _ => s

/-- NMU_WATCHDOG (R365): a step has held compute mode of channel `ch` for 20 µs; every command queued there ends. -/
def execNmuWatchdog (ch : Nat) (s : State) : Out :=
  let u := s.nmu ch
  if s.stepOf ch = none ∨ s.stepOf ch ≠ u.run ∨ u.paused.isSome ∨ s.time < u.since + 20000 then .next s
  else
    let s := s.tornLine ch
    let s := s.setNmu ch fun u => { u with queue := [], since := s.time }
    .next (u.queue.foldl (fun s q => s.watchdogOp ch q) s)

/-! ### Collectives (R377, R378) -/

/-- The collective that a sequencer runs: the first that has reached it. -/
def State.running (s : State) (stack : Nat) : Option (EngineOp × CollOp) :=
  s.ops.findSome? fun o => match o.kind with
    | .coll x => if x.stack = stack ∧ s.injected o.id then some (o, x) else none
    | _ => none

/-- The check before anything is written: DETAIL of COLL_INVALID. -/
def CollOp.invalid (x : CollOp) (bufs : List W64) : Option Nat :=
  if bufs.any fun b => b.toNat % 256 != 0 then some 1
  else if (List.range bufs.length).any fun i => (List.range i).any fun j =>
      let a := (bufs.getD i 0).toNat
      let b := (bufs.getD j 0).toNat
      decide (a < b + x.len ∧ b < a + x.len) then some 2
  else none

/-- Whether buffer `i` is written at a position (R377). -/
def CollOp.writes (x : CollOp) (n i : Nat) : Bool :=
  match x.opc with
  | 0 => true
  | 1 => i != 0
  | _ => i == 256 * x.p / (x.len / n)

/-- The lines to be written at a position, or why there are none. -/
def State.collLines (s : State) (o : EngineOp) (x : CollOp) (bufs : List W64) : Except W32 (List (Nat × List Byte)) × State :=
  let w := o.agent x.stack
  let n := bufs.length
  let (r, s) := (List.range n).foldl
    (fun (r, s) i =>
      match r with
      | .error e => (.error e, s)
      | .ok ls =>
        match s.translateFor w.die w.part w.vf (bufs.getD i 0 + BitVec.ofNat 64 (256 * x.p))
            fun y => y.r && (y.w || !x.writes n i) && y.kind != .host with
        | (.error .dataError, s) => (.error (statusWord 1 true x.p), s)
        | (.error _, s) => (.error (statusWord 0x42 false x.p), s)
        | (.ok y, s) => (.ok (ls ++ [y.pa]), s))
    ((.ok [] : Except W32 (List Nat)), s)
  match r with
  | .error e => (.error e, s)
  | .ok pas =>
    let s := s.touch pas
    if pas.any fun pa => s.baseBad pa 256 then (.error (statusWord 1 true x.p), s)
    else
      let lines := pas.map fun pa => memRead s.mem pa 256
      let out := match x.opc, lines.map (f32Words x.ty) with
        | 1, _ => lines.headD []
        | _, v :: r => f32Bytes x.ty (r.foldl (zipOp f32Add) v)
        | _, [] => []
      (.ok (((List.range n).filter (x.writes n)).map fun i => (pas.getD i 0, out)), s)

/-- A collective ends, and the next of its sequencer begins. -/
def State.endColl (s : State) (o : EngineOp) (x : CollOp) (status : W32) : State :=
  (s.endNear o (o.agent x.stack) status x.sc x.cw x.cv).beginColl x.stack

/-- Whether refresh pauses a line of the position in progress (R379). -/
def State.collPaused (s : State) (lines : List (Nat × List Byte)) : Bool :=
  lines.any fun l => (s.nmu (s.channelOf l.1)).paused.isSome

/-- The lines at the position that a collective treats, when they can be had. -/
def State.linesNow (s : State) (o : EngineOp) (x : CollOp) : List (Nat × List Byte) :=
  match x.bufs with
  | some bufs => match (s.collLines o x bufs).1 with
    | .ok lines => lines
    | .error _ => []
  | none => []

/-- Whether refresh pauses a collective (R379). -/
def State.waitsRefresh (s : State) (o : EngineOp) (x : CollOp) : Bool := s.collPaused (s.linesNow o x)

/-- COLL_LINE (R377): the sequencer of a stack treats one line position of the collective it runs. -/
def execCollLine (stack : Nat) (s : State) : Out :=
  match s.running stack with
  | none => .next s
  | some (o, x) =>
    if o.cancel then .next s
    else match x.bufs with
      | none => .next (s.endColl o x (statusWord 1 true 0))
      | some bufs =>
        match x.invalid bufs with
        | some d => .next (s.endColl o x (statusWord 0x46 false d))
        | none =>
          match s.collLines o x bufs with
          | (.error st, s) => .next (s.endColl o x st)
          | (.ok lines, s) =>
            if s.collPaused lines then .next s
            else
              let n := bufs.length
              let t := lines.foldl (fun s l => s.basePut o.part l.1 l.2) s
              let t := if x.len ≤ 256 * (x.p + 1) then t.endColl o x 0
                else t.setOp o.id fun _ => .coll { x with p := x.p + 1, since := some s.time }
              .next (s.agentSends o (2 * n + lines.length) (256 * (n + lines.length)) t)

/-- SEQUENCER_WATCHDOG (R378, R379): no line position has completed for 1 ms, pauses for refresh apart; the running collective and every queued
one of its context end. -/
def execSequencerWatchdog (stack : Nat) (s : State) : Out :=
  match s.running stack with
  | none => .next s
  | some (o, x) =>
    if s.time < x.since.getD s.time + 1000000 ∨ s.waitsRefresh o x then .next s
    else
      let s : State := match x.bufs with
        | some bufs => match s.collLines o x bufs with
          | (.ok lines, s) => (List.range lines.length).foldl
            (fun (s : State) (k : Nat) => if Config.choice s.tick (0xA000 + k) % 2 = 0 then s
              else let l := lines.getD k (0, []); s.basePut o.part l.1 l.2) s
          | (.error _, s) => s
        | none => s
      let queued := s.ops.filterMap fun (q : EngineOp) => match q.kind with
        | .coll y => if y.stack = stack ∧ q.id ≠ o.id ∧ q.vf = o.vf ∧ q.part = o.part ∧ s.injected q.id then some (q, y) else none
        | _ => none
      let s := s.endColl o x (statusWord 0x45 false x.p)
      .next (queued.foldl (fun (s : State) (q : EngineOp × CollOp) => s.endColl q.1 q.2 (statusWord 0x45 false 0)) s)

/-! ### Refresh (R379) -/

/-- Whether a lock-step operation holds a channel: an NM_FILL step or a sequencer's line writes. -/
def State.lockStep (s : State) (ch : Nat) : Bool :=
  ((s.nmu ch).queue.any fun q => match (s.findOp q.op).map EngineOp.kind with
    | some (.nmcall x) => x.entry == 0
    | _ => false) ||
  (List.range 12).any fun k => match s.running k with
    | some (o, x) => (s.linesNow o x).any fun l => s.channelOf l.1 == ch
    | none => false

/-- REFRESH_PAUSE (R379): a lock-step operation on a channel pauses after the current row. -/
def execRefreshPause (ch : Nat) (s : State) : Out :=
  if s.lockStep ch ∧ (s.nmu ch).paused.isNone then .next (s.setNmu ch fun u => { u with paused := some s.time }) else .next s

/-- REFRESH_COMPLETE (R379): the operation resumes; the time for which it was paused does not count towards its watchdog. -/
def execRefreshComplete (ch : Nat) (s : State) : Out :=
  match (s.nmu ch).paused with
  | none => .next s
  | some t =>
    let credit (since : Nat) : Nat := since + (s.time - max t since)
    let ids := (List.range 12).filterMap fun k => match s.running k with
      | some (o, x) => if (s.linesNow o x).any fun l => s.channelOf l.1 == ch then some o.id else none
      | none => none
    let s := s.setNmu ch fun u => { u with paused := none, since := credit u.since }
    .next { s with ops := s.ops.map fun (o : EngineOp) => match o.kind with
      | .coll x => if o.id ∈ ids then { o with kind := .coll { x with since := x.since.map credit } } else o
      | _ => o }

end Sys2Proof.Machine
end

