-- ==== Sys2Proof/Machine/Returns.lean ====
section
/-! DEFINITION. Events of outstanding accesses: results that return, stores performed, walks, write-backs (R159, R173, R174,
R271, R281, R300, R359, R422). -/
namespace Sys2Proof.Machine

/-- The slot's acquire, once no remote load of it is outstanding (R176). -/
def State.finishAcquire (s : State) (i : SlotId) : State :=
  let j := s.sel
  let s := { s with sel := i }
  let s : State := match s.slot.park with
    | .acquire sc sw =>
      if s.acquireWaits sc then s
      else (s.setSlot fun x => { x with park := if sw then .switch else .none }).acquire sc
    | _ => s
  { s with sel := j }

/-- Both slots' acquires. -/
def State.finishAcquires (s : State) : State := (s.finishAcquire .a).finishAcquire .b

/-- LOAD_RESULT_RETURN (R174, R422): lanes of the current group's result `i` return; `rem` holds what peers answered. -/
def execLoadResultReturn (i : Nat) (lanes : LaneMask) (rem : List RemLane) (s : State) : Out :=
  match s.grp.outst[i]? with
  | none => .next s
  | some e =>
    match e.kind with
    | .sfu _ _ => .next s
    | .gred _ => .next s
    | _ => .next (s.paid s.grp.part s.grp.die (s.returnAt i lanes rem).finishAcquires)

/-- The lanes whose SFU results are written now: all, or any (R159: until then a lane reads its old value). -/
def State.sfuLanes (s : State) : LaneMask :=
  if Config.choice s.tick 0xE100 % 2 = 0 then 0xFFFFFFFF else BitVec.ofNat 32 (Config.choice s.tick 0xE101)

/-- SFU_RESULT (R159): lanes of a result are written, in the order of issue of the path; the result ends with its last lane. -/
def execSfuResult (i : Nat) (s : State) : Out :=
  match s.grp.outst[i]? with
  | none => .next s
  | some e =>
    let sfu (x : Outst) : Bool := match x.kind with
      | .sfu _ _ => true
      | _ => false
    if !sfu e ∨ (s.grp.outst.take i).any fun x => sfu x && x.tags.meets e.tags then .next s
    else .next (s.returnAt i s.sfuLanes [])

/-- Whether a queued store is performed at its scope when it has entered the queue (R176, R300). -/
def StoreOp.atGroup (o : StoreOp) : Bool :=
  match o.kind with
  | .store sc _ lanes _ => isNarrow sc && lanes.all fun l => l.pieces.all fun p => p.kind == .normal
  | _ => false

/-- The lowest peer that a remote store (entry `i`) waits for has acknowledged its lanes, or they are performed here (R422); then the next peer's
requests go. With none left the entry goes, unless a lost lane is still to be reported (R423). -/
def State.ackPeer (s : State) (i : Nat) (o : StoreOp) : State :=
  match o.kind, lowestPeer o.far with
  | .remote t _, some p =>
    let own := if p = s.pkg then o.far.filter fun l => l.peer == p else []
    let s := own.foldl (fun s l => (s.serveOwn o.here l 0 (storeKind t l)).2.2) s
    let o' := o.without fun l => l.peer == p
    { s with wq := if o'.unanswered || o'.lost.isSome then s.wq.set i o' else dropAt s.wq i }.sendStore o o'
  | _, _ => s

/-- STORE_PERFORMED (R174, R300, R422): queue entry `i` is performed; of a remote store, the lanes of its lowest peer. A NORMAL store at .grp or .gang first stops counting, and goes
on to L2 at a later event. Earlier entries of its sectors go with it (R300). -/
def execStorePerformed (i : Nat) (s : State) : Out :=
  match s.wq[i]? with
  | none => .next s
  | some o =>
    if o.counted ∧ o.atGroup then .next { s with wq := s.wq.set i { o with counted := false } }
    else if o.isRemote then .next (s.paid o.part o.die (s.ackPeer i o))
    else
      let (due, before) := dueEntries (fun x => x.ofCore o.here) (s.wq.take i) o.secs
      let rest := s.wq.drop (i + 1)
      .next (s.paid o.part o.die ((due ++ [o]).foldl State.performEntry { s with wq := before ++ rest }))

/-- A path parked on a miss tries again, knowing which walk or fill of its instruction has failed (R173, R419). -/
def Slot.retryMiss (x : Slot) (fail : Option (Nat × WalkFault)) (far : Option (Nat × Nat × Bool) := none) : Slot :=
  match x.park with
  | .miss => { x with park := .none, failed := x.failed ++ fail.toList, farFailed := x.farFailed ++ far.toList }
  | .waita w => if w.miss then { x with park := .waita { w with miss := false, due := true }, failed := x.failed ++ fail.toList } else x
  | _ => x

/-- The groups of a miss's core try again; a walk's failure concerns those of its context. -/
def State.retryCore (s : State) (m : Miss) (fail : Option WalkFault) : State :=
  let f (g : Group) : Group :=
    if g.die == m.die && g.cluster == m.cluster && g.core == m.core then
      let x := if g.part = m.part ∧ g.vf = m.vf then fail.map fun f => (m.vpage, f) else none
      { g with slotA := g.slotA.retryMiss x, slotB := g.slotB.retryMiss x }
    else g
  { s with grp := f s.grp, groups := s.groups.map f }

/-- A miss whose walk has ended leaves the table (R173); no fault is cached (R280). The mapping is entered in its core's TLB (DESIGN CHOICE,
log 59). -/
def State.endMiss (s : State) (i : Nat) (m : Miss) (va : Nat) (r : Except WalkFault (Leaf × Leaf)) : State :=
  let s := { s with misses := dropAt s.misses i }
  match r with
  | .ok (l1, l2) => (s.tlbAdd (combine m.die (some (m.cluster, m.core)) m.part m.vf va l1 l2)).retryCore m none
  | .error f => s.retryCore m (some f)

/-- Whether a miss has one of the walkers of its die, or of a base die's agent (R280, R352). -/
def State.walking (s : State) (i die : Nat) : Bool :=
  decide ((s.misses.take i).countP (fun m => m.die == die) < if die < 6 then Config.walkers else Config.agentWalkers)

/-- TRANSLATION_WALK_DONE (R173, R280, R281): a failure of stage 2 goes to the root. -/
def execTranslationWalkDone (i : Nat) (s : State) : Out :=
  match s.misses[i]? with
  | none => .next s
  | some m =>
    if m.toRoot ∨ !s.walking i m.die then .next s
    else match s.walkVa m.die m.part m.vf (m.vpage * 65536) with
      | (.mapped l1 l2, t) => .next (s.paid m.part m.die (t.endMiss i m (m.vpage * 65536) (.ok (l1, l2))))
      | (.stage1 f, t) => .next (s.paid m.part m.die (t.endMiss i m (m.vpage * 65536) (.error f)))
      | (.stage2 _, t) => .next (s.paid m.part m.die { t with misses := t.misses.set i { m with toRoot := true } })

/-- STAGE2_FAULT_TO_ROOT (R281, log 12): the root answers; the walk is made again over its tables. -/
def execStage2FaultToRoot (i : Nat) (s : State) : Out :=
  match s.misses[i]? with
  | none => .next s
  | some m =>
    if !m.toRoot then .next s
    else match s.walkVa m.die m.part m.vf (m.vpage * 65536) with
      | (.mapped l1 l2, t) => .next (s.paid m.part m.die (t.endMiss i m (m.vpage * 65536) (.ok (l1, l2))))
      | (.stage1 f, t) => .next (s.paid m.part m.die (t.endMiss i m (m.vpage * 65536) (.error f)))
      | (.stage2 f, t) => .next (s.paid m.part m.die (t.endMiss i m (m.vpage * 65536) (.error f)))

/-- L2_EVICTION (R177, R271, R359): in the set of sector `i` of L2, the line that replacement chooses leaves it. -/
def execL2Eviction (i : Nat) (s : State) : Out :=
  match s.l2[i]? with
  | none => .next s
  | some x => .next (s.evictLine x.die x.part ((s.victim x.die x.part (x.sec / 8)).getD (x.sec / 8)))

/-- WRITEBACK_ACK (R359): the base die takes write-back `i`, after the older ones of its sector. -/
def execWritebackAck (i : Nat) (s : State) : Out :=
  match s.wbuf[i]? with
  | none => .next s
  | some w =>
    let same (x : WbEntry) : Bool := x.die == w.die && x.part == w.part && x.sec == w.sec
    let s' := { s with wbuf := (s.wbuf.take i).filter (fun x => !same x) ++ s.wbuf.drop (i + 1) }
    .next (((s.wbuf.take (i + 1)).filter same).foldl State.ackEntry s')

/-- FENCE_RELEASE_DONE (R185, R308): the current path's release has nothing left to wait for; its instruction issues again. -/
def execFenceReleaseDone (s : State) : Out :=
  match s.slot.park with
  | .release sc => if s.releaseWaits sc then .next s else .next (s.park .none)
  | _ => .next s

end Sys2Proof.Machine
end

