-- ==== Sys2Proof/Machine/Remote.lean ====
section
/-! DEFINITION. Other packages: the exported windows, remote loads, stores and atomics, in-switch reduction (R414 to R425). -/
namespace Sys2Proof.Machine

/-! ### Fills (R418, R419) -/

/-- What this package answers to a fill (R418, R419). -/
def State.fillReply (s : State) (vf part pkg srcVf srcPart off : Nat) : RemReply × State :=
  if !s.exportsTo vf part pkg srcVf srcPart then (⟨false, false, false, false, .normal⟩, s)
  else match s.exportMap vf part off with
    | (.ok x, s) => (⟨true, true, x.r, x.w, x.kind⟩, s)
    | (.error _, s) => (⟨true, false, false, false, .normal⟩, s)

/-! ### The remote TLB (R419) -/

/-- The entry of the current group's die for a peer and a page, or its open fill. -/
def State.rtlbFind (s : State) (peer page : Nat) : Option RemEntry :=
  let g := s.grp
  s.rtlb.find? fun e => e.die == g.die && e.part == g.part && e.vf == g.vf && e.peer == peer && e.page == page

/-- A fill opened unless one is (R419): 4,096 entries a die, the oldest dropped. -/
def State.openFill (s : State) (peer page : Nat) : State :=
  if (s.rtlbFind peer page).isSome then s
  else
    let g := s.grp
    let own := s.rtlb.filter fun e => e.die == g.die
    let l := if own.length < 4096 then s.rtlb else s.rtlb.erase (own.headD ⟨0, 0, 0, 0, 0, none, 0⟩)
    let tgt := (s.peerOf g.vf peer).getD (0, 0)
    let s := { s with rtlb := l ++ [⟨g.die, g.part, g.vf, peer, page, none, s.time⟩] }
    if peer = s.pkg then s
    else s.sendMsg .req g.part g.vf g.die (g.cluster / 10) 0 (Config.plane peer (256 * page)) none (.remote peer ⟨s.pkg, g.vf, g.part, tgt.1, tgt.2, 65536 * page, 0, .fill⟩)

/-- The groups of a die try again; a failed fill concerns those of its context. -/
def State.retryDie (s : State) (e : RemEntry) (far : Option Bool) : State :=
  let f (g : Group) : Group :=
    if g.die == e.die then
      let x := if g.part = e.part ∧ g.vf = e.vf then far.map fun b => (e.peer, e.page, b) else none
      { g with slotA := g.slotA.retryMiss none x, slotB := g.slotB.retryMiss none x }
    else g
  { s with grp := f s.grp, groups := s.groups.map f }

/-- A fill answered (R419): a page that is mapped is entered; a failed fill is never cached, and is known to the paths that wait for it alone. -/
def State.filled (s : State) (i : Nat) (e : RemEntry) (r : RemReply) : State :=
  if r.reached && r.mapped then { s with rtlb := s.rtlb.set i { e with reply := some r } }.retryDie e none
  else { s with rtlb := dropAt s.rtlb i }.retryDie e (some r.reached)

/-- REMOTE_TLB_FILL (R419): fill `i` is answered: by the root of this package where it is the peer, else by `reply`. -/
def execRemoteTlbFill (i : Nat) (reply : RemReply) (s : State) : Out :=
  match s.rtlb[i]? with
  | none => .next s
  | some e =>
    if e.reply.isSome then .next s
    else
      let (r, s) : RemReply × State := if e.peer = s.pkg then
          (let tgt := (s.peerOf e.vf e.peer).getD (0, 0)
           s.fillReply tgt.1 tgt.2 s.pkg e.vf e.part (65536 * e.page))
        else (reply, s)
      .next (s.filled i e r)

/-- REMOTE_TLB_TIMEOUT (R419): no reply within 50 µs: the peer is unreachable. -/
def execRemoteTlbTimeout (i : Nat) (s : State) : Out :=
  match s.rtlb[i]? with
  | none => .next s
  | some e =>
    if e.reply.isSome ∨ s.time < e.since + 50000 then .next s
    else .next (s.filled i e ⟨false, false, false, false, .normal⟩)

/-- An entry goes because the root of its peer, another package, has removed the page (R419): when, that package decides (log 69). -/
def State.peerRemovals (s : State) : State :=
  let c := Config.choice s.tick 0xC900
  match s.rtlb[c / 2 % max s.rtlb.length 1]? with
  | some e => if c % 2 = 0 ∨ e.peer = s.pkg ∨ e.reply.isNone then s else { s with rtlb := s.rtlb.erase e }
  | none => s

/-! ### Remote load, store and atomic (R420 to R423) -/

/-- A lane of a remote access: the peer's lane word, its effective address. -/
structure Far where
  lane : Nat
  word : W32
  ea : W64
  deriving DecidableEq, Repr

/-- What is known of a lane's page (R419): none while no fill has been answered. -/
def State.farReply (s : State) (x : Far) : Option RemReply :=
  let peer := x.word.toNat % 512
  let page := x.ea.toNat / 65536
  match (s.rtlbFind peer page).bind (·.reply) with
  | some r => some r
  | none => (s.slot.farFailed.find? fun f => f.1 == peer && f.2.1 == page).map fun f => ⟨f.2.2, false, false, false, .normal⟩

/-- Whether a lane's word names no package, a package without an entry in PEERS, or one known to be lost (R418, R421). -/
def State.farNowhere (s : State) (x : Far) : Bool :=
  decide (512 ≤ x.word.toNat) || (s.peerOf s.grp.vf x.word.toNat).isNone || decide (x.word.toNat ∈ s.lostPkgs)

/-- The checks of R421 after alignment: the reply for each lane; the path parks while a fill is out. -/
def State.checkFar (s : State) (xs : List Far) (need : RemReply → Bool) (atomic : Bool) : Res Unit := do
  let open_ := xs.filter fun x => !s.farNowhere x && (s.farReply x).isNone
  if open_ ≠ [] then
    .error (.hold ((open_.foldl (fun s x => s.openFill (x.word.toNat % 512) (x.ea.toNat / 65536)) s).park .miss))
  else
    let stage (code : Nat) (peer : Bool) (bad : Far → Bool) : Res Unit :=
      match xs.find? bad with
      | some x => raise { code, addr := if peer then s.pc else x.ea, aux0 := if peer then x.word.zeroExtend 64 else 0, lane := some x.lane }
      | none => .ok ()
    let reply (x : Far) : RemReply := (s.farReply x).getD ⟨false, false, false, false, .normal⟩
    stage cRemotePeer true fun x => s.farNowhere x || !(reply x).reached
    stage cTranslation false fun x => decide (2 ^ 54 ≤ x.ea.toNat) || !(reply x).mapped
    stage cPermission false fun x => !need (reply x)
    stage cAtomPage false fun x => (reply x).kind == .host || (atomic && (reply x).kind != .atomicHome)

/-- The lanes of a remote access in the order of its replays (R422): by peer, then lane. -/
def farLanes (xs : List Far) : List LaneAcc :=
  ((distinct (xs.map fun x => x.word.toNat)).mergeSort.flatMap fun p => xs.filter fun x => x.word.toNat == p).map fun x =>
    { lane := x.lane, ea := x.ea, pieces := [], peer := x.word.toNat }

/-- Whether an earlier remote access of the path to one of the lines of a new one is not over: the new one waits, so that the path's
accesses to a line are performed in program order (R423, log 57). -/
def State.farBusy (s : State) (accs : List LaneAcc) : Bool :=
  let meets (l : LaneAcc) : Bool := accs.any fun x => x.peer == l.peer && x.ea.toNat / 256 == l.ea.toNat / 256
  (s.wq.any fun o => o.group == s.grp.key && s.earlier o.tags && o.far.any meets) ||
    s.grp.outst.any fun e => s.earlier e.tags && e.far.any meets

/-- A remote instruction up to its performance (R420, R421): registers, checks, then what it does with its lanes. -/
def remoteOp (s : State) (g : Option Guard) (t : Ty) (off : W32) (a b : VReg) (reads writes : List (VReg × Nat)) (c : Counter)
    (need : RemReply → Bool) (atomic : Bool) (act : List LaneAcc → State → Res State) : Out :=
  finish s do
    s.vcheck ((a, 1) :: (b, 2) :: reads) writes
    let m := s.active g
    if m = 0 then .ok (s.advance 3)
    else
      s.room c
      let xs : List Far := (lanesOf m).map fun l =>
        ⟨l, (s.vlane a 1 l).extractLsb' 0 32, (s.vlane b 2 l).extractLsb' 0 64 + off.signExtend 64⟩
      match xs.find? fun x => x.ea.toNat % tyBytes t != 0 with
      | some x => raise { code := cMisaligned, addr := x.ea, lane := some x.lane }
      | none => .ok ()
      s.checkFar xs need atomic
      if s.farBusy (farLanes xs) then .error (.hold (s.park .room)) else act (farLanes xs) s

/-- REMLD (R420 to R423). -/
def execRemld (g : Option Guard) (ty : Ty) (_sc : Scope) (ord : Order) (off : W32) (d a b : VReg) (s : State) : Out :=
  remoteOp s g ty off a b [] [(d, tyRegs ty)] .ld (·.r) false fun accs t =>
    let t := t.sendPeer t.grp.here (tyBytes ty) accs fun _ => .load
    .ok (t.issueLoad 3 .ld d (tyRegs ty) (s.active g) accs (.remote ty (acquires ord) none) ord .sys)

/-- REMST (R420 to R423). -/
def execRemst (g : Option Guard) (ty : Ty) (_sc : Scope) (ord : Order) (off : W32) (d a b : VReg) (s : State) : Out :=
  remoteOp s g ty off a b [(d, tyRegs ty)] [] .st (·.w) false fun accs t => do
    let t ← t.releaseFor ord .sys
    let accs := t.withData d (tyRegs ty) accs
    let t := t.sendPeer t.grp.here (tyBytes ty) accs (storeKind ty)
    .ok ((t.enqueueStore (t.storeOp .st (.remote ty accs))).advance 3)

/-- REMATOM (R420 to R423). -/
def execRematom (g : Option Guard) (ty : Ty) (_sc : Scope) (ord : Order) (op : AtomOp) (off : W32) (d a b c : VReg) (s : State) :
    Out :=
  remoteOp s g ty off a b (atomReads op none d c (tyRegs ty)) [(d, tyRegs ty)] .ld (fun r => r.r && r.w) true fun accs t => do
    let t ← t.releaseFor ord .sys
    let accs := t.withOperands d c (tyRegs ty) accs
    let t := t.sendPeer t.grp.here (tyBytes ty) accs fun l => .atomic op ty l.data l.cmp
    .ok (t.issueLoad 3 .ld d (tyRegs ty) (s.active g) accs (.remote ty (acquires ord) (some op)) ord .sys)

/-- Payload of the answer to a request (R357). -/
def replyBytes (req : RemReq) : Nat :=
  match req.kind with
  | .load => req.n
  | .atomic _ ty _ _ => tyBytes ty
  | _ => 0

/-- REMOTE_ACCESS_ARRIVAL (R414, R418, R419, R423): an access of another package, performed at this one's base dies, which answer. -/
def execRemoteAccessArrival (req : RemReq) (s : State) : Out :=
  let answer (s : State) (stack : Nat) (m : NetMsg) : Out := .next (s.answerFrom stack req.part req.vf (replyBytes req) (req.off / 256) m)
  match req.kind with
  | .fill =>
    let (r, s) := s.fillReply req.vf req.part req.srcPkg req.srcVf req.srcPart req.off
    answer s 0 (.fillReply req.srcPkg r)
  | _ =>
    let (v, bad, stack, s) := s.serve req
    answer s stack (.remoteReply req.srcPkg req.n v bad)

/-! ### In-switch reduction (R424, R425) -/

/-- The value that a lane contributes when it is not active: that of an empty set (R163), +0 under .fadd. -/
def rredEmpty (op : AtomOp) (ty : Ty) : Nat :=
  match op with
  | .min | .fmin => (extremeOf ty false false []).1
  | .max | .fmax => (extremeOf ty true false []).1
  | _ => 0

/-- RREDs of a die (R425). -/
def State.rredCount (s : State) (die : Nat) : Nat :=
  s.ops.countP fun o => o.die == die && match o.kind with
    | .rred _ _ _ _ _ => true
    | _ => false

/-- RRED (R424, R425, R417). -/
def execRred (g : Option Guard) (ty : Ty) (op : AtomOp) (f : FReg) (a : VReg) (b : SReg) (s : State) : Out :=
  memFinish s do
    let d (i : Nat) : W64 := s.rsAt b i
    let n := tyRegs ty
    let gn := (d 0).toNat
    let kc := (d 1).toNat
    let group := bits gn 0 32
    let num := bits gn 32 16
    let idx := bits kc 32 12
    s.vcheck [(a, n)] []
    s.futReady f
    mustAlign (d 2) (128 * n)
    s.mustRange (gn < 2 ^ 48 && group != 0 && 2 ≤ num && num ≤ 4096 && kc < 2 ^ 44 && idx < num && 1000 ≤ (d 3).toNat &&
      (d 3).toNat ≤ 1000000000)
    match s.policyOf s.grp.vf with
    | some p => must (group ∈ p.xgroups) { code := cExchange, addr := s.pc }
    | none => raise { code := cExchange, addr := s.pc }
    let _ ← s.checkAll [⟨d 2, 128 * n, (·.w), anyKind⟩]
    if Config.rredSlots ≤ s.rredCount s.grp.die then .error (.hold (s.park .room))
    else
      let (id, t) := s.fresh
      let t := t.issueFut f id
      if !s.synced then .ok ((t.resolve id (statusWord 0x80 false 3)).advance 3)
      else
        let m := s.active g
        let vals := (List.range 32).map fun l =>
          if m.getLsbD l then (s.vlane a n l).extractLsb' 0 64 else BitVec.ofNat 64 (rredEmpty op ty)
        let msg : RredMsg := ⟨group, bits kc 0 32, num, idx, op, ty, (d 3).toNat, vals, s.pkg, id⟩
        .ok (((t.startOp id (.rred group (bits kc 0 32) idx (d 2) ty)).sendMsg .req s.grp.part s.grp.vf s.grp.die (s.grp.cluster / 10)
          (32 * tyBytes ty) (bits kc 0 32) none (NetMsg.rred msg)).advance 3)

/-- Contributions combined in ascending index (R425). -/
def rredResult (ms : List RredMsg) (op : AtomOp) (ty : Ty) : List W64 :=
  match (ms.mergeSort fun x y => decide (x.idx ≤ y.idx)).map (·.vals) with
  | [] => []
  | v :: r => r.foldl (fun acc x => (acc.zip x).map fun p => BitVec.ofNat 64 (atomNew op ty p.1.toNat p.2.toNat 0)) v

/-- What the switch sends one contributor: written and resolved here for a contributor of this package (R425). -/
def State.rredSend (s : State) (m : RredMsg) (status : W32) (vals : List W64) : State :=
  if m.pkg ≠ s.pkg then { s with net := s.net ++ [.rredResult m.pkg m.opId status vals] }
  else match s.findOp m.opId with
    | none => s
    | some o =>
      match o.kind with
      | .rred _ _ _ dst ty =>
        let out := vals.flatMap fun v => bytesOfNat (tyBytes ty) v.toNat
        let s := if o.live && !vals.isEmpty then (s.writeVa o.here .pkg dst out).2 else s
        let s := { s with ops := s.ops.filter fun p => p.id != o.id }
        if o.live then s.resolve o.id status else s
      | _ => s

/-- An instance ends with an abort (R425). -/
def State.rredAbort (s : State) (x : RredInst) (detail : Nat) : State :=
  let s := { s with rreds := s.rreds.filter fun y => !(y.group == x.group && y.tag == x.tag) }
  x.msgs.foldl (fun s m => s.rredSend m (statusWord 0x80 false detail) []) s

/-- RRED_CONTRIBUTION (R417, R425): a contribution reaches the switch of plane K mod P. One of this package must have been sent. -/
def execRredContribution (msg : RredMsg) (s : State) : Out :=
  if msg.pkg = s.pkg ∧ NetMsg.rred msg ∉ s.net then .next s
  else
    let s := { s with net := if msg.pkg = s.pkg then s.net.erase (.rred msg) else s.net }
    if !s.synced then .next s
    else
      let mine (y : RredInst) : Bool := y.group == msg.group && y.tag == msg.tag
      let x : RredInst := (s.rreds.find? mine).getD ⟨msg.group, msg.tag, s.time, []⟩
      let agrees := x.msgs.all fun m =>
        m.n == msg.n && m.op == msg.op && m.ty == msg.ty && m.timeout == msg.timeout && m.idx != msg.idx
      let y := { x with msgs := x.msgs ++ [msg] }
      let s := { s with rreds := s.rreds.filter (fun z => !mine z) ++ [y] }
      if !agrees then .next (s.rredAbort y 2)
      else if y.msgs.length < msg.n then .next s
      else
        let s := { s with rreds := s.rreds.filter fun z => !mine z }
        let vals := rredResult y.msgs msg.op msg.ty
        .next (y.msgs.foldl (fun s m => s.rredSend m 0 vals) s)

/-- RRED_TIMEOUT (R425): TIMEOUT since the first arrival of instance `i`. -/
def execRredTimeout (i : Nat) (s : State) : Out :=
  match s.rreds[i]? with
  | none => .next s
  | some x =>
    if s.time < x.first + ((x.msgs.head?).map (·.timeout)).getD 0 then .next s else .next (s.rredAbort x 0)

/-! ### The loss of a package -/

/-- Lanes of a result that a lost package will not answer: data errors (R422). -/
def State.loseLanes (s : State) (pkg : Nat) : State :=
  (List.range s.grp.outst.length).reverse.foldl
    (fun s i =>
      match s.grp.outst[i]? with
      | none => s
      | some e =>
        match e.kind with
        | .remote _ _ _ =>
          let rem := (e.lanes.filter fun l => l.peer == pkg).map fun l => (⟨l.lane, 0, true⟩ : RemLane)
          if rem = [] then s else s.returnAt i (rem.foldl (fun m r => m ||| laneBit r.lane) 0) rem
        | _ => s) s

/-- A remote store's lanes to a lost package are lost (R422, R423). -/
def StoreOp.lose (o : StoreOp) (pkg : Nat) : StoreOp :=
  if o.far.any fun l => l.peer == pkg then { o.without (fun l => l.peer == pkg) with lost := some (o.lost.getD pkg) } else o

/-- The remote stores to a lost package lose its lanes, and those of the next peer go. -/
def State.loseStores (s : State) (pkg : Nat) : State :=
  s.wq.foldl (fun s o => { s with wq := s.wq ++ [o.lose pkg] }.sendStore o (o.lose pkg)) { s with wq := [] }

/-- PACKAGE_LOST (R422, R425, R436): its lanes fail, its stores are lost, and reductions that wait for it abort. Which instances
count it among their contributors the switch knows and the spec does not say (log 23). -/
def execPackageLost (pkg : Nat) (s : State) : Out :=
  if pkg = s.pkg ∨ pkg ∈ s.lostPkgs then .next s
  else
    let s := { s with lostPkgs := pkg :: s.lostPkgs }.loseStores pkg
    let s := s.forGroups (fun _ => true) fun s => s.loseLanes pkg
    let due := (List.range s.rreds.length).filterMap fun i => (s.rreds[i]?).bind fun x =>
      if (x.msgs.any fun m => m.pkg == pkg) || Config.choice s.tick (0xC000 + i) % 2 == 0 then none else some x
    .next ((due.foldl (fun (s : State) (x : RredInst) => s.rredAbort x 1) s).forGroups (fun _ => true) State.finishAcquires)

end Sys2Proof.Machine
end

