-- ==== Sys2Proof/Machine/Weaver.lean ====
section
/-! DEFINITION. The Weaver: calendars of an exchange round, and the rounds it keeps (R426 to R431). -/
namespace Sys2Proof.Machine

/-! ### Weaving (R428, R429) -/

/-- A matrix of units by row, its entries and sums. -/
abbrev Units := List (List Nat)
def Units.entry (a : Units) (i j : Nat) : Nat := (a.getD i []).getD j 0
def Units.row (a : Units) (i : Nat) : Nat := (a.getD i []).sum
def Units.col (a : Units) (j : Nat) : Nat := (a.map fun r => r.getD j 0).sum
def Units.put (a : Units) (i j v : Nat) : Units := a.set i ((a.getD i []).set j v)

/-- L: the greatest line sum. -/
def Units.load (a : Units) (n : Nat) : Nat := (List.range n).foldl (fun m k => max m (max (a.row k) (a.col k))) 0

/-- The padding, northwest first. -/
def Units.pad (a : Units) (n : Nat) : Units :=
  let l := a.load n
  (List.range (n * n)).foldl
    (fun a k => let i := k / n; let j := k % n; a.put i j (a.entry i j + min (l - a.row i) (l - a.col j))) a

/-- The lexicographically least perfect matching of the positive entries, the columns in use left out. -/
def leastMatching (n : Nat) : Units → List Nat → Option (List Nat)
  | [], _ => some []
  | r :: rest, used =>
    ((List.range n).filter fun j => decide (0 < r.getD j 0) && decide (j ∉ used)).findSome? fun j =>
      (leastMatching n rest (j :: used)).map fun m => j :: m

/-- The phases: matchings with their units. P is at most N² − 2N + 2. -/
def phasesOf (n : Nat) : Nat → Units → List (List Nat × Nat)
  | 0, _ => []
  | f + 1, a =>
    if a.all fun r => r.all (· == 0) then []
    else match leastMatching n a [] with
      | none => []
      | some m =>
        let w := ((List.range n).map fun i => a.entry i (m.getD i 0)).foldl min (a.load n)
        (m, w) :: phasesOf n f ((List.range n).foldl (fun a i => a.put i (m.getD i 0) (a.entry i (m.getD i 0) - w)) a)

/-- weave(U, N) (R428). -/
def weave (n : Nat) (u : Units) : List (List Nat × Nat) := phasesOf n (n * n + 2) (u.pad n)

/-- The starts of the phases (R429). -/
def phaseStarts (t0 tau : Nat) (ps : List (List Nat × Nat)) : List Nat :=
  (List.range ps.length).map fun t => t0 + tau * ((ps.take t).map (·.2)).sum + 256 * t

/-- The calendar of participant `i` (R429). -/
def calendarOf (n i t0 tau : Nat) (u : Units) (ps : List (List Nat × Nat)) : List CalEntry :=
  let starts := phaseStarts t0 tau ps
  ((List.range ps.length).foldl
    (fun (acc : List CalEntry × List Nat) t =>
      match ps[t]? with
      | none => acc
      | some (m, w) =>
        let j := m.getD i 0
        let given := acc.2.getD j 0
        let r := min w (u.entry i j - given)
        if r = 0 then acc else (acc.1 ++ [⟨starts.getD t 0, r, j⟩], acc.2.set j (given + r)))
    (([] : List CalEntry), List.replicate n 0)).1

/-! ### A Weaver's rounds (R430, R431) -/

/-- The membership table's row for a context: package, partition, VF. -/
def rowWho (m : RowMsg) : Nat × Nat × Nat := (m.pkg, m.part, m.vf)

/-- A message to the participant that sent a row. -/
def rowTell (m : RowMsg) (b : CalBody) : CalMsg := ⟨m.pkg, m.group, m.round, m.vf, m.part, m.n, m.idx, true, b⟩

/-- Whether the rows of a round agree (R428). -/
def Round.agrees (r : Round) : Bool :=
  let n := ((r.rows.head?).map (·.n)).getD 0
  let d := ((r.rows.head?).map (·.digest)).getD []
  (r.rows.all fun m => m.n == n && m.digest == d && decide (m.idx < n)) && (distinct (r.rows.map (·.idx))).length == n

/-- The calendars of a round whose rows agree (R428, R429). -/
def Round.weaveAll (r : Round) : List CalMsg :=
  let rows := r.rows.mergeSort fun x y => decide (x.idx ≤ y.idx)
  let n := rows.length
  let u : Units := rows.map (·.u)
  let ps := weave n u
  let t0 := 1024 * ceilDiv ((rows.map (·.notBefore)).foldl max 0) 1024
  let tau := (rows.map (·.tau)).foldl max 0
  rows.map fun m => rowTell m (.calendar t0 tau ps.length (u.load n) (calendarOf n m.idx t0 tau u ps) (t0 + tau * u.load n + 256 * ps.length))

/-- A Weaver of this package is reachable: the primary in the root instance of stack 0, the standby in that of stack 6 (R426). -/
def State.weaverAlive (s : State) (standby : Bool) : Bool :=
  if standby then (s.pfs[1]).alive else (s.pfs[0]).alive

/-- The stack of the root instance in which a Weaver runs (R426). -/
def weaverStack (standby : Bool) : Nat := if standby then 6 else 0

/-- What is known here of the primary Weaver of a package (R431). -/
def State.weaverOf (s : State) (pkg : Nat) : Duty := ((s.weavers.find? fun w => w.1 == pkg).map (·.2)).getD {}

/-- That knowledge changed. -/
def State.setWeaver (s : State) (pkg : Nat) (d : Duty) : State :=
  { s with weavers := (pkg, d) :: s.weavers.filter fun w => w.1 != pkg }

/-- The packages of a round's primary and standby Weavers. -/
def Round.prim (r : Round) : Nat := ((r.rows.head?).map (·.prim)).getD 0
def Round.stby (r : Round) : Nat := ((r.rows.head?).map (·.stby)).getD 0

/-- A round holds all its rows (R428, R430). -/
def State.decompose (s : State) (r : Round) : Round × State :=
  let tell (ms : List CalMsg) : State := s.sendFrom (weaverStack r.standby) (ms.map .calendar)
  if !r.agrees then ({ r with state := .done }, tell (r.rows.map fun m => rowTell m .mismatch))
  else
    let cals := r.weaveAll
    if r.standby && (s.weaverOf r.prim).primary then ({ r with state := .held, cals }, s)
    else ({ r with state := .issuing, cals }, tell cals)

/-- A row taken by a Weaver of this package (R430). One that holds the row already, or has moved on, only acknowledges it. -/
def State.takeRow (s : State) (standby : Bool) (m : RowMsg) : State :=
  let mine (r : Round) : Bool := r.group == m.group && r.round == m.round && r.standby == standby && r.state != .done
  let r : Round := (s.rounds.find? mine).getD ⟨m.group, m.round, standby, .collecting, s.time, [], [], []⟩
  if r.state ≠ .collecting ∨ r.rows.any fun x => rowWho x == rowWho m then s
  else
    let r := { r with rows := r.rows ++ [m] }
    let (r, s) := if r.rows.length < ((r.rows.head?).map (·.n)).getD 0 then (r, s) else s.decompose r
    { s with rounds := s.rounds.filter (fun x => !(x.group == m.group && x.round == m.round && x.standby == standby)) ++ [r] }

/-- The DPOST whose row has been acknowledged: it resolves once both Weavers have (R427). -/
def State.rowAcked (s : State) (standby : Bool) (m : RowMsg) : State :=
  let mine (o : EngineOp) : Bool := o.vf == m.vf && o.part == m.part && match o.kind with
    | .dpost g r _ _ _ => g == m.group && r == m.round
    | _ => false
  match s.ops.find? mine with
  | none => s
  | some o =>
    match o.kind with
    | .dpost g r p b t =>
      let p := p || !standby
      let b := b || standby
      if p && b then s.endOp o 0 .pkg 0 0 else s.setOp o.id fun _ => .dpost g r p b t
    | _ => s

/-- WEAVER_ROW_ARRIVAL (R417, R427, R428, R430, R431): a row reaches a Weaver, and its acknowledgement the package that sent it; after a
takeover it reaches only the standby. A row of this package must have been sent. -/
def execWeaverRowArrival (standby : Bool) (msg : RowMsg) (s : State) : Out :=
  let own := msg.pkg = s.pkg
  let here := (if standby then msg.stby else msg.prim) = s.pkg
  if own ∧ NetMsg.row standby msg ∉ s.net then .next s
  else
    let s := if own then { s with net := s.net.erase (NetMsg.row standby msg) } else s
    if here ∧ (!s.synced ∨ !s.weaverAlive standby ∨ (!standby ∧ !(s.weaverOf s.pkg).primary)) then .next s
    else
      let s := if here then s.takeRow standby msg else s
      if own then .next (s.rowAcked standby msg)
      else if here then .next (s.answerFrom (weaverStack standby) 31 0 0 0 (.rowAck msg.pkg msg.group msg.round standby))
      else .next s

/-- WEAVER_COLLECT_TIMEOUT (R430): 10 ms since the first row of round `i`. -/
def execWeaverCollectTimeout (i : Nat) (s : State) : Out :=
  match s.rounds[i]? with
  | none => .next s
  | some r =>
    if r.state ≠ .collecting ∨ s.time < r.first + 10000000 ∨ !s.weaverAlive r.standby then .next s
    else .next ({ s with rounds := s.rounds.set i { r with state := .done } }.sendFrom (weaverStack r.standby)
      (r.rows.map fun m => NetMsg.calendar (rowTell m .abort)))

/-- WEAVER_TAKEOVER (R431): the standby has missed three heartbeats of a primary: it issues every calendar it holds of its rounds (log 24). -/
def execWeaverTakeover (s : State) : Out :=
  let lost (w : Nat × Duty) : Bool := w.2.primary && decide (3 ≤ w.2.missed)
  if !s.weavers.any lost ∨ !s.weaverAlive true then .next s
  else
    let held (r : Round) : Bool := r.standby && r.state == .held && s.weavers.any fun w => lost w && w.1 == r.prim
    .next ({ s with
      weavers := s.weavers.map fun w => if lost w then (w.1, { w.2 with primary := false }) else w
      rounds := s.rounds.map fun r => if held r then { r with state := .issuing } else r }.sendFrom 6
        ((s.rounds.filter held).flatMap fun (r : Round) => r.cals.map NetMsg.calendar))

/-- HEARTBEAT (R336, R345, R390, R431): an agent's standby has missed `missed` heartbeats in a row; with none missed, a Weaver's
lists the rounds of its package that are done. -/
def execHeartbeat (agent : Agent) (missed : Nat) (rounds : List (Nat × Nat)) (s : State) : Out :=
  match agent with
  | .syncEngine => .next { s with syncEngine := { s.syncEngine with missed } }
  | .regulator => .next { s with regulator := { s.regulator with missed } }
  | .root i => .next { s with roots := if i < 2 then { primary := i == 0, missed } else s.roots }
  | .weaver pkg =>
    let done (r : Round) : Bool := r.standby && r.state == .held && r.prim == pkg && (decide ((r.group, r.round) ∈ rounds) ||
      s.rounds.any fun p => !p.standby && p.group == r.group && p.round == r.round && p.state == .done)
    .next ({ s with rounds := if missed = 0 then s.rounds.map fun r => if done r then { r with state := .done } else r else s.rounds }.setWeaver
      pkg { s.weaverOf pkg with missed })

end Sys2Proof.Machine
end

