-- ==== Sys2Proof/Machine/Exchange.lean ====
section
/-! DEFINITION. Demand-scheduled exchange at a participant (R426 to R436, R443). -/
namespace Sys2Proof.Machine

/-! ### Rounds of a context (R427) -/

/-- The open round of a context. -/
def State.postedOf (s : State) (vf part group round : Nat) : Option Posted :=
  s.posted.find? fun p => p.vf == vf && p.part == part && p.group == group && p.round == round

/-- An open round changed. -/
def State.setPosted (s : State) (vf part group round : Nat) (f : Posted → Posted) : State :=
  { s with posted := updateFirst (fun p => p.vf == vf && p.part == part && p.group == group && p.round == round) f s.posted }

/-- A round is closed for its context; that it was is kept, for what still arrives (R434). -/
def State.closeRound (s : State) (vf part group round : Nat) : State :=
  { s with
    posted := s.posted.filter fun p => !(p.vf == vf && p.part == part && p.group == group && p.round == round) }.setCtx vf part
      fun c => { c with posted := (group, round) :: c.posted }

/-- EXCHANGE_VIOLATION (R427, R432). -/
def State.violation (s : State) : Cause := { code := cExchange, addr := s.pc }

/-- A table read as loads by the current group (R172, R427, R433). Uncorrectable data name lane 0, as of an access that is of no lane (R194). -/
def State.loadTable (s : State) (a : W64) (n : Nat) : Res (List Byte × State) :=
  match s.grpRead a n with
  | (.ok bs, s) => .ok (bs, s)
  | (.error f, _) =>
    raise { code := f.code, addr := a, aux0 := if f = .dataError then s.pc else 0, lane := if f = .dataError then some 0 else none }

/-- The packages of the primary and the standby Weaver (R426). -/
def weaversOf (members : List (Nat × Nat × Nat)) : Nat × Nat :=
  let p := ((members.head?).map (·.1)).getD 0
  (p, ((members.find? fun m => m.1 != p).map (·.1)).getD p)

/-- DPOST (R417, R427). -/
def execDpost (round : W32) (f : FReg) (a : SReg) (s : State) : Out :=
  memFinish s do
    let d (i : Nat) : W64 := s.rsAt a i
    let g := s.grp
    let gn := (d 1).toNat
    let group := bits gn 0 32
    let n := bits gn 32 13
    s.futReady f
    mustAlign (d 0) 8
    mustAlign (d 2) 8
    s.mustRange (gn < 2 ^ 45 && 2 ≤ n && n ≤ 4096 && 20 ≤ (d 3).toNat && (d 3).toNat ≤ 65535 && d 5 == 0 && d 6 == 0 && d 7 == 0)
    let _ ← s.checkAll [⟨d 0, 8 * n, (·.r), anyKind⟩, ⟨d 2, 8 * n, (·.r), anyKind⟩]
    let (mt, t) ← s.loadTable (d 0) (8 * n)
    let (row, t) ← t.loadTable (d 2) (8 * n)
    let counts := (List.range n).map fun j => field row (8 * j) 8
    s.mustRange (counts.all fun c => decide (c < 2 ^ 44))
    let words := (List.range n).map fun j => field mt (8 * j) 8
    let members := words.map fun w => (bits w 0 9, bits w 9 5, bits w 14 10)
    let me := (s.pkg, g.part, g.vf)
    must (((s.policyOf g.vf).map fun p => decide (group ∈ p.xgroups && group ≠ 0)).getD false && words.all (fun w => decide (w < 2 ^ 24)) &&
      (distinct members).length == n && decide (me ∈ members) && (s.postedOf g.vf g.part group round.toNat).isNone &&
      decide ((s.posted.countP fun p => p.vf == g.vf && p.part == g.part) < Config.openRounds)) s.violation
    let (id, t) := t.fresh
    if !s.synced then .ok (((t.issueFut f id).resolve id (statusWord 0x88 false 0)).advance 3)
    else do
      let t ← t.release .pkg
      let idx := (members.findIdx fun m => m == me)
      let u := (List.range n).map fun j => if j = idx then 0 else ceilDiv (counts.getD j 0) 4096
      let (prim, stby) := weaversOf members
      let m : RowMsg := ⟨s.pkg, g.part, g.vf, prim, stby, group, round.toNat, n, idx, Config.sm3 mt, (d 3).toNat, (d 4).toNat, u⟩
      let t := (t.issueFut f id).startOp id (.dpost group round.toNat false false s.time)
      let t := t.setCtx g.vf g.part fun (c : Ctx) => { c with posted := c.posted.filter (· != (group, round.toNat)) }
      let p : Posted := ⟨g.vf, g.part, group, round.toNat, idx, members, none, 0, false, s.time, s.time⟩
      let row (s : State) (standby : Bool) : State := s.sendMsg .mgmt g.part g.vf g.die (g.cluster / 10) 0 (Config.plane prim 0) none (.row standby m)
      .ok ((row (row { t with posted := t.posted ++ [p] } false) true).advance 3)

/-- DPOST_ACKNOWLEDGE_TIMEOUT (R427): 100 µs after DPOST `i`. -/
def execDpostAcknowledgeTimeout (i : Nat) (s : State) : Out :=
  match s.findOp i with
  | none => .next s
  | some o =>
    match o.kind with
    | .dpost _ _ p b t =>
      if s.time < t + 100000 then .next s
      else .next (s.endOp o (if p then statusWord 0 false 2 else if b then statusWord 0 false 1 else statusWord 0x86 false 0) .pkg 0 0)
    | _ => .next s

/-! ### XCAL (R432) -/

/-- The bytes of a calendar (R432). -/
def calendarBytes (p : Posted) (t0 tau phases total : Nat) (entries : List CalEntry) : List Byte :=
  bytesOfNat 4 p.group ++ bytesOfNat 4 p.round ++ bytesOfNat 4 p.members.length ++ bytesOfNat 4 p.idx ++ bytesOfNat 8 t0 ++
    bytesOfNat 4 tau ++ bytesOfNat 4 phases ++ bytesOfNat 8 total ++ bytesOfNat 4 entries.length ++ List.replicate 20 0 ++
    entries.flatMap fun e => bytesOfNat 8 e.start ++ bytesOfNat 4 e.units ++ bytesOfNat 4 (e.dest % 2 ^ 13)

/-- Bytes written in ascending sectors through a context's translation, until one cannot be. -/
def State.writeSectors (s : State) (w : Here) (sc : Scope) (a : W64) (bs : List Byte) : Bool × State :=
  (chunks 32 a.toNat bs.length).foldl
    (fun (ok, s) (o, n) =>
      if !ok then (false, s)
      else match s.writeVa w sc (a + BitVec.ofNat 64 o) (slice bs o n) with
        | (.ok _, s) => (true, s)
        | (.error _, s) => (false, s)) (true, s)

/-- An XCAL whose calendar, or a notice in its place, has been accepted. -/
def State.endXcal (s : State) (o : EngineOp) (p : Posted) (cal : W64) (cap : Nat) : State :=
  let done (s : State) (st : W32) : State := s.endOp o st .pkg 0 0
  match p.cal with
  | none => s
  | some .mismatch => done s (statusWord 0x87 false 0)
  | some .abort => done s (statusWord 0x83 false 0xFFFF)
  | some (.calendar t0 tau phases total entries _) =>
    let e := entries.length
    if o.cancel then s
    else if cap < 64 + 16 * e then done s (statusWord 0x85 false e)
    else if !o.live then done s 0
    else match s.writeSectors o.here .pkg cal (calendarBytes p t0 tau phases total entries) with
      | (true, s) => done s (statusWord 0 false e)
      | (false, s) => done s (statusWord 0x84 false p.idx)

/-- Every XCAL of an accepted round of a context ends. -/
def State.settleXcals (s : State) (p : Posted) : State :=
  s.ops.foldl
    (fun s o => match o.kind with
      | .xcal g r cal cap => if o.vf = p.vf ∧ o.part = p.part ∧ g = p.group ∧ r = p.round then s.endXcal o p cal cap else s
      | _ => s) s

/-- XCAL (R432). -/
def execXcal (f : FReg) (a : SReg) (s : State) : Out :=
  memFinish s do
    let d (i : Nat) : W64 := s.rsAt a i
    let g := s.grp
    let group := bits (d 0).toNat 0 32
    let round := bits (d 0).toNat 32 32
    s.futReady f
    mustAlign (d 1) 8
    s.mustRange (d 3 == 0 && d 4 == 0 && d 5 == 0 && d 6 == 0 && d 7 == 0)
    match s.postedOf g.vf g.part group round with
    | none => raise s.violation
    | some p =>
      let _ ← s.checkAll (if d 2 = 0 then [] else [⟨d 1, (d 2).toNat, (·.w), anyKind⟩])
      let (id, t) := s.fresh
      let t := ((t.issueFut f id).startOp id (.xcal group round (d 1) (d 2).toNat)).advance 1
      .ok (if p.cal.isSome then t.settleXcals p else t)

/-! ### XRUN: sending (R433, R434) -/

/-- What the calendar of a round gives to a run: entries, slope and overflow start; none for a notice. -/
def Posted.plan (p : Posted) : Option (List CalEntry × Nat × Nat) :=
  match p.cal with
  | some (.calendar _ tau _ _ entries overflow) => some (entries, tau, overflow)
  | _ => none

/-- The round that an XRUN runs. -/
def State.roundOf (s : State) (o : EngineOp) (x : XrunOp) : Option Posted := s.postedOf o.vf o.part x.group x.round

/-- U0: the first usable instant (R434). -/
def firstUsable (p : Posted) (x : XrunOp) : Nat := max p.accepted x.issued

/-- A packet from this participant to another. -/
def Posted.packet (p : Posted) (dst : Nat) (b : XchBody) : NetMsg :=
  let m := p.members.getD dst (0, 0, 0)
  .xch m.1 ⟨p.group, p.round, p.idx, dst, p.members.getD p.idx (0, 0, 0), m.2.2, m.2.1, b⟩

/-- The bytes [off, off + n) of a send buffer, as far as they can be read: a fault or uncorrectable data end them. -/
def State.readBuffer (s : State) (o : EngineOp) (va : W64) (off n : Nat) : List Byte × Option WalkFault × State :=
  (chunks 32 (va.toNat + off) n).foldl
    (fun (bs, e, s) (k, m) =>
      if e.isSome then (bs, e, s)
      else match s.readVa (agentHere 0 o.part o.vf) true (va + BitVec.ofNat 64 (off + k)) m with
        | (.ok b, s) => (bs ++ b, none, s)
        | (.error f, s) => (bs, some f, s)) (([] : List Byte), none, s)

/-- An end marker of a stream sent, an XCH packet that waits for its injection (R357, R434): it tells how many bytes came before it. -/
def State.sendMarker (s : State) (o : EngineOp) (port : Nat) (p : Posted) (j : XStream) (cancelled : Bool) : State :=
  let m := p.packet j.dst (.marker cancelled j.sent)
  s.sendMsg .xch o.part o.vf o.die port 0 (Config.plane ((m.dest).getD 0) 0) none m

/-- A stream that has sent its last byte sends its end marker (R434). -/
def State.mark (s : State) (o : EngineOp) (port : Nat) (p : Posted) (j : XStream) : XStream × State :=
  if j.marked || (decide (j.sent < j.count) && !j.fault && !j.readErr) then (j, s)
  else ({ j with marked := true }, s.sendMarker o port p j false)

/-- A message that is injected at once, its credit paid: to another package it enters the network at its port's stack (R355, R414). -/
def State.inject_ (s : State) (p : Packet) (m : NetMsg) : State :=
  if m.dest = some s.pkg then { s with net := s.net ++ [m] } else s.forward { p with msg := some m } p.entry 0

/-- Up to `n` bytes of a stream sent, in packets of up to 4 KiB of class XCH, which are charged to the sender (R357, R360, R414). -/
def State.sendStream (s : State) (o : EngineOp) (port : Nat) (p : Posted) (j : XStream) (n : Nat) : XStream × State :=
  let (bs, e, s) := s.readBuffer o j.va j.sent n
  let n := ceilDiv bs.length 4096
  let s := { s.charge o.part o.die n bs.length with reqs := s.reqs + n }
  let s := (List.range n).foldl (fun s k =>
    let m := p.packet j.dst (.data (j.sent + 4096 * k) ((bs.drop (4096 * k)).take 4096))
    s.inject_ { part := o.part, vf := o.vf, die := o.die, bytes := 0, id := 0, cls := .xch, port, ch := Config.plane ((m.dest).getD 0) 0 % s.planesP } m) s
  let j := { j with sent := j.sent + bs.length, readErr := j.readErr || e == some .dataError, fault := j.fault || (e.isSome && e != some .dataError) }
  s.mark o port p j

/-- One outgoing stream replaced. -/
def XrunOp.putOut (x : XrunOp) (j : XStream) : XrunOp := { x with outs := updateFirst (fun y => y.dst == j.dst) (fun _ => j) x.outs }

/-- Bytes of a stream still to be sent. -/
def XStream.left (j : XStream) : Nat := if j.marked then 0 else j.count - j.sent

/-! ### XRUN: its end (R434, R435) -/

/-- The lowest of some participants. -/
def lowestOf (l : List Nat) : Option Nat := (l.mergeSort).head?

/-- The participants whose part of a run is missing (R434, R436): sources without a marker, and destinations on a lost package
that have neither acknowledged nor refused all bytes (log 36). -/
def State.missing (s : State) (p : Posted) (x : XrunOp) : List Nat :=
  (x.ins.filter fun q => !q.marked).map (·.src) ++
    (x.outs.filter fun j => decide (j.acked < j.sent) && !j.refused && decide ((p.members.getD j.dst (0, 0, 0)).1 ∈ s.lostPkgs)).map (·.dst)

/-- The status of an XRUN with an accepted calendar (R435); at the timeout, `missing` participants abort it. -/
def XrunOp.status (x : XrunOp) (missing : List Nat) : W32 :=
  let outs (p : XStream → Bool) := (x.outs.filter p).map (·.dst)
  let ins (p : XSource → Bool) := (x.ins.filter p).map (·.src)
  match lowestOf (outs (·.readErr)) with
  | some d => statusWord 1 true d
  | none =>
    match lowestOf (outs (·.fault) ++ ins (·.fault)) with
    | some d => statusWord 0x84 false d
    | none =>
      match lowestOf (outs (·.refused) ++ ins (·.cancelled) ++ missing) with
      | some d => statusWord 0x83 false d
      | none =>
        let above := x.ins.countP (·.excess)
        let slow := x.outs.countP (·.late)
        if above ≠ 0 then statusWord 0x82 false above else if slow ≠ 0 then statusWord 0x81 false slow else 0

/-- An XRUN resolves: its completion word is written unless it reports READ_ERROR, and its round is closed (R434, R435). -/
def State.endXrun (s : State) (o : EngineOp) (x : XrunOp) (st : W32) : State :=
  if o.cancel then s
  else
    let s := { s with ops := s.ops.filter fun y => y.id != o.id }
    let s := if o.live then s.resolve o.id st else s
    let s := if bits st.toNat 0 8 = 1 then s else s.completionWord (agentHere 0 o.part o.vf) .pkg x.cw x.cv
    s.closeRound o.vf o.part x.group x.round

/-- Whether an XRUN has everything it waits for (R434). -/
def XrunOp.complete (x : XrunOp) : Bool := x.outs.all (fun j => j.marked && (decide (j.sent ≤ j.acked) || j.refused)) && x.ins.all (·.marked)

/-- An XRUN stored, and ended when it is complete. -/
def State.putXrun (s : State) (o : EngineOp) (x : XrunOp) : State :=
  if x.complete ∧ !o.cancel then s.endXrun o x (x.status []) else s.setOp o.id fun _ => .xrun x

/-- An XRUN whose calendar has just become usable: markers of empty streams go (R434). A notice ends it. -/
def State.beginXrun (s : State) (o : EngineOp) (x : XrunOp) (p : Posted) : State :=
  match p.cal with
  | none => s
  | some .mismatch => s.endXrun o x (statusWord 0x87 false 0)
  | some .abort => s.endXrun o x (statusWord 0x83 false 0xFFFF)
  | some (.calendar _ _ _ _ _ _) =>
    let (outs, s) := x.outs.foldl (fun (acc, s) j => let (j, s) := if j.count = 0 then s.mark o x.port p j else (j, s); (acc ++ [j], s)) (([] : List XStream), s)
    s.putXrun o { x with outs }

/-- An operation that is an XRUN, and its round. -/
def State.xrunAt (s : State) (i : Nat) : Option (EngineOp × XrunOp × Posted) :=
  (s.findOp i).bind fun o => match o.kind with
    | .xrun x => (s.roundOf o x).map fun p => (o, x, p)
    | _ => none

/-- XRUN (R433, R434). -/
def execXrun (f : FReg) (a : SReg) (s : State) : Out :=
  memFinish s do
    let d (i : Nat) : W64 := s.rsAt a i
    let g := s.grp
    let group := bits (d 0).toNat 0 32
    let round := bits (d 0).toNat 32 32
    s.futReady f
    mustAlign (d 1) 16
    mustAlign (d 2) 16
    s.mustRange (1000 ≤ (d 3).toNat && (d 3).toNat ≤ 1000000000)
    mustAlign (d 4) 8
    s.mustRange (d 6 == 0 && d 7 == 0)
    match s.postedOf g.vf g.part group round with
    | none => raise s.violation
    | some p =>
      must (!p.ran) s.violation
      let n := p.members.length
      let _ ← s.checkAll ([⟨d 1, 16 * n, (·.r), anyKind⟩, ⟨d 2, 16 * n, (·.r), anyKind⟩] ++ cwCheck (d 4) anyKind)
      let (send, t) ← s.loadTable (d 1) (16 * n)
      let (recv, t) ← t.loadTable (d 2) (16 * n)
      let others := (List.range n).filter fun j => j != p.idx
      let va (b : List Byte) (j : Nat) : W64 := BitVec.ofNat 64 (field b (16 * j) 8)
      let len (b : List Byte) (j : Nat) : Nat := field b (16 * j + 8) 8
      match (others.flatMap fun j => [va send j, va recv j]).find? fun v => v.toNat % 32 != 0 with
      | some v => raise { code := cMisaligned, addr := v }
      | none => .ok ()
      if s.ops.any fun o => o.vf == g.vf && o.part == g.part && match o.kind with
          | .xrun _ => true
          | _ => false then .error (.hold (s.park .room))
      else do
        let t ← t.release .pkg
        let (id, t) := t.fresh
        let x : XrunOp :=
          { group, round, port := g.cluster / 10, timeout := (d 3).toNat, cw := d 4, cv := d 5, issued := s.time
            outs := others.map fun j => { dst := j, va := va send j, count := len send j }
            ins := others.map fun j => { src := j, va := va recv j, cap := len recv j } }
        let t := ((t.issueFut f id).startOp id (.xrun x)).setPosted g.vf g.part group round fun p => { p with ran := true }
        let t := t.advance 1
        .ok (match t.xrunAt id with
          | some (o, x, p) => t.beginXrun o x p
          | none => t)

/-! ### A run's calendar -/

/-- Whether an entry carries nothing (R434): it has ended before the first usable instant, or one before it for the same
destination has fallen short. -/
def entryLate (p : Posted) (x : XrunOp) (tau : Nat) (e : CalEntry) (j : XStream) : Bool :=
  decide (e.start + tau * e.units ≤ firstUsable p x) || j.short

/-- Whether an earlier entry for the destination of entry `k` has not ended: entries come in ascending START (R434). -/
def XrunOp.behind (x : XrunOp) (es : List CalEntry) (k dst : Nat) : Bool :=
  (List.range k).any fun m => (es[m]?).any (·.dest == dst) && decide (m ∉ x.ended)

/-- XCH_SLOT_START (R434): entry `k` of XRUN `i` begins. From its START it carries its 4,096 bytes a unit, or what is left; where it begins later,
because the calendar came late or the credit was spent, how many whole sectors it still carries is open (log 25). -/
def execXchSlotStart (i k : Nat) (s : State) : Out :=
  match s.xrunAt i with
  | none => .next s
  | some (o, x, p) =>
    match p.plan.bind fun (es, tau, _) => (es[k]?).map fun e => (es, e, tau) with
    | none => .next s
    | some (es, e, tau) =>
      match x.outs.find? fun j => j.dst == e.dest with
      | none => .next s
      | some j =>
        if x.behind es k e.dest ∨ (x.started.any fun y => y.1 == k) ∨ s.time < max e.start (firstUsable p x) ∨ o.cancel then .next s
        else if entryLate p x tau e j ∨ e.start + tau * e.units ≤ s.time then
          .next (s.setOp i fun _ => .xrun { x with started := x.started ++ [(k, 0)] })
        else
          let most := min (4096 * e.units) j.left
          let n := if s.time ≤ e.start ∨ Config.choice s.tick 0xD000 % 2 = 0 then most else min most (32 * Config.choice s.tick 0xD001)
          let (j', t) := s.sendStream o x.port p j n
          .next (s.paid o.part o.die (t.putXrun o ({ x with started := x.started ++ [(k, j'.sent - j.sent)] }.putOut j')))

/-- XCH_SLOT_END (R434): entry `k` of XRUN `i` ends; it falls short when bytes remain and it carried less than it could. -/
def execXchSlotEnd (i k : Nat) (s : State) : Out :=
  match s.xrunAt i with
  | none => .next s
  | some (_, x, p) =>
    match p.plan.bind fun (es, tau, _) => (es[k]?).map fun e => (e, tau) with
    | none => .next s
    | some (e, tau) =>
      match x.outs.find? fun j => j.dst == e.dest, x.started.find? fun y => y.1 == k with
      | some j, some (_, n) =>
        if k ∈ x.ended ∨ s.time < e.start + tau * e.units then .next s
        else
          let short := decide (0 < j.left ∧ n < 4096 * e.units)
          .next (s.setOp i fun _ => .xrun ({ x with ended := k :: x.ended }.putOut { j with short := j.short || short }))
      | _, _ => .next s

/-- XCH_OVERFLOW_START (R434): what no slot has carried goes, one destination after another. -/
def execXchOverflowStart (i : Nat) (s : State) : Out :=
  match s.xrunAt i with
  | none => .next s
  | some (o, x, p) =>
    match p.plan with
    | none => .next s
    | some (es, _, start) =>
      if s.time < max start (firstUsable p x) ∨ o.cancel ∨ (List.range es.length).any fun k => !(x.started.any fun y => y.1 == k) then .next s
      else
        let (x, t) := x.outs.foldl
          (fun (acc : XrunOp × State) j =>
            if j.left = 0 then acc
            else let (j', s) := acc.2.sendStream o x.port p { j with late := true } j.left; (acc.1.putOut j', s)) (x, s)
        .next (s.paid o.part o.die (t.putXrun o x))

/-- Instants that package time does not pass before an entry's start or end has come about (R434, log 5): entries keep to their instants, but for
one whose sender has no credit left (R360). -/
def State.slotCaps (s : State) : List Nat :=
  s.ops.flatMap fun o => match s.xrunAt o.id with
    | some (o, x, p) => match p.plan with
      | some (es, tau, _) => (List.range es.length).filterMap fun k => (es[k]?).bind fun e =>
        if o.cancel || decide (k ∈ x.ended) || !x.outs.any (·.dst == e.dest) then none
        else if x.started.any fun y => y.1 == k then some (e.start + tau * e.units)
        else if x.behind es k e.dest || decide (s.creditNow o.part o.die ≤ 0) then none
        else some (max e.start (firstUsable p x))
      | none => []
    | none => []

/-- XRUN_TIMEOUT (R417, R434): TIMEOUT after the overflow start something is still missing. -/
def execXrunTimeout (i : Nat) (s : State) : Out :=
  match s.xrunAt i with
  | none => .next s
  | some (o, x, p) =>
    match p.plan with
    | none => .next s
    | some (_, _, start) =>
      let missing := s.missing p x
      if s.time < start + x.timeout ∨ missing = [] then .next s else .next (s.endXrun o x (x.status missing))

/-! ### Receiving (R434) -/

/-- Bytes that arrive in order written at the base dies: whole sectors, none at or above the capacity, none from a fault on. -/
def State.place_ (s : State) (o : EngineOp) (q : XSource) (bs : List Byte) : XSource × State :=
  let take := bs.take (q.cap - q.got)
  let (ok, s) := if q.fault ∨ take = [] then (!q.fault, s)
    else s.writeSectors (agentHere 0 o.part o.vf) .pkg (q.va + BitVec.ofNat 64 q.got) take
  ({ q with got := q.got + bs.length, fault := q.fault || !ok, excess := q.excess || decide (q.cap < q.got + bs.length) }, s)

/-- The run of a context's round. -/
def State.runOf (s : State) (m : XchMsg) : Option (EngineOp × XrunOp) :=
  s.ops.findSome? fun o => match o.kind with
    | .xrun x => if o.vf = m.vf ∧ o.part = m.part ∧ x.group = m.group ∧ x.round = m.round then some (o, x) else none
    | _ => none

/-- An answer to the sender of a packet, of class RSP (R357). -/
def State.backTo (s : State) (m : XchMsg) (b : XchBody) : State :=
  s.answerFrom 0 m.part m.vf 0 0 (.xch m.sender.1 { m with sender := (s.pkg, m.part, m.vf), vf := m.sender.2.2, part := m.sender.2.1, body := b })

/-- An acknowledgement or refusal for a sender of this package. -/
def State.takeReply (s : State) (m : XchMsg) : State :=
  match s.runOf m with
  | none => s
  | some (o, x) =>
    match x.outs.find? fun j => j.dst == m.dst with
    | none => s
    | some j =>
      match m.body with
      | .ack n => s.putXrun o (x.putOut { j with acked := max j.acked n })
      | .refused => s.putXrun o (x.putOut { j with refused := true })
      | _ => s

/-- Data or a marker for a receiver of this package (R434): what comes before its XRUN is refused, and so is what comes after refused bytes, for
bytes are placed in order and a marker counts with all bytes before it. -/
def State.takeData (s : State) (m : XchMsg) : State :=
  match s.runOf m with
  | none =>
    let closed := ((s.ctx m.vf m.part).map fun c => decide ((m.group, m.round) ∈ c.posted)).getD false
    match m.body with
    | .data off bs => s.backTo m (if closed then .ack (off + bs.length) else .refused)
    | .marker _ _ => if closed then s else s.backTo m .refused
    | _ => s
  | some (o, x) =>
    match x.ins.find? fun q => q.src == m.src with
    | none => s
    | some q =>
      let put (q : XSource) : XrunOp := { x with ins := updateFirst (fun y => y.src == q.src) (fun _ => q) x.ins }
      match m.body with
      | .data off bs =>
        if off ≠ q.got then s.backTo m .refused
        else
          let (q, s) := s.place_ o q bs
          (s.putXrun o (put q)).backTo m (.ack q.got)
      | .marker c n =>
        if q.got < n then s.backTo m .refused else s.putXrun o (put { q with marked := true, cancelled := q.cancelled || c })
      | _ => s

/-- Whether bytes or a marker are behind earlier bytes of their stream on the way (R434: bytes arrive in ascending order, the marker last). -/
def State.early (s : State) (m : XchMsg) : Bool :=
  (match m.body with
    | .data _ _ | .marker _ _ => true
    | _ => false) &&
  (s.net.takeWhile fun y => y != .xch s.pkg m).any fun y => match y with
    | .xch _ z => z.group == m.group && z.round == m.round && z.src == m.src && z.dst == m.dst && (match z.body with
      | .data _ _ => true
      | _ => false)
    | _ => false

/-- XCH_DATA_ARRIVAL (R417, R434): a packet for a context of this package. One sent within this package must have been sent. -/
def execXchDataArrival (msg : XchMsg) (s : State) : Out :=
  let sent := NetMsg.xch s.pkg msg ∈ s.net
  let reply : Bool := match msg.body with
    | .ack _ => true
    | .refused => true
    | _ => false
  if (msg.sender.1 = s.pkg ∧ !sent) ∨ s.early msg then .next s
  else
    let s := { s with net := s.net.erase (NetMsg.xch s.pkg msg) }
    if reply then .next (s.takeReply msg)
    else if !s.synced then .next s
    else .next (s.takeData msg)

/-! ### Calendars and queries (R431, R434) -/

/-- A calendar or notice accepted by a participant's root: the first complete one (R431). -/
def State.acceptCalendar (s : State) (m : CalMsg) : State :=
  match s.postedOf m.vf m.part m.group m.round with
  | none => s
  | some p =>
    if p.cal.isSome ∨ !m.complete then s
    else
      let p := { p with cal := some m.body, accepted := s.time }
      let s := (s.setPosted m.vf m.part m.group m.round fun _ => p).settleXcals p
      match s.ops.findSome? fun o => match o.kind with
          | .xrun x => if o.vf = p.vf ∧ o.part = p.part ∧ x.group = p.group ∧ x.round = p.round then some (o, x) else none
          | _ => none with
      | some (o, x) => s.beginXrun o x p
      | none => s

/-- The participants that have acknowledged their calendars: the round is done with the last (R430). -/
def Round.ackBy (r : Round) (idx : Nat) : Round :=
  let acked := if idx ∈ r.acked then r.acked else idx :: r.acked
  { r with acked, state := if acked.length == r.rows.length then RoundState.done else r.state }

/-- A Weaver of this package has delivered a calendar. -/
def State.delivered (s : State) (m : CalMsg) : State :=
  let mine (r : Round) : Bool := r.group == m.group && r.round == m.round && r.state == .issuing
  let rounds := s.rounds.map fun r => if mine r then r.ackBy m.idx else r
  let ended := (s.rounds.filter fun r => mine r && !r.standby).filter fun r => (r.ackBy m.idx).state == .done
  { s with rounds }.sendFrom 0 (ended.map fun (r : Round) => .roundDone r.stby m.group m.round)

/-- CALENDAR_ARRIVAL (R417, R430, R431): a calendar reaches its participant. One that a Weaver of this package sent must have been
sent, and counts as acknowledged there; one from another package must be of a round whose Weavers are not both here. -/
def execCalendarArrival (msg : CalMsg) (s : State) : Out :=
  let sent := NetMsg.calendar msg ∈ s.net
  let foreign := ((s.postedOf msg.vf msg.part msg.group msg.round).map fun p =>
    let w := weaversOf p.members
    w.1 != s.pkg || w.2 != s.pkg).getD false
  if !sent ∧ (msg.pkg ≠ s.pkg ∨ !foreign) then .next s
  else
    let s := if sent then { s with net := s.net.erase (NetMsg.calendar msg) }.delivered msg else s
    if msg.pkg = s.pkg ∧ s.synced then .next (s.acceptCalendar msg) else .next s

/-- A round for which no Weaver answers: its XCALs and its XRUN resolve, and the XRUN closes it (R434). -/
def State.noWeaver (s : State) (p : Posted) : State :=
  s.ops.foldl
    (fun s o => match o.kind with
      | .xcal g r _ _ => if o.vf = p.vf ∧ o.part = p.part ∧ g = p.group ∧ r = p.round then s.endOp o (statusWord 0x86 false 0) .pkg 0 0 else s
      | .xrun x =>
        if o.vf = p.vf ∧ o.part = p.part ∧ x.group = p.group ∧ x.round = p.round then s.endXrun o x (statusWord 0x86 false 0) else s
      | _ => s) s

/-- WEAVER_QUERY (R434): every 100 µs the root asks both Weavers of open round `i`. A Weaver of this package that is reachable answers. -/
def execWeaverQuery (i : Nat) (answered : Bool) (s : State) : Out :=
  match s.posted[i]? with
  | none => .next s
  | some p =>
    if p.cal.isSome ∨ s.time < p.asked + 100000 then .next s
    else
      let w := weaversOf p.members
      let ok := answered || (w.1 == s.pkg && s.weaverAlive false) || (w.2 == s.pkg && s.weaverAlive true)
      let s := s.sendFrom 0 [.query w.1 p.group p.round, .query w.2 p.group p.round]
      if ok then .next { s with posted := s.posted.set i { p with answered := s.time, asked := s.time } }
      else if s.time < p.answered + 100000 then .next { s with posted := s.posted.set i { p with asked := s.time } }
      else .next (s.noWeaver p)

/-! ### Package time and ports -/

/-- CLOCK_SYNC (R416, R417): once the bound of R416 to the time master is reached, the package stays synchronised. The master is the lowest-numbered
package that can be reached, so none above this one or lost. Package time itself is slewed, so nothing else changes (log 5). -/
def execClockSync (master : Nat) (inBound : Bool) (s : State) : Out :=
  .next { s with synced := s.synced || (inBound && decide (master ≤ s.pkg ∧ master ∉ s.lostPkgs)) }

/-- The packets that are on their way in the network to an external port which is no longer theirs once the ports work as in `t`. -/
def State.rerouted (s t : State) (p : Packet) : Bool :=
  p.msg.isSome && p.at_.isSome && s.exitPort p.entry p.ch != t.exitPort p.entry p.ch

/-- EXTERNAL_PORT_CHANGE (R414): a port starts or stops working. Before a plane's traffic moves to another port, every packet already sent on that
plane is drained: it leaves the package, in order. -/
def execExternalPortChange (port : Nat) (works : Bool) (s : State) : Out :=
  if 24 ≤ port ∨ works = decide (port ∉ s.badPorts) then .next s
  else
    let t := { s with badPorts := if works then s.badPorts.filter (· != port) else port :: s.badPorts }
    let out := s.inject.filter (s.rerouted t)
    .next { t with
      inject := s.inject.filter fun p => !s.rerouted t p
      net := s.net ++ out.filterMap (·.msg) ++ [.drainedPlane (port % s.planesP)] }

end Sys2Proof.Machine
end

