-- ==== Sys2Proof/Machine/Cancel.lean ====
section
/-! DEFINITION. The acknowledgement of a cancelled operation (R215, R380, R443). -/
namespace Sys2Proof.Machine

/-- Whether a slot waits for the acknowledgement of operation `i`. -/
def Slot.cancels (x : Slot) (i : Nat) : Option FReg :=
  match x.park with
  | .cancel f op => if op = i ∧ x.occ then some f else none
  | _ => none

/-- A group whose slots, live or interrupted, may wait for the acknowledgement of operation `i`. -/
def Group.cancels (g : Group) (i : Nat) : Bool :=
  let has (x : Slot) : Bool := (x.cancels i).isSome
  has g.slotA || has g.slotB || (match g.trap with
    | some t => has t.slotA || has t.slotB
    | none => false)

/-- A slot of the current group whose FCANCEL is acknowledged: its future becomes idle and it goes on (R215). -/
def State.ackSlot (s : State) (i : Nat) (k : SlotId) : State :=
  match (s.grp.slot k).cancels i with
  | none => s
  | some f =>
    let j := s.sel
    let t := { s with sel := k }
    let t := (if (t.fut f).op = i ∧ (t.fut f).state = .pending then t.idleFut f else t).advance 1
    { t with sel := j }

/-- An interrupted slot whose FCANCEL is acknowledged executes it again, on an idle future. -/
def Slot.ackInterrupted (x : Slot) (i : Nat) : Slot := if (x.cancels i).isSome then { x with park := .none } else x

/-- Futures of a group that hold a cancelled operation become idle (R215, R335). -/
def Group.idle (g : Group) (i : Nat) : Group :=
  (List.range 16).foldl
    (fun g k =>
      match g.f[k]? with
      | some x => if x.state = .pending ∧ x.op = i then ({ g with f := g.f.setIfInBounds k {} }).setView k false else g
      | none => g) g

/-- An export entry that holds it becomes idle (R335). -/
def Gang.idle (g : Gang) (i : Nat) : Gang :=
  { g with expo := updateAll (fun e => e.live && e.fut.state == .pending && e.fut.op == i) (fun e => { e with fut := {} }) g.expo }

/-- Every slot that waits for the acknowledgement goes on. -/
def State.acknowledge (s : State) (i : Nat) : State :=
  let s := s.forGroups (fun g => g.cancels i) fun s =>
    let s := (s.ackSlot i .a).ackSlot i .b
    s.setGrp fun g => { g with trap := g.trap.map fun t => { t with slotA := t.slotA.ackInterrupted i, slotB := t.slotB.ackInterrupted i } }
  { s with
    grp := s.grp.idle i
    groups := s.groups.map fun g => g.idle i
    gangs := s.gangs.map fun g => g.idle i
    saved := s.saved.map fun v => { v with gang := v.gang.idle i, groups := v.groups.map fun g => g.idle i } }

/-- The end markers that a cancelled XRUN sends (R443). -/
def State.cancelXrun (s : State) (o : EngineOp) (x : XrunOp) : State :=
  let s := match s.roundOf o x with
    | some p => (x.outs.filter fun (j : XStream) => !j.marked).foldl (fun (s : State) (j : XStream) => s.sendMarker o x.port p j true) s
    | none => s
  s.closeRound o.vf o.part x.group x.round

/-- What an operation does when it is cancelled, beyond leaving (R215, R341, R443). -/
def State.cancelOp (s : State) (o : EngineOp) : State :=
  let s := { s with ops := s.ops.filter fun x => x.id != o.id }.forget o.id
  let s := { s with gangs := s.gangs.map fun g => g.freeTiles o.id }
  match o.kind with
  | .gpwait id => (s.setCtx o.vf o.part fun c => { c with graces := c.graces.filter fun g => g.id != id }).startGraces o.vf o.part
  | .coll x => s.beginColl x.stack
  | .xrun x => s.cancelXrun o x
  | _ => s

/-- CANCEL_ACKNOWLEDGE (R215): operation `i`, which an FCANCEL has asked to stop, has stopped. -/
def execCancelAcknowledge (i : Nat) (s : State) : Out :=
  if i ∉ s.stopping then .next s
  else
    let s := { s with stopping := s.stopping.filter (· != i) }
    let s : State := match s.findOp i with
      | some o => s.cancelOp o
      | none => { s with gangs := s.gangs.map fun g => g.freeTiles i }
    .next (s.acknowledge i)

end Sys2Proof.Machine
end

