-- ==== Sys2Proof/Machine/Fetch.lean ====
section
/-! DEFINITION. Instruction fetch, the instruction cache, decoding of a bundle, arrival at a join, a deferred data error
(R21 to R36, R78, R195, R197). -/
namespace Sys2Proof.Machine

/-- The line of a bundle address: 256 bytes (R32). -/
def lineOf (a : W64) : Nat := va55 a / 256

/-- The kernel code key's code base of the current group (R35). -/
def State.codeBase (s : State) : W64 := (s.gang s.grp.gang).codeBase

/-- Whether a cached line has the key and address of the current path's bundle on its core (R35, R205). -/
def State.lineHits (s : State) (x : ILine) : Bool :=
  let g := s.grp
  x.die == g.die && x.cluster == g.cluster && x.core == g.core && x.part == g.part && x.vf == g.vf &&
    x.codeBase == s.codeBase && x.line == lineOf s.slot.pcb

/-- The line that holds the current path's bundle, if its address is one (R2) and its core has it. -/
def State.cachedLine (s : State) : Option ILine := if canonical s.slot.pcb then s.icache.find? s.lineHits else none

/-- FETCH_FAULT with a reason of R34. -/
def State.fetchFault (s : State) (reason : Nat) : State := s.trap { code := cFetchFault, addr := s.slot.pcb, reason }

/-- Words an instruction occupies, by LEN of its base word (R11). -/
def wordsOf (w : W32) : Nat :=
  match w.toNat % 4 with
  | 0 => 1
  | 3 => 5
  | _ => 3

/-- A transfer instruction (R24). -/
def isTransfer : Decoded → Bool
  | .plain (.br _ _) | .plain (.brd _ _ _) | .plain (.call _) | .plain (.calltScalar _) | .plain (.calltScalarW1 _)
  | .plain (.calltLane _) | .plain (.calltLaneW1 _ _) | .plain .ret | .plain (.jts _) | .plain (.jtv _) | .plain (.jtvW1 _ _)
  | .plain .exit | .plain (.trap _) | .plain (.svc _) | .plain .rett => true
  | _ => false

/-- The base words of a bundle up to word COUNT, and the lowest failing word among them (R25, R29). -/
def scanWords (ws : List W32) (count : Nat) : Nat → Nat → List Nat × Option Nat
  | 0, _ => ([], none)
  | n + 1, i =>
    if count < i then ([], none)
    else
      match readWords ((ws.take (count + 1)).drop i) with
      | .error _ => ([], some i)
      | .ok d =>
        let k := wordsOf (ws.getD i 0)
        if isTransfer d ∧ i + k ≤ count then ([i], some (i + k))
        else
          let (bs, e) := scanWords ws count n (i + k)
          (i :: bs, e)

/-- The lowest failing word of a bundle (R22, R25, R29). -/
def badWord (ws : List W32) : Option Nat :=
  let c := (ws.headD 0).toNat
  if c % 16 = 0 ∨ c / 128 ≠ 0 then some 0
  else match (scanWords ws (c % 16) 15 1).2 with
    | some i => some i
    | none => (List.range 16).find? fun i => decide (c % 16 < i) && ws.getD i 0 != 0

/-- Whether a path may start at a word of a bundle (R197): a base word, or the word after the last. -/
def startOk (ws : List W32) (idx : Nat) : Bool :=
  let count := (ws.headD 0).toNat % 16
  idx == count + 1 || idx ∈ (scanWords ws count 15 1).1

/-- The current path holds its bundle: the static checks, then the word at which a resumed path starts (R25, R197). -/
def State.hold (s : State) (b : Bundle) : State :=
  match badWord b.words with
  | some i => s.trap { code := cIllegal, addr := s.slot.pcb + BitVec.ofNat 64 (4 * i) }
  | none =>
    if !startOk b.words s.slot.idx then s.trap { code := cIllegal, addr := s.pc }
    else
      let s := s.setSlot fun x => { x with ibuf := some b }
      if s.slot.idx = s.slot.ctl % 16 + 1 ∧ !s.slot.isAsleep then s.jump s.nextBundle else s

/-- Whether the current path may fetch, decode or arrive: its group runs, no trap of the group waits, no data error is to be taken first, and
after SWITCH its results have returned (R26, R191, R195, R205). -/
def State.mayFetch (s : State) : Bool :=
  s.slot.occ && s.stirs && s.slot.derr.isNone && (s.slot.park != .switch || s.drained)

/-- BUNDLE_DECODE (R25, R32, R33): the current path takes its bundle from its core's cached line; a fault that fetching the line ahead met
is raised, and recorded no more. -/
def execBundleDecode (s : State) : Out :=
  if s.slot.ibuf.isSome ∨ !s.mayFetch then .next s
  else match s.cachedLine with
    | none => .next s
    | some l =>
      let o := va55 s.slot.pcb % 256
      match l.fault with
      | some r => .next (({ s with icache := s.icache.erase l } : State).fetchFault r)
      | none =>
        if o / 64 ∈ l.bad then .next (s.fetchFault 3)
        else .next (s.hold ⟨s.slot.pcb, wordsOfBytes (slice l.bytes o 64)⟩)

/-- A line asked of the die fetch agent for the current group's core, merged with an open entry of the same key (R35). -/
def State.ask (s : State) (line : Nat) (x : Xl) : State :=
  let g := s.grp
  let same (e : FetchEntry) : Bool :=
    e.die == g.die && e.part == g.part && e.vf == g.vf && e.codeBase == s.codeBase && e.line == line
  let me := (g.cluster, g.core)
  let q :=
    if s.fetchq.any same then
      updateFirst same (fun e => { e with cores := if me ∈ e.cores then e.cores else e.cores ++ [me] }) s.fetchq
    else s.fetchq ++ [⟨g.die, g.part, g.vf, s.codeBase, line, x.pa / 256 * 256, x.kind, [me]⟩]
  { s with fetchq := q }

/-- The current path's line asked for; the path waits for it, one asleep sleeps on (R35, R197). -/
def State.askLine (s : State) (x : Xl) : State :=
  let t := s.ask (lineOf s.slot.pcb) x
  match s.slot.park with
  | .sleep _ _ => t
  | _ => t.park .fetch

/-- FETCH_FAULT's reason for a walk that failed (R34). -/
def fetchReason : WalkFault → Nat
  | .permission => 1
  | .dataError => 3
  | .unmapped => 0

/-- Whether the current group's core has a line under its key. -/
def State.hasLine (s : State) (line : Nat) : Bool :=
  let g := s.grp
  s.icache.any fun x => x.die == g.die && x.cluster == g.cluster && x.core == g.core && x.part == g.part && x.vf == g.vf &&
    x.codeBase == s.codeBase && x.line == line

/-- A line entered in a core's instruction cache: 32 sets of 8 ways, the oldest of a full set dropped (R32). -/
def State.install (s : State) (l : ILine) : State :=
  let sameCore (x : ILine) := x.die == l.die && x.cluster == l.cluster && x.core == l.core
  let same (x : ILine) := sameCore x && x.part == l.part && x.vf == l.vf && x.codeBase == l.codeBase && x.line == l.line
  let rest := s.icache.filter fun x => !same x
  let set := rest.filter fun x => sameCore x && x.line % 32 == l.line % 32
  let rest := if set.length < 8 then rest else rest.erase (set.getLastD l)
  { s with icache := l :: rest }

/-- The core may fetch ahead of the path: the next line, or that of a predicted target, which may be any (R32, log 48). A fault is recorded
against the line alone. -/
def State.fetchAhead (s : State) : State :=
  let c := Config.choice s.tick 3
  let a := if c % 3 = 1 then s.slot.pcb + 256 else s.slot.pcb + 64 * BitVec.ofNat 64 (c / 3)
  let g := s.grp
  if c % 3 = 0 ∨ !canonical a ∨ s.hasLine (lineOf a) then s
  else match s.translateFor g.die g.part g.vf a (·.x) with
    | (.ok x, s) => s.ask (lineOf a) x
    | (.error f, s) =>
      s.install { die := g.die, cluster := g.cluster, core := g.core, part := g.part, vf := g.vf, codeBase := s.codeBase, line := lineOf a
                  bytes := [], bad := [], fault := some (fetchReason f) }

/-- INSTRUCTION_CACHE_MISS (R34, R35): the path's line is not in its core's cache. -/
def execInstructionCacheMiss (s : State) : Out :=
  if s.slot.ibuf.isSome ∨ !s.mayFetch ∨ s.cachedLine.isSome then .next s
  else if !canonical s.slot.pcb then .next (s.fetchFault 2)
  else
    let g := s.grp
    match s.translateFor g.die g.part g.vf s.slot.pcb (·.x) with
    | (.ok x, t) => .next (s.paid g.part g.die (t.askLine x).fetchAhead)
    | (.error f, t) => .next (s.paid g.part g.die (t.fetchFault (fetchReason f)))

/-- Bytes of a line read at L2, and its bundles with uncorrectable data. -/
def State.readLine (s : State) (e : FetchEntry) : List Byte × List Nat × State :=
  (List.range 8).foldl
    (fun (bs, bad, s) i =>
      let (b, err, s) := s.readPiece ⟨e.die, 0, 0, e.part, e.vf⟩ false .dflt ⟨e.pa + 32 * i, 32, e.kind⟩
      (bs ++ b, if err then bad ++ [i / 2] else bad, s))
    (([] : List Byte), ([] : List Nat), s)

/-- A fetch park cleared on the paths of a core that wait for a line. -/
def Group.fetched (g : Group) : Group :=
  let f (x : Slot) : Slot := if x.park = .fetch then { x with park := .none } else x
  { g with slotA := f g.slotA, slotB := f g.slotB }

/-- MULTICAST_FILL (R35, R36): the agent's entry `i` is read and delivered to every core that asked, and to every other core
of the die that runs the kernel, which may drop it (log 8). -/
def execMulticastFill (i : Nat) (s : State) : Out :=
  match s.fetchq[i]? with
  | none => .next s
  | some e =>
    let s₀ := s
    let (bs, bad, s) := { s with fetchq := dropAt s.fetchq i }.readLine e
    let runs (g : Group) : Bool :=
      g.die == e.die && g.part == e.part && g.vf == e.vf && (s.gang g.gang).codeBase == e.codeBase
    let others := ((distinct ((s.allGroups.filter runs).map fun g => (g.cluster, g.core))).filter fun c => c ∉ e.cores).filter
      fun c => Config.choice s.tick (0x8000 + 4 * c.1 + c.2) % 2 == 0
    let t := (e.cores ++ others).foldl
      (fun s c => s.install ⟨e.die, c.1, c.2, e.part, e.vf, e.codeBase, e.line, bs, bad, none⟩) s
    .next (s₀.paid e.part e.die (t.forGroups (fun g => runs g && (g.cluster, g.core) ∈ e.cores) fun s => s.setGrp Group.fetched))

/-- JOIN_ARRIVAL (R78): the current path is about to issue word 1 of its pending join's bundle. -/
def execJoinArrival (s : State) : Out :=
  let x := s.slot
  if !s.mayFetch ∨ x.pj ≠ some x.pcb ∨ x.idx ≠ 1 ∨ x.ibuf.isNone then .next s else finish s s.arrive

/-- What a deferred error raises (R194, R195, R372). -/
def DataErr.cause (e : DataErr) : Cause :=
  if e.code = cNmu then { code := cNmu, addr := e.epc, aux0 := e.ea, lane := some e.lane }
  else { code := cDataError, addr := e.ea, aux0 := e.epc, lane := some e.lane }

/-- TRAP_ENTRY (R191, R195, R372): a code raised is taken once its drain is done; a data error that a returned load left, or an NMU's
watchdog that ended a GRED, is taken at the path's instruction boundary. -/
def execTrapEntry (s : State) : Out :=
  match s.grp.raised, s.slot.derr with
  | some (i, c), _ =>
    if s.mustWait then .next s else .next ((({ s with sel := i }).setGrp fun g => { g with raised := none }).takeTrap c)
  | none, some e => .next (s.trapTo e.cause fun t => t.setSlot fun x => { x with derr := none })
  | none, none => .next s

end Sys2Proof.Machine
end

