-- ==== Sys2Proof/Machine/Groups.lean ====
section
/-! DEFINITION. Shares of a core, and the state of a group that starts (R69, R86, R204, R207, R219, R323). -/
namespace Sys2Proof.Machine

/-- The share of a context (R204, R237, R243, R273); one without resources when it holds none. -/
def State.share (s : State) (part vf : Nat) : Share :=
  (s.shares.find? fun h => h.part == part && h.vf == vf).getD ⟨part, vf, 0, 0, 0, 0, 0, 0, 0, 0, 0, 0, 0, 0⟩

/-- The live groups of a context on one core (R207). -/
def State.coreGroups (s : State) (die cluster core part vf : Nat) : List Group :=
  s.allGroups.filter fun g => g.die == die && g.cluster == cluster && g.core == core && g.part == part && g.vf == vf

/-- Free context slots and free positions of a context on one core (R207). -/
def State.freeSlots (s : State) (die cluster core part vf : Nat) : Nat :=
  (s.share part vf).cslots - (s.coreGroups die cluster core part vf).length
def State.freePositions (s : State) (die cluster core part vf : Nat) : Nat :=
  8 * (s.share part vf).rcount - ((s.coreGroups die cluster core part vf).map fun g => g.vrf.length).sum

/-- The lowest number below a bound that a list does not hold. -/
def lowestFree (bound : Nat) (used : List Nat) : Option Nat := (List.range bound).find? fun i => i ∉ used

/-- The context slot of a group that is placed, spawned or resumed (R203, R207): the lowest free one of its core (DESIGN CHOICE, log 68). -/
def State.freeSlotNo (s : State) (die cluster core : Nat) : Nat :=
  (lowestFree 64 ((s.allGroups.filter fun g => g.die == die && g.cluster == cluster && g.core == core).map (·.cslot))).getD 0

/-- Generator key of a group number (R323). -/
def rngKey (seed : W64) (m : Nat) : W64 :=
  (hashH seed (BitVec.ofNat 64 (2 * m))).zeroExtend 64 + 2 ^ 32 * (hashH seed (BitVec.ofNat 64 (2 * m + 1))).zeroExtend 64

/-- Group `gid` of a gang as it starts in role `r` on a core (R69, R86, R323), with s0 to s7 given (R219). -/
def startGroup (s : State) (g : Gang) (key gid r : Nat) (ro : Role) (core : Nat) (v : List W64) : Group :=
  let m := 256 * g.index + gid
  let p := g.privBase + BitVec.ofNat 64 (m * g.privSize)
  let top := p + BitVec.ofNat 64 g.privSize
  { key, live := 0xFFFFFFFF, gid, role := r, gang := g.key, die := g.die, cluster := g.cluster, core
    cslot := s.freeSlotNo g.die g.cluster core, part := g.part, vf := g.vf, bank := g.bank, level := g.level
    priv := p, psize := g.privSize, f0 := ro.f0, wcap := ro.w
    slotA :=
      { occ := true, pcb := ro.entry, mask := 0xFFFFFFFF, fsize := ro.f0, fb := top
        sp := top - BitVec.ofNat 64 ((ro.f0 - 8) * 128), age := s.tick }
    s := Vector.ofFn fun i => v.getD i 0
    vrf := List.replicate (ro.f0 + ro.w) (Vector.replicate 32 0)
    sl := p + 4096, tfp := g.tfb + BitVec.ofNat 64 (8192 * m), dtb := g.dtb, dtl := BitVec.ofNat 64 g.dtl
    rngk := rngKey g.seed m }

/-- A group placed with its gang. -/
def State.addGroup (s : State) (g : Group) : State :=
  { s with groups := s.groups ++ [g] }.setGang g.gang fun x => { x with groups := x.groups ++ [g.key] }

end Sys2Proof.Machine
end

