-- ==== Sys2Proof/Machine/Future.lean ====
section
/-! DEFINITION. Futures and spawning (R213 to R220). -/
namespace Sys2Proof.Machine

/-- FWAIT (R214, R215). -/
def execFwait (d : SReg) (f : FReg) (s : State) : Out :=
  match (s.fut f).state with
  | .idle => .next (s.trap (s.futureInvalid f))
  | .pending => .next (s.park (.future f (s.fut f).op))
  | .resolved => .next ((s.setRs d ((s.fut f).status.zeroExtend 64)).advance 1)

/-- FTEST (R215). -/
def execFtest (d : SReg) (f : FReg) (s : State) : Out :=
  scalarOp s 1 d (match (s.fut f).state with
    | .idle => 0
    | .pending => 1
    | .resolved => (s.fut f).status ++ 2#32)

/-- An LDSTAT's entry without its future: it leaves its plane empty (R226). -/
def TabEntry.cancelled (e : TabEntry) (i : Nat) : TabEntry :=
  match e.kind with
  | .ldstat q ty src op gen => if op = i then { e with kind := .ldstat q ty src 0 gen } else e
  | _ => e

/-- The operation into a future is asked to stop (R215, R226). -/
def State.askStop (s : State) (i : Nat) : State :=
  { s with
    stopping := if i ∈ s.stopping then s.stopping else s.stopping ++ [i]
    ops := updateFirst (fun o => o.id == i) (fun o => { o with cancel := true }) s.ops
    rtab := s.rtab.map fun e => e.cancelled i }

/-- Whether an operation is a DPOST: its row goes on, and its future becomes idle at once (R443). -/
def State.isPost (s : State) (i : Nat) : Bool := (s.findOp i).any fun o => match o.kind with
  | .dpost _ _ _ _ _ => true
  | _ => false

/-- FCANCEL (R215, R443): a pending operation is asked to stop, and the path waits for the acknowledgement. -/
def execFcancel (f : FReg) (s : State) : Out :=
  let x := s.fut f
  match x.state with
  | .idle => .next (s.advance 1)
  | .pending =>
    if s.isPost x.op then
      .next (({ s with ops := updateFirst (fun o => o.id == x.op) (fun o => { o with live := false }) s.ops }.idleFut f).advance 1)
    else .next ((s.askStop x.op).park (.cancel f x.op))
  | .resolved =>
    let s := if held x.status then { s with gangs := s.gangs.map fun g => g.freeTiles x.op } else s
    .next ((s.idleFut f).advance 1)

/-- The gang's core number of the current group (R216). -/
def State.gangCore (s : State) : Nat := s.grp.core - (s.gang s.grp.gang).core0

/-- Whether an entry of the export table of the current group's core is free (R215, R216). -/
def State.expoFree (s : State) (n : Nat) : Bool :=
  let g := s.grp
  !(s.gangs.any fun h => h.die == g.die && h.cluster == g.cluster &&
    h.expo.any fun e => e.entry == n && h.core0 + e.core == g.core && (e.live || (h.key == g.gang && decide (65535 ≤ e.gen))))

/-- A token (R216). -/
def tokenOf (entry core gen tag : Nat) : W64 := BitVec.ofNat 64 (entry + core * 2 ^ 7 + gen * 2 ^ 9 + tag * 2 ^ 25)

/-- FEXP (R215, R216): the lowest free entry, its generation counted from the gang's admission (log 16). -/
def execFexp (d : SReg) (f : FReg) (s : State) : Out :=
  let x := s.fut f
  if x.state = .idle then .next (s.trap (s.futureInvalid f))
  else match (List.range 128).find? s.expoFree with
    | none => scalarOp s 1 d 0
    | some n =>
      let g := s.gang s.grp.gang
      let c := s.gangCore
      let same (e : ExpoEntry) : Bool := e.core == c && e.entry == n
      let gen := ((g.expo.find? same).map (·.gen)).getD 0 + 1
      let s := s.setGang g.key fun g => { g with expo := g.expo.filter (fun e => !same e) ++ [⟨c, n, gen, true, x⟩] }
      scalarOp (s.idleFut f) 1 d (tokenOf n c gen g.tag)

/-- FIMP (R215, R216). -/
def execFimp (f : FReg) (a : SReg) (s : State) : Out :=
  let g := s.gang s.grp.gang
  let hit (e : ExpoEntry) : Bool := e.live && tokenOf e.entry e.core e.gen g.tag == s.rs a
  match (s.fut f).state, g.expo.find? hit with
  | .idle, some e =>
    let s := s.setGang g.key fun g => { g with expo := updateFirst hit (fun e => { e with live := false, fut := {} }) g.expo }
    .next (((s.setFut f e.fut).setGrp fun g => g.setView f.toNat (e.fut.state == .pending)).advance 1)
  | _, _ => .next (s.trap (s.futureInvalid f))

/-- SPAWN (R218, R219). -/
def execSpawn (r : BitVec 2) (d a : SReg) (s : State) : Out :=
  let g := s.grp
  let gang := s.gang g.gang
  match gang.roles[r.toNat]? with
  | none => .next (s.trap { code := cSpawnRole, addr := s.pc, aux0 := r.zeroExtend 64 })
  | some ro =>
    let v := (List.range 8).map fun i => s.rsAt a i
    let gids := (s.allGroups.filter fun x => x.gang == g.gang).map (·.gid)
    match lowestFree 256 gids with
    | none => scalarOp s 1 d 3
    | some i =>
      if s.freeSlots g.die g.cluster g.core g.part g.vf = 0 then scalarOp s 1 d 1
      else if s.freePositions g.die g.cluster g.core g.part g.vf < ro.f0 + ro.w then scalarOp s 1 d 2
      else
        let (key, t) := s.fresh
        let t := t.addGroup { startGroup s gang key i r.toNat ro g.core v with level := g.level }
        scalarOp t 1 d (BitVec.ofNat 64 (i * 2 ^ 16))

end Sys2Proof.Machine
end

