-- ==== Sys2Proof/Machine/Root.lean ====
section
/-! DEFINITION. What the root keeps and does for its other work: pages, context descriptors, stage-2 tables, handles, invalidation
of translations, messages to the host (R278, R330, R386 to R400). -/
namespace Sys2Proof.Machine

/-! ### Messages -/

/-- Messages sent to the host. -/
def State.tell (s : State) (ms : List HostMsg) : State := { s with host := s.host ++ ms }

/-- The 64 bytes of a mailbox command or response (R399): bytes 0 and 1, the tag, the dwords from 1 on. -/
def mailWords (head tag : Nat) (ws : List Nat) : List Byte :=
  slice (bytesOfNat 4 head ++ bytesOfNat 4 tag ++ ws.flatMap (bytesOfNat 8)) 0 64

/-- A mailbox response (R399): STATUS, DONE, the tag, results. -/
def State.respond (s : State) (pf tag status : Nat) (result : List Nat := []) : State :=
  let m : Pf := s.pfs.toList.getD pf {}
  { s with pfs := s.pfs.setIfInBounds pf { m with done := true, response := mailWords (status + 256) tag result } }.tell
    [.response pf tag status result]

/-! ### Pages of package memory -/

/-- A 64 KiB page in use: by the root, or by a handle. -/
def State.pageUsed (s : State) (p : Nat) : Bool :=
  decide (p ∈ s.rootPages) || s.handles.any fun h => match h.kind with
    | .memory ps => decide (p ∈ ps)
    | .window _ _ _ _ => false

/-- Pages below the dump (R410). -/
def pageCount : Nat := Config.dumpBase / 65536

/-- A page zeroed, with no copy of it left in any cache (R396, R400). -/
def State.scrub (s : State) (p : Nat) : State :=
  let inPage (sec : Nat) : Bool := sec / 2048 == p
  { s.basePut 31 (65536 * p) (List.replicate 65536 0) with
    l1 := s.l1.filter fun x => !inPage x.sec
    l2 := s.l2.filter fun x => !inPage x.sec
    wbuf := s.wbuf.filter fun x => !inPage x.sec }

/-- The lowest pages that satisfy a test and are free, from page `p` on: at most `n` among the next `fuel`. -/
def State.findPages (s : State) (ok : Nat → Bool) : Nat → Nat → Nat → List Nat
  | 0, _, _ => []
  | fuel + 1, p, n =>
    match n with
    | 0 => []
    | m + 1 => if ok p && !s.pageUsed p then p :: s.findPages ok fuel (p + 1) m else s.findPages ok fuel (p + 1) (m + 1)

/-- A page taken for the root's tables: the lowest free one (log 12). -/
def State.rootPage (s : State) : Option (Nat × State) :=
  (s.findPages (fun _ => true) pageCount 0 1).head?.map fun p => (p, { s.scrub p with rootPages := p :: s.rootPages })

/-! ### Context descriptors (R389) -/

/-- The descriptor of a context, made ABSENT when the root first needs it: its stage-2 root is a table of the root's. -/
def State.needCtx (s : State) (vf part : Nat) : Option State :=
  match s.ctx vf part with
  | some _ => some s
  | none => s.rootPage.map fun (p, s) =>
    let pver := (((s.vfs.find? fun x => x.vf == vf).bind (·.policy)).map (·.version)).getD 0
    { s with ctxs := s.ctxs ++
      [{ vf, part, state := .absent, paused := false, bank := 0, s1root := 0, s2root := 65536 * p, dfc := 0, pver, save := 0
         carry := 0, ran := Vector.replicate 6 0, sliceStart := 0, slice := 0, wall := 0, rate := 0, burst := 0, resize := none, quota := 0, evict := false, image := []
         lastSlice := 0, kinds := [], readers := [], graces := [], batches := [], posted := [] }] }

/-- A VF's record. -/
def State.vf (s : State) (v : Nat) : Option Vf := s.vfs.find? fun x => x.vf == v

/-- A VF's record changed, made when it is not there. -/
def State.setVf (s : State) (v : Nat) (f : Vf → Vf) : State :=
  let blank : Vf := { vf := v, secret := none, policy := none, bound := none, lstat := 0, lerr := 0, ltol := none, devCtr := 0, saveCtr := 0 }
  { s with vfs := f ((s.vf v).getD blank) :: s.vfs.filter fun x => x.vf != v }

/-! ### Stage-2 tables (R278, R400) -/

/-- A table entry of the root's; no slice keeps a copy of one that it writes (R280). -/
def State.tableGet (s : State) (t : Nat) (x level : Nat) : Nat := natOfBytes (memRead s.mem (t + 8 * tableIndex x level) 8)
def State.tablePut (s : State) (t x level e : Nat) : State :=
  let a := t + 8 * tableIndex x level
  ({ s with mem := memWrite s.mem a (bytesOfNat 8 e) }).l2Drop fun y => y.sec == secOf a

/-- The table under an entry, made when there is none. -/
def State.tableUnder (s : State) (t x level : Nat) : Option (Nat × State) :=
  match entry2 level (s.tableGet t x level) with
  | .table b => some (b, s)
  | _ => s.rootPage.map fun (p, s) => (65536 * p, s.tablePut t x level (1 + 65536 * p))

/-- KIND as a stage-2 entry holds it (R278). -/
def kindCode : Kind → Nat
  | .normal => 0
  | .atomicHome => 1
  | .host => 2

/-- A 64 KiB leaf: NORMAL leaves get R, W and X, the others R and W (R400). -/
def leafWord (k : Kind) (ppage : Nat) : Nat := 1 + 2 + 4 + 8 + (if k = .normal then 16 else 0) + 32 * kindCode k + 65536 * ppage

/-- A leaf set for an intermediate page. -/
def State.installLeaf (s : State) (root ipage ppage : Nat) (k : Kind) : Option State := do
  let x := 65536 * ipage
  let (t2, s) ← s.tableUnder root x 1
  let (t3, s) ← s.tableUnder t2 x 2
  some (s.tablePut t3 x 3 (leafWord k ppage))

/-- A leaf removed. -/
def State.uninstall (s : State) (root ipage : Nat) : State :=
  let x := 65536 * ipage
  match entry2 1 (s.tableGet root x 1) with
  | .table t2 =>
    match entry2 2 (s.tableGet t2 x 2) with
    | .table t3 => s.tablePut t3 x 3 0
    | _ => s
  | _ => s

/-! ### Invalidation (R330, R419) -/

/-- The root asks every other package in the PEERS of a context to remove what its dies hold of it (R419, log 69). -/
def State.tellPeers (s : State) (vf part : Nat) : State :=
  let pkgs := distinct ((((s.policyOf vf).map (·.peers)).getD []).map (·.1))
  s.sendFrom 0 ((pkgs.filter (· != s.pkg)).map fun p => .remove p vf part)

/-- TLB entries of a context that map an address of a range are removed on every die, and remote TLB entries that reach it, in this package and
in its peers. An open miss walks the tables as it ends. -/
def State.shootdown (s : State) (vf part : Nat) (p : TlbEntry → Bool) : State :=
  { s with
    tlb := s.tlb.filter fun e => !(e.vf == vf && e.part == part && p e)
    rtlb := s.rtlb.filter fun e => !(e.peer == s.pkg && s.peerOf e.vf e.peer == some (vf, part)) }.tellPeers vf part

/-- Every access of a context that may have used an old mapping is performed at .pkg (R330). -/
def State.performCtx (s : State) (vf part : Nat) : State :=
  let s := s.forGroups (fun g => g.vf == vf && g.part == part) fun s => s.returnAll fun _ => true
  let s := s.drainQueue fun o => o.vf == vf && o.part == part && o.isGlobal
  (s.cleanPart fun x => x.part == part && x.vf == vf).ackAll fun x => x.part == part && x.vf == vf

/-! ### Handles (R397, R398, R400, R404) -/

/-- A live handle. -/
def State.handle (s : State) (id : Nat) : Option Handle := s.handles.find? fun h => h.id == id

/-- Bytes that a handle covers. -/
def Handle.size (h : Handle) : Nat :=
  match h.kind with
  | .memory ps => 65536 * ps.length
  | .window _ _ len _ => len

/-- A range of a handle as physical pieces, each within a page and a host block. -/
def Handle.pieces (h : Handle) (off n : Nat) : List (Nat × Nat) :=
  match h.kind with
  | .memory ps => (chunks 65536 off n).map fun (o, len) => (65536 * ps.getD ((off + o) / 65536) 0 + (off + o) % 65536, len)
  | .window _ _ _ base => (chunks 256 off n).map fun (o, len) => (base + off + o, len)

/-- Bytes of a handle read by the root: at the base dies, or through the host port. -/
def State.handleRead (s : State) (h : Handle) (off n : Nat) : List Byte :=
  (h.pieces off n).flatMap fun (pa, len) => match h.kind with
    | .memory _ => memRead s.mem pa len
    | .window _ _ _ _ => (s.hostRead h.vf pa len).1

/-- The root's read of a handle's bytes reaches their stacks (R406). -/
def State.handleTouch (s : State) (h : Handle) (off n : Nat) : State :=
  match h.kind with
  | .memory _ => s.touch ((h.pieces off n).map (·.1))
  | .window _ _ _ _ => s

/-- Bytes of a handle written by the root. -/
def State.handleWrite (s : State) (h : Handle) (off : Nat) (bs : List Byte) : State :=
  ((h.pieces off bs.length).foldl
    (fun (s, bs) (pa, len) => (match h.kind with
      | .memory _ => s.basePut (h.part.getD 31) pa (bs.take len)
      | .window _ _ _ _ => s.hostWrite h.vf pa (bs.take len), bs.drop len)) (s, bs)).1

/-! ### Partitions and dies (R324, R361, R386) -/

/-- The quadrants of a partition: die and quadrant. -/
def State.quadsOf (s : State) (part : Nat) : List (Nat × Nat) :=
  ((List.range 24).filter fun k => ((s.gates.toList[k]?).map (·.part)) == some part).map fun k => (k / 4, k % 4)

/-- The partition dies, ascending (R324). -/
def State.partDies (s : State) (part : Nat) : List Nat := distinct ((s.quadsOf part).map (·.1))

/-- A die's service changed. -/
def State.setDie (s : State) (d : Nat) (f : Die → Die) : State := { s with dies := s.dies.setIfInBounds d (f (s.die d)) }

/-- Gangs not yet placed, shared among the partition's dies (R324): a die that has received one by stealing keeps it while it is one of
them. -/
def State.reshare (s : State) (part : Nat) : State :=
  let dies := s.partDies part
  let place (l : Launch) (u : Nat × Nat) : Nat × Nat :=
    if u.2 ∈ l.stolen ∧ u.1 ∈ dies then u else (dies.getD (u.2 % max dies.length 1) 0, u.2)
  { s with launches := updateAll (fun l => l.part == part) (fun l => { l with unplaced := l.unplaced.map (place l) }) s.launches }

/-- Every write of a context brought to the base dies and acknowledged (R309). -/
def State.drainCtx (s : State) (vf part : Nat) : State :=
  let s := s.drainQueue fun o => o.vf == vf && o.part == part && !o.isRemote
  (s.cleanPart fun x => x.part == part && x.vf == vf).ackAll fun x => x.part == part && x.vf == vf

/-- Whether a unit is leaving a power state (R407). -/
def State.waking (s : State) (u : PowerUnit) : Bool := s.wake.any fun w => w.1 == u

/-- A unit begins to leave its power state (R407), unless it does already. -/
def State.beginExit (s : State) (u : PowerUnit) : State := if s.waking u then s else { s with wake := s.wake ++ [(u, s.time)] }

/-- Dies in LOW or DOFF and quadrants in QGATE of a partition begin to leave their states (R407). -/
def State.wakeUnits (s : State) (part : Nat) : State :=
  (s.quadsOf part).foldl
    (fun s q =>
      let s := if (s.die q.1).power = .full then s else s.beginExit (.die q.1)
      if (s.die q.1).quads.getD q.2 .full = .full then s else s.beginExit (.quadrant q.1 q.2)) s

/-- Whether a die and a quadrant of it are up: work that needs them may proceed (R407, R408). -/
def State.dieUp (s : State) (d : Nat) : Bool :=
  let x := s.die d
  x.present && !x.failed && x.power != .doff && !s.waking (.die d)
def State.quadUp (s : State) (d q : Nat) : Bool := s.dieUp d && (s.die d).quads.getD q .full == .full && !s.waking (.quadrant d q)

/-! ### Policies in force -/

/-- The figures of a QUOTA word (R394). -/
structure Quota where
  positions : Nat
  slots : Nat
  gm : Nat
  sets : Nat
  tiles : Nat
  scratch : Nat
  deriving DecidableEq, Repr
def quotaOf (w : Nat) : Quota := ⟨bits w 0 10, bits w 10 7, bits w 17 11, bits w 28 9, bits w 37 9, bits w 46 12⟩

/-- Every figure at or below the other's. -/
def Quota.le (a b : Quota) : Bool :=
  decide (a.positions ≤ b.positions ∧ a.slots ≤ b.slots ∧ a.gm ≤ b.gm ∧ a.sets ≤ b.sets ∧ a.tiles ≤ b.tiles ∧ a.scratch ≤ b.scratch)

/-- The QUOTA that the next LOADING of a context takes: what RESIZE set, while the policy still allows it, else the policy's (R394,
R395, R400, log 29). -/
def State.quotaFor (s : State) (c : Ctx) : Nat :=
  let p := ((s.policyOf c.vf).map (·.quota)).getD 0
  match c.resize with
  | some w => if (quotaOf w).le (quotaOf p) then w else p
  | none => p

/-- A VF whose contexts are all ABSENT and whose last handle the host has freed is no longer bound (R392). -/
def State.settleBind (s : State) (vf : Nat) : State :=
  if (s.ctxs.all fun c => c.vf != vf || c.state == .absent) && (s.handles.all fun h => h.vf != vf) && (s.vf vf).any (·.freed) then
    s.setVf vf fun v => { v with bound := none, freed := false }
  else s

end Sys2Proof.Machine
end

