-- ==== Sys2Proof/Machine/Sched.lean ====
section
/-! DEFINITION. Contexts in a partition, their slices, and gangs placed, saved and resumed (R204 to R209, R324 to R326, R331 to
R337). -/
namespace Sys2Proof.Machine

/-! ### Shares (R204, R237, R243, R273, R331) -/

/-- What a gang needs of the cores and of its cluster: per core, positions and slots. -/
structure Need where
  cores : Nat
  perCore : List (Nat × Nat)
  gm : Nat
  sets : Nat
  tiles : Nat
  scratch : Nat
  deriving DecidableEq, Repr

/-- The role of each group of a gang, by index (R64, R321). -/
def Header.roleOf (h : Header) : List Nat := (List.range h.roles.length).flatMap fun r => List.replicate ((h.roles.getD r ⟨0, 0, 0, 0⟩).g) r

/-- What a gang of a header needs (R206, R207). -/
def Header.need (h : Header) : Need :=
  let rs := h.roleOf
  { cores := h.cores, gm := h.shared / 1024, sets := h.sets.length, tiles := h.tiles, scratch := h.scratch
    perCore := (List.range h.cores).map fun k =>
      let mine := ((List.range rs.length).filter fun i => i % h.cores == k).map fun i => h.roles.getD (rs.getD i 0) ⟨0, 0, 0, 0⟩
      ((mine.map fun r => r.f0 + r.w).sum, mine.length) }

/-- What a saved gang needs (R337). -/
def Saved.need (v : Saved) : Need :=
  { cores := v.gang.cores, gm := v.gang.shared / 1024, sets := v.gang.sets.length, tiles := v.gang.quota, scratch := v.gang.scratch
    perCore := (List.range v.gang.cores).map fun k =>
      let mine := v.groups.filter fun g => g.core == v.gang.core0 + k
      ((mine.map fun g => g.vrf.length).sum, mine.length) }

/-- The largest of some needs, field by field, as shares (R322). -/
def Quota.raise (q : Quota) (n : Need) : Quota :=
  { positions := max q.positions (ceilDiv ((n.perCore.map (·.1)).foldl max 0) 8)
    slots := max q.slots ((n.perCore.map (·.2)).foldl max 0)
    gm := max q.gm n.gm, sets := max q.sets n.sets, tiles := max q.tiles n.tiles, scratch := max q.scratch n.scratch }

/-- The first base at which `n` units fit beside ranges already taken. -/
def firstFit (limit n : Nat) (taken : List (Nat × Nat)) : Option Nat :=
  ((0 :: taken.map fun t => t.1 + t.2).mergeSort).find? fun b =>
    decide (b + n ≤ limit) && taken.all fun t => decide (b + n ≤ t.1 ∨ t.1 + t.2 ≤ b)

/-- The shares of a bank, if they fit beside those of the partition's other contexts (R331). -/
def State.shareFor (s : State) (vf part bank : Nat) (q : Quota) : Option Share := do
  let others := s.shares.filter fun h => h.part == part
  let rbase ← firstFit 512 q.positions (others.map fun h => (h.rbase, h.rcount))
  let tbase ← firstFit 256 q.tiles (others.map fun h => (h.tbase, h.tcount))
  let mbase ← firstFit 1024 q.gm (others.map fun h => (h.mbase, h.mcount))
  let sbase ← firstFit 256 q.sets (others.map fun h => (h.sbase, h.scount))
  let pbase ← firstFit 2048 q.scratch (others.map fun h => (h.pbase, h.pcount))
  if (others.map (·.cslots)).sum + q.slots ≤ 64 then
    some ⟨part, vf, bank, rbase, q.positions, q.slots, tbase, q.tiles, mbase, q.gm, sbase, q.sets, pbase, q.scratch⟩
  else none

/-- Launches of a context that have started and not completed. -/
def State.launchesOf (s : State) (vf part : Nat) : List Launch := s.launches.filter fun l => l.vf == vf && l.part == part

/-- The shares' sizes of a context at LOADING: its QUOTA, raised for the gangs of started launches (R322, R331). -/
def State.sizesFor (s : State) (c : Ctx) : Quota :=
  let q := ((s.launchesOf c.vf c.part).filter fun l => l.status == 0 && !l.inval).foldl (fun q l => q.raise l.hdr.need) (quotaOf (s.quotaFor c))
  (s.saved.filter fun v => v.gang.vf == c.vf && v.gang.part == c.part).foldl (fun q v => q.raise v.need) q

/-! ### Placing gangs (R206, R207, R325) -/

/-- Admitted gangs of a context on a cluster. -/
def State.gangsOn (s : State) (vf part die cluster : Nat) : List Gang :=
  s.gangs.filter fun g => g.vf == vf && g.part == part && g.die == die && g.cluster == cluster

/-- Whether a need fits on a cluster, apart from its cores (R238, R244, R274). -/
def State.clusterFits (s : State) (vf part die cluster : Nat) (n : Need) : Bool :=
  let h := s.share part vf
  let on := s.gangsOn vf part die cluster
  let inQuad := s.gangs.filter fun g => g.vf == vf && g.part == part && g.die == die && g.cluster / 10 == cluster / 10
  decide (n.gm + (on.map fun g => g.shared / 1024).sum ≤ h.mcount ∧ n.sets + (on.map fun g => g.sets.length).sum ≤ h.scount ∧
    n.tiles + (on.map (·.quota)).sum ≤ h.tcount ∧ n.scratch + (inQuad.map (·.scratch)).sum ≤ h.pcount)

/-- The lowest first core of a cluster that has room (R206, R207). -/
def State.coreFits (s : State) (vf part die cluster : Nat) (n : Need) : Option Nat :=
  ((List.range 4).filter fun k => k % n.cores == 0).find? fun k =>
    (List.range n.cores).all fun i =>
      let p := n.perCore.getD i (0, 0)
      decide (p.1 ≤ s.freePositions die cluster (k + i) part vf ∧ p.2 ≤ s.freeSlots die cluster (k + i) part vf)

/-- The clusters of a partition's quadrants on a die that are up, ascending (R325, R407). -/
def State.clustersOf (s : State) (part die : Nat) : List Nat :=
  ((s.quadsOf part).filter fun q => q.1 == die && s.quadUp die q.2).flatMap fun q => (List.range 10).map fun k => 10 * q.2 + k

/-- Where a need fits on a die: clusters with their first cores, in the order of R325. -/
def State.placesOn (s : State) (vf part die : Nat) (n : Need) : List (Nat × Nat) :=
  (s.clustersOf part die).filterMap fun cl =>
    if s.clusterFits vf part die cl n then (s.coreFits vf part die cl n).map fun k => (cl, k) else none

/-- The lowest free tiles or set entries of a share (R244, R274). -/
def lowestTiles (base count n : Nat) (used : List Nat) : List Nat :=
  (((List.range count).map fun i => base + i).filter fun t => t ∉ used).take n

/-- What a gang holds of its cluster bound to it, on a die (R206, R238, R244, R274). -/
def State.bind_ (s : State) (g : Gang) (die cluster core0 : Nat) : Gang :=
  let h := s.share g.part g.vf
  let on := s.gangsOn g.vf g.part die cluster
  let quad := cluster / 10
  let inQuad := s.gangs.filter fun x => x.vf == g.vf && x.part == g.part && x.die == die && x.cluster / 10 == quad
  { g with
    die, cluster, core0, bank := h.bank
    physGm := lowestTiles h.mbase h.mcount (g.shared / 1024) (on.flatMap (·.physGm))
    physTiles := lowestTiles h.tbase h.tcount g.quota (on.flatMap (·.physTiles))
    physSp := lowestTiles (2048 * quad + h.pbase) h.pcount g.scratch (inQuad.flatMap (·.physSp))
    physSets := lowestTiles h.sbase h.scount g.sets.length (on.flatMap (·.physSets)) }

/-- The die's next count of admissions, which skips what would make a TAG of 0 (R216). -/
def State.nextAdmit (s : State) (die : Nat) : Nat :=
  let n := (s.admits.toList.getD die 0) + 1
  if n % 2 ^ 39 = 0 then n + 1 else n

/-- A gang of a launch placed with every group of it (R206, R207, R216, R323). -/
def State.placeGang (s : State) (l : Launch) (index die cluster core0 : Nat) : State :=
  let n := s.nextAdmit die
  let (key, s) := { s with admits := s.admits.setIfInBounds die n }.fresh
  let h := l.hdr
  let g : Gang :=
    { key, launch := l.id, index, vf := l.vf, part := l.part, cores := h.cores, tag := n % 2 ^ 39, level := l.level, roles := h.roles
      trapEntry := h.trap, wdog := h.wdog, dtb := h.dtb, dtl := h.dtl, codeBase := h.code, privBase := l.priv, privSize := l.psize
      tfb := l.tfb, seed := l.seed, shared := h.shared, scratch := h.scratch, quota := h.tiles, alloc := List.replicate h.tiles false
      sets := h.sets.map fun m => { member := m } }
  let g := s.bind_ g die cluster core0
  let s := { s with gangs := s.gangs ++ [g] }
  let rs := h.roleOf
  let s := (List.range rs.length).foldl
    (fun s i =>
      let r := rs.getD i 0
      let (k, t) := s.fresh
      t.addGroup (startGroup t g k i r (h.roles.getD r ⟨0, 0, 0, 0⟩) (core0 + i % h.cores) [])) s
  let f (x : Launch) : Launch :=
    { x with unplaced := x.unplaced.filter fun u => u.2 != index, placed := if die ∈ x.placed then x.placed else die :: x.placed }
  { s with launches := updateFirst (fun x => x.id == l.id) f s.launches }

/-- Launches ranked by level, then arrival (R324). -/
def State.rankedLaunches (s : State) : List Launch := orderBy (fun x y => decide (x.level < y.level)) s.launches

/-- Whether a context's gangs can be admitted: it holds its bank (R207, R331). -/
def State.holdsBank (s : State) (vf part : Nat) : Bool := (s.ctx vf part).any fun c => c.state == .resident || c.state == .active

/-- GANG_ADMIT (R207, R209, R325): the distributor of a die admits the first waiting gang that fits. -/
def execGangAdmit (i : Nat) (s : State) : Out :=
  let first := s.rankedLaunches.findSome? fun l =>
    if !s.holdsBank l.vf l.part then none
    else
      let mine := (l.unplaced.filter fun u => u.1 == i).map (·.2)
      match (mine.mergeSort).head?, (s.placesOn l.vf l.part i l.hdr.need).head? with
      | some g, some (cl, k) => some (l, g, cl, k)
      | _, _ => none
  match first with
  | some (l, g, cl, k) => .next (s.placeGang l g i cl k)
  | none => .next s

/-- STEAL_REQUEST (R326): die `thief` asks die `victim` for a gang of launch `launch`, within the launch's partition. -/
def execStealRequest (thief victim launch : Nat) (s : State) : Out :=
  let held (l : Launch) (d : Nat) : Nat := l.unplaced.countP fun u => u.1 == d
  let wants (l : Launch) : Bool :=
    s.holdsBank l.vf l.part && decide (thief ∈ s.partDies l.part) && !(s.placesOn l.vf l.part thief l.hdr.need).isEmpty &&
      (s.partDies l.part).any fun d => d != thief && decide (0 < held l d)
  let part := (s.launches.find? fun l => l.id == launch).map (·.part)
  match (s.rankedLaunches.filter fun l => some l.part == part).find? wants with
  | none => .next s
  | some l =>
    let dies := (s.partDies l.part).filter fun d => d != thief
    let best := dies.foldl (fun (b : Option Nat) d => match b with
      | some x => if held l x < held l d then some d else some x
      | none => some d) none
    let idle := s.launches.all fun m =>
      !((s.ctx m.vf m.part).any fun c => c.state == .active) || m.part != l.part || held m thief == 0
    let mine := ((l.unplaced.filter fun u => u.1 == victim && decide (u.2 ∉ l.stolen)).map (·.2)).foldl max 0
    if l.id ≠ launch ∨ best ≠ some victim ∨ !idle ∨ held l victim ≤ 1 ∨ !(l.unplaced.any fun u => u == (victim, mine)) ∨ mine ∈ l.stolen then .next s
    else
      let f (x : Launch) : Launch := { x with unplaced := (x.unplaced.filter (· != (victim, mine))) ++ [(thief, mine)], stolen := mine :: x.stolen }
      .next { s with launches := updateFirst (fun x => x.id == l.id) f s.launches }

/-- GANG_RETIRE (R209, R222, R238, R244, R274): the last group has ended and every operation of the gang has completed. -/
def execGangRetire (key : Nat) (s : State) : Out :=
  match s.gangs.find? fun g => g.key == key with
  | none => .next s
  | some g =>
    if (s.allGroups.any fun x => x.gang == key) ∨ (s.ops.any fun o => o.gang == key) ∨ s.rtab.any fun e => e.gang == key then .next s
    else .next { s with
      gangs := s.gangs.filter fun x => x.key != key
      planes := s.planes.filter fun p => p.gang != key
      launches := updateFirst (fun l => l.id == g.launch) (fun l => { l with retired := l.retired + 1 }) s.launches }

/-! ### Contexts (R331, R332) -/

/-- Runnable: a started entry, a waiting gang or a live group (R332). -/
def State.runnable (s : State) (c : Ctx) : Bool :=
  !(s.launchesOf c.vf c.part).isEmpty || (s.saved.any fun v => v.gang.vf == c.vf && v.gang.part == c.part) ||
    s.allGroups.any fun g => g.vf == c.vf && g.part == c.part

/-- A context that holds its bank or its gangs and has nothing left to do is ABSENT (R331, R392). Its record cache entries stay: it may come
back (R349). -/
def State.settleCtx (s : State) (vf part : Nat) : State :=
  match s.ctx vf part with
  | none => s
  | some c =>
    if (c.state == .resident || c.state == .saved) && !s.runnable c && (s.gangs.all fun g => !(g.vf == vf && g.part == part)) then
      (({ s with
        shares := s.shares.filter fun h => !(h.vf == vf && h.part == part) }.setCtx vf part
          fun c => { c with state := .absent, evict := false, image := [], seals := [] })).settleBind vf
    else s

/-- L + carry in thousandths of cycles, and what the slowest die of the partition has run (R333). -/
def Ctx.due (c : Ctx) : Nat := 1000 * (c.slice + c.carry)
def State.ranOf (s : State) (c : Ctx) : Nat :=
  match (s.partDies c.part).map fun d => c.ran.toList.getD d 0 with
  | [] => 0
  | x :: r => r.foldl min x

/-- How a slice ends by itself (R333): true by its cycles, false by its wall ceiling. -/
def State.sliceOver (s : State) (c : Ctx) : Option Bool :=
  if c.due ≤ s.ranOf c then some true
  else if c.sliceStart + c.wall * (c.slice + c.carry) / max c.slice 1 ≤ s.time then some false
  else none

/-- The carry after a slice (R333): kept where cycles were owed. -/
def State.carryAfter (s : State) (c : Ctx) (kept : Bool) : Nat := if kept then (c.due - s.ranOf c) / 1000 else 0

/-- A slice begins with the figures of the policy now in force (R333, R395). -/
def State.beginSlice (s : State) (vf part : Nat) : State :=
  let p := s.policyOf vf
  (s.settleCredits part).setCtx vf part fun c =>
    { c with
      state := .active, sliceStart := s.time, ran := Vector.replicate 6 0
      slice := (p.map (·.slice)).getD 0, wall := (p.map (·.wall)).getD 0, rate := (p.map (·.rate)).getD 0, burst := (p.map (·.burst)).getD 0 }

/-- An ACTIVE context goes back to RESIDENT (R331). -/
def State.stopSlice (s : State) (c : Ctx) (kept : Bool) : State :=
  ({ s with abank := s.abank.filter fun a => a.1 != c.part }.settleCredits c.part).setCtx c.vf c.part
    fun c => { c with state := .resident, carry := s.carryAfter c kept, lastSlice := s.tick + 1 }

/-- The contexts of a partition in rotation by context number, after the one that held the last slice (R332). -/
def State.rotation (s : State) (part : Nat) : List Ctx :=
  let cs := orderBy (fun x y => decide (x.vf < y.vf)) (s.ctxs.filter fun c => c.part == part)
  let last := cs.foldl (fun (b : Option Ctx) c => if c.lastSlice = 0 then b else match b with
    | some x => if x.lastSlice < c.lastSlice then some c else some x
    | none => some c) none
  match last with
  | some l => cs.filter (fun c => decide (l.vf < c.vf)) ++ cs.filter fun c => decide (c.vf ≤ l.vf)
  | none => cs

/-- Contexts in rotation that can be given a slice or a bank: runnable, not paused (R332). -/
def State.ready (s : State) (part : Nat) : List Ctx := (s.rotation part).filter fun c => s.runnable c && !c.paused

/-- A quadrant of a partition is on its way to another partition (R387). -/
def State.relocating (s : State) (part : Nat) : Bool :=
  s.moving.any fun m => m.2.2 == part || ((s.gates.toList[4 * m.1 + m.2.1]?).map (·.part)) == some part

/-- A bank and shares for a context, if they are free (R331). -/
def State.roomFor (s : State) (c : Ctx) : Option Share :=
  (lowestFree 4 ((s.shares.filter fun h => h.part == c.part).map (·.bank))).bind fun b => s.shareFor c.vf c.part b (s.sizesFor c)

/-- A context is made SAVING (R331); a saved one stays, a LOADING one loads first (R400). -/
def State.evict (s : State) (vf part : Nat) : State :=
  match s.ctx vf part with
  | none => s
  | some c =>
    match c.state with
    | .active => (s.stopSlice c true).setCtx vf part fun c => { c with state := .saving }
    | .resident => s.setCtx vf part fun c => { c with state := .saving }
    | .loading => s.setCtx vf part fun c => { c with evict := true }
    | _ => s

/-! ### Saving (R334, R398) -/

/-- Chunks of an image (R398). -/
def chunkCount (quota : Nat) : Nat := ceilDiv (Config.saveSize quota) 4096

/-- Bytes that a context's save area needs: the chunks, then their tags and counters (R398). -/
def areaNeed (quota : Nat) : Nat := (4096 + 24) * chunkCount quota

/-- The save area of a context, if it is large enough. -/
def State.saveArea (s : State) (c : Ctx) : Option Handle :=
  (s.handle c.save).bind fun h => if areaNeed c.quota ≤ h.size && h.vf == c.vf then some h else none

/-- The chunks of its image that a context has written (R398). -/
def Ctx.chunks (c : Ctx) : Nat := c.seals.length / 24

/-- The next chunk of a context's image sealed and written to its save area (R398, log 27). -/
def State.writeChunk (s : State) (vf part : Nat) (h : Handle) : State :=
  match s.ctx vf part with
  | none => s
  | some c =>
    let k := c.chunks
    let v := ((s.vf vf).map (·.saveCtr)).getD 0
    let (ct, tag) := Config.gcmSeal (s.vfKey vf labelSave) (bytesOfNat 2 vf ++ [3, 0] ++ bytesOfNat 8 v) []
      ((List.range 4096).map fun i => Config.saveByte s.tick (4096 * k + i))
    ((s.handleWrite h (4096 * k) (slice ct 0 4096)).setVf vf fun x => { x with saveCtr := v + 1 }).setCtx vf part fun c =>
      { c with image := c.image ++ slice ct 0 4096, seals := c.seals ++ slice tag 0 16 ++ bytesOfNat 8 v }

/-- The chunk that a saved gang fills; the last one waits for the last gang (R334, R398, R413, log 27). -/
def State.writeGang (s : State) (c : Ctx) (h : Handle) : State :=
  if c.chunks + 1 < chunkCount c.quota then s.writeChunk c.vf c.part h else s

/-- The rest of the image, and the tags and counters of its chunks after it (R398). -/
def State.writeImage (s : State) (c : Ctx) (h : Handle) : State :=
  let n := chunkCount c.quota
  let t := (List.range (n - c.chunks)).foldl (fun s _ => s.writeChunk c.vf c.part h) s
  let table := ((t.ctx c.vf c.part).map (·.seals)).getD []
  (t.handleWrite h (4096 * n) table).setCtx c.vf c.part fun c => { c with image := c.image ++ table, seals := [] }

/-- Whether the image of a context verifies: unchanged since it was written, or by its tags (R398). -/
def State.imageVerifies (s : State) (c : Ctx) : Bool :=
  match s.handle c.save with
  | none => false
  | some h =>
    let bs := s.handleRead h 0 c.image.length
    bs == c.image || (List.range (c.image.length / 4120)).all fun k =>
      let n := c.image.length / 4120
      (Config.gcmOpen (s.vfKey c.vf labelSave) (bytesOfNat 2 c.vf ++ [3, 0] ++ slice bs (4096 * n + 24 * k + 16) 8) []
        (slice bs (4096 * k) 4096) (slice bs (4096 * n + 24 * k) 16)).isSome

/-- A SAVING context whose gangs are all saved becomes SAVED once it has its save area (R331, R398). -/
def State.finishSaving (s : State) (vf part : Nat) : State :=
  match s.ctx vf part with
  | none => s
  | some c =>
    if c.state ≠ .saving ∨ s.gangs.any fun g => g.vf == vf && g.part == part then s
    else
      let done (s : State) : State :=
        let s := s.drainCtx vf part
        ({ s with shares := s.shares.filter fun h => !(h.vf == vf && h.part == part) }.setCtx vf part fun c => { c with state := .saved }).settleCtx vf part
      match s.saveArea c with
      | some h => done (s.writeImage c h)
      | none => s

/-- Every SAVING context that has nothing left to save becomes SAVED, whatever left it so: its last gang saved or retired, an eviction before
one was admitted, a save area named (R331, R332, R398). -/
def State.settleSaving (s : State) : State :=
  (s.ctxs.filter fun c => c.state == .saving).foldl (fun s c => s.finishSaving c.vf c.part) s

/-- The eviction that a context without a bank may cause (R332): of the RESIDENT context whose last slice ended earliest. -/
def State.makeRoom (s : State) (part : Nat) : State :=
  match (s.ready part).head? with
  | none => s
  | some c =>
    if !(c.state == .saved || c.state == .absent) || (s.roomFor c).isSome || (s.ctxs.any fun x => x.part == part && x.state == .saving) then s
    else
      let rs := s.ctxs.filter fun x => x.part == part && x.state == .resident
      match rs.foldl (fun (b : Option Ctx) x => match b with
        | some y => if x.lastSlice < y.lastSlice then some x else some y
        | none => some x) none with
      | some v => s.evict v.vf part
      | none => s

/-- SLICE_END (R332, R333): the slice of a partition's ACTIVE context ends; the only runnable context goes on at once. -/
def execSliceEnd (part : Nat) (s : State) : Out :=
  match s.ctxs.find? fun c => c.part == part && c.state == .active with
  | none => .next s
  | some c =>
    if !s.runnable c then .next (((s.stopSlice c false).settleCtx c.vf part).makeRoom part)
    else match s.sliceOver c with
      | none => .next s
      | some byCycles =>
        if (s.ready part).all fun x => x.vf == c.vf then
          let carry := s.carryAfter c !byCycles
          .next ((s.setCtx c.vf part fun c => { c with carry, lastSlice := s.tick + 1 }).beginSlice c.vf part)
        else .next ((s.stopSlice c !byCycles).makeRoom part)

/-- Whether every quadrant of a partition, and its dies, are up and running at full power (R407). -/
def State.partUp (s : State) (part : Nat) : Bool :=
  !(s.quadsOf part).isEmpty && (s.quadsOf part).all fun q => s.quadUp q.1 q.2 && (s.die q.1).power == .full

/-- A path that waits on a word reads it again as its bank becomes active (R205). -/
def Slot.revive (x : Slot) : Slot :=
  match x.park with
  | .waita w => { x with park := .waita { w with due := true } }
  | _ => x

/-- The waiting paths of a context read their words again (R205). -/
def State.revive (s : State) (vf part : Nat) : State :=
  let f (g : Group) : Group := if g.vf = vf ∧ g.part = part then { g with slotA := g.slotA.revive, slotB := g.slotB.revive } else g
  { s with grp := f s.grp, groups := s.groups.map f }

/-- BANK_SWITCH (R205, R332): the next runnable RESIDENT context in rotation becomes ACTIVE. -/
def execBankSwitch (part bank : Nat) (s : State) : Out :=
  if (s.ctxs.any fun c => c.part == part && c.state == .active) || !s.partUp part then .next s
  else match (s.ready part).find? fun c => c.state == .resident with
    | some c =>
      if c.bank ≠ bank then .next s
      else .next (({ s with abank := (part, bank) :: s.abank.filter fun a => a.1 != part }.beginSlice c.vf part).revive c.vf part)
    | none => .next s

/-- Whether an operation holds a tile of a gang (R246, R275, R334). -/
def State.holdsTile (s : State) (g : Gang) : Bool :=
  (g.gmOwn ++ g.spOwn).any fun t => match t.2 with
    | .engine op => (s.findOp op).isSome || s.rtab.any fun e => match e.kind with
      | .ldstat _ _ _ o _ => o == op
      | _ => false
    | _ => false

/-- A gate moves to another partition once every context of both is saved, absent or terminated and its writes are drained (R309,
R387); gangs not yet placed are shared anew (R324). -/
def State.settleMoves (s : State) : State :=
  s.moving.foldl
    (fun s m =>
      let (d, q, b) := m
      let k := 4 * d + q
      let a := ((s.gates.toList[k]?).map (·.part)).getD 31
      let still (c : Ctx) : Bool := (c.part == a || c.part == b) && !(c.state == .absent || c.state == .terminated || c.state == .saved)
      let mine (part : Nat) : Bool := part != 31 && (part == a || part == b)
      if s.ctxs.any still ∨ s.wq.any fun o => mine o.part && o.unanswered then s
      else
        let s := s.drainQueue fun o => mine o.part
        let s := (s.cleanPart fun x => mine x.part).ackAll fun x => mine x.part
        let s := { s with
          moving := s.moving.filter (· != m)
          l2 := s.l2.filter fun x => !(x.die == d && mine x.part)
          recs := s.recs.filter fun x => !(x.die == d && mine x.part)
          tlb := s.tlb.filter fun x => !(x.die == d && mine x.part) }
        let g : Gate := ⟨true, b⟩
        (({ s with gateCopy := s.gateCopy.setIfInBounds k g, gates := s.gates.setIfInBounds k g }).reshare a).reshare b) s

/-- Whether a group has a trap to take at its boundary (R191, R195). -/
def Group.trapDue (g : Group) : Bool := g.raised.isSome || (g.slotA.occ && g.slotA.derr.isSome) || (g.slotB.occ && g.slotB.derr.isSome)

/-- The traps of the current group that fall at its boundary are taken (R191, R334). -/
def State.takeDue (s : State) : State :=
  let one (s : State) (i : SlotId) : State :=
    let t := { s with sel := i }
    if t.grp.raised.isSome || (t.slot.occ && t.slot.derr.isSome) then (match execTrapEntry t with
      | .next u => u
      | _ => s)
    else s
  let t := one (one s .a) .b
  { t with sel := s.sel }

/-- GANG_SAVE (R334, R335): gang `key` of a SAVING context is saved whole; traps that fall at the same boundary are taken first. The
release of step 4 concerns every store of its cores (R304). -/
def execGangSave (key : Nat) (s : State) : Out :=
  match s.gangs.find? fun g => g.key == key with
  | none => .next s
  | some g =>
    match s.ctx g.vf g.part with
    | none => .next s
    | some c =>
      let mine (x : Group) : Bool := x.gang == key
      let busy := s.allGroups.any fun x => mine x && x.outst.any fun e => e.isRemote || match e.kind with
        | .gred _ => true
        | _ => false
      if c.state = .saving ∧ s.allGroups.any fun x => mine x && x.trapDue then .next (s.forGroups (fun x => mine x && x.trapDue) State.takeDue)
      else if c.state ≠ .saving ∨ (s.saveArea c).isNone ∨ busy ∨ s.holdsTile g ∨ s.rtab.any fun e => e.gang == key then .next s
      else
        let s := s.forGroups mine fun s => s.returnAll fun _ => true
        let s := s.drainQueue fun o => !o.isRemote && o.die == g.die && o.cluster == g.cluster && o.part == g.part &&
          decide (g.core0 ≤ o.core ∧ o.core < g.core0 + g.cores)
        let s := (s.cleanPart fun x => x.die == g.die && x.part == g.part).ackAll fun x => x.die == g.die && x.part == g.part
        let s := match s.ctx g.vf g.part with
          | some c => ((s.saveArea c).map (s.writeGang c)).getD s
          | none => s
        let v : Saved := ⟨s.gang key, s.allGroups.filter mine, s.planes.filter fun p => p.gang == key, []⟩
        let s := { s with
          saved := s.saved ++ [v]
          grp := if mine s.grp then {} else s.grp
          groups := s.groups.filter fun x => !mine x
          gangs := s.gangs.filter fun x => x.key != key
          planes := s.planes.filter fun p => p.gang != key }
        .next (s.finishSaving g.vf g.part).settleMoves

/-! ### Loading (R331, R337) -/

/-- A context made LOADING: what it takes from its policy (R389, R395). -/
def Ctx.load (c : Ctx) (bank quota : Nat) (p : Option Policy) : Ctx :=
  let s1root := (p.map (·.s1root)).getD 0
  let dfc := (p.map (·.dfc)).getD 0
  let kinds := (p.map (·.kinds)).getD []
  { c with state := .loading, bank, quota, evict := false, s1root, dfc, kinds, image := [], seals := [] }

/-- CONTEXT_LOAD (R331, R332, R395, R398): context `i` with work takes a bank and its shares; a LOADING one whose gangs are restored
becomes RESIDENT, or SAVING when it was evicted meanwhile. -/
def execContextLoad (i : Nat) (s : State) : Out :=
  match s.ctxs[i]? with
  | none => .next s
  | some c =>
    match c.state with
    | .loading =>
      if s.saved.any fun v => v.gang.vf == c.vf && v.gang.part == c.part then .next s
      else if c.evict then .next (((s.setCtx c.vf c.part fun c => { c with state := .saving, evict := false }).finishSaving c.vf c.part).settleMoves)
      else .next ((s.setCtx c.vf c.part fun c => { c with state := .resident }).settleCtx c.vf c.part)
    | .absent | .saved =>
      if c.paused ∨ !s.runnable c ∨ s.relocating c.part ∨ !s.partUp c.part then .next s
      else if c.state = .saved ∧ c.image ≠ [] ∧ !s.imageVerifies c then .next (s.endContext c.vf c.part)
      else match s.roomFor c with
        | none => .next (s.makeRoom c.part)
        | some h =>
          let t := { s with shares := s.shares ++ [h] }
          let t := t.setCtx c.vf c.part fun c => c.load h.bank (s.quotaFor c) (s.policyOf c.vf)
          .next (if (t.ctx c.vf c.part).map (·.s1root) = some c.s1root then t else t.shootdown c.vf c.part fun _ => true)
    | _ => .next s

/-- A parked path of a resumed gang (R205, R337): it re-evaluates its condition. -/
def Park.resume (p : Park) : Park :=
  match p with
  | .waita _ | .miss | .fetch | .room => .none
  | p => p

/-- A group placed again; no failed walk is kept over a save (R280, R282). -/
def Group.replace (g : Group) (v : Gang) (old slot : Nat) : Group :=
  let f (x : Slot) : Slot := { x with park := x.park.resume, failed := [], farFailed := [] }
  { g with
    die := v.die, cluster := v.cluster, core := v.core0 + (g.core - old), bank := v.bank, cslot := slot, slotA := f g.slotA, slotB := f g.slotB
    trap := g.trap.map fun t => { t with slotA := f t.slotA, slotB := f t.slotB } }

/-- Whether the quadrants of a saved gang are unbound on a cluster (R242). -/
def State.quadsFree (s : State) (v : Saved) (die cluster bank : Nat) : Bool :=
  v.planes.all fun p => s.planes.all fun x => !(x.die == die && x.cluster == cluster && x.bank == bank && x.quad == p.quad)

/-- GANG_RESUME (R335, R337, R242): saved gang `i` of a LOADING context, the first in order, is placed again on any cluster where it
fits; each group performs an acquire at .pkg. -/
def execGangResume (i : Nat) (s : State) : Out :=
  match s.saved[i]? with
  | none => .next s
  | some v =>
    let g := v.gang
    match s.ctx g.vf g.part with
    | none => .next s
    | some c =>
      let first := (s.saved.take i).all fun x => !(x.gang.vf == g.vf && x.gang.part == g.part)
      let held (op : Nat) : Bool := (v.groups.any fun x => x.f.toList.any fun y => y.state == .pending && y.op == op) ||
        v.gang.expo.any fun e => e.live && e.fut.state == .pending && e.fut.op == op
      let places := (s.partDies g.part).flatMap fun d => ((s.placesOn g.vf g.part d v.need).filter fun p => s.quadsFree v d p.1 c.bank).map fun p => (d, p)
      match places[Config.choice s.tick 0xE000 % max places.length 1]? with
      | none => .next s
      | some (d, cl, k) =>
        if c.state ≠ .loading ∨ !first ∨ s.resolutions.any fun r => held r.1 then .next s
        else
          let x := s.bind_ g d cl k
          let s := { s with
            saved := dropAt s.saved i
            gangs := s.gangs ++ [x]
            planes := s.planes ++ v.planes.map fun p => { p with die := d, cluster := cl, bank := c.bank } }
          .next (v.groups.foldl
            (fun s y =>
              let z := y.replace x g.core0 (s.freeSlotNo d cl (k + (y.core - g.core0)))
              { s with groups := s.groups ++ [z] }.dropClean z.here .pkg) s)

/-- A resolution applied to the saved image (R336): nothing where the image does not hold the operation as pending. -/
def State.applyResolution (s : State) (r : Nat × W32) : State :=
  { s with
    saved := s.saved.map fun v => { v with gang := v.gang.resolve r.1 r.2, groups := v.groups.map fun g => g.resolve r.1 r.2 } }

/-- SAVED_RESOLUTION_APPLY (R335, R336). -/
def execSavedResolutionApply (i : Nat) (s : State) : Out :=
  match s.resolutions[i]? with
  | none => .next s
  | some r => .next ({ s with resolutions := dropAt s.resolutions i }.applyResolution r)

/-- SYNC_ENGINE_TAKEOVER (R336): the standby applies what the primary has not reported as applied, in order of arrival. -/
def execSyncEngineTakeover (s : State) : Out :=
  if !s.syncEngine.primary ∨ s.syncEngine.missed < 3 then .next s
  else .next (s.resolutions.foldl State.applyResolution
    { s with resolutions := [], syncEngine := { s.syncEngine with primary := false } })

end Sys2Proof.Machine
end

