-- ==== Sys2Proof/Machine/Queues.lean ====
section
/-! DEFINITION. Work queues and launches: doorbells, entries, wait conditions, completion; the BARs of a virtual function (R319 to
R323, R327, R328, R330, R403 to R405). -/
namespace Sys2Proof.Machine

/-! ### Ring slots (R404) -/

/-- A queue's number as the IV holds it. -/
def Queue.qid (q : Queue) : Nat := 128 * q.vf + q.q

/-- Its ring's handle. -/
def State.ringOf (s : State) (q : Queue) : Option Handle := s.handle q.ring

/-- Entry `n` of a queue, none when its tag fails to verify. -/
def State.entryAt (s : State) (q : Queue) (n : Nat) : Option (List Byte) :=
  (s.ringOf q).bind fun h =>
    let k := n % 2 ^ q.logN
    Config.gcmOpen (s.vfKey q.vf labelQueue) (bytesOfNat 4 q.qid ++ bytesOfNat 8 n) (bytesOfNat 4 q.qid)
      (s.handleRead h (64 * k) 64) (s.handleRead h (0x40000 + 16 * k) 16)

/-- The reads of entry `n` reach the stacks of its slot and tag (R406). -/
def State.touchEntry (s : State) (q : Queue) (n : Nat) : State :=
  match s.ringOf q with
  | none => s
  | some h =>
    let k := n % 2 ^ q.logN
    (s.handleTouch h (64 * k) 64).handleTouch h (0x40000 + 16 * k) 16

/-- A completion record sealed over an entry's slot and tag (R404). -/
def State.writeRecord (s : State) (q : Queue) (n : Nat) (bs : List Byte) : State :=
  match s.ringOf q with
  | none => s
  | some h =>
    let k := n % 2 ^ q.logN
    let (ct, tag) := Config.gcmSeal (s.vfKey q.vf labelQueue) (bytesOfNat 4 (q.qid + 2 ^ 31) ++ bytesOfNat 8 n) (bytesOfNat 4 q.qid) bs
    (s.handleWrite h (64 * k) (slice ct 0 64)).handleWrite h (0x40000 + 16 * k) (slice tag 0 16)

/-- Leading entries that have completed (R404). -/
def Queue.leading (q : Queue) : Nat := ((List.range (q.started + 1)).find? fun n => n ∉ q.done).getD q.started

/-- A queue of a VF. -/
def State.queue (s : State) (vf q : Nat) : Option Queue := s.queues.find? fun x => x.vf == vf && x.q == q
def State.setQueue (s : State) (vf q : Nat) (f : Queue → Queue) : State :=
  { s with queues := updateFirst (fun x => x.vf == vf && x.q == q) f s.queues }

/-! ### The checks of R322 -/

/-- Status codes of R328. -/
def lsUnplaceable : Nat := 1
def lsTerminated : Nat := 2
def lsContextError : Nat := 3
def lsBadRecord : Nat := 4

/-- The agent by which the root reads through a context's translation. -/
def rootHere (part vf : Nat) : Here := agentHere 0 part vf

/-- A role of a header, none where it breaks R321. -/
def roleAt (bs : List Byte) (k : Nat) : Option Role :=
  let e := field bs (32 + 16 * k) 8
  let w := field bs (40 + 16 * k) 8
  let f := bits w 0 4
  let d := bits w 4 7
  let g := bits w 11 9
  if e % 64 = 0 ∧ 1 ≤ f ∧ f ≤ 8 ∧ 8 * (f + d) ≤ 1024 ∧ 1 ≤ g ∧ g ≤ 256 ∧ w < 2 ^ 20 then some ⟨BitVec.ofNat 64 e, 8 * f, 8 * d, g⟩ else none

/-- The header of its first 128 bytes and its masks, none where it breaks R321 (log 28). -/
def headerOf (bs masks : List Byte) : Option Header :=
  let w := field bs 24 8
  let nrole := bits w 42 2 + 1
  let nset := bits w 44 9
  let roles := (List.range nrole).filterMap (roleAt bs)
  let total := (roles.map (·.g)).sum
  let sets := (List.range nset).map fun n => BitVec.ofNat 256 (field masks (32 * n) 32)
  let wdog := field bs 20 4
  let cores := bits w 0 3
  if field bs 0 8 % 64 = 0 ∧ 1000 ≤ wdog ∧ wdog ≤ 1000000000 ∧ (cores = 1 ∨ cores = 2 ∨ cores = 4) ∧ bits w 3 5 = 0 ∧ bits w 8 11 ≤ 1024 ∧
      bits w 19 9 ≤ 256 ∧ bits w 28 14 ≤ 8192 ∧ nset ≤ 256 ∧ w < 2 ^ 53 ∧ roles.length = nrole ∧ total ≤ 256 ∧
      ((List.range 4).all fun k => decide (k < nrole) || field bs (32 + 16 * k) 16 == 0) ∧ field bs 96 8 % 65536 = 0 ∧
      field bs 104 24 = 0 ∧ sets.all fun m => decide (m.toNat < 2 ^ total) then
    some { trap := BitVec.ofNat 64 (field bs 0 8), dtb := BitVec.ofNat 64 (field bs 8 8), dtl := field bs 16 4, wdog, cores
           shared := 1024 * bits w 8 11, tiles := bits w 19 9, scratch := bits w 28 14, roles, sets
           code := BitVec.ofNat 64 (field bs 96 8) }
  else none

/-- The header at an address of a context (R321, R322). -/
def State.readHeader (s : State) (vf part : Nat) (a : W64) : Option Header × State :=
  match s.readVa (rootHere part vf) true a 128 with
  | (.error _, s) => (none, s)
  | (.ok bs, s) =>
    match s.readVa (rootHere part vf) true (a + 128) (32 * bits (field bs 24 8) 44 9) with
    | (.error _, s) => (none, s)
    | (.ok ms, s) => (headerOf bs ms, s)

/-- Whether a header's needs can be met: false gives UNPLACEABLE (R208, R322). -/
def Header.placeable (h : Header) (q : Quota) : Bool :=
  let n := h.need
  (n.perCore.all fun p => decide (p.1 ≤ 4096 ∧ p.2 ≤ 64 ∧ p.1 ≤ 8 * q.positions ∧ p.2 ≤ q.slots)) &&
    decide (n.tiles ≤ 256 ∧ n.scratch ≤ 2048 ∧ n.gm ≤ 1024 ∧ n.gm ≤ q.gm ∧ n.sets ≤ q.sets ∧ n.tiles ≤ q.tiles ∧ n.scratch ≤ q.scratch)

/-- A launch record with nothing to run. -/
def blankLaunch (q : Queue) (id n start status : Nat) : Launch :=
  { id, vf := q.vf, part := q.part, q := q.q, entry := n, level := q.level, gangs := 0
    hdr := ⟨0, 0, 0, 0, 1, 0, 0, 0, [], [], 0⟩, priv := 0, psize := 0, diag := 0, tfb := 0, seed := 0, start, unplaced := [], stolen := []
    retired := 0, status, trec := false }

/-- Whether a private region is large enough for every role (R86, R322). -/
def Header.fitsRegion (h : Header) (psize : Nat) : Bool := h.roles.all fun r => decide (8192 + (r.f0 - 8) * 128 ≤ psize)

/-- The QUOTA that a launch is checked against: that in force while the context holds a bank, else the one its next LOADING takes. -/
def State.launchQuota (s : State) (vf part : Nat) : Quota :=
  match s.ctx vf part with
  | some c => quotaOf (if c.state == .absent || c.state == .saved || c.state == .terminated then s.quotaFor c else c.quota)
  | none => quotaOf 0

/-- A LAUNCH entry checked and started (R320 to R323). -/
def State.startLaunch (s : State) (q : Queue) (n : Nat) (bs : List Byte) : State :=
  let (id, s) := s.fresh
  let put (s : State) (l : Launch) : State := { s with launches := s.launches ++ [l] }
  let bad (s : State) (st : Nat) : State := put s (blankLaunch q id n s.time st)
  let w := field bs 0 8
  let f (i : Nat) : Nat := field bs (8 * i) 8
  let psize := bits w 8 16
  let gangs := bits w 24 32
  if bits w 5 3 ≠ 0 ∨ psize = 0 ∨ gangs = 0 ∨ bits w 56 8 ≠ 0 ∨ f 1 % 128 ≠ 0 ∨ f 2 % 65536 ≠ 0 ∨ f 3 % 8192 ≠ 0 ∨ f 4 % 8192 ≠ 0 ∨ f 6 % 8 ≠ 0 then
    bad s lsBadRecord
  else
    let (dok, s) := if f 3 = 0 then (true, s) else match s.mapVa (rootHere q.part q.vf) 65536 (BitVec.ofNat 64 (f 3)) 8192 (·.w) with
      | (.ok _, s) => (true, s)
      | (.error _, s) => (false, s)
    if !dok then bad s lsBadRecord
    else match s.readHeader q.vf q.part (BitVec.ofNat 64 (f 1)) with
      | (none, s) => bad s lsBadRecord
      | (some h, s) =>
        if !h.fitsRegion (65536 * psize) then bad s lsBadRecord
        else if !h.placeable (s.launchQuota q.vf q.part) then bad s lsUnplaceable
        else
          let dies := s.partDies q.part
          put s { blankLaunch q id n s.time 0 with
            gangs, hdr := h, priv := BitVec.ofNat 64 (f 2), psize := 65536 * psize, diag := BitVec.ofNat 64 (f 3)
            tfb := BitVec.ofNat 64 (f 4), seed := BitVec.ofNat 64 (f 5)
            unplaced := (List.range gangs).map fun g => (dies.getD (g % max dies.length 1) 0, g) }

/-- An INVALIDATE entry started (R330): TLB entries of the range are removed; LENGTH 0 means all. -/
def State.startInvalidate (s : State) (q : Queue) (n : Nat) (bs : List Byte) : State :=
  let (id, s) := s.fresh
  let f (i : Nat) : Nat := field bs (8 * i) 8
  let l := blankLaunch q id n s.time 0
  if f 0 ≠ 2 ∨ f 1 % 65536 ≠ 0 ∨ f 2 % 65536 ≠ 0 ∨ f 3 ≠ 0 ∨ f 4 ≠ 0 ∨ f 5 ≠ 0 ∨ f 6 % 8 ≠ 0 then
    { s with launches := s.launches ++ [{ l with status := lsBadRecord }] }
  else
    let lo := va55 (BitVec.ofNat 64 (f 1)) / 65536
    let hit (e : TlbEntry) : Bool := f 2 == 0 || decide (lo < e.vpage + e.pages ∧ e.vpage < lo + f 2 / 65536)
    { s.shootdown q.vf q.part hit with launches := s.launches ++ [{ l with inval := true }] }

/-! ### Starting (R319) -/

/-- Every entry that starts sees what the host loaded before its doorbell (R405): an acquire at .pkg on each partition die. -/
def State.acquirePart (s : State) (part : Nat) : State :=
  let dies := s.partDies part
  { s with
    l1 := s.l1.filter fun x => !(decide (x.die ∈ dies) && (s.gates.toList[4 * x.die + x.cluster / 10]?).map (·.part) == some part)
    l2 := s.l2.filter fun x => !(decide (x.die ∈ dies) && x.part == part && x.dirty == 0) }

/-- Whether an entry names a wait word (R319). One that breaks R320 waits for nothing (log 28). -/
def hasWait (bs : List Byte) : Bool := field bs 48 8 != 0 && field bs 48 8 % 8 == 0

/-- The wait word of an entry, read at the .pkg point; none where it does not read. -/
def State.waitWord (s : State) (q : Queue) (bs : List Byte) : Option Nat × State :=
  match s.readVa (rootHere q.part q.vf) true (BitVec.ofNat 64 (field bs 48 8)) 8 with
  | (.ok v, s) => (some (natOfBytes v), s)
  | (.error _, s) => (none, s)

/-- Whether the wait condition of an entry holds (R319); an entry whose word does not read starts, and fails its checks (R346). -/
def State.waitHolds (s : State) (q : Queue) (bs : List Byte) : Bool × State :=
  if !hasWait bs then (true, s)
  else match s.waitWord q bs with
    | (some v, s) => (decide (field bs 56 8 ≤ v), s)
    | (none, s) => (true, s)

/-- Whether the entry before the next one lets it start (R319). -/
def Queue.inOrder (q : Queue) (bs : Option (List Byte)) : Bool :=
  q.started == 0 || decide (q.started - 1 ∈ q.done) || (match bs with
    | some b => bits (field b 0 8) 0 5 == 17
    | none => false)

/-- Whether a context's entries may start at all (R402, R407 to R409). -/
def State.mayStart (s : State) (q : Queue) : Bool :=
  decide (4 ≤ s.bring) && !(s.partDies q.part).isEmpty && ((s.partDies q.part).all fun d => s.dieUp d) &&
    (match s.ctx q.vf q.part with
      | some c => !c.paused
      | none => false) &&
    (match s.policyOf q.vf with
      | some p => !p.permit.testBit 5 || (s.partDies q.part).all fun d => (s.die d).fullService
      | none => true)

/-- WAIT_CONDITION_POLL (R319): the root reads the wait word of the next entry of queue `i`: after a queue counter of the context has
changed, or every 100 µs. -/
def execWaitConditionPoll (i : Nat) (s : State) : Out :=
  match s.queues[i]? with
  | none => .next s
  | some q =>
    if q.taken ≤ q.started ∨ (q.lastPoll ≠ 0 ∧ s.time < q.lastPoll + 100000) then .next s
    else match s.entryAt q q.started with
      | none => .next s
      | some bs =>
        let (ok, s) := (s.touchEntry q q.started).waitHolds q bs
        .next (s.setQueue q.vf q.q fun q => { q with lastPoll := max s.time 1, waitOk := ok })

/-- Whether the condition held when the root last read the wait word, and no new read is due (R319). -/
def Queue.waitMet (q : Queue) (now : Nat) : Bool := q.waitOk && q.lastPoll != 0 && decide (now < q.lastPoll + 100000)

/-- ENTRY_START (R319, R322, R409): the next entry of queue `i` starts, and is checked. -/
def execEntryStart (i : Nat) (s : State) : Out :=
  match s.queues[i]? with
  | none => .next s
  | some q =>
    let n := q.started
    let bs := s.entryAt q n
    if q.taken ≤ n ∨ !s.mayStart q ∨ !q.inOrder bs ∨ (bs.any hasWait ∧ !q.waitMet s.time) then .next s
    else
      let s := ((s.touchEntry q n).setQueue q.vf q.q fun q => { q with started := n + 1, lastPoll := 0, waitOk := false }).acquirePart q.part
      let fail (st : Nat) : Out := let (id, s) := s.fresh; .next { s with launches := s.launches ++ [blankLaunch q id n s.time st] }
      if (s.ctx q.vf q.part).any fun c => c.state == .terminated then fail lsContextError
      else match bs with
        | none => fail lsBadRecord
        | some b =>
          if hasWait b && (s.waitWord q b).1.isNone then fail lsBadRecord
          else if bits (field b 0 8) 0 4 = 1 then .next (s.startLaunch q n b)
          else if bits (field b 0 8) 0 4 = 2 then .next (s.startInvalidate q n b)
          else fail lsBadRecord

/-! ### Completion (R327, R328) -/

/-- The completion record (R328). -/
def Launch.record (l : Launch) (now : Nat) : List Byte :=
  bytesOfNat 8 (l.status % 256 + (if l.trec then 256 else 0) + l.retired % 2 ^ 32 * 2 ^ 32) ++ bytesOfNat 8 l.start ++ bytesOfNat 8 now ++
    List.replicate 40 0

/-- A QDESTROY whose started entries have all completed completes (R400). -/
def State.settleQueue (s : State) (vf q : Nat) : State :=
  match s.queue vf q with
  | none => s
  | some x =>
    match x.dying with
    | some (pf, tag) =>
      if (List.range x.started).all fun n => n ∈ x.done then
        { s with queues := s.queues.filter fun y => !(y.vf == vf && y.q == q) }.respond pf tag 0
      else s
    | none => s

/-- Whether a launch has come to its end: every gang has retired, or it ended without running further (R327, R329). -/
def State.launchOver (s : State) (l : Launch) : Bool :=
  (l.status != 0 || l.unplaced.isEmpty) && (s.gangs.all fun g => g.launch != l.id) && s.saved.all fun v => v.gang.launch != l.id

/-- Whether something of a context that began before an INVALIDATE still holds a translation (R330): a fetch, an operation with addresses
translated at its issue. -/
def State.oldAccess (s : State) (l : Launch) : Bool :=
  l.inval && ((s.fetchq.any fun e => e.vf == l.vf && e.part == l.part) ||
    s.ops.any fun o => o.vf == l.vf && o.part == l.part && decide (o.id < l.id) && match o.kind with
      | .ixred _ | .gred _ => true
      | _ => false)

/-- LAUNCH_COMPLETE (R327, R330): release at .sys, then the completion record, then the queue counter, then the queue's vector. -/
def execLaunchComplete (i : Nat) (s : State) : Out :=
  match s.launches[i]? with
  | none => .next s
  | some l =>
    let mine (o : StoreOp) : Bool := o.vf == l.vf && o.part == l.part
    if !s.launchOver l ∨ s.oldAccess l ∨ s.wq.any fun o => mine o && o.unanswered then .next s
    else
      let s := if l.inval then s.performCtx l.vf l.part else s
      let s := s.drainQueue fun o => mine o && !(s.allGroups.any fun g => g.key == o.group)
      let s := (s.cleanPart fun x => x.part == l.part).ackAll fun x => x.part == l.part
      let s := { s with launches := s.launches.filter fun x => x.id != l.id }
      match s.queue l.vf l.q with
      | none => .next (s.settleCtx l.vf l.part)
      | some q =>
        let s := (s.writeRecord q l.entry (l.record s.time)).redBase (rootHere q.part q.vf) (BitVec.ofNat 64 q.ctr) 1
        let s := if q.intr then s.tell [.msix q.vf q.q] else s
        let s := s.setQueue q.vf q.q fun x => { x with done := l.entry :: x.done }
        let s := { s with queues := updateAll (fun x => x.vf == q.vf && x.part == q.part) (fun x => { x with lastPoll := 0 }) s.queues }
        .next ((s.settleQueue q.vf q.q).settleCtx l.vf l.part)

/-! ### The BARs of a virtual function (R403 to R405) -/

/-- Whether the host port serves writes (R408, R410). -/
def State.serving (s : State) : Bool := decide (3 ≤ s.bring) && !s.fatal

/-- DOORBELL (R404): one that takes entries wakes the units of the queue's partition (R407). -/
def execDoorbell (vf q t : Nat) (s : State) : Out :=
  match s.queue vf q with
  | none => .next s
  | some x =>
    if !s.serving ∨ t ≤ x.taken ∨ x.dying.isSome then .next s
    else if x.leading + 2 ^ x.logN < t then .next (s.setQueue vf q fun x => { x with overrun := true })
    else .next ((s.setQueue vf q fun x => { x with taken := t }).wakeUnits x.part)

/-- QSTAT_WRITE (R403): OVERRUN is cleared by writing 1. -/
def execQstatWrite (vf q : Nat) (v : W64) (s : State) : Out :=
  .next (if s.serving && v.getLsbD 1 then s.setQueue vf q fun x => { x with overrun := false } else s)

/-- LOAD_RECORD (R405): a VF that nothing has been set up for has no live handle, and rejects it. -/
def execLoadRecord (vf off : Nat) (bytes : List Byte) (s : State) : Out :=
  let ctr := field bytes 272 8
  let id := field bytes 280 8
  let o := field bytes 288 8
  let reject : Out := .next (s.setVf vf fun v => { v with lerr := (v.lerr + 1) % 2 ^ 64 })
  if !s.serving ∨ 1024 ≤ vf then .next s
  else if off % 512 ≠ 0 ∨ bytes.length ≠ 512 ∨ ctr ≤ ((s.vf vf).map (·.lstat)).getD 0 ∨ o % 256 ≠ 0 ∨ field bytes 296 216 ≠ 0 then reject
  else match s.handle id, Config.gcmOpen (s.vfKey vf labelLoad) (bytesOfNat 2 vf ++ [2, 0] ++ bytesOfNat 8 ctr)
      (slice bytes 280 8 ++ slice bytes 288 8 ++ slice bytes 272 8) (slice bytes 0 256) (slice bytes 256 16) with
    | some h, some p =>
      if h.vf ≠ vf ∨ h.size < o + 256 then reject
      else .next ((s.handleWrite h o (slice p 0 256)).setVf vf fun v => { v with lstat := ctr })
    | _, _ => reject

/-- What a read of a VF's BAR0 returns (R4, R403): a W1C bit its value, a write-only register and reserved bits 0. -/
def State.bar0Read (s : State) (vf off : Nat) : Nat :=
  if off < 0x800 then 0
  else if off < 0x1000 then
    if off % 8 ≠ 0 then 0
    else match s.queue vf ((off - 0x800) / 8) with
      | some q => 1 + (if q.overrun then 2 else 0) + 2 ^ 16 * (q.taken % 2 ^ 48)
      | none => 0
  else if off = 0x1000 then ((s.vf vf).map (·.lstat)).getD 0
  else if off = 0x1008 then
    ((List.range 6).map fun d => (if (s.die d).fullService then 2 ^ d else 0) + if (s.die d).present && !(s.die d).failed then 2 ^ (6 + d) else 0).sum
  else if off = 0x1010 then ((s.vf vf).map (·.lerr)).getD 0 % 2 ^ 64
  else 0

/-- What a read of a PF's BAR0 returns (R399): the mailbox's response, whose DONE is clear while a command runs; elsewhere 0. -/
def State.pfRead (s : State) (i off : Nat) : Nat :=
  let p := s.pfs.toList.getD i {}
  if 0x2040 ≤ off ∧ off < 0x2080 then
    let v := natOfBytes (slice p.response (off - 0x2040) 8)
    if off = 0x2040 ∧ v.testBit 8 ∧ !p.done then v - 256 else v
  else 0

/-- LSTAT_READ (R403, R405): a read of 8 bytes of a VF's BAR0, of LSTAT or of another register; earlier records have been taken, each at its
own event. The register is named by its function and its offset; functions 1,024 and 1,025 are the two PFs (log 71). -/
def execLstatRead (reg : Nat) (s : State) : Out :=
  let vf := reg / 65536
  let off := reg % 65536
  .next (if !s.serving then s
    else s.tell [.readValue vf (if vf < 1024 then s.bar0Read vf off else s.pfRead (vf - 1024) off)])

/-- Whether a byte of a ring window is that of a slot or of a tag (R404). -/
def Queue.inRing (q : Queue) (o : Nat) : Bool :=
  decide (o < 64 * 2 ^ q.logN) || decide (0x40000 ≤ o ∧ o < 0x40000 + 16 * 2 ^ q.logN)

/-- A byte that a read of a VF's BAR4 returns (R404): that of a slot or tag, elsewhere 0. -/
def State.bar4Read (s : State) (vf off : Nat) : Nat :=
  match s.queue vf (off / 0x80000) with
  | some q => match s.ringOf q with
    | some h => if q.inRing (off % 0x80000) then ((s.handleRead h (off % 0x80000) 1).headD 0).toNat else 0
    | none => 0
  | none => 0

end Sys2Proof.Machine
end

