-- ==== Sys2Proof/Machine/Host.lean ====
section
/-! DEFINITION. The physical functions: SPDM sessions, keys, policies and the mailbox's commands (R387 to R402, R412, R413, R418). -/
namespace Sys2Proof.Machine

/-! ### Ports and sessions (R388, R390, R391) -/

/-- The port of a VF: 0 or 1; 2 for a number that is no VF's (R388). -/
def portOf (vf : Nat) : Nat := if vf < 512 then 0 else if vf < 1024 then 1 else 2

/-- A physical function. -/
def State.pf (s : State) (i : Nat) : Pf := s.pfs.toList.getD i {}
def State.setPf (s : State) (i : Nat) (f : Pf → Pf) : State := { s with pfs := s.pfs.setIfInBounds i (f (s.pf i)) }

/-- Whether a port's mailbox is served: by its own root instance, or by the other one after a takeover (R390, R408, R410). -/
def State.portServed (s : State) (i : Nat) : Bool :=
  decide (i ≤ 1) && s.serving && !((s.pf i).alive && decide (3 ≤ s.roots.missed) && s.roots.primary == (i == 0))

/-- An SPDM ERROR response (R392). -/
def State.spdmError (s : State) (i : Nat) : State := s.tell [.spdm i true []]

/-- The options that the device supports, and no others (R391). -/
def spdmChosen : Config.SpdmOptions := ⟨true, true, true, true, true, false, false⟩

/-- Whether a request keeps to them (R391): negotiation offers each algorithm; no request needs a pre-shared key or mutual
authentication. -/
def spdmKeeps (code : Nat) (o : Config.SpdmOptions) : Bool :=
  !o.psk && !o.peerAuth && (code != 0xE3 || (o.asym && o.hash && o.measurement && o.dhe && o.aead))

/-- The binding table (R391, R392): each bound VF and its key. -/
def State.bindingTable (s : State) : List Byte :=
  (List.range 1024).flatMap fun v => match (s.vf v).bind (·.bound) with
    | some k => bytesOfNat 2 v ++ k
    | none => []

/-- The measurements (R391), by SM3: root firmware, the NMUs' control store image, compute-die firmware, the binding table. -/
def State.measurements (s : State) : List (List Byte) :=
  [Config.sm3 (Config.firmware 1), Config.sm3 (s.control.flatMap (fun w => bytesOfNat 16 w.toNat) ++ s.entries.flatMap (bytesOfNat 4)),
    Config.sm3 (Config.firmware 3), Config.sm3 s.bindingTable]

/-- An SPDM request that the responder answers when its place in the handshake and its own checks allow (R391, log 10, log 30):
`code` its request code, `ok` by how far the handshake is, `f` what an accepted one changes. -/
def State.spdm (s : State) (i code : Nat) (req : List Byte) (ok : Pf → Bool) (f : Pf → Pf) : Out :=
  if !s.portServed i then .next s
  else
    let p := s.pf i
    if !ok p || !spdmKeeps code (Config.spdmOptions code req) || !Config.spdmAccepts code p.transcript req then .next (s.spdmError i)
    else
      let reply := Config.spdmReply code spdmChosen s.measurements p.transcript req
      .next ((s.setPf i fun p => f { p with transcript := p.transcript ++ req ++ reply }).tell [.spdm i false reply])

/-- GET_VERSION (R391): a handshake begins again, and a session with it. -/
def execGetVersion (pf : Nat) (req : List Byte) (s : State) : Out :=
  (s.setPf pf fun p => { p with transcript := [], stage := 0, session := false }).spdm pf 0x84 req (fun _ => true) fun p => { p with stage := 1 }

/-- GET_CAPABILITIES (R391). -/
def execGetCapabilities (pf : Nat) (req : List Byte) (s : State) : Out :=
  s.spdm pf 0xE1 req (fun p => p.stage == 1) fun p => { p with stage := 2 }

/-- NEGOTIATE_ALGORITHMS (R391): only the algorithms of the table. -/
def execNegotiateAlgorithms (pf : Nat) (req : List Byte) (s : State) : Out :=
  s.spdm pf 0xE3 req (fun p => p.stage == 2) fun p => { p with stage := 3 }

/-- GET_DIGESTS (R391). -/
def execGetDigests (pf : Nat) (req : List Byte) (s : State) : Out := s.spdm pf 0x81 req (fun p => decide (3 ≤ p.stage)) id

/-- GET_CERTIFICATE (R391). -/
def execGetCertificate (pf : Nat) (req : List Byte) (s : State) : Out := s.spdm pf 0x82 req (fun p => decide (3 ≤ p.stage)) id

/-- CHALLENGE (R391). -/
def execChallenge (pf : Nat) (req : List Byte) (s : State) : Out := s.spdm pf 0x83 req (fun p => decide (3 ≤ p.stage)) id

/-- GET_MEASUREMENTS (R391). -/
def execGetMeasurements (pf : Nat) (req : List Byte) (s : State) : Out := s.spdm pf 0xE0 req (fun p => decide (3 ≤ p.stage)) id

/-- KEY_EXCHANGE (R391). -/
def execKeyExchange (pf : Nat) (req : List Byte) (s : State) : Out :=
  s.spdm pf 0xE4 req (fun p => decide (3 ≤ p.stage) && !p.session) fun p => { p with stage := 4 }

/-- FINISH (R391): the secured session begins. -/
def execFinish (pf : Nat) (req : List Byte) (s : State) : Out :=
  s.spdm pf 0xE5 req (fun p => p.stage == 4) fun p => { p with stage := 3, session := true }

/-- END_SESSION (R391). -/
def execEndSession (pf : Nat) (req : List Byte) (s : State) : Out :=
  s.spdm pf 0xEC req (fun p => p.session) fun p => { p with session := false }

/-! ### Keys and policies (R392 to R395) -/

/-- A vendor-defined request of a secured session that names a VF of its port (R392): `f` its effect and reply, none where it is
refused. -/
def State.vendor (s : State) (i vf : Nat) (f : State → Option (List Byte × State)) : Out :=
  if !s.portServed i then .next s
  else if !(s.pf i).session ∨ portOf vf ≠ i then .next (s.spdmError i)
  else match f s with
    | some (reply, s) => .next (s.tell [.spdm i false reply])
    | none => .next (s.spdmError i)

/-- A VF's master secret set (R392, R396): what its handles' sectors hold was written under the old pair of keys, and now reads under the
new one. -/
def State.rekey (s : State) (vf : Nat) (secret : List Byte) : State :=
  let t := s.setVf vf fun v => { v with secret := some secret }
  if (s.vf vf).bind (·.secret) = some secret then t
  else
    let pages := (s.handles.filter fun h => h.vf == vf).flatMap fun h => match h.kind with
      | .memory ps => ps
      | .window _ _ _ _ => []
    pages.foldl (fun u p => u.rereadPage (s.vfPair vf) (t.vfPair vf) p) t

/-- KEY_SET (R392): a 32-byte master secret, unless the VF has a context that is not ABSENT or is bound under another secret. -/
def execKeySet (pf vf : Nat) (secret : List Byte) (s : State) : Out :=
  s.vendor pf vf fun s =>
    let other : Bool := match s.vf vf with
      | some v => v.bound.isSome && v.secret.isSome && v.secret != some secret
      | none => false
    if secret.length ≠ 32 ∨ (s.ctxs.any fun c => c.vf == vf && c.state != .absent) ∨ other then none
    else some ([], s.rekey vf secret)

/-- An entry of KINDS (R394): base, length, kind; none inside for an unused one, none where it breaks its layout. -/
def kindsEntry (b : List Byte) (k : Nat) : Option (Option (Nat × Nat × Kind)) :=
  let w := field b (160 + 16 * k) 8
  let len := field b (168 + 16 * k) 8
  if w % 65536 ≥ 4 ∨ len % 65536 ≠ 0 then none
  else match w % 4 with
    | 0 => some none
    | 1 => some (some (w - 1, len, .atomicHome))
    | 2 => some (some (w - 2, len, .host))
    | _ => none

/-- Two entries of KINDS that do not overlap. -/
def kindsApart (a b : Nat × Nat × Kind) : Bool := decide (a.1 + a.2.1 ≤ b.1 ∨ b.1 + b.2.1 ≤ a.1)

/-- Check 1 of R395, with R418: the fields of a policy, none where one breaks its limits. -/
def policyOfBytes (b : List Byte) : Option Policy :=
  let permit := field b 80 8
  let quota := field b 88 8
  let q := field b 104 8
  let queues := (List.range 4).map fun i => bits q (8 * i) 8
  let slice_ := field b 112 8
  let wall := field b 120 8
  let rb := field b 128 8
  let kinds := (List.range 16).map (kindsEntry b)
  let ks := kinds.filterMap fun k => k.bind id
  let peers := (List.range 32).map fun k => field b (416 + 8 * k) 8
  let valid := (peers.filter fun p => p.testBit 63).map fun p => (bits p 0 9, bits p 16 10, bits p 26 5)
  let xs := (List.range 16).map fun k => field b (672 + 4 * k) 4
  let x := quotaOf quota
  if b.length = 832 ∧ field b 0 4 = 1 ∧ field b 4 4 = 0 ∧ field b 8 8 ≠ 0 ∧ permit < 64 ∧ bits permit 3 2 ≤ 1 ∧
      x.positions ≤ 512 ∧ x.slots ≤ 64 ∧ x.gm ≤ 1024 ∧ x.sets ≤ 256 ∧ x.tiles ≤ 256 ∧ x.scratch ≤ 2048 ∧ quota < 2 ^ 58 ∧
      queues.sum ≤ 128 ∧ q < 2 ^ 48 ∧ 10000 ≤ slice_ ∧ slice_ ≤ wall ∧ 1000 ≤ field b 136 8 ∧ field b 144 8 % 65536 = 0 ∧
      field b 152 8 % 16 = 0 ∧ kinds.all Option.isSome ∧
      ((List.range ks.length).all fun i => (ks.drop (i + 1)).all (kindsApart (ks.getD i (0, 0, .normal)))) ∧
      (peers.all fun p => bits p 9 7 == 0 && bits p 31 32 == 0) ∧ (distinct (valid.map (·.1))).length = valid.length ∧ field b 736 32 = 0 then
    some
      { version := field b 8 8, pubkey := slice b 16 64, permit, quota, memq := field b 96 8, queues, maxHandles := bits q 32 16
        slice := slice_, wall, rate := bits rb 0 32, burst := bits rb 32 32, ltol := field b 136 8, s1root := field b 144 8
        dfc := field b 152 8, kinds := ks
        peers := valid
        xgroups := xs.filter (· != 0) }
  else none

/-- A policy put in force (R392, R395): what its new PEERS no longer hold leaves the remote TLBs. -/
def State.enforce (s : State) (vf : Nat) (p : Policy) : State :=
  let parts := (s.ctxs.filter fun c => c.vf == vf).map (·.part)
  let s := parts.foldl (fun s q => s.tellPeers vf q) s
  let s := s.setVf vf fun v => { v with policy := some p, bound := some p.pubkey, freed := v.bound.isSome && v.freed }
  { s with
    rtlb := s.rtlb.filter fun e => !(e.vf == vf || e.peer == s.pkg)
    ctxs := updateAll (fun c => c.vf == vf) (fun c => { c with pver := p.version }) s.ctxs }

/-- POLICY_SET (R392, R395): the four checks in order. -/
def execPolicySet (pf vf : Nat) (policy : List Byte) (s : State) : Out :=
  s.vendor pf vf fun s =>
    match policyOfBytes policy with
    | none => none
    | some p =>
      let bound := (s.vf vf).bind (·.bound)
      if !Config.sm2Verify p.pubkey (slice policy 0 768) (slice policy 768 64) then none
      else if !(bound.isNone || bound == some p.pubkey) then none
      else if p.version ≤ ((s.policyOf vf).map (·.version)).getD 0 then none
      else some ([], s.enforce vf p)

/-- VF_QUERY (R392). -/
def execVfQuery (pf vf : Nat) (s : State) : Out :=
  s.vendor pf vf fun s =>
    some (Config.sm3 (((s.vf vf).bind (·.bound)).getD []) ++ bytesOfNat 8 (((s.policyOf vf).map (·.version)).getD 0), s)

/-! ### The mailbox (R399, R401) -/

/-- STATUS values (R401). -/
def mbOk : Nat := 0
def mbDenied : Nat := 1
def mbArgument : Nat := 2
def mbHandle : Nat := 3
def mbState : Nat := 4
def mbResource : Nat := 5
def mbNoPolicy : Nat := 6
def mbRetry : Nat := 7

/-- What a command comes to: STATUS, results, the state it leaves. -/
abbrev Reply := Nat × List Nat × State
def State.ok (s : State) (result : List Nat := []) : Reply := (mbOk, result, s)
def State.no (s : State) (status : Nat) : Reply := (status, [], s)

/-- A command given through a mailbox that is served and not busy; the write to 0x2080 is ignored while DONE is 0 (R399). -/
def State.mailbox (s : State) (pf tag op : Nat) (operands : List Nat) (f : State → Reply) : Out :=
  if !s.portServed pf || !(s.pf pf).done then .next s
  else
    let (status, result, s) := f (s.setPf pf fun p => { p with command := mailWords op tag operands })
    .next (s.respond pf tag status result)

/-- A VF has a policy and keys (R401). -/
def State.hasPolicy (s : State) (vf : Nat) : Bool :=
  match s.vf vf with
  | some v => v.policy.isSome && v.secret.isSome
  | none => false

/-- A live handle of a VF, of memory. -/
def Handle.isMemory (h : Handle) : Bool :=
  match h.kind with
  | .memory _ => true
  | .window _ _ _ _ => false
def State.ownHandle (s : State) (vf id : Nat) : Option Handle := (s.handle id).filter fun h => h.vf == vf

/-- PERMIT bits (R394). -/
def State.permits (s : State) (vf bit : Nat) : Bool := ((s.policyOf vf).map fun p => p.permit.testBit bit).getD false

/-- Pages that the handles of a VF cover. -/
def State.pagesOf (s : State) (vf : Nat) : Nat :=
  ((s.handles.filter fun h => h.vf == vf).map fun h => match h.kind with
    | .memory ps => ps.length
    | .window _ _ _ _ => 0).sum

/-- Live handles of a VF. -/
def State.handleCount (s : State) (vf : Nat) : Nat := s.handles.countP fun h => h.vf == vf

/-! ### Handles and mappings (R400) -/

/-- ALLOC (R396, R400): zeroed pages of bands of the mode asked for. -/
def execAlloc (pf tag vf size : Nat) (localBand : Bool) (stack : Nat) (s : State) : Out :=
  s.mailbox pf tag 0x01 [vf, size, (if localBand then 1 else 0) + 2 * stack] fun s =>
    if portOf vf ≠ pf ∨ size = 0 ∨ 12 ≤ stack then s.no mbArgument
    else if !s.hasPolicy vf then s.no mbNoPolicy
    else
      let p := s.policyOf vf
      if (p.map (·.memq)).getD 0 < s.pagesOf vf + size ∨ (p.map (·.maxHandles)).getD 0 ≤ s.handleCount vf then s.no mbDenied
      else
        let fits (page : Nat) : Bool :=
          let i := page / 16384
          if i / 12 * 12 ∈ s.regions then localBand && i % 12 == stack else !localBand
        let ps := s.findPages fits pageCount 0 size
        if ps.length < size then s.no mbResource
        else
          let (id, s) := (ps.foldl State.scrub s).fresh
          let h : Handle := ⟨id, vf, .memory ps, none⟩
          State.ok (({ s with handles := s.handles ++ [h] }).setVf vf fun v => { v with freed := false }) [id]

/-- HWIN (R397, R400): a host window, placed in the host aperture. -/
def execHwin (pf tag vf dataBase tagBase len : Nat) (s : State) : Out :=
  s.mailbox pf tag 0x02 [vf, dataBase, tagBase, len] fun s =>
    if portOf vf ≠ pf ∨ len = 0 then s.no mbArgument
    else if !s.hasPolicy vf then s.no mbNoPolicy
    else
      let p := s.policyOf vf
      if ((p.map (·.kinds)).getD []).all (fun k => k.2.2 != .host) ∨ (p.map (·.maxHandles)).getD 0 ≤ s.handleCount vf then s.no mbDenied
      else
        let taken := s.handles.filterMap fun h => match h.kind with
          | .window _ _ n base => some ((base - Config.hostAperture) / 65536, n / 65536)
          | .memory _ => none
        match firstFit ((2 ^ 40 - Config.hostAperture) / 65536) len taken with
        | none => s.no mbResource
        | some b =>
          let (id, s) := s.fresh
          let h : Handle := ⟨id, vf, .window dataBase tagBase (65536 * len) (Config.hostAperture + 65536 * b), none⟩
          State.ok (({ s with handles := s.handles ++ [h] }).setVf vf fun v => { v with freed := false }) [id]

/-- Mappings removed, with every translation of them (R330, R400). -/
def State.unmapPages (s : State) (vf part : Nat) (p : MapRec → Bool) : State :=
  let mine (m : MapRec) : Bool := m.vf == vf && m.part == part && p m
  match s.ctx vf part with
  | none => s
  | some c =>
    let s := (s.maps.filter mine).foldl (fun s m => s.uninstall c.s2root m.ipage) s
    let s := { s with maps := s.maps.filter fun m => !mine m }
    let free (h : Handle) : Bool := s.maps.all fun m => m.handle != h.id
    { s with handles := s.handles.map fun h => if free h then { h with part := none } else h }.shootdown vf part fun _ => true

/-- FREE (R392, R396, R400): the memory is scrubbed, its last mappings go, the handle dies. -/
def execFree (pf tag handle : Nat) (s : State) : Out :=
  s.mailbox pf tag 0x03 [handle] fun s =>
    match (s.handle handle).filter fun h => portOf h.vf == pf with
    | none => s.no mbHandle
    | some h =>
      let maps := s.maps.filter fun m => m.handle == handle
      let live (m : MapRec) : Bool := (s.ctx m.vf m.part).any fun c => !(c.state == .absent || c.state == .terminated)
      if !s.hasPolicy h.vf then s.no mbNoPolicy
      else if maps.any live then s.no mbState
      else
        let s := (distinct (maps.map (·.part))).foldl (fun s part => s.unmapPages h.vf part fun m => m.handle == handle) s
        let s := match h.kind with
          | .memory ps => ps.foldl State.scrub s
          | .window _ _ _ _ => s
        let s := { s with handles := s.handles.filter fun x => x.id != handle }
        let s := if s.handles.any fun x => x.vf == h.vf then s else s.setVf h.vf fun v => { v with freed := true }
        (s.settleBind h.vf).ok

/-- The KINDS that hold for a context now (R395): those of its last LOADING, else the policy's. -/
def State.kindsOf (s : State) (vf part : Nat) : List (Nat × Nat × Kind) :=
  let p := ((s.policyOf vf).map (·.kinds)).getD []
  match s.ctx vf part with
  | some c => if c.state = .absent ∨ c.state = .terminated then p else c.kinds
  | none => p

/-- The kind of an intermediate page: NORMAL outside every entry (R394). -/
def kindAt (ks : List (Nat × Nat × Kind)) (ipage : Nat) : Kind :=
  ((ks.find? fun k => decide (k.1 ≤ 65536 * ipage ∧ 65536 * ipage < k.1 + k.2.1)).map (·.2.2)).getD .normal

/-- MAP of one page: an earlier mapping of it is replaced. -/
def State.mapPage (s : State) (vf part : Nat) (h : Handle) (ipage page : Nat) (k : Kind) : Option State := do
  let c ← s.ctx vf part
  let ppage ← match h.kind with
    | .memory ps => ps[page]?
    | .window _ _ _ base => some (base / 65536 + page)
  let s := s.unmapPages vf part fun m => m.ipage == ipage
  let s ← s.installLeaf c.s2root ipage ppage k
  some { s with maps := s.maps ++ [⟨vf, part, h.id, ipage, [ppage], k⟩] }

/-- MAP (R389, R400). -/
def execMap (pf tag vf part handle ia off len : Nat) (s : State) : Out :=
  s.mailbox pf tag 0x04 [vf, part, handle, ia, off, len] fun s =>
    let n := len / 65536
    let ks := s.kindsOf vf part
    let pages := (List.range n).map fun i => ia / 65536 + i
    if portOf vf ≠ pf ∨ 24 ≤ part ∨ len = 0 ∨ len % 65536 ≠ 0 ∨ ia % 65536 ≠ 0 ∨ off % 65536 ≠ 0 ∨ 2 ^ 55 < ia + len then s.no mbArgument
    else match s.ownHandle vf handle with
      | none => s.no mbHandle
      | some h =>
        if h.size < off + len then s.no mbArgument
        else if !s.hasPolicy vf then s.no mbNoPolicy
        else if !pages.all fun p => (kindAt ks p == .host) != h.isMemory then s.no mbDenied
        else if h.part.isSome ∧ h.part ≠ some part then s.no mbState
        else
          let r := (s.needCtx vf part).bind fun s =>
            pages.foldl (fun (t : Option State) p => t.bind fun t => t.mapPage vf part h p (off / 65536 + (p - ia / 65536)) (kindAt ks p)) (some s)
          match r with
          | none => s.no mbResource
          | some t => { t with handles := updateAll (fun x => x.id == handle) (fun x => { x with part := some part }) t.handles }.ok

/-- UNMAP (R330, R400). -/
def execUnmap (pf tag vf part ia len : Nat) (s : State) : Out :=
  s.mailbox pf tag 0x05 [vf, part, ia, len] fun s =>
    if portOf vf ≠ pf ∨ 24 ≤ part ∨ len = 0 ∨ len % 65536 ≠ 0 ∨ ia % 65536 ≠ 0 then s.no mbArgument
    else if !s.hasPolicy vf then s.no mbNoPolicy
    else
      let hit (m : MapRec) : Bool := decide (ia / 65536 ≤ m.ipage ∧ m.ipage < (ia + len) / 65536)
      ((s.unmapPages vf part hit).performCtx vf part).ok

/-! ### Queues (R400, R404) -/

/-- The kind of the page that holds a virtual address of a context, as its next LOADING would translate it. -/
def State.kindOfVa (s : State) (vf part : Nat) (a : W64) : Option Kind :=
  let root := ((s.policyOf vf).map (·.s1root)).getD 0
  let t := s.setCtx vf part fun c => if c.state = .absent ∨ c.state = .terminated then { c with s1root := root } else c
  match ((if t.holdsBank vf part then t else { t with tlb := [] }).translateFor (agentHere 0 part vf).die part vf a fun _ => true).1 with
  | .ok x => some x.kind
  | .error _ => none

/-- QCREATE (R319, R400, R404); INTR is bit 0 of the counter VA's dword (log 71). -/
def execQcreate (pf tag vf part q level handle logN ctr : Nat) (intr : Bool) (s : State) : Out :=
  s.mailbox pf tag 0x06 [vf, part, q, level, handle, logN, ctr + if intr then 1 else 0] fun s =>
    let h := (s.ownHandle vf handle).filter Handle.isMemory
    if portOf vf ≠ pf ∨ 24 ≤ part ∨ 128 ≤ q ∨ 4 ≤ level ∨ logN < 4 ∨ 12 < logN ∨ ctr % 8 ≠ 0 ∨ 2 ^ 64 ≤ ctr ∨
        s.kindOfVa vf part (BitVec.ofNat 64 ctr) ≠ some .atomicHome ∨ (h.map fun h => decide (h.size < 327680)) = some true then
      s.no mbArgument
    else if h.isNone then s.no mbHandle
    else if !s.hasPolicy vf then s.no mbNoPolicy
    else if (((s.policyOf vf).map (·.queues)).getD []).getD level 0 ≤ s.queues.countP fun x => x.vf == vf && x.level == level then s.no mbDenied
    else if (s.queue vf q).isSome then s.no mbState
    else match s.needCtx vf part with
      | none => s.no mbResource
      | some s =>
        let x : Queue :=
          { vf, q, part, level, ring := handle, logN, ctr, intr, taken := 0, started := 0, done := [], overrun := false, dying := none
            lastPoll := 0, waitOk := false }
        { s with queues := s.queues ++ [x] }.ok

/-- QDESTROY (R400): it answers once every started entry has completed. -/
def execQdestroy (pf tag vf q : Nat) (s : State) : Out :=
  if !s.portServed pf || !(s.pf pf).done then .next s
  else
    let s := s.setPf pf fun p => { p with command := mailWords 0x07 tag [vf, q], done := false }
    if portOf vf ≠ pf ∨ 128 ≤ q then .next (s.respond pf tag mbArgument)
    else if !s.hasPolicy vf then .next (s.respond pf tag mbNoPolicy)
    else if (s.queue vf q).isNone then .next (s.respond pf tag mbState)
    else .next ((s.setQueue vf q fun x => { x with dying := some (pf, tag) }).settleQueue vf q)

/-! ### Contexts (R400, R402) -/

/-- A command on a context that needs a permission (R400, R401). -/
def State.ctxCommand (s : State) (pf tag op vf part bit : Nat) (f : State → State) : Out :=
  s.mailbox pf tag op [vf, part] fun s =>
    if portOf vf ≠ pf ∨ 24 ≤ part then s.no mbArgument
    else if !s.hasPolicy vf then s.no mbNoPolicy
    else if !s.permits vf bit then s.no mbDenied
    else match s.needCtx vf part with
      | none => s.no mbResource
      | some s => (f s).ok

/-- PAUSE (R331, R400, R402): an ACTIVE context's slice ends at once and it stays RESIDENT; one with nothing left to do is ABSENT. -/
def execPause (pf tag vf part : Nat) (s : State) : Out :=
  s.ctxCommand pf tag 0x08 vf part 0 fun s =>
    let s := match s.ctx vf part with
      | some c => if c.state = CtxState.active then s.stopSlice c true else s
      | none => s
    (s.setCtx vf part fun c => { c with paused := true }).settleCtx vf part

/-- UNPAUSE (R400). -/
def execUnpause (pf tag vf part : Nat) (s : State) : Out :=
  s.ctxCommand pf tag 0x09 vf part 0 fun s => s.setCtx vf part fun c => { c with paused := false }

/-- EVICT (R331, R400, R402, log 26). -/
def execEvict (pf tag vf part : Nat) (s : State) : Out :=
  s.ctxCommand pf tag 0x0A vf part 1 fun s => (s.evict vf part).finishSaving vf part

/-- RESIZE (R400, R402). -/
def execResize (pf tag vf part quota : Nat) (s : State) : Out :=
  s.mailbox pf tag 0x0B [vf, part, quota] fun s =>
    let x := quotaOf quota
    if portOf vf ≠ pf ∨ 24 ≤ part ∨ 2 ^ 58 ≤ quota ∨ !x.le ⟨512, 64, 1024, 256, 256, 2048⟩ then s.no mbArgument
    else if !s.hasPolicy vf then s.no mbNoPolicy
    else if !s.permits vf 2 ∨ !x.le (quotaOf (((s.policyOf vf).map (·.quota)).getD 0)) then s.no mbDenied
    else match s.needCtx vf part with
      | none => s.no mbResource
      | some s =>
        let s := s.setCtx vf part fun c => { c with resize := some quota }
        (match s.ctx vf part with
          | some c => if c.state = CtxState.resident then (s.evict vf part).finishSaving vf part else s
          | none => s).ok

/-- PARTITION (R387, R400, log 26): the contexts of both partitions are saved, then the quadrant moves. -/
def execPartition (pf tag die quad part : Nat) (s : State) : Out :=
  s.mailbox pf tag 0x0C [die, quad, part] fun (s : State) =>
    let a := ((s.gates.toList[4 * die + quad]?).map (·.part)).getD 31
    let on (c : Ctx) : Bool := (c.part == a || c.part == part) && c.state != .absent
    if 6 ≤ die ∨ 4 ≤ quad ∨ (24 ≤ part ∧ part ≠ 31) ∨ (s.die die).failed then s.no mbArgument
    else if s.ctxs.any fun c => on c && !s.permits c.vf 2 then s.no mbDenied
    else if a = part then s.ok
    else
      let s : State := { s with moving := (s.moving.filter fun (m : Nat × Nat × Nat) => !(m.1 == die && m.2.1 == quad)) ++ [(die, quad, part)] }
      let s := (s.ctxs.filter on).foldl (fun s c => (s.evict c.vf c.part).finishSaving c.vf c.part) s
      s.settleMoves.ok

/-- RESET (R400, R419): entries of remote TLBs that reach the context go too. -/
def execReset (pf tag vf part : Nat) (s : State) : Out :=
  s.mailbox pf tag 0x0D [vf, part] fun s =>
    if portOf vf ≠ pf ∨ 24 ≤ part then s.no mbArgument
    else if !s.hasPolicy vf then s.no mbNoPolicy
    else
      let s := match s.ctx vf part with
        | some c => if c.state = CtxState.terminated then s else s.endContext vf part
        | none => s
      (((s.setCtx vf part fun c => { c with state := .absent, paused := false, carry := 0, evict := false, image := [], seals := [] }).shootdown
        vf part fun _ => true).settleBind vf).ok

/-- SETLTOL (R400, R407). -/
def execSetltol (pf tag vf ns : Nat) (s : State) : Out :=
  s.mailbox pf tag 0x0E [vf, ns] fun s =>
    if portOf vf ≠ pf then s.no mbArgument
    else if !s.hasPolicy vf then s.no mbNoPolicy
    else if ((s.policyOf vf).map (·.ltol)).getD 0 < ns then s.no mbDenied
    else (s.setVf vf fun v => { v with ltol := some ns }).ok

/-- DUMPGET (R412): the ciphertext of a section goes to host memory. -/
def execDumpget (pf tag sec dest : Nat) (s : State) : Out :=
  s.mailbox pf tag 0x0F [sec, dest] fun s =>
    match (s.dump.map (·.sections)).bind fun l => l[sec]? with
    | none => s.no mbArgument
    | some (may, _, bs) =>
      if !may then s.no mbDenied
      else ({ s with hmem := memWrite s.hmem dest bs }.tell [.dmaWrite dest bs]).ok

/-- SAVEAREA (R398, R400): one that is too small gives the bytes needed. -/
def execSavearea (pf tag vf part handle : Nat) (s : State) : Out :=
  s.mailbox pf tag 0x10 [vf, part, handle] fun s =>
    if portOf vf ≠ pf ∨ 24 ≤ part then s.no mbArgument
    else match s.ownHandle vf handle with
      | none => s.no mbHandle
      | some h =>
        if !s.hasPolicy vf then s.no mbNoPolicy
        else match s.needCtx vf part with
          | none => s.no mbResource
          | some t =>
            let quota := ((t.ctx vf part).map fun c => if c.state = .absent ∨ c.state = .terminated then t.quotaFor c else c.quota).getD 0
            if h.size < areaNeed quota then (mbResource, [areaNeed quota], s)
            else (((t.setCtx vf part fun c => { c with save := handle }).finishSaving vf part).settleMoves).ok

/-! ### BAR0 of a physical function (R399) -/

/-- The command in a mailbox executed, its opcode and operands read from its 64 bytes (R399 to R401, log 71). -/
def State.runMail (s : State) (pf : Nat) : Out :=
  let b := (s.pf pf).command
  let tag := field b 4 4
  let x (k : Nat) : Nat := field b (8 * k) 8
  match field b 0 1 with
  | 0x01 => execAlloc pf tag (x 1) (x 2) (x 3 % 2 == 1) (x 3 / 2) s
  | 0x02 => execHwin pf tag (x 1) (x 2) (x 3) (x 4) s
  | 0x03 => execFree pf tag (x 1) s
  | 0x04 => execMap pf tag (x 1) (x 2) (x 3) (x 4) (x 5) (x 6) s
  | 0x05 => execUnmap pf tag (x 1) (x 2) (x 3) (x 4) s
  | 0x06 => execQcreate pf tag (x 1) (x 2) (x 3) (x 4) (x 5) (x 6) (x 7 / 2 * 2) (x 7 % 2 == 1) s
  | 0x07 => execQdestroy pf tag (x 1) (x 2) s
  | 0x08 => execPause pf tag (x 1) (x 2) s
  | 0x09 => execUnpause pf tag (x 1) (x 2) s
  | 0x0A => execEvict pf tag (x 1) (x 2) s
  | 0x0B => execResize pf tag (x 1) (x 2) (x 3) s
  | 0x0C => execPartition pf tag (x 1) (x 2) (x 3) s
  | 0x0D => execReset pf tag (x 1) (x 2) s
  | 0x0E => execSetltol pf tag (x 1) (x 2) s
  | 0x0F => execDumpget pf tag (x 1) (x 2) s
  | 0x10 => execSavearea pf tag (x 1) (x 2) (x 3) s
  | op => s.mailbox pf tag op ((List.range 7).map fun k => x (k + 1)) fun s => s.no mbArgument

/-- Bytes written to the command of a mailbox (R399). -/
def Pf.writeCommand (p : Pf) (off : Nat) (bytes : List Byte) : Pf :=
  { p with command := (List.range 64).map fun k => if off ≤ k ∧ k < off + bytes.length then bytes.getD (k - off) 0 else p.command.getD k 0 }

/-- A write to the BAR0 of a PF (R399): command bytes at 0x2000; the value 1 at 0x2080 gives the command. -/
def State.pfWrite (s : State) (pf off : Nat) (bytes : List Byte) : Out :=
  if 0x2000 ≤ off ∧ off < 0x2040 then .next (s.setPf pf fun p => p.writeCommand (off - 0x2000) bytes)
  else if off = 0x2080 ∧ natOfBytes bytes = 1 then s.runMail pf
  else .next s

/-- REGISTER_WRITE (R399, R403, R404): in a VF's BAR4 the bytes of slots and tags are written to the ring; functions 1,024 and 1,025 are the PFs,
with the mailbox in BAR0 (log 71); every other location drops the write. -/
def execRegisterWrite (vf bar off : Nat) (bytes : List Byte) (s : State) : Out :=
  if !s.serving then .next s
  else if 1024 ≤ vf then (if bar = 0 ∧ vf ≤ 1025 then s.pfWrite (vf - 1024) off bytes else .next s)
  else if bar ≠ 4 then .next s
  else match s.queue vf (off / 0x80000) with
    | none => .next s
    | some q =>
      match s.ringOf q with
      | none => .next s
      | some h => .next ((List.range bytes.length).foldl
        (fun s k => let o := off % 0x80000 + k; if q.inRing o then s.handleWrite h o [bytes.getD k 0] else s) s)

end Sys2Proof.Machine
end

