-- ==== Sys2Proof/Machine/Matrix.lean ====
section
/-! DEFINITION. The matrix engine and the tile store: planes, the reservation table, quarter operations, slices (R107 to R110,
R221 to R242). -/
namespace Sys2Proof.Machine

/-! ### Plane types -/

/-- K of a plane type (R221). -/
def planeK : Ty → Nat
  | .f16 | .bf16 => 48
  | .e4m3 | .e5m2 | .k48e4m3 | .k48i8 => 96
  | _ => 192

/-- Whether a type is block-scaled (R221). -/
def isBlock : Ty → Bool
  | .k48e2m1 | .k48e3m2 | .k48e2m3 | .k48e4m3 | .k48i8 => true
  | _ => false

/-- Bits of an element (R107, R221). -/
def elemBits : Ty → Nat
  | .f16 | .bf16 => 16
  | .k48e2m1 => 4
  | .k48e3m2 | .k48e2m3 => 6
  | _ => 8

/-- The class of a plane (R223): K, and whether it is block-scaled. -/
def classOfTy (t : Ty) : Nat × Bool := (planeK t, isBlock t)

/-- Bytes of elements of a plane (R221). -/
def elemBytes (t : Ty) : Nat := planeK t * 64 * elemBits t / 8

/-- Bytes of a plane with its scale row (R221, R224). -/
def planeBytes (t : Ty) : Nat := elemBytes t + if isBlock t then 4 * 64 * (planeK t / 48) else 0

/-- Source tiles of an LDSTAT (R224). -/
def planeTiles (t : Ty) : Nat := ceilDiv (planeBytes t) 1024

/-- The exact value of an element (R107). -/
def elemValue (t : Ty) (v : Nat) : Fp :=
  match t with
  | .k48i8 => let x := signedOf 8 v; .fin (decide (x < 0)) x.natAbs 0
  | .k48e2m1 => decodeFp (fmtOf .e2m1) v
  | .k48e3m2 => decodeFp (fmtOf .e3m2) v
  | .k48e2m3 => decodeFp (fmtOf .e2m3) v
  | .k48e4m3 => decodeFp (fmtOf .e4m3) v
  | t => decodeFp (fmtOf t) v

/-! ### Planes and the order of entries -/

/-- The gang of the current group. -/
def State.myGang (s : State) : Gang := s.gang s.grp.gang

/-- Whether a plane pair is that of a quadrant in a bank of a cluster (R221). -/
def PlanePair.isAt (p : PlanePair) (die cluster bank q : Nat) : Bool :=
  p.die == die && p.cluster == cluster && p.bank == bank && p.quad == q

/-- The plane pair of a quadrant, if it is bound (R222). -/
def State.pair (s : State) (die cluster bank q : Nat) : Option PlanePair := s.planes.find? fun p => p.isAt die cluster bank q

/-- Whether a table entry is of a cluster and bank. -/
def TabEntry.isAt (e : TabEntry) (die cluster bank : Nat) : Bool := e.die == die && e.cluster == cluster && e.bank == bank

/-- Type and generation of the active and the shadow plane once every entry of the table has acted (R221, R235): an LDSTAT of
operation 0 was cancelled, and leaves its plane empty. -/
def State.planesAfter (s : State) (die cluster bank q : Nat) : (Option Ty × Nat) × (Option Ty × Nat) :=
  let start := match s.pair die cluster bank q with
    | some p => ((p.active.ty, p.active.gen), (p.shadow.ty, p.shadow.gen))
    | none => ((none, 0), (none, 0))
  (s.rtab.filter fun e => e.isAt die cluster bank).foldl
    (fun (a, b) e =>
      match e.kind with
      | .ldstat k t _ op gen => if k = q then (a, (if op = 0 then none else some t, gen)) else (a, b)
      | .swap k => if k = q then (b, a) else (a, b)
      | _ => (a, b)) start

/-- One plane pair changed. -/
def State.setPair (s : State) (die cluster bank q : Nat) (f : PlanePair → PlanePair) : State :=
  { s with planes := updateFirst (fun p => p.isAt die cluster bank q) f s.planes }

/-- Quadrants that a fusion mode uses, upper first under .deep (R232). -/
def quadsOf (fus q : Nat) : List Nat :=
  match fus with
  | 0 => [q]
  | 1 => [q, q + 1]
  | 2 => [0, 1, 2, 3]
  | _ => [q, q + 2]

/-- Tiles that a fusion mode writes (R232). -/
def tilesOf (fus : Nat) : Nat :=
  match fus with
  | 1 => 2
  | 2 => 4
  | _ => 1

/-- The rows of a gang's tiles that an entry writes, and those it reads (R228): handle and row. -/
def TabKind.writes : TabKind → List (Nat × Nat)
  | .mmq _ _ _ _ _ rows tiles _ _ => tiles.flatMap fun h => rows.map fun r => (h, r)
  | .tst _ h lanes _ => (lanesOf lanes).map fun l => (h, l)
  | .tzero h => (List.range 32).map fun l => (h, l)
  | _ => []
def TabKind.reads : TabKind → List (Nat × Nat)
  | .tld _ h lanes _ _ => (lanesOf lanes).map fun l => (h, l)
  | _ => []

/-- Whether two entries concern a row in common. -/
def meets (x y : List (Nat × Nat)) : Bool := x.any fun a => a ∈ y

/-- The quadrants an entry uses. -/
def TabKind.quads : TabKind → List Nat
  | .mmq _ _ _ qs _ _ _ _ _ => qs
  | .ldstat q _ _ _ _ => [q]
  | .swap q => [q]
  | _ => []

/-- Whether two quarters of one group name one tile and one quarter number (R236): they are never fused, and keep their order. -/
def samePlace (x y : TabEntry) : Bool :=
  x.group == y.group && match x.kind, y.kind with
  | .mmq _ _ _ _ _ rows tiles _ _, .mmq _ _ _ _ _ rows' tiles' _ _ =>
    rows.headD 0 / 8 == rows'.headD 0 / 8 && tiles.any fun h => h ∈ tiles'
  | _, _ => false

/-- Whether an earlier entry holds a later one back (R228, R236). LDSTATs of one quadrant end in entry order (log 19). -/
def holdsBack (x y : TabEntry) : Bool :=
  let sameQ := x.bank == y.bank && y.kind.quads.any fun q => q ∈ x.kind.quads
  let rowOf (f : TabKind → List (Nat × Nat)) (g : TabKind → List (Nat × Nat)) := x.gang == y.gang && meets (f x.kind) (g y.kind)
  match y.kind, x.kind with
  | .ldstat _ _ _ _ _, .swap _ => sameQ
  | .ldstat _ _ _ _ _, .ldstat _ _ _ _ _ => sameQ
  | .swap _, .ldstat _ _ _ _ _ => sameQ
  | .swap _, .mmq _ _ _ _ _ _ _ _ _ => sameQ
  | .mmq _ _ _ _ _ _ _ _ _, .swap _ => sameQ
  | .mmq _ _ _ _ _ _ _ _ _, _ => rowOf TabKind.writes TabKind.writes || rowOf TabKind.reads TabKind.writes || samePlace x y
  | .tld _ _ _ _ _, _ => rowOf TabKind.writes TabKind.reads
  | .tst _ _ _ _, _ => rowOf TabKind.writes TabKind.writes || rowOf TabKind.reads TabKind.writes
  | .tzero _, _ => rowOf TabKind.writes TabKind.writes || rowOf TabKind.reads TabKind.writes
  | _, _ => false

/-- Whether an entry may proceed: nothing of its cluster that entered earlier holds it back (R228). -/
def State.free (s : State) (i : Nat) (e : TabEntry) : Bool :=
  (s.rtab.take i).all fun x => !(x.die == e.die && x.cluster == e.cluster && holdsBack x e)

/-! ### Issue -/

/-- A full table parks the path (R228); TL at 63 as well where the entry counts (R130). -/
def State.tableRoom (s : State) (counts : Bool) : Res Unit :=
  let g := s.grp
  if Config.tableEntries ≤ s.rtab.countP (fun e => e.die == g.die && e.cluster == g.cluster) ∨ (counts && s.full .tl) then
    .error (.hold (s.park .room))
  else .ok ()

/-- An entry of the current path. -/
def State.enterTable (s : State) (id : Nat) (kind : TabKind) : State :=
  let g := s.grp
  { s with rtab := s.rtab ++ [⟨id, g.die, g.cluster, g.bank, g.gang, g.key, s.tags, g.level, false, kind, 0⟩] }

/-- QUADRANT_BUSY and SCALE_INVALID (R226). -/
def stQuadrantBusy : W32 := statusWord 2 false 0
def stScaleInvalid (n : Nat) : W32 := statusWord 3 false n

/-- Whether the group's die takes a matrix format (R1, R409): in reduced service only FP16 and BF16. The check comes first (log 51). -/
def State.takesFormat (s : State) (ty : Ty) : Bool := (s.die s.grp.die).fullService || ty == .f16 || ty == .bf16

/-- LDSTAT (R225, R409). -/
def execLdstat (q : BitVec 2) (ty : Ty) (f : FReg) (a : SReg) (s : State) : Out :=
  finish s do
    let g := s.grp
    must (s.takesFormat ty) { code := cIllegal, addr := s.pc }
    let gang := s.myGang
    s.futReady f
    let src := s.rs a
    let n := planeTiles ty
    must (src.toNat % 1024 == 0) { code := cMisaligned, addr := src }
    must (src.toNat + 1024 * n ≤ gang.shared) { code := cTranslation, addr := src }
    let ts := localTiles src.toNat (1024 * n)
    match gang.owned true ts with
    | some t => raise { code := cOwner, addr := BitVec.ofNat 64 (tileAddr t) }
    | none =>
      let p := s.pair g.die g.cluster g.bank q.toNat
      if (p.map fun p => p.gang != g.gang).getD false then
        .ok ((s.settleFut f ⟨.resolved, stQuadrantBusy, 0⟩).advance 3)
      else
        s.tableRoom false
        let (id, s) := s.fresh
        let s : State := if p.isSome then s else { s with planes := s.planes ++ [⟨g.die, g.cluster, g.bank, q.toNat, g.gang, {}, {}⟩] }
        let s := (s.flipTiles g.gang id ts).issueFut f id
        .ok ((s.enterTable id (.ldstat q.toNat ty src.toNat id id)).advance 3)

/-- SWAP (R227). -/
def execSwap (q : BitVec 2) (s : State) : Out :=
  finish s (
    let g := s.grp
    if ((s.pair g.die g.cluster g.bank q.toNat).map (·.gang)) ≠ some g.gang then s.illegal
    else do
      s.tableRoom false
      let (id, s) := s.fresh
      .ok ((s.enterTable id (.swap q.toNat)).advance 1))

/-- Registers of the A operand (R233). -/
def aRegs (ty : Ty) (deep : Bool) : Nat :=
  let ka := if deep then 2 * planeK ty else planeK ty
  ka * elemBits ty / 32 + if isBlock ty then ka / 48 else 0

/-- The plane check of a quarter (R223, R235): the generations of the planes it will use. -/
def State.planeCheck (s : State) (ty : Ty) (quads : List Nat) : Option (List Nat) :=
  let g := s.grp
  quads.mapM fun q =>
    if ((s.pair g.die g.cluster g.bank q).map (·.gang)) ≠ some g.gang then none
    else match (s.planesAfter g.die g.cluster g.bank q).1 with
      | (some t, gen) => if classOfTy t = classOfTy ty then some gen else none
      | (none, _) => none

/-- Whether a handle is allocated to a gang (R239). -/
def Gang.hasTile (g : Gang) (h : Nat) : Bool := g.alloc.getD h false

/-- MMQ and MMQS (R234, R235, R409). An empty row set completes once the checks have passed (log 52). -/
def quarterOp (block : Bool) (q fus n : BitVec 2) (ty : Ty) (sn : Bool) (t : SReg) (a : VReg) (b : SReg) (s : State) : Out :=
  finish s do
    let deep := fus == 3
    let rows := (lanesOf s.slot.mask).filter fun l => l / 8 == n.toNat
    let regs := aRegs ty deep
    must (s.takesFormat ty) { code := cIllegal, addr := s.pc }
    s.vcheck [(a, regs)] []
    let quads := quadsOf fus.toNat q.toNat
    match s.planeCheck ty quads with
    | none => s.illegal
    | some gens =>
      let tiles := (List.range (tilesOf fus.toNat)).map fun i => bits (s.rs t).toNat (8 * i) 8
      match tiles.find? fun h => !s.myGang.hasTile h with
      | some h => raise { code := cTileInvalid, addr := s.pc, aux0 := BitVec.ofNat 64 h }
      | none =>
        if rows = [] then .ok (s.advance 3)
        else
          s.tableRoom true
          let sigma := if sn then some ((s.rs b).extractLsb' 0 32) else none
          let words := rows.map fun l => (List.range regs).map fun i => (s.vlane (a + BitVec.ofNat 6 i) 1 l).extractLsb' 0 32
          let (id, s) := s.fresh
          .ok ((s.enterTable id (.mmq block ty fus.toNat quads gens rows tiles sigma words)).advance 3)

def execMmq (q fus n : BitVec 2) (ty : Ty) (sn : Bool) (t : SReg) (a : VReg) (b : SReg) (s : State) : Out :=
  quarterOp false q fus n ty sn t a b s
def execMmqs (q fus n : BitVec 2) (ty : Ty) (sn : Bool) (t : SReg) (a : VReg) (b : SReg) (s : State) : Out :=
  quarterOp true q fus n ty sn t a b s

/-- TALLOC (R239). -/
def execTalloc (d : SReg) (s : State) : Out :=
  let g := s.myGang
  match (List.range g.quota).find? fun h => !g.hasTile h with
  | none => .next (s.trap { code := cTileOverdraw, addr := s.pc })
  | some h =>
    let s := s.setGang g.key fun g => { g with alloc := g.alloc.set h true }
    scalarOp s 1 d (BitVec.ofNat 64 h)

/-- The handle that TFREE, TZERO, TLD and TST name (R239). -/
def State.tileHandle (s : State) (a : SReg) : Res Nat := do
  must (s.myGang.hasTile (s.rs a).toNat) { code := cTileInvalid, addr := s.pc, aux0 := s.rs a }
  .ok (s.rs a).toNat

/-- Whether an entry names a handle. -/
def TabKind.names (k : TabKind) (h : Nat) : Bool := (k.writes ++ k.reads).any fun x => x.1 == h

/-- TFREE (R239). One that has waited reads its register and checks the handle again (DESIGN CHOICE, log 73). -/
def execTfree (a : SReg) (s : State) : Out :=
  finish s do
    let h ← s.tileHandle a
    if s.rtab.any fun e => e.gang == s.grp.gang && e.kind.names h then .error (.hold (s.park .room))
    else .ok ((s.setGang s.grp.gang fun g => { g with alloc := g.alloc.set h false }).advance 1)

/-- TZERO (R239). -/
def execTzero (a : SReg) (s : State) : Out :=
  finish s do
    let h ← s.tileHandle a
    s.tableRoom true
    let (id, s) := s.fresh
    .ok ((s.enterTable id (.tzero h)).advance 1)

/-- TLD (R240). -/
def execTld (c : BitVec 3) (d : VReg) (a : SReg) (s : State) : Out :=
  finish s do
    s.vcheck [] [(d, 8)]
    let h ← s.tileHandle a
    if s.slot.mask = 0 then .ok (s.advance 3)
    else
      s.tableRoom true
      let (id, t) := s.fresh
      .ok ((t.enterTable id (.tld c.toNat h s.slot.mask (s.slot.wbase + d.toNat) s.pc)).advance 3)

/-- The slice segment of one row that TST writes, column by column (R240): `xs` are the eight FP32 values. -/
def sliceWords (ty : Ty) (mode : Rnd) (sat : Bool) (draw : Nat → Nat) (xs : List Nat) : List W32 × Flags :=
  if ty = .f32 then (xs.map (BitVec.ofNat 32), 0)
  else
    let rs := (List.range 8).map fun k => convert .f32 ty mode (draw k) sat (xs.getD k 0)
    let w := tyBits ty / 8
    let bytes := rs.flatMap fun r => bytesOfNat w r.1
    ((List.range 8).map fun k => BitVec.ofNat 32 (field bytes (4 * k) 4), rs.foldl (fun f r => f ||| r.2) 0)

/-- TST (R240). -/
def execTst (c : BitVec 3) (ty : Ty) (rnd : Rnd) (sat : Bool) (d : VReg) (a : SReg) (s : State) : Out :=
  let mode := s.mode rnd
  let draws (t : State) : State := if ty ≠ .f32 ∧ mode = .sr then t.drawn 8 else t
  finish s do
    s.vcheck [(d, 8)] []
    let h ← s.tileHandle a
    if s.slot.mask = 0 then .ok ((draws s).advance 3)
    else
      s.tableRoom true
      let rs := (lanesOf s.slot.mask).map fun l =>
        sliceWords ty mode sat (fun k => s.draw k l) ((List.range 8).map fun k => (s.vlane (d + BitVec.ofNat 6 k) 1 l).toNat)
      let fl := rs.foldl (fun f r => f ||| r.2) 0
      let (id, t) := s.fresh
      .ok (((draws t).orFlags fl).enterTable id (.tst c.toNat h s.slot.mask (rs.map (·.1))) |>.advance 3)

/-! ### The tile store's contents -/

/-- The value at an index of a gang's tiles; an unlisted one is +0 (R238). -/
def tileGet : List (Nat × W32) → Nat → W32
  | [], _ => 0
  | (k, v) :: r, i => if i = k then v else tileGet r i

/-- One value set, indices rising and no +0 listed. -/
def tileSet : List (Nat × W32) → Nat → W32 → List (Nat × W32)
  | [], i, v => if v = 0 then [] else [(i, v)]
  | (k, x) :: r, i, v =>
    if i < k then if v = 0 then (k, x) :: r else (i, v) :: (k, x) :: r
    else if i = k then if v = 0 then r else (i, v) :: r
    else (k, x) :: tileSet r i v

/-- Index of an element: handle, row, column. -/
def tileIndex (h row col : Nat) : Nat := 2048 * h + 64 * row + col

/-! ### Arithmetic of a quarter (R108 to R110) -/

/-- Element k of a row's bit string (R107, R233). -/
def aElem (ty : Ty) (row : List W32) (k : Nat) : Fp :=
  let w := elemBits ty
  elemValue ty (bits (natOfBytes (row.flatMap fun x => bytesOfNat 4 x.toNat)) (w * k) w)

/-- Element k of column n of a plane (R224). -/
def bElem (p : Plane) (ty : Ty) (n k : Nat) : Fp :=
  let w := elemBits ty
  let b := w * (planeK ty * n + k)
  elemValue ty (bits (natOfBytes (slice p.bytes (b / 8) 2)) (b % 8) w)

/-- The exact sum of a run of products. -/
def runSum (f g : Nat → Fp) (k0 n : Nat) : Fp :=
  (sumFp false ((List.range n).map fun i => (mulFp (f (k0 + i)) (g (k0 + i))).1)).1

/-- The scale words of the A row's part that begins at element `k0` (R233). -/
def rowScales (ty : Ty) (row : List W32) (ka k0 : Nat) : List Nat :=
  if isBlock ty then (List.range (planeK ty / 48)).map fun t => (row.getD (ka * elemBits ty / 32 + k0 / 48 + t) 0).toNat else []

/-- Whether an element is NaN. -/
def Fp.isNan : Fp → Bool
  | .nan _ => true
  | _ => false

/-- The partials of one column from one plane, each with the flags it sets (R108 to R110): SF for an invalid scale, NV for an E4M3 NaN
in a block whose scales are valid (log 53). `k0` is the first element of the row's part. -/
def partials (ty : Ty) (sigma : Nat) (row : List W32) (ka k0 : Nat) (p : Plane) (col : Nat) : List (Nat × Flags) :=
  let bty := p.ty.getD ty
  let f (k : Nat) := aElem ty row (k0 + k)
  let g := bElem p bty col
  let dec (v : Nat) := decodeFp (fmtOf .f32) v
  if !scaleValid sigma then
    (List.range (if isBlock ty then planeK ty / 48 else planeK ty / 16)).map fun _ => (0, fSF)
  else if isBlock ty then
    (List.range (planeK ty / 48)).map fun t =>
      let sa := (rowScales ty row ka k0).getD t 0
      let sb := field p.bytes (elemBytes bty + 4 * (planeK ty / 48 * col + t)) 4
      if !scaleValid sa || !scaleValid sb then (0, fSF)
      else
        let x := (mulFp (mulFp (dec sigma) (dec sa)).1 (mulFp (dec sb) (runSum f g (48 * t) 48)).1).1
        ((rneF32 x).1, if (List.range 48).any fun i => (f (48 * t + i)).isNan || (g (48 * t + i)).isNan then fNV else 0)
  else
    (List.range (planeK ty / 16)).map fun r => ((rneF32 (mulFp (dec sigma) (runSum f g (16 * r) 16)).1).1, 0)

/-- One accumulator element after its partials (R110). -/
def accumulate (acc : W32) (ps : List Nat) : W32 :=
  let dec (v : Nat) := decodeFp (fmtOf .f32) v
  BitVec.ofNat 32 (ps.foldl (fun a p => (rneF32 (addFp false (dec a) (dec p)).1).1) acc.toNat)

/-- One element of a quarter applied: its new value and the flags set (R234). `use` lists the planes that its column comes from, with
the first element of A each takes; none for a plane that gives NaN: then an invalid σ or scale of the row still sets SF (R108, R109,
log 54). -/
def rowResult (ty : Ty) (deep : Bool) (sigma : Nat) (row : List W32) (use : List (Option Plane × Nat)) (col : Nat) (acc : W32) :
    W32 × Flags :=
  let ka := if deep then 2 * planeK ty else planeK ty
  let ps := use.flatMap fun u => match u.1 with
    | some p => partials ty sigma row ka u.2 p col
    | none => [(0, if !scaleValid sigma || (rowScales ty row ka u.2).any fun x => !scaleValid x then fSF else 0)]
  (if use.any fun u => u.1.isNone then BitVec.ofNat 32 (canonNaN (fmtOf .f32)) else accumulate acc (ps.map (·.1)),
    ps.foldl (fun f p => f ||| p.2) 0)

/-- The active plane of a quadrant as a quarter finds it: none when it is poisoned, or its load was cancelled (R226, R236). -/
def State.usePlane (s : State) (e : TabEntry) (q gen : Nat) : Option Plane :=
  match s.pair e.die e.cluster e.bank q with
  | some p => if p.active.loaded && !p.active.poisoned && p.active.gen == gen then some p.active else none
  | none => none

/-- A quarter applied (R234). Each position starts from the values before the entry. DESIGN CHOICE (log 55): where a widened quarter
names one tile twice, the last position's values stay. -/
def State.applyQuarter (s : State) (e : TabEntry) (ty : Ty) (fus : Nat) (quads gens rows tiles : List Nat) (sigma : Option W32)
    (a : List (List W32)) : State :=
  let sg := (sigma.map (·.toNat)).getD 0x3F800000
  let planes := (List.range quads.length).map fun i => s.usePlane e (quads.getD i 0) (gens.getD i 0)
  let useOf (b : Nat) : List (Option Plane × Nat) :=
    if fus = 3 then [(planes.getD 0 none, 0), (planes.getD 1 none, planeK ty)] else [(planes.getD b none, 0)]
  let old := (s.gang e.gang).tiles
  let cells := (List.range rows.length).flatMap fun r => (List.range tiles.length).flatMap fun b => (List.range 64).map fun j =>
    let i := tileIndex (tiles.getD b 0) (rows.getD r 0) j
    (i, rowResult ty (fus == 3) sg (a.getD r []) (useOf b) j (tileGet old i))
  let s := s.setGang e.gang fun g => { g with tiles := cells.foldl (fun t c => tileSet t c.1 c.2.1) g.tiles }
  let fl := cells.foldl (fun f c => f ||| c.2.2) 0
  if fl = 0 then s else s.forGroups (fun g => g.key == e.group) fun s => s.orFlags fl

/-! ### Events of the table -/

/-- An entry leaves the table. -/
def State.leaveTable (s : State) (i : Nat) : State := { s with rtab := dropAt s.rtab i }

/-- LDSTAT_LOAD_END (R225, R226): entry `i` fills the shadow plane, its tiles flip, its future resolves. A cancelled one
leaves the plane empty. Only the bytes of elements and scales are looked at for uncorrectable data, not what is left of the last tile
(DESIGN CHOICE, log 72). -/
def execLdstatLoadEnd (i : Nat) (s : State) : Out :=
  match s.rtab[i]? with
  | none => .next s
  | some e =>
    match e.kind with
    | .ldstat q ty src op gen =>
      if !s.free i e then .next s
      else
        let s := s.leaveTable i
        let put (p : Plane) : State := s.setPair e.die e.cluster e.bank q fun x => { x with shadow := p }
        if op = 0 then .next (put { cancelled := true, gen := gen })
        else
          let g := s.gang e.gang
          let bytes := g.localRead src (planeBytes ty)
          if g.localBad src (planeBytes ty) then
            .next ((put { ty := some ty, bytes, loaded := true, poisoned := true, gen }).resolve op (statusWord 1 true 0))
          else
            let nb := planeK ty / 48
            let bad := if isBlock ty then
                ((List.range (64 * nb)).filter fun k => !scaleValid (field bytes (elemBytes ty + 4 * k) 4)).length
              else 0
            let s := (put { ty := some ty, bytes, loaded := true, gen }).unflip e.gang op
            .next (s.resolve op (if bad = 0 then 0 else stScaleInvalid bad))
    | _ => .next s

/-- SWAP_EFFECT (R227, R228). -/
def execSwapEffect (i : Nat) (s : State) : Out :=
  match s.rtab[i]? with
  | none => .next s
  | some e =>
    match e.kind with
    | .swap q =>
      if !s.free i e then .next s
      else .next ((s.leaveTable i).setPair e.die e.cluster e.bank q fun x => { x with active := x.shadow, shadow := x.active })
    | _ => .next s

/-- Whether a quarter is eligible: R228 lets it proceed and its quadrants are idle (R229). -/
def State.eligible (s : State) (i : Nat) (e : TabEntry) : Bool :=
  !e.granted && s.free i e && s.rtab.all fun x =>
    !(x.granted && x.die == e.die && x.cluster == e.cluster && x.kind.quads.any fun q => q ∈ e.kind.quads)

/-- Whether an entry's kind is a quarter. -/
def TabKind.isQuarter : TabKind → Bool
  | .mmq _ _ _ _ _ _ _ _ _ => true
  | _ => false

/-- Whether an entry ranks before a later one (R229): overdue, then its level; a cycle is a step (log 5). -/
def State.ranksFirst (_s : State) (x y : TabEntry) : Bool :=
  let late (e : TabEntry) : Bool := decide (1024 ≤ e.elig)
  (late x && !late y) || (late x == late y && decide (x.level < y.level))

/-- Entries of a cluster that meet a condition, with their positions, in rank order (R229). -/
def State.inRank (s : State) (die cluster : Nat) (p : Nat → TabEntry → Bool) : List (Nat × TabEntry) :=
  orderBy (fun x y => s.ranksFirst x.2 y.2)
    (((List.range s.rtab.length).filterMap fun i => (s.rtab[i]?).map fun e => (i, e)).filter fun x =>
      x.2.die == die && x.2.cluster == cluster && p x.1 x.2)

/-- Eligible quarters of a cluster in rank order. -/
def State.ranked (s : State) (die cluster : Nat) : List (Nat × TabEntry) :=
  s.inRank die cluster fun i e => e.kind.isQuarter && s.eligible i e

/-- Whether the tile store serves an entry's kind. -/
def TabKind.isTile : TabKind → Bool
  | .tld _ _ _ _ _ => true
  | .tst _ _ _ _ => true
  | .tzero _ => true
  | _ => false

/-- Entries that the tile store of a cluster could serve, in rank order. -/
def State.served (s : State) (die cluster : Nat) : List (Nat × TabEntry) := s.inRank die cluster fun i e => e.kind.isTile && s.free i e

/-- Whether entry `i` waits for nothing but its grant or its service. -/
def State.canGrant (s : State) (i : Nat) : Bool :=
  (s.rtab[i]?).any fun e => if e.kind.isQuarter then s.eligible i e else e.kind.isTile && s.free i e

/-- Whether a quarter may join a pass that `e` began (R230). -/
def fuses (e : TabEntry) (taken : List TabEntry) (x : TabEntry) : Bool :=
  match e.kind, x.kind with
  | .mmq _ ty fus qs gens _ _ _ _, .mmq _ ty' fus' qs' gens' _ _ _ _ =>
    e.bank == x.bank && qs == qs' && fus == fus' && gens == gens' && classOfTy ty == classOfTy ty' &&
      taken.all fun y => !(y.gang == x.gang && meets y.kind.writes x.kind.writes) && !samePlace y x
  | _, _ => false

/-- MATRIX_PASS_GRANT (R229, R230): entry `i` is granted if no eligible quarter that uses one of its quadrants ranks before
it; up to four entries join its pass. -/
def execMatrixPassGrant (i : Nat) (s : State) : Out :=
  match s.rtab[i]? with
  | none => .next s
  | some e =>
    let rank := s.ranked e.die e.cluster
    let before := rank.takeWhile fun x => x.1 != i
    if !(rank.any fun x => x.1 == i) || (before.any fun x => x.2.kind.quads.any fun q => q ∈ e.kind.quads) then .next s
    else
      let pass := (rank.filter fun x => x.1 != i).foldl
        (fun (acc : List (Nat × TabEntry)) x => if acc.length < 4 && fuses e (acc.map (·.2)) x.2 then acc ++ [x] else acc) [(i, e)]
      .next { s with rtab := updateAll (fun y => pass.any fun x => x.2.id == y.id) (fun y => { y with granted := true }) s.rtab }

/-- MATRIX_ENTRY_APPLIED (R228, R234). -/
def execMatrixEntryApplied (i : Nat) (s : State) : Out :=
  match s.rtab[i]? with
  | none => .next s
  | some e =>
    match e.kind with
    | .mmq _ ty fus quads gens rows tiles sigma a =>
      if e.granted then .next ((s.leaveTable i).applyQuarter e ty fus quads gens rows tiles sigma a) else .next s
    | _ => .next s

/-- TILE_STORE_SERVE (R229, R240): entry `i` of the tile store, when it ranks first of those that R228 lets proceed. -/
def execTileStoreServe (i : Nat) (s : State) : Out :=
  match s.rtab[i]? with
  | none => .next s
  | some e =>
    if ((s.served e.die e.cluster).head?.map (·.1)) ≠ some i then .next s
    else
      let old := (s.gang e.gang).tiles
      let t := s.leaveTable i
      match e.kind with
      | .tzero h => .next (t.setGang e.gang fun g => { g with tiles := g.tiles.filter fun x => x.1 / 2048 != h })
      | .tst c h lanes vals =>
        let ls := lanesOf lanes
        let cells := (List.range ls.length).flatMap fun r => (List.range 8).map fun k =>
          (tileIndex h (ls.getD r 0) (8 * c + k), (vals.getD r []).getD k 0)
        .next (t.setGang e.gang fun g => { g with tiles := cells.foldl (fun x v => tileSet x v.1 v.2) g.tiles })
      | .tld c h lanes pos _ =>
        .next (t.forGroups (fun g => g.key == e.group) fun s => s.setGrp fun g =>
          (List.range 8).foldl
            (fun g k =>
              let p := pos + k
              { g with vrf := g.vrf.set (p % g.vrf.length) (mixLanes (g.vpos p) lanes fun l => tileGet old (tileIndex h l (8 * c + k))) }) g)
      | _ => .next s

end Sys2Proof.Machine
end

