-- ==== Sys2Proof/Machine/Power.lean ====
section
/-! DEFINITION. Power states, bring-up, failures of a die and of a root instance, fatal errors and reset (R361, R362, R390, R406 to
R411). -/
namespace Sys2Proof.Machine

/-! ### Tolerances and demand (R406, R407) -/

/-- The tolerance of a VF (R407). -/
def State.tolerance (s : State) (vf : Nat) : Nat :=
  match s.vf vf with
  | some v => v.ltol.getD ((v.policy.map (·.ltol)).getD 0)
  | none => 0

/-- Contexts that count for tolerances. -/
def State.counting (s : State) : List Ctx := s.ctxs.filter fun c => !(c.state == .absent || c.state == .terminated)

/-- Partitions with a quadrant on a die. -/
def State.partsOn (s : State) (d : Nat) : List Nat :=
  distinct (((List.range 4).filterMap fun q => (s.gates.toList[4 * d + q]?).map (·.part)).filter (· != 31))

/-- Whether T of a unit is at least a latency (R407). -/
def State.tolerates (s : State) (u : PowerUnit) (ns : Nat) : Bool :=
  s.counting.all fun c => decide (ns ≤ s.tolerance c.vf) || match u with
    | .die d | .quadrant d _ => decide (c.part ∉ s.partsOn d)
    | .stack _ => (s.quadsOf c.part).isEmpty

/-- The wait of the next entry of a queue is over, or it has none (R319). -/
def State.nextDue (s : State) (q : Queue) : Bool :=
  q.waitOk || (match s.entryAt q q.started with
    | some b => field b 48 8 == 0 || field b 48 8 % 8 != 0
    | none => true)

/-- Whether a partition has work for its units: a context to load or to run, an entry that may start (R407). -/
def State.demand (s : State) (part : Nat) : Bool :=
  (s.ctxs.any fun c => c.part == part && !c.paused && c.state != .terminated && s.runnable c) ||
    s.queues.any fun q => q.part == part && decide (q.started < q.taken) && s.nextDue q && (s.ctx q.vf q.part).any fun c => !c.paused

/-- The conditions of LOW, QGATE and DOFF (R406). -/
def State.lowCond (s : State) (d : Nat) : Bool := s.ctxs.all fun c => c.state != .active || decide (c.part ∉ s.partsOn d)
def State.gateCond (s : State) (d q : Nat) : Bool :=
  match s.gates.toList[4 * d + q]? with
  | some g => g.part == 31 || s.ctxs.all fun c => c.part != g.part ||
      !(c.state == .loading || c.state == .resident || c.state == .active || c.state == .saving)
  | none => true
def State.offCond (s : State) (d : Nat) : Bool :=
  (List.range 4).all (s.gateCond d) && s.launches.all fun l => decide (l.part ∉ s.partsOn d)

/-- The state a die, or a quadrant, should take (R407): latencies in ns. -/
def State.dieWants (s : State) (d : Nat) : PowerState :=
  if (s.partsOn d).any s.demand then .full
  else if s.offCond d && s.tolerates (.die d) 800000 then .doff
  else if s.lowCond d && s.tolerates (.die d) 2000 then .low
  else .full
def State.quadWants (s : State) (d q : Nat) : PowerState :=
  let part := ((s.gates.toList[4 * d + q]?).map (·.part)).getD 31
  if part ≠ 31 ∧ s.demand part then .full
  else if s.gateCond d q && s.tolerates (.quadrant d q) 5000 then .qgate
  else .full

/-- The clock of a die whose units are at full power (R408, R409), in MHz. -/
def Die.nominal (x : Die) : Nat := match x.power with
  | .low => 250
  | _ => if x.fullService then 1000 else 500

/-! ### Changes of state -/

/-- Nothing of a die is left in it: what is dirty is written to memory first. -/
def State.quiesce (s : State) (d : Nat) : State :=
  let s := (s.cleanPart fun x => x.die == d).ackAll fun x => x.die == d
  { s with
    l1 := s.l1.filter fun x => x.die != d
    l2 := s.l2.filter fun x => x.die != d
    icache := s.icache.filter fun x => x.die != d
    tlb := s.tlb.filter fun x => x.die != d
    recs := s.recs.filter fun x => x.die != d
    rtlb := s.rtlb.filter fun x => x.die != d }

/-- Whether a stack may be in SREF (R406, R407): T allows the exit latency. To enter it, no request has reached its channels for 50 µs. -/
def State.mayRest (s : State) (k : Nat) : Bool := s.tolerates (.stack k) 12000
def State.idleStack (s : State) (k : Nat) : Bool := (s.stackUse.toList[k]?).any fun t => decide (t + 50000 ≤ s.time)

/-- POWER_STATE_CHANGE (R361, R406, R407): a unit re-evaluates. QGATE and DOFF wait for the notices of the ports they stop. A stack
in SREF leaves it here for a lowered tolerance, and for traffic as the traffic comes (`State.reached`). -/
def execPowerStateChange (u : PowerUnit) (s : State) : Out :=
  if s.bring < 4 ∨ s.waking u then .next s
  else match u with
    | .die d =>
      let x := s.die d
      let w := s.dieWants d
      if !x.present ∨ x.failed ∨ w = x.power then .next s
      else if x.power = .full then
        if w = .doff ∧ (List.range 4).any fun q => q ∉ x.idlePorts then .next s
        else
          let s := if w = .doff then s.quiesce d else s
          .next (s.setDie d fun x => { x with power := w, mhz := if w = .low then min x.mhz 250 else x.mhz })
      else .next (s.beginExit u)
    | .quadrant d q =>
      let x := s.die d
      let now := x.quads.getD q .full
      let w := s.quadWants d q
      if !x.present ∨ x.failed ∨ 4 ≤ q ∨ x.power = .doff ∨ w = now then .next s
      else if now = .full then
        if q ∉ x.idlePorts then .next s else .next (s.setDie d fun x => { x with quads := x.quads.set q .qgate })
      else .next (s.beginExit u)
    | .stack k =>
      if k ∈ s.srefStacks then .next (if s.mayRest k then s else s.beginExit u)
      else if s.idleStack k ∧ s.mayRest k then .next { s with srefStacks := k :: s.srefStacks }
      else .next s

/-- The exit latency of the state that a unit of a die leaves (R406), in ns. -/
def State.exitLatency (s : State) (u : PowerUnit) : Option (Nat × Nat) :=
  match u with
  | .die d => some (d, if (s.die d).power = .doff then 800000 else 2000)
  | .quadrant d _ => some (d, 5000)
  | .stack _ => none

/-- Dies that have not completed an exit within its latency and 2 µs: they have failed (R361). -/
def State.lateDies (s : State) : List Nat :=
  distinct (s.wake.filterMap fun w => (s.exitLatency w.1).bind fun l => if w.2 + l.2 + 2000 < s.time then some l.1 else none)

/-- POWER_EXIT_COMPLETE (R361, R407): a unit has left its state; ports it stopped are active again. -/
def execPowerExitComplete (u : PowerUnit) (s : State) : Out :=
  if !s.waking u then .next s
  else
    let t := { s with wake := s.wake.filter fun w => w.1 != u }
    match u with
    | .die d =>
      let x := s.die d
      if (List.range 4).any fun q => x.power == .doff && x.quads.getD q .full == .full && decide (q ∈ x.idlePorts) then .next s
      else .next (t.setDie d fun x => let y := { x with power := .full }; { y with mhz := y.nominal })
    | .quadrant d q =>
      if q ∈ (s.die d).idlePorts then .next s else .next (t.setDie d fun x => { x with quads := x.quads.set q .full })
    | .stack k => .next { t with srefStacks := t.srefStacks.filter (· != k) }

/-- POWER_STATE_NOTICE (R361): edge port `quad` of a die goes idle, when the quadrant or the die is about to stop, or returns. -/
def execPowerStateNotice (die quad : Nat) (enter : Bool) (s : State) : Out :=
  let x := s.die die
  let stops := s.dieWants die == .doff || s.quadWants die quad == .qgate
  let returns := s.waking (.die die) || s.waking (.quadrant die quad) || !stops
  if !x.present ∨ 4 ≤ quad then .next s
  else if enter then
    .next (if stops && decide (quad ∉ x.idlePorts) then s.setDie die fun x => { x with idlePorts := quad :: x.idlePorts } else s)
  else .next (if returns then s.setDie die fun x => { x with idlePorts := x.idlePorts.filter (· != quad) } else s)

/-- THROTTLING (R406): limits lower a die's clock, or give it back. -/
def execThrottling (die mhz : Nat) (s : State) : Out :=
  .next (if (s.die die).present then s.setDie die fun x => { x with mhz := min mhz x.nominal } else s)

/-! ### Bring-up (R408, R409) -/

/-- Memory zeroed but for a dump that is kept: one that is not kept goes with the rest (R408, R410, R412). -/
def State.zeroMemory (s : State) : State :=
  { s with
    mem := if s.dump.isSome then s.mem.filter fun c => decide (Config.dumpBase ≤ c.1) else []
    poison := [] }

/-- The numbers of planes that a domain may have (R414). -/
def planeCounts : List Nat := [1, 2, 3, 4, 6, 8, 12, 24]

/-- A die at the end of step 4 (R408, R409): in reduced service; or failed, off and not present. -/
def Die.powered (x : Die) (up : Bool) : Die := if up then { x with present := true, mhz := 500 } else { x with failed := true }

/-- POWER_GOOD (R408): the next step of bring-up ends (log 11). A firmware signature that does not verify ends it at step 1. In step 2
firmware sets the region table, as it chooses, loads the NMUs' control stores (log 42) and sets what the module's configuration says (R414,
R415, log 34). The dies that do not pass step 4 have failed. -/
def execPowerGood (s : State) : Out :=
  match s.bring with
  | 0 => .next (if Config.firmwareSigned s.tick then { s with bring := 1 } else s)
  | 1 => .next { s.zeroMemory with
      bring := 2, regions := (List.range 768).filter fun i => Config.choice s.tick i % 2 == 1
      control := (List.range 256).map Config.microWord, entries := (List.range 32).map Config.entryPoint
      pkg := Config.moduleNumber % 512, planesP := planeCounts.getD (Config.modulePlanes % 8) 1 }
  | 2 => .next { s with bring := 3 }
  | 3 => .next { s with bring := 4, dies := Vector.ofFn fun (i : Fin 6) => s.dies[i].powered ((Config.diesUp s.tick).getLsbD i) }
  | _ => .next s

/-- CALIBRATION_END (R408, R409). -/
def execCalibrationEnd (die : Nat) (s : State) : Out :=
  let x := s.die die
  if s.bring < 4 ∨ !x.present ∨ x.fullService then .next s
  else .next ((s.setDie die fun x => let y := { x with fullService := true }; { y with mhz := y.nominal }).tell
    ((List.range 1024).map fun v => .msix v 128))

/-! ### Failures (R361, R362, R390) -/

/-- The termination record of a context whose end no group caused (R329): ORIGIN in word 4. -/
def originRecord (origin : Nat) (now : Nat) (cause addr a0 a1 who pca pcb : W64) : List W64 :=
  [cause, addr, a0, a1, who &&& 0xFFFFFFFF000000FF ||| BitVec.ofNat 64 (256 * origin), pca, pcb, BitVec.ofNat 64 now]

/-- A cause word whose fields are left open (R193, log 33): CODE is one of the 25 codes of R5; SEC and reserved bits are 0. -/
def openCause (v : W64) : W64 := BitVec.ofNat 64 (v.toNat % 25 + 1) ||| v &&& 0x1FFFF007F00

/-- A context terminated for an event of the device: the record goes to its first running launch (log 33). -/
def State.terminateBy (s : State) (vf part : Nat) (record : List W64) : State :=
  s.terminate vf part (((s.launchesOf vf part).find? fun l => l.status == 0 && !l.inval).map (·.id) |>.getD 0) record

/-- DIE_FAILURE (R361, R362): a die is found to have failed: a port of it fell silent or it reported an internal error, which are inputs,
or an exit took too long (`State.lateDies`). What it had not got acknowledged is lost, commands still on it among that. -/
def execDieFailure (die : Nat) (s : State) : Out :=
  if !(s.die die).present then .next s
  else
    let parts := s.partsOn die
    let held (c : Ctx) : Bool := c.state == .loading || c.state == .resident || c.state == .active || c.state == .saving
    let hit (c : Ctx) : Bool := !(c.state == .absent || c.state == .terminated) &&
      ((held c && decide (c.part ∈ parts)) || (s.launchesOf c.vf c.part).any fun l => decide (die ∈ l.placed))
    let v (k : Nat) : W64 := Config.freeValue s.tick (0xF100 + k)
    let record := originRecord 4 s.time (openCause (v 0)) (v 1) (v 2) (v 3) (v 4) (v 5) (v 6)
    let waits (p : Packet) : Bool := p.die == die && decide (p.port < 4) && p.at_.isNone
    -- sectors that the die held are gone before any record is written
    let t := { s with
      ops := s.ops.filter fun o => !(s.inject.any fun p => waits p && p.id == o.id && p.command)
      l1 := s.l1.filter fun x => x.die != die
      l2 := s.l2.filter fun x => x.die != die
      wbuf := s.wbuf.filter fun x => x.die != die
      icache := s.icache.filter fun x => x.die != die
      fetchq := s.fetchq.filter fun x => x.die != die
      tlb := s.tlb.filter fun x => x.die != die
      recs := s.recs.filter fun x => x.die != die
      rtlb := s.rtlb.filter fun x => x.die != die
      misses := s.misses.filter fun x => x.die != die
      inject := s.inject.filter fun p => !waits p
      rtab := s.rtab.filter fun x => x.die != die
      wake := s.wake.filter fun w => match w.1 with
        | .die d | .quadrant d _ => d != die
        | .stack _ => true }
    let t := (s.ctxs.filter hit).foldl (fun t c => t.terminateBy c.vf c.part record) t
    let shut (l : Vector Gate 24) : Vector Gate 24 := (List.range 4).foldl (fun l q => l.setIfInBounds (4 * die + q) ⟨true, 31⟩) l
    let t := { t with
      gates := shut t.gates
      gateCopy := shut t.gateCopy
      moving := t.moving.filter fun m => m.1 != die
      wq := t.wq.filter fun o => o.die != die || t.allGroups.any fun g => g.key == o.group }
    let t := parts.foldl State.reshare t
    .next (t.setDie die fun x => { x with present := false, failed := true, fullService := false, mhz := 0 })

/-- ROOT_TAKEOVER (R390): the other instance serves both ports. A command of the lost port that was not yet committed is answered with
RETRY; a QDESTROY under way may be on either side (log 1). -/
def execRootTakeover (lost : Nat) (s : State) : Out :=
  if 2 ≤ lost ∨ s.roots.missed < 3 ∨ s.roots.primary ≠ (lost == 0) ∨ !(s.pf lost).alive ∨ !(s.pf (1 - lost)).alive then .next s
  else
    let s := s.setPf lost fun p => { p with alive := false }
    let s := { s with roots := { s.roots with missed := 0 } }
    let mine (q : Queue) : Bool := q.dying.any fun d => d.1 == lost
    if (s.pf lost).done ∨ Config.choice s.tick 0xF200 % 2 = 0 then .next s
    else
      let tag := (((s.queues.find? mine).bind (·.dying)).map (·.2)).getD 0
      .next ({ s with queues := updateAll mine (fun q => { q with dying := none }) s.queues }.respond lost tag mbRetry)

/-! ### Fatal errors (R410, R411) -/

/-- A record of a dump section. -/
def dumpRecord (ty : Nat) (body : List Byte) : List Byte := bytesOfNat 4 ty ++ bytesOfNat 4 body.length ++ body

/-- Words as bytes. -/
def wordBytes (ws : List W64) : List Byte := ws.flatMap fun w => bytesOfNat 8 w.toNat

/-- A group: frame words, then v0 to v63 of all lanes. -/
def State.dumpGroup (s : State) (g : Group) : List Byte :=
  let t := { s with grp := g }
  let sel : SlotId := if g.slotA.occ then .a else .b
  dumpRecord 1 (wordBytes ({ t with sel }.frameWords { code := 0 }) ++
    (g.frameRows (g.slot sel).wbase 64).flatMap fun r => r.toList.flatMap fun w => bytesOfNat 4 w.toNat)

/-- A set entry's word and masks (R251). -/
def SetEntry.dumpBytes (e : SetEntry) : List Byte :=
  let n (m : BitVec 256) : Nat := popCount 256 m.toNat
  bytesOfNat 8 (1 + (if e.phase then 2 else 0) + 4 * n (e.member &&& ~~~e.left) + 2048 * n e.arrv) ++
    bytesOfNat 32 e.member.toNat ++ bytesOfNat 32 e.arrv.toNat ++ bytesOfNat 32 e.exited.toNat ++ bytesOfNat 32 e.left.toNat

/-- Records of a gang's gang-memory and scratchpad tiles, with their owner bits, of its tile-store tiles (R411, log 31). -/
def Gang.dumpTiles (g : Gang) : List Byte :=
  let owner (t : Bool × Nat) : List Byte := bytesOfNat 8 (if g.owner t = .thread then 0 else 1)
  ((List.range (g.shared / 1024)).flatMap fun i => dumpRecord 3 (memRead g.gm (1024 * i) 1024 ++ owner (false, i))) ++
    ((List.range g.scratch).flatMap fun i => dumpRecord 3 (memRead g.sp (4096 * i) 4096 ++ owner (true, i))) ++
    (List.range g.quota).flatMap fun h => dumpRecord 4 ((List.range 2048).flatMap fun k => bytesOfNat 4 (tileGet g.tiles (2048 * h + k)).toNat)

/-- A plane with its type and poisoned mark (R411, log 31). -/
def Plane.dump (p : Plane) : List Byte :=
  let ty := match p.ty with
    | some t => 1 + 2 * (tyCode t).toNat
    | none => 0
  dumpRecord 5 (bytesOfNat 8 (ty + (if p.poisoned then 2 ^ 8 else 0)) ++ p.bytes)

/-- An engine operation (R411, log 31): its number, its instruction, the channel or step count it has reached. -/
def OpKind.dump : OpKind → List Nat
  | .gather x => [1, x.k]
  | .tcopy x => [2, x.d]
  | .put x => [3, x.len]
  | .nmcall x => [4, x.k]
  | .ixred x => [5, x.rows.length]
  | .walk x => [6, x.next]
  | .coll x => [7, x.p]
  | .gred x => [8, x.results.length]
  | .gpwait g => [9, g]
  | .dpost _ r _ _ _ => [10, r]
  | .xcal _ r _ _ => [11, r]
  | .xrun x => [12, x.round]
  | .rred _ t _ _ _ => [13, t]
def EngineOp.dump (o : EngineOp) : List Byte := dumpRecord 6 ((o.id :: o.kind.dump).flatMap (bytesOfNat 8))

/-- The states of a group's futures (R411, log 31). -/
def Group.dumpFutures (g : Group) : List Byte := dumpRecord 6 (wordBytes (g.f.toList.map Future.word))

/-- The NMUs and sequencers (R411, log 31): each channel's queued steps, each stack's collective and its line position. -/
def State.dumpUnits (s : State) : List Byte :=
  dumpRecord 12 ((s.nmus.flatMap fun u => ([u.ch, u.queue.length] ++ u.queue.map NmuStep.op).flatMap (bytesOfNat 8)) ++
    (List.range 12).flatMap fun k => match s.running k with
      | some (o, x) => [k, o.id, x.p].flatMap (bytesOfNat 8)
      | none => [])

/-- STATE of a descriptor (R389). -/
def CtxState.code : CtxState → Nat
  | .absent => 0
  | .loading => 1
  | .resident => 2
  | .active => 3
  | .saving => 4
  | .saved => 5
  | .terminated => 6

/-- A context descriptor (R389). -/
def Ctx.descriptor (c : Ctx) : List Byte :=
  bytesOfNat 8 (1 + 2 * c.state.code + (if c.paused then 16 else 0) + 32 * c.bank + 128 * c.part + 4096 * c.vf) ++ bytesOfNat 8 c.s1root ++
    bytesOfNat 8 c.s2root ++ bytesOfNat 8 c.dfc ++ bytesOfNat 8 c.pver ++ bytesOfNat 8 c.save ++ bytesOfNat 8 c.carry ++ bytesOfNat 8 0

/-- A bank table entry (R204), and a share's words: tile store (R237), gang memory and sets (R243), scratchpad tiles of a quadrant
(R273). -/
def Share.bankWord (h : Share) : Nat := 1 + 2 * h.vf + 2 ^ 12 * h.rbase + 2 ^ 21 * h.rcount + 2 ^ 32 * h.cslots
def Share.tileWord (h : Share) : Nat := 1 + 2 * h.tbase + 2 ^ 9 * h.tcount
def Share.memoryWord (h : Share) : Nat := 1 + 2 * h.mbase + 2 ^ 11 * h.mcount + 2 ^ 22 * h.sbase + 2 ^ 30 * h.scount
def Share.scratchWord (h : Share) (quad : Nat) : Nat := 1 + 2 * (2048 * quad + h.pbase) + 2 ^ 14 * h.pcount

/-- The four words of a quadrant's banks, bank by bank; 0, which is not VALID, for a bank that no context holds. -/
def State.bankWords (s : State) (die quad : Nat) (f : Share → Nat) : List Byte :=
  let part := ((s.gates.toList[4 * die + quad]?).map (·.part)).getD 31
  (List.range 4).flatMap fun b => bytesOfNat 8 (((s.shares.find? fun h => h.part == part && h.bank == b).map f).getD 0)

/-- The bank table of a core of a quadrant, with its active-bank pointer (R204, log 31): ABANK shows 0 while the partition has no ACTIVE
context (DESIGN CHOICE, log 31). -/
def State.bankTable (s : State) (die quad : Nat) : List Byte :=
  let part := ((s.gates.toList[4 * die + quad]?).map (·.part)).getD 31
  s.bankWords die quad Share.bankWord ++ bytesOfNat 8 (((s.abank.find? fun a => a.1 == part).map (·.2)).getD 0)

/-- Something for each quadrant of the package, `n` times each. -/
def perQuad (n : Nat) (f : Nat → Nat → List Byte) : List Byte :=
  (List.range 6).flatMap fun d => (List.range 4).flatMap fun q => (List.replicate n (f d q)).flatten

/-- The shares: of every cluster, then of every quadrant's scratchpad (R237, R243, R273, log 31). -/
def State.shareWords (s : State) : List Byte :=
  perQuad 10 (fun d q => s.bankWords d q Share.tileWord ++ s.bankWords d q Share.memoryWord) ++
    perQuad 1 fun d q => s.bankWords d q fun h => h.scratchWord q

/-- The device section: records of types 7 to 10 and 12 (R411). -/
def State.deviceSection (s : State) : List Byte :=
  dumpRecord 7 (perQuad 40 s.bankTable) ++ dumpRecord 8 s.shareWords ++
    dumpRecord 9 ((List.range 768).flatMap fun i => bytesOfNat 8 (if i ∈ s.regions then 1 else 0)) ++
    dumpRecord 10 (s.gates.toList.flatMap fun g => bytesOfNat 8 ((if g.lock then 1 else 0) + 2 * g.part)) ++ s.dumpUnits

/-- Saved gangs of a VF whose state is in no image: of a context that is still SAVING or LOADING, past the chunks it has written (R413, log 27). -/
def State.unwritten (s : State) (vf : Nat) : List Saved :=
  (s.ctxs.filter fun c => c.vf == vf && (c.state == .saving || c.state == .loading)).flatMap fun c =>
    (s.saved.filter fun v => v.gang.vf == vf && v.gang.part == c.part).drop c.chunks

/-- The section of a VF: records of types 1 to 6 and 11 (R411, R413, log 31). -/
def State.tenantSection (s : State) (vf : Nat) : List Byte :=
  let groups := (s.allGroups.filter fun g => g.vf == vf) ++ (s.unwritten vf).flatMap (·.groups)
  let gangs := (s.gangs.filter fun g => g.vf == vf) ++ (s.unwritten vf).map (·.gang)
  let planes := (s.planes.filter fun p => gangs.any fun g => g.key == p.gang) ++ (s.unwritten vf).flatMap (·.planes)
  groups.flatMap s.dumpGroup ++ (gangs.flatMap fun g => g.sets.flatMap fun e => dumpRecord 2 e.dumpBytes) ++ gangs.flatMap Gang.dumpTiles ++
    (planes.flatMap fun p => p.active.dump ++ p.shadow.dump) ++ ((s.ops.filter fun o => o.vf == vf).flatMap EngineOp.dump) ++
    groups.flatMap Group.dumpFutures ++ (s.ctxs.filter fun c => c.vf == vf).flatMap fun c => dumpRecord 11 c.descriptor

/-- A sealed section: ciphertext and tag. -/
def sealed (key iv plain : List Byte) : List Byte :=
  let (ct, tag) := Config.gcmSeal key iv [] plain
  ct ++ slice tag 0 16

/-- The sections with their VF and counter: the device's first, then one of every VF with a context (R411). -/
def State.dumpSections (s : State) : List (Option Nat × Nat × List Byte) :=
  (none, 0, sealed (rootKey labelDump) (bytesOfNat 2 0 ++ [4, 0] ++ bytesOfNat 8 0) s.deviceSection) ::
    (distinct (s.ctxs.map (·.vf))).map fun v =>
      let n := ((s.vf v).map (·.saveCtr)).getD 0
      (some v, n, sealed (s.vfKey v labelDump) (bytesOfNat 2 v ++ [4, 0] ++ bytesOfNat 8 n) (s.tenantSection v))

/-- The map of a dump and the sections after it (R411; the places of a section's bit fields: log 31). -/
def dumpImage (now cls : Nat) (ss : List (Option Nat × Nat × List Byte)) : List Byte :=
  let start := 64 + 32 * ss.length
  let at_ (k : Nat) : Nat := start + ((ss.take k).map fun x => x.2.2.length).sum
  bytesOfNat 8 1 ++ bytesOfNat 8 now ++ bytesOfNat 4 cls ++ bytesOfNat 4 ss.length ++ bytesOfNat 40 0 ++
    ((List.range ss.length).flatMap fun k =>
      let x := ss.getD k (none, 0, [])
      bytesOfNat 8 (at_ k) ++ bytesOfNat 8 x.2.2.length ++ bytesOfNat 8 (match x.1 with
        | some v => 2 ^ 16 + 2 ^ 19 * v + 2 ^ 32 * (x.2.1 % 256)
        | none => 0) ++ bytesOfNat 8 0) ++ ss.flatMap (·.2.2)

/-- FATAL_ERROR (R410, R411): every group stops, both ports report it, the dump is written. -/
def execFatalError (cls : Nat) (s : State) : Out :=
  if s.fatal ∨ cls = 0 ∨ 3 < cls then .next s
  else
    let ss := s.dumpSections
    let may (v : Option Nat) : Bool := match v with
      | some v => ((s.policyOf v).map fun p => bits p.permit 3 2 == 1).getD false
      | none => true
    .next ({ s with
      fatal := true
      mem := memWrite s.mem Config.dumpBase (dumpImage s.time cls ss)
      dump := some ⟨cls, s.time, ss.map fun (x : Option Nat × Nat × List Byte) => (may x.1, x.1.getD 0, x.2.2)⟩
      vfs := s.vfs.map fun (v : Vf) => if (s.ctxs.any fun c => c.vf == v.vf) then { v with saveCtr := v.saveCtr + 1 } else v }.tell
        [.internalError 0, .internalError 1])

/-- PACKAGE_RESET (R132, R408, R410, R412): bring-up begins again, and $time from 0; stacks that stay powered keep the dump, which a reset may
leave open (log 34). The package's number, the host's memory and what has left the package are outside it (log 34). -/
def execPackageReset (s : State) : Out :=
  .next { State.reset with
    agenda := s.agenda, tick := s.tick, nextId := s.nextId, pkg := s.pkg, hmem := s.hmem, host := s.host, net := s.net
    planesP := s.planesP, badPorts := s.badPorts
    mem := s.mem.filter fun c => decide (Config.dumpBase ≤ c.1)
    dump := if Config.choice s.tick 0xF400 % 2 = 0 then s.dump else none }

end Sys2Proof.Machine
end

