-- ==== Sys2Proof/Machine/Predicate.lean ====
section
/-! DEFINITION. Predicate instructions (R135, R136). -/
namespace Sys2Proof.Machine

/-- A predicate written in the active lanes (R136). -/
def predWrite (s : State) (words : Nat) (g : Option Guard) (d : PReg) (v : LaneMask) : Out :=
  let m := s.active g
  .next ((s.setRp d ((s.rp d &&& ~~~m) ||| (v &&& m))).advance words)

/-- Operand b, inverted under .nb. -/
def State.rpInv (s : State) (nb : Bool) (p : PReg) : LaneMask := if nb then ~~~s.rp p else s.rp p

/-- PPACK and PUNPK (R136). -/
def ppackOp (s : State) (words : Nat) (g : Option Guard) (d : VReg) : Out :=
  vecInt s words g [] d 1 fun l =>
    (List.range 8).foldl (fun acc k => if ((s.grp.p[k]?).getD 0).getLsbD l then acc + 2 ^ k else acc) 0
def punpkOp (s : State) (words : Nat) (g : Option Guard) (a : VReg) : Out :=
  finish s do
    s.vcheck [(a, 1)] []
    let m := s.active g
    let v (k : Nat) := maskOf fun l => (s.src (.v a) .b32 l).testBit k
    .ok ((s.setGrp fun g => { g with p := Vector.ofFn fun k => (g.p[k] &&& ~~~m) ||| (v k &&& m) }).advance words)

def execPand (nb : Bool) (d a b : PReg) (s : State) : Out := predWrite s 1 none d (s.rp a &&& s.rpInv nb b)
def execPandW1 (g : Option Guard) (nb : Bool) (d a b : PReg) (s : State) : Out := predWrite s 3 g d (s.rp a &&& s.rpInv nb b)
def execPor (nb : Bool) (d a b : PReg) (s : State) : Out := predWrite s 1 none d (s.rp a ||| s.rpInv nb b)
def execPorW1 (g : Option Guard) (nb : Bool) (d a b : PReg) (s : State) : Out := predWrite s 3 g d (s.rp a ||| s.rpInv nb b)
def execPxor (nb : Bool) (d a b : PReg) (s : State) : Out := predWrite s 1 none d (s.rp a ^^^ s.rpInv nb b)
def execPxorW1 (g : Option Guard) (nb : Bool) (d a b : PReg) (s : State) : Out := predWrite s 3 g d (s.rp a ^^^ s.rpInv nb b)
def execPnot (d a : PReg) (s : State) : Out := predWrite s 1 none d (~~~s.rp a)
def execPnotW1 (g : Option Guard) (d a : PReg) (s : State) : Out := predWrite s 3 g d (~~~s.rp a)
def execPmov (d a : PReg) (s : State) : Out := predWrite s 1 none d (s.rp a)
def execPmovW1 (g : Option Guard) (d a : PReg) (s : State) : Out := predWrite s 3 g d (s.rp a)
def execPpack (d : VReg) (s : State) : Out := ppackOp s 1 none d
def execPpackW1 (g : Option Guard) (d : VReg) (s : State) : Out := ppackOp s 3 g d
def execPunpk (a : VReg) (s : State) : Out := punpkOp s 1 none a
def execPunpkW1 (g : Option Guard) (a : VReg) (s : State) : Out := punpkOp s 3 g a
def execPany (d : SReg) (a : PReg) (s : State) : Out := scalarOp s 1 d (if s.rp a &&& s.slot.mask ≠ 0 then 1 else 0)
def execPall (d : SReg) (a : PReg) (s : State) : Out := scalarOp s 1 d (if s.slot.mask &&& ~~~s.rp a = 0 then 1 else 0)

end Sys2Proof.Machine
end

