-- ==== Sys2Proof/Machine/Rng.lean ====
section
/-! DEFINITION. Random numbers (R166, R167). -/
namespace Sys2Proof.Machine

/-- The FP32 value floor(h / 2^8) × 2^-24 (R167). -/
def unitOf (h : Nat) : Nat := (roundFin (fmtOf .f32) .rne 0 false false (h / 2 ^ 8) (-24)).1

/-- RNG (R167): one draw of the counter, taken even when no lane is active. -/
def rngOp (s : State) (words : Nat) (g : Option Guard) (unit : Bool) (d : VReg) : Out :=
  finish s do
    s.vcheck [] [(d, 1)]
    let t := s.vput d 1 (s.active g) fun l => if unit then unitOf (s.draw 0 l) else s.draw 0 l
    .ok ((t.drawn 1).advance words)

def execRngseed (a b : SReg) (s : State) : Out :=
  .next ((s.setGrp fun g => { g with rngk := s.rs a, rngc := s.rs b }).advance 1)
def execRng (unit : Bool) (d : VReg) (s : State) : Out := rngOp s 1 none unit d
def execRngW1 (g : Option Guard) (unit : Bool) (d : VReg) (s : State) : Out := rngOp s 3 g unit d
def execRngskip (a : SReg) (s : State) : Out := .next ((s.setGrp fun g => { g with rngc := g.rngc + s.rs a }).advance 1)

end Sys2Proof.Machine
end

