-- ==== Sys2Proof/Machine/Scalar.lean ====
section
/-! DEFINITION. Scalar integer instructions (R112 to R117). -/
namespace Sys2Proof.Machine

/-- ⌊a × b / 2^w⌋ mod 2^w of integers (R114, R142). -/
def mulHigh (w : Nat) (a b : Int) : Nat := wrap w (a * b / (2 ^ w : Nat))

/-- SMULH's value (R114). -/
def smulhVal (u : Bool) (a b : W64) : W64 := BitVec.ofNat 64 (mulHigh 64 (signOr u 64 a.toNat) (signOr u 64 b.toNat))
/-- SMIN's and SMAX's value (R114). -/
def sminVal (u : Bool) (a b : W64) : W64 := BitVec.ofNat 64 (minBy u 64 a.toNat b.toNat)
def smaxVal (u : Bool) (a b : W64) : W64 := BitVec.ofNat 64 (maxBy u 64 a.toNat b.toNat)
/-- SCMP's value (R114). -/
def scmpVal (cc : Cmp) (a b : W64) : W64 := if cmpHolds cc 64 a.toNat b.toNat then 1 else 0

def execSadd (d a b : SReg) (s : State) : Out := scalarOp s 1 d (s.rs a + s.rs b)
def execSaddLit (d a : SReg) (lit : W64) (s : State) : Out := scalarOp s 3 d (s.rs a + lit)
def execSaddImm (d a : SReg) (i : BitVec 10) (s : State) : Out := scalarOp s 1 d (s.rs a + i.signExtend 64)
def execSsub (d a b : SReg) (s : State) : Out := scalarOp s 1 d (s.rs a - s.rs b)
def execSsubLit (d a : SReg) (lit : W64) (s : State) : Out := scalarOp s 3 d (s.rs a - lit)
def execSmul (d a b : SReg) (s : State) : Out := scalarOp s 1 d (s.rs a * s.rs b)
def execSmulLit (d a : SReg) (lit : W64) (s : State) : Out := scalarOp s 3 d (s.rs a * lit)
def execSmulh (u : Bool) (d a b : SReg) (s : State) : Out := scalarOp s 1 d (smulhVal u (s.rs a) (s.rs b))
def execSmulhLit (u : Bool) (d a : SReg) (lit : W64) (s : State) : Out := scalarOp s 3 d (smulhVal u (s.rs a) lit)
def execSand (d a b : SReg) (s : State) : Out := scalarOp s 1 d (s.rs a &&& s.rs b)
def execSandLit (d a : SReg) (lit : W64) (s : State) : Out := scalarOp s 3 d (s.rs a &&& lit)
def execSandImm (d a : SReg) (i : BitVec 10) (s : State) : Out := scalarOp s 1 d (s.rs a &&& i.signExtend 64)
def execSor (d a b : SReg) (s : State) : Out := scalarOp s 1 d (s.rs a ||| s.rs b)
def execSorLit (d a : SReg) (lit : W64) (s : State) : Out := scalarOp s 3 d (s.rs a ||| lit)
def execSorImm (d a : SReg) (i : BitVec 10) (s : State) : Out := scalarOp s 1 d (s.rs a ||| i.signExtend 64)
def execSxor (d a b : SReg) (s : State) : Out := scalarOp s 1 d (s.rs a ^^^ s.rs b)
def execSxorLit (d a : SReg) (lit : W64) (s : State) : Out := scalarOp s 3 d (s.rs a ^^^ lit)
def execSxorImm (d a : SReg) (i : BitVec 10) (s : State) : Out := scalarOp s 1 d (s.rs a ^^^ i.signExtend 64)
def execSshl (d a b : SReg) (s : State) : Out := scalarOp s 1 d (BitVec.ofNat 64 (shiftLeft 64 (s.rs a).toNat (s.rs b).toNat))
def execSshlImm (d a : SReg) (i : BitVec 6) (s : State) : Out := scalarOp s 1 d (BitVec.ofNat 64 (shiftLeft 64 (s.rs a).toNat i.toNat))
def execSshr (d a b : SReg) (s : State) : Out := scalarOp s 1 d (BitVec.ofNat 64 (shiftRight 64 (s.rs a).toNat (s.rs b).toNat))
def execSshrImm (d a : SReg) (i : BitVec 6) (s : State) : Out := scalarOp s 1 d (BitVec.ofNat 64 (shiftRight 64 (s.rs a).toNat i.toNat))
def execSsra (d a b : SReg) (s : State) : Out := scalarOp s 1 d (BitVec.ofNat 64 (shiftArith 64 (s.rs a).toNat (s.rs b).toNat))
def execSsraImm (d a : SReg) (i : BitVec 6) (s : State) : Out := scalarOp s 1 d (BitVec.ofNat 64 (shiftArith 64 (s.rs a).toNat i.toNat))
def execSmin (u : Bool) (d a b : SReg) (s : State) : Out := scalarOp s 1 d (sminVal u (s.rs a) (s.rs b))
def execSminLit (u : Bool) (d a : SReg) (lit : W64) (s : State) : Out := scalarOp s 3 d (sminVal u (s.rs a) lit)
def execSmax (u : Bool) (d a b : SReg) (s : State) : Out := scalarOp s 1 d (smaxVal u (s.rs a) (s.rs b))
def execSmaxLit (u : Bool) (d a : SReg) (lit : W64) (s : State) : Out := scalarOp s 3 d (smaxVal u (s.rs a) lit)
def execScmp (cc : Cmp) (d a b : SReg) (s : State) : Out := scalarOp s 1 d (scmpVal cc (s.rs a) (s.rs b))
def execScmpLit (cc : Cmp) (d a : SReg) (lit : W64) (s : State) : Out := scalarOp s 3 d (scmpVal cc (s.rs a) lit)
def execSsel (d a b c : SReg) (s : State) : Out := scalarOp s 3 d (if s.rs c ≠ 0 then s.rs a else s.rs b)
def execSmov (d a : SReg) (s : State) : Out := scalarOp s 1 d (s.rs a)
def execSliW2 (d : SReg) (w : W32) (s : State) : Out := scalarOp s 3 d (w.signExtend 64)
def execSliLit (d : SReg) (lit : W64) (s : State) : Out := scalarOp s 3 d lit
def execSliImm (d : SReg) (i : BitVec 10) (s : State) : Out := scalarOp s 1 d (i.signExtend 64)
def execSpopc (d a : SReg) (s : State) : Out := scalarOp s 1 d (BitVec.ofNat 64 (popCount 64 (s.rs a).toNat))
def execSclz (d a : SReg) (s : State) : Out := scalarOp s 1 d (BitVec.ofNat 64 (leadingZeros 64 (s.rs a).toNat))
def execSbfe (signed : Bool) (d a : SReg) (pos width : BitVec 8) (s : State) : Out :=
  scalarOp s 3 d (BitVec.ofNat 64 (extractField 64 signed (s.rs a).toNat pos.toNat width.toNat))
def execSbfi (d a : SReg) (pos width : BitVec 8) (s : State) : Out :=
  scalarOp s 3 d (BitVec.ofNat 64 (insertField 64 (s.rs d).toNat (s.rs a).toNat pos.toNat width.toNat))

end Sys2Proof.Machine
end

