-- ==== Sys2Proof/Machine/Sfu.lean ====
section
/-! DEFINITION. Special functions: issue (R158 to R160). The result is written by SFU_RESULT. -/
namespace Sys2Proof.Machine

/-- An SFU instruction issues: its inputs are read, its flags set (at issue: DESIGN CHOICE, log 74), its result becomes outstanding
(R159). An empty active set leaves nothing outstanding. -/
def sfuIssue (fn : Nat) (s : State) (words : Nat) (g : Option Guard) (d a : VReg) : Out :=
  finish s do
    s.vcheck [(a, 1)] [(d, 1)]
    let m := s.active g
    if m = 0 then .ok (s.advance words)
    else
      let x (l : Nat) := BitVec.ofNat 32 (s.src (.v a) .b32 l)
      let (id, t) := s.fresh
      let e : Outst :=
        { id, tags := s.tags, cnt := .sfu, pos := s.slot.wbase + d.toNat, regs := 1, pc := s.pc, pend := m, full := m
          lanes := (lanesOf m).map fun l => { lane := l, ea := 0, pieces := [] }
          kind := .sfu fn ((List.range 32).map x) }
      let t := (t.setGrp fun g => { g with outst := g.outst ++ [e] }).orFlags (flagsOver m fun l => (sfuResult fn (x l)).2)
      .ok (t.advance words)

def execXrcp (d a : VReg) (s : State) : Out := sfuIssue 0 s 1 none d a
def execXrcpW1 (g : Option Guard) (d a : VReg) (s : State) : Out := sfuIssue 0 s 3 g d a
def execXrsq (d a : VReg) (s : State) : Out := sfuIssue 1 s 1 none d a
def execXrsqW1 (g : Option Guard) (d a : VReg) (s : State) : Out := sfuIssue 1 s 3 g d a
def execXsqrt (d a : VReg) (s : State) : Out := sfuIssue 2 s 1 none d a
def execXsqrtW1 (g : Option Guard) (d a : VReg) (s : State) : Out := sfuIssue 2 s 3 g d a
def execXexp2 (d a : VReg) (s : State) : Out := sfuIssue 3 s 1 none d a
def execXexp2W1 (g : Option Guard) (d a : VReg) (s : State) : Out := sfuIssue 3 s 3 g d a
def execXlog2 (d a : VReg) (s : State) : Out := sfuIssue 4 s 1 none d a
def execXlog2W1 (g : Option Guard) (d a : VReg) (s : State) : Out := sfuIssue 4 s 3 g d a
def execXsin (d a : VReg) (s : State) : Out := sfuIssue 5 s 1 none d a
def execXsinW1 (g : Option Guard) (d a : VReg) (s : State) : Out := sfuIssue 5 s 3 g d a
def execXcos (d a : VReg) (s : State) : Out := sfuIssue 6 s 1 none d a
def execXcosW1 (g : Option Guard) (d a : VReg) (s : State) : Out := sfuIssue 6 s 3 g d a
def execXtanh (d a : VReg) (s : State) : Out := sfuIssue 7 s 1 none d a
def execXtanhW1 (g : Option Guard) (d a : VReg) (s : State) : Out := sfuIssue 7 s 3 g d a

end Sys2Proof.Machine
end

