-- ==== Sys2Proof/Machine/System.lean ====
section
/-! DEFINITION. System registers, the execution mask, trap-frame reads and the return from a trap, counters, time and sleep
(R70 to R72, R130 to R134, R197). -/
namespace Sys2Proof.Machine

/-- The value SGET reads (R70, R133). -/
def State.sysRead (s : State) (r : SysReg) : W64 :=
  let g := s.grp
  match r with
  | .exec => s.slot.mask.zeroExtend 64
  | .gid => BitVec.ofNat 64 g.gid
  | .role => BitVec.ofNat 64 g.role
  | .gang => BitVec.ofNat 64 (s.gang g.gang).index
  | .core => BitVec.ofNat 64 g.core
  | .cluster => BitVec.ofNat 64 g.cluster
  | .die => BitVec.ofNat 64 g.die
  | .pkg => BitVec.ofNat 64 s.pkg
  | .sp => s.slot.sp
  | .sl => g.sl
  | .tfp => g.tfp
  | .dtb => g.dtb
  | .dtl => g.dtl
  | .rngk => g.rngk
  | .rngc => g.rngc
  | .fmode => g.fmode
  | .time => BitVec.ofNat 64 s.time
  | .wcnt => s.wcnt fun t => t.has s.sel
  | .rsd => g.rsd.zeroExtend 64

/-- SSET's checks and write (R70, R71, R92). DESIGN CHOICE (log 49): for $sl the alignment is checked before the limit. -/
def State.sysWrite (s : State) (r : SysReg) (v : W64) : Res State :=
  let aligned := must (v.toNat % 128 == 0) { code := cMisaligned, addr := v }
  match r with
  | .sp => do
    aligned
    .ok (s.setSlot fun x => { x with sp := v })
  | .sl => do
    aligned
    must (s.grp.priv + 4096 ≤ v) { code := cStackLimit, addr := v }
    .ok (s.setGrp fun g => { g with sl := v })
  | .tfp => do
    aligned
    .ok (s.setGrp fun g => { g with tfp := v })
  | .rngk => .ok (s.setGrp fun g => { g with rngk := v })
  | .rngc => .ok (s.setGrp fun g => { g with rngc := v })
  | .fmode => do
    must (v.toNat % 8 < 6 && v.toNat < 512) { code := cIllegal, addr := s.pc }
    .ok (s.setGrp fun g => { g with fmode := v })
  | _ => s.illegal

/-- SGET (R133). -/
def execSget (d : SReg) (r : SysReg) (s : State) : Out := scalarOp s 1 d (s.sysRead r)

/-- SSET (R133). -/
def execSset (r : SysReg) (a : SReg) (s : State) : Out :=
  finish s do
    let t ← s.sysWrite r (s.rs a)
    .ok (t.advance 1)

/-- EXGET (R134). -/
def execExget (d : SReg) (s : State) : Out := scalarOp s 1 d (s.grp.live ++ s.slot.mask)

/-- EXSET (R134). -/
def execExset (a : SReg) (s : State) : Out :=
  let x := s.slot
  let m := x.mask &&& (s.rs a).extractLsb' 0 32
  finish s
    (if m = x.mask then .ok (s.advance 1)
    else match x.pj with
      | none => s.illegal
      | some j =>
        if m = 0 then s.illegal
        else do
          let t ← s.pushCoil s.sel (x.entry j j x.mask .merge)
          .ok ((t.setSlot fun x => { x with mask := m }).advance 1))

/-- TGET (R197). -/
def execTget (d : SReg) (n : BitVec 9) (s : State) : Out :=
  finish s (match s.grp.trap with
    | none => s.illegal
    | some t =>
      if s.cnt .st ≠ 0 then .error (.hold (s.park .drain))
      else
        let a := t.fa + BitVec.ofNat 64 (8 * n.toNat)
        match s.grpRead a 8 with
        | (.ok bs, s) => .ok ((s.setRs d (BitVec.ofNat 64 (natOfBytes bs))).advance 1)
        | (.error f, _) => raise (s.vaCause f a))

/-- RETT (R197). -/
def execRett (s : State) : Out := finish s s.returnTrap

/-- RDTIME (R132). -/
def execRdtime (d : SReg) (s : State) : Out :=
  if s.drained then .next ((s.setRs d (BitVec.ofNat 64 s.time)).advance 1) else .next (s.park .drain)

/-- Whether the counters that a mask selects are 0: bit 0 LD, 1 ST, 2 SM, 3 TL (R46, R130). -/
def State.countersZero (s : State) (m : BitVec 4) : Bool :=
  (!m.getLsbD 0 || s.cnt .ld == 0) && (!m.getLsbD 1 || s.cnt .st == 0) && (!m.getLsbD 2 || s.cnt .sm == 0) &&
    (!m.getLsbD 3 || s.cnt .tl == 0)

/-- WAITC (R130). -/
def execWaitc (m : BitVec 4) (s : State) : Out := if s.countersZero m then .next (s.advance 1) else .next (s.park .drain)

/-- The deadline of SLEEP: unsigned, saturating (R131). -/
def State.deadline (s : State) (n : W64) : Nat := min (s.time + n.toNat) (2 ^ 64 - 1)

/-- SLEEP (R131). -/
def execSleep (d a : SReg) (s : State) : Out :=
  if s.rs a = 0 then .next ((s.setRs d (BitVec.ofNat 64 s.time)).advance 1)
  else .next (s.park (.sleep d (s.deadline (s.rs a))))

/-- A sleep has ended (R131): the path goes on after its SLEEP. One that RETT resumed at another place starts there (R197). -/
def State.wakeUp (s : State) (d : SReg) : State :=
  let t := s.setRs d (BitVec.ofNat 64 s.time)
  if !t.slot.moved then t.advance 1
  else
    let t := t.setSlot fun x => { x with moved := false }
    if t.slot.idx = t.slot.ctl % 16 + 1 then t.jump t.nextBundle else t.park .none

/-- SLEEP_DEADLINE (R131): the current path, asleep, resumes once its deadline has come. One that RETT resumed asleep fetches its bundle
first, whose word at its program counter is checked (R197). -/
def execSleepDeadline (s : State) : Out :=
  match s.slot.park with
  | .sleep d t =>
    if !s.stirs then .next s
    else if s.slot.ibuf = none then (if s.cachedLine.isSome then execBundleDecode s else execInstructionCacheMiss s)
    else if t ≤ s.time then .next (s.wakeUp d) else .next s
  | _ => .next s

end Sys2Proof.Machine
end

