-- ==== Sys2Proof/Machine/VectorFp.lean ====
section
/-! DEFINITION. Floating-point instructions, conversions and packed pairs (R149 to R157). -/
namespace Sys2Proof.Machine

/-- One rounded result of two operands: the exact value and the flags of forming it, then the rounding (R150). -/
def roundResult (f : Fmt) (mode : Rnd) (draw : Nat) (x : Fp × Flags) : Nat × Flags :=
  let (v, fl) := roundFp f mode draw x.1
  (v, fl ||| x.2)

def fpAdd (mode : Rnd) (x y : Fp) : Fp × Flags := addFp (mode == .rdn) x y
def fpSub (mode : Rnd) (x y : Fp) : Fp × Flags := addFp (mode == .rdn) x (negIf true y)
def fpMul (_ : Rnd) (x y : Fp) : Fp × Flags := mulFp x y

/-- ±a × b ± c, exact (R150): 0 × ∞ is invalid whatever the addend. -/
def fpFma (np na : Bool) (mode : Rnd) (x y z : Fp) : Fp × Flags :=
  let (p, fl) := mulFp x y
  let (r, fl') := addFp (mode == .rdn) (negIf np p) (negIf na z)
  (r, fl ||| fl' ||| nvOf z)

/-- The shape of FADD, FSUB and FMUL (R150). -/
def fpTwo (s : State) (words : Nat) (g : Option Guard) (t : Ty) (rnd : Rnd) (d a : VReg) (b : Src)
    (f : Rnd → Fp → Fp → Fp × Flags) : Out :=
  let n := tyRegs t
  let fm := fmtOf t
  vecRound s words g rnd 1 ((a, n) :: b.reads n) d n fun mode draw l =>
    roundResult fm mode (draw 0) (f mode (decodeFp fm (s.src (.v a) t l)) (decodeFp fm (s.src b t l)))

/-- The shape of FFMA (R150). -/
def fpThree (s : State) (words : Nat) (g : Option Guard) (t : Ty) (rnd : Rnd) (np na : Bool) (d a : VReg) (b : Src) (c : VReg) : Out :=
  let n := tyRegs t
  let fm := fmtOf t
  vecRound s words g rnd 1 ((a, n) :: (c, n) :: b.reads n) d n fun mode draw l =>
    roundResult fm mode (draw 0)
      (fpFma np na mode (decodeFp fm (s.src (.v a) t l)) (decodeFp fm (s.src b t l)) (decodeFp fm (s.src (.v c) t l)))

def execFadd (sc : Bool) (d a b : VReg) (s : State) : Out := fpTwo s 1 none .f32 .rne d a (srcOf sc b) fpAdd
def execFaddW1 (g : Option Guard) (t : Ty) (rnd : Rnd) (sc : Bool) (d a b : VReg) (s : State) : Out := fpTwo s 3 g t rnd d a (srcOf sc b) fpAdd
def execFsub (sc : Bool) (d a b : VReg) (s : State) : Out := fpTwo s 1 none .f32 .rne d a (srcOf sc b) fpSub
def execFsubW1 (g : Option Guard) (t : Ty) (rnd : Rnd) (sc : Bool) (d a b : VReg) (s : State) : Out := fpTwo s 3 g t rnd d a (srcOf sc b) fpSub
def execFmul (sc : Bool) (d a b : VReg) (s : State) : Out := fpTwo s 1 none .f32 .rne d a (srcOf sc b) fpMul
def execFmulW1 (g : Option Guard) (t : Ty) (rnd : Rnd) (sc : Bool) (d a b : VReg) (s : State) : Out := fpTwo s 3 g t rnd d a (srcOf sc b) fpMul
def execFfma (np na sc : Bool) (d a b : VReg) (s : State) : Out := fpThree s 1 none .f32 .rne np na d a (srcOf sc b) 0
def execFfmaW1 (g : Option Guard) (t : Ty) (rnd : Rnd) (np na sc : Bool) (d a b c : VReg) (s : State) : Out :=
  fpThree s 3 g t rnd np na d a (srcOf sc b) c

/-- The shape of FMIN and FMAX (R151). -/
def fpMinMax (s : State) (words : Nat) (g : Option Guard) (t : Ty) (isMax num : Bool) (d a b : VReg) : Out :=
  let n := tyRegs t
  vecOp s words g [(a, n), (b, n)] d n fun l => minmaxBits (fmtOf t) isMax num (s.src (.v a) t l) (s.src (.v b) t l)

def execFmin (num : Bool) (d a b : VReg) (s : State) : Out := fpMinMax s 1 none .f32 false num d a b
def execFminW1 (g : Option Guard) (t : Ty) (num : Bool) (d a b : VReg) (s : State) : Out := fpMinMax s 3 g t false num d a b
def execFmax (num : Bool) (d a b : VReg) (s : State) : Out := fpMinMax s 1 none .f32 true num d a b
def execFmaxW1 (g : Option Guard) (t : Ty) (num : Bool) (d a b : VReg) (s : State) : Out := fpMinMax s 3 g t true num d a b
def execFcmp (g : Option Guard) (t : Ty) (cc : FCmp) (sc : Bool) (d : PReg) (a b : VReg) (s : State) : Out :=
  let n := tyRegs t
  let fm := fmtOf t
  predOp s 3 g ((a, n) :: (srcOf sc b).reads n) d fun l =>
    compareFp cc (decodeFp fm (s.src (.v a) t l)) (decodeFp fm (s.src (srcOf sc b) t l))

/-- The shape of FCLASS (R153): the low bits of the source, the bits above ignored. -/
def fpClass (s : State) (words : Nat) (g : Option Guard) (t : Ty) (d a : VReg) : Out :=
  vecInt s words g [(a, tyRegs t)] d 1 fun l => classOf (fmtOf t) (s.src (.v a) t l % 2 ^ (fmtOf t).bits)

def execFclass (d a : VReg) (s : State) : Out := fpClass s 1 none .f32 d a
def execFclassW1 (g : Option Guard) (t : Ty) (d a : VReg) (s : State) : Out := fpClass s 3 g t d a
def execFrnd (g : Option Guard) (t : Ty) (rnd : Rnd) (d a : VReg) (s : State) : Out :=
  vecRound s 3 g rnd 1 [(a, tyRegs t)] d (tyRegs t) fun mode draw l => integralBits (fmtOf t) mode (draw 0) (s.src (.v a) t l)

/-- Placement of a converted value (R155): sign-extended for a narrow .iN, zero otherwise. -/
def placeCvt (t : Ty) (v : Nat) : Nat :=
  match t with
  | .i8 => wrap 32 (signedOf 8 v)
  | .i16 => wrap 32 (signedOf 16 v)
  | _ => v

def execCvt (g : Option Guard) (t : Ty) (rnd : Rnd) (sat : Bool) (src : Ty) (d a : VReg) (s : State) : Out :=
  vecRound s 3 g rnd 1 [(a, tyRegs src)] d (tyRegs t) fun mode draw l =>
    let (v, fl) := convert src t mode (draw 0) sat (s.src (.v a) src l)
    (placeCvt t v, fl)

/-- The shape of the packed pairs (R156): two 16-bit elements a lane, draws 0 and 1. -/
def packed (s : State) (words : Nat) (g : Option Guard) (t : Ty) (rnd : Rnd) (d a b : VReg) (c : Option VReg)
    (f : Rnd → Fp → Fp → Fp → Fp × Flags) : Out :=
  let fm := fmtOf t
  let reads := (a, 1) :: (b, 1) :: (match c with
    | some c => [(c, 1)]
    | none => [])
  let el (r : VReg) (h l : Nat) := decodeFp fm (bits (s.src (.v r) .b32 l) (16 * h) 16)
  vecRound s words g rnd 2 reads d 1 fun mode draw l =>
    let one (h : Nat) := roundResult fm mode (draw h) (f mode (el a h l) (el b h l) (match c with
      | some c => el c h l
      | none => .fin false 0 0))
    ((one 0).1 + (one 1).1 * 2 ^ 16, (one 0).2 ||| (one 1).2)

def execPkadd (d a b : VReg) (s : State) : Out := packed s 1 none .f16 .rne d a b none fun m x y _ => fpAdd m x y
def execPkaddW1 (g : Option Guard) (t : Ty) (rnd : Rnd) (d a b : VReg) (s : State) : Out := packed s 3 g t rnd d a b none fun m x y _ => fpAdd m x y
def execPkmul (d a b : VReg) (s : State) : Out := packed s 1 none .f16 .rne d a b none fun m x y _ => fpMul m x y
def execPkmulW1 (g : Option Guard) (t : Ty) (rnd : Rnd) (d a b : VReg) (s : State) : Out := packed s 3 g t rnd d a b none fun m x y _ => fpMul m x y
def execPkfma (d a b : VReg) (s : State) : Out := packed s 1 none .f16 .rne d a b (some 0) (fpFma false false)
def execPkfmaW1 (g : Option Guard) (t : Ty) (rnd : Rnd) (d a b c : VReg) (s : State) : Out := packed s 3 g t rnd d a b (some c) (fpFma false false)

end Sys2Proof.Machine
end

