-- ==== Sys2Proof/Machine/VectorInt.lean ====
section
/-! DEFINITION. Vector integer instructions (R141 to R148). -/
namespace Sys2Proof.Machine

/-- Three-operand integer shape: the exact result of a and b as TY reads them, wrapped or clamped (R142). -/
def vecArith (s : State) (words : Nat) (g : Option Guard) (t : Ty) (sat : Bool) (d a : VReg) (b : Src) (f : Int → Int → Int) : Out :=
  let n := tyRegs t
  vecInt s words g ((a, n) :: b.reads n) d n fun l => intResult t sat (f (valueOf t (s.src (.v a) t l)) (valueOf t (s.src b t l)))

/-- Three-operand shape on the w-bit strings. -/
def vecBits (s : State) (words : Nat) (g : Option Guard) (t : Ty) (d a : VReg) (b : Src) (f : Nat → Nat → Nat → Nat) : Out :=
  let n := tyRegs t
  vecInt s words g ((a, n) :: b.reads n) d n fun l => f t.width (s.src (.v a) t l) (s.src b t l)

def addI (x y : Int) : Int := x + y
def subI (x y : Int) : Int := x - y
def mulI (x y : Int) : Int := x * y
def andN (_ x y : Nat) : Nat := x &&& y
def orN (_ x y : Nat) : Nat := x ||| y
def xorN (_ x y : Nat) : Nat := x ^^^ y
def mulhN (u : Bool) (w x y : Nat) : Nat := mulHigh w (signOr u w x) (signOr u w y)

def execVadd (sc : Bool) (d a b : VReg) (s : State) : Out := vecArith s 1 none .i32 false d a (srcOf sc b) addI
def execVaddW1 (g : Option Guard) (t : Ty) (sat sc : Bool) (d a b : VReg) (s : State) : Out := vecArith s 3 g t sat d a (srcOf sc b) addI
def execVaddLit (d a : VReg) (lit : W64) (s : State) : Out := vecArith s 3 none .i32 false d a (.lit lit) addI
def execVaddLitW1 (g : Option Guard) (t : Ty) (sat : Bool) (d a : VReg) (lit : W64) (s : State) : Out := vecArith s 5 g t sat d a (.lit lit) addI
def execVaddImm (d a : VReg) (i : BitVec 10) (s : State) : Out := vecArith s 1 none .i32 false d a (.lit (i.signExtend 64)) addI
def execVsub (sc : Bool) (d a b : VReg) (s : State) : Out := vecArith s 1 none .i32 false d a (srcOf sc b) subI
def execVsubW1 (g : Option Guard) (t : Ty) (sat sc : Bool) (d a b : VReg) (s : State) : Out := vecArith s 3 g t sat d a (srcOf sc b) subI
def execVsubLit (d a : VReg) (lit : W64) (s : State) : Out := vecArith s 3 none .i32 false d a (.lit lit) subI
def execVsubLitW1 (g : Option Guard) (t : Ty) (sat : Bool) (d a : VReg) (lit : W64) (s : State) : Out := vecArith s 5 g t sat d a (.lit lit) subI
def execVmul (sc : Bool) (d a b : VReg) (s : State) : Out := vecArith s 1 none .i32 false d a (srcOf sc b) mulI
def execVmulW1 (g : Option Guard) (t : Ty) (sat sc : Bool) (d a b : VReg) (s : State) : Out := vecArith s 3 g t sat d a (srcOf sc b) mulI
def execVmulLit (d a : VReg) (lit : W64) (s : State) : Out := vecArith s 3 none .i32 false d a (.lit lit) mulI
def execVmulLitW1 (g : Option Guard) (t : Ty) (sat : Bool) (d a : VReg) (lit : W64) (s : State) : Out := vecArith s 5 g t sat d a (.lit lit) mulI
def execVmulh (u sc : Bool) (d a b : VReg) (s : State) : Out := vecBits s 1 none .i32 d a (srcOf sc b) (mulhN u)
def execVmulhW1 (g : Option Guard) (t : Ty) (u sc : Bool) (d a b : VReg) (s : State) : Out := vecBits s 3 g t d a (srcOf sc b) (mulhN u)
def execVmad (g : Option Guard) (t : Ty) (sat sc : Bool) (d a b c : VReg) (s : State) : Out :=
  let n := tyRegs t
  let v (x : Src) (l : Nat) := valueOf t (s.src x t l)
  vecInt s 3 g ((a, n) :: (c, n) :: (srcOf sc b).reads n) d n fun l =>
    intResult t sat (v (.v a) l * v (srcOf sc b) l + v (.v c) l)

/-- VADDC (R143): the sum and its carry, the carry in a predicate. -/
def execVaddc (g : Option Guard) (t : Ty) (sc : Bool) (d a b : VReg) (c : PReg) (s : State) : Out :=
  let n := tyRegs t
  let sum (l : Nat) := s.src (.v a) t l + s.src (srcOf sc b) t l + if (s.rp c).getLsbD l then 1 else 0
  finish s do
    s.vcheck ((a, n) :: (srcOf sc b).reads n) [(d, n)]
    let m := s.active g
    let carry := maskOf fun l => decide (2 ^ t.width ≤ sum l)
    .ok (((s.vput d n m fun l => sum l % 2 ^ t.width).setRp c ((s.rp c &&& ~~~m) ||| (carry &&& m))).advance 3)

def execVand (sc : Bool) (d a b : VReg) (s : State) : Out := vecBits s 1 none .i32 d a (srcOf sc b) andN
def execVandW1 (g : Option Guard) (t : Ty) (sc : Bool) (d a b : VReg) (s : State) : Out := vecBits s 3 g t d a (srcOf sc b) andN
def execVandLit (d a : VReg) (lit : W64) (s : State) : Out := vecBits s 3 none .i32 d a (.lit lit) andN
def execVandLitW1 (g : Option Guard) (t : Ty) (d a : VReg) (lit : W64) (s : State) : Out := vecBits s 5 g t d a (.lit lit) andN
def execVandImm (d a : VReg) (i : BitVec 10) (s : State) : Out := vecBits s 1 none .i32 d a (.lit (i.signExtend 64)) andN
def execVor (sc : Bool) (d a b : VReg) (s : State) : Out := vecBits s 1 none .i32 d a (srcOf sc b) orN
def execVorW1 (g : Option Guard) (t : Ty) (sc : Bool) (d a b : VReg) (s : State) : Out := vecBits s 3 g t d a (srcOf sc b) orN
def execVorLit (d a : VReg) (lit : W64) (s : State) : Out := vecBits s 3 none .i32 d a (.lit lit) orN
def execVorLitW1 (g : Option Guard) (t : Ty) (d a : VReg) (lit : W64) (s : State) : Out := vecBits s 5 g t d a (.lit lit) orN
def execVxor (sc : Bool) (d a b : VReg) (s : State) : Out := vecBits s 1 none .i32 d a (srcOf sc b) xorN
def execVxorW1 (g : Option Guard) (t : Ty) (sc : Bool) (d a b : VReg) (s : State) : Out := vecBits s 3 g t d a (srcOf sc b) xorN
def execVxorLit (d a : VReg) (lit : W64) (s : State) : Out := vecBits s 3 none .i32 d a (.lit lit) xorN
def execVxorLitW1 (g : Option Guard) (t : Ty) (d a : VReg) (lit : W64) (s : State) : Out := vecBits s 5 g t d a (.lit lit) xorN
def execVshl (sc : Bool) (d a b : VReg) (s : State) : Out := vecBits s 1 none .i32 d a (srcOf sc b) shiftLeft
def execVshlW1 (g : Option Guard) (t : Ty) (sc : Bool) (d a b : VReg) (s : State) : Out := vecBits s 3 g t d a (srcOf sc b) shiftLeft
def execVshlImm (d a : VReg) (i : BitVec 5) (s : State) : Out := vecBits s 1 none .i32 d a (.lit (i.zeroExtend 64)) shiftLeft
def execVshr (sc : Bool) (d a b : VReg) (s : State) : Out := vecBits s 1 none .i32 d a (srcOf sc b) shiftRight
def execVshrW1 (g : Option Guard) (t : Ty) (sc : Bool) (d a b : VReg) (s : State) : Out := vecBits s 3 g t d a (srcOf sc b) shiftRight
def execVshrImm (d a : VReg) (i : BitVec 5) (s : State) : Out := vecBits s 1 none .i32 d a (.lit (i.zeroExtend 64)) shiftRight
def execVsra (sc : Bool) (d a b : VReg) (s : State) : Out := vecBits s 1 none .i32 d a (srcOf sc b) shiftArith
def execVsraW1 (g : Option Guard) (t : Ty) (sc : Bool) (d a b : VReg) (s : State) : Out := vecBits s 3 g t d a (srcOf sc b) shiftArith
def execVsraImm (d a : VReg) (i : BitVec 5) (s : State) : Out := vecBits s 1 none .i32 d a (.lit (i.zeroExtend 64)) shiftArith
def execVmin (u sc : Bool) (d a b : VReg) (s : State) : Out := vecBits s 1 none .i32 d a (srcOf sc b) (minBy u)
def execVminW1 (g : Option Guard) (t : Ty) (u sc : Bool) (d a b : VReg) (s : State) : Out := vecBits s 3 g t d a (srcOf sc b) (minBy u)
def execVminLit (u : Bool) (d a : VReg) (lit : W64) (s : State) : Out := vecBits s 3 none .i32 d a (.lit lit) (minBy u)
def execVminLitW1 (g : Option Guard) (t : Ty) (u : Bool) (d a : VReg) (lit : W64) (s : State) : Out := vecBits s 5 g t d a (.lit lit) (minBy u)
def execVmax (u sc : Bool) (d a b : VReg) (s : State) : Out := vecBits s 1 none .i32 d a (srcOf sc b) (maxBy u)
def execVmaxW1 (g : Option Guard) (t : Ty) (u sc : Bool) (d a b : VReg) (s : State) : Out := vecBits s 3 g t d a (srcOf sc b) (maxBy u)
def execVmaxLit (u : Bool) (d a : VReg) (lit : W64) (s : State) : Out := vecBits s 3 none .i32 d a (.lit lit) (maxBy u)
def execVmaxLitW1 (g : Option Guard) (t : Ty) (u : Bool) (d a : VReg) (lit : W64) (s : State) : Out := vecBits s 5 g t d a (.lit lit) (maxBy u)

/-- VPOPC and VCLZ: a count into a single register (R140, R142). -/
def vecCount (s : State) (words : Nat) (g : Option Guard) (t : Ty) (d a : VReg) (f : Nat → Nat → Nat) : Out :=
  vecInt s words g [(a, tyRegs t)] d 1 fun l => f t.width (s.src (.v a) t l)

def execVpopc (d a : VReg) (s : State) : Out := vecCount s 1 none .i32 d a popCount
def execVpopcW1 (g : Option Guard) (t : Ty) (d a : VReg) (s : State) : Out := vecCount s 3 g t d a popCount
def execVclz (d a : VReg) (s : State) : Out := vecCount s 1 none .i32 d a leadingZeros
def execVclzW1 (g : Option Guard) (t : Ty) (d a : VReg) (s : State) : Out := vecCount s 3 g t d a leadingZeros
def execVbfe (g : Option Guard) (t : Ty) (signed : Bool) (d a : VReg) (pos width : BitVec 8) (s : State) : Out :=
  vecInt s 3 g [(a, tyRegs t)] d (tyRegs t) fun l => extractField t.width signed (s.src (.v a) t l) pos.toNat width.toNat
def execVbfi (g : Option Guard) (t : Ty) (d a : VReg) (pos width : BitVec 8) (s : State) : Out :=
  vecInt s 3 g [(a, tyRegs t)] d (tyRegs t) fun l =>
    insertField t.width (s.src (.v d) t l) (s.src (.v a) t l) pos.toNat width.toNat
def execVsel (g : Option Guard) (t : Ty) (d a b : VReg) (c : PReg) (s : State) : Out :=
  let n := tyRegs t
  vecInt s 3 g [(a, n), (b, n)] d n fun l => if (s.rp c).getLsbD l then s.src (.v a) t l else s.src (.v b) t l

/-- VMOV (R146): bits moved from a register, a scalar or a literal. -/
def vecMove (s : State) (words : Nat) (g : Option Guard) (t : Ty) (d : VReg) (a : Src) : Out :=
  vecInt s words g (a.reads (tyRegs t)) d (tyRegs t) fun l => s.src a t l

def execVmov (sc : Bool) (d a : VReg) (s : State) : Out := vecMove s 1 none .i32 d (srcOf sc a)
def execVmovW1 (g : Option Guard) (t : Ty) (sc : Bool) (d a : VReg) (s : State) : Out := vecMove s 3 g t d (srcOf sc a)
def execVmovLit (d : VReg) (lit : W64) (s : State) : Out := vecMove s 3 none .i32 d (.lit lit)
def execVmovLitW1 (g : Option Guard) (t : Ty) (d : VReg) (lit : W64) (s : State) : Out := vecMove s 5 g t d (.lit lit)
def execVcmp (g : Option Guard) (t : Ty) (cc : Cmp) (sc : Bool) (d : PReg) (a b : VReg) (s : State) : Out :=
  let n := tyRegs t
  predOp s 3 g ((a, n) :: (srcOf sc b).reads n) d fun l => (cmpHolds cc t.width (s.src (.v a) t l) (s.src (srcOf sc b) t l), 0)

end Sys2Proof.Machine
end

