-- ==== Sys2Proof/Machine/Wait.lean ====
section
/-! DEFINITION. Waiting on a word (R187 to R189). -/
namespace Sys2Proof.Machine

/-- The scope at which WAITA reads: .grp and .gang read as .die (R187). -/
def waitScope (sc : Scope) : Scope := if isNarrow sc then .die else sc

/-- The check of a waiting path's word (R172, R187): while a walk is open the path waits with its operands as read at issue. -/
def State.waitCheck (s : State) (w : Waiting) : Res (List LaneAcc) :=
  match s.checkGlobal false [{ lane := 0, ea := w.ea, ok := w.ea.toNat % 8 == 0, parts := [(w.ea, 8)] }] (·.r) anyKind with
  | .error (.hold t) => .error (.hold (t.park (.waita { w with miss := true })))
  | r => r

/-- One read of a waiting path (R187), after what the path has loaded of the word before (R302): it completes, stays parked, or raises. -/
def State.waitRead (s : State) (w : Waiting) : Res State := do
  let accs ← s.waitCheck w
  let ps := (accs.map (·.pieces)).flatten
  s.overlapsWait false accs
  let s := s.returnOverlaps false accs
  let (bs, bad, s) := s.loadLane s.grp.here (waitScope w.sc) .dflt ps
  must (!bad) { code := cDataError, addr := w.ea, aux0 := s.pc, lane := some 0 }
  let x := natOfBytes bs
  if cmpHolds w.cc 64 x w.v.toNat then
    let t := (s.setRs w.d (BitVec.ofNat 64 x)).advance w.len
    .ok (if w.acq then t.acquire w.sc else t)
  else .ok (s.park (.waita
    { w with since := s.time, due := false, miss := false, pa := ps.head?.map (·.pa), host := ps.any fun p => p.kind == .host }))

/-- WAITA (R187). -/
def waitOp (s : State) (words : Nat) (cc : Cmp) (sc : Scope) (ord : Order) (off : W32) (d a b : SReg) : Out :=
  memFinish s (s.waitRead
    { ea := s.rs a + off.signExtend 64, v := s.rs b, cc, sc, acq := acquires ord, d, len := words, since := s.time, due := false })

def execWaita (cc : Cmp) (d a b : SReg) (s : State) : Out := waitOp s 1 cc .grp .rlx 0 d a b
def execWaitaW1 (cc : Cmp) (sc : Scope) (ord : Order) (off : W32) (d a b : SReg) (s : State) : Out := waitOp s 3 cc sc ord off d a b

/-- A waiting path of a group that runs reads its word again. -/
def State.reread (s : State) (w : Waiting) : Out :=
  if w.miss ∨ !s.stirs then .next s
  else match memFinish s (s.waitRead w) with
    | .next t => .next (s.paid s.grp.part s.grp.die t)
    | r => r

/-- WAITA_REREAD (R187): the current path, waiting on a word, reads it again. Re-reads may come at any time, but of a HOST page they come
on a WAKE alone (R189), and after the walk that a read waited for. -/
def execWaitaReread (s : State) : Out :=
  match s.slot.park with
  | .waita w => if w.host ∧ !w.due then .next s else s.reread w
  | _ => .next s

/-- WAITA_POLL_TIMEOUT (R187): 100 µs have passed since the path's last read. -/
def execWaitaPollTimeout (s : State) : Out :=
  match s.slot.park with
  | .waita w => if w.since + 100000 ≤ s.time then s.reread w else .next s
  | _ => .next s

/-- A path that waits on the word at a physical address is named by a WAKE (R188). -/
def Slot.wake (x : Slot) (pa : Nat) : Slot :=
  match x.park with
  | .waita w => if w.pa = some pa then { x with park := .waita { w with due := true } } else x
  | _ => x

/-- Whether the paths of a group share the point of a scope with the current group (R188, R297): that of a HOST page is the host port, and
that of an ATOMIC_HOME page the base die, at every scope. -/
def samePoint (sc : Scope) (kind : Kind) (g h : Group) : Bool :=
  g.part == h.part && g.vf == h.vf && (isWide sc || kind != .normal || g.die == h.die)

/-- WAKE (R168, R188, R189; log 18): its address is aligned and translated; after the release of .rel, every path that waits on the word
reads again. -/
def wakeOp (s : State) (words : Nat) (sc : Scope) (ord : Order) (off : W32) (a : SReg) : Out :=
  memFinish s do
    let ea := s.rs a + off.signExtend 64
    let accs ← s.checkGlobal false [{ lane := 0, ea, ok := ea.toNat % 8 == 0, parts := [(ea, 8)] }] (fun _ => true) anyKind
    let p := ((accs.flatMap (·.pieces)).head?).getD ⟨0, 0, .normal⟩
    let t ← s.releaseFor ord sc
    let f (g : Group) : Group :=
      if samePoint sc p.kind s.grp g then { g with slotA := g.slotA.wake p.pa, slotB := g.slotB.wake p.pa } else g
    .ok ({ t with grp := f t.grp, groups := t.groups.map f }.advance words)

def execWake (a : SReg) (s : State) : Out := wakeOp s 1 .grp .rlx 0 a
def execWakeW1 (sc : Scope) (ord : Order) (off : W32) (a : SReg) (s : State) : Out := wakeOp s 3 sc ord off a

end Sys2Proof.Machine
end

