-- ==== Sys2Proof/Machine/Dispatch.lean ====
section
/-! DEFINITION. The meaning of every instruction and event: one arm per constructor of `Instr`. -/
namespace Sys2Proof.Machine

def exec (i : Instr) (s : State) : Host.Outcome State Fault Refusal :=
  match i with
  | .sadd d a b => Sys2Proof.Machine.execSadd d a b s
  | .saddLit d a lit => Sys2Proof.Machine.execSaddLit d a lit s
  | .saddImm d a j => Sys2Proof.Machine.execSaddImm d a j s
  | .ssub d a b => Sys2Proof.Machine.execSsub d a b s
  | .ssubLit d a lit => Sys2Proof.Machine.execSsubLit d a lit s
  | .smul d a b => Sys2Proof.Machine.execSmul d a b s
  | .smulLit d a lit => Sys2Proof.Machine.execSmulLit d a lit s
  | .smulh u d a b => Sys2Proof.Machine.execSmulh u d a b s
  | .smulhLit u d a lit => Sys2Proof.Machine.execSmulhLit u d a lit s
  | .sand d a b => Sys2Proof.Machine.execSand d a b s
  | .sandLit d a lit => Sys2Proof.Machine.execSandLit d a lit s
  | .sandImm d a j => Sys2Proof.Machine.execSandImm d a j s
  | .sor d a b => Sys2Proof.Machine.execSor d a b s
  | .sorLit d a lit => Sys2Proof.Machine.execSorLit d a lit s
  | .sorImm d a j => Sys2Proof.Machine.execSorImm d a j s
  | .sxor d a b => Sys2Proof.Machine.execSxor d a b s
  | .sxorLit d a lit => Sys2Proof.Machine.execSxorLit d a lit s
  | .sxorImm d a j => Sys2Proof.Machine.execSxorImm d a j s
  | .sshl d a b => Sys2Proof.Machine.execSshl d a b s
  | .sshlImm d a j => Sys2Proof.Machine.execSshlImm d a j s
  | .sshr d a b => Sys2Proof.Machine.execSshr d a b s
  | .sshrImm d a j => Sys2Proof.Machine.execSshrImm d a j s
  | .ssra d a b => Sys2Proof.Machine.execSsra d a b s
  | .ssraImm d a j => Sys2Proof.Machine.execSsraImm d a j s
  | .smin u d a b => Sys2Proof.Machine.execSmin u d a b s
  | .sminLit u d a lit => Sys2Proof.Machine.execSminLit u d a lit s
  | .smax u d a b => Sys2Proof.Machine.execSmax u d a b s
  | .smaxLit u d a lit => Sys2Proof.Machine.execSmaxLit u d a lit s
  | .scmp cc d a b => Sys2Proof.Machine.execScmp cc d a b s
  | .scmpLit cc d a lit => Sys2Proof.Machine.execScmpLit cc d a lit s
  | .ssel d a b c => Sys2Proof.Machine.execSsel d a b c s
  | .smov d a => Sys2Proof.Machine.execSmov d a s
  | .sliW2 d w => Sys2Proof.Machine.execSliW2 d w s
  | .sliLit d lit => Sys2Proof.Machine.execSliLit d lit s
  | .sliImm d j => Sys2Proof.Machine.execSliImm d j s
  | .spopc d a => Sys2Proof.Machine.execSpopc d a s
  | .sclz d a => Sys2Proof.Machine.execSclz d a s
  | .sbfe x d a pos width => Sys2Proof.Machine.execSbfe x d a pos width s
  | .sbfi d a pos width => Sys2Proof.Machine.execSbfi d a pos width s
  | .br m off => Sys2Proof.Machine.execBr m off s
  | .brd g target join => Sys2Proof.Machine.execBrd g target join s
  | .call off => Sys2Proof.Machine.execCall off s
  | .calltScalar a => Sys2Proof.Machine.execCalltScalar a s
  | .calltScalarW1 a => Sys2Proof.Machine.execCalltScalarW1 a s
  | .calltLane a => Sys2Proof.Machine.execCalltLane a s
  | .calltLaneW1 g a => Sys2Proof.Machine.execCalltLaneW1 g a s
  | .enter f => Sys2Proof.Machine.execEnter f s
  | .jts a => Sys2Proof.Machine.execJts a s
  | .jtv a => Sys2Proof.Machine.execJtv a s
  | .jtvW1 g a => Sys2Proof.Machine.execJtvW1 g a s
  | .pand nb d a b => Sys2Proof.Machine.execPand nb d a b s
  | .pandW1 g nb d a b => Sys2Proof.Machine.execPandW1 g nb d a b s
  | .por nb d a b => Sys2Proof.Machine.execPor nb d a b s
  | .porW1 g nb d a b => Sys2Proof.Machine.execPorW1 g nb d a b s
  | .pxor nb d a b => Sys2Proof.Machine.execPxor nb d a b s
  | .pxorW1 g nb d a b => Sys2Proof.Machine.execPxorW1 g nb d a b s
  | .pnot d a => Sys2Proof.Machine.execPnot d a s
  | .pnotW1 g d a => Sys2Proof.Machine.execPnotW1 g d a s
  | .pmov d a => Sys2Proof.Machine.execPmov d a s
  | .pmovW1 g d a => Sys2Proof.Machine.execPmovW1 g d a s
  | .ppack d => Sys2Proof.Machine.execPpack d s
  | .ppackW1 g d => Sys2Proof.Machine.execPpackW1 g d s
  | .punpk a => Sys2Proof.Machine.execPunpk a s
  | .punpkW1 g a => Sys2Proof.Machine.execPunpkW1 g a s
  | .pany d a => Sys2Proof.Machine.execPany d a s
  | .pall d a => Sys2Proof.Machine.execPall d a s
  | .trap n => Sys2Proof.Machine.execTrap n s
  | .svc n => Sys2Proof.Machine.execSvc n s
  | .tget d n => Sys2Proof.Machine.execTget d n s
  | .sget d r => Sys2Proof.Machine.execSget d r s
  | .sset r a => Sys2Proof.Machine.execSset r a s
  | .exget d => Sys2Proof.Machine.execExget d s
  | .exset a => Sys2Proof.Machine.execExset a s
  | .rdtime d => Sys2Proof.Machine.execRdtime d s
  | .spawn r d a => Sys2Proof.Machine.execSpawn r d a s
  | .fwait d f => Sys2Proof.Machine.execFwait d f s
  | .ftest d f => Sys2Proof.Machine.execFtest d f s
  | .fcancel f => Sys2Proof.Machine.execFcancel f s
  | .fexp d f => Sys2Proof.Machine.execFexp d f s
  | .fimp f a => Sys2Proof.Machine.execFimp f a s
  | .waitc m => Sys2Proof.Machine.execWaitc m s
  | .sleep d a => Sys2Proof.Machine.execSleep d a s
  | .waita cc d a b => Sys2Proof.Machine.execWaita cc d a b s
  | .waitaW1 cc sc ord off d a b => Sys2Proof.Machine.execWaitaW1 cc sc ord off d a b s
  | .wake a => Sys2Proof.Machine.execWake a s
  | .wakeW1 sc ord off a => Sys2Proof.Machine.execWakeW1 sc ord off a s
  | .ldstat q ty f a => Sys2Proof.Machine.execLdstat q ty f a s
  | .swap q => Sys2Proof.Machine.execSwap q s
  | .mmq q fus n ty sn t a b => Sys2Proof.Machine.execMmq q fus n ty sn t a b s
  | .mmqs q fus n ty sn t a b => Sys2Proof.Machine.execMmqs q fus n ty sn t a b s
  | .talloc d => Sys2Proof.Machine.execTalloc d s
  | .tfree a => Sys2Proof.Machine.execTfree a s
  | .tzero a => Sys2Proof.Machine.execTzero a s
  | .tld c d a => Sys2Proof.Machine.execTld c d a s
  | .tst c ty rnd sat d a => Sys2Proof.Machine.execTst c ty rnd sat d a s
  | .barv d a => Sys2Proof.Machine.execBarv d a s
  | .bwait a b => Sys2Proof.Machine.execBwait a b s
  | .bsync a => Sys2Proof.Machine.execBsync a s
  | .setleave a => Sys2Proof.Machine.execSetleave a s
  | .gather ty f a => Sys2Proof.Machine.execGather ty f a s
  | .tcopy out sc ord cp f a => Sys2Proof.Machine.execTcopy out sc ord cp f a s
  | .rfence a => Sys2Proof.Machine.execRfence a s
  | .put sp sc ord f a => Sys2Proof.Machine.execPut sp sc ord f a s
  | .townThread a b => Sys2Proof.Machine.execTownThread a b s
  | .townEngine a b => Sys2Proof.Machine.execTownEngine a b s
  | .gpwait d => Sys2Proof.Machine.execGpwait d s
  | .gpwaitT d a => Sys2Proof.Machine.execGpwaitT d a s
  | .gpwaitF f => Sys2Proof.Machine.execGpwaitF f s
  | .gpwaitFT f a => Sys2Proof.Machine.execGpwaitFT f a s
  | .dfree a => Sys2Proof.Machine.execDfree a s
  | .nmcall sc ord entry f a => Sys2Proof.Machine.execNmcall sc ord entry f a s
  | .ixred ty sc ord a => Sys2Proof.Machine.execIxred ty sc ord a s
  | .walk sc ord f a => Sys2Proof.Machine.execWalk sc ord f a s
  | .coll sc ord f a => Sys2Proof.Machine.execColl sc ord f a s
  | .dpost round f a => Sys2Proof.Machine.execDpost round f a s
  | .xrun f a => Sys2Proof.Machine.execXrun f a s
  | .xcal f a => Sys2Proof.Machine.execXcal f a s
  | .vadd x d a b => Sys2Proof.Machine.execVadd x d a b s
  | .vaddW1 g ty sat x d a b => Sys2Proof.Machine.execVaddW1 g ty sat x d a b s
  | .vaddLit d a lit => Sys2Proof.Machine.execVaddLit d a lit s
  | .vaddLitW1 g ty sat d a lit => Sys2Proof.Machine.execVaddLitW1 g ty sat d a lit s
  | .vaddImm d a j => Sys2Proof.Machine.execVaddImm d a j s
  | .vsub x d a b => Sys2Proof.Machine.execVsub x d a b s
  | .vsubW1 g ty sat x d a b => Sys2Proof.Machine.execVsubW1 g ty sat x d a b s
  | .vsubLit d a lit => Sys2Proof.Machine.execVsubLit d a lit s
  | .vsubLitW1 g ty sat d a lit => Sys2Proof.Machine.execVsubLitW1 g ty sat d a lit s
  | .vmul x d a b => Sys2Proof.Machine.execVmul x d a b s
  | .vmulW1 g ty sat x d a b => Sys2Proof.Machine.execVmulW1 g ty sat x d a b s
  | .vmulLit d a lit => Sys2Proof.Machine.execVmulLit d a lit s
  | .vmulLitW1 g ty sat d a lit => Sys2Proof.Machine.execVmulLitW1 g ty sat d a lit s
  | .vmulh u x d a b => Sys2Proof.Machine.execVmulh u x d a b s
  | .vmulhW1 g ty u x d a b => Sys2Proof.Machine.execVmulhW1 g ty u x d a b s
  | .vmad g ty sat x d a b c => Sys2Proof.Machine.execVmad g ty sat x d a b c s
  | .vaddc g ty x d a b c => Sys2Proof.Machine.execVaddc g ty x d a b c s
  | .vand x d a b => Sys2Proof.Machine.execVand x d a b s
  | .vandW1 g ty x d a b => Sys2Proof.Machine.execVandW1 g ty x d a b s
  | .vandLit d a lit => Sys2Proof.Machine.execVandLit d a lit s
  | .vandLitW1 g ty d a lit => Sys2Proof.Machine.execVandLitW1 g ty d a lit s
  | .vandImm d a j => Sys2Proof.Machine.execVandImm d a j s
  | .vor x d a b => Sys2Proof.Machine.execVor x d a b s
  | .vorW1 g ty x d a b => Sys2Proof.Machine.execVorW1 g ty x d a b s
  | .vorLit d a lit => Sys2Proof.Machine.execVorLit d a lit s
  | .vorLitW1 g ty d a lit => Sys2Proof.Machine.execVorLitW1 g ty d a lit s
  | .vxor x d a b => Sys2Proof.Machine.execVxor x d a b s
  | .vxorW1 g ty x d a b => Sys2Proof.Machine.execVxorW1 g ty x d a b s
  | .vxorLit d a lit => Sys2Proof.Machine.execVxorLit d a lit s
  | .vxorLitW1 g ty d a lit => Sys2Proof.Machine.execVxorLitW1 g ty d a lit s
  | .vshl x d a b => Sys2Proof.Machine.execVshl x d a b s
  | .vshlW1 g ty x d a b => Sys2Proof.Machine.execVshlW1 g ty x d a b s
  | .vshlImm d a j => Sys2Proof.Machine.execVshlImm d a j s
  | .vshr x d a b => Sys2Proof.Machine.execVshr x d a b s
  | .vshrW1 g ty x d a b => Sys2Proof.Machine.execVshrW1 g ty x d a b s
  | .vshrImm d a j => Sys2Proof.Machine.execVshrImm d a j s
  | .vsra x d a b => Sys2Proof.Machine.execVsra x d a b s
  | .vsraW1 g ty x d a b => Sys2Proof.Machine.execVsraW1 g ty x d a b s
  | .vsraImm d a j => Sys2Proof.Machine.execVsraImm d a j s
  | .vmin u x d a b => Sys2Proof.Machine.execVmin u x d a b s
  | .vminW1 g ty u x d a b => Sys2Proof.Machine.execVminW1 g ty u x d a b s
  | .vminLit u d a lit => Sys2Proof.Machine.execVminLit u d a lit s
  | .vminLitW1 g ty u d a lit => Sys2Proof.Machine.execVminLitW1 g ty u d a lit s
  | .vmax u x d a b => Sys2Proof.Machine.execVmax u x d a b s
  | .vmaxW1 g ty u x d a b => Sys2Proof.Machine.execVmaxW1 g ty u x d a b s
  | .vmaxLit u d a lit => Sys2Proof.Machine.execVmaxLit u d a lit s
  | .vmaxLitW1 g ty u d a lit => Sys2Proof.Machine.execVmaxLitW1 g ty u d a lit s
  | .vpopc d a => Sys2Proof.Machine.execVpopc d a s
  | .vpopcW1 g ty d a => Sys2Proof.Machine.execVpopcW1 g ty d a s
  | .vclz d a => Sys2Proof.Machine.execVclz d a s
  | .vclzW1 g ty d a => Sys2Proof.Machine.execVclzW1 g ty d a s
  | .vbfe g ty x d a pos width => Sys2Proof.Machine.execVbfe g ty x d a pos width s
  | .vbfi g ty d a pos width => Sys2Proof.Machine.execVbfi g ty d a pos width s
  | .vsel g ty d a b c => Sys2Proof.Machine.execVsel g ty d a b c s
  | .vmov x d a => Sys2Proof.Machine.execVmov x d a s
  | .vmovW1 g ty x d a => Sys2Proof.Machine.execVmovW1 g ty x d a s
  | .vmovLit d lit => Sys2Proof.Machine.execVmovLit d lit s
  | .vmovLitW1 g ty d lit => Sys2Proof.Machine.execVmovLitW1 g ty d lit s
  | .vcmp g ty cc x d a b => Sys2Proof.Machine.execVcmp g ty cc x d a b s
  | .fadd x d a b => Sys2Proof.Machine.execFadd x d a b s
  | .faddW1 g ty rnd x d a b => Sys2Proof.Machine.execFaddW1 g ty rnd x d a b s
  | .fsub x d a b => Sys2Proof.Machine.execFsub x d a b s
  | .fsubW1 g ty rnd x d a b => Sys2Proof.Machine.execFsubW1 g ty rnd x d a b s
  | .fmul x d a b => Sys2Proof.Machine.execFmul x d a b s
  | .fmulW1 g ty rnd x d a b => Sys2Proof.Machine.execFmulW1 g ty rnd x d a b s
  | .ffma np na x d a b => Sys2Proof.Machine.execFfma np na x d a b s
  | .ffmaW1 g ty rnd np na x d a b c => Sys2Proof.Machine.execFfmaW1 g ty rnd np na x d a b c s
  | .fmin num d a b => Sys2Proof.Machine.execFmin num d a b s
  | .fminW1 g ty num d a b => Sys2Proof.Machine.execFminW1 g ty num d a b s
  | .fmax num d a b => Sys2Proof.Machine.execFmax num d a b s
  | .fmaxW1 g ty num d a b => Sys2Proof.Machine.execFmaxW1 g ty num d a b s
  | .fcmp g ty cc x d a b => Sys2Proof.Machine.execFcmp g ty cc x d a b s
  | .fclass d a => Sys2Proof.Machine.execFclass d a s
  | .fclassW1 g ty d a => Sys2Proof.Machine.execFclassW1 g ty d a s
  | .frnd g ty rnd d a => Sys2Proof.Machine.execFrnd g ty rnd d a s
  | .cvt g ty rnd sat src d a => Sys2Proof.Machine.execCvt g ty rnd sat src d a s
  | .pkadd d a b => Sys2Proof.Machine.execPkadd d a b s
  | .pkaddW1 g ty rnd d a b => Sys2Proof.Machine.execPkaddW1 g ty rnd d a b s
  | .pkmul d a b => Sys2Proof.Machine.execPkmul d a b s
  | .pkmulW1 g ty rnd d a b => Sys2Proof.Machine.execPkmulW1 g ty rnd d a b s
  | .pkfma d a b => Sys2Proof.Machine.execPkfma d a b s
  | .pkfmaW1 g ty rnd d a b c => Sys2Proof.Machine.execPkfmaW1 g ty rnd d a b c s
  | .vshfl m d a b => Sys2Proof.Machine.execVshfl m d a b s
  | .vshflW1 g ty m d a b => Sys2Proof.Machine.execVshflW1 g ty m d a b s
  | .vrot d a b => Sys2Proof.Machine.execVrot d a b s
  | .vrotW1 g ty d a b => Sys2Proof.Machine.execVrotW1 g ty d a b s
  | .vbcast d a b => Sys2Proof.Machine.execVbcast d a b s
  | .vbcastW1 g ty d a b => Sys2Proof.Machine.execVbcastW1 g ty d a b s
  | .vballot d a => Sys2Proof.Machine.execVballot d a s
  | .vballotW1 g d a => Sys2Proof.Machine.execVballotW1 g d a s
  | .vradd d a => Sys2Proof.Machine.execVradd d a s
  | .vraddW1 g ty d a => Sys2Proof.Machine.execVraddW1 g ty d a s
  | .vrmin u d a => Sys2Proof.Machine.execVrmin u d a s
  | .vrminW1 g ty u d a => Sys2Proof.Machine.execVrminW1 g ty u d a s
  | .vrmax u d a => Sys2Proof.Machine.execVrmax u d a s
  | .vrmaxW1 g ty u d a => Sys2Proof.Machine.execVrmaxW1 g ty u d a s
  | .vscan g ty op excl d a => Sys2Proof.Machine.execVscan g ty op excl d a s
  | .vdot4 ua ub d a b => Sys2Proof.Machine.execVdot4 ua ub d a b s
  | .vdot4W1 g sat ua ub d a b c => Sys2Proof.Machine.execVdot4W1 g sat ua ub d a b c s
  | .vdot2h d a b => Sys2Proof.Machine.execVdot2h d a b s
  | .vdot2hW1 g ty d a b c => Sys2Proof.Machine.execVdot2hW1 g ty d a b c s
  | .ld m d => Sys2Proof.Machine.execLd m d s
  | .ldW1 g ty sc ord cp m off d => Sys2Proof.Machine.execLdW1 g ty sc ord cp m off d s
  | .st m d => Sys2Proof.Machine.execSt m d s
  | .stW1 g ty sc ord cp m off d => Sys2Proof.Machine.execStW1 g ty sc ord cp m off d s
  | .ldg m d => Sys2Proof.Machine.execLdg m d s
  | .ldgW1 g ty sc ord cp m off d => Sys2Proof.Machine.execLdgW1 g ty sc ord cp m off d s
  | .stg m d => Sys2Proof.Machine.execStg m d s
  | .stgW1 g ty sc ord cp m off d => Sys2Proof.Machine.execStgW1 g ty sc ord cp m off d s
  | .ldp x d => Sys2Proof.Machine.execLdp x d s
  | .ldpW1 g ty x off d => Sys2Proof.Machine.execLdpW1 g ty x off d s
  | .stp x d => Sys2Proof.Machine.execStp x d s
  | .stpW1 g ty x off d => Sys2Proof.Machine.execStpW1 g ty x off d s
  | .atom g ty sc ord cp op m off d c => Sys2Proof.Machine.execAtom g ty sc ord cp op m off d c s
  | .atomg g ty sc ord op m off d c => Sys2Proof.Machine.execAtomg g ty sc ord op m off d c s
  | .red g ty sc ord cp op m off d => Sys2Proof.Machine.execRed g ty sc ord cp op m off d s
  | .pref m => Sys2Proof.Machine.execPref m s
  | .prefW1 g cp m off => Sys2Proof.Machine.execPrefW1 g cp m off s
  | .fence sc ord => Sys2Proof.Machine.execFence sc ord s
  | .cctl op m off => Sys2Proof.Machine.execCctl op m off s
  | .remld g ty sc ord off d a b => Sys2Proof.Machine.execRemld g ty sc ord off d a b s
  | .remst g ty sc ord off d a b => Sys2Proof.Machine.execRemst g ty sc ord off d a b s
  | .rematom g ty sc ord op off d a b c => Sys2Proof.Machine.execRematom g ty sc ord op off d a b c s
  | .rred g ty op f a b => Sys2Proof.Machine.execRred g ty op f a b s
  | .gred g ty op d a => Sys2Proof.Machine.execGred g ty op d a s
  | .ret => Sys2Proof.Machine.execRet s
  | .exit => Sys2Proof.Machine.execExit s
  | .nop => Sys2Proof.Machine.execNop s
  | .yield => Sys2Proof.Machine.execYield s
  | .rett => Sys2Proof.Machine.execRett s
  | .rsopen => Sys2Proof.Machine.execRsopen s
  | .rsclose => Sys2Proof.Machine.execRsclose s
  | .xrcp d a => Sys2Proof.Machine.execXrcp d a s
  | .xrcpW1 g d a => Sys2Proof.Machine.execXrcpW1 g d a s
  | .xrsq d a => Sys2Proof.Machine.execXrsq d a s
  | .xrsqW1 g d a => Sys2Proof.Machine.execXrsqW1 g d a s
  | .xsqrt d a => Sys2Proof.Machine.execXsqrt d a s
  | .xsqrtW1 g d a => Sys2Proof.Machine.execXsqrtW1 g d a s
  | .xexp2 d a => Sys2Proof.Machine.execXexp2 d a s
  | .xexp2W1 g d a => Sys2Proof.Machine.execXexp2W1 g d a s
  | .xlog2 d a => Sys2Proof.Machine.execXlog2 d a s
  | .xlog2W1 g d a => Sys2Proof.Machine.execXlog2W1 g d a s
  | .xsin d a => Sys2Proof.Machine.execXsin d a s
  | .xsinW1 g d a => Sys2Proof.Machine.execXsinW1 g d a s
  | .xcos d a => Sys2Proof.Machine.execXcos d a s
  | .xcosW1 g d a => Sys2Proof.Machine.execXcosW1 g d a s
  | .xtanh d a => Sys2Proof.Machine.execXtanh d a s
  | .xtanhW1 g d a => Sys2Proof.Machine.execXtanhW1 g d a s
  | .rngseed a b => Sys2Proof.Machine.execRngseed a b s
  | .rng unit d => Sys2Proof.Machine.execRng unit d s
  | .rngW1 g unit d => Sys2Proof.Machine.execRngW1 g unit d s
  | .rngskip a => Sys2Proof.Machine.execRngskip a s
  | .bundleDecode => Sys2Proof.Machine.execBundleDecode s
  | .instructionCacheMiss => Sys2Proof.Machine.execInstructionCacheMiss s
  | .multicastFill j => Sys2Proof.Machine.execMulticastFill j s
  | .joinArrival => Sys2Proof.Machine.execJoinArrival s
  | .loadResultReturn j lanes rem => Sys2Proof.Machine.execLoadResultReturn j lanes rem s
  | .storePerformed j => Sys2Proof.Machine.execStorePerformed j s
  | .sfuResult j => Sys2Proof.Machine.execSfuResult j s
  | .translationWalkDone j => Sys2Proof.Machine.execTranslationWalkDone j s
  | .stage2FaultToRoot j => Sys2Proof.Machine.execStage2FaultToRoot j s
  | .trapEntry => Sys2Proof.Machine.execTrapEntry s
  | .sleepDeadline => Sys2Proof.Machine.execSleepDeadline s
  | .waitaReread => Sys2Proof.Machine.execWaitaReread s
  | .waitaPollTimeout => Sys2Proof.Machine.execWaitaPollTimeout s
  | .bankSwitch part bank => Sys2Proof.Machine.execBankSwitch part bank s
  | .gangAdmit j => Sys2Proof.Machine.execGangAdmit j s
  | .gangRetire key => Sys2Proof.Machine.execGangRetire key s
  | .ldstatLoadEnd j => Sys2Proof.Machine.execLdstatLoadEnd j s
  | .swapEffect j => Sys2Proof.Machine.execSwapEffect j s
  | .matrixPassGrant j => Sys2Proof.Machine.execMatrixPassGrant j s
  | .matrixEntryApplied j => Sys2Proof.Machine.execMatrixEntryApplied j s
  | .tileStoreServe j => Sys2Proof.Machine.execTileStoreServe j s
  | .barrierTimeout key n => Sys2Proof.Machine.execBarrierTimeout key n s
  | .gatherService j => Sys2Proof.Machine.execGatherService j s
  | .gatherComplete j => Sys2Proof.Machine.execGatherComplete j s
  | .recordFill j => Sys2Proof.Machine.execRecordFill j s
  | .tcopyComplete j n => Sys2Proof.Machine.execTcopyComplete j n s
  | .putArrival j => Sys2Proof.Machine.execPutArrival j s
  | .putComplete j => Sys2Proof.Machine.execPutComplete j s
  | .l2Eviction j => Sys2Proof.Machine.execL2Eviction j s
  | .writebackAck j => Sys2Proof.Machine.execWritebackAck j s
  | .fenceReleaseDone => Sys2Proof.Machine.execFenceReleaseDone s
  | .entryStart j => Sys2Proof.Machine.execEntryStart j s
  | .waitConditionPoll j => Sys2Proof.Machine.execWaitConditionPoll j s
  | .launchComplete j => Sys2Proof.Machine.execLaunchComplete j s
  | .stealRequest thief victim launch => Sys2Proof.Machine.execStealRequest thief victim launch s
  | .sliceEnd part => Sys2Proof.Machine.execSliceEnd part s
  | .contextLoad j => Sys2Proof.Machine.execContextLoad j s
  | .gangSave key => Sys2Proof.Machine.execGangSave key s
  | .gangResume j => Sys2Proof.Machine.execGangResume j s
  | .savedResolutionApply j => Sys2Proof.Machine.execSavedResolutionApply j s
  | .syncEngineTakeover => Sys2Proof.Machine.execSyncEngineTakeover s
  | .gracePeriodEnd j => Sys2Proof.Machine.execGracePeriodEnd j s
  | .gpwaitDeadline j => Sys2Proof.Machine.execGpwaitDeadline j s
  | .batchClose j => Sys2Proof.Machine.execBatchClose j s
  | .batchPush j => Sys2Proof.Machine.execBatchPush j s
  | .regulatorTakeover => Sys2Proof.Machine.execRegulatorTakeover s
  | .nmuStep ch => Sys2Proof.Machine.execNmuStep ch s
  | .nmcallComplete j => Sys2Proof.Machine.execNmcallComplete j s
  | .nmuWatchdog ch => Sys2Proof.Machine.execNmuWatchdog ch s
  | .ixredComplete j => Sys2Proof.Machine.execIxredComplete j s
  | .gredShareReturn j => Sys2Proof.Machine.execGredShareReturn j s
  | .walkHop j w => Sys2Proof.Machine.execWalkHop j w s
  | .collLine stack => Sys2Proof.Machine.execCollLine stack s
  | .sequencerWatchdog stack => Sys2Proof.Machine.execSequencerWatchdog stack s
  | .refreshPause ch => Sys2Proof.Machine.execRefreshPause ch s
  | .rateLimitedInject j => Sys2Proof.Machine.execRateLimitedInject j s
  | .powerStateNotice die quad enter => Sys2Proof.Machine.execPowerStateNotice die quad enter s
  | .dieFailure die => Sys2Proof.Machine.execDieFailure die s
  | .rootTakeover lost => Sys2Proof.Machine.execRootTakeover lost s
  | .getVersion pf req => Sys2Proof.Machine.execGetVersion pf req s
  | .getCapabilities pf req => Sys2Proof.Machine.execGetCapabilities pf req s
  | .negotiateAlgorithms pf req => Sys2Proof.Machine.execNegotiateAlgorithms pf req s
  | .getDigests pf req => Sys2Proof.Machine.execGetDigests pf req s
  | .getCertificate pf req => Sys2Proof.Machine.execGetCertificate pf req s
  | .challenge pf req => Sys2Proof.Machine.execChallenge pf req s
  | .getMeasurements pf req => Sys2Proof.Machine.execGetMeasurements pf req s
  | .keyExchange pf req => Sys2Proof.Machine.execKeyExchange pf req s
  | .finish pf req => Sys2Proof.Machine.execFinish pf req s
  | .endSession pf req => Sys2Proof.Machine.execEndSession pf req s
  | .keySet pf vf secret => Sys2Proof.Machine.execKeySet pf vf secret s
  | .policySet pf vf policy => Sys2Proof.Machine.execPolicySet pf vf policy s
  | .vfQuery pf vf => Sys2Proof.Machine.execVfQuery pf vf s
  | .alloc pf tag vf size localBand stack => Sys2Proof.Machine.execAlloc pf tag vf size localBand stack s
  | .hwin pf tag vf dataBase tagBase len => Sys2Proof.Machine.execHwin pf tag vf dataBase tagBase len s
  | .free pf tag handle => Sys2Proof.Machine.execFree pf tag handle s
  | .map pf tag vf part handle ia off len => Sys2Proof.Machine.execMap pf tag vf part handle ia off len s
  | .unmap pf tag vf part ia len => Sys2Proof.Machine.execUnmap pf tag vf part ia len s
  | .qcreate pf tag vf part q level handle logN ctr intr => Sys2Proof.Machine.execQcreate pf tag vf part q level handle logN ctr intr s
  | .qdestroy pf tag vf q => Sys2Proof.Machine.execQdestroy pf tag vf q s
  | .pause pf tag vf part => Sys2Proof.Machine.execPause pf tag vf part s
  | .unpause pf tag vf part => Sys2Proof.Machine.execUnpause pf tag vf part s
  | .evict pf tag vf part => Sys2Proof.Machine.execEvict pf tag vf part s
  | .resize pf tag vf part quota => Sys2Proof.Machine.execResize pf tag vf part quota s
  | .partition pf tag die quad part => Sys2Proof.Machine.execPartition pf tag die quad part s
  | .reset pf tag vf part => Sys2Proof.Machine.execReset pf tag vf part s
  | .setltol pf tag vf ns => Sys2Proof.Machine.execSetltol pf tag vf ns s
  | .dumpget pf tag sec dest => Sys2Proof.Machine.execDumpget pf tag sec dest s
  | .savearea pf tag vf part handle => Sys2Proof.Machine.execSavearea pf tag vf part handle s
  | .doorbell vf q t => Sys2Proof.Machine.execDoorbell vf q t s
  | .qstatWrite vf q v => Sys2Proof.Machine.execQstatWrite vf q v s
  | .loadRecord vf off bytes => Sys2Proof.Machine.execLoadRecord vf off bytes s
  | .lstatRead vf => Sys2Proof.Machine.execLstatRead vf s
  | .registerWrite vf bar off bytes => Sys2Proof.Machine.execRegisterWrite vf bar off bytes s
  | .powerStateChange unit => Sys2Proof.Machine.execPowerStateChange unit s
  | .powerExitComplete unit => Sys2Proof.Machine.execPowerExitComplete unit s
  | .powerGood => Sys2Proof.Machine.execPowerGood s
  | .calibrationEnd die => Sys2Proof.Machine.execCalibrationEnd die s
  | .fatalError cls => Sys2Proof.Machine.execFatalError cls s
  | .clockSync master inBound => Sys2Proof.Machine.execClockSync master inBound s
  | .remoteTlbFill j reply => Sys2Proof.Machine.execRemoteTlbFill j reply s
  | .remoteTlbTimeout j => Sys2Proof.Machine.execRemoteTlbTimeout j s
  | .remoteAccessArrival req => Sys2Proof.Machine.execRemoteAccessArrival req s
  | .rredContribution msg => Sys2Proof.Machine.execRredContribution msg s
  | .rredTimeout j => Sys2Proof.Machine.execRredTimeout j s
  | .weaverRowArrival standby msg => Sys2Proof.Machine.execWeaverRowArrival standby msg s
  | .weaverCollectTimeout j => Sys2Proof.Machine.execWeaverCollectTimeout j s
  | .weaverTakeover => Sys2Proof.Machine.execWeaverTakeover s
  | .calendarArrival msg => Sys2Proof.Machine.execCalendarArrival msg s
  | .weaverQuery j answered => Sys2Proof.Machine.execWeaverQuery j answered s
  | .xchSlotStart j k => Sys2Proof.Machine.execXchSlotStart j k s
  | .xchOverflowStart j => Sys2Proof.Machine.execXchOverflowStart j s
  | .xchDataArrival msg => Sys2Proof.Machine.execXchDataArrival msg s
  | .xrunTimeout j => Sys2Proof.Machine.execXrunTimeout j s
  | .cancelAcknowledge j => Sys2Proof.Machine.execCancelAcknowledge j s
  | .heartbeat agent missed rounds => Sys2Proof.Machine.execHeartbeat agent missed rounds s
  | .packageReset => Sys2Proof.Machine.execPackageReset s
  | .packageLost pkg => Sys2Proof.Machine.execPackageLost pkg s
  | .externalPortChange port works => Sys2Proof.Machine.execExternalPortChange port works s
  | .throttling die mhz => Sys2Proof.Machine.execThrottling die mhz s
  | .dpostAcknowledgeTimeout j => Sys2Proof.Machine.execDpostAcknowledgeTimeout j s
  | .xchSlotEnd j k => Sys2Proof.Machine.execXchSlotEnd j k s
  | .refreshComplete ch => Sys2Proof.Machine.execRefreshComplete ch s

end Sys2Proof.Machine
end

