-- ==== Sys2Proof/Machine/Issue.lean ====
section
/-! DEFINITION. Issue of a path's next instruction (R23, R210): the bundle it holds, decoded and executed. -/
namespace Sys2Proof.Machine

/-- The instruction at the head of a list of words, executed. -/
noncomputable def runWords (ws : List W32) (s : State) : Out :=
  match decodeWords ws with
  | .ok i => exec i s
  | .error _ => .next (s.trap { code := cIllegal, addr := s.pc })

/-- Special functions and random numbers, by their meanings. -/
def runSfu (i : SfuInstr) (s : State) : Out :=
  match i with
  | .xrcp d a => execXrcp d a s
  | .xrcpW1 g d a => execXrcpW1 g d a s
  | .xrsq d a => execXrsq d a s
  | .xrsqW1 g d a => execXrsqW1 g d a s
  | .xsqrt d a => execXsqrt d a s
  | .xsqrtW1 g d a => execXsqrtW1 g d a s
  | .xexp2 d a => execXexp2 d a s
  | .xexp2W1 g d a => execXexp2W1 g d a s
  | .xlog2 d a => execXlog2 d a s
  | .xlog2W1 g d a => execXlog2W1 g d a s
  | .xsin d a => execXsin d a s
  | .xsinW1 g d a => execXsinW1 g d a s
  | .xcos d a => execXcos d a s
  | .xcosW1 g d a => execXcosW1 g d a s
  | .xtanh d a => execXtanh d a s
  | .xtanhW1 g d a => execXtanhW1 g d a s
  | .rngseed a b => execRngseed a b s
  | .rng u d => execRng u d s
  | .rngW1 g u d => execRngW1 g u d s
  | .rngskip a => execRngskip a s

/-- `runWords` in a form that a compiled program can run. -/
def runWordsFast (ws : List W32) (s : State) : Out :=
  match readWords ws with
  | .ok (.plain i) => exec i s
  | .ok (.sfu i) => runSfu i s
  | .error _ => .next (s.trap { code := cIllegal, addr := s.pc })

theorem exec_sfu (i : SfuInstr) (s : State) : exec (Decoded.sfu i).instr s = runSfu i s := by
  cases i <;> rfl

@[csimp] theorem runWords_eq_fast : @runWords = @runWordsFast := by
  funext ws s
  unfold runWords runWordsFast decodeWords
  cases h : readWords ws with
  | error e => rfl
  | ok d => cases d with
    | plain i => rfl
    | sfu i => exact exec_sfu i s

/-- Whether a path can issue at this instant: waiting conditions that are re-evaluated at issue (R205, R210). -/
def State.canIssue (s : State) : Bool :=
  let x := s.slot
  x.occ && s.stirs && (x.derr.isSome || match x.park with
    | .none | .room => true
    | .switch | .drain => true
    | .join => s.mergeReady
    | .future f op => (s.fut f).state != .pending || (s.fut f).op != op
    | .dfree _ _ _ => s.freeRoom
    | .cancel f op => (s.fut f).state != .pending || (s.fut f).op != op
    | .released => true
    | .gone _ => true
    | .gpdone _ _ => true
    | _ => false)

/-- The path starts its next instruction: it is not parked, its age stamp is now, and the yield rank of every slot of its core is over
(R27, R128, R210). -/
def State.starts (s : State) : State :=
  let fresh (x : Slot) : Slot := { x with yielded := false }
  let f (g : Group) : Group :=
    if g.die = s.grp.die ∧ g.cluster = s.grp.cluster ∧ g.core = s.grp.core then { g with slotA := fresh g.slotA, slotB := fresh g.slotB } else g
  ({ s with grp := f s.grp, groups := s.groups.map f }).setSlot fun x => { x with park := .none, age := s.tick, since := none }

/-- Whether the instruction that a path has just tried waits at issue: for a register, a counter, a unit or a wait counter (R130, R159, R174,
R210). `t` is what it did, `s` the state before. -/
def State.heldIn (s t : State) : Bool :=
  match (if t.grp.key = s.grp.key then t.grp.slot s.sel else (t.focus s.grp.key).grp.slot s.sel).park with
  | .room => true
  | .drain => s.slot.park == .drain
  | _ => false

/-- An event whose requests are for a stack in SREF has not happened: the stack's exit begins (R407). -/
def State.reached (s : State) (r : Out) : Out :=
  match r with
  | .next t => if t.called.isEmpty then .next t else .next (s.rouse t.called)
  | r => r

/-- The path issues its next instruction, `run` being what that does, unless it waits at issue, or its requests wait for credit or for a stack in SREF (R210, R360, R407):
then the path has not issued, and only notes that it waits. -/
def State.attempt (s : State) (run : State → Out) : Out :=
  match run s.starts with
  | .next t =>
    if s.heldIn t then .next (s.park (if s.slot.park = .drain then .drain else .room))
    else if s.creditNow s.grp.part s.grp.die ≤ 0 ∧ t.reqs ≠ s.reqs then .next (s.park .room)
    else if !t.called.isEmpty then .next ((s.rouse t.called).park .room)
    else .next t
  | r => r

/-- One instruction boundary of the current path: a deferred data error, a parked SWITCH, an arrival, the fetch of its bundle,
or the execution of its next instruction (R23, R26, R34, R78, R195). -/
def State.issue (s : State) : Out :=
  let x := s.slot
  if s.grp.raised.isSome ∧ s.runs s.grp then execTrapEntry s
  else if !s.canIssue then .next s
  else if x.derr.isSome then execTrapEntry s
  else if x.park = .switch ∧ !s.drained then .next s
  else
    match x.ibuf with
    | none => if s.cachedLine.isSome then execBundleDecode s else execInstructionCacheMiss s
    | some b =>
      match x.park with
      | .released => .next s.starts.barrierDone
      | .dfree n c h => .next (s.starts.freeNow n c h)
      | .gone f => .next (s.starts.trap (s.futureInvalid f))
      | .gpdone d st => .next ((s.starts.setRs d (st.zeroExtend 64)).advance 1)
      | _ =>
        if x.pj = some x.pcb ∧ x.idx = 1 then execJoinArrival s
        else s.attempt (runWords (b.words.drop x.idx))

/-- Whether a path is eligible (R210): it could issue at this instant, its bundle decoded, and nothing would hold the instruction. -/
def State.mayIssue (s : State) : Bool :=
  s.canIssue && s.slot.ibuf.isSome && (s.slot.park != .switch || s.drained) &&
    match s.issue with
    | .next t => !s.heldIn t
    | _ => false

end Sys2Proof.Machine
end

