-- ==== Sys2Proof/Machine/Next.lean ====
section
/-! DEFINITION. What a step does around the event it runs: package time, watchdogs, terminations for dirty-line errors; and what
happens when no move is prescribed (log 1, log 5). -/
namespace Sys2Proof.Machine

/-! ### Package time (R131, R256, R333, R341) -/

/-- Instants that package time does not pass in one step: a running path asleep wakes at most 1 µs late, a watchdog fires at most 1 µs
late, a grace period is decided at its deadline, an exit from a power state may complete at its limit, a calendar's entries start and end at
their instants (R131, R256, R341, R361, R434, log 5). -/
def State.timeCaps (s : State) : List Nat :=
  (s.allGroups.flatMap fun g => [g.slotA, g.slotB].filterMap fun x => match x.park with
    | .sleep _ d => if s.runs g then some (d + 1000) else none
    | _ => none) ++
  (s.gangs.flatMap fun g => g.sets.filterMap fun e => e.since.map fun t => t + g.wdog + 1000) ++
  (s.ctxs.flatMap fun c => c.graces.filterMap (·.deadline)) ++
  (s.wake.filterMap fun w => (s.exitLatency w.1).bind fun l =>
    if s.time < w.2 + l.2 + 2000 then some (w.2 + l.2 + 2000) else none) ++ s.slotCaps

/-- Cycles that the dies run for a context in `dt` ns (R333). -/
def State.ranFor (s : State) (c : Ctx) (dt : Nat) : Ctx :=
  if c.state = .active then { c with ran := Vector.ofFn fun (i : Fin 6) => c.ran[i] + s.dies[i].mhz * dt } else c

/-- Package time passes, by an amount that nothing fixes (log 5). -/
def State.pass (s : State) : State :=
  let now := max s.time (s.timeCaps.foldl min (s.time + Config.elapsed s.tick))
  { s with tick := s.tick + 1, time := now, ctxs := s.ctxs.map fun c => s.ranFor c (now - s.time) }

/-! ### Dirty-line errors (R271, R329) -/

/-- The contexts of dirty lines in error are terminated, with ORIGIN 3 (log 33). -/
def State.reap (s : State) : State :=
  s.kills.foldl
    (fun s k =>
      if (s.ctx k.1 k.2.1).any fun c => c.state == .terminated then s
      else s.terminateBy k.1 k.2.1 (originRecord 3 s.time (BitVec.ofNat 64 cDataError) (BitVec.ofNat 64 k.2.2) 0 0 0 0 0))
    { s with kills := [] }

/-- A path of a group made current. -/
def State.toPath (s : State) (p : Nat × SlotId) : State := { s.focus p.1 with sel := p.2 }

/-- A slot's stamp as it becomes eligible, and the mark of one that is not (R210). -/
def Slot.stamp (x : Slot) (on : Bool) (tick : Nat) : Slot :=
  if !on then { x with since := none } else if x.since.isSome then x else { x with age := tick, since := some tick }

/-- Slots that become eligible are stamped, and cycles in which entries of the reservation tables could be granted are counted (R210,
R229). -/
def State.stampAll (s : State) : State :=
  let f (g : Group) : Group :=
    { g with
      slotA := g.slotA.stamp (s.toPath (g.key, .a)).mayIssue s.tick
      slotB := g.slotB.stamp (s.toPath (g.key, .b)).mayIssue s.tick }
  { s with
    grp := f s.grp, groups := s.groups.map f
    rtab := s.rtab.mapIdx fun k e => { e with elig := if s.canGrant k then e.elig + 1 else e.elig } }

/-- A die that does not wake in time has failed (R361). -/
def State.failLate (s : State) : State :=
  s.lateDies.foldl
    (fun s d => match execDieFailure d s with
      | .next t => t
      | _ => s) s

/-- Firmware may change the mode of a band while no partition has a mapping into it and no handle or table lies in it (R353, log 56). -/
def State.retune (s : State) : State :=
  let r := Config.choice s.tick 0xF300
  let b := r / 2 % 64
  let inBand (page : Nat) : Bool := page / 16384 / 12 == b
  let used := (s.rootPages.any inBand) || (s.maps.any fun m => m.ppages.any inBand) || s.handles.any fun h => match h.kind with
    | .memory ps => ps.any inBand
    | .window _ _ _ _ => false
  { s with regions :=
      if s.bring < 4 ∨ r % 2 = 0 ∨ used then s.regions
      else if 12 * b ∈ s.regions then s.regions.filter (· != 12 * b) else 12 * b :: s.regions }

/-- Stacks in SREF that the root's own work has called begin their exit (R407). -/
def State.callStacks (s : State) : State := if s.called.isEmpty then s else s.rouse s.called

/-- What every step does before its event. -/
def State.begin_ (s : State) : State :=
  s.reap.watch.settleSaving.settleMoves.pass.failLate.retune.drainChannel.peerRemovals.settleNmus.callStacks.stampAll

/-- The group and slot that a move selects. -/
def State.select (s : State) (m : Move) : State :=
  match m.group with
  | some k => { s.focus k with sel := m.slot }
  | none => { s with sel := m.slot }

/-! ### When no move is prescribed (log 1) -/

/-- The eligible paths (R210). -/
def State.paths (s : State) : List (Nat × SlotId) :=
  (s.allGroups.flatMap fun g => [(g.key, SlotId.a), (g.key, SlotId.b)]).filter fun p => (s.toPath p).mayIssue

/-- Whether one path ranks before another (R211): overdue, level, yield, age, context slot. -/
def State.before (s : State) (p q : Nat × SlotId) : Bool :=
  let key (p : Nat × SlotId) : List Nat :=
    let t := s.toPath p
    let g := t.grp
    let x := t.slot
    let overdue := match x.since with
      | some b => decide (b + 32 ≤ s.tick)
      | none => false
    [if overdue then 0 else 1, g.level, if x.yielded then 1 else 0, x.age, g.cslot, if p.2 = .a then 0 else 1]
  decide (key p < key q)

/-- The path that ranks first issues (R211). -/
def State.issueBest (s : State) : Out :=
  match s.paths.foldl (fun (b : Option (Nat × SlotId)) p => match b with
    | some q => if s.before p q then some p else some q
    | none => some p) none with
  | some p => (s.toPath p).issue
  | none => .next s

/-- Events of a group and its outstanding results. -/
def Group.events (g : Group) : List (State → Out) :=
  ([SlotId.a, SlotId.b].flatMap fun i =>
    [execTrapEntry, execBundleDecode, execInstructionCacheMiss, execSleepDeadline, execWaitaReread, execWaitaPollTimeout, execFenceReleaseDone].map fun (f : State → Out) => fun s => f (s.toPath (g.key, i))) ++
  (List.range g.outst.length).flatMap fun k =>
    [fun s => execSfuResult k (s.focus g.key), fun s => execLoadResultReturn k 0xFFFFFFFF [] (s.focus g.key)]

/-- Events of an engine operation. -/
def EngineOp.events (o : EngineOp) : List (State → Out) :=
  match o.kind with
  | .gather _ => [execGatherService o.id, execGatherComplete o.id]
  | .tcopy _ => [execRecordFill o.id, execTcopyComplete o.id 1048576]
  | .put _ => [execPutArrival o.id, execPutComplete o.id]
  | .nmcall _ => [execNmcallComplete o.id]
  | .ixred _ => [execIxredComplete o.id]
  | .walk x => (x.next :: x.live.map (·.w)).map fun w => execWalkHop o.id w
  | .gred _ => [execGredShareReturn o.id]
  | .dpost _ _ _ _ _ => [execDpostAcknowledgeTimeout o.id]
  | .xrun x => [execXchOverflowStart o.id, execXrunTimeout o.id] ++
      (List.range (x.started.length + 1)).flatMap fun k => [execXchSlotStart o.id k, execXchSlotEnd o.id k]
  | .coll _ | .xcal _ _ _ _ | .rred _ _ _ _ _ | .gpwait _ => []

/-- The arrival of a message of this package at itself. -/
def NetMsg.events : NetMsg → List (State → Out)
  | .rred m => [execRredContribution m]
  | .row standby m => [execWeaverRowArrival standby m]
  | .calendar m => [execCalendarArrival m]
  | .xch _ m => [execXchDataArrival m]
  | _ => []

/-- Events that scheduling, queues and power may bring. -/
def State.rootEvents (s : State) : List (State → Out) :=
  ((List.range s.queues.length).flatMap fun i => [execWaitConditionPoll i, execEntryStart i]) ++
  ((List.range s.launches.length).map fun i => execLaunchComplete i) ++
  ((List.range s.ctxs.length).flatMap fun i => [execContextLoad i, execBatchClose i, execBatchPush i]) ++
  (s.ctxs.flatMap fun c => [execSliceEnd c.part, execBankSwitch c.part c.bank] ++
    c.graces.flatMap fun g => [execGracePeriodEnd g.id, execGpwaitDeadline g.id]) ++
  (s.gangs.flatMap fun g => [execGangRetire g.key, execGangSave g.key] ++ (List.range g.sets.length).map fun n => execBarrierTimeout g.key n) ++
  ((List.range s.saved.length).map fun i => execGangResume i) ++
  ((List.range s.resolutions.length).map fun i => execSavedResolutionApply i) ++
  (s.launches.flatMap fun l => (List.range 6).flatMap fun d =>
    execGangAdmit d :: (List.range 6).map fun e => execStealRequest d e l.id) ++
  (s.wake.map fun w => execPowerExitComplete w.1) ++
  if s.bring < 4 then [] else ((List.range 12).map fun k => execPowerStateChange (.stack k)) ++ (List.range 6).flatMap fun d => execPowerStateChange (.die d) ::
    (List.range 4).flatMap fun q => [execPowerStateNotice d q true, execPowerStateNotice d q false, execPowerStateChange (.quadrant d q)]

/-- Events that the units of the package may bring. -/
def State.unitEvents (s : State) : List (State → Out) :=
  ((List.range s.fetchq.length).map fun i => execMulticastFill i) ++
  ((List.range s.wq.length).map fun i => execStorePerformed i) ++
  ((List.range s.wbuf.length).map fun i => execWritebackAck i) ++
  ((List.range s.misses.length).flatMap fun i => [execTranslationWalkDone i, execStage2FaultToRoot i]) ++
  ((List.range s.rtlb.length).flatMap fun i => [execRemoteTlbFill i ⟨false, false, false, false, .normal⟩, execRemoteTlbTimeout i]) ++
  ((List.range s.rtab.length).flatMap fun i =>
    [execLdstatLoadEnd i, execSwapEffect i, execMatrixPassGrant i, execMatrixEntryApplied i, execTileStoreServe i]) ++
  (s.ops.flatMap EngineOp.events) ++ (s.stopping.map fun i => execCancelAcknowledge i) ++
  ((List.range s.inject.length).map fun i => execRateLimitedInject i) ++
  (s.nmus.flatMap fun u => [execNmuStep u.ch, execNmuWatchdog u.ch, execRefreshComplete u.ch]) ++
  (if s.ops.isEmpty then [] else (List.range 12).flatMap fun k => [execCollLine k, execSequencerWatchdog k]) ++
  ((List.range s.rreds.length).map fun i => execRredTimeout i) ++
  ((List.range s.rounds.length).map fun i => execWeaverCollectTimeout i) ++
  ((List.range s.posted.length).map fun i => execWeaverQuery i false) ++
  s.net.flatMap NetMsg.events

/-- Every event that the device itself may bring about in a state. -/
def State.events (s : State) : List (State → Out) := s.allGroups.flatMap Group.events ++ s.unitEvents ++ s.rootEvents

/-- With no move prescribed, paths and events take turns: at even steps the path that ranks first issues, else the events go round. -/
def State.auto (s : State) : Out :=
  let es := s.events
  if s.tick % 2 = 0 ∧ !s.paths.isEmpty then s.issueBest
  else match es[s.tick / 2 % max es.length 1]? with
    | some f => f s
    | none => s.issueBest

end Sys2Proof.Machine
end

