-- ==== Sys2Proof/Machine/Step.lean ====
section
/-! DEFINITION. One step of the machine. -/
namespace Sys2Proof.Machine

/-- A step (log 1): package time passes, then the event of the next move happens: an event of the table, or the issue of the selected
path's next instruction; one whose requests are for a stack in SREF does not happen before its exit (R407). After a fatal error only a reset does anything (R410). -/
def step (s : State) : Host.Outcome State Fault Refusal :=
  match s.agenda with
  | m :: rest =>
    let t := { s with agenda := rest }
    match m.ev with
    | some e => if s.fatal && e != .packageReset then .next t.pass else (t.begin_.select m).reached (exec e (t.begin_.select m))
    | none => if s.fatal then .next t.pass else (t.begin_.select m).reached (t.begin_.select m).issue
  | [] => if s.fatal then .fault .fatal else s.begin_.reached s.begin_.auto

/-- A bundle that holds one instruction alone, whose words are the bits of a number (R21, R22). -/
def bundleOf (addr : W64) (w : Nat) : Bundle :=
  let ws := tableWords w
  let n := wordsOf (ws.headD 0)
  ⟨addr, BitVec.ofNat 32 n :: (ws.take n ++ List.replicate (15 - n) 0)⟩

/-- `s` with an instruction's bits as the next thing that `step` runs: the current group is live, its slot A runs and holds a
bundle with that instruction alone, fetched at its program counter, and the next move issues it (log 11). -/
def State.withFetchWord (s : State) (nbits w : Nat) : State :=
  let s := { s with
    agenda := [⟨none, .a, none⟩], sel := .a, fatal := false, kills := []
    grp := { s.grp with
      raised := none
      live := if s.grp.live = 0 then 0xFFFFFFFF else s.grp.live
      slotA := { s.grp.slotA with
        occ := true, idx := 1, ibuf := some (bundleOf s.grp.slotA.pcb (w % 2 ^ nbits)), pj := none, park := .none, derr := none, failed := [], farFailed := []
        mask := if s.grp.slotA.mask = 0 then 0xFFFFFFFF else s.grp.slotA.mask } } }
  s.setCtx s.grp.vf s.grp.part fun c => { c with state := .active }

end Sys2Proof.Machine
end

