-- ==== Sys2Proof/Statements/Scalar.lean ====
section
/-! DEFINITION. Tables for the statements about scalar and predicate instructions: what each writes, from R114 to R116, R133 to R136,
R162 and R215, in arithmetic of its own. -/
namespace Sys2Proof.Statements

open Sys2Proof Sys2Proof.Machine

/-- ⌊a × b / 2^64⌋ mod 2^64, signed or unsigned (R114). -/
def mulHigh64 (u : Bool) (a b : W64) : W64 :=
  if u then BitVec.ofNat 64 (a.toNat * b.toNat / 2 ^ 64) else BitVec.ofInt 64 (Int.fdiv (a.toInt * b.toInt) (2 ^ 64))

/-- a < b, signed or unsigned. -/
def less64 (u : Bool) (a b : W64) : Bool := if u then a.ult b else a.slt b

/-- The relations of R40 on 64-bit words. -/
def rel64 : Cmp → W64 → W64 → Bool
  | .eq, a, b => a == b
  | .ne, a, b => a != b
  | .lt, a, b => a.slt b
  | .le, a, b => a.sle b
  | .gt, a, b => b.slt a
  | .ge, a, b => b.sle a
  | .ltu, a, b => a.ult b
  | .leu, a, b => a.ule b
  | .gtu, a, b => b.ult a
  | .geu, a, b => b.ule a

/-- Shifts by an unsigned 64-bit amount (R115). -/
def shl64 (a n : W64) : W64 := if 64 ≤ n.toNat then 0 else BitVec.ofNat 64 (a.toNat * 2 ^ n.toNat)
def shr64 (a n : W64) : W64 := if 64 ≤ n.toNat then 0 else BitVec.ofNat 64 (a.toNat / 2 ^ n.toNat)
def sra64 (a n : W64) : W64 :=
  if 64 ≤ n.toNat then (if a.msb then BitVec.allOnes 64 else 0) else BitVec.ofInt 64 (Int.fdiv a.toInt (2 ^ n.toNat))

/-- Number of 1 bits, and of 0 bits above the highest 1 bit (R114). -/
def ones64 (a : W64) : W64 := BitVec.ofNat 64 ((List.range 64).countP fun i => a.getLsbD i)
def zeros64 (a : W64) : W64 := BitVec.ofNat 64 ((List.range 64).findIdx fun i => a.getLsbD (63 - i))

/-- The instructions of R114 and R115: destination, words, value. -/
inductive ScalarArith : Instr → SReg → Nat → (State → W64) → Prop
  | sadd d a b : ScalarArith (.sadd d a b) d 1 fun s => s.rs a + s.rs b
  | saddLit d a l : ScalarArith (.saddLit d a l) d 3 fun s => s.rs a + l
  | saddImm d a i : ScalarArith (.saddImm d a i) d 1 fun s => s.rs a + i.signExtend 64
  | ssub d a b : ScalarArith (.ssub d a b) d 1 fun s => s.rs a - s.rs b
  | ssubLit d a l : ScalarArith (.ssubLit d a l) d 3 fun s => s.rs a - l
  | smul d a b : ScalarArith (.smul d a b) d 1 fun s => s.rs a * s.rs b
  | smulLit d a l : ScalarArith (.smulLit d a l) d 3 fun s => s.rs a * l
  | smulh u d a b : ScalarArith (.smulh u d a b) d 1 fun s => mulHigh64 u (s.rs a) (s.rs b)
  | smulhLit u d a l : ScalarArith (.smulhLit u d a l) d 3 fun s => mulHigh64 u (s.rs a) l
  | sand d a b : ScalarArith (.sand d a b) d 1 fun s => s.rs a &&& s.rs b
  | sandLit d a l : ScalarArith (.sandLit d a l) d 3 fun s => s.rs a &&& l
  | sandImm d a i : ScalarArith (.sandImm d a i) d 1 fun s => s.rs a &&& i.signExtend 64
  | sor d a b : ScalarArith (.sor d a b) d 1 fun s => s.rs a ||| s.rs b
  | sorLit d a l : ScalarArith (.sorLit d a l) d 3 fun s => s.rs a ||| l
  | sorImm d a i : ScalarArith (.sorImm d a i) d 1 fun s => s.rs a ||| i.signExtend 64
  | sxor d a b : ScalarArith (.sxor d a b) d 1 fun s => s.rs a ^^^ s.rs b
  | sxorLit d a l : ScalarArith (.sxorLit d a l) d 3 fun s => s.rs a ^^^ l
  | sxorImm d a i : ScalarArith (.sxorImm d a i) d 1 fun s => s.rs a ^^^ i.signExtend 64
  | sshl d a b : ScalarArith (.sshl d a b) d 1 fun s => shl64 (s.rs a) (s.rs b)
  | sshlImm d a i : ScalarArith (.sshlImm d a i) d 1 fun s => shl64 (s.rs a) (i.zeroExtend 64)
  | sshr d a b : ScalarArith (.sshr d a b) d 1 fun s => shr64 (s.rs a) (s.rs b)
  | sshrImm d a i : ScalarArith (.sshrImm d a i) d 1 fun s => shr64 (s.rs a) (i.zeroExtend 64)
  | ssra d a b : ScalarArith (.ssra d a b) d 1 fun s => sra64 (s.rs a) (s.rs b)
  | ssraImm d a i : ScalarArith (.ssraImm d a i) d 1 fun s => sra64 (s.rs a) (i.zeroExtend 64)
  | smin u d a b : ScalarArith (.smin u d a b) d 1 fun s => if less64 u (s.rs b) (s.rs a) then s.rs b else s.rs a
  | sminLit u d a l : ScalarArith (.sminLit u d a l) d 3 fun s => if less64 u l (s.rs a) then l else s.rs a
  | smax u d a b : ScalarArith (.smax u d a b) d 1 fun s => if less64 u (s.rs a) (s.rs b) then s.rs b else s.rs a
  | smaxLit u d a l : ScalarArith (.smaxLit u d a l) d 3 fun s => if less64 u (s.rs a) l then l else s.rs a
  | scmp cc d a b : ScalarArith (.scmp cc d a b) d 1 fun s => if rel64 cc (s.rs a) (s.rs b) then 1 else 0
  | scmpLit cc d a l : ScalarArith (.scmpLit cc d a l) d 3 fun s => if rel64 cc (s.rs a) l then 1 else 0
  | ssel d a b c : ScalarArith (.ssel d a b c) d 3 fun s => if s.rs c ≠ 0 then s.rs a else s.rs b
  | smov d a : ScalarArith (.smov d a) d 1 fun s => s.rs a
  | sliW2 d w : ScalarArith (.sliW2 d w) d 3 fun _ => w.signExtend 64
  | sliLit d l : ScalarArith (.sliLit d l) d 3 fun _ => l
  | sliImm d i : ScalarArith (.sliImm d i) d 1 fun _ => i.signExtend 64
  | spopc d a : ScalarArith (.spopc d a) d 1 fun s => ones64 (s.rs a)
  | sclz d a : ScalarArith (.sclz d a) d 1 fun s => zeros64 (s.rs a)

/-- A field of `w` bits, all ones. -/
def fieldMask (w : Nat) : W64 := BitVec.ofNat 64 (2 ^ w - 1)

/-- SBFE's value (R116): the field at `p` of width `w`, with its sign where `sg`. -/
def fieldOut (sg : Bool) (a : W64) (p w : Nat) : W64 :=
  let f := (a >>> p) &&& fieldMask w
  if sg && f.getLsbD (w - 1) then BitVec.ofInt 64 ((f.toNat : Int) - 2 ^ w) else f

/-- SBFI's value (R116). -/
def fieldIn (d a : W64) (p w : Nat) : W64 := (d &&& ~~~(fieldMask w <<< p)) ||| ((a &&& fieldMask w) <<< p)

/-- Scalar registers written from other state: SGET, EXGET, PANY, PALL, VBALLOT, FTEST (R70, R72, R133, R134, R136, R162, R215). -/
inductive ScalarRead : Instr → SReg → Nat → (State → W64) → Prop
  | exec d : ScalarRead (.sget d .exec) d 1 fun s => s.slot.mask.zeroExtend 64
  | gid d : ScalarRead (.sget d .gid) d 1 fun s => BitVec.ofNat 64 s.grp.gid
  | role d : ScalarRead (.sget d .role) d 1 fun s => BitVec.ofNat 64 s.grp.role
  | gang d : ScalarRead (.sget d .gang) d 1 fun s => BitVec.ofNat 64 (s.gang s.grp.gang).index
  | core d : ScalarRead (.sget d .core) d 1 fun s => BitVec.ofNat 64 s.grp.core
  | cluster d : ScalarRead (.sget d .cluster) d 1 fun s => BitVec.ofNat 64 s.grp.cluster
  | die d : ScalarRead (.sget d .die) d 1 fun s => BitVec.ofNat 64 s.grp.die
  | pkg d : ScalarRead (.sget d .pkg) d 1 fun s => BitVec.ofNat 64 s.pkg
  | sp d : ScalarRead (.sget d .sp) d 1 fun s => s.slot.sp
  | sl d : ScalarRead (.sget d .sl) d 1 fun s => s.grp.sl
  | tfp d : ScalarRead (.sget d .tfp) d 1 fun s => s.grp.tfp
  | dtb d : ScalarRead (.sget d .dtb) d 1 fun s => s.grp.dtb
  | dtl d : ScalarRead (.sget d .dtl) d 1 fun s => s.grp.dtl
  | rngk d : ScalarRead (.sget d .rngk) d 1 fun s => s.grp.rngk
  | rngc d : ScalarRead (.sget d .rngc) d 1 fun s => s.grp.rngc
  | fmode d : ScalarRead (.sget d .fmode) d 1 fun s => s.grp.fmode
  | time d : ScalarRead (.sget d .time) d 1 fun s => BitVec.ofNat 64 s.time
  | wcnt d : ScalarRead (.sget d .wcnt) d 1 fun s =>
      BitVec.ofNat 64 (s.cnt .ld + 2 ^ 6 * s.cnt .st + 2 ^ 12 * s.cnt .sm + 2 ^ 18 * s.cnt .tl + if s.cnt .sfu = 0 then 0 else 2 ^ 24)
  | rsd d : ScalarRead (.sget d .rsd) d 1 fun s => s.grp.rsd.zeroExtend 64
  | exget d : ScalarRead (.exget d) d 1 fun s => (s.grp.live.zeroExtend 64 <<< 32) ||| s.slot.mask.zeroExtend 64
  | pany d a : ScalarRead (.pany d a) d 1 fun s =>
      if (List.range 32).any fun l => (s.rp a).getLsbD l && s.slot.mask.getLsbD l then 1 else 0
  | pall d a : ScalarRead (.pall d a) d 1 fun s =>
      if (List.range 32).all fun l => !s.slot.mask.getLsbD l || (s.rp a).getLsbD l then 1 else 0
  | vballot d a : ScalarRead (.vballot d a) d 1 fun s => (s.slot.mask &&& s.rp a).zeroExtend 64
  | vballotW1 g d a : ScalarRead (.vballotW1 g d a) d 3 fun s => (s.active g &&& s.rp a).zeroExtend 64
  | ftestIdle d f : ScalarRead (.ftest d f) d 1 fun s =>
      match (s.fut f).state with
      | .idle => 0
      | .pending => 1
      | .resolved => ((s.fut f).status.zeroExtend 64 <<< 32) ||| 2

/-- The predicate instructions that write one predicate (R136): guard, destination, words, the value of each lane. -/
inductive PredWrite : Instr → Option Guard → PReg → Nat → (State → Nat → Bool) → Prop
  | pand nb d a b : PredWrite (.pand nb d a b) none d 1 fun s l => (s.rp a).getLsbD l && ((s.rp b).getLsbD l ^^ nb)
  | pandW1 g nb d a b : PredWrite (.pandW1 g nb d a b) g d 3 fun s l => (s.rp a).getLsbD l && ((s.rp b).getLsbD l ^^ nb)
  | por nb d a b : PredWrite (.por nb d a b) none d 1 fun s l => (s.rp a).getLsbD l || ((s.rp b).getLsbD l ^^ nb)
  | porW1 g nb d a b : PredWrite (.porW1 g nb d a b) g d 3 fun s l => (s.rp a).getLsbD l || ((s.rp b).getLsbD l ^^ nb)
  | pxor nb d a b : PredWrite (.pxor nb d a b) none d 1 fun s l => (s.rp a).getLsbD l ^^ ((s.rp b).getLsbD l ^^ nb)
  | pxorW1 g nb d a b : PredWrite (.pxorW1 g nb d a b) g d 3 fun s l => (s.rp a).getLsbD l ^^ ((s.rp b).getLsbD l ^^ nb)
  | pnot d a : PredWrite (.pnot d a) none d 1 fun s l => !(s.rp a).getLsbD l
  | pnotW1 g d a : PredWrite (.pnotW1 g d a) g d 3 fun s l => !(s.rp a).getLsbD l
  | pmov d a : PredWrite (.pmov d a) none d 1 fun s l => (s.rp a).getLsbD l
  | pmovW1 g d a : PredWrite (.pmovW1 g d a) g d 3 fun s l => (s.rp a).getLsbD l

/-- The lanes on which a guarded instruction acts (R18). -/
def actsOn (s : State) (g : Option Guard) (l : Nat) : Bool :=
  s.slot.mask.getLsbD l && match g with
    | none => true
    | some g => (s.rp g.p).getLsbD l ^^ g.neg

/-- Everything outside the current group is as before: memory and every other group among it. -/
structure Outside (s t : State) : Prop where
  rest : t = { s with grp := t.grp }
  mem : ∀ a, memGet t.mem a = memGet s.mem a
  hmem : ∀ a, memGet t.hmem a = memGet s.hmem a

/-- The current path went on by `n` words (R21 to R24): inside its bundle, or to word 1 of the next one where the bundle's COUNT is
reached; the rest of the slot is as before, but for the park (SWITCH), the yield mark and the walks of its last instruction, and the
other slot is untouched. -/
structure WentOn (s t : State) (n : Nat) : Prop where
  sel : t.sel = s.sel
  pcb : t.slot.pcb = if s.slot.idx + n ≤ s.slot.ctl % 16 then s.slot.pcb else s.slot.pcb + 64
  idx : t.slot.idx = if s.slot.idx + n ≤ s.slot.ctl % 16 then s.slot.idx + n else 1
  rest : t.slot = { s.slot with pcb := t.slot.pcb, idx := t.slot.idx, ibuf := t.slot.ibuf, park := t.slot.park, yielded := t.slot.yielded, failed := [], farFailed := [] }
  other : t.grp.slot s.sel.other = s.grp.slot s.sel.other

/-- All of a group but its registers, what scalar registers held before (R74), flags, draw counter and slots is as before. -/
def groupKept (g h : Group) : Prop :=
  h = { g with s := h.s, olds := h.olds, p := h.p, vrf := h.vrf, fmode := h.fmode, rngc := h.rngc, slotA := h.slotA, slotB := h.slotB }

end Sys2Proof.Statements
end

