-- ==== Sys2Proof/Statements/Vector.lean ====
section
/-! DEFINITION. Tables for the statements about vector instructions: guard, registers read, destination, words and the value of each
lane, from R111, R136 to R165 and R167. -/
namespace Sys2Proof.Statements

open Sys2Proof Sys2Proof.Machine

/-- One lane of an operand as a bit string of the type's width (R138, R140). -/
def laneBits (s : State) (t : Ty) (x : Src) (l : Nat) : BitVec t.width := BitVec.ofNat t.width (s.src x t l)

/-- A w-bit string read as signed, or as unsigned. -/
def readAs {w : Nat} (signed : Bool) (x : BitVec w) : Int := if signed then x.toInt else x.toNat

/-- .iN types read signed (R142). -/
def isSigned : Ty → Bool
  | .i32 | .i64 => true
  | _ => false

/-- One lane as TY reads it (R142). -/
def laneInt (s : State) (t : Ty) (x : Src) (l : Nat) : Int := readAs (isSigned t) (laneBits s t x l)

/-- An exact result put into a lane of type TY: wrapped, or clamped under SAT (R100, R142). -/
def laneOf (t : Ty) (sat : Bool) (x : Int) : Nat :=
  let lo : Int := if isSigned t then -(2 ^ (t.width - 1)) else 0
  let hi : Int := if isSigned t then 2 ^ (t.width - 1) - 1 else 2 ^ t.width - 1
  (BitVec.ofInt t.width (if sat then max lo (min x hi) else x)).toNat

/-- ⌊a × b / 2^w⌋ (R142). -/
def laneHigh (s : State) (t : Ty) (u : Bool) (x y : Src) (l : Nat) : Nat :=
  (BitVec.ofInt t.width (Int.fdiv (readAs (!u) (laneBits s t x l) * readAs (!u) (laneBits s t y l)) (2 ^ t.width))).toNat

/-- The lesser, or the greater, signed or unsigned (R142). -/
def laneMin (s : State) (t : Ty) (u : Bool) (x y : Src) (l : Nat) : Nat :=
  if readAs (!u) (laneBits s t y l) < readAs (!u) (laneBits s t x l) then (laneBits s t y l).toNat else (laneBits s t x l).toNat
def laneMax (s : State) (t : Ty) (u : Bool) (x y : Src) (l : Nat) : Nat :=
  if readAs (!u) (laneBits s t x l) < readAs (!u) (laneBits s t y l) then (laneBits s t y l).toNat else (laneBits s t x l).toNat

/-- Shifts at width w (R144). -/
def laneShl (s : State) (t : Ty) (x y : Src) (l : Nat) : Nat :=
  let n := (laneBits s t y l).toNat
  if t.width ≤ n then 0 else (laneBits s t x l <<< n).toNat
def laneShr (s : State) (t : Ty) (x y : Src) (l : Nat) : Nat :=
  let n := (laneBits s t y l).toNat
  if t.width ≤ n then 0 else (laneBits s t x l >>> n).toNat
def laneSra (s : State) (t : Ty) (x y : Src) (l : Nat) : Nat :=
  let n := (laneBits s t y l).toNat
  let a := laneBits s t x l
  if t.width ≤ n then (if a.msb then (BitVec.allOnes t.width).toNat else 0)
  else (BitVec.ofInt t.width (Int.fdiv a.toInt (2 ^ n))).toNat

/-- Counts of R142. -/
def laneOnes (s : State) (t : Ty) (x : Src) (l : Nat) : Nat := (List.range t.width).countP fun i => (laneBits s t x l).getLsbD i
def laneZeros (s : State) (t : Ty) (x : Src) (l : Nat) : Nat :=
  (List.range t.width).findIdx fun i => (laneBits s t x l).getLsbD (t.width - 1 - i)

/-- Bit fields at width w (R116, R145). -/
def laneField (s : State) (t : Ty) (sg : Bool) (x : Src) (p f l : Nat) : Nat :=
  let m := laneBits s t x l >>> p &&& BitVec.ofNat t.width (2 ^ f - 1)
  if sg && m.getLsbD (f - 1) then (BitVec.ofInt t.width ((m.toNat : Int) - 2 ^ f)).toNat else m.toNat
def laneInsert (s : State) (t : Ty) (d x : Src) (p f l : Nat) : Nat :=
  let m := BitVec.ofNat t.width (2 ^ f - 1)
  ((laneBits s t d l &&& ~~~(m <<< p)) ||| ((laneBits s t x l &&& m) <<< p)).toNat

/-- A lane exchange (R161): the value of lane `j` when it is of the path, the lane's own otherwise. -/
def laneFrom (s : State) (t : Ty) (x : Src) (l j : Nat) : Nat :=
  if s.slot.mask.getLsbD j then (laneBits s t x j).toNat else (laneBits s t x l).toNat

/-- The source lane of VSHFL (R161). -/
def shflLane (m : BitVec 2) (k l : Nat) : Nat :=
  if m = 0 then k % 32 else if m = 1 then l ^^^ (k % 32) else if m = 2 then (if k ≤ l then l - k else l) else (if l + k ≤ 31 then l + k else l)

/-- Byte `j` of a lane, signed or unsigned (R111). -/
def laneByte (s : State) (u : Bool) (x : VReg) (l j : Nat) : Int :=
  readAs (!u) ((laneBits s .b32 (.v x) l).extractLsb' (8 * j) 8)

/-- VDOT4 (R111). -/
def laneDot4 (s : State) (sat ua ub : Bool) (a b c : VReg) (l : Nat) : Nat :=
  laneOf .i32 sat (laneInt s .i32 (.v c) l + laneByte s ua a l 0 * laneByte s ub b l 0 + laneByte s ua a l 1 * laneByte s ub b l 1 +
    laneByte s ua a l 2 * laneByte s ub b l 2 + laneByte s ua a l 3 * laneByte s ub b l 3)

/-- The relations of R40 on w-bit strings. -/
def relW {w : Nat} : Cmp → BitVec w → BitVec w → Bool
  | .eq, a, b => a == b
  | .ne, a, b => a != b
  | .lt, a, b => a.slt b
  | .le, a, b => a.sle b
  | .gt, a, b => b.slt a
  | .ge, a, b => b.sle a
  | .ltu, a, b => a.ult b
  | .leu, a, b => a.ule b
  | .gtu, a, b => b.ult a
  | .geu, a, b => b.ule a

/-- The relations of FCMP and their NV (R152): `lt` and `eq` are those of the values of two numbers. -/
def fpRel (cc : FCmp) (x y : Fp) : Bool × Flags :=
  let un := x.isNaN || y.isNaN
  let sig := x == .nan true || y == .nan true
  let nv (quiet : Bool) : Flags := if sig || (quiet && un) then 0x8 else 0
  match cc with
  | .eq => (!un && eqFp x y, nv false)
  | .ne => (un || !eqFp x y, nv false)
  | .lt => (!un && ltFp x y, nv true)
  | .le => (!un && (ltFp x y || eqFp x y), nv true)
  | .gt => (!un && ltFp y x, nv true)
  | .ge => (!un && (ltFp y x || eqFp x y), nv true)
  | .un => (un, nv false)
  | .ord => (!un, nv false)

/-- Instructions that write lanes and set no flag. -/
inductive LaneWrite : Instr → Option Guard → List (VReg × Nat) → VReg → Nat → Nat → (State → Nat → Nat) → Prop
  | vadd sc d a b : LaneWrite (.vadd sc d a b) none ((a, 1) :: (srcOf sc b).reads 1) d 1 1 fun s l => laneOf .i32 false (laneInt s .i32 (.v a) l + laneInt s .i32 (srcOf sc b) l)
  | vaddW1 g t sat sc d a b : LaneWrite (.vaddW1 g t sat sc d a b) g ((a, tyRegs t) :: (srcOf sc b).reads (tyRegs t)) d (tyRegs t) 3 fun s l => laneOf t sat (laneInt s t (.v a) l + laneInt s t (srcOf sc b) l)
  | vaddLit d a x : LaneWrite (.vaddLit d a x) none [(a, 1)] d 1 3 fun s l => laneOf .i32 false (laneInt s .i32 (.v a) l + laneInt s .i32 (.lit x) l)
  | vaddLitW1 g t sat d a x : LaneWrite (.vaddLitW1 g t sat d a x) g [(a, tyRegs t)] d (tyRegs t) 5 fun s l => laneOf t sat (laneInt s t (.v a) l + laneInt s t (.lit x) l)
  | vaddImm d a i : LaneWrite (.vaddImm d a i) none [(a, 1)] d 1 1 fun s l => laneOf .i32 false (laneInt s .i32 (.v a) l + laneInt s .i32 (.lit (i.signExtend 64)) l)
  | vsub sc d a b : LaneWrite (.vsub sc d a b) none ((a, 1) :: (srcOf sc b).reads 1) d 1 1 fun s l => laneOf .i32 false (laneInt s .i32 (.v a) l - laneInt s .i32 (srcOf sc b) l)
  | vsubW1 g t sat sc d a b : LaneWrite (.vsubW1 g t sat sc d a b) g ((a, tyRegs t) :: (srcOf sc b).reads (tyRegs t)) d (tyRegs t) 3 fun s l => laneOf t sat (laneInt s t (.v a) l - laneInt s t (srcOf sc b) l)
  | vsubLit d a x : LaneWrite (.vsubLit d a x) none [(a, 1)] d 1 3 fun s l => laneOf .i32 false (laneInt s .i32 (.v a) l - laneInt s .i32 (.lit x) l)
  | vsubLitW1 g t sat d a x : LaneWrite (.vsubLitW1 g t sat d a x) g [(a, tyRegs t)] d (tyRegs t) 5 fun s l => laneOf t sat (laneInt s t (.v a) l - laneInt s t (.lit x) l)
  | vmul sc d a b : LaneWrite (.vmul sc d a b) none ((a, 1) :: (srcOf sc b).reads 1) d 1 1 fun s l => laneOf .i32 false (laneInt s .i32 (.v a) l * laneInt s .i32 (srcOf sc b) l)
  | vmulW1 g t sat sc d a b : LaneWrite (.vmulW1 g t sat sc d a b) g ((a, tyRegs t) :: (srcOf sc b).reads (tyRegs t)) d (tyRegs t) 3 fun s l => laneOf t sat (laneInt s t (.v a) l * laneInt s t (srcOf sc b) l)
  | vmulLit d a x : LaneWrite (.vmulLit d a x) none [(a, 1)] d 1 3 fun s l => laneOf .i32 false (laneInt s .i32 (.v a) l * laneInt s .i32 (.lit x) l)
  | vmulLitW1 g t sat d a x : LaneWrite (.vmulLitW1 g t sat d a x) g [(a, tyRegs t)] d (tyRegs t) 5 fun s l => laneOf t sat (laneInt s t (.v a) l * laneInt s t (.lit x) l)
  | vmulh u sc d a b : LaneWrite (.vmulh u sc d a b) none ((a, 1) :: (srcOf sc b).reads 1) d 1 1 fun s l => laneHigh s .i32 u (.v a) (srcOf sc b) l
  | vmulhW1 g t u sc d a b : LaneWrite (.vmulhW1 g t u sc d a b) g ((a, tyRegs t) :: (srcOf sc b).reads (tyRegs t)) d (tyRegs t) 3 fun s l => laneHigh s t u (.v a) (srcOf sc b) l
  | vmad g t sat sc d a b c : LaneWrite (.vmad g t sat sc d a b c) g ((a, tyRegs t) :: (c, tyRegs t) :: (srcOf sc b).reads (tyRegs t)) d (tyRegs t) 3 fun s l => 
      laneOf t sat (laneInt s t (.v a) l * laneInt s t (srcOf sc b) l + laneInt s t (.v c) l)
  | vand sc d a b : LaneWrite (.vand sc d a b) none ((a, 1) :: (srcOf sc b).reads 1) d 1 1 fun s l => (laneBits s .i32 (.v a) l &&& laneBits s .i32 (srcOf sc b) l).toNat
  | vandW1 g t sc d a b : LaneWrite (.vandW1 g t sc d a b) g ((a, tyRegs t) :: (srcOf sc b).reads (tyRegs t)) d (tyRegs t) 3 fun s l => (laneBits s t (.v a) l &&& laneBits s t (srcOf sc b) l).toNat
  | vandLit d a x : LaneWrite (.vandLit d a x) none [(a, 1)] d 1 3 fun s l => (laneBits s .i32 (.v a) l &&& laneBits s .i32 (.lit x) l).toNat
  | vandLitW1 g t d a x : LaneWrite (.vandLitW1 g t d a x) g [(a, tyRegs t)] d (tyRegs t) 5 fun s l => (laneBits s t (.v a) l &&& laneBits s t (.lit x) l).toNat
  | vandImm d a i : LaneWrite (.vandImm d a i) none [(a, 1)] d 1 1 fun s l => (laneBits s .i32 (.v a) l &&& laneBits s .i32 (.lit (i.signExtend 64)) l).toNat
  | vor sc d a b : LaneWrite (.vor sc d a b) none ((a, 1) :: (srcOf sc b).reads 1) d 1 1 fun s l => (laneBits s .i32 (.v a) l ||| laneBits s .i32 (srcOf sc b) l).toNat
  | vorW1 g t sc d a b : LaneWrite (.vorW1 g t sc d a b) g ((a, tyRegs t) :: (srcOf sc b).reads (tyRegs t)) d (tyRegs t) 3 fun s l => (laneBits s t (.v a) l ||| laneBits s t (srcOf sc b) l).toNat
  | vorLit d a x : LaneWrite (.vorLit d a x) none [(a, 1)] d 1 3 fun s l => (laneBits s .i32 (.v a) l ||| laneBits s .i32 (.lit x) l).toNat
  | vorLitW1 g t d a x : LaneWrite (.vorLitW1 g t d a x) g [(a, tyRegs t)] d (tyRegs t) 5 fun s l => (laneBits s t (.v a) l ||| laneBits s t (.lit x) l).toNat
  | vxor sc d a b : LaneWrite (.vxor sc d a b) none ((a, 1) :: (srcOf sc b).reads 1) d 1 1 fun s l => (laneBits s .i32 (.v a) l ^^^ laneBits s .i32 (srcOf sc b) l).toNat
  | vxorW1 g t sc d a b : LaneWrite (.vxorW1 g t sc d a b) g ((a, tyRegs t) :: (srcOf sc b).reads (tyRegs t)) d (tyRegs t) 3 fun s l => (laneBits s t (.v a) l ^^^ laneBits s t (srcOf sc b) l).toNat
  | vxorLit d a x : LaneWrite (.vxorLit d a x) none [(a, 1)] d 1 3 fun s l => (laneBits s .i32 (.v a) l ^^^ laneBits s .i32 (.lit x) l).toNat
  | vxorLitW1 g t d a x : LaneWrite (.vxorLitW1 g t d a x) g [(a, tyRegs t)] d (tyRegs t) 5 fun s l => (laneBits s t (.v a) l ^^^ laneBits s t (.lit x) l).toNat
  | vshl sc d a b : LaneWrite (.vshl sc d a b) none ((a, 1) :: (srcOf sc b).reads 1) d 1 1 fun s l => laneShl s .i32 (.v a) (srcOf sc b) l
  | vshlW1 g t sc d a b : LaneWrite (.vshlW1 g t sc d a b) g ((a, tyRegs t) :: (srcOf sc b).reads (tyRegs t)) d (tyRegs t) 3 fun s l => laneShl s t (.v a) (srcOf sc b) l
  | vshlImm d a i : LaneWrite (.vshlImm d a i) none [(a, 1)] d 1 1 fun s l => laneShl s .i32 (.v a) (.lit (i.zeroExtend 64)) l
  | vshr sc d a b : LaneWrite (.vshr sc d a b) none ((a, 1) :: (srcOf sc b).reads 1) d 1 1 fun s l => laneShr s .i32 (.v a) (srcOf sc b) l
  | vshrW1 g t sc d a b : LaneWrite (.vshrW1 g t sc d a b) g ((a, tyRegs t) :: (srcOf sc b).reads (tyRegs t)) d (tyRegs t) 3 fun s l => laneShr s t (.v a) (srcOf sc b) l
  | vshrImm d a i : LaneWrite (.vshrImm d a i) none [(a, 1)] d 1 1 fun s l => laneShr s .i32 (.v a) (.lit (i.zeroExtend 64)) l
  | vsra sc d a b : LaneWrite (.vsra sc d a b) none ((a, 1) :: (srcOf sc b).reads 1) d 1 1 fun s l => laneSra s .i32 (.v a) (srcOf sc b) l
  | vsraW1 g t sc d a b : LaneWrite (.vsraW1 g t sc d a b) g ((a, tyRegs t) :: (srcOf sc b).reads (tyRegs t)) d (tyRegs t) 3 fun s l => laneSra s t (.v a) (srcOf sc b) l
  | vsraImm d a i : LaneWrite (.vsraImm d a i) none [(a, 1)] d 1 1 fun s l => laneSra s .i32 (.v a) (.lit (i.zeroExtend 64)) l
  | vmin u sc d a b : LaneWrite (.vmin u sc d a b) none ((a, 1) :: (srcOf sc b).reads 1) d 1 1 fun s l => laneMin s .i32 u (.v a) (srcOf sc b) l
  | vminW1 g t u sc d a b : LaneWrite (.vminW1 g t u sc d a b) g ((a, tyRegs t) :: (srcOf sc b).reads (tyRegs t)) d (tyRegs t) 3 fun s l => laneMin s t u (.v a) (srcOf sc b) l
  | vminLit u d a x : LaneWrite (.vminLit u d a x) none [(a, 1)] d 1 3 fun s l => laneMin s .i32 u (.v a) (.lit x) l
  | vminLitW1 g t u d a x : LaneWrite (.vminLitW1 g t u d a x) g [(a, tyRegs t)] d (tyRegs t) 5 fun s l => laneMin s t u (.v a) (.lit x) l
  | vmax u sc d a b : LaneWrite (.vmax u sc d a b) none ((a, 1) :: (srcOf sc b).reads 1) d 1 1 fun s l => laneMax s .i32 u (.v a) (srcOf sc b) l
  | vmaxW1 g t u sc d a b : LaneWrite (.vmaxW1 g t u sc d a b) g ((a, tyRegs t) :: (srcOf sc b).reads (tyRegs t)) d (tyRegs t) 3 fun s l => laneMax s t u (.v a) (srcOf sc b) l
  | vmaxLit u d a x : LaneWrite (.vmaxLit u d a x) none [(a, 1)] d 1 3 fun s l => laneMax s .i32 u (.v a) (.lit x) l
  | vmaxLitW1 g t u d a x : LaneWrite (.vmaxLitW1 g t u d a x) g [(a, tyRegs t)] d (tyRegs t) 5 fun s l => laneMax s t u (.v a) (.lit x) l
  | vpopc d a : LaneWrite (.vpopc d a) none [(a, 1)] d 1 1 fun s l => laneOnes s .i32 (.v a) l
  | vpopcW1 g t d a : LaneWrite (.vpopcW1 g t d a) g [(a, tyRegs t)] d 1 3 fun s l => laneOnes s t (.v a) l
  | vclz d a : LaneWrite (.vclz d a) none [(a, 1)] d 1 1 fun s l => laneZeros s .i32 (.v a) l
  | vclzW1 g t d a : LaneWrite (.vclzW1 g t d a) g [(a, tyRegs t)] d 1 3 fun s l => laneZeros s t (.v a) l
  | vbfe g t sg d a p f (legal : f.toNat ≥ 1 ∧ p.toNat + f.toNat ≤ t.width) :
      LaneWrite (.vbfe g t sg d a p f) g [(a, tyRegs t)] d (tyRegs t) 3 fun s l => laneField s t sg (.v a) p.toNat f.toNat l
  | vbfi g t d a p f (legal : f.toNat ≥ 1 ∧ p.toNat + f.toNat ≤ t.width) :
      LaneWrite (.vbfi g t d a p f) g [(a, tyRegs t)] d (tyRegs t) 3 fun s l => laneInsert s t (.v d) (.v a) p.toNat f.toNat l
  | vsel g t d a b c : LaneWrite (.vsel g t d a b c) g [(a, tyRegs t), (b, tyRegs t)] d (tyRegs t) 3 fun s l => 
      if (s.rp c).getLsbD l then (laneBits s t (.v a) l).toNat else (laneBits s t (.v b) l).toNat
  | vmov sc d a : LaneWrite (.vmov sc d a) none ((srcOf sc a).reads 1) d 1 1 fun s l => (laneBits s .i32 (srcOf sc a) l).toNat
  | vmovW1 g t sc d a : LaneWrite (.vmovW1 g t sc d a) g ((srcOf sc a).reads (tyRegs t)) d (tyRegs t) 3 fun s l => (laneBits s t (srcOf sc a) l).toNat
  | vmovLit d x : LaneWrite (.vmovLit d x) none [] d 1 3 fun s l => (laneBits s .i32 (.lit x) l).toNat
  | vmovLitW1 g t d x : LaneWrite (.vmovLitW1 g t d x) g [] d (tyRegs t) 5 fun s l => (laneBits s t (.lit x) l).toNat
  | vshfl m d a b : LaneWrite (.vshfl m d a b) none [(a, 1), (b, 1)] d 1 1 fun s l => 
      laneFrom s .b32 (.v a) l (shflLane m (laneBits s .b32 (.v b) l).toNat l)
  | vshflW1 g t m d a b : LaneWrite (.vshflW1 g t m d a b) g [(a, tyRegs t), (b, 1)] d (tyRegs t) 3 fun s l => 
      laneFrom s t (.v a) l (shflLane m (laneBits s .b32 (.v b) l).toNat l)
  | vrot d a b : LaneWrite (.vrot d a b) none [(a, 1)] d 1 1 fun s l => laneFrom s .b32 (.v a) l ((l + (s.rs b).toNat) % 32)
  | vrotW1 g t d a b : LaneWrite (.vrotW1 g t d a b) g [(a, tyRegs t)] d (tyRegs t) 3 fun s l => laneFrom s t (.v a) l ((l + (s.rs b).toNat) % 32)
  | vbcast d a b : LaneWrite (.vbcast d a b) none [(a, 1)] d 1 1 fun s l => laneFrom s .b32 (.v a) l ((s.rs b).toNat % 32)
  | vbcastW1 g t d a b : LaneWrite (.vbcastW1 g t d a b) g [(a, tyRegs t)] d (tyRegs t) 3 fun s l => laneFrom s t (.v a) l ((s.rs b).toNat % 32)
  | vdot4 ua ub d a b : LaneWrite (.vdot4 ua ub d a b) none [(a, 1), (b, 1), (0, 1)] d 1 1 fun s l => laneDot4 s false ua ub a b 0 l
  | vdot4W1 g sat ua ub d a b c : LaneWrite (.vdot4W1 g sat ua ub d a b c) g [(a, 1), (b, 1), (c, 1)] d 1 3 fun s l => laneDot4 s sat ua ub a b c l
  | fclass d a : LaneWrite (.fclass d a) none [(a, 1)] d 1 1 fun s l => classOf (fmtOf .f32) (s.src (.v a) .f32 l % 2 ^ (fmtOf .f32).bits)
  | fclassW1 g t d a : LaneWrite (.fclassW1 g t d a) g [(a, tyRegs t)] d 1 3 fun s l => classOf (fmtOf t) (s.src (.v a) t l % 2 ^ (fmtOf t).bits)
  | ppack d : LaneWrite (.ppack d) none [] d 1 1 fun s l => ((List.range 8).map fun k => if (s.grp.p.toList.getD k 0).getLsbD l then 2 ^ k else 0).sum
  | ppackW1 g d : LaneWrite (.ppackW1 g d) g [] d 1 3 fun s l => ((List.range 8).map fun k => if (s.grp.p.toList.getD k 0).getLsbD l then 2 ^ k else 0).sum

/-- The value of an encoding in one lane, at a floating-point type. -/
def laneFp (s : State) (t : Ty) (x : Src) (l : Nat) : Fp := decodeFp (fmtOf t) (s.src x t l)

/-- An exact value rounded once: encoding and flags; `fl` are the flags of forming it (R101, R104). -/
def rounded (t : Ty) (mode : Rnd) (draw : Nat) (x : Fp × Flags) : Nat × Flags :=
  ((roundFp (fmtOf t) mode draw x.1).1, (roundFp (fmtOf t) mode draw x.1).2 ||| x.2)

/-- One 16-bit element of a lane (R111, R156). -/
def halfFp (s : State) (t : Ty) (x : VReg) (h l : Nat) : Fp := decodeFp (fmtOf t) (s.src (.v x) .b32 l / 2 ^ (16 * h) % 2 ^ 16)

/-- ±a × b ± c, formed exactly (R111, R150). -/
def fused (np na : Bool) (mode : Rnd) (x y z : Fp) : Fp × Flags :=
  let p := mulFp x y
  let r := addFp (mode == .rdn) (negIf np p.1) (negIf na z)
  (r.1, p.2 ||| r.2 ||| nvOf z)

/-- Two elements of a packed pair, draws 0 and 1 (R156). -/
def pairOf (t : Ty) (mode : Rnd) (draw : Nat → Nat) (f : Nat → Fp × Flags) : Nat × Flags :=
  ((rounded t mode (draw 0) (f 0)).1 + (rounded t mode (draw 1) (f 1)).1 * 2 ^ 16,
    (rounded t mode (draw 0) (f 0)).2 ||| (rounded t mode (draw 1) (f 1)).2)

/-- Instructions that round (R102): guard, rounding field, draws, registers read, destination, words, and the value and flags of each
lane under a mode and its draws. -/
inductive RoundWrite : Instr → Option Guard → Rnd → Nat → List (VReg × Nat) → VReg → Nat → Nat →
    (State → Rnd → (Nat → Nat) → Nat → Nat × Flags) → Prop
  | fadd sc d a b : RoundWrite (.fadd sc d a b) none .rne 1 ((a, 1) :: (srcOf sc b).reads 1) d 1 1 fun s m draw l =>
      rounded .f32 m (draw 0) (addFp (m == .rdn) (laneFp s .f32 (.v a) l) (laneFp s .f32 (srcOf sc b) l))
  | faddW1 g t r sc d a b : RoundWrite (.faddW1 g t r sc d a b) g r 1 ((a, tyRegs t) :: (srcOf sc b).reads (tyRegs t)) d (tyRegs t) 3 fun s m draw l =>
      rounded t m (draw 0) (addFp (m == .rdn) (laneFp s t (.v a) l) (laneFp s t (srcOf sc b) l))
  | fsub sc d a b : RoundWrite (.fsub sc d a b) none .rne 1 ((a, 1) :: (srcOf sc b).reads 1) d 1 1 fun s m draw l =>
      rounded .f32 m (draw 0) (addFp (m == .rdn) (laneFp s .f32 (.v a) l) (negIf true (laneFp s .f32 (srcOf sc b) l)))
  | fsubW1 g t r sc d a b : RoundWrite (.fsubW1 g t r sc d a b) g r 1 ((a, tyRegs t) :: (srcOf sc b).reads (tyRegs t)) d (tyRegs t) 3 fun s m draw l =>
      rounded t m (draw 0) (addFp (m == .rdn) (laneFp s t (.v a) l) (negIf true (laneFp s t (srcOf sc b) l)))
  | fmul sc d a b : RoundWrite (.fmul sc d a b) none .rne 1 ((a, 1) :: (srcOf sc b).reads 1) d 1 1 fun s m draw l =>
      rounded .f32 m (draw 0) (mulFp (laneFp s .f32 (.v a) l) (laneFp s .f32 (srcOf sc b) l))
  | fmulW1 g t r sc d a b : RoundWrite (.fmulW1 g t r sc d a b) g r 1 ((a, tyRegs t) :: (srcOf sc b).reads (tyRegs t)) d (tyRegs t) 3 fun s m draw l =>
      rounded t m (draw 0) (mulFp (laneFp s t (.v a) l) (laneFp s t (srcOf sc b) l))
  | ffma np na sc d a b : RoundWrite (.ffma np na sc d a b) none .rne 1 ((a, 1) :: (0, 1) :: (srcOf sc b).reads 1) d 1 1 fun s m draw l =>
      rounded .f32 m (draw 0) (fused np na m (laneFp s .f32 (.v a) l) (laneFp s .f32 (srcOf sc b) l) (laneFp s .f32 (.v 0) l))
  | ffmaW1 g t r np na sc d a b c : RoundWrite (.ffmaW1 g t r np na sc d a b c) g r 1 ((a, tyRegs t) :: (c, tyRegs t) :: (srcOf sc b).reads (tyRegs t)) d (tyRegs t) 3 fun s m draw l =>
      rounded t m (draw 0) (fused np na m (laneFp s t (.v a) l) (laneFp s t (srcOf sc b) l) (laneFp s t (.v c) l))
  | frnd g t r d a : RoundWrite (.frnd g t r d a) g r 1 [(a, tyRegs t)] d (tyRegs t) 3 fun s m draw l =>
      integralBits (fmtOf t) m (draw 0) (s.src (.v a) t l)
  | cvt g t r sat src d a : RoundWrite (.cvt g t r sat src d a) g r 1 [(a, tyRegs src)] d (tyRegs t) 3 fun s m draw l =>
      (placeCvt t (convert src t m (draw 0) sat (s.src (.v a) src l)).1, (convert src t m (draw 0) sat (s.src (.v a) src l)).2)
  | pkadd d a b : RoundWrite (.pkadd d a b) none .rne 2 [(a, 1), (b, 1)] d 1 1 fun s m draw l =>
      pairOf .f16 m draw fun h => addFp (m == .rdn) (halfFp s .f16 a h l) (halfFp s .f16 b h l)
  | pkaddW1 g t r d a b : RoundWrite (.pkaddW1 g t r d a b) g r 2 [(a, 1), (b, 1)] d 1 3 fun s m draw l =>
      pairOf t m draw fun h => addFp (m == .rdn) (halfFp s t a h l) (halfFp s t b h l)
  | pkmul d a b : RoundWrite (.pkmul d a b) none .rne 2 [(a, 1), (b, 1)] d 1 1 fun s m draw l =>
      pairOf .f16 m draw fun h => mulFp (halfFp s .f16 a h l) (halfFp s .f16 b h l)
  | pkmulW1 g t r d a b : RoundWrite (.pkmulW1 g t r d a b) g r 2 [(a, 1), (b, 1)] d 1 3 fun s m draw l =>
      pairOf t m draw fun h => mulFp (halfFp s t a h l) (halfFp s t b h l)
  | pkfma d a b : RoundWrite (.pkfma d a b) none .rne 2 [(a, 1), (b, 1), (0, 1)] d 1 1 fun s m draw l =>
      pairOf .f16 m draw fun h => fused false false m (halfFp s .f16 a h l) (halfFp s .f16 b h l) (halfFp s .f16 0 h l)
  | pkfmaW1 g t r d a b c : RoundWrite (.pkfmaW1 g t r d a b c) g r 2 [(a, 1), (b, 1), (c, 1)] d 1 3 fun s m draw l =>
      pairOf t m draw fun h => fused false false m (halfFp s t a h l) (halfFp s t b h l) (halfFp s t c h l)

/-- VDOT2H (R111): v[C] + a0 b0 + a1 b1, the sum exact, rounded once to FP32 with RNE. -/
def dotTwo (s : State) (t : Ty) (a b c : VReg) (l : Nat) : Nat × Flags :=
  let z := laneFp s .f32 (.v c) l
  let p := mulFp (halfFp s t a 0 l) (halfFp s t b 0 l)
  let q := mulFp (halfFp s t a 1 l) (halfFp s t b 1 l)
  let x := sumFp false [z, p.1, q.1]
  ((roundFp (fmtOf .f32) .rne 0 x.1).1, x.2 ||| (roundFp (fmtOf .f32) .rne 0 x.1).2 ||| p.2 ||| q.2 ||| nvOf z)

/-- One combination of VSCAN (R164). -/
def scanOf (t : Ty) (op : ScanOp) (vs : List Nat) : Nat × Flags :=
  match op with
  | .add => sumOf t vs
  | .min => extremeOf t false false vs
  | .max => extremeOf t true false vs

/-- Floating-point instructions that write lanes and may set flags without the rounding field: FMIN, FMAX, VDOT2H, VSCAN (R111, R151,
R164). -/
inductive FlagWrite : Instr → Option Guard → List (VReg × Nat) → VReg → Nat → Nat → (State → Nat → Nat × Flags) → Prop
  | fmin num d a b : FlagWrite (.fmin num d a b) none [(a, 1), (b, 1)] d 1 1 fun s l =>
      minmaxBits (fmtOf .f32) false num (s.src (.v a) .f32 l) (s.src (.v b) .f32 l)
  | fminW1 g t num d a b : FlagWrite (.fminW1 g t num d a b) g [(a, tyRegs t), (b, tyRegs t)] d (tyRegs t) 3 fun s l =>
      minmaxBits (fmtOf t) false num (s.src (.v a) t l) (s.src (.v b) t l)
  | fmax num d a b : FlagWrite (.fmax num d a b) none [(a, 1), (b, 1)] d 1 1 fun s l =>
      minmaxBits (fmtOf .f32) true num (s.src (.v a) .f32 l) (s.src (.v b) .f32 l)
  | fmaxW1 g t num d a b : FlagWrite (.fmaxW1 g t num d a b) g [(a, tyRegs t), (b, tyRegs t)] d (tyRegs t) 3 fun s l =>
      minmaxBits (fmtOf t) true num (s.src (.v a) t l) (s.src (.v b) t l)
  | vdot2h d a b : FlagWrite (.vdot2h d a b) none [(a, 1), (b, 1), (0, 1)] d 1 1 fun s l => dotTwo s .f16 a b 0 l
  | vdot2hW1 g t d a b c : FlagWrite (.vdot2hW1 g t d a b c) g [(a, 1), (b, 1), (c, 1)] d 1 3 fun s l => dotTwo s t a b c l
  | vscan g t op excl d a : FlagWrite (.vscan g t op excl d a) g [(a, tyRegs t)] d (tyRegs t) 3 fun s l =>
      scanOf t op (((List.range 32).filter fun k => (s.active g).getLsbD k && decide (if excl then k < l else k ≤ l)).map fun k => s.src (.v a) t k)


/-- Compares (R146, R152): guard, registers read, predicate, the value and flags of each lane. -/
inductive PredLane : Instr → Option Guard → List (VReg × Nat) → PReg → (State → Nat → Bool × Flags) → Prop
  | vcmp g t cc sc d a b : PredLane (.vcmp g t cc sc d a b) g ((a, tyRegs t) :: (srcOf sc b).reads (tyRegs t)) d fun s l =>
      (relW cc (laneBits s t (.v a) l) (laneBits s t (srcOf sc b) l), 0)
  | fcmp g t cc sc d a b : PredLane (.fcmp g t cc sc d a b) g ((a, tyRegs t) :: (srcOf sc b).reads (tyRegs t)) d fun s l =>
      fpRel cc (laneFp s t (.v a) l) (laneFp s t (srcOf sc b) l)

/-- Reductions (R163): guard, type, source, destination, words, the combination. -/
inductive Reduce : Instr → Option Guard → Ty → VReg → SReg → Nat → (List Nat → Nat × Flags) → Prop
  | vradd d a : Reduce (.vradd d a) none .i32 a d 1 (sumOf .i32)
  | vraddW1 g t d a : Reduce (.vraddW1 g t d a) g t a d 3 (sumOf t)
  | vrmin u d a : Reduce (.vrmin u d a) none .i32 a d 1 (extremeOf .i32 false u)
  | vrminW1 g t u d a : Reduce (.vrminW1 g t u d a) g t a d 3 (extremeOf t false u)
  | vrmax u d a : Reduce (.vrmax u d a) none .i32 a d 1 (extremeOf .i32 true u)
  | vrmaxW1 g t u d a : Reduce (.vrmaxW1 g t u d a) g t a d 3 (extremeOf t true u)

/-- A reduction's value in its scalar register (R163): sign-extended for .i32, zero-extended otherwise. -/
def reduced (t : Ty) (v : Nat) : W64 := if t = .i32 then (BitVec.ofNat 32 v).signExtend 64 else BitVec.ofNat 64 v

/-- Special functions (R158 to R160): the function's number, guard, destination, source, words. -/
inductive Special : Instr → Nat → Option Guard → VReg → VReg → Nat → Prop
  | xrcp d a : Special (.xrcp d a) 0 none d a 1
  | xrcpW1 g d a : Special (.xrcpW1 g d a) 0 g d a 3
  | xrsq d a : Special (.xrsq d a) 1 none d a 1
  | xrsqW1 g d a : Special (.xrsqW1 g d a) 1 g d a 3
  | xsqrt d a : Special (.xsqrt d a) 2 none d a 1
  | xsqrtW1 g d a : Special (.xsqrtW1 g d a) 2 g d a 3
  | xexp2 d a : Special (.xexp2 d a) 3 none d a 1
  | xexp2W1 g d a : Special (.xexp2W1 g d a) 3 g d a 3
  | xlog2 d a : Special (.xlog2 d a) 4 none d a 1
  | xlog2W1 g d a : Special (.xlog2W1 g d a) 4 g d a 3
  | xsin d a : Special (.xsin d a) 5 none d a 1
  | xsinW1 g d a : Special (.xsinW1 g d a) 5 g d a 3
  | xcos d a : Special (.xcos d a) 6 none d a 1
  | xcosW1 g d a : Special (.xcosW1 g d a) 6 g d a 3
  | xtanh d a : Special (.xtanh d a) 7 none d a 1
  | xtanhW1 g d a : Special (.xtanhW1 g d a) 7 g d a 3

end Sys2Proof.Statements
end

