-- ==== Sys2Proof/Statements/Memory.lean ====
section
/-! DEFINITION. Tables for the statements about memory: where each lane of an access goes, which instruction issues which access,
what fences, cache control and waiting on a word do (R168 to R189). -/
namespace Sys2Proof.Statements

open Sys2Proof Sys2Proof.Machine

/-- The index of a lane: register B read signed or unsigned, times 1, 2, 4 or 8; 0 without an index (R54, R169). -/
def laneIndex (s : State) (x : Option Idx) (l : Nat) : Int :=
  match x with
  | none => 0
  | some i =>
    let v := (s.vlane i.v 1 l).extractLsb' 0 32
    (if i.signed then v.toInt else v.toNat) * 2 ^ i.scale.toNat

/-- ea(l) (R169). -/
def laneEa (s : State) (base : W64) (x : Option Idx) (off : W32) (l : Nat) : W64 :=
  base + BitVec.ofInt 64 (laneIndex s x l) + off.signExtend 64

/-- Bytes of a type of whole bytes in memory (R170). -/
def memBytes : Ty → Nat
  | .i8 | .z8 | .b8 | .e4m3 | .e5m2 => 1
  | .i16 | .z16 | .b16 | .bf16 | .f16 => 2
  | .i64 | .z64 | .b64 | .f64 => 8
  | .b128 => 16
  | _ => 4

/-- Registers of a lane that a type takes (R10, R170). -/
def memRegs : Ty → Nat
  | .i64 | .z64 | .b64 | .f64 => 2
  | .b128 => 4
  | _ => 1

/-- One lane of a global or local access of whole bytes (R170): `n` bytes at ea(l), a multiple of `n`. -/
def wholeLane (s : State) (base : W64) (x : Option Idx) (off : W32) (t : Ty) (l : Nat) : Reach :=
  let ea := laneEa s base x off l
  { lane := l, ea, ok := ea.toNat % memBytes t == 0, parts := [(ea, memBytes t)] }

/-- Width of a sub-byte element (R171). -/
def subWidth : Ty → Nat
  | .e2m1 => 4
  | _ => 6

/-- One lane of a sub-byte access (R171): `w` bits from bit 8 × (base + sext(W2)) + w × idx(l), inside one 32-byte sector. -/
def subLane (s : State) (base : W64) (x : Option Idx) (off : W32) (t : Ty) (l : Nat) : Reach :=
  let w := subWidth t
  let i : Int := match x with
    | none => 0
    | some i =>
      let v := (s.vlane i.v 1 l).extractLsb' 0 32
      if i.signed then v.toInt else v.toNat
  let b := ((8 * (base + off.signExtend 64).toNat + w * i) % 2 ^ 67).toNat
  { lane := l, ea := BitVec.ofNat 64 (b / 8), ok := b / 256 == (b + w - 1) / 256
    parts := [(BitVec.ofNat 64 (b / 8), (b % 8 + w + 7) / 8)], bit := b % 8 }

/-- One lane of a private access (R175): word `i` at ea(l) + 128i + 4l, ea(l) a multiple of 128. -/
def rowLane (s : State) (x : Option Idx) (off : W32) (t : Ty) (l : Nat) : Reach :=
  let ea := laneEa s s.slot.sp x off l
  { lane := l, ea, ok := ea.toNat % 128 == 0
    parts := (List.range (memRegs t)).map fun i => (ea + BitVec.ofNat 64 (128 * i + 4 * l), 4) }

/-- An access of an instruction: its words, guard, space, type, scope, order, cache policy, index, register, and what a lane
reaches. -/
structure Access where
  words : Nat
  guard : Option Guard
  priv : Bool
  ty : Ty
  sc : Scope
  ord : Order
  cp : Cp
  idx : Option Idx
  d : VReg
  reach : State → Nat → Reach

/-- What an access to global or local memory reaches. -/
def accessLane (a : SReg) (x : Option Idx) (off : W32) (t : Ty) (s : State) (l : Nat) : Reach :=
  if t.isSub then subLane s (s.rs a) x off t l else wholeLane s (s.rs a) x off t l

/-- The instructions that load, each with its access (R170, R175): LD and LDP on global memory, LDG on local memory. -/
inductive LoadForm : Instr → Bool → Access → Prop
  | ld m d : LoadForm (.ld m d) false ⟨1, none, false, .b32, .grp, .rlx, .dflt, m.idx, d, accessLane m.a m.idx 0 .b32⟩
  | ldW1 g ty sc ord cp m off d :
      LoadForm (.ldW1 g ty sc ord cp m off d) false ⟨3, g, false, ty, sc, ord, cp, m.idx, d, accessLane m.a m.idx off ty⟩
  | ldp x d : LoadForm (.ldp x d) false ⟨1, none, true, .b32, .grp, .rlx, .dflt, x, d, fun s => rowLane s x 0 .b32⟩
  | ldpW1 g ty x off d : LoadForm (.ldpW1 g ty x off d) false ⟨3, g, true, ty, .grp, .rlx, .dflt, x, d, fun s => rowLane s x off ty⟩
  | ldg m d : LoadForm (.ldg m d) true ⟨1, none, false, .b32, .grp, .rlx, .dflt, m.idx, d, accessLane m.a m.idx 0 .b32⟩
  | ldgW1 g ty sc ord cp m off d :
      LoadForm (.ldgW1 g ty sc ord cp m off d) true ⟨3, g, false, ty, sc, ord, cp, m.idx, d, accessLane m.a m.idx off ty⟩

/-- The instructions that store: ST and STP on global memory, STG on local memory. -/
inductive StoreForm : Instr → Bool → Access → Prop
  | st m d : StoreForm (.st m d) false ⟨1, none, false, .b32, .grp, .rlx, .dflt, m.idx, d, accessLane m.a m.idx 0 .b32⟩
  | stW1 g ty sc ord cp m off d :
      StoreForm (.stW1 g ty sc ord cp m off d) false ⟨3, g, false, ty, sc, ord, cp, m.idx, d, accessLane m.a m.idx off ty⟩
  | stp x d : StoreForm (.stp x d) false ⟨1, none, true, .b32, .grp, .rlx, .dflt, x, d, fun s => rowLane s x 0 .b32⟩
  | stpW1 g ty x off d : StoreForm (.stpW1 g ty x off d) false ⟨3, g, true, ty, .grp, .rlx, .dflt, x, d, fun s => rowLane s x off ty⟩
  | stg m d : StoreForm (.stg m d) true ⟨1, none, false, .b32, .grp, .rlx, .dflt, m.idx, d, accessLane m.a m.idx 0 .b32⟩
  | stgW1 g ty sc ord cp m off d :
      StoreForm (.stgW1 g ty sc ord cp m off d) true ⟨3, g, false, ty, sc, ord, cp, m.idx, d, accessLane m.a m.idx off ty⟩

/-- The atomics with their operation and compare register: ATOM on global memory, ATOMG on local memory (R179). -/
inductive AtomForm : Instr → Bool → AtomOp → VReg → Access → Prop
  | atom g ty sc ord cp op m off d c :
      AtomForm (.atom g ty sc ord cp op m off d c) false op c ⟨3, g, false, ty, sc, ord, cp, m.idx, d, accessLane m.a m.idx off ty⟩
  | atomg g ty sc ord op m off d c :
      AtomForm (.atomg g ty sc ord op m off d c) true op c ⟨3, g, false, ty, sc, ord, .dflt, m.idx, d, accessLane m.a m.idx off ty⟩

/-- RED (R179). -/
inductive RedForm : Instr → AtomOp → Access → Prop
  | red g ty sc ord cp op m off d :
      RedForm (.red g ty sc ord cp op m off d) op ⟨3, g, false, ty, sc, ord, cp, m.idx, d, accessLane m.a m.idx off ty⟩

/-- The lanes an access acts on. -/
def Access.lanes (a : Access) (s : State) : LaneMask := s.active a.guard

/-- What the lanes of an access reach, ascending. -/
def Access.reaches (a : Access) (s : State) : List Reach := (lanesOf (a.lanes s)).map (a.reach s)

/-- The checks of R172 let the lanes through, with these pieces. -/
def Access.passes (a : Access) (isLocal : Bool) (perm : Xl → Bool) (kind : Xl → Option Nat) (s : State) (accs : List LaneAcc) : Prop :=
  if isLocal then s.checkLocal a.sc (a.reaches s) = .ok accs else s.checkGlobal a.priv (a.reaches s) perm kind = .ok accs

/-- The wait counter of an access (R168). -/
def loadCounter (isLocal : Bool) : Counter := if isLocal then .sm else .ld
def storeCounter (isLocal : Bool) : Counter := if isLocal then .sm else .st

/-- The result of a load, atomic or SFU as it becomes outstanding (R174): what it will write, for whom it counts. -/
def Access.pending (a : Access) (s : State) (c : Counter) (accs : List LaneAcc) (k : OutKind) : Outst :=
  { id := s.nextId, tags := s.tags, cnt := c, pos := s.slot.wbase + a.d.toNat, regs := memRegs a.ty, pc := s.pc
    pend := a.lanes s, full := a.lanes s, lanes := accs, kind := k }

/-- An outstanding result added, its name taken. -/
def addResult (s : State) (e : Outst) : State :=
  { s with nextId := s.nextId + 1, grp := { s.grp with outst := s.grp.outst ++ [e] } }

/-- A store in the core's write-through queue, the core's L1 copies of its sectors updated (R174, R177, R300). -/
def queued (s : State) (c : Counter) (k : StoreKind) : State :=
  s.enqueueStore
    { group := s.grp.key, tags := s.tags, cnt := c, counted := true, part := s.grp.part, vf := s.grp.vf, die := s.grp.die
      cluster := s.grp.cluster, core := s.grp.core, kind := k }

/-- Loads that issue: the result is outstanding and counts, the path goes on; under .acq an acquire follows (R174 to R176). -/
inductive Loads : Instr → State → State → Prop
  | load i isLocal a s accs (form : LoadForm i isLocal a) (regs : s.vcheck (idxReads a.idx) [(a.d, memRegs a.ty)] = .ok ())
      (some' : a.lanes s ≠ 0) (room : s.cnt (loadCounter isLocal) < 63) (ok : a.passes isLocal (·.r) anyKind s accs) :
      Loads i s
        (((addResult s (a.pending s (loadCounter isLocal) accs
          (if isLocal then .loadLocal a.ty else .load a.ty a.sc a.cp (acquires a.ord)))).advance a.words).acquireFor a.ord a.sc)
  /-- With no lane the acquire is all that happens (R18, R176). -/
  | empty i isLocal a s (form : LoadForm i isLocal a) (regs : s.vcheck (idxReads a.idx) [(a.d, memRegs a.ty)] = .ok ())
      (none : a.lanes s = 0) : Loads i s ((s.advance a.words).acquireFor a.ord a.sc)

/-- A store queued with its data as read now. -/
def Access.stored (a : Access) (isLocal : Bool) (accs : List LaneAcc) (u : State) : State :=
  let vals := u.withData a.d (memRegs a.ty) accs
  (queued u (storeCounter isLocal) (if isLocal then .tile u.grp.gang a.ty vals else .store a.sc a.cp vals a.ty)).advance a.words

/-- A reduction queued with its operands as read now. -/
def Access.reduced (a : Access) (op : AtomOp) (accs : List LaneAcc) (u : State) : State :=
  (queued u .st (.red op a.ty a.sc a.cp (u.withData a.d (memRegs a.ty) accs))).advance 3

/-- An atomic outstanding with its operands as read now; `m` are its lanes. -/
def Access.atomic (a : Access) (isLocal : Bool) (op : AtomOp) (c : VReg) (m : LaneMask) (accs : List LaneAcc) (t : State) : State :=
  let e := a.pending t (loadCounter isLocal) (t.withOperands a.d c (memRegs a.ty) accs)
    (if isLocal then .atomicLocal op a.ty else .atomic op a.ty a.sc a.cp (acquires a.ord))
  ((addResult t { e with pend := m, full := m }).advance 3).acquireFor a.ord a.sc

/-- No result of the path on the bytes of an access is behind one of another package or of near memory (R302, R308). -/
def Unblocked (s : State) (isLocal : Bool) (accs : List LaneAcc) : Prop := s.awaits (s.overlapping isLocal accs) = false

/-- Stores that issue: their data are read now, and they are queued for their point; .rel first releases (R174 to R176), all that happens
where no lane stores (R18). -/
inductive Stores : Instr → State → State → Prop
  | store i isLocal a s accs t (form : StoreForm i isLocal a)
      (regs : s.vcheck ((a.d, memRegs a.ty) :: idxReads a.idx) [] = .ok ())
      (some' : a.lanes s ≠ 0) (room : s.cnt (storeCounter isLocal) < 63) (ok : a.passes isLocal (·.w) anyKind s accs)
      (order : s.releaseFor a.ord a.sc = .ok t) (clear : Unblocked t isLocal accs) :
      Stores i s (a.stored isLocal accs (t.returnOverlaps isLocal accs))
  | empty i isLocal a s t (form : StoreForm i isLocal a) (regs : s.vcheck ((a.d, memRegs a.ty) :: idxReads a.idx) [] = .ok ())
      (none : a.lanes s = 0) (order : s.releaseFor a.ord a.sc = .ok t) : Stores i s (t.advance a.words)

/-- Atomics and reductions that issue (R179 to R182); with no lane the fences of their order are all that happens (R18). -/
inductive Atomics : Instr → State → State → Prop
  | atomic i isLocal op c a s accs t (form : AtomForm i isLocal op c a)
      (regs : s.vcheck ((a.d, memRegs a.ty) :: (if op = .cas then [(c, memRegs a.ty)] else []) ++ idxReads a.idx)
        [(a.d, memRegs a.ty)] = .ok ())
      (some' : a.lanes s ≠ 0) (room : s.cnt (loadCounter isLocal) < 63)
      (ok : a.passes isLocal (fun x => x.r && x.w) (atomKind a.sc) s accs) (order : s.releaseFor a.ord a.sc = .ok t) :
      Atomics i s (a.atomic isLocal op c (a.lanes s) accs t)
  | atomicEmpty i isLocal op c a s t (form : AtomForm i isLocal op c a)
      (regs : s.vcheck ((a.d, memRegs a.ty) :: (if op = .cas then [(c, memRegs a.ty)] else []) ++ idxReads a.idx)
        [(a.d, memRegs a.ty)] = .ok ())
      (none : a.lanes s = 0) (order : s.releaseFor a.ord a.sc = .ok t) : Atomics i s ((t.advance 3).acquireFor a.ord a.sc)
  | red i op a s accs t (form : RedForm i op a) (regs : s.vcheck ((a.d, memRegs a.ty) :: idxReads a.idx) [] = .ok ())
      (some' : a.lanes s ≠ 0) (room : s.cnt .st < 63) (ok : a.passes false (·.w) (atomKind a.sc) s accs)
      (order : s.releaseFor a.ord a.sc = .ok t) (clear : Unblocked t false accs) :
      Atomics i s (a.reduced op accs (t.returnOverlaps false accs))
  | redEmpty i op a s t (form : RedForm i op a) (regs : s.vcheck ((a.d, memRegs a.ty) :: idxReads a.idx) [] = .ok ())
      (none : a.lanes s = 0) (order : s.releaseFor a.ord a.sc = .ok t) : Atomics i s (t.advance 3)

/-- The word that WAITA and WAKE name (R169). -/
def wordEa (s : State) (a : SReg) (off : W32) : W64 := s.rs a + off.signExtend 64

/-- The 8 bytes of a word, as a read at a scope finds them: .grp and .gang read as .die (R187). -/
def waitBytes (s : State) (sc : Scope) (ps : List Piece) : List Byte × Bool × State :=
  s.loadLane s.grp.here (match sc with | .grp | .gang => .die | x => x) .dflt ps

/-- The forms of WAITA: relation, scope, order, offset, registers, words. -/
inductive WaitForm : Instr → Cmp → Scope → Order → W32 → SReg → SReg → SReg → Nat → Prop
  | plain cc d a b : WaitForm (.waita cc d a b) cc .grp .rlx 0 d a b 1
  | w1 cc sc ord off d a b : WaitForm (.waitaW1 cc sc ord off d a b) cc sc ord off d a b 3

inductive WakeForm : Instr → Scope → Order → W32 → SReg → Nat → Prop
  | plain a : WakeForm (.wake a) .grp .rlx 0 a 1
  | w1 sc ord off a : WakeForm (.wakeW1 sc ord off a) sc ord off a 3

/-- Two groups of a context share the point of a scope for a word of a page of some kind (R188, R297): the host port for HOST, the base die
for ATOMIC_HOME and for .pkg and .sys, otherwise the L2 of a die. -/
abbrev sharePoint (sc : Scope) (kind : Kind) (g h : Group) : Prop :=
  g.part = h.part ∧ g.vf = h.vf ∧ (sc = .pkg ∨ sc = .sys ∨ kind ≠ .normal ∨ g.die = h.die)

/-- A slot whose path waits on a word is due to read it again. -/
def dueAt (pa : Nat) (x : Slot) : Slot :=
  match x.park with
  | .waita w => if w.pa = some pa then { x with park := .waita { w with due := true } } else x
  | _ => x

/-- A group's paths that wait on the word of a piece, at the point of a scope of group `g`, are due to read again (R188). -/
def wakes (g : Group) (sc : Scope) (p : Piece) (h : Group) : Group :=
  if sharePoint sc p.kind g h then { h with slotA := dueAt p.pa h.slotA, slotB := dueAt p.pa h.slotB } else h

/-- Fences, cache control, prefetch, waiting on a word (R184 to R189). -/
inductive Orders : Instr → State → State → Prop
  /-- R185: release, then acquire. -/
  | fenceFull sc ord s t (h : ord = .rlx ∨ ord = .ar) (rel : s.release sc = .ok t) : Orders (.fence sc ord) s ((t.advance 3).acquire sc)
  | fenceAcq sc s : Orders (.fence sc .acq) s ((s.advance 3).acquire sc)
  | fenceRel sc s t (rel : s.release sc = .ok t) : Orders (.fence sc .rel) s (t.advance 3)
  /-- R186: `accs` are the lanes of $exec past the translation stage; .icinv waits until ST is 0. The core's stores to those lines come to
  L2 first (log 37). -/
  | icinv m off s accs (regs : s.vcheck (idxReads m.idx) [] = .ok ()) (done : s.cnt .st = 0)
      (ok : s.checkGlobal false ((lanesOf s.slot.mask).map fun l =>
        ⟨l, laneEa s (s.rs m.a) m.idx off l, true, [(laneEa s (s.rs m.a) m.idx off l, 1)], 0⟩) (fun _ => true) anyKind = .ok accs) :
      Orders (.cctl 0 m off) s
        (((s.settleCode s.grp.here (accs.flatMap (·.pieces))).dropCode s.grp.here
          (distinct ((accs.filter fun a => a.pieces.all fun p => p.kind == .normal).map fun a => a.ea.toNat % 2 ^ 55 / 256))).advance 3)
  | cctl op m off s accs (regs : s.vcheck (idxReads m.idx) [] = .ok ()) (data : op ≠ 0) (room : s.cnt .st < 63)
      (ok : s.checkGlobal false ((lanesOf s.slot.mask).map fun l =>
        ⟨l, laneEa s (s.rs m.a) m.idx off l, true, [(laneEa s (s.rs m.a) m.idx off l, 1)], 0⟩) (fun _ => true) anyKind = .ok accs) :
      Orders (.cctl op m off) s
        ((queued s .st (.cctl op.toNat (distinct (accs.flatMap fun a =>
          (a.pieces.filter fun p => p.kind == .normal).map fun p => p.pa / 256)))).advance 3)
  /-- R187: the condition holds at the read, or the path waits. What the path loaded of the word before returns first (R302). -/
  | waitMet i cc sc ord off d a b n s accs bs t (form : WaitForm i cc sc ord off d a b n)
      (ok : s.checkGlobal false [⟨0, wordEa s a off, (wordEa s a off).toNat % 8 == 0, [(wordEa s a off, 8)], 0⟩] (·.r) anyKind = .ok accs)
      (clear : Unblocked s false accs)
      (read : waitBytes (s.returnOverlaps false accs) sc (accs.flatMap (·.pieces)) = (bs, false, t)) (eight : bs.length = 8)
      (met : rel64 cc (BitVec.ofNat 64 (natOfBytes bs)) (s.rs b) = true) :
      Orders i s (((t.setRs d (BitVec.ofNat 64 (natOfBytes bs))).advance n).acquireFor ord sc)
  | waitParks i cc sc ord off d a b n s accs bs t (form : WaitForm i cc sc ord off d a b n)
      (ok : s.checkGlobal false [⟨0, wordEa s a off, (wordEa s a off).toNat % 8 == 0, [(wordEa s a off, 8)], 0⟩] (·.r) anyKind = .ok accs)
      (clear : Unblocked s false accs)
      (read : waitBytes (s.returnOverlaps false accs) sc (accs.flatMap (·.pieces)) = (bs, false, t)) (eight : bs.length = 8)
      (unmet : rel64 cc (BitVec.ofNat 64 (natOfBytes bs)) (s.rs b) = false) :
      Orders i s (t.park (.waita
        { ea := wordEa s a off, v := s.rs b, cc, sc, acq := acquires ord, d, len := n, since := t.time, due := false
          host := (accs.flatMap (·.pieces)).any fun p => p.kind == .host
          pa := (accs.flatMap (·.pieces)).head?.map (·.pa) }))
  /-- R188: paths of the context that wait on the word at the point of SC read again; a release comes first under .rel. The word is
  aligned and its page translates (R168); its physical address names it, so that two mappings of one word
  wake the same paths. -/
  | wake i sc ord off a n s t x p (form : WakeForm i sc ord off a n)
      (ok : s.checkGlobal false [⟨0, wordEa s a off, (wordEa s a off).toNat % 8 == 0, [(wordEa s a off, 8)], 0⟩] (fun _ => true) anyKind = .ok [x])
      (word : x.pieces = [p]) (rel : s.releaseFor ord sc = .ok t) :
      Orders i s
        ({ t with grp := wakes s.grp sc p t.grp, groups := t.groups.map (wakes s.grp sc p) }.advance n)

/-- PREF, its words, guard and address (R184). -/
inductive PrefForm : Instr → Option Guard → Option Idx → Nat → Prop
  | plain m : PrefForm (.pref m) none m.idx 1
  | w1 g cp m off : PrefForm (.prefW1 g cp m off) g m.idx 3

/-- PREF changes nothing but caches and where the path stands: no register, no memory a program can tell from before. -/
structure Prefetched (s t : State) (n : Nat) : Prop where
  pc : t.slot = (s.advance n).slot
  regs : t.grp = (s.advance n).grp
  others : t.groups = s.groups
  gangs : t.gangs = s.gangs
  launches : t.launches = s.launches
  ctxs : t.ctxs = s.ctxs

end Sys2Proof.Statements
end

