-- ==== Sys2Proof/Statements/Groups.lean ====
section
/-! DEFINITION. Tables for the statements about futures, spawning, barriers, read sections, grace periods and the engines of a cluster
and die: when each instruction has its own effect, and the state it leaves (R213 to R220, R250 to R260, R283 to R296, R338 to R343). -/
namespace Sys2Proof.Statements

open Sys2Proof Sys2Proof.Machine

/-- A path parked in FWAIT on a future that becomes idle will raise FUTURE_INVALID (R217). -/
def orphaned (f : FReg) (x : Slot) : Slot :=
  match x.park with
  | .future k _ => if k = f then { x with park := .gone f } else x
  | _ => x

/-- A future that FCANCEL or FEXP makes idle (R215), with what becomes of the paths, interrupted ones too, that wait for it. -/
def idled (s : State) (f : FReg) : State :=
  (s.settleFut f {}).setGrp fun g => { g with
    slotA := orphaned f g.slotA, slotB := orphaned f g.slotB
    trap := g.trap.map fun c => { c with slotA := orphaned f c.slotA, slotB := orphaned f c.slotB } }

/-- The operation that future `f` holds is a DPOST. -/
def holdsPost (s : State) (f : FReg) : Prop := ∃ o p q r t u, s.findOp (s.fut f).op = some o ∧ o.kind = .dpost p q r t u

/-- Futures (R213 to R216, R443). -/
inductive Futures : Instr → State → State → Prop
  | fwait d f s (done : (s.fut f).state = .resolved) :
      Futures (.fwait d f) s ((s.setRs d ((s.fut f).status.zeroExtend 64)).advance 1)
  | fwaitParks d f s (runs : (s.fut f).state = .pending) : Futures (.fwait d f) s (s.park (.future f (s.fut f).op))
  | fcancelIdle f s (idle : (s.fut f).state = .idle) : Futures (.fcancel f) s (s.advance 1)
  /-- the engine is asked to stop, an LDSTAT's load will leave its plane empty, and the path waits for the acknowledgement -/
  | fcancelAsks f s (runs : (s.fut f).state = .pending) (other : ¬holdsPost s f) :
      Futures (.fcancel f) s
        ({ s with
            stopping := if (s.fut f).op ∈ s.stopping then s.stopping else s.stopping ++ [(s.fut f).op]
            ops := updateFirst (fun o => o.id == (s.fut f).op) (fun o => { o with cancel := true }) s.ops
            rtab := s.rtab.map fun (e : TabEntry) => e.cancelled (s.fut f).op }.park (.cancel f (s.fut f).op))
  /-- R443: a DPOST's row goes on, and its future is idle at once. -/
  | fcancelPost f s (runs : (s.fut f).state = .pending) (post : holdsPost s f) :
      Futures (.fcancel f) s
        ((idled { s with ops := updateFirst (fun o => o.id == (s.fut f).op) (fun o => { o with live := false }) s.ops } f).advance 1)
  | fcancelDone f s (done : (s.fut f).state = .resolved) (free : (s.fut f).status.getLsbD 8 = false) :
      Futures (.fcancel f) s ((idled s f).advance 1)
  /-- the tiles that the operation held go back to THREAD -/
  | fcancelHeld f s (done : (s.fut f).state = .resolved) (hold : (s.fut f).status.getLsbD 8 = true) :
      Futures (.fcancel f) s
        ((idled { s with gangs := s.gangs.map fun (g : Gang) => g.freeTiles (s.fut f).op } f).advance 1)
  /-- a full export table -/
  | fexpFull d f s (held : (s.fut f).state ≠ .idle) (full : ∀ n < 128, s.expoFree n = false) :
      Futures (.fexp d f) s ((s.setRs d 0).advance 1)
  /-- the future moves into the lowest free entry, whose generation rises; the token names entry, core, generation, tag -/
  | fexp d f s n gen (held : (s.fut f).state ≠ .idle) (inside : n < 128) (free : s.expoFree n = true)
      (lowest : ∀ m < n, s.expoFree m = false)
      (old : gen = (((s.gang s.grp.gang).expo.find? fun e => e.core == s.gangCore && e.entry == n).map (·.gen)).getD 0 + 1) :
      Futures (.fexp d f) s
        (((idled (s.setGang (s.gang s.grp.gang).key fun g =>
            { g with expo := (g.expo.filter fun e => !(e.core == s.gangCore && e.entry == n)) ++ [⟨s.gangCore, n, gen, true, s.fut f⟩] })
          f).setRs d (BitVec.ofNat 64 (n + 2 ^ 7 * s.gangCore + 2 ^ 9 * gen + 2 ^ 25 * (s.gang s.grp.gang).tag))).advance 1)
  /-- a live token of the gang: the entry's future, pending or resolved, in the future named -/
  | fimp f a s e (idle : (s.fut f).state = .idle)
      (live : (s.gang s.grp.gang).expo.find?
        (fun e => e.live && tokenOf e.entry e.core e.gen (s.gang s.grp.gang).tag == s.rs a) = some e) :
      Futures (.fimp f a) s
        ((((s.setGang (s.gang s.grp.gang).key fun g => { g with
            expo := updateFirst (fun e => e.live && tokenOf e.entry e.core e.gen (s.gang s.grp.gang).tag == s.rs a)
              (fun e => { e with live := false, fut := {} }) g.expo }).setFut f e.fut).setGrp fun g =>
          g.setView f.toNat (e.fut.state == .pending)).advance 1)

/-- The eight registers that SPAWN passes. -/
def passed (s : State) (a : SReg) : List W64 := (List.range 8).map fun k => s.rs (a + BitVec.ofNat 6 k)

/-- The group indices that the current group's gang uses. -/
def indices (s : State) : List Nat := (s.allGroups.filter fun x => x.gang == s.grp.gang).map (·.gid)

/-- SPAWN (R218, R219): its four codes. -/
inductive Spawns : Instr → State → State → Prop
  | full r d a s ro (role : (s.gang s.grp.gang).roles[r.toNat]? = some ro) (all : lowestFree 256 (indices s) = none) :
      Spawns (.spawn r d a) s ((s.setRs d 3).advance 1)
  | noSlot r d a s ro i (role : (s.gang s.grp.gang).roles[r.toNat]? = some ro) (index : lowestFree 256 (indices s) = some i)
      (slots : s.freeSlots s.grp.die s.grp.cluster s.grp.core s.grp.part s.grp.vf = 0) :
      Spawns (.spawn r d a) s ((s.setRs d 1).advance 1)
  | noPositions r d a s ro i (role : (s.gang s.grp.gang).roles[r.toNat]? = some ro) (index : lowestFree 256 (indices s) = some i)
      (slots : s.freeSlots s.grp.die s.grp.cluster s.grp.core s.grp.part s.grp.vf ≠ 0)
      (few : s.freePositions s.grp.die s.grp.cluster s.grp.core s.grp.part s.grp.vf < ro.f0 + ro.w) :
      Spawns (.spawn r d a) s ((s.setRs d 2).advance 1)
  | spawned r d a s ro i (role : (s.gang s.grp.gang).roles[r.toNat]? = some ro) (index : lowestFree 256 (indices s) = some i)
      (slots : s.freeSlots s.grp.die s.grp.cluster s.grp.core s.grp.part s.grp.vf ≠ 0)
      (room : ro.f0 + ro.w ≤ s.freePositions s.grp.die s.grp.cluster s.grp.core s.grp.part s.grp.vf) :
      Spawns (.spawn r d a) s
        (((({ s with nextId := s.nextId + 1 } : State).addGroup
          { startGroup s (s.gang s.grp.gang) s.nextId i r.toNat ro s.grp.core (passed s a) with level := s.grp.level }).setRs d
            (BitVec.ofNat 64 (2 ^ 16 * i))).advance 1)

/-- The current group is a member of set `n`, whose entry is `e` (R250, R252). -/
def memberOf (s : State) (a : SReg) (n : Nat) (e : SetEntry) : Prop :=
  n = (s.rs a).toNat ∧ (s.gang s.grp.gang).sets[n]? = some e ∧ e.member.getLsbD s.grp.gid = true ∧
    e.left.getLsbD s.grp.gid = false ∧ e.exited.getLsbD s.grp.gid = false

/-- The bit of the current group in a mask. -/
def ownBit (s : State) : BitVec 256 := 1#256 <<< s.grp.gid

/-- Barriers (R252, R253). -/
inductive Barriers : Instr → State → State → Prop
  /-- the group arrives; a complete set ends its phase -/
  | barv d a s t n e (own : memberOf s a n e) (whole : s.slot.mask = s.grp.live) (new : e.arrv.getLsbD s.grp.gid = false)
      (rel : s.release .gang = .ok t) :
      Barriers (.barv d a) s
        ((((t.setGang s.grp.gang fun g => g.setAt n fun e => { e with arrv := e.arrv ||| ownBit s }).setRs d
          (if e.phase then 1 else 0)).advance 1).completeIf s.grp.gang n)
  | bsync a s t n e (own : memberOf s a n e) (whole : s.slot.mask = s.grp.live) (new : e.arrv.getLsbD s.grp.gid = false)
      (rel : s.release .gang = .ok t) :
      Barriers (.bsync a) s
        (((t.setGang s.grp.gang fun g => g.setAt n fun e => { e with arrv := e.arrv ||| ownBit s }).park (.barrier n e.phase)).completeIf
          s.grp.gang n)
  | setleave a s t n e (own : memberOf s a n e) (whole : s.slot.mask = s.grp.live) (new : e.arrv.getLsbD s.grp.gid = false)
      (rel : s.release .gang = .ok t) :
      Barriers (.setleave a) s
        (((t.setGang s.grp.gang fun g => g.setAt n fun e => { e with left := e.left ||| ownBit s }).advance 1).completeIf s.grp.gang n)
  /-- a group that has arrived already waits for the phase to end -/
  | arrived i a s n e (form : i = .bsync a ∨ i = .setleave a ∨ ∃ d, i = .barv d a) (own : memberOf s a n e)
      (whole : s.slot.mask = s.grp.live) (old : e.arrv.getLsbD s.grp.gid = true) :
      Barriers i s (s.park (.arrived n e.phase))
  /-- BWAIT of a phase that is over, and of the current one -/
  | bwaitOver a b s n e (own : memberOf s a n e) (past : e.phase ≠ (s.rs b).getLsbD 0) :
      Barriers (.bwait a b) s ((s.advance 1).acquire .gang)
  | bwaitParks a b s n e (own : memberOf s a n e) (now : e.phase = (s.rs b).getLsbD 0) :
      Barriers (.bwait a b) s (s.park (.barrier n e.phase))

/-- The current group in the reader set of its context, or out of it (R338). -/
def enters (s : State) : State := s.setCtx s.grp.vf s.grp.part fun c => { c with readers := c.readers ++ [s.grp.key] }
def leaves (s : State) : State := s.leaveReaders s.grp.vf s.grp.part s.grp.key

/-- The forms of GPWAIT: scalar destination, future, the register of a timeout (R341). -/
inductive GraceForm : Instr → SReg → Option FReg → Option SReg → Prop
  | plain d : GraceForm (.gpwait d) d none none
  | timed d a : GraceForm (.gpwaitT d a) d none (some a)
  | future f : GraceForm (.gpwaitF f) 0 (some f) none
  | timedFuture f a : GraceForm (.gpwaitFT f a) 0 (some f) (some a)

/-- Where the waiter of a new grace period stands: parked, or past the instruction with a pending future. -/
def graceWaiter (t : State) (d : SReg) (f : Option FReg) : State :=
  let u : State := { t with nextId := t.nextId + 1 }
  match f with
  | none => u.park (.gpwait d t.nextId)
  | some f => ((u.issueFut f t.nextId).startOp t.nextId (.gpwait t.nextId)).advance 1

/-- Read sections, grace periods, deferred frees (R338 to R343). -/
inductive Grace' : Instr → State → State → Prop
  | rsopenFirst s (whole : s.slot.mask = s.grp.live) (none : s.grp.rsd = 0) :
      Grace' .rsopen s (((enters s).setGrp fun g => { g with rsd := 1 }).advance 1)
  | rsopen s (whole : s.slot.mask = s.grp.live) (some' : s.grp.rsd ≠ 0) (room : s.grp.rsd ≠ 15) :
      Grace' .rsopen s ((s.setGrp fun g => { g with rsd := g.rsd + 1 }).advance 1)
  | rscloseLast s (whole : s.slot.mask = s.grp.live) (one : s.grp.rsd = 1) (ld : s.cnt .ld = 0) (sm : s.cnt .sm = 0) :
      Grace' .rsclose s (((leaves s).setGrp fun g => { g with rsd := 0 }).advance 1)
  | rsclose s (whole : s.slot.mask = s.grp.live) (some' : s.grp.rsd ≠ 0) (more : s.grp.rsd ≠ 1) (ld : s.cnt .ld = 0) (sm : s.cnt .sm = 0) :
      Grace' .rsclose s ((s.setGrp fun g => { g with rsd := g.rsd - 1 }).advance 1)
  /-- a grace period of the group's context opens, after a release at .pkg -/
  | gpwait i d f a s t c (form : GraceForm i d f a) (outside : s.grp.rsd = 0)
      (fut : ∀ x, f = some x → (s.fut x).open = true) (rel : s.release .pkg = .ok t)
      (ctx : (graceWaiter t d f).ctx s.grp.vf s.grp.part = some c) :
      Grace' i s
        (((graceWaiter t d f).openGrace s.grp.vf s.grp.part t.nextId
          (a.map fun a => min (s.time + (s.rs a).toNat) (2 ^ 64 - 1))).graceNow t.nextId)
  /-- the entry enters the queue, or waits for room with what was read at issue -/
  | dfree a s accs t (lo : 4 ≤ (s.rsAt a 1).toNat) (hi : (s.rsAt a 1).toNat ≤ 20)
      (node : (s.rsAt a 0).toNat % 2 ^ (s.rsAt a 1).toNat = 0) (head : (s.rsAt a 2).toNat % 8 = 0)
      (ok : s.checkAll [⟨s.rsAt a 0, 8, (·.w), noKind⟩,
        ⟨s.rsAt a 2, 8, fun y => y.r && y.w, fun y => if y.kind = .atomicHome then none else some 0x0A⟩] = .ok accs)
      (rel : s.release .pkg = .ok t) (room : ∀ c, t.ctx t.grp.vf t.grp.part = some c → c.queued < 65536) :
      Grace' (.dfree a) s
        ((t.setCtx t.grp.vf t.grp.part fun c =>
          c.deferFree t.time (s.rsAt a 0, (s.rsAt a 1).toNat, s.rsAt a 2)).advance 1)
  | dfreeWaits a s accs t c (lo : 4 ≤ (s.rsAt a 1).toNat) (hi : (s.rsAt a 1).toNat ≤ 20)
      (node : (s.rsAt a 0).toNat % 2 ^ (s.rsAt a 1).toNat = 0) (head : (s.rsAt a 2).toNat % 8 = 0)
      (ok : s.checkAll [⟨s.rsAt a 0, 8, (·.w), noKind⟩,
        ⟨s.rsAt a 2, 8, fun y => y.r && y.w, fun y => if y.kind = .atomicHome then none else some 0x0A⟩] = .ok accs)
      (rel : s.release .pkg = .ok t) (ctx : t.ctx t.grp.vf t.grp.part = some c) (full : 65536 ≤ c.queued) :
      Grace' (.dfree a) s (t.park (.dfree (s.rsAt a 0) (s.rsAt a 1).toNat (s.rsAt a 2)))

/-- Limits of GATHER's descriptor (R257, R258). -/
structure GatherOk (s : State) (ty : Ty) (a : SReg) : Prop where
  base : (s.rsAt a 0).toNat % 32 = 0
  idx : (s.rsAt a 1).toNat % tyBytes ty = 0
  count : (s.rsAt a 2).toNat % 2 ^ 32 ≤ 65536
  row : (s.rsAt a 3).toNat % 32 = 0 ∧ 32 ≤ (s.rsAt a 3).toNat ∧ (s.rsAt a 3).toNat ≤ 8192
  stride : (s.rsAt a 4).toNat % 32 = 0
  dst : (s.rsAt a 5).toNat % 1024 = 0 ∧
    (s.rsAt a 5).toNat + (s.rsAt a 2).toNat % 2 ^ 32 * (s.rsAt a 3).toNat ≤ (s.gang s.grp.gang).shared
  gm : (s.rsAt a 5).toNat < 0x10000000
  cw : (s.rsAt a 6).toNat % 8 = 0

/-- The operation that GATHER enters. -/
def gatherOf (s : State) (ty : Ty) (a : SReg) : GatherOp :=
  { cluster := s.grp.cluster, ty, base := s.rsAt a 0, idx := s.rsAt a 1, n := (s.rsAt a 2).toNat % 2 ^ 32
    bound := (s.rsAt a 2).toNat / 2 ^ 32, len := (s.rsAt a 3).toNat, stride := s.rsAt a 4, dst := (s.rsAt a 5).toNat
    cw := s.rsAt a 6, cv := s.rsAt a 7 }

/-- The owner bits of a range of tiles: every one THREAD. -/
def threadTiles (s : State) (lo n : Nat) : Prop := ∀ t ∈ localTiles lo n, (s.gang s.grp.gang).owner t = .thread

/-- An operation of gang `gang` about to start: its tiles are ENGINE's, its future pending, its name taken (R213, R247). -/
def flipped (gang : Nat) (s : State) (f : FReg) (lo n : Nat) : State :=
  (({ s with nextId := s.nextId + 1 } : State).flipTiles gang s.nextId (localTiles lo n)).issueFut f s.nextId

/-- An engine operation issued into a future; the path goes on. -/
def issued (gang : Nat) (s : State) (f : FReg) (lo n : Nat) (k : OpKind) : State :=
  ((flipped gang s f lo n).startOp s.nextId k).advance 3

/-- Limits of TCOPY's descriptor (R284). -/
structure TcopyOk (s : State) (a : SReg) : Prop where
  recAddr : (s.rsAt a 0).toNat % 256 = 0
  loc : (s.rsAt a 1).toNat % 32 = 0
  len : (s.rsAt a 2).toNat % 32 = 0 ∧ 32 ≤ (s.rsAt a 2).toNat ∧ (s.rsAt a 2).toNat ≤ 1048576
  cw : (s.rsAt a 3).toNat % 8 = 0
  inside : (s.gang s.grp.gang).localOk (s.rsAt a 1).toNat (s.rsAt a 2).toNat = true
  tiles : threadTiles s (s.rsAt a 1).toNat (s.rsAt a 2).toNat

/-- The operation that TCOPY starts, with its record where the record cache has it. -/
def tcopyOf (s : State) (out : Bool) (sc : Scope) (cp : Cp) (a : SReg) (shape : Option (List Byte)) : OpKind :=
  .tcopy { out, sc := engineScope sc, cp, loc := (s.rsAt a 1).toNat, len := (s.rsAt a 2).toNat, cw := s.rsAt a 3, cv := s.rsAt a 4
           org := s.origin a, recAddr := s.rsAt a 0, shape := shape.getD [], filling := shape.isNone, keep := true }

/-- Limits of PUT's descriptor (R291): source, length, target, destination, counter, completion word. -/
structure PutOk (s : State) (sp : Bool) (a : SReg) : Prop where
  src : (s.rsAt a 0).toNat % 32 = 0
  len : (s.rsAt a 1).toNat % 32 = 0 ∧ 32 ≤ (s.rsAt a 1).toNat ∧ (s.rsAt a 1).toNat ≤ 1048576
  tgt : (s.rsAt a 2).toNat < 2 ^ 25 ∧ (s.rsAt a 2).toNat / 2 ^ 16 % 8 ≤ 5 ∧ (s.rsAt a 2).toNat / 2 ^ 19 % 64 ≤ 39
  dst : (s.rsAt a 3).toNat % 32 = 0
  space : sp = decide (0x10000000 ≤ (s.rsAt a 3).toNat)
  ctr : (s.rsAt a 4).toNat % 8 = 0
  cw : (s.rsAt a 5).toNat % 8 = 0
  zero : s.rsAt a 7 = 0
  inside : (s.gang s.grp.gang).localOk (s.rsAt a 0).toNat (s.rsAt a 1).toNat = true
  tiles : threadTiles s (s.rsAt a 0).toNat (s.rsAt a 1).toNat

/-- The operation that PUT starts. -/
def putOf (s : State) (sc : Scope) (a : SReg) : PutOp :=
  { sc := engineScope sc, src := (s.rsAt a 0).toNat, len := (s.rsAt a 1).toNat, tgt := (s.rsAt a 2).toNat, dst := (s.rsAt a 3).toNat
    ctr := s.rsAt a 4, cw := s.rsAt a 5, cv := s.rsAt a 6 }

/-- Engines of a cluster and of a die (R257, R258, R284, R285, R289, R291, R292, R296). -/
inductive Engines : Instr → State → State → Prop
  | gatherNone ty f a s accs (fut : (s.fut f).open = true) (ok : GatherOk s ty a) (cw : s.checkAll (cwCheck (s.rsAt a 6) noKind) = .ok accs)
      (none : (s.rsAt a 2).toNat % 2 ^ 32 = 0) :
      Engines (.gather ty f a) s
        (((s.settleFut f ⟨.resolved, 0, 0⟩).completionWord s.grp.engineHere .die (s.rsAt a 6) (s.rsAt a 7)).advance 3)
  | gather ty f a s accs (fut : (s.fut f).open = true) (ok : GatherOk s ty a) (cw : s.checkAll (cwCheck (s.rsAt a 6) noKind) = .ok accs)
      (some' : (s.rsAt a 2).toNat % 2 ^ 32 ≠ 0)
      (tiles : threadTiles s (s.rsAt a 5).toNat ((s.rsAt a 2).toNat % 2 ^ 32 * (s.rsAt a 3).toNat))
      (room : (s.gathers s.grp.die s.grp.cluster).length < 16) :
      Engines (.gather ty f a) s
        (issued s.grp.gang s f (s.rsAt a 5).toNat ((s.rsAt a 2).toNat % 2 ^ 32 * (s.rsAt a 3).toNat) (.gather (gatherOf s ty a)))
  /-- the record is not in the record cache: its fill starts -/
  | tcopyCold out sc ord cp f a s accs t (fut : (s.fut f).open = true) (ok : TcopyOk s a)
      (cw : s.checkAll (cwCheck (s.rsAt a 3) noKind) = .ok accs) (rel : s.releaseFor ord (engineScope sc) = .ok t)
      (cold : (flipped s.grp.gang t f (s.rsAt a 1).toNat (s.rsAt a 2).toNat).recs.find?
        (fun e => e.hits s.grp.die s.grp.part s.grp.vf (s.rsAt a 0).toNat) = none) :
      Engines (.tcopy out sc ord cp f a) s
        (issued s.grp.gang t f (s.rsAt a 1).toNat (s.rsAt a 2).toNat (tcopyOf s out sc cp a none))
  /-- the record is there, and becomes the most recently used -/
  | tcopyWarm out sc ord cp f a s accs t e (fut : (s.fut f).open = true) (ok : TcopyOk s a)
      (cw : s.checkAll (cwCheck (s.rsAt a 3) noKind) = .ok accs) (rel : s.releaseFor ord (engineScope sc) = .ok t)
      (warm : (flipped s.grp.gang t f (s.rsAt a 1).toNat (s.rsAt a 2).toNat).recs.find?
        (fun e => e.hits s.grp.die s.grp.part s.grp.vf (s.rsAt a 0).toNat) = some e) :
      Engines (.tcopy out sc ord cp f a) s
        ((((flipped s.grp.gang t f (s.rsAt a 1).toNat (s.rsAt a 2).toNat).recTouch e).startOp t.nextId
          (tcopyOf s out sc cp a (some e.bytes))).advance 3)
  /-- the sender's die lets the packet through, and a slot is free -/
  | put sp sc ord f a s ctr accs t (fut : (s.fut f).open = true) (ok : PutOk s sp a)
      (counter : s.checkAll (if s.rsAt a 4 = 0 then [] else [⟨s.rsAt a 4, 8, fun x => x.r && x.w, atomKind (engineScope sc)⟩]) = .ok ctr)
      (cw : s.checkAll (cwCheck (s.rsAt a 5) noKind) = .ok accs)
      (gate : gateRejects s.gateCopy (4 * ((s.rsAt a 2).toNat / 2 ^ 16 % 8) + (s.rsAt a 2).toNat / 2 ^ 19 % 64 / 10) s.grp.part = false)
      (room : s.puts s.grp.die < 32) (rel : s.releaseFor ord (engineScope sc) = .ok t) :
      Engines (.put sp sc ord f a) s
        (issued s.grp.gang t f (s.rsAt a 0).toNat (s.rsAt a 1).toNat (.put (putOf s sc a)))
  /-- what the path has sent to another package is answered -/
  | rfence a s (al : (s.rs a).toNat % 256 = 0)
      (stores : ∀ o ∈ s.wq, o.group = s.grp.key → s.earlier o.tags = true → o.unanswered = false)
      (atoms : ∀ e ∈ s.grp.outst, s.earlier e.tags = true → e.isAtomic = true → e.isRemote = false) :
      Engines (.rfence a) s
        (let u := s.drainQueue fun o => o.group == s.grp.key && s.earlier o.tags && o.isGlobal
         let t := u.returnAll fun e => u.earlier e.tags && e.isAtomic
         { t with
           recs := t.recs.filter fun e => !e.hits s.grp.die s.grp.part s.grp.vf (s.rs a).toNat
           ops := t.ops.map fun (o : EngineOp) =>
             if o.die = s.grp.die ∧ o.part = s.grp.part ∧ o.vf = s.grp.vf then o.dropFill (s.rs a) else o }.advance 1)
  | townNone i a b s (form : i = .townThread a b ∨ i = .townEngine a b) (none : s.rs b = 0) : Engines i s (s.advance 1)
  /-- the tiles that cover the range, none of them held by an operation, get their owner; TOWN.engine waits for the holds on them -/
  | townThread a b s (some' : s.rs b ≠ 0)
      (al : (s.rs a).toNat % (if (s.rs a).toNat < 0x10000000 then 1024 else 4096) = 0)
      (al' : (s.rs b).toNat % (if (s.rs a).toNat < 0x10000000 then 1024 else 4096) = 0)
      (inside : (s.gang s.grp.gang).localOk (s.rs a).toNat (s.rs b).toNat = true)
      (free : ∀ t ∈ localTiles (s.rs a).toNat (s.rs b).toNat, ∀ k, (s.gang s.grp.gang).owner t ≠ .engine k) :
      Engines (.townThread a b) s
        ((s.setGang (s.gang s.grp.gang).key fun g =>
          (localTiles (s.rs a).toNat (s.rs b).toNat).foldl (fun g t => g.setOwner t .thread) g).advance 1)
  | townEngine a b s (some' : s.rs b ≠ 0)
      (al : (s.rs a).toNat % (if (s.rs a).toNat < 0x10000000 then 1024 else 4096) = 0)
      (al' : (s.rs b).toNat % (if (s.rs a).toNat < 0x10000000 then 1024 else 4096) = 0)
      (inside : (s.gang s.grp.gang).localOk (s.rs a).toNat (s.rs b).toNat = true)
      (free : ∀ t ∈ localTiles (s.rs a).toNat (s.rs b).toNat, ∀ k, (s.gang s.grp.gang).owner t ≠ .engine k) :
      Engines (.townEngine a b) s
        (((s.settleLocal (s.gang s.grp.gang).key).setGang (s.gang s.grp.gang).key fun g =>
          (localTiles (s.rs a).toNat (s.rs b).toNat).foldl (fun g t => g.setOwner t .software) g).advance 1)

end Sys2Proof.Statements
end

