-- ==== Sys2Proof/Statements/Events.lean ====
section
/-! DEFINITION. Tables for the statements about the events of a core, a die's memory and its engines: when each happens, and the state
it leaves (R25, R33 to R36, R78, R159, R173, R174, R187, R195, R256 to R260, R271, R281, R284 to R295, R300, R359). -/
namespace Sys2Proof.Statements

open Sys2Proof Sys2Proof.Machine

/-- The words of the current path's bundle in a line of its core (R21, R32). -/
def bundleIn (s : State) (l : ILine) : List W32 := wordsOfBytes (slice l.bytes (va55 s.slot.pcb % 256) 64)

/-- The current path may go on by itself (R26, R191, R195, R205): its group runs, no code and no data error waits to be taken, and the results
before a SWITCH have returned. -/
structure mayGo (s : State) : Prop where
  occ : s.slot.occ = true
  runs : s.stirs = true
  err : s.slot.derr = none
  switch : s.slot.park ≠ .switch ∨ s.drained = true

/-- The current path has no bundle and asks for one. -/
structure fetching (s : State) : Prop extends mayGo s where
  empty : s.slot.ibuf = none

/-- The current path is about to issue word 1 of its pending join's bundle, which has JOIN set (R28, R78). -/
structure arrives (s : State) : Prop extends mayGo s where
  at_ : s.slot.pj = some s.slot.pcb
  first : s.slot.idx = 1
  has : s.slot.ibuf.isSome = true
  mark : s.slot.ctl.testBit 6 = true
  awake : s.slot.park = .none

/-- The innermost coil entry, as memory holds it (R89). -/
def topOf (s : State) (e : CoilEntry) (t : State) : Prop :=
  ∃ r, s.slot.coil = e :: r ∧ s.grpRead (s.grp.coilBase s.sel + BitVec.ofNat 64 (32 * r.length)) 32 = (.ok e.bytes, t)

/-- The one path that a slot-level merge leaves (R78, R212), neither slot with a frame below. -/
def merged (s : State) : State :=
  let x := s.slot
  let y := s.grp.slot s.sel.other
  let z : Slot :=
    { x with
      mask := (x.mask ||| y.mask) &&& s.grp.live, pj := none, park := .none, idx := 1, frames := [], view := x.view ||| y.view
      age := min x.age y.age, since := some s.tick }
  { ((s.setGrp fun g => { g with slotA := z, slotB := {}, sjoin := none }).retag fun t => { t with a := t.a || t.b, b := false }) with sel := .a }

/-- An open entry of the fetch agent for the current path's line (R35). -/
def asksLine (s : State) (e : FetchEntry) : Bool :=
  e.die == s.grp.die && e.part == s.grp.part && e.vf == s.grp.vf && e.codeBase == s.codeBase && e.line == lineOf s.slot.pcb

/-- A new entry for it, and the core joined to an open one. -/
def freshLine (s : State) (x : Xl) : FetchEntry :=
  ⟨s.grp.die, s.grp.part, s.grp.vf, s.codeBase, lineOf s.slot.pcb, x.pa / 256 * 256, x.kind, [(s.grp.cluster, s.grp.core)]⟩
def joins (s : State) (e : FetchEntry) : FetchEntry :=
  if (s.grp.cluster, s.grp.core) ∈ e.cores then e else { e with cores := e.cores ++ [(s.grp.cluster, s.grp.core)] }

/-- Fetch, bundles, joins, deferred data errors. -/
inductive FetchEvents : Instr → State → State → Prop
  /-- R25, R33: a bundle that passes its checks is taken from the core's line. -/
  | decodes s l (asks : fetching s) (line : s.cachedLine = some l) (known : l.fault = none) (good : va55 s.slot.pcb % 256 / 64 ∉ l.bad)
      (valid : badWord (bundleIn s l) = none) (at_ : startOk (bundleIn s l) s.slot.idx = true)
      (inside : s.slot.idx ≤ ((bundleIn s l).headD 0).toNat % 16) :
      FetchEvents .bundleDecode s (s.setSlot fun x => { x with ibuf := some ⟨x.pcb, bundleIn s l⟩ })
  /-- R25, R29: the lowest failing word raises. -/
  | invalid s l i (asks : fetching s) (line : s.cachedLine = some l) (known : l.fault = none) (good : va55 s.slot.pcb % 256 / 64 ∉ l.bad)
      (bad : badWord (bundleIn s l) = some i) :
      FetchEvents .bundleDecode s (s.trap { code := 0x01, addr := s.slot.pcb + BitVec.ofNat 64 (4 * i) })
  /-- R34: an uncorrectable bundle. -/
  | poisoned s l (asks : fetching s) (line : s.cachedLine = some l) (known : l.fault = none) (bad : va55 s.slot.pcb % 256 / 64 ∈ l.bad) :
      FetchEvents .bundleDecode s (s.trap { code := 0x06, addr := s.slot.pcb, reason := 3 })
  /-- R32, R34: a fault that fetching the line ahead met is raised by the path that comes to it, and recorded no more. -/
  | ahead s l r (asks : fetching s) (line : s.cachedLine = some l) (fault : l.fault = some r) :
      FetchEvents .bundleDecode s
        (({ s with icache := s.icache.erase l } : State).trap { code := 0x06, addr := s.slot.pcb, reason := r })
  /-- R35: the line is asked of the die's fetch agent; the core may fetch ahead (R32). -/
  | missNew s t x (asks : fetching s) (miss : s.cachedLine = none) (addr : canonical s.slot.pcb = true)
      (page : s.translateFor s.grp.die s.grp.part s.grp.vf s.slot.pcb (·.x) = (.ok x, t))
      (new : t.fetchq.any (asksLine t) = false) (awake : ∀ d w, t.slot.park ≠ .sleep d w) (credit : 0 < s.creditNow s.grp.part s.grp.die) :
      FetchEvents .instructionCacheMiss s
        (({ t with fetchq := t.fetchq ++ [freshLine t x] } : State).park .fetch).fetchAhead
  /-- R35: a second core's request joins the open entry. -/
  | missMerged s t x (asks : fetching s) (miss : s.cachedLine = none) (addr : canonical s.slot.pcb = true)
      (page : s.translateFor s.grp.die s.grp.part s.grp.vf s.slot.pcb (·.x) = (.ok x, t))
      (old : t.fetchq.any (asksLine t) = true) (awake : ∀ d w, t.slot.park ≠ .sleep d w) (credit : 0 < s.creditNow s.grp.part s.grp.die) :
      FetchEvents .instructionCacheMiss s
        (({ t with fetchq := updateFirst (asksLine t) (joins t) t.fetchq } : State).park .fetch).fetchAhead
  /-- R34: FETCH_FAULT with its reason. -/
  | missHigh s (asks : fetching s) (miss : s.cachedLine = none) (addr : canonical s.slot.pcb = false) :
      FetchEvents .instructionCacheMiss s (s.trap { code := 0x06, addr := s.slot.pcb, reason := 2 })
  | missFault s t f (asks : fetching s) (miss : s.cachedLine = none) (addr : canonical s.slot.pcb = true)
      (page : s.translateFor s.grp.die s.grp.part s.grp.vf s.slot.pcb (·.x) = (.error f, t)) (credit : 0 < s.creditNow s.grp.part s.grp.die) :
      FetchEvents .instructionCacheMiss s
        (t.trap { code := 0x06, addr := t.slot.pcb, reason := match f with
          | .unmapped => 0
          | .permission => 1
          | .dataError => 3 })
  /-- R35: the line goes to every core that asked. -/
  | fill j s t e bs bad (at_ : s.fetchq[j]? = some e)
      (line : ({ s with fetchq := s.fetchq.take j ++ s.fetchq.drop (j + 1) } : State).readLine e = (bs, bad, t))
      (asked : ∀ g ∈ t.allGroups, g.die = e.die → g.part = e.part → g.vf = e.vf → (t.gang g.gang).codeBase = e.codeBase →
        (g.cluster, g.core) ∈ e.cores) (credit : 0 < s.creditNow e.part e.die) :
      FetchEvents (.multicastFill j) s
        (let u := e.cores.foldl (fun s c => s.install ⟨e.die, c.1, c.2, e.part, e.vf, e.codeBase, e.line, bs, bad, none⟩) t
         u.forGroups (fun g => g.die == e.die && g.part == e.part && g.vf == e.vf && (t.gang g.gang).codeBase == e.codeBase &&
           (g.cluster, g.core) ∈ e.cores) fun s => s.setGrp Group.fetched)
  /-- R78: with the coil empty the path parks at the slot-level join while the other slot has not come. -/
  | joinParks s j (at_ : arrives s) (empty : s.slot.coil = []) (join : s.grp.sjoin = some j)
      (same : j.depth = s.slot.depth ∧ j.sp = s.slot.sp) (other : (s.grp.slot s.sel.other).occ = true)
      (away : (s.grp.slot s.sel.other).park ≠ .join) :
      FetchEvents .joinArrival s (s.park .join)
  /-- R78, R79: a RESUME entry for the join takes the slot, its lanes and $sp. -/
  | joinResumes s t e (at_ : arrives s) (top : topOf s e t)
      (same : e.depth = t.slot.depth ∧ e.sp = t.slot.sp) (kind : e.kind = .resume) (here : e.join = s.slot.pcb)
      (live : e.mask &&& t.grp.live ≠ 0) :
      FetchEvents .joinArrival s
        (t.setSlot fun x => { x with coil := x.coil.drop 1, mask := e.mask &&& t.grp.live, sp := e.sp, pcb := e.pc, idx := 1, ibuf := none
                                     park := .none })
  /-- R78, R79: with the other slot parked there too, the two become one path in slot A (where neither slot has a frame below). -/
  | joinMerges s j (at_ : arrives s) (empty : s.slot.coil = []) (join : s.grp.sjoin = some j)
      (same : j.depth = s.slot.depth ∧ j.sp = s.slot.sp) (other : (s.grp.slot s.sel.other).occ = true)
      (there : (s.grp.slot s.sel.other).park = .join ∧ (s.grp.slot s.sel.other).pcb = s.slot.pcb ∧ (s.grp.slot s.sel.other).derr = none)
      (flat : s.slot.frames = [] ∧ (s.grp.slot s.sel.other).frames = [])
      (room : ∀ c, (c = .ld ∨ c = .st ∨ c = .sm ∨ c = .tl) → s.count (fun t => t.a || t.b) c ≤ 63) :
      FetchEvents .joinArrival s (merged s)
  /-- R78, R79: a MERGE entry at its own bundle is popped: its lanes are the path's, its join the pending one; the path goes on here. -/
  | joinPops s t e (at_ : arrives s) (top : topOf s e t) (same : e.depth = t.slot.depth ∧ e.sp = t.slot.sp) (kind : e.kind = .merge)
      (here : e.pc = s.slot.pcb) (live : e.mask &&& t.grp.live ≠ 0) (away : joinOf e.join ≠ some s.slot.pcb) (runs : t.slot.park = .none) :
      FetchEvents .joinArrival s
        (t.setSlot fun x => { x with coil := x.coil.drop 1, mask := e.mask &&& t.grp.live, pj := joinOf e.join })
  /-- R195: a data error that a returned load left. -/
  | dataError s e (normal : s.inTrap = false ∧ (s.gang s.grp.gang).trapEntry ≠ 0) (raised : s.grp.raised = none) (err : s.slot.derr = some e) (code : e.code = 0x10) (quiet : s.grp.outst = [])
      (now : s.mustWait = false) :
      FetchEvents .trapEntry s
        ((s.setSlot fun x => { x with derr := none }).takeTrap { code := 0x10, addr := e.ea, aux0 := e.epc, lane := some e.lane })
  /-- R191: a code whose drain had to wait is taken in the slot that raised it once nothing is left with another unit. -/
  | drained s j c (raised : s.grp.raised = some (j, c)) (now : s.mustWait = false) :
      FetchEvents .trapEntry s ((({ s with sel := j } : State).setGrp fun g => { g with raised := none }).takeTrap c)

/-- Events of a core's outstanding accesses and of a die's caches. -/
inductive AccessEvents : Instr → State → State → Prop
  /-- R174: lanes of a load or atomic return. -/
  | result j lanes rem s e (at_ : s.grp.outst[j]? = some e) (sfu : ∀ fn x, e.kind ≠ .sfu fn x) (gred : ∀ o, e.kind ≠ .gred o)
      (credit : 0 < s.creditNow s.grp.part s.grp.die) :
      AccessEvents (.loadResultReturn j lanes rem) s (s.returnAt j lanes rem).finishAcquires
  /-- R159: lanes of an SFU result are written, in the order of issue of a path. -/
  | special j s e fn x (at_ : s.grp.outst[j]? = some e) (kind : e.kind = .sfu fn x)
      (first : ∀ y ∈ s.grp.outst.take j, ∀ fn x, y.kind = .sfu fn x → y.tags.meets e.tags = false) :
      AccessEvents (.sfuResult j) s (s.returnAt j s.sfuLanes [])
  /-- R174, R300: a NORMAL store at .grp or .gang is performed there at once and stops counting; its bytes go on later. -/
  | storeNear j s o sc cp lanes ty (at_ : s.wq[j]? = some o) (counts : o.counted = true) (kind : o.kind = .store sc cp lanes ty)
      (narrow : sc = .grp ∨ sc = .gang) (normal : ∀ l ∈ lanes, ∀ p ∈ l.pieces, p.kind = .normal) :
      AccessEvents (.storePerformed j) s { s with wq := s.wq.set j { o with counted := false } }
  /-- R300: an entry whose sectors no earlier entry of its core touches is performed at its point. -/
  | storePerformed j s o (at_ : s.wq[j]? = some o) (far : o.atGroup = false ∨ o.counted = false)
      (local' : ∀ ty lanes, o.kind ≠ .remote ty lanes)
      (first : ∀ x ∈ s.wq.take j, x.ofCore o.here = true → ∀ y ∈ x.secs, y ∉ o.secs) (credit : 0 < s.creditNow o.part o.die) :
      AccessEvents (.storePerformed j) s (({ s with wq := s.wq.take j ++ s.wq.drop (j + 1) } : State).performEntry o)
  /-- R173, R280: a miss that has a walker leaves the table, the mapping enters the TLB, the core's parked paths try again. A failed walk is
  known to those paths alone. -/
  | walkMapped j s t m l1 l2 (at_ : s.misses[j]? = some m) (walker : s.walking j m.die = true) (here : m.toRoot = false)
      (credit : 0 < s.creditNow m.part m.die)
      (walk : s.walkVa m.die m.part m.vf (m.vpage * 65536) = (.mapped l1 l2, t)) :
      AccessEvents (.translationWalkDone j) s
        ((({ t with misses := t.misses.take j ++ t.misses.drop (j + 1) } : State).tlbAdd
          (combine m.die (some (m.cluster, m.core)) m.part m.vf (m.vpage * 65536) l1 l2)).retryCore m none)
  | walkFails j s t m f (at_ : s.misses[j]? = some m) (walker : s.walking j m.die = true) (here : m.toRoot = false)
      (credit : 0 < s.creditNow m.part m.die)
      (walk : s.walkVa m.die m.part m.vf (m.vpage * 65536) = (.stage1 f, t)) :
      AccessEvents (.translationWalkDone j) s
        (({ t with misses := t.misses.take j ++ t.misses.drop (j + 1) } : State).retryCore m (some f))
  /-- R281: a failure of stage 2 goes to the root. -/
  | walkToRoot j s t m f (at_ : s.misses[j]? = some m) (walker : s.walking j m.die = true) (here : m.toRoot = false)
      (credit : 0 < s.creditNow m.part m.die)
      (walk : s.walkVa m.die m.part m.vf (m.vpage * 65536) = (.stage2 f, t)) :
      AccessEvents (.translationWalkDone j) s { t with misses := t.misses.set j { m with toRoot := true } }
  | rootMapped j s t m l1 l2 (at_ : s.misses[j]? = some m) (there : m.toRoot = true) (credit : 0 < s.creditNow m.part m.die)
      (walk : s.walkVa m.die m.part m.vf (m.vpage * 65536) = (.mapped l1 l2, t)) :
      AccessEvents (.stage2FaultToRoot j) s
        ((({ t with misses := t.misses.take j ++ t.misses.drop (j + 1) } : State).tlbAdd
          (combine m.die (some (m.cluster, m.core)) m.part m.vf (m.vpage * 65536) l1 l2)).retryCore m none)
  | rootFails j s t m f (at_ : s.misses[j]? = some m) (there : m.toRoot = true) (credit : 0 < s.creditNow m.part m.die)
      (walk : s.walkVa m.die m.part m.vf (m.vpage * 65536) = (.stage2 f, t)) :
      AccessEvents (.stage2FaultToRoot j) s
        (({ t with misses := t.misses.take j ++ t.misses.drop (j + 1) } : State).retryCore m (some f))
  /-- R187: a waiting path of a group that runs reads its word again, what it loaded of it before returned first; a poll comes 100 µs after
  the last read, and of a HOST page a WAKE or a poll alone (R189). -/
  | rereadMet i s w accs bs t (form : i = .waitaReread ∧ (w.host = false ∨ w.due = true) ∨ i = .waitaPollTimeout ∧ w.since + 100000 ≤ s.time)
      (wait : s.slot.park = .waita w) (walk : w.miss = false) (runs : s.stirs = true) (credit : 0 < s.creditNow s.grp.part s.grp.die)
      (ok : s.checkGlobal false [⟨0, w.ea, w.ea.toNat % 8 == 0, [(w.ea, 8)], 0⟩] (·.r) anyKind = .ok accs) (free : s.overlapsWait false accs = .ok ())
      (read : waitBytes (s.returnOverlaps false accs) w.sc (accs.flatMap (·.pieces)) = (bs, false, t)) (eight : bs.length = 8)
      (met : rel64 w.cc (BitVec.ofNat 64 (natOfBytes bs)) w.v = true) :
      AccessEvents i s
        (let u := (t.setRs w.d (BitVec.ofNat 64 (natOfBytes bs))).advance w.len
         if w.acq then u.acquire w.sc else u)
  | rereadParks i s w accs bs t (form : i = .waitaReread ∧ (w.host = false ∨ w.due = true) ∨ i = .waitaPollTimeout ∧ w.since + 100000 ≤ s.time)
      (wait : s.slot.park = .waita w) (walk : w.miss = false) (runs : s.stirs = true) (credit : 0 < s.creditNow s.grp.part s.grp.die)
      (ok : s.checkGlobal false [⟨0, w.ea, w.ea.toNat % 8 == 0, [(w.ea, 8)], 0⟩] (·.r) anyKind = .ok accs) (free : s.overlapsWait false accs = .ok ())
      (read : waitBytes (s.returnOverlaps false accs) w.sc (accs.flatMap (·.pieces)) = (bs, false, t)) (eight : bs.length = 8)
      (unmet : rel64 w.cc (BitVec.ofNat 64 (natOfBytes bs)) w.v = false) :
      AccessEvents i s (t.park (.waita { w with
        since := t.time, due := false, miss := false, pa := (accs.flatMap (·.pieces)).head?.map (·.pa)
        host := (accs.flatMap (·.pieces)).any fun p => p.kind == .host }))
  /-- R185, R302, R308: nothing of the path that the release waits for is left; the instruction issues again. -/
  | released s sc (wait : s.slot.park = .release sc)
      (stores : sc = .sys → ∀ o ∈ s.wq, o.group = s.grp.key → s.earlier o.tags = true → o.unanswered = false)
      (loads : sc = .sys → ∀ e ∈ s.grp.outst, s.earlier e.tags = true → e.isRemote = false)
      (free : s.awaits (fun e => s.earlier e.tags && e.cnt != .sfu && !e.isRemote && !e.isGred) = false) :
      AccessEvents .fenceReleaseDone s (s.park .none)
  /-- R177, R271, R359: the line that replacement chooses leaves; its dirty sectors go to the write-back buffer, those in error are lost and
  their contexts end. -/
  | evict j s x line (at_ : s.l2[j]? = some x) (chosen : s.victim x.die x.part (x.sec / 8) = some line) :
      AccessEvents (.l2Eviction j) s
        { s with
          l2 := s.l2.filter fun y => !y.ofLine x.die x.part line
          wbuf := s.wbuf ++ (s.l2.filter fun y => y.ofLine x.die x.part line && y.dirty != 0 && !y.bad).map fun y =>
            ⟨y.die, y.part, y.vf, y.sec, y.bytes, y.dirty, y.dirty == 0xFFFFFFFF⟩
          kills := s.kills ++ (s.l2.filter fun y => y.ofLine x.die x.part line && y.dirty != 0 && y.bad).map fun y =>
            (y.vf, y.part, 32 * y.sec) }
  /-- R359: the oldest write-back of its sector reaches the base die. -/
  | writeback j s w (at_ : s.wbuf[j]? = some w)
      (oldest : ∀ x ∈ s.wbuf.take j, ¬(x.die = w.die ∧ x.part = w.part ∧ x.sec = w.sec)) (part : w.whole = false) :
      AccessEvents (.writebackAck j) s
        ((({ s with wbuf := s.wbuf.take j ++ s.wbuf.drop (j + 1) } : State).basePutMasked w.part w.sec w.bytes w.mask).charge w.part w.die 2 32)
  /-- a sector that left L2 wholly dirty is good again at the base die -/
  | writebackWhole j s w (at_ : s.wbuf[j]? = some w)
      (oldest : ∀ x ∈ s.wbuf.take j, ¬(x.die = w.die ∧ x.part = w.part ∧ x.sec = w.sec)) (whole : w.whole = true) :
      AccessEvents (.writebackAck j) s
        (let t : State := { s with wbuf := s.wbuf.take j ++ s.wbuf.drop (j + 1) }
         let t := (t.basePutMasked w.part w.sec w.bytes w.mask).charge w.part w.die 2 32
         { t with poison := t.poison.filter (· != w.sec) })

/-- The gang's tiles that an operation holds freed, its future resolved, its completion word written (R247, R259, R299). -/
def engineEnds (s : State) (o : EngineOp) (status : W32) (sc : Scope) (cw cv : W64) : State :=
  let t : State := { s.unflip o.gang o.id with ops := (s.unflip o.gang o.id).ops.filter fun x => x.id != o.id }
  (t.resolve o.id status).completionWord o.here sc cw cv

/-- Events of the gather, copy and put engines; the barrier watchdog. -/
inductive EngineEvents : Instr → State → State → Prop
  /-- R258: the first GATHER of a cluster's queue reads its next index, R259 one outside counts as clipped. -/
  | index i s t o x bs (op : s.findOp i = some o) (kind : o.kind = .gather x) (first : ((s.gathers o.die x.cluster).head?.map (·.id)) = some i)
      (asked : o.cancel = false) (runs : x.status = none) (more : x.k < x.n) (row : x.row = none)
      (read : s.readVa o.here false (x.idx + BitVec.ofNat 64 (x.k * tyBytes x.ty)) (tyBytes x.ty) = (.ok bs, t))
      (credit : 0 < s.creditNow o.part o.die) :
      EngineEvents (.gatherService i) s
        (t.setOp i fun _ => .gather { x with
          row := some (x.rowOf (natOfBytes bs)), clipped := x.clipped + if (x.rowOf (natOfBytes bs)).isNone then 1 else 0 })
  | rowRead i s t o x a bs (op : s.findOp i = some o) (kind : o.kind = .gather x)
      (first : ((s.gathers o.die x.cluster).head?.map (·.id)) = some i)
      (asked : o.cancel = false) (runs : x.status = none) (more : x.k < x.n) (row : x.row = some (some a)) (part : x.buf.length < x.len)
      (read : s.readVa o.here false (a + BitVec.ofNat 64 x.buf.length) 32 = (.ok bs, t))
      (credit : 0 < s.creditNow o.part o.die) :
      EngineEvents (.gatherService i) s (t.setOp i fun _ => .gather { x with buf := x.buf ++ bs })
  /-- R303: one sector of the row is written at a time, the last one ends the row -/
  | sectorWritten i s o x r (op : s.findOp i = some o) (kind : o.kind = .gather x)
      (first : ((s.gathers o.die x.cluster).head?.map (·.id)) = some i)
      (asked : o.cancel = false) (runs : x.status = none) (more : x.k < x.n) (row : x.row = some r) (whole : x.len ≤ x.buf.length)
      (part : x.wrote + 32 < x.len) :
      EngineEvents (.gatherService i) s
        ((s.setGang o.gang fun g => g.localWrite (x.dst + x.k * x.len + x.wrote) ((x.buf.drop x.wrote).take 32)).setOp i fun _ =>
          .gather { x with wrote := x.wrote + 32 })
  | rowWritten i s o x r (op : s.findOp i = some o) (kind : o.kind = .gather x)
      (first : ((s.gathers o.die x.cluster).head?.map (·.id)) = some i)
      (asked : o.cancel = false) (runs : x.status = none) (more : x.k < x.n) (row : x.row = some r) (whole : x.len ≤ x.buf.length)
      (last : x.len ≤ x.wrote + 32) :
      EngineEvents (.gatherService i) s
        ((s.setGang o.gang fun g => g.localWrite (x.dst + x.k * x.len + x.wrote) ((x.buf.drop x.wrote).take 32)).setOp i fun _ =>
          .gather { x with k := x.k + 1, row := none, buf := [], wrote := 0 })
  /-- R259: OK, or CLIPPED with its count. -/
  | gathered i s o x (op : s.findOp i = some o) (id : o.id = i) (kind : o.kind = .gather x) (live : o.live = true) (all : x.n ≤ x.k)
      (good : x.status = none) (asked : o.cancel = false) (credit : 0 < s.creditNow o.part o.die) :
      EngineEvents (.gatherComplete i) s
        (engineEnds s o (if x.clipped = 0 then 0 else statusWord 4 false (min x.clipped 65535)) .die x.cw x.cv)
  /-- R286, R288: one more sector of a record; the last one enters it in the record cache. -/
  | recordMore i s t u o x y bs (op : s.findOp i = some o) (kind : o.kind = .tcopy x) (runs : x.filling = true)
      (page : s.translateFor o.here.die o.here.part o.here.vf x.recAddr (·.r) = (.ok y, t)) (normal : y.kind = .normal)
      (read : t.readPiece o.here false .dflt ⟨y.pa + x.shape.length, 32, .normal⟩ = (bs, false, u)) (more : (x.shape ++ bs).length < 256)
      (credit : 0 < s.creditNow o.part o.die) :
      EngineEvents (.recordFill i) s (u.setOp i fun _ => .tcopy { x with shape := x.shape ++ bs, filling := true })
  | recordDone i s t u o x y bs (op : s.findOp i = some o) (kind : o.kind = .tcopy x) (runs : x.filling = true) (first : x.bad = none)
      (page : s.translateFor o.here.die o.here.part o.here.vf x.recAddr (·.r) = (.ok y, t)) (normal : y.kind = .normal) (keep : x.keep = true)
      (read : t.readPiece o.here false .dflt ⟨y.pa + x.shape.length, 32, .normal⟩ = (bs, false, u)) (all : 256 ≤ (x.shape ++ bs).length)
      (credit : 0 < s.creditNow o.part o.die) :
      EngineEvents (.recordFill i) s
        ((u.recTouch ⟨o.die, o.part, o.vf, x.recAddr.toNat, x.shape ++ bs⟩).setOp i fun _ =>
          .tcopy { x with shape := x.shape ++ bs, filling := false })
  /-- R285: elements move in ascending order; the last one ends the copy with OK. -/
  | copied i n s t o x y h (op : s.findOp i = some o) (id : o.id = i) (kind : o.kind = .tcopy x) (whole : x.filling = false)
      (asked : o.cancel = false) (live : o.live = true) (good : x.bad = none) (shape : shapeOf x.shape = some h)
      (fits : h.size * h.count ≤ x.len) (moves : State.tcopyMany o h n x s = (none, y, t)) (all : h.count ≤ y.d)
      (credit : 0 < s.creditNow o.part o.die) :
      EngineEvents (.tcopyComplete i n) s (engineEnds t o 0 x.sc x.cw x.cv)
  | copies i n s t o x y h (op : s.findOp i = some o) (kind : o.kind = .tcopy x) (whole : x.filling = false) (asked : o.cancel = false)
      (good : x.bad = none) (shape : shapeOf x.shape = some h) (fits : h.size * h.count ≤ x.len)
      (moves : State.tcopyMany o h n x s = (none, y, t)) (more : y.d < h.count) (credit : 0 < s.creditNow o.part o.die) :
      EngineEvents (.tcopyComplete i n) s (t.setOp i fun _ => .tcopy y)
  /-- R292: a PUT that passes the gates takes its destination tiles. -/
  | arrives i s o x g (op : s.findOp i = some o) (kind : o.kind = .put x) (runs : x.status = none) (asked : o.cancel = false)
      (new : x.landed = none) (gate : gateRejects s.gates (quadOf x.die x.cluster) o.part = false) (gang : s.putGang o x = some g)
      (inside : g.localOk x.dst x.len = true)
      (free : ∀ t ∈ x.dstTiles, ∀ k, g.owner t = .engine k → k = i) :
      EngineEvents (.putArrival i) s ((s.flipTiles g.key i x.dstTiles).setOp i fun _ => .put { x with landed := some g.key })
  /-- R268: the receiver's gate rejects it. -/
  | rejected i s o x (op : s.findOp i = some o) (kind : o.kind = .put x) (runs : x.status = none) (asked : o.cancel = false)
      (new : x.landed = none) (gate : gateRejects s.gates (quadOf x.die x.cluster) o.part = true) :
      EngineEvents (.putArrival i) s (s.setOp i fun _ => .put { x with status := some (statusWord 13 false 0) })
  /-- R292: its bytes land, its tiles go to THREAD, the receiver's counter is incremented. -/
  | lands i s o x key (op : s.findOp i = some o) (kind : o.kind = .put x) (runs : x.status = none) (asked : o.cancel = false)
      (landed : x.landed = some key) (good : s.putReadable o x = x.len / 32) (credit : 0 < s.creditNow o.part x.die) :
      EngineEvents (.putArrival i) s
        ((((s.putCopy o x key (x.len / 32)).freeDst key x).bump ⟨x.die, noCluster, 0, o.part, o.vf⟩ x.ctr).setOp i fun _ =>
          .put { x with status := some 0 })
  /-- R292, R293: the sender's tiles flip back and its future resolves. -/
  | putEnds i s o x st (op : s.findOp i = some o) (id : o.id = i) (kind : o.kind = .put x) (live : o.live = true) (done : x.status = some st)
      (free : st.getLsbD 8 = false) (asked : o.cancel = false) (credit : 0 < s.creditNow o.part o.die) : EngineEvents (.putComplete i) s (engineEnds s o st x.sc x.cw x.cv)
  /-- R256: the lowest set of the gang whose watchdog has fired ends the context; its diagnostic follows the record. -/
  | watchdog key n s e (at_ : (s.gang key).sets[n]? = some e) (fires : s.fires (s.gang key) e = true)
      (lowest : ∀ m < n, ∀ y, (s.gang key).sets[m]? = some y → s.fires (s.gang key) y = false) :
      EngineEvents (.barrierTimeout key n) s
        (s.terminate (s.gang key).vf (s.gang key).part (s.gang key).launch
          ([0x0F, 0, 0, 0, BitVec.ofNat 64 (0x200 + (s.gang key).index % 2 ^ 32 * 2 ^ 32), 0, 0, BitVec.ofNat 64 s.time] ++
            s.setDiagnostic (s.gang key) n e))

end Sys2Proof.Statements
end

