-- ==== Sys2Proof/Statements/Roots.lean ====
section
/-! DEFINITION. Tables for the statements about queues, launches, contexts, gangs and grace periods: when each event happens, and the state
it leaves (R204 to R209, R319 to R346). -/
namespace Sys2Proof.Statements

open Sys2Proof Sys2Proof.Machine

/-- The next entry of queue `j` may start, and starts (R319): `t` is the state as its checks begin, with an acquire on the partition
dies (R405). -/
structure Starts (s : State) (j : Nat) (q : Queue) (t : State) : Prop where
  at_ : s.queues[j]? = some q
  taken : q.started < q.taken
  may : s.mayStart q = true
  order : q.inOrder (s.entryAt q q.started) = true
  wait : ∀ b, s.entryAt q q.started = some b → field b 48 8 = 0 ∨ field b 48 8 % 8 ≠ 0 ∨ q.waitMet s.time = true
  after : t = ((s.touchEntry q q.started).setQueue q.vf q.q fun q' =>
    { q' with started := q.started + 1, lastPoll := 0, waitOk := false }).acquirePart q.part
  runs : ∀ c, t.ctx q.vf q.part = some c → c.state ≠ .terminated

/-- A record of a launch appended under a fresh number. -/
def launchEntered (s : State) (l : Nat → Launch) : State := { s with nextId := s.nextId + 1, launches := s.launches ++ [l s.nextId] }

/-- A LAUNCH whose fields are as R321 and R322 want them, and whose wait word reads. -/
structure LaunchOk (t : State) (q : Queue) (bs : List Byte) : Prop where
  type : field bs 0 8 % 16 = 1
  rsv : bits (field bs 0 8) 5 3 = 0 ∧ bits (field bs 0 8) 56 8 = 0
  region : bits (field bs 0 8) 8 16 ≠ 0
  gangs : bits (field bs 0 8) 24 32 ≠ 0
  aligned : field bs 8 8 % 128 = 0 ∧ field bs 16 8 % 65536 = 0 ∧ field bs 32 8 % 8192 = 0 ∧ field bs 48 8 % 8 = 0
  word : hasWait bs = false ∨ (t.waitWord q bs).1.isSome = true

/-- A kernel header that R322 lets start. -/
structure HeaderOk (t u : State) (q : Queue) (bs : List Byte) (h : Header) : Prop where
  read : t.readHeader q.vf q.part (BitVec.ofNat 64 (field bs 8 8)) = (some h, u)
  fits : h.fitsRegion (65536 * bits (field bs 0 8) 8 16) = true
  place : h.placeable (u.launchQuota q.vf q.part) = true

/-- The launch made: its gangs wait on the partition dies, in turn (R324). -/
def launched (u : State) (id : Nat) (q : Queue) (bs : List Byte) (h : Header) : State :=
  { u with launches := u.launches ++ [{ blankLaunch q id q.started u.time 0 with
    gangs := bits (field bs 0 8) 24 32, hdr := h, priv := BitVec.ofNat 64 (field bs 16 8), psize := 65536 * bits (field bs 0 8) 8 16
    diag := BitVec.ofNat 64 (field bs 24 8), tfb := BitVec.ofNat 64 (field bs 32 8), seed := BitVec.ofNat 64 (field bs 40 8)
    unplaced := (List.range (bits (field bs 0 8) 24 32)).map fun g =>
      ((u.partDies q.part).getD (g % max (u.partDies q.part).length 1) 0, g) }] }

/-- An INVALIDATE whose fields are as R330 wants them. -/
structure InvalOk (t : State) (q : Queue) (bs : List Byte) : Prop where
  type : field bs 0 8 = 2
  address : field bs 8 8 % 65536 = 0 ∧ field bs 16 8 % 65536 = 0
  rsv : ∀ k ∈ [3, 4, 5], field bs (8 * k) 8 = 0
  wait : field bs 48 8 % 8 = 0
  word : hasWait bs = false ∨ (t.waitWord q bs).1.isSome = true

/-- Translations removed by an INVALIDATE that has started (R330). -/
def invalidating (t : State) (q : Queue) (p : TlbEntry → Bool) : State :=
  let u := ({ t with nextId := t.nextId + 1 } : State).shootdown q.vf q.part p
  { u with launches := u.launches ++ [{ blankLaunch q t.nextId q.started t.time 0 with inval := true }] }

/-- Whether a TLB entry maps an address of the range of an INVALIDATE. -/
def inRange (bs : List Byte) (e : TlbEntry) : Bool :=
  let lo := va55 (BitVec.ofNat 64 (field bs 8 8)) / 65536
  decide (lo < e.vpage + e.pages ∧ e.vpage < lo + field bs 16 8 / 65536)

/-- R327, R328: release at .sys, the completion record, the queue counter, the vector of a queue that asked for one. -/
def Completed (s : State) (l : Launch) (q : Queue) (v : State) : Prop :=
  ∃ t u : State,
    t = ((s.drainQueue fun o => o.vf == l.vf && o.part == l.part && !(s.allGroups.any fun g => g.key == o.group)).cleanPart
      fun x => x.part == l.part).ackAll (fun x => x.part == l.part) ∧
    u = { t with launches := t.launches.filter fun x => x.id != l.id } ∧ u.queue l.vf l.q = some q ∧
    v = (let v := (u.writeRecord q l.entry (l.record u.time)).redBase (rootHere q.part q.vf) (BitVec.ofNat 64 q.ctr) 1
         let v := if q.intr then v.tell [.msix q.vf q.q] else v
         let v := v.setQueue q.vf q.q fun x => { x with done := l.entry :: x.done }
         let v : State := { v with queues := updateAll (fun x => x.vf == q.vf && x.part == q.part) (fun x => { x with lastPoll := 0 }) v.queues }
         (v.settleQueue q.vf q.q).settleCtx l.vf l.part)

/-- Queues and launches (R319 to R323, R327, R328, R330). -/
inductive QueueEvents : Instr → State → State → Prop
  /-- R319: the root reads the wait word of the next entry. -/
  | poll j s q bs (at_ : s.queues[j]? = some q) (taken : q.started < q.taken)
      (due : q.lastPoll = 0 ∨ q.lastPoll + 100000 ≤ s.time) (entry : s.entryAt q q.started = some bs) :
      QueueEvents (.waitConditionPoll j) s
        (let r := (s.touchEntry q q.started).waitHolds q bs
         r.2.setQueue q.vf q.q fun q => { q with lastPoll := max r.2.time 1, waitOk := r.1 })
  /-- R322: a LAUNCH whose fields, header and needs pass has its gangs waiting on the partition dies, in turn. -/
  | launch j s q t u bs h (starts : Starts s j q t) (entry : s.entryAt q q.started = some bs) (fields : LaunchOk t q bs)
      (noDiag : field bs 24 8 = 0) (header : HeaderOk { t with nextId := t.nextId + 1 } u q bs h) :
      QueueEvents (.entryStart j) s (launched u t.nextId q bs h)
  /-- R322: with a diagnostic area, whose 8 KiB must be writable. -/
  | launchDiag j s q t v u bs h ps (starts : Starts s j q t) (entry : s.entryAt q q.started = some bs) (fields : LaunchOk t q bs)
      (diag : field bs 24 8 ≠ 0 ∧ field bs 24 8 % 8192 = 0)
      (area : ({ t with nextId := t.nextId + 1 } : State).mapVa (rootHere q.part q.vf) 65536 (BitVec.ofNat 64 (field bs 24 8)) 8192 (·.w) =
        (.ok ps, v)) (header : HeaderOk v u q bs h) :
      QueueEvents (.entryStart j) s (launched u t.nextId q bs h)
  /-- R328: an entry whose tag fails, or of an unknown type, ends with BAD_RECORD. -/
  | bad j s q t (starts : Starts s j q t)
      (fails : ∀ bs, s.entryAt q q.started = some bs → field bs 0 8 % 16 ≠ 1 ∧ field bs 0 8 % 16 ≠ 2) :
      QueueEvents (.entryStart j) s (launchEntered t fun id => blankLaunch q id q.started t.time 4)
  /-- R346: an entry whose wait word does not read ends with BAD_RECORD. -/
  | unreadable j s q t bs (starts : Starts s j q t) (entry : s.entryAt q q.started = some bs) (wait : hasWait bs = true)
      (word : (t.waitWord q bs).1 = none) :
      QueueEvents (.entryStart j) s (launchEntered t fun id => blankLaunch q id q.started t.time 4)
  /-- R330: an INVALIDATE of every address. -/
  | invalidate j s q t bs (starts : Starts s j q t) (entry : s.entryAt q q.started = some bs) (fields : InvalOk t q bs)
      (all : field bs 16 8 = 0) : QueueEvents (.entryStart j) s (invalidating t q fun _ => true)
  /-- R330: an INVALIDATE of a range. -/
  | invalidateRange j s q t bs (starts : Starts s j q t) (entry : s.entryAt q q.started = some bs) (fields : InvalOk t q bs)
      (some' : field bs 16 8 ≠ 0) : QueueEvents (.entryStart j) s (invalidating t q (inRange bs))
  | completes j s l q v (at_ : s.launches[j]? = some l) (over' : s.launchOver l = true) (plain : l.inval = false)
      (near : ∀ o ∈ s.wq, o.vf = l.vf → o.part = l.part → o.unanswered = false) (done : Completed s l q v) : QueueEvents (.launchComplete j) s v
  /-- R330: an INVALIDATE completes once nothing that began before it holds a translation, and every access of the context is performed. -/
  | invalidated j s l q v (at_ : s.launches[j]? = some l) (over' : s.launchOver l = true) (inval : l.inval = true)
      (far : ∀ o ∈ s.wq, o.vf = l.vf → o.part = l.part → o.unanswered = false) (fetches : ∀ e ∈ s.fetchq, ¬(e.vf = l.vf ∧ e.part = l.part))
      (ops : ∀ o ∈ s.ops, o.vf = l.vf → o.part = l.part → o.id < l.id → (∀ x, o.kind ≠ .ixred x) ∧ ∀ x, o.kind ≠ .gred x)
      (done : Completed (s.performCtx l.vf l.part) l q v) : QueueEvents (.launchComplete j) s v

/-- The first launch, by level and arrival, of which die `j` holds a waiting gang that fits (R207, R209, R324, R325): its lowest gang
goes to the lowest place. -/
structure Admits (s : State) (j : Nat) (l : Launch) (g cl k : Nat) : Prop where
  ranked : ∃ pre post, s.rankedLaunches = pre ++ l :: post ∧ ∀ m ∈ pre, s.holdsBank m.vf m.part = true →
    (∀ u ∈ m.unplaced, u.1 ≠ j) ∨ s.placesOn m.vf m.part j m.hdr.need = []
  bank : s.holdsBank l.vf l.part = true
  waits : (j, g) ∈ l.unplaced
  lowest : ∀ u ∈ l.unplaced, u.1 = j → g ≤ u.2
  place : (s.placesOn l.vf l.part j l.hdr.need).head? = some (cl, k)

/-- Contexts and gangs. -/
inductive ContextEvents : Instr → State → State → Prop
  | admits j s l g cl k (first : Admits s j l g cl k) : ContextEvents (.gangAdmit j) s (s.placeGang l g j cl k)
  | retires key s g (gang : s.gangs.find? (fun g => g.key == key) = some g) (groups : ∀ x ∈ s.allGroups, x.gang ≠ key)
      (ops : ∀ o ∈ s.ops, o.gang ≠ key) (table : ∀ e ∈ s.rtab, e.gang ≠ key) :
      ContextEvents (.gangRetire key) s
        { s with
          gangs := s.gangs.filter fun x => x.key != key
          planes := s.planes.filter fun p => p.gang != key
          launches := updateFirst (fun l => l.id == g.launch) (fun l => { l with retired := l.retired + 1 }) s.launches }
  /-- R326: the last gang of the only launch goes from the die that holds most to the one that asks. -/
  | steals thief victim s l g (one : s.launches = [l]) (bank : s.holdsBank l.vf l.part = true)
      (thief' : thief ∈ s.partDies l.part) (room : s.placesOn l.vf l.part thief l.hdr.need ≠ [])
      (two : s.partDies l.part = [thief, victim] ∨ s.partDies l.part = [victim, thief]) (ne : thief ≠ victim)
      (idle : ∀ u ∈ l.unplaced, u.1 ≠ thief) (many : 1 < l.unplaced.countP fun u => u.1 == victim)
      (last : (victim, g) ∈ l.unplaced) (new : l.stolen = []) (top : ∀ u ∈ l.unplaced, u.2 ≤ g) :
      ContextEvents (.stealRequest thief victim l.id) s
        { s with launches := [{ l with unplaced := (l.unplaced.filter (· != (victim, g))) ++ [(thief, g)], stolen := g :: l.stolen }] }
  /-- R205, R332: the next runnable RESIDENT context in rotation becomes ACTIVE. -/
  | switches part s c (idle : ∀ c ∈ s.ctxs, c.part = part → c.state ≠ .active) (up : s.partUp part = true)
      (next : (s.ready part).find? (fun c => c.state == .resident) = some c) :
      ContextEvents (.bankSwitch part c.bank) s
        (((({ s with abank := (part, c.bank) :: s.abank.filter fun a => a.1 != part } : State)).beginSlice c.vf part).revive c.vf part)
  /-- R333: the only runnable context goes on with a new slice at once; a carry is kept when the wall ceiling ended it. -/
  | sliceGoesOn part s c b (active : s.ctxs.find? (fun c => c.part == part && c.state == .active) = some c) (busy : s.runnable c = true)
      (ends : s.sliceOver c = some b) (alone : ∀ x ∈ s.ready part, x.vf = c.vf) :
      ContextEvents (.sliceEnd part) s
        ((s.setCtx c.vf c.part fun x => { x with carry := s.carryAfter c !b, lastSlice := s.tick + 1 }).beginSlice c.vf part)
  | sliceEnds part s c b (active : s.ctxs.find? (fun c => c.part == part && c.state == .active) = some c) (busy : s.runnable c = true)
      (ends : s.sliceOver c = some b) (other : ∃ x ∈ s.ready part, x.vf ≠ c.vf) :
      ContextEvents (.sliceEnd part) s ((s.stopSlice c !b).makeRoom part)
  /-- R331: a LOADING context whose gangs are all restored is RESIDENT. -/
  | loaded j s c (at_ : s.ctxs[j]? = some c) (loading : c.state = .loading) (keep : c.evict = false)
      (restored : ∀ v ∈ s.saved, ¬(v.gang.vf = c.vf ∧ v.gang.part = c.part)) :
      ContextEvents (.contextLoad j) s ((s.setCtx c.vf c.part fun c => { c with state := .resident }).settleCtx c.vf c.part)
  /-- R331, R395: an ABSENT context with work takes a bank, shares, and what its policy says. -/
  | loads j s t c h (at_ : s.ctxs[j]? = some c) (absent : c.state = .absent) (free : c.paused = false) (work : s.runnable c = true)
      (still : s.relocating c.part = false) (up : s.partUp c.part = true) (room : s.roomFor c = some h)
      (taken : t = ({ s with shares := s.shares ++ [h] } : State).setCtx c.vf c.part fun c => c.load h.bank (s.quotaFor c) (s.policyOf c.vf))
      (same : (t.ctx c.vf c.part).map (·.s1root) = some c.s1root) :
      ContextEvents (.contextLoad j) s t
  /-- R334: a gang of a SAVING context with no trap to take goes to the image once the accesses of its cores have drained. -/
  | saves key s t u g c h d a (gang : s.gangs.find? (fun g => g.key == key) = some g) (ctx : s.ctx g.vf g.part = some c)
      (saving : c.state = .saving) (area : s.saveArea c = some h) (tiles : s.holdsTile g = false) (table : ∀ e ∈ s.rtab, e.gang ≠ key)
      (quiet : ∀ x ∈ s.allGroups, x.gang = key → x.outst = []) (calm : ∀ x ∈ s.allGroups, x.gang = key → x.trapDue = false)
      (drained : t = ((((s.forGroups (fun x => x.gang == key) fun s => s.returnAll fun _ => true).drainQueue
        fun o => !o.isRemote && o.die == g.die && o.cluster == g.cluster && o.part == g.part &&
          decide (g.core0 ≤ o.core ∧ o.core < g.core0 + g.cores)).cleanPart fun x => x.die == g.die && x.part == g.part).ackAll
          fun x => x.die == g.die && x.part == g.part)) (still : t.ctx g.vf g.part = some d) (has : t.saveArea d = some a)
      (chunk : u = t.writeGang d a) :
      ContextEvents (.gangSave key) s
        ((({ u with
          saved := u.saved ++ [⟨u.gang key, u.allGroups.filter fun x => x.gang == key, u.planes.filter fun p => p.gang == key, []⟩]
          grp := if u.grp.gang == key then {} else u.grp
          groups := u.groups.filter fun x => !(x.gang == key)
          gangs := u.gangs.filter fun x => x.key != key
          planes := u.planes.filter fun p => p.gang != key } : State).finishSaving g.vf g.part).settleMoves)
  /-- R336, R337: the next saved gang of a LOADING context is placed, once its resolutions have been applied; each group performs an
  acquire at .pkg. -/
  | resumes j s v c d cl k (at_ : s.saved[j]? = some v) (ctx : s.ctx v.gang.vf v.gang.part = some c) (loading : c.state = .loading)
      (first : ∀ x ∈ s.saved.take j, ¬(x.gang.vf = v.gang.vf ∧ x.gang.part = v.gang.part)) (applied : s.resolutions = [])
      (dies : s.partDies v.gang.part = [d]) (place : s.placesOn v.gang.vf v.gang.part d v.need = [(cl, k)])
      (quads : s.quadsFree v d cl c.bank = true) :
      ContextEvents (.gangResume j) s
        (let g := s.bind_ v.gang d cl k
         let t : State := { s with
           saved := s.saved.take j ++ s.saved.drop (j + 1)
           gangs := s.gangs ++ [g]
           planes := s.planes ++ v.planes.map fun p => { p with die := d, cluster := cl, bank := c.bank } }
         v.groups.foldl (fun s y =>
           let z := y.replace g v.gang.core0 (s.freeSlotNo d cl (k + (y.core - v.gang.core0)))
           ({ s with groups := s.groups ++ [z] } : State).dropClean z.here .pkg) t)
  | applies j s r (at_ : s.resolutions[j]? = some r) :
      ContextEvents (.savedResolutionApply j) s
        (({ s with resolutions := s.resolutions.take j ++ s.resolutions.drop (j + 1) } : State).applyResolution r)
  /-- R336: the standby synchronisation engine applies what is left, in order. -/
  | syncTakeover s (primary : s.syncEngine.primary = true) (missed : 3 ≤ s.syncEngine.missed) :
      ContextEvents .syncEngineTakeover s
        (s.resolutions.foldl State.applyResolution { s with resolutions := [], syncEngine := { s.syncEngine with primary := false } })

/-- An open batch that closes: full, or 10 µs old (R344). -/
def closes (s : State) (b : Batch) : Bool :=
  b.state == .opened && (decide (256 ≤ b.entries.length) || decide (b.since + 10000 ≤ s.time))

/-- Grace periods and deferred frees (R340 to R345). -/
inductive RegulatorEvents : Instr → State → State → Prop
  | graceEnds j s c g (find : s.findGrace j = some (c, g)) (started : g.started = true) (left : g.readers = []) :
      RegulatorEvents (.gracePeriodEnd j) s (s.endGrace c.vf c.part j 0)
  | deadline j s c g d (find : s.findGrace j = some (c, g)) (limit : g.deadline = some d) (late : d ≤ s.time) :
      RegulatorEvents (.gpwaitDeadline j) s
        (s.endGrace c.vf c.part j (if g.started && g.readers.isEmpty then 0
          else statusWord (if s.savedReader c g.readers then 0xC0 else 0xC1) false (min g.readers.length 65535)))
  | batchCloses j s c b (at_ : s.ctxs[j]? = some c) (mem : b ∈ c.batches) (open' : b.state = .opened)
      (due : 256 ≤ b.entries.length ∨ b.since + 10000 ≤ s.time) :
      RegulatorEvents (.batchClose j) s
        ((({ s with nextId := s.nextId + 1 } : State).setCtx c.vf c.part fun c =>
          { c with batches := updateFirst (closes s) (fun b => { b with state := .closed, grace := s.nextId }) c.batches }).openGrace c.vf c.part s.nextId none)
  /-- R344: the head is read and the node linked to it. -/
  | pushReads j s t u c b r x n h rest v p (at_ : s.ctxs[j]? = some c) (first : c.batches = b :: r) (pushing : b.state = .pushing)
      (entry : b.entries = (x, n, h) :: rest) (fresh : b.cur = none)
      (head : s.headOf (s.regulatorHere c) h = (some (v, p), t))
      (link : t.writeVa (s.regulatorHere c) .pkg x (bytesOfNat 8 v) = (.ok (), u)) :
      RegulatorEvents (.batchPush j) s (u.setCtx c.vf c.part fun c => { c with batches := { b with cur := some v } :: c.batches.drop 1 })
  /-- R344: the CAS makes the node the head. -/
  | pushes j s t c b r x n h rest v p (at_ : s.ctxs[j]? = some c) (first : c.batches = b :: r) (pushing : b.state = .pushing)
      (entry : b.entries = (x, n, h) :: rest) (same : b.cur = some v) (more : rest ≠ [])
      (head : s.headOf (s.regulatorHere c) h = (some (v, p), t)) :
      RegulatorEvents (.batchPush j) s
        ((t.atomicStep (s.regulatorHere c) .cas .b64 .dflt p x.toNat v).2.2.setCtx c.vf c.part fun c =>
          { c with batches := { b with entries := rest, cur := none, pushed := b.pushed + 1 } :: c.batches.drop 1 })
  | takeover s (primary : s.regulator.primary = true) (missed : 3 ≤ s.regulator.missed) :
      RegulatorEvents .regulatorTakeover s (s.ctxs.foldl State.takeoverCtx { s with regulator := { s.regulator with primary := false } })

end Sys2Proof.Statements
end

