-- ==== Sys2Proof/Statements/Commands.lean ====
section
/-! DEFINITION. Tables for the statements about what the host does: sessions, keys and policies, mailbox commands, the BARs of a virtual
function; and about power, bring-up and failures (R361, R387 to R413). -/
namespace Sys2Proof.Statements

open Sys2Proof Sys2Proof.Machine

/-- Requests of the SPDM handshake: code, the stages in which each is answered, the stage and session after it (R391; the order is the
model's, log 30). -/
inductive SpdmForm : Instr → Nat → List Byte → Nat → (Pf → Bool) → (Pf → Pf) → Prop
  | capabilities p r : SpdmForm (.getCapabilities p r) p r 0xE1 (fun x => x.stage == 1) (fun x => { x with stage := 2 })
  | algorithms p r : SpdmForm (.negotiateAlgorithms p r) p r 0xE3 (fun x => x.stage == 2) (fun x => { x with stage := 3 })
  | digests p r : SpdmForm (.getDigests p r) p r 0x81 (fun x => decide (3 ≤ x.stage)) id
  | certificate p r : SpdmForm (.getCertificate p r) p r 0x82 (fun x => decide (3 ≤ x.stage)) id
  | challenge p r : SpdmForm (.challenge p r) p r 0x83 (fun x => decide (3 ≤ x.stage)) id
  | measurements p r : SpdmForm (.getMeasurements p r) p r 0xE0 (fun x => decide (3 ≤ x.stage)) id
  | exchange p r : SpdmForm (.keyExchange p r) p r 0xE4 (fun x => decide (3 ≤ x.stage) && !x.session) (fun x => { x with stage := 4 })
  | finish p r : SpdmForm (.finish p r) p r 0xE5 (fun x => x.stage == 4) (fun x => { x with stage := 3, session := true })
  | endSession p r : SpdmForm (.endSession p r) p r 0xEC (fun x => x.session) (fun x => { x with session := false })

/-- Pages that the memory handles of a VF cover. -/
def pagesHeld (s : State) (vf : Nat) : List Nat :=
  (s.handles.filter fun h => h.vf == vf).flatMap fun h => match h.kind with
    | .memory ps => ps
    | .window _ _ _ _ => []

/-- Sessions (R391), keys and policies (R392 to R395). -/
inductive SessionEvents : Instr → State → State → Prop
  | answers i pf req code ok f s (form : SpdmForm i pf req code ok f) (served : s.portServed pf = true) (stage : ok (s.pf pf) = true)
      (keeps : spdmKeeps code (Config.spdmOptions code req) = true) (valid : Config.spdmAccepts code (s.pf pf).transcript req = true) :
      SessionEvents i s
        (let reply := Config.spdmReply code spdmChosen s.measurements (s.pf pf).transcript req
         (s.setPf pf fun p => f { p with transcript := p.transcript ++ req ++ reply }).tell [.spdm pf false reply])
  /-- R392: anything else is refused, and changes nothing. -/
  | refuses i pf req code ok f s (form : SpdmForm i pf req code ok f) (served : s.portServed pf = true)
      (bad : ok (s.pf pf) = false ∨ spdmKeeps code (Config.spdmOptions code req) = false ∨
        Config.spdmAccepts code (s.pf pf).transcript req = false) :
      SessionEvents i s (s.tell [.spdm pf true []])
  /-- GET_VERSION begins the handshake again. -/
  | version pf req s t (served : s.portServed pf = true)
      (again : t = s.setPf pf fun p => { p with transcript := [], stage := 0, session := false })
      (keeps : spdmKeeps 0x84 (Config.spdmOptions 0x84 req) = true) (valid : Config.spdmAccepts 0x84 [] req = true) :
      SessionEvents (.getVersion pf req) s
        (let reply := Config.spdmReply 0x84 spdmChosen t.measurements [] req
         (t.setPf pf fun p => { p with transcript := req ++ reply, stage := 1 }).tell [.spdm pf false reply])
  /-- R392, R396: a 32-byte secret for a VF whose contexts are all ABSENT; where it is another one than before, what its handles hold was
  sealed under the old keys and is read under the new ones. -/
  | keySet pf vf secret s (served : s.portServed pf = true) (session : (s.pf pf).session = true) (port : portOf vf = pf)
      (size : secret.length = 32) (absent : ∀ c ∈ s.ctxs, c.vf = vf → c.state = .absent)
      (unbound : ∀ v, s.vf vf = some v → v.bound = none) (other : ∀ v, s.vf vf = some v → v.secret ≠ some secret) :
      SessionEvents (.keySet pf vf secret) s
        (let t := s.setVf vf fun v => { v with secret := some secret }
         ((pagesHeld s vf).foldl (fun u p => u.rereadPage (s.vfPair vf) (t.vfPair vf) p) t).tell [.spdm pf false []])
  | keySame pf vf secret s v (served : s.portServed pf = true) (session : (s.pf pf).session = true) (port : portOf vf = pf)
      (size : secret.length = 32) (absent : ∀ c ∈ s.ctxs, c.vf = vf → c.state = .absent) (there : s.vf vf = some v)
      (same : v.secret = some secret) :
      SessionEvents (.keySet pf vf secret) s ((s.setVf vf fun v => { v with secret := some secret }).tell [.spdm pf false []])
  | keyRefused pf vf secret s (served : s.portServed pf = true) (session : (s.pf pf).session = true) (port : portOf vf = pf)
      (live : secret.length ≠ 32 ∨ (∃ c ∈ s.ctxs, c.vf = vf ∧ c.state ≠ .absent) ∨
        ∃ v k, s.vf vf = some v ∧ v.bound ≠ none ∧ v.secret = some k ∧ k ≠ secret) :
      SessionEvents (.keySet pf vf secret) s (s.tell [.spdm pf true []])
  /-- R395: the four checks pass. -/
  | policySet pf vf policy s p (served : s.portServed pf = true) (session : (s.pf pf).session = true) (port : portOf vf = pf)
      (fields : policyOfBytes policy = some p) (signed : Config.sm2Verify p.pubkey (slice policy 0 768) (slice policy 768 64) = true)
      (key : ∀ v, s.vf vf = some v → v.bound = none ∨ v.bound = some p.pubkey)
      (newer : ∀ q, s.policyOf vf = some q → q.version < p.version) (positive : 0 < p.version) :
      SessionEvents (.policySet pf vf policy) s ((s.enforce vf p).tell [.spdm pf false []])
  | policyBad pf vf policy s (served : s.portServed pf = true) (session : (s.pf pf).session = true) (port : portOf vf = pf)
      (fields : policyOfBytes policy = none) : SessionEvents (.policySet pf vf policy) s (s.tell [.spdm pf true []])
  | query pf vf s v (served : s.portServed pf = true) (session : (s.pf pf).session = true) (port : portOf vf = pf) (there : s.vf vf = some v) :
      SessionEvents (.vfQuery pf vf) s
        (s.tell [.spdm pf false (Config.sm3 (v.bound.getD []) ++ bytesOfNat 8 (((s.policyOf vf).map (·.version)).getD 0))])
  /-- R392: outside a session, or for a VF of the other port. -/
  | noSession i pf vf s (form : (∃ k, i = .keySet pf vf k) ∨ (∃ p, i = .policySet pf vf p) ∨ i = .vfQuery pf vf) (served : s.portServed pf = true)
      (out : (s.pf pf).session = false ∨ portOf vf ≠ pf) : SessionEvents i s (s.tell [.spdm pf true []])

/-- A mailbox takes a command: its port is served, DONE is 1 (R399), and `t` is the state with the command's bytes. -/
def commandTaken (s : State) (pf op tag : Nat) (operands : List Nat) (t : State) : Prop :=
  s.portServed pf = true ∧ (s.pf pf).done = true ∧ t = s.setPf pf fun p => { p with command := mailWords op tag operands }

/-- Pages that an ALLOC may take (R353, R396): in a band of local mode the stack's, for one that asks for it; else those of the other bands. -/
def inMode (t : State) (loc : Bool) (stack page : Nat) : Bool :=
  if page / 16384 / 12 * 12 ∈ t.regions then loc && page / 16384 % 12 == stack else !loc

/-- The physical page at a position of a handle. -/
def physPage (h : Handle) (k : Nat) : Option Nat :=
  match h.kind with
  | .memory ps => ps[k]?
  | .window _ _ _ base => some (base / 65536 + k)

/-- Pages mapped one after another (R400): an earlier mapping of each goes, its leaf and record are made. Each page is an intermediate page
and the physical one. -/
inductive Mapped (vf part id : Nat) (ks : List (Nat × Nat × Kind)) : List (Nat × Nat) → State → State → Prop
  | done s : Mapped vf part id ks [] s s
  | page ip pp rest s t u c (ctx : s.ctx vf part = some c)
      (leaf : (s.unmapPages vf part fun m => m.ipage == ip).installLeaf c.s2root ip pp (kindAt ks ip) = some t)
      (others : Mapped vf part id ks rest { t with maps := t.maps ++ [⟨vf, part, id, ip, [pp], kindAt ks ip⟩] } u) :
      Mapped vf part id ks ((ip, pp) :: rest) s u

/-- A context that quits a partition whose quadrant moves (R387). -/
def quits (a b : Nat) (c : Ctx) : Bool := (c.part == a || c.part == b) && c.state != .absent

/-- Mailbox commands (R399 to R402, R412): when each has its effect; `t` is the state with the command taken. -/
inductive Commands : Instr → State → State → Prop
  /-- R396: the lowest free pages of the mode, zeroed, under a fresh handle. -/
  | alloc pf tag vf size loc stack s t u p (cmd : commandTaken s pf 0x01 tag [vf, size, (if loc then 1 else 0) + 2 * stack] t) (port : portOf vf = pf)
      (some' : size ≠ 0) (twelve : stack < 12) (policy : t.hasPolicy vf = true) (inForce : t.policyOf vf = some p)
      (room : t.pagesOf vf + size ≤ p.memq ∧ t.handleCount vf < p.maxHandles)
      (pages : ((t.findPages (inMode t loc stack) pageCount 0 size).length
        = size))
      (after : u = (t.findPages (inMode t loc stack)
        pageCount 0 size).foldl State.scrub t) :
      Commands (.alloc pf tag vf size loc stack) s
        ((({ u with nextId := u.nextId + 1, handles := u.handles ++ [⟨u.nextId, vf,
          .memory (t.findPages (inMode t loc stack) pageCount 0 size),
          none⟩] } : State).setVf vf fun v => { v with freed := false }).respond pf tag 0 [u.nextId])
  /-- R397: the first host window. -/
  | hwin pf tag vf db tb len s t p (cmd : commandTaken s pf 0x02 tag [vf, db, tb, len] t) (port : portOf vf = pf) (some' : len ≠ 0)
      (policy : t.hasPolicy vf = true) (inForce : t.policyOf vf = some p) (kinds : ∃ k ∈ p.kinds, k.2.2 = .host)
      (room : t.handleCount vf < p.maxHandles) (first : ∀ h ∈ t.handles, h.isMemory = true)
      (fits : len ≤ (2 ^ 40 - Config.hostAperture) / 65536) :
      Commands (.hwin pf tag vf db tb len) s
        ((({ t with nextId := t.nextId + 1, handles := t.handles ++
          [⟨t.nextId, vf, .window db tb (65536 * len) Config.hostAperture, none⟩] } : State).setVf vf fun v => { v with freed := false }).respond
            pf tag 0 [t.nextId])
  /-- R400: an unmapped handle's memory is scrubbed and the handle dies. -/
  | free pf tag id s t u v h ps (cmd : commandTaken s pf 0x03 tag [id] t) (there : t.handle id = some h) (port : portOf h.vf = pf)
      (policy : t.hasPolicy h.vf = true) (memory : h.kind = .memory ps) (unmapped : ∀ m ∈ t.maps, m.handle ≠ id)
      (gone : u = { ps.foldl State.scrub t with handles := (ps.foldl State.scrub t).handles.filter fun x => x.id != id })
      (last : v = if u.handles.any fun x => x.vf == h.vf then u else u.setVf h.vf fun v => { v with freed := true }) :
      Commands (.free pf tag id) s ((v.settleBind h.vf).respond pf tag 0)
  /-- R400: pages of a handle mapped: the leaves, the records, the handle's partition. HOST pages are those of a host window alone. -/
  | map pf tag vf part id ia off len s t u v h (pp : Nat → Nat) (cmd : commandTaken s pf 0x04 tag [vf, part, id, ia, off, len] t) (port : portOf vf = pf)
      (parts : part < 24) (some' : len ≠ 0) (aligned : len % 65536 = 0 ∧ ia % 65536 = 0 ∧ off % 65536 = 0) (inside : ia + len ≤ 2 ^ 55)
      (own : t.ownHandle vf id = some h) (size : off + len ≤ h.size) (policy : t.hasPolicy vf = true)
      (kinds : ∀ i < len / 65536, (kindAt (t.kindsOf vf part) (ia / 65536 + i) = .host ↔ h.isMemory = false))
      (once : h.part = none ∨ h.part = some part) (needed : t.needCtx vf part = some u)
      (pages : ∀ i < len / 65536, physPage h (off / 65536 + i) = some (pp i))
      (mapped : Mapped vf part h.id (t.kindsOf vf part) ((List.range (len / 65536)).map fun i => (ia / 65536 + i, pp i)) u v) :
      Commands (.map pf tag vf part id ia off len) s
        (({ v with handles := updateAll (fun x => x.id == id) (fun x => { x with part := some part }) v.handles } : State).respond pf tag 0)
  /-- R330, R400: mappings go, translations are invalidated, what used them is performed. -/
  | unmap pf tag vf part ia len s t (cmd : commandTaken s pf 0x05 tag [vf, part, ia, len] t) (port : portOf vf = pf) (parts : part < 24)
      (some' : len ≠ 0) (aligned : ia % 65536 = 0 ∧ len % 65536 = 0) (policy : t.hasPolicy vf = true) :
      Commands (.unmap pf tag vf part ia len) s
        (((t.unmapPages vf part fun m => decide (ia / 65536 ≤ m.ipage ∧ m.ipage < (ia + len) / 65536)).performCtx vf part).respond pf tag 0)
  | qcreate pf tag vf part q level id logN ctr intr s t u h p
      (cmd : commandTaken s pf 0x06 tag [vf, part, q, level, id, logN, ctr + if intr then 1 else 0] t)
      (port : portOf vf = pf) (parts : part < 24) (queues : q < 128) (levels : level < 4) (sizes : 4 ≤ logN ∧ logN ≤ 12)
      (counter : ctr % 8 = 0 ∧ ctr < 2 ^ 64) (home : t.kindOfVa vf part (BitVec.ofNat 64 ctr) = some .atomicHome)
      (own : t.ownHandle vf id = some h) (memory : h.isMemory = true) (size : 327680 ≤ h.size) (policy : t.hasPolicy vf = true)
      (inForce : t.policyOf vf = some p)
      (room : (t.queues.countP fun x => x.vf == vf && x.level == level) < p.queues.getD level 0) (new : t.queue vf q = none)
      (needed : t.needCtx vf part = some u) :
      Commands (.qcreate pf tag vf part q level id logN ctr intr) s
        (({ u with queues := u.queues ++ [⟨vf, q, part, level, id, logN, ctr, intr, 0, 0, [], false, none, 0, false⟩] } : State).respond pf tag 0)
  /-- R400: QDESTROY answers at once when every started entry has completed. -/
  | qdestroy pf tag vf q s t x (served : s.portServed pf = true) (free : (s.pf pf).done = true)
      (cmd : t = s.setPf pf fun p => { p with command := mailWords 0x07 tag [vf, q], done := false }) (port : portOf vf = pf) (queues : q < 128)
      (policy : t.hasPolicy vf = true) (there : t.queue vf q = some x) (all : ∀ n < x.started, n ∈ x.done) :
      Commands (.qdestroy pf tag vf q) s
        (({ t with queues := (t.setQueue vf q fun x => { x with dying := some (pf, tag) }).queues.filter fun y => !(y.vf == vf && y.q == q) } :
            State).respond pf tag 0)
  /-- R402: an ACTIVE context's slice ends and it stays RESIDENT, with its carry. -/
  | pause pf tag vf part s t u c (cmd : commandTaken s pf 0x08 tag [vf, part] t) (port : portOf vf = pf) (parts : part < 24) (policy : t.hasPolicy vf = true)
      (may : t.permits vf 0 = true) (needed : t.needCtx vf part = some u) (there : u.ctx vf part = some c) :
      Commands (.pause pf tag vf part) s
        ((((if c.state = .active then u.stopSlice c true else u).setCtx vf part fun c => { c with paused := true }).settleCtx vf part).respond
          pf tag 0)
  | unpause pf tag vf part s t u (cmd : commandTaken s pf 0x09 tag [vf, part] t) (port : portOf vf = pf) (parts : part < 24)
      (policy : t.hasPolicy vf = true) (may : t.permits vf 0 = true) (needed : t.needCtx vf part = some u) :
      Commands (.unpause pf tag vf part) s ((u.setCtx vf part fun c => { c with paused := false }).respond pf tag 0)
  /-- R331: a RESIDENT context with gangs begins to be saved. -/
  | evict pf tag vf part s t u c (cmd : commandTaken s pf 0x0A tag [vf, part] t) (port : portOf vf = pf) (parts : part < 24) (policy : t.hasPolicy vf = true)
      (may : t.permits vf 1 = true) (needed : t.needCtx vf part = some u) (there : u.ctx vf part = some c) (resident : c.state = .resident)
      (gangs : ∃ g ∈ u.gangs, g.vf = vf ∧ g.part = part) (key : c.vf = vf ∧ c.part = part) :
      Commands (.evict pf tag vf part) s ((u.setCtx vf part fun c => { c with state := .saving }).respond pf tag 0)
  /-- R400: the QUOTA waits for the next LOADING of a context that holds no bank. -/
  | resize pf tag vf part quota s t u c p (cmd : commandTaken s pf 0x0B tag [vf, part, quota] t) (port : portOf vf = pf) (parts : part < 24)
      (field' : quota < 2 ^ 58) (limits : (quotaOf quota).le ⟨512, 64, 1024, 256, 256, 2048⟩ = true) (policy : t.hasPolicy vf = true)
      (may : t.permits vf 2 = true) (inForce : t.policyOf vf = some p) (fits : (quotaOf quota).le (quotaOf p.quota) = true)
      (needed : t.needCtx vf part = some u) (there : u.ctx vf part = some c) (away : c.state = .absent ∨ c.state = .saved)
      (key : c.vf = vf ∧ c.part = part) :
      Commands (.resize pf tag vf part quota) s ((u.setCtx vf part fun c => { c with resize := some quota }).respond pf tag 0)
  /-- R387: a quadrant that is there already stays. -/
  | partitionStays pf tag die quad part s t (cmd : commandTaken s pf 0x0C tag [die, quad, part] t) (dies : die < 6) (quads : quad < 4)
      (parts : part < 24 ∨ part = 31) (alive : (t.die die).failed = false) (here : (t.gates.toList[4 * die + quad]?).map (·.part) = some part)
      (may : ∀ c ∈ t.ctxs, c.part = part → c.state ≠ .absent → t.permits c.vf 2 = true) :
      Commands (.partition pf tag die quad part) s (t.respond pf tag 0)
  /-- R387: the contexts of both partitions begin to be saved; the quadrant moves when that is done, at once where there are none. -/
  | partition pf tag die quad part s t a (cmd : commandTaken s pf 0x0C tag [die, quad, part] t) (dies : die < 6) (quads : quad < 4)
      (parts : part < 24 ∨ part = 31) (alive : (t.die die).failed = false)
      (here : (t.gates.toList[4 * die + quad]?).map (·.part) = some a) (away : a ≠ part)
      (may : ∀ c ∈ t.ctxs, quits a part c = true → t.permits c.vf 2 = true) :
      Commands (.partition pf tag die quad part) s
        (let u : State := { t with moving := (t.moving.filter fun m => !(m.1 == die && m.2.1 == quad)) ++ [(die, quad, part)] }
         (((t.ctxs.filter (quits a part)).foldl (fun s c => (s.evict c.vf c.part).finishSaving c.vf c.part) u).settleMoves).respond pf tag 0)
  /-- R400, R419: a context that is not TERMINATED ends; either way it is ABSENT, and nothing in a TLB reaches it. -/
  | reset pf tag vf part s t c (cmd : commandTaken s pf 0x0D tag [vf, part] t) (port : portOf vf = pf) (parts : part < 24)
      (policy : t.hasPolicy vf = true) (there : t.ctx vf part = some c) :
      Commands (.reset pf tag vf part) s
        (((((if c.state = .terminated then t else t.endContext vf part).setCtx vf part fun c =>
          { c with state := .absent, paused := false, carry := 0, evict := false, image := [], seals := [] }).shootdown vf part fun _ =>
            true).settleBind vf).respond pf tag 0)
  | setltol pf tag vf ns s t p (cmd : commandTaken s pf 0x0E tag [vf, ns] t) (port : portOf vf = pf) (policy : t.hasPolicy vf = true)
      (inForce : t.policyOf vf = some p) (fits : ns ≤ p.ltol) :
      Commands (.setltol pf tag vf ns) s ((t.setVf vf fun v => { v with ltol := some ns }).respond pf tag 0)
  /-- R412 -/
  | dumpget pf tag sec dest s t d v bs (cmd : commandTaken s pf 0x0F tag [sec, dest] t) (dump : t.dump = some d)
      (at_ : d.sections[sec]? = some (true, v, bs)) :
      Commands (.dumpget pf tag sec dest) s
        ((({ t with hmem := memWrite t.hmem dest bs } : State).tell [.dmaWrite dest bs]).respond pf tag 0)
  /-- R398: a handle large enough becomes the save area: a context that waits for one is SAVED, and a quadrant that waits for that moves. -/
  | savearea pf tag vf part id s t u h c (cmd : commandTaken s pf 0x10 tag [vf, part, id] t) (port : portOf vf = pf) (parts : part < 24)
      (own : t.ownHandle vf id = some h) (policy : t.hasPolicy vf = true) (needed : t.needCtx vf part = some u) (there : u.ctx vf part = some c)
      (held : c.state ≠ .absent ∧ c.state ≠ .terminated) (room : areaNeed c.quota ≤ h.size) :
      Commands (.savearea pf tag vf part id) s
        ((((u.setCtx vf part fun c => { c with save := id }).finishSaving vf part).settleMoves).respond pf tag 0)
  /-- R399, R401: a VF of the other port. -/
  | otherPort i pf tag s t op vf operands
      (form : (∃ n l k, i = .alloc pf tag vf n l k ∧ op = 1 ∧ operands = [vf, n, (if l then 1 else 0) + 2 * k]) ∨
        (∃ d b n, i = .hwin pf tag vf d b n ∧ op = 2 ∧ operands = [vf, d, b, n]) ∨
        (∃ p h a o n, i = .map pf tag vf p h a o n ∧ op = 4 ∧ operands = [vf, p, h, a, o, n]) ∨
        (∃ p a n, i = .unmap pf tag vf p a n ∧ op = 5 ∧ operands = [vf, p, a, n]) ∨
        (∃ p, i = .pause pf tag vf p ∧ op = 8 ∧ operands = [vf, p]) ∨ (∃ p, i = .unpause pf tag vf p ∧ op = 9 ∧ operands = [vf, p]) ∨
        (∃ p, i = .evict pf tag vf p ∧ op = 10 ∧ operands = [vf, p]) ∨ (∃ p, i = .reset pf tag vf p ∧ op = 13 ∧ operands = [vf, p]) ∨
        (∃ n, i = .setltol pf tag vf n ∧ op = 14 ∧ operands = [vf, n]) ∨ (∃ p h, i = .savearea pf tag vf p h ∧ op = 16 ∧ operands = [vf, p, h]))
      (cmd : commandTaken s pf op tag operands t) (other : portOf vf ≠ pf) : Commands i s (t.respond pf tag 2)
  /-- R399: a command at a busy mailbox is ignored. -/
  | busy i pf tag s (form : (∃ vf n l k, i = .alloc pf tag vf n l k) ∨ (∃ h, i = .free pf tag h) ∨ (∃ vf p, i = .pause pf tag vf p) ∨
        (∃ vf q, i = .qdestroy pf tag vf q))
      (runs : (s.pf pf).done = false) : Commands i s s

/-- The command that 64 bytes of a mailbox give (R400): the opcode in byte 0, the tag in dword 1, operands from the second qword on; where the
operands lie is the model's reading (log 71). -/
inductive MailForm (pf : Nat) (b : List Byte) : Nat → Instr → Prop
  | alloc : MailForm pf b 1 (.alloc pf (field b 4 4) (field b 8 8) (field b 16 8) (field b 24 8 % 2 == 1) (field b 24 8 / 2))
  | hwin : MailForm pf b 2 (.hwin pf (field b 4 4) (field b 8 8) (field b 16 8) (field b 24 8) (field b 32 8))
  | free : MailForm pf b 3 (.free pf (field b 4 4) (field b 8 8))
  | map : MailForm pf b 4 (.map pf (field b 4 4) (field b 8 8) (field b 16 8) (field b 24 8) (field b 32 8) (field b 40 8) (field b 48 8))
  | unmap : MailForm pf b 5 (.unmap pf (field b 4 4) (field b 8 8) (field b 16 8) (field b 24 8) (field b 32 8))
  | qcreate : MailForm pf b 6 (.qcreate pf (field b 4 4) (field b 8 8) (field b 16 8) (field b 24 8) (field b 32 8) (field b 40 8)
      (field b 48 8) (field b 56 8 / 2 * 2) (field b 56 8 % 2 == 1))
  | qdestroy : MailForm pf b 7 (.qdestroy pf (field b 4 4) (field b 8 8) (field b 16 8))
  | pause : MailForm pf b 8 (.pause pf (field b 4 4) (field b 8 8) (field b 16 8))
  | unpause : MailForm pf b 9 (.unpause pf (field b 4 4) (field b 8 8) (field b 16 8))
  | evict : MailForm pf b 10 (.evict pf (field b 4 4) (field b 8 8) (field b 16 8))
  | resize : MailForm pf b 11 (.resize pf (field b 4 4) (field b 8 8) (field b 16 8) (field b 24 8))
  | partition : MailForm pf b 12 (.partition pf (field b 4 4) (field b 8 8) (field b 16 8) (field b 24 8))
  | reset : MailForm pf b 13 (.reset pf (field b 4 4) (field b 8 8) (field b 16 8))
  | setltol : MailForm pf b 14 (.setltol pf (field b 4 4) (field b 8 8) (field b 16 8))
  | dumpget : MailForm pf b 15 (.dumpget pf (field b 4 4) (field b 8 8) (field b 16 8))
  | savearea : MailForm pf b 16 (.savearea pf (field b 4 4) (field b 8 8) (field b 16 8) (field b 24 8))

/-- The BARs of a virtual function (R403 to R405), the mailbox of a physical one (R399, R401). -/
inductive BarWrites : Instr → State → State → Prop
  /-- R404: a tail beyond what was taken, within the ring. -/
  | doorbell vf q n s x (serving : s.serving = true) (queue : s.queue vf q = some x) (alive : x.dying = none) (more : x.taken < n)
      (room : n ≤ x.leading + 2 ^ x.logN) : BarWrites (.doorbell vf q n) s ((s.setQueue vf q fun x => { x with taken := n }).wakeUnits x.part)
  | doorbellOver vf q n s x (serving : s.serving = true) (queue : s.queue vf q = some x) (alive : x.dying = none) (more : x.taken < n)
      (over' : x.leading + 2 ^ x.logN < n) : BarWrites (.doorbell vf q n) s (s.setQueue vf q fun x => { x with overrun := true })
  | doorbellOld vf q n s x (queue : s.queue vf q = some x) (old : n ≤ x.taken) : BarWrites (.doorbell vf q n) s s
  | qstat vf q v s (serving : s.serving = true) (one : v.getLsbD 1 = true) :
      BarWrites (.qstatWrite vf q v) s (s.setQueue vf q fun x => { x with overrun := false })
  | qstatZero vf q v s (zero : v.getLsbD 1 = false) : BarWrites (.qstatWrite vf q v) s s
  /-- R405: a record whose counter rises, that verifies, within its handle. -/
  | load vf off bytes s v h p (serving : s.serving = true) (vfs : vf < 1024) (there : s.vf vf = some v) (aligned : off % 512 = 0) (size : bytes.length = 512)
      (newer : v.lstat < field bytes 272 8) (block : field bytes 288 8 % 256 = 0) (rsv : field bytes 296 216 = 0)
      (handle : s.handle (field bytes 280 8) = some h)
      (valid : Config.gcmOpen (s.vfKey vf labelLoad) (bytesOfNat 2 vf ++ [2, 0] ++ bytesOfNat 8 (field bytes 272 8))
        (slice bytes 280 8 ++ slice bytes 288 8 ++ slice bytes 272 8) (slice bytes 0 256) (slice bytes 256 16) = some p)
      (own : h.vf = vf) (inside : field bytes 288 8 + 256 ≤ h.size) :
      BarWrites (.loadRecord vf off bytes) s
        ((s.handleWrite h (field bytes 288 8) (slice p 0 256)).setVf vf fun v => { v with lstat := field bytes 272 8 })
  | loadOld vf off bytes s v (serving : s.serving = true) (vfs : vf < 1024) (there : s.vf vf = some v) (old : field bytes 272 8 ≤ v.lstat) :
      BarWrites (.loadRecord vf off bytes) s (s.setVf vf fun v => { v with lerr := (v.lerr + 1) % 2 ^ 64 })
  /-- R405: a record for a handle that is not one of the VF's is rejected, so for a VF that nothing has been set up for. -/
  | loadForeign vf off bytes s (serving : s.serving = true) (vfs : vf < 1024)
      (foreign : ∀ h, s.handle (field bytes 280 8) = some h → h.vf ≠ vf) :
      BarWrites (.loadRecord vf off bytes) s (s.setVf vf fun v => { v with lerr := (v.lerr + 1) % 2 ^ 64 })
  | lstat vf s v (serving : s.serving = true) (vfs : vf < 1024) (there : s.vf vf = some v) :
      BarWrites (.lstatRead (65536 * vf + 0x1000)) s (s.tell [.readValue vf v.lstat])
  | lerr vf s v (serving : s.serving = true) (vfs : vf < 1024) (there : s.vf vf = some v) :
      BarWrites (.lstatRead (65536 * vf + 0x1010)) s (s.tell [.readValue vf (v.lerr % 2 ^ 64)])
  | nothingYet vf off s (serving : s.serving = true) (vfs : vf < 1024) (new : s.vf vf = none) (which : off = 0x1000 ∨ off = 0x1010) :
      BarWrites (.lstatRead (65536 * vf + off)) s (s.tell [.readValue vf 0])
  /-- R403: QSTAT of a queue: VALID, OVERRUN, the tail taken. -/
  | qstatRead vf q s x (serving : s.serving = true) (vfs : vf < 1024) (queues : q < 128) (queue : s.queue vf q = some x) :
      BarWrites (.lstatRead (65536 * vf + (0x800 + 8 * q))) s
        (s.tell [.readValue vf (1 + (if x.overrun then 2 else 0) + 2 ^ 16 * (x.taken % 2 ^ 48))])
  /-- R403: SERVICE: dies in full service, dies present. -/
  | service vf s (serving : s.serving = true) (vfs : vf < 1024) :
      BarWrites (.lstatRead (65536 * vf + 0x1008)) s
        (s.tell [.readValue vf (((List.range 6).map fun d => (if (s.die d).fullService then 2 ^ d else 0) +
          if (s.die d).present && !(s.die d).failed then 2 ^ (6 + d) else 0).sum)])
  /-- R404: a byte of a slot or tag of a ring window. -/
  | ring vf off b s q h (serving : s.serving = true) (vfs : vf < 1024) (queue : s.queue vf (off / 0x80000) = some q) (handle : s.ringOf q = some h)
      (inside : q.inRing (off % 0x80000) = true) :
      BarWrites (.registerWrite vf 4 off [b]) s (s.handleWrite h (off % 0x80000) [b])
  | dropped vf bar off bytes s (vfs : vf < 1024) (other : bar ≠ 4) : BarWrites (.registerWrite vf bar off bytes) s s
  /-- R399: a byte of a mailbox command written by the host. -/
  | command pf k b s (serving : s.serving = true) (ports : pf ≤ 1) (inside : k < 64) :
      BarWrites (.registerWrite (1024 + pf) 0 (0x2000 + k) [b]) s
        (s.setPf pf fun p => { p with command := (List.range 64).map fun i => if i = k then b else p.command.getD i 0 })
  /-- R399, R400: 1 written to 0x2080 gives the command that the 64 bytes hold. -/
  | gives pf op i s t (serving : s.serving = true) (ports : pf ≤ 1) (form : MailForm pf (s.pf pf).command op i)
      (opcode : field (s.pf pf).command 0 1 = op) (runs : exec i s = .next t) : BarWrites (.registerWrite (1024 + pf) 0 0x2080 [1]) s t
  /-- R401: an opcode that is no command's: BAD_ARGUMENT. -/
  | unknown pf s (ports : pf ≤ 1) (served : s.portServed pf = true) (free : (s.pf pf).done = true)
      (opcode : field (s.pf pf).command 0 1 = 0 ∨ 16 < field (s.pf pf).command 0 1) :
      BarWrites (.registerWrite (1024 + pf) 0 0x2080 [1]) s
        ((s.setPf pf fun p => { p with command := mailWords (field p.command 0 1) (field p.command 4 4) ((List.range 7).map fun k =>
          field p.command (8 * (k + 1)) 8) }).respond pf (field (s.pf pf).command 4 4) 2)

/-- Power states, bring-up, failures, fatal errors and reset (R361, R362, R390, R406 to R411). -/
inductive PowerEvents : Instr → State → State → Prop
  /-- R407: a die goes to LOW, its clock capped, or begins to leave. -/
  | low d s (up : 4 ≤ s.bring) (still : s.waking (.die d) = false) (there : (s.die d).present = true) (works : (s.die d).failed = false)
      (full : (s.die d).power = .full) (wants : s.dieWants d = .low) :
      PowerEvents (.powerStateChange (.die d)) s (s.setDie d fun x => { x with power := .low, mhz := min x.mhz 250 })
  | dieLeaves d s (up : 4 ≤ s.bring) (still : s.waking (.die d) = false) (there : (s.die d).present = true) (works : (s.die d).failed = false)
      (low : (s.die d).power ≠ .full) (wants : s.dieWants d = .full) :
      PowerEvents (.powerStateChange (.die d)) s { s with wake := s.wake ++ [(.die d, s.time)] }
  | gates d q s (up : 4 ≤ s.bring) (still : s.waking (.quadrant d q) = false) (there : (s.die d).present = true)
      (works : (s.die d).failed = false) (quad : q < 4) (power : (s.die d).power ≠ .doff) (full : (s.die d).quads.getD q .full = .full)
      (wants : s.quadWants d q = .qgate) (told : q ∈ (s.die d).idlePorts) :
      PowerEvents (.powerStateChange (.quadrant d q)) s (s.setDie d fun x => { x with quads := x.quads.set q .qgate })
  | stackSleeps k s (up : 4 ≤ s.bring) (still : s.waking (.stack k) = false) (awake : k ∉ s.srefStacks) (twelve : k < 12)
      (idle : ∃ n, s.stackUse.toList[k]? = some n ∧ n + 50000 ≤ s.time) (may : s.tolerates (.stack k) 12000 = true) :
      PowerEvents (.powerStateChange (.stack k)) s { s with srefStacks := k :: s.srefStacks }
  | stackLeaves k s (up : 4 ≤ s.bring) (still : s.waking (.stack k) = false) (asleep : k ∈ s.srefStacks)
      (short : s.tolerates (.stack k) 12000 = false) :
      PowerEvents (.powerStateChange (.stack k)) s { s with wake := s.wake ++ [(.stack k, s.time)] }
  | stackUp k s (leaves : s.waking (.stack k) = true) :
      PowerEvents (.powerExitComplete (.stack k)) s
        { s with wake := s.wake.filter fun w => w.1 != .stack k, srefStacks := s.srefStacks.filter (· != k) }
  | quadUp d q s (leaves : s.waking (.quadrant d q) = true) (told : q ∉ (s.die d).idlePorts) :
      PowerEvents (.powerExitComplete (.quadrant d q)) s
        (({ s with wake := s.wake.filter fun w => w.1 != .quadrant d q } : State).setDie d fun x => { x with quads := x.quads.set q .full })
  /-- R361: the neighbours learn of an edge port that stops, and of one that is back. -/
  | portStops d q s (there : (s.die d).present = true) (quad : q < 4) (stops : s.dieWants d = .doff ∨ s.quadWants d q = .qgate)
      (new : q ∉ (s.die d).idlePorts) :
      PowerEvents (.powerStateNotice d q true) s (s.setDie d fun x => { x with idlePorts := q :: x.idlePorts })
  | portReturns d q s (there : (s.die d).present = true) (quad : q < 4) (leaves : s.waking (.die d) = true ∨ s.waking (.quadrant d q) = true) :
      PowerEvents (.powerStateNotice d q false) s (s.setDie d fun x => { x with idlePorts := x.idlePorts.filter (· != q) })
  | throttles d mhz s (there : (s.die d).present = true) :
      PowerEvents (.throttling d mhz) s (s.setDie d fun x => { x with mhz := min mhz x.nominal })
  /-- R408: the steps of bring-up; memory is zeroed, the region table set and the NMUs' control stores loaded in the second, the dies run at 500 MHz after the last. -/
  | bring0 s (at_ : s.bring = 0) (signed : Config.firmwareSigned s.tick = true) : PowerEvents .powerGood s { s with bring := 1 }
  /-- R408: a signature that does not verify ends it. -/
  | unsigned s (at_ : s.bring = 0) (unsigned : Config.firmwareSigned s.tick = false) : PowerEvents .powerGood s s
  | bring1 s (at_ : s.bring = 1) (noDump : s.dump = none) :
      PowerEvents .powerGood s
        { s with mem := [], poison := [], bring := 2, regions := (List.range 768).filter fun i => Config.choice s.tick i % 2 == 1
                 control := (List.range 256).map Config.microWord, entries := (List.range 32).map Config.entryPoint
                 pkg := Config.moduleNumber % 512, planesP := planeCounts.getD (Config.modulePlanes % 8) 1 }
  | bring2 s (at_ : s.bring = 2) : PowerEvents .powerGood s { s with bring := 3 }
  /-- R408: a die that does not pass step 4 stays off. -/
  | bring3 s (at_ : s.bring = 3) :
      PowerEvents .powerGood s
        { s with
          bring := 4
          dies := Vector.ofFn fun (i : Fin 6) =>
            if (Config.diesUp s.tick).getLsbD i then { s.dies[i] with present := true, mhz := 500 } else { s.dies[i] with failed := true } }
  /-- R409: every VF is told. -/
  | calibrated d s (up : 4 ≤ s.bring) (there : (s.die d).present = true) (early : (s.die d).fullService = false) :
      PowerEvents (.calibrationEnd d) s
        ((s.setDie d fun x => { x with fullService := true, mhz := if x.power = .low then 250 else 1000 }).tell
          ((List.range 1024).map fun v => .msix v 128))
  /-- R390: the other instance serves both ports. -/
  | takeover lost s (inst : lost < 2) (missed : 3 ≤ s.roots.missed) (its : s.roots.primary = (lost == 0)) (here : (s.pf lost).alive = true)
      (other : (s.pf (1 - lost)).alive = true) (idle : (s.pf lost).done = true) :
      PowerEvents (.rootTakeover lost) s
        { (s.setPf lost fun p => { p with alive := false }) with roots := { s.roots with missed := 0 } }
  /-- R390: with a command under way at the lost port: it is committed, and is answered when it is done, or not, and is answered with RETRY. -/
  | takeoverBusy lost s t q tag (inst : lost < 2) (missed : 3 ≤ s.roots.missed) (its : s.roots.primary = (lost == 0))
      (here : (s.pf lost).alive = true) (other : (s.pf (1 - lost)).alive = true) (busy : (s.pf lost).done = false)
      (after : t = { (s.setPf lost fun p => { p with alive := false }) with roots := { s.roots with missed := 0 } })
      (queue : s.queues.find? (fun q => q.dying.any fun d => d.1 == lost) = some q) (dying : q.dying = some (lost, tag)) :
      PowerEvents (.rootTakeover lost) s
        (if Config.choice s.tick 0xF200 % 2 = 0 then t
         else ({ t with queues := updateAll (fun q => q.dying.any fun d => d.1 == lost) (fun q => { q with dying := none }) t.queues } :
           State).respond lost tag 7)
  /-- R410, R411: power and fatal classes; nothing runs until a reset. The counter of each VF whose section was sealed has been used; a
  tenant's section may be copied under DEBUG = 1 alone (R412). -/
  | fatal cls s (first : s.fatal = false) (class' : 1 ≤ cls ∧ cls ≤ 3) :
      PowerEvents (.fatalError cls) s
        ({ s with
          fatal := true
          mem := memWrite s.mem Config.dumpBase (dumpImage s.time cls s.dumpSections)
          dump := some ⟨cls, s.time, s.dumpSections.map fun (x : Option Nat × Nat × List Byte) =>
            (match x.1 with
              | none => true
              | some v => ((s.policyOf v).map fun (p : Policy) => bits p.permit 3 2 == 1).getD false, x.1.getD 0, x.2.2)⟩
          vfs := s.vfs.map fun (v : Vf) => if (s.ctxs.any fun c => c.vf == v.vf) then { v with saveCtr := v.saveCtr + 1 } else v }.tell
            [.internalError 0, .internalError 1])
  | fatalAgain cls s (fatal : s.fatal = true) : PowerEvents (.fatalError cls) s s
  /-- R132, R408, R410, R412: bring-up begins again, $time at 0; a dump stays where its stacks stay powered, which is open; what a reset keeps
  beside it is the model's choice (log 34). -/
  | reset s : PowerEvents .packageReset s
      { State.reset with
        agenda := s.agenda, tick := s.tick, nextId := s.nextId, pkg := s.pkg, hmem := s.hmem, host := s.host, net := s.net
        planesP := s.planesP, badPorts := s.badPorts, mem := s.mem.filter fun c => decide (Config.dumpBase ≤ c.1)
        dump := if Config.choice s.tick 0xF400 % 2 = 0 then s.dump else none }

/-- R361, R362: what a failed die leaves: it serves no more, its gates are locked to no partition, what it had cached or queued is gone. -/
structure DieGone (s t : State) (d : Nat) : Prop where
  service : (t.die d).present = false ∧ (t.die d).failed = true
  gates : ∀ q < 4, t.gates.toList[4 * d + q]? = some ⟨true, 31⟩ ∧ t.gateCopy.toList[4 * d + q]? = some ⟨true, 31⟩
  moves : ∀ m ∈ t.moving, m.1 ≠ d

end Sys2Proof.Statements
end

