-- ==== Sys2Proof/Statements/Control.lean ====
section
/-! DEFINITION. Tables for the statements about control flow, traps, system registers and waits: under which conditions each instruction
has its own effect, and the state it leaves (R76 to R80, R88 to R90, R118 to R134, R191, R197). -/
namespace Sys2Proof.Statements

open Sys2Proof Sys2Proof.Machine

/-- The bundle `n` bundles from the current one (R30). -/
def bundle (s : State) (n : Int) : W64 := s.slot.pcb + BitVec.ofInt 64 (64 * n)

/-- The path at word 1 of a bundle, its registers and lanes as before; SWITCH parks it there (R23, R26). -/
def atBundle (s : State) (a : W64) : State := s.jump a

/-- The lanes of a mask under a guard (R18). -/
def taken (s : State) (g : Guard) : LaneMask := s.slot.mask &&& (if g.neg then ~~~s.rp g.p else s.rp g.p)

/-- A trap is taken at once: a handler exists, the group is not in trap mode, no result is outstanding, none stands with another unit
(R190, R191). -/
def mayTrap (s : State) : Prop := s.grp.trap = none ∧ (s.gang s.grp.gang).trapEntry ≠ 0 ∧ s.grp.outst = [] ∧ s.mustWait = false

/-- A trap waits for a result that stands with another unit (R191): the group issues nothing until it is taken. -/
def trapWaits (s : State) : Prop := s.grp.trap = none ∧ (s.gang s.grp.gang).trapEntry ≠ 0 ∧ s.mustWait = true

/-- The group with a code raised by its selected path. -/
def raisedBy (s : State) (c : Cause) : State := s.setGrp fun g => { g with raised := some (s.sel, c) }

/-- The destinations of a table dispatch (R77, R126): lanes without an index go on at the next bundle. -/
def dests (s : State) (call : Bool) (es : List (Nat × W64)) : List Dest :=
  destinations ((lanesOf s.slot.mask).map fun l =>
    (l, match es.find? fun x => x.1 == l with
      | some x => (⟨x.2, 0, call⟩ : Dest)
      | none => ⟨bundle s 1, 0, false⟩))

/-- Control flow: an instruction, a state in which it has its own effect, and the state after it. -/
inductive Control : Instr → State → State → Prop
  /-- R118: taken. -/
  | br off s : Control (.br .always off) s (atBundle s (bundle s off.toInt))
  | brNz a off s (h : s.rs a ≠ 0) : Control (.br (.nz a) off) s (atBundle s (bundle s off.toInt))
  | brNzNot a off s (h : s.rs a = 0) : Control (.br (.nz a) off) s (atBundle s (bundle s 1))
  | brZ a off s (h : s.rs a = 0) : Control (.br (.z a) off) s (atBundle s (bundle s off.toInt))
  | brZNot a off s (h : s.rs a ≠ 0) : Control (.br (.z a) off) s (atBundle s (bundle s 1))
  /-- R76, R119: no lane takes the target. -/
  | brdNone g tgt j s (h : taken s g = 0) : Control (.brd g tgt j) s (atBundle s (bundle s 1))
  /-- every lane takes it -/
  | brdAll g tgt j s (h : taken s g ≠ 0) (all : s.slot.mask &&& ~~~taken s g = 0) :
      Control (.brd g tgt j) s (atBundle s (bundle s tgt.toInt))
  /-- a split into the free slot -/
  | brdSplit g tgt j s (h : taken s g ≠ 0) (part : s.slot.mask &&& ~~~taken s g ≠ 0) (free : (s.grp.slot s.sel.other).occ = false)
      (none : s.grp.sjoin = none) :
      Control (.brd g tgt j) s
        (((s.copyPath ⟨bundle s tgt.toInt, taken s g, false⟩ (bundle s j.toInt)).setSlot fun x =>
          { x with mask := s.slot.mask &&& ~~~taken s g, pj := some (bundle s j.toInt) }).jump (bundle s 1))
  /-- a split on the coil -/
  | brdCoil g tgt j s t (h : taken s g ≠ 0) (part : s.slot.mask &&& ~~~taken s g ≠ 0)
      (busy : (s.grp.slot s.sel.other).occ = true ∨ s.grp.sjoin ≠ none)
      (push : s.pushAll s.sel
        [⟨bundle s j.toInt, s.slot.pj.getD 0, s.slot.mask, .merge, s.slot.depth, s.slot.sp⟩,
         ⟨bundle s tgt.toInt, bundle s j.toInt, taken s g, .resume, s.slot.depth, s.slot.sp⟩] = .ok t) :
      Control (.brd g tgt j) s
        ((t.setSlot fun x => { x with mask := s.slot.mask &&& ~~~taken s g, pj := some (bundle s j.toInt) }).jump (bundle s 1))
  /-- R120: with room for the link, and the frames of the path fitting after the spills of R91. -/
  | call off s t (quiet : s.quiet = true) (fits : s.callFrame (bundle s 1) = .ok t) :
      Control (.call off) s (t.jump (bundle s off.toInt))
  /-- R121 -/
  | enter f s t (quiet : s.quiet = true) (fits : s.enterFrame (8 * (f.toNat + 1)) = .ok t) : Control (.enter f) s (t.advance 1)
  /-- R122, with the caller's frame resident and the link as the device holds it. -/
  | ret s f rest (quiet : s.quiet = true) (frames : s.slot.frames = f :: rest) (res : f.resident = true) (held : f.link = [])
      (own : s.joinDepth ≠ some s.slot.depth) (ok : f.ret.toNat % 64 = 0) :
      Control .ret s
        ((s.setSlot fun x =>
          { x with sp := x.fb + 256, fsize := f.fsize, fb := f.fb, wbase := f.wbase, depth := x.depth - 1, frames := rest }).jump f.ret)
  /-- with the caller's frame or the link filled from memory: the link words of the path's lowest lane, or the device's own copy, and
  the caller's own link record as filled -/
  | retFill s t link f rest (quiet : s.quiet = true) (frames : s.slot.frames = f :: rest)
      (own : s.joinDepth ≠ some s.slot.depth) (fill : s.fillCaller f = .ok (link, t)) (ok : (s.returnTo f).toNat % 64 = 0) :
      Control .ret s ((t.setSlot fun x => x.back f rest link).jump (s.returnTo f))
  /-- R126: one index, its table entry read. -/
  | jts a s t e (look : s.dispatch [(0, s.rs a)] false = .ok ([(0, e)], t)) : Control (.jts a) s (t.jump e)
  | calltScalar a s t u e (quiet : s.quiet = true) (look : s.dispatch [(0, s.rs a)] true = .ok ([(0, e)], t))
      (fits : t.callFrame (bundle s 1) = .ok u) : Control (.calltScalar a) s (u.jump e)
  | calltScalarW1 a s t u e (quiet : s.quiet = true) (look : s.dispatch [(0, s.rs a)] true = .ok ([(0, e)], t))
      (fits : t.callFrame (bundle s 1) = .ok u) : Control (.calltScalarW1 a) s (u.jump e)
  /-- R77, R126: `ds` are the destinations in the order of their lowest lanes. -/
  | jtv a s t u es (regs : s.vcheck [(a, 1)] [] = .ok ())
      (look : s.dispatch ((lanesOf s.slot.mask).map fun l => (l, (s.vlane a 1 l).extractLsb' 0 64)) true = .ok (es, t))
      (split : t.splitMany (dests s false es) (bundle s 1) = .ok u) : Control (.jtv a) s u
  | jtvW1 g a s t u es (regs : s.vcheck [(a, 1)] [] = .ok ())
      (look : s.dispatch ((lanesOf (s.active g)).map fun l => (l, (s.vlane a 1 l).extractLsb' 0 64)) true = .ok (es, t))
      (split : t.splitMany (dests s false es) (bundle s 1) = .ok u) : Control (.jtvW1 g a) s u
  | calltLane a s t u es (quiet : s.quiet = true) (regs : s.vcheck [(a, 1)] [] = .ok ())
      (look : s.dispatch ((lanesOf s.slot.mask).map fun l => (l, (s.vlane a 1 l).extractLsb' 0 64)) true = .ok (es, t))
      (room : t.callLimit = false) (split : t.splitMany (dests s true es) (bundle s 1) = .ok u) : Control (.calltLane a) s u
  | calltLaneW1 g a s t u es (quiet : s.quiet = true) (regs : s.vcheck [(a, 1)] [] = .ok ())
      (look : s.dispatch ((lanesOf (s.active g)).map fun l => (l, (s.vlane a 1 l).extractLsb' 0 64)) true = .ok (es, t))
      (room : t.callLimit = false) (split : t.splitMany (dests s true es) (bundle s 1) = .ok u) : Control (.calltLaneW1 g a) s u
  /-- R80, R127: the last live lanes leave. -/
  | exitLast s (trap : s.grp.trap = none) (last : s.grp.live &&& ~~~s.slot.mask = 0) : Control .exit s s.endGroup
  /-- lanes leave a path that has a pending join: it arrives there with no lanes -/
  | exitJoin s j (trap : s.grp.trap = none) (more : s.grp.live &&& ~~~s.slot.mask ≠ 0) (pj : s.slot.pj = some j) :
      Control .exit s (((s.setGrp fun g => { g with live := g.live &&& ~~~s.slot.mask }).setSlot fun x => { x with mask := 0 }).jump j)
  /-- lanes leave a path without one: its slot is free, and a path in slot B moves to slot A -/
  | exitFree s (trap : s.grp.trap = none) (more : s.grp.live &&& ~~~s.slot.mask ≠ 0) (pj : s.slot.pj = none) :
      Control .exit s
        ((s.setGrp fun g => { g with live := g.live &&& ~~~s.slot.mask }).setGrp fun g => g.setSlot s.sel fun _ => {}).normalize
  /-- in trap mode the group ends (R196) -/
  | exitTrap s (trap : s.grp.trap ≠ none) : Control .exit s s.endGroup
  /-- R128 -/
  | nop s : Control .nop s (s.advance 1)
  | yield s : Control .yield s ((s.advance 1).setSlot fun x => { x with yielded := true })
  /-- R129: the trap is taken, with the resume address at TRAP, or at the next bundle for SVC. -/
  | trap n s (may : mayTrap s) : Control (.trap n) s (s.takeTrap { code := 0x13, addr := s.pc, reason := 0, n := n.toNat })
  | svc n s (may : mayTrap s) :
      Control (.svc n) s ((s.jump (bundle s 1)).takeTrap { code := 0x13, addr := s.pc, reason := 1, n := n.toNat })
  /-- R191: with a result of the group at another unit, the drain comes first. -/
  | trapDrains n s (waits : trapWaits s) : Control (.trap n) s (raisedBy s { code := 0x13, addr := s.pc, reason := 0, n := n.toNat })
  | svcDrains n s (waits : trapWaits s) :
      Control (.svc n) s (raisedBy (s.jump (bundle s 1)) { code := 0x13, addr := s.pc, reason := 1, n := n.toNat })

/-- The value that SSET puts into a register (R70, R71, R133), where its checks hold. -/
inductive SysWrite : State → SysReg → W64 → State → Prop
  | sp s v (al : v.toNat % 128 = 0) : SysWrite s .sp v (s.setSlot fun x => { x with sp := v })
  | sl s v (al : v.toNat % 128 = 0) (above : s.grp.priv + 4096 ≤ v) : SysWrite s .sl v (s.setGrp fun g => { g with sl := v })
  | tfp s v (al : v.toNat % 128 = 0) : SysWrite s .tfp v (s.setGrp fun g => { g with tfp := v })
  | rngk s v : SysWrite s .rngk v (s.setGrp fun g => { g with rngk := v })
  | rngc s v : SysWrite s .rngc v (s.setGrp fun g => { g with rngc := v })
  | fmode s v (rm : v.toNat % 8 < 6) (res : v.toNat < 512) : SysWrite s .fmode v (s.setGrp fun g => { g with fmode := v })

/-- The generator function (R166). -/
def generator (key x : W64) : W32 :=
  let z := x ^^^ key
  let z := (z ^^^ (z >>> 33)) * 0xA3C51E975B2D4F61
  let z := (z ^^^ (z >>> 29)) * 0x7F4A9C23E816D0B5
  let z := z ^^^ (z >>> 32)
  z.setWidth 32

/-- The value of RNG in a lane (R167): raw, or ⌊h / 2^8⌋ × 2^-24 as FP32. -/
def drawOf (unit : Bool) (s : State) (l : Nat) : Nat :=
  let h := (generator s.grp.rngk (32 * s.grp.rngc + BitVec.ofNat 64 l)).toNat
  if unit then (roundFp (fmtOf .f32) .rne 0 (.fin false (h / 2 ^ 8) (-24))).1 else h

/-- System registers, the execution mask, trap-frame reads, counters, time and sleep (R130 to R134, R197). -/
inductive System : Instr → State → State → Prop
  | sset r a s t (h : SysWrite s r (s.rs a) t) : System (.sset r a) s (t.advance 1)
  /-- R134: EXSET that removes nothing, and one that removes lanes. -/
  | exsetSame a s (h : s.slot.mask &&& (s.rs a).extractLsb' 0 32 = s.slot.mask) : System (.exset a) s (s.advance 1)
  | exset a s t j (some' : s.slot.mask &&& (s.rs a).extractLsb' 0 32 ≠ 0)
      (less : s.slot.mask &&& (s.rs a).extractLsb' 0 32 ≠ s.slot.mask) (pj : s.slot.pj = some j)
      (push : s.pushCoil s.sel ⟨j, j, s.slot.mask, .merge, s.slot.depth, s.slot.sp⟩ = .ok t) :
      System (.exset a) s ((t.setSlot fun x => { x with mask := s.slot.mask &&& (s.rs a).extractLsb' 0 32 }).advance 1)
  /-- R197: in trap mode, word `n` of the frame. -/
  | tget d n s t c bs (inTrap : s.grp.trap = some c) (st : s.cnt .st = 0)
      (read : s.grpRead (c.fa + BitVec.ofNat 64 (8 * n.toNat)) 8 = (.ok bs, t)) :
      System (.tget d n) s ((t.setRs d (BitVec.ofNat 64 (natOfBytes bs))).advance 1)
  /-- R197: in trap mode with one whole path and nothing pending, what the frame holds is restored. -/
  | rett s t c (inTrap : s.grp.trap = some c) (a : s.sel = .a) (b : s.grp.slotB.occ = false) (coil : s.slot.coil = [])
      (depth : s.slot.depth = 0) (mask : s.slot.mask = s.grp.live) (st : s.cnt .st = 0) (sm : s.cnt .sm = 0)
      (far : s.mustWait = false) (body : (s.returnAll fun e => e.tags.a).rettBody c = .ok t) : System .rett s t
  /-- R132: nothing outstanding. -/
  | rdtime d s (h : s.drained = true) : System (.rdtime d) s ((s.setRs d (BitVec.ofNat 64 s.time)).advance 1)
  /-- R130: every selected counter is 0. -/
  | waitc m s (ld : m.getLsbD 0 = true → s.cnt .ld = 0) (st : m.getLsbD 1 = true → s.cnt .st = 0)
      (sm : m.getLsbD 2 = true → s.cnt .sm = 0) (tl : m.getLsbD 3 = true → s.cnt .tl = 0) : System (.waitc m) s (s.advance 1)
  /-- R131: a path that does not park, one that does, and its end. -/
  | sleepZero d a s (h : s.rs a = 0) : System (.sleep d a) s ((s.setRs d (BitVec.ofNat 64 s.time)).advance 1)
  | sleep d a s (h : s.rs a ≠ 0) : System (.sleep d a) s (s.park (.sleep d (min (s.time + (s.rs a).toNat) (2 ^ 64 - 1))))
  | wakes d dl s (h : s.slot.park = .sleep d dl) (due : dl ≤ s.time) (runs : s.stirs = true) (held : s.slot.ibuf ≠ none)
      (here : s.slot.moved = false) : System .sleepDeadline s ((s.setRs d (BitVec.ofNat 64 s.time)).advance 1)
  /-- R197: a path that RETT resumed asleep at another word of its bundle, or past its last word. -/
  | wakesAt d dl s (h : s.slot.park = .sleep d dl) (due : dl ≤ s.time) (runs : s.stirs = true) (held : s.slot.ibuf ≠ none)
      (moved : s.slot.moved = true) (word : s.slot.idx ≠ s.slot.ctl % 16 + 1) :
      System .sleepDeadline s ((s.setRs d (BitVec.ofNat 64 s.time)).setSlot fun x => { x with moved := false, park := .none })
  | wakesNext d dl s (h : s.slot.park = .sleep d dl) (due : dl ≤ s.time) (runs : s.stirs = true) (held : s.slot.ibuf ≠ none)
      (moved : s.slot.moved = true) (past : s.slot.idx = s.slot.ctl % 16 + 1) :
      System .sleepDeadline s (((s.setRs d (BitVec.ofNat 64 s.time)).setSlot fun x => { x with moved := false }).jump (bundle s 1))
  /-- R166, R167 -/
  | rngseed a b s : System (.rngseed a b) s ((s.setGrp fun g => { g with rngk := s.rs a, rngc := s.rs b }).advance 1)
  | rngskip a s : System (.rngskip a) s ((s.setGrp fun g => { g with rngc := g.rngc + s.rs a }).advance 1)
  | rng u d s (regs : s.vcheck [] [(d, 1)] = .ok ()) :
      System (.rng u d) s
        (((s.vput d 1 s.slot.mask (drawOf u s)).setGrp fun g => { g with rngc := g.rngc + 1 }).advance 1)
  | rngW1 g u d s (regs : s.vcheck [] [(d, 1)] = .ok ()) :
      System (.rngW1 g u d) s (((s.vput d 1 (s.active g) (drawOf u s)).setGrp fun g => { g with rngc := g.rngc + 1 }).advance 3)

end Sys2Proof.Statements
end

