-- ==== Sys2Proof/Statements/Near.lean ====
section
/-! DEFINITION. Tables for the statements about near-memory commands: NMCALL, IXRED, WALK, COLL, GRED, and the events of their units
(R360 to R380). -/
namespace Sys2Proof.Statements

open Sys2Proof Sys2Proof.Machine

/-- A packet of the current group waits at its quadrant's edge port (R355, R357, R360): payload, operation, class, channel where it goes,
the line that it is about (R359). -/
def waits (s : State) (bytes id ch : Nat) (cls : Traffic) (line : Option Nat := none) : State :=
  { s with
    inject := s.inject ++
      [{ part := s.grp.part, vf := s.grp.vf, die := s.grp.die, bytes, id, cls, port := s.grp.cluster / 10, ch, line, msg := none, at_ := none, what := .command }] }

/-- The command of a path sent (R308, R367): its future pending, its operation running, its packet waiting for injection. -/
def sent (s : State) (f : Option FReg) (k : OpKind) (ch : Nat) (cls : Traffic) (line : Option Nat := none) : State :=
  let t : State := { s with nextId := s.nextId + 1 }
  (waits ((match f with
    | some f => t.issueFut f s.nextId
    | none => t).startOp s.nextId k) 64 s.nextId ch cls line).advance 3

/-- Checks on NMCALL's descriptor (R367, R368): `e` is the entry point. -/
structure NmcallOk (s : State) (e : Nat) (a : SReg) : Prop where
  addr : (s.rsAt a 0).toNat % 256 = 0
  count : 1 ≤ (s.rsAt a 1).toNat ∧ (s.rsAt a 1).toNat ≤ 65536
  stride : (s.rsAt a 2).toNat % 256 = 0
  res : if e = 0 then s.rsAt a 4 = 0 else if e = 2 then (s.rsAt a 4).toNat % 8 = 0 else e < 4 → (s.rsAt a 4).toNat % 256 = 0
  cw : (s.rsAt a 5).toNat % 8 = 0
  zero : s.rsAt a 7 = 0

/-- The addresses that NMCALL checks: the first line, RES, CW. -/
def nmcallChecks (s : State) (e : Nat) (a : SReg) : List Check :=
  (if e < 4 then [⟨s.rsAt a 0, 256, if e = 0 then (·.w) else (·.r), nearKind⟩] else []) ++
  (if e < 4 && s.rsAt a 4 != 0 then [⟨s.rsAt a 4, if e = 2 then 8 else 256, (·.w), nearKind⟩] else []) ++
  cwCheck (s.rsAt a 5) nearKind

/-- The operation of NMCALL; an entry point without a name resolves with NM_BAD_ENTRY (R369). -/
def nmcallOf (s : State) (e : Nat) (sc : Scope) (a : SReg) (ch : Nat) : OpKind :=
  .nmcall
    { entry := e, sc := nearScope sc, addr := s.rsAt a 0, count := (s.rsAt a 1).toNat, stride := s.rsAt a 2, arg := s.rsAt a 3
      res := s.rsAt a 4, cw := s.rsAt a 5, cv := s.rsAt a 6, ch, status := if e < 4 then none else some (statusWord 0x41 false e) }

/-- Checks on IXRED's descriptor (R370): row bytes, count, indices beyond the count. -/
structure IxredOk (s : State) (a : SReg) (rb n : Nat) : Prop where
  base : (s.rsAt a 0).toNat % 32 = 0
  fields : rb = (s.rsAt a 1).toNat % 2 ^ 16 ∧ n = (s.rsAt a 1).toNat / 2 ^ 16 % 2 ^ 5 ∧ (s.rsAt a 1).toNat < 2 ^ 22
  row : rb % 32 = 0 ∧ 32 ≤ rb ∧ rb ≤ 4096
  count : 1 ≤ n ∧ n ≤ 16
  rest : ∀ k < 16, n ≤ k → s.ixIndex a k = 0
  dst : (s.rsAt a 6).toNat % 32 = 0
  ctr : (s.rsAt a 7).toNat % 16 = 0

/-- Its checked addresses: rows, destination, counters. -/
def ixredChecks (s : State) (a : SReg) (rb n : Nat) (wide : Bool) : List Check :=
  ((List.range n).map fun k => ⟨s.rsAt a 0 + BitVec.ofNat 64 (s.ixIndex a k * rb), rb, (·.r), nearKind⟩) ++
  [⟨s.rsAt a 6, if wide then 2 * rb else rb, (·.w), nearKind⟩] ++
  (if s.rsAt a 7 = 0 then [] else [⟨s.rsAt a 7, 8, fun x => x.r && x.w, homeKind⟩, ⟨s.rsAt a 7 + 8, 8, fun x => x.r && x.w, homeKind⟩])

/-- Checks on WALK's descriptor (R373). -/
structure WalkOk (s : State) (a : SReg) (v hops rnlog : Nat) : Prop where
  rowptr : (s.rsAt a 0).toNat % 8 = 0
  col : (s.rsAt a 1).toNat % 4 = 0
  fields : v = (s.rsAt a 2).toNat % 2 ^ 32 ∧ hops = (s.rsAt a 2).toNat / 2 ^ 32 % 2 ^ 8 ∧ rnlog = (s.rsAt a 2).toNat / 2 ^ 40 % 2 ^ 4 ∧
    (s.rsAt a 2).toNat < 2 ^ 44
  some' : 1 ≤ v ∧ 1 ≤ hops
  start : (s.rsAt a 3).toNat % 4 = 0
  count : 1 ≤ (s.rsAt a 4).toNat ∧ (s.rsAt a 4).toNat ≤ 65536
  ring : (s.rsAt a 5).toNat % 32 = 0
  ctr : (s.rsAt a 6).toNat % 8 = 0
  zero : s.rsAt a 7 = 0

/-- Checks on COLL's descriptor (R376): `m` is its second word. -/
structure CollOk (s : State) (a : SReg) (len n opc : Nat) (ty : Ty) : Prop where
  list : (s.rsAt a 0).toNat % 8 = 0
  fields : len = (s.rsAt a 1).toNat % 2 ^ 32 ∧ n = (s.rsAt a 1).toNat / 2 ^ 32 % 16 + 1 ∧ opc = (s.rsAt a 1).toNat / 2 ^ 36 % 16 ∧
    (s.rsAt a 1).toNat < 2 ^ 45
  code : (s.rsAt a 1).toNat / 2 ^ 40 % 32 = if ty = .f32 then 9 else 10
  type' : ty = .f32 ∨ ty = .bf16
  bufs : 2 ≤ n ∧ n ≤ 12
  op : opc ≤ 2
  bytes : 256 ≤ len ∧ len ≤ 2 ^ 31 ∧ len % (if opc = 2 then 256 * n else 256) = 0
  cw : (s.rsAt a 2).toNat % 8 = 0
  zero : s.rsAt a 4 = 0 ∧ s.rsAt a 5 = 0 ∧ s.rsAt a 6 = 0 ∧ s.rsAt a 7 = 0

/-- The buffers that COLL reads from LIST in a state, and the stack of its leading sequencer (R376, log 22). -/
def collRead (t : State) (list : W64) (n : Nat) : Option (List W64) × Nat × State :=
  let w := agentHere 0 t.grp.part t.grp.vf
  let (r, u) := t.readVa w true list (8 * n)
  let bufs := match r with
    | .ok bs => some ((List.range n).map fun i => BitVec.ofNat 64 (field bs (8 * i) 8))
    | .error _ => none
  let (x, u) := u.translateFor w.die w.part w.vf ((bufs.bind (·.head?)).getD 0) fun _ => true
  (bufs, match x with
    | .ok y => u.stackOf y.pa
    | .error _ => 0, u)

/-- A lane's share of GRED: its address, and which channel has it (R372). -/
def gredReaches (s : State) (g : Option Guard) (ty : Ty) (a : VReg) : List Reach :=
  (lanesOf (s.active g)).map fun l =>
    let ea := (s.vlane a 2 l).extractLsb' 0 64
    { lane := l, ea, ok := ea.toNat % tyBytes ty == 0, parts := [(ea, tyBytes ty)] }

/-- Physical address of a lane. -/
def firstByte (x : LaneAcc) : Nat := (x.pieces.head?.map (·.pa)).getD 0

/-- The shares of a GRED: channels ascending, each with its lanes. -/
def gredShares (s : State) (accs : List LaneAcc) : List (Nat × List (Nat × Nat)) :=
  (distinct (accs.map fun x => s.channelOf (firstByte x))).mergeSort.map fun c =>
    (c, (accs.filter fun x => s.channelOf (firstByte x) == c).map fun x => (x.lane, firstByte x))

/-- Near-memory instructions. -/
inductive Nears : Instr → State → State → Prop
  | nmcall sc ord entry f a s t ps (fut : (s.fut f).open = true) (ok : NmcallOk s entry.toNat a)
      (words : s.checkAll (nmcallChecks s entry.toNat a) = .ok ps) (named : entry.toNat < 4)
      (room : s.nmuRoom (s.channelOf (firstPa ps)) = true) (rel : s.releaseFor ord (nearScope sc) = .ok t) :
      Nears (.nmcall sc ord entry f a) s (sent t (some f) (nmcallOf s entry.toNat sc a (s.channelOf (firstPa ps))) (s.channelOf (firstPa ps)) .nmc
        (some (firstPa ps / 256)))
  | nmcallUnnamed sc ord entry f a s t ps (fut : (s.fut f).open = true) (ok : NmcallOk s entry.toNat a)
      (words : s.checkAll (nmcallChecks s entry.toNat a) = .ok ps) (unnamed : 4 ≤ entry.toNat)
      (rel : s.releaseFor ord (nearScope sc) = .ok t) :
      Nears (.nmcall sc ord entry f a) s (sent t (some f) (nmcallOf s entry.toNat sc a 0) 0 .nmc)
  | ixred ty sc ord a s t ps rb n wide (ok : IxredOk s a rb n) (form : wide = (ty != .f32 && (s.rsAt a 1).toNat.testBit 21))
      (words : s.checkAll (ixredChecks s a rb n wide) = .ok ps)
      (room : s.ixreds (s.stackOf (firstPa (ps.drop n))) < Config.ixredSlots) (rel : s.releaseFor ord (nearScope sc) = .ok t) :
      Nears (.ixred ty sc ord a) s
        (sent t none (.ixred
          { ty, wide, sc := nearScope sc, rows := ps.take n, dst := ps.getD n []
            ctr := if s.rsAt a 7 = 0 then none else some (firstPa (ps.drop (n + 1)), firstPa (ps.drop (n + 2)))
            stack := s.stackOf (firstPa (ps.drop n)) }) (32 * s.stackOf (firstPa (ps.drop n))) .nmc
          (some (firstPa (ps.drop n) / 256)))
  /-- one draw of the group's generator seeds the walks (R375); the unit of the first start vertex has room -/
  | walk sc ord f a s t ps v hops rnlog (fut : (s.fut f).open = true) (ok : WalkOk s a v hops rnlog)
      (words : s.checkAll [⟨s.rsAt a 3, 4 * (s.rsAt a 4).toNat, (·.r), nearKind⟩,
        ⟨s.rsAt a 5, recordSize hops * min (s.rsAt a 4).toNat (2 ^ rnlog), (·.w), nearKind⟩, ⟨s.rsAt a 6, 8, fun x => x.r && x.w, homeKind⟩] = .ok ps)
      (room : s.nmuRoom (s.channelOf (firstPa ps)) = true) (rel : (s.drawn 1).releaseFor ord (nearScope sc) = .ok t) :
      Nears (.walk sc ord f a) s
        (sent t (some f) (.walk
          { sc := nearScope sc, rowptr := s.rsAt a 0, col := s.rsAt a 1, v, hops, rnlog, start := s.rsAt a 3, nw := (s.rsAt a 4).toNat
            ring := s.rsAt a 5, ctr := s.rsAt a 6
            kw := (hashH s.grp.rngk (32 * s.grp.rngc)).zeroExtend 64 + 2 ^ 32 * (hashH s.grp.rngk (32 * s.grp.rngc + 1)).zeroExtend 64
            ch := s.channelOf (firstPa ps) }) (s.channelOf (firstPa ps)) .nmc (some (firstPa ps / 256)))
  /-- the leading sequencer has room before the release, and after it, when LIST is read -/
  | coll sc ord f a s t u v ps len n opc ty bufs stack early lead (fut : (s.fut f).open = true) (ok : CollOk s a len n opc ty)
      (words : s.checkAll (⟨s.rsAt a 0, 8 * n, (·.r), nearKind⟩ :: cwCheck (s.rsAt a 2) nearKind) = .ok ps)
      (before : collRead s (s.rsAt a 0) n = (early, lead, v)) (room' : v.colls s.grp.die lead < Config.collSlots)
      (rel : s.releaseFor ord (nearScope sc) = .ok t) (read : collRead t (s.rsAt a 0) n = (bufs, stack, u))
      (room : u.colls s.grp.die stack < Config.collSlots) :
      Nears (.coll sc ord f a) s
        (sent u (some f) (.coll { sc := nearScope sc, stack, bufs, len, opc, ty, cw := s.rsAt a 2, cv := s.rsAt a 3 }) (32 * stack) .coll)
  | gredNone g ty op d a s (regs : s.vcheck [(a, 2)] [(d, 2)] = .ok ()) (none : s.active g = 0) : Nears (.gred g ty op d a) s (s.advance 3)
  | gred g ty op d a s accs (regs : s.vcheck [(a, 2)] [(d, 2)] = .ok ()) (some' : s.active g ≠ 0) (room : s.cnt .ld < 63)
      (ok : s.checkGlobal false (gredReaches s g ty a) (·.r) nearKind = .ok accs)
      (queues : ∀ c ∈ accs.map fun x => s.channelOf (firstByte x), s.nmuRoom c = true) :
      Nears (.gred g ty op d a) s
        ((gredShares s accs).foldl (fun t c => waits t (8 * c.2.length) s.nextId c.1 .nmc) ((({ s with
            nextId := s.nextId + 2
            grp := { s.grp with outst := s.grp.outst ++
              [{ id := s.nextId + 1, tags := s.tags, cnt := .ld, pos := s.slot.wbase + d.toNat, regs := 2, pc := s.pc, pend := s.active g
                 full := s.active g, lanes := accs, kind := .gred s.nextId }] } } : State).advance 3).startOp s.nextId
          (.gred { group := s.grp.key, outst := s.nextId + 1, port := s.grp.cluster / 10, op, ty, shares := gredShares s accs, results := [] })))

/-- The operations without one. -/
def opGone (s : State) (i : Nat) : State := { s with ops := s.ops.filter fun x => x.id != i }

/-- Packet `j` is the first of those that are ordered with it: of its class, port, destination and line (R358, R359). -/
def nextPacket (s : State) (j : Nat) (p : Packet) : Prop := s.inject[j]? = some p ∧ ∀ q ∈ s.inject.take j, q.before p = false

/-- Packet `j` leaves its queue. -/
def packetGone (s : State) (j : Nat) : State := { s with inject := s.inject.take j ++ s.inject.drop (j + 1) }

/-- A packet may enter the network (R357, R360, R361): the counter is above 0 where its class is metered, and its edge port is not in the idle
link state. -/
def mayEnter (s : State) (p : Packet) : Prop :=
  (p.cls ≠ .rsp → p.cls ≠ .wb → p.cls ≠ .mgmt → 0 < s.creditNow p.part p.die) ∧
    (p.port < 4 → p.port ∉ ((s.dies[p.die]?).map (·.idlePorts)).getD [])

/-- A packet enters, its payload and 32 bytes charged; MGMT is not (R360). -/
def entered' (s : State) (p : Packet) : State := if p.cls = .mgmt then s else s.charge p.part p.die 1 p.bytes

/-- What a packet does where it arrives (R357, R358, R363, R371, R375, R377). -/
inductive Delivers (s : State) (p : Packet) : State → Prop
  /-- a message leaves the package -/
  | message m (carries : p.msg = some m) : Delivers s p { s with net := s.net ++ [m] }
  /-- a command's first step is queued at its unit -/
  | call o x (command : p.msg = none) (what : p.what = .command) (op : s.findOp p.id = some o) (kind : o.kind = .nmcall x)
      (runs : x.status = none) : Delivers s p (s.enqueueStep x.ch (.call o.id))
  | share o x (command : p.msg = none) (what : p.what = .command) (op : s.findOp p.id = some o) (kind : o.kind = .gred x) :
      Delivers s p (s.enqueueStep p.ch (.share o.id))
  /-- an IXRED is now the last of those that have arrived -/
  | row o x (command : p.msg = none) (what : p.what = .command) (op : s.findOp p.id = some o) (kind : o.kind = .ixred x) :
      Delivers s p { s with ops := s.ops.filter (fun q => q.id != o.id) ++ [o] }
  /-- a collective too, and it begins where its sequencer is free -/
  | coll o x (command : p.msg = none) (what : p.what = .command) (op : s.findOp p.id = some o) (kind : o.kind = .coll x) :
      Delivers s p (({ s with ops := s.ops.filter (fun q => q.id != o.id) ++ [o] } : State).beginColl x.stack)
  /-- a walk's token is at its next unit -/
  | token o x w (command : p.msg = none) (what : p.what = .token w) (op : s.findOp p.id = some o) (kind : o.kind = .walk x) :
      Delivers s p (s.setOp o.id fun _ => .walk { x with live := updateFirst (fun k => k.w == w) (fun k => { k with ch := p.ch }) x.live })
  /-- the answer of a GRED's share, and the command of a WALK, have arrived: that is all -/
  | arrived o x (command : p.msg = none) (op : s.findOp p.id = some o)
      (kind : o.kind = .gred x ∧ p.what = .answer ∨ ∃ y, o.kind = .walk y ∧ p.what = .command) : Delivers s p s

/-- An agent's packets for an operation within one step (R360): charged to the issuing die. -/
def sends (s : State) (o : EngineOp) (packets payload : Nat) : State := { s.charge o.part o.die packets payload with reqs := s.reqs + 1 }

/-- Two IXREDs of a stack whose pooled rows have bytes in common (R371, log 22). -/
def contend (x y : IxredOp) : Prop := y.stack = x.stack ∧ ∃ p ∈ x.dst, ∃ q ∈ y.dst, p.pa < q.pa + q.n ∧ q.pa < p.pa + p.n

/-- Events of the near-memory units. What base-die agents send for a command is charged to the issuing die, whose counter is above 0
(R360). The payloads of commands, tokens and answers, and how many packets agents send, are the model's (log 22). -/
inductive NearEvents : Instr → State → State → Prop
  /-- R358, R360: the first packet of its queue enters at the stack of its port (R355), which is where it goes. -/
  | inject j s p t (next : nextPacket s j p) (outside : p.at_ = none) (may : mayEnter s p) (goal : s.target p = some p.entry)
      (there : Delivers (entered' (packetGone s j) p) p t) : NearEvents (.rateLimitedInject j) s t
  /-- R356: it goes further, on the virtual channel of no hop. -/
  | injectOnward j s p d (next : nextPacket s j p) (outside : p.at_ = none) (may : mayEnter s p) (goal : s.target p = some d)
      (far : d ≠ p.entry) :
      NearEvents (.rateLimitedInject j) s
        (let t := entered' (packetGone s j) p
         { t with inject := t.inject ++ [{ p with at_ := some (p.entry, 0) }] })
  /-- a hop that is not the last: the packet goes on, one hop further and uncharged -/
  | hop j s p d e h n (next : nextPacket s j p) (inside : p.at_ = some (e, h)) (goal : s.target p = some d)
      (link : (route e d)[0]? = some n) (more : d ≠ n) :
      NearEvents (.rateLimitedInject j) s
        { packetGone s j with inject := (packetGone s j).inject ++ [{ p with at_ := some (n, h + 1) }] }
  /-- the last hop -/
  | hopThere j s p d e h t (next : nextPacket s j p) (inside : p.at_ = some (e, h)) (goal : s.target p = some d)
      (link : (route e d)[0]? = some d) (there : Delivers (packetGone s j) p t) : NearEvents (.rateLimitedInject j) s t
  | injectWaits j s p (next : nextPacket s j p) (outside : p.at_ = none) (stays : ¬mayEnter s p) : NearEvents (.rateLimitedInject j) s s
  /-- R363, R369: NM_FILL's line `k` is written with ARG. -/
  | fill ch s i o x y t (first : (s.nmu ch).queue.head? = some (.call i)) (idle : (s.nmu ch).paused = none) (op : s.findOp i = some o)
      (kind : o.kind = .nmcall x) (fill : x.entry = 0)
      (page : (s.dropSteps ch (· == .call i)).translateFor (6 + x.ch / 32) o.part o.vf (x.addr + BitVec.ofNat 64 x.k * x.stride)
        (fun y => y.w && y.kind != .host) = (.ok y, t))
      (mine : t.channelOf y.pa = x.ch) (runs : x.status = none) (more : x.k + 1 < x.count) (asked : o.cancel = false)
      (credit : 0 < s.creditNow o.part o.die) :
      NearEvents (.nmuStep ch) s
        (((t.basePut o.part y.pa (List.replicate 32 (bytesOfNat 8 x.arg.toNat)).flatten).setOp i fun _ =>
          .nmcall { x with k := x.k + 1 }).enqueueStep ch (.call i))
  /-- R369: with no result to write, the future resolves OK. -/
  | callEnds i s o x (op : s.findOp i = some o) (kind : o.kind = .nmcall x) (in_ : s.injected i = true) (runs : x.status = none)
      (done : x.count ≤ x.k) (noRes : x.res = 0) (asked : o.cancel = false) :
      NearEvents (.nmcallComplete i) s (s.endNear o (o.agent (x.ch / 32)) 0 x.sc x.cw x.cv)
  | callStops i s o x st (op : s.findOp i = some o) (kind : o.kind = .nmcall x) (in_ : s.injected i = true) (stop : x.status = some st)
      (asked : o.cancel = false) :
      NearEvents (.nmcallComplete i) s (s.endNear o (o.agent (x.ch / 32)) st x.sc x.cw x.cv)
  /-- R365: 20 µs in compute mode end the command with NMU_TIMEOUT; the line under way is a read. -/
  | watchdog ch s i o x (queue : (s.nmu ch).queue = [.call i]) (holds : s.stepOf ch = some (.call i))
      (since : (s.nmu ch).run = some (.call i)) (idle : (s.nmu ch).paused = none) (late : (s.nmu ch).since + 20000 ≤ s.time)
      (op : s.findOp i = some o) (kind : o.kind = .nmcall x) (reads : x.entry ≠ 0) (asked : o.cancel = false) :
      NearEvents (.nmuWatchdog ch) s
        ((s.setNmu ch fun u => { u with queue := [], since := s.time }).setOp i fun _ =>
          .nmcall { x with status := some (statusWord 0x40 false ch), acc := none })
  /-- R371: the pooled row is written, then the first counter is incremented; each row read is a request and its data. -/
  | ixred i s o x bs c d (op : s.findOp i = some o) (kind : o.kind = .ixred x) (in_ : s.injected i = true)
      (first : ∀ p ∈ s.ops.takeWhile (fun p => p.id != i), ∀ y, p.kind = .ixred y → s.injected p.id = true → ¬contend x y)
      (pooled : s.pooled x = some bs) (ctr : x.ctr = some (c, d)) (credit : 0 < s.creditNow o.part o.die) :
      NearEvents (.ixredComplete i) s
        (sends (((opGone (s.touch (x.rows.flatten.map (·.pa))) i).basePutPieces o.part x.dst bs).baseIncr o.part c) o (2 * x.rows.length)
          (x.rows.flatten.map (·.n)).sum)
  /-- with an uncorrectable row nothing is written but the second counter -/
  | ixredBad i s o x c d (op : s.findOp i = some o) (kind : o.kind = .ixred x) (in_ : s.injected i = true)
      (first : ∀ p ∈ s.ops.takeWhile (fun p => p.id != i), ∀ y, p.kind = .ixred y → s.injected p.id = true → ¬contend x y)
      (pooled : s.pooled x = none) (ctr : x.ctr = some (c, d)) (credit : 0 < s.creditNow o.part o.die) :
      NearEvents (.ixredComplete i) s
        (sends ((opGone (s.touch (x.rows.flatten.map (·.pa))) i).baseIncr o.part d) o (2 * x.rows.length) (x.rows.flatten.map (·.n)).sum)
  /-- R372: every answer is there. -/
  | gred i s o x e (op : s.findOp i = some o) (kind : o.kind = .gred x) (in_ : ∀ p ∈ s.inject, p.id ≠ i)
      (all : x.shares.length ≤ x.results.length) (here : x.group = s.grp.key) (live : s.grp.live ≠ 0)
      (once : ∀ g ∈ s.groups, g.key ≠ s.grp.key) (res : s.grp.outst.find? (fun e => e.kind == .gred i) = some e) :
      NearEvents (.gredShareReturn i) s ((opGone s i).within s.grp.key .a fun s => s.gredWrite x e)
  /-- R375: walk `w` starts where the command is. -/
  | walkStarts i w s o x (op : s.findOp i = some o) (kind : o.kind = .walk x) (asked : o.cancel = false) (in_ : s.injected i = true)
      (new : ∀ k ∈ x.live, k.w ≠ w) (next : w = x.next) (more : w < x.nw) (good : x.bad = none)
      (slot : ∀ k ∈ x.live, k.w + 2 ^ x.rnlog ≠ w) :
      NearEvents (.walkHop i w) s
        (s.setOp i fun _ => .walk { x with next := w + 1, live := x.live ++ [⟨w, x.ch, 0, 0, [], .start, none⟩] })
  /-- R357: its token goes to the unit that holds its next word -/
  | walkMoves i w s o x k ch (op : s.findOp i = some o) (kind : o.kind = .walk x) (asked : o.cancel = false) (in_ : s.injected i = true)
      (walk : x.live.find? (fun k => k.w == w) = some k) (free : s.walkBusy i w = false) (at_ : s.walkChannel o x k = some ch)
      (away : ch ≠ k.ch) :
      NearEvents (.walkHop i w) s
        { s with inject := s.inject ++ [{ part := o.part, vf := o.vf, die := o.die, bytes := 32, id := o.id, cls := .nmc, port := 4 + k.ch / 32, ch
                                          line := none, msg := none, at_ := none, what := .token w }] }
  /-- and reads it at once there where the unit is idle, or where its address does not translate; or waits in the unit's queue -/
  | walkReads i w s o x k (op : s.findOp i = some o) (kind : o.kind = .walk x) (asked : o.cancel = false) (in_ : s.injected i = true)
      (walk : x.live.find? (fun k => k.w == w) = some k) (free : s.walkBusy i w = false)
      (at_ : s.walkChannel o x k = none ∨ s.walkChannel o x k = some k.ch ∧ (s.nmu k.ch).queue = [])
      (credit : 0 < s.creditNow o.part o.die) : NearEvents (.walkHop i w) s (s.walkReads o x k)
  | walkWaits i w s o x k (op : s.findOp i = some o) (kind : o.kind = .walk x) (asked : o.cancel = false) (in_ : s.injected i = true)
      (walk : x.live.find? (fun k => k.w == w) = some k) (free : s.walkBusy i w = false) (at_ : s.walkChannel o x k = some k.ch)
      (busy : (s.nmu k.ch).queue ≠ []) (room : s.nmuRoom k.ch = true) :
      NearEvents (.walkHop i w) s (s.enqueueStep k.ch (.hop i w))
  /-- R377: one line position, its lines written; the last one ends the collective with OK. -/
  | coll stack s t o x bufs lines (run : s.running stack = some (o, x)) (asked : o.cancel = false) (bufs' : x.bufs = some bufs)
      (valid : x.invalid bufs = none) (read : s.collLines o x bufs = (.ok lines, t)) (idle : t.collPaused lines = false)
      (more : 256 * (x.p + 1) < x.len) (credit : 0 < t.creditNow o.part o.die) :
      NearEvents (.collLine stack) s
        (sends ((lines.foldl (fun s l => s.basePut o.part l.1 l.2) t).setOp o.id fun _ =>
          .coll { x with p := x.p + 1, since := some t.time }) o (2 * bufs.length + lines.length) (256 * (bufs.length + lines.length)))
  | collLast stack s t o x bufs lines (run : s.running stack = some (o, x)) (asked : o.cancel = false) (bufs' : x.bufs = some bufs)
      (valid : x.invalid bufs = none) (read : s.collLines o x bufs = (.ok lines, t)) (idle : t.collPaused lines = false)
      (last : x.len ≤ 256 * (x.p + 1)) (credit : 0 < t.creditNow o.part o.die) :
      NearEvents (.collLine stack) s
        (sends ((lines.foldl (fun s l => s.basePut o.part l.1 l.2) t).endColl o x 0) o (2 * bufs.length + lines.length)
          (256 * (bufs.length + lines.length)))
  /-- R378: 1 ms without a line position end the collective with COLL_TIMEOUT. -/
  | sequencer stack s o x (run : s.running stack = some (o, x)) (late : ∃ t, x.since = some t ∧ t + 1000000 ≤ s.time)
      (unread : x.bufs = none) (alone : ∀ q ∈ s.ops, q.id ≠ o.id → ∀ y, q.kind = .coll y → y.stack ≠ stack ∨ q.vf ≠ o.vf ∨ q.part ≠ o.part ∨ s.injected q.id = false) :
      NearEvents (.sequencerWatchdog stack) s (s.endColl o x (statusWord 0x45 false x.p))
  /-- R379 -/
  | pause ch s (lock : s.lockStep ch = true) (idle : (s.nmu ch).paused = none) :
      NearEvents (.refreshPause ch) s (s.setNmu ch fun u => { u with paused := some s.time })
  | refreshed ch s t (paused : (s.nmu ch).paused = some t) (noColl : ∀ o ∈ s.ops, ∀ x, o.kind ≠ .coll x) :
      NearEvents (.refreshComplete ch) s (s.setNmu ch fun u => { u with paused := none, since := u.since + (s.time - max t u.since) })

end Sys2Proof.Statements
end

