-- ==== Sys2Proof/Statements/Fabric.lean ====
section
/-! DEFINITION. Tables for the statements about other packages: remote accesses, in-switch reduction, demand-scheduled exchange, the
Weaver, package time and ports, and the acknowledgement of a cancel (R414 to R436, R215). -/
namespace Sys2Proof.Statements

open Sys2Proof Sys2Proof.Machine

/-- The lanes of a remote access: peer word and effective address (R420). -/
def farOf (s : State) (g : Option Guard) (off : W32) (a b : VReg) : List Far :=
  (lanesOf (s.active g)).map fun l =>
    ⟨l, (s.vlane a 1 l).extractLsb' 0 32, (s.vlane b 2 l).extractLsb' 0 64 + off.signExtend 64⟩

/-- A remote access passes its checks (R420, R421): alignment, peers, translation, permission, kind. `accs` are its lanes; no earlier access of
the path to one of their lines is out (R423, log 57). -/
structure FarOk (s : State) (g : Option Guard) (ty : Ty) (off : W32) (a b : VReg) (need : RemReply → Bool) (atomic : Bool)
    (accs : List LaneAcc) : Prop where
  some' : s.active g ≠ 0
  al : ∀ x ∈ farOf s g off a b, x.ea.toNat % tyBytes ty = 0
  checks : s.checkFar (farOf s g off a b) need atomic = .ok ()
  lanes : accs = farLanes (farOf s g off a b)
  free : s.farBusy accs = false

/-- Its result becomes outstanding, the path goes on, an acquire at .sys follows under .acq (R422). -/
def farLoad (u : State) (s : State) (g : Option Guard) (ty : Ty) (ord : Order) (d : VReg) (accs : List LaneAcc) (op : Option AtomOp) : State :=
  ((addResult u
    { id := u.nextId, tags := u.tags, cnt := .ld, pos := u.slot.wbase + d.toNat, regs := tyRegs ty, pc := u.pc, pend := s.active g
      full := s.active g, lanes := accs, kind := .remote ty (acquires ord) op }).advance 3).acquireFor ord .sys

/-- Limits of RRED's descriptor (R424): group and number, tag and index, destination, timeout. -/
structure RredOk (s : State) (b : SReg) (n : Nat) (group num tag idx : Nat) : Prop where
  fields : group = (s.rsAt b 0).toNat % 2 ^ 32 ∧ num = (s.rsAt b 0).toNat / 2 ^ 32 % 2 ^ 16 ∧ (s.rsAt b 0).toNat < 2 ^ 48 ∧
    tag = (s.rsAt b 1).toNat % 2 ^ 32 ∧ idx = (s.rsAt b 1).toNat / 2 ^ 32 % 2 ^ 12 ∧ (s.rsAt b 1).toNat < 2 ^ 44
  named : group ≠ 0
  number : 2 ≤ num ∧ num ≤ 4096
  index : idx < num
  dst : (s.rsAt b 2).toNat % (128 * n) = 0
  timeout : 1000 ≤ (s.rsAt b 3).toNat ∧ (s.rsAt b 3).toNat ≤ 1000000000

/-- Limits of DPOST's descriptor (R427). -/
structure DpostOk (s : State) (a : SReg) (group n : Nat) : Prop where
  fields : group = (s.rsAt a 1).toNat % 2 ^ 32 ∧ n = (s.rsAt a 1).toNat / 2 ^ 32 % 2 ^ 13 ∧ (s.rsAt a 1).toNat < 2 ^ 45
  table : (s.rsAt a 0).toNat % 8 = 0
  row : (s.rsAt a 2).toNat % 8 = 0
  count : 2 ≤ n ∧ n ≤ 4096
  tau : 20 ≤ (s.rsAt a 3).toNat ∧ (s.rsAt a 3).toNat ≤ 65535
  zero : s.rsAt a 5 = 0 ∧ s.rsAt a 6 = 0 ∧ s.rsAt a 7 = 0

/-- A membership table's participants: package, partition, VF (R427). -/
def membersOf (mt : List Byte) (n : Nat) : List (Nat × Nat × Nat) :=
  (List.range n).map fun j => let w := field mt (8 * j) 8; (w % 2 ^ 9, w / 2 ^ 9 % 2 ^ 5, w / 2 ^ 14 % 2 ^ 10)

/-- DPOST's membership checks (R427). -/
structure MayPost (s : State) (group round n : Nat) (mt row : List Byte) : Prop where
  granted : ∃ p, s.policyOf s.grp.vf = some p ∧ group ∈ p.xgroups ∧ group ≠ 0
  words : ∀ j < n, field mt (8 * j) 8 < 2 ^ 24
  counts : ∀ j < n, field row (8 * j) 8 < 2 ^ 44
  distinct' : (distinct (membersOf mt n)).length = n
  self : (s.pkg, s.grp.part, s.grp.vf) ∈ membersOf mt n
  new : s.postedOf s.grp.vf s.grp.part group round = none
  room : s.posted.countP (fun p => p.vf == s.grp.vf && p.part == s.grp.part) < 16

/-- Units of a demand row: 4 KiB each, rounded up, none to oneself (R427). -/
def unitsOf (row : List Byte) (n idx : Nat) : List Nat :=
  (List.range n).map fun j => if j = idx then 0 else (field row (8 * j) 8 + 4095) / 4096

/-- The round posted: its row goes to both Weavers. -/
def postedRound (t : State) (id : Nat) (s : State) (f : FReg) (a : SReg) (group round n : Nat) (mt row : List Byte) : State :=
  let members := membersOf mt n
  let idx := members.findIdx fun m => m == (s.pkg, s.grp.part, s.grp.vf)
  let w := weaversOf members
  let m : RowMsg :=
    ⟨s.pkg, s.grp.part, s.grp.vf, w.1, w.2, group, round, n, idx, Config.sm3 mt, (s.rsAt a 3).toNat, (s.rsAt a 4).toNat, unitsOf row n idx⟩
  let t : State := ((t.issueFut f id).startOp id
    (.dpost group round false false s.time)).setCtx s.grp.vf s.grp.part fun c =>
      { c with posted := c.posted.filter (· != (group, round)) }
  let t : State := { t with posted := t.posted ++ [⟨s.grp.vf, s.grp.part, group, round, idx, members, none, 0, false, s.time, s.time⟩] }
  let row (t : State) (standby : Bool) : State :=
    t.sendMsg .mgmt s.grp.part s.grp.vf s.grp.die (s.grp.cluster / 10) 0 (Config.plane w.1 0) none (.row standby m)
  (row (row t false) true).advance 3

/-- What XRUN starts: one outgoing and one incoming stream per other participant (R433). -/
def xrunOf (s : State) (a : SReg) (p : Posted) (send recv : List Byte) : XrunOp :=
  let others := (List.range p.members.length).filter fun j => j != p.idx
  { group := (s.rsAt a 0).toNat % 2 ^ 32, round := (s.rsAt a 0).toNat / 2 ^ 32, port := s.grp.cluster / 10, timeout := (s.rsAt a 3).toNat, cw := s.rsAt a 4
    cv := s.rsAt a 5, issued := s.time
    outs := others.map fun j => { dst := j, va := BitVec.ofNat 64 (field send (16 * j) 8), count := field send (16 * j + 8) 8 }
    ins := others.map fun j => { src := j, va := BitVec.ofNat 64 (field recv (16 * j) 8), cap := field recv (16 * j + 8) 8 } }

/-- XRUN of a round whose calendar has not come (R433, R434): it waits for it. -/
structure XrunOk (s : State) (f : FReg) (a : SReg) (p : Posted) (send recv : List Byte) (v : State) : Prop where
  fut : (s.fut f).open = true
  tables : (s.rsAt a 1).toNat % 16 = 0 ∧ (s.rsAt a 2).toNat % 16 = 0
  timeout : 1000 ≤ (s.rsAt a 3).toNat ∧ (s.rsAt a 3).toNat ≤ 1000000000
  cw : (s.rsAt a 4).toNat % 8 = 0
  zero : s.rsAt a 6 = 0 ∧ s.rsAt a 7 = 0
  round : s.postedOf s.grp.vf s.grp.part ((s.rsAt a 0).toNat % 2 ^ 32) ((s.rsAt a 0).toNat / 2 ^ 32) = some p
  once : p.ran = false
  words : ∃ ps, s.checkAll ([⟨s.rsAt a 1, 16 * p.members.length, (·.r), anyKind⟩, ⟨s.rsAt a 2, 16 * p.members.length, (·.r), anyKind⟩] ++
    cwCheck (s.rsAt a 4) anyKind) = .ok ps
  read : ∃ t u, s.loadTable (s.rsAt a 1) (16 * p.members.length) = .ok (send, t) ∧
    t.loadTable (s.rsAt a 2) (16 * p.members.length) = .ok (recv, u) ∧ u.release .pkg = .ok v
  buffers : ∀ j ∈ (List.range p.members.length).filter (fun j => j != p.idx),
    (BitVec.ofNat 64 (field send (16 * j) 8)).toNat % 32 = 0 ∧ (BitVec.ofNat 64 (field recv (16 * j) 8)).toNat % 32 = 0
  alone : ∀ o ∈ s.ops, o.vf = s.grp.vf → o.part = s.grp.part → ∀ x, o.kind ≠ .xrun x

/-- The run issued: its future pending, its round running. -/
def xrunIssued (s v : State) (f : FReg) (a : SReg) (p : Posted) (send recv : List Byte) : State :=
  (((({ v with nextId := v.nextId + 1 } : State).issueFut f v.nextId).startOp v.nextId (.xrun (xrunOf s a p send recv))).setPosted s.grp.vf
    s.grp.part ((s.rsAt a 0).toNat % 2 ^ 32) ((s.rsAt a 0).toNat / 2 ^ 32) fun p => { p with ran := true }).advance 1

/-- The state after XRUN: a calendar that has come already is taken up at once. -/
def xrunStarted (s v : State) (f : FReg) (a : SReg) (p : Posted) (send recv : List Byte) : State :=
  let t := xrunIssued s v f a p send recv
  match t.xrunAt v.nextId with
  | some (o, x, p) => t.beginXrun o x p
  | none => t

/-- Instructions that reach other packages (R420 to R435). -/
inductive Fabrics : Instr → State → State → Prop
  | remld g ty sc ord off d a b s accs (regs : s.vcheck [(a, 1), (b, 2)] [(d, tyRegs ty)] = .ok ()) (room : s.cnt .ld < 63)
      (ok : FarOk s g ty off a b (·.r) false accs) :
      Fabrics (.remld g ty sc ord off d a b) s
        (farLoad (s.sendPeer s.grp.here (tyBytes ty) accs fun _ => .load) s g ty ord d accs none)
  | remst g ty sc ord off d a b s accs u (regs : s.vcheck [(a, 1), (b, 2), (d, tyRegs ty)] [] = .ok ()) (room : s.cnt .st < 63)
      (ok : FarOk s g ty off a b (·.w) false accs) (rel : s.releaseFor ord .sys = .ok u) :
      Fabrics (.remst g ty sc ord off d a b) s
        (let vals := u.withData d (tyRegs ty) accs
         let v := u.sendPeer u.grp.here (tyBytes ty) vals fun l => .store (bytesOfNat (tyBytes ty) l.data.toNat)
         (queued v .st (.remote ty vals)).advance 3)
  | rematom g ty sc ord op off d a b c s accs u
      (regs : s.vcheck ([(a, 1), (b, 2), (d, tyRegs ty)] ++ if op = .cas then [(c, tyRegs ty)] else []) [(d, tyRegs ty)] = .ok ())
      (room : s.cnt .ld < 63) (ok : FarOk s g ty off a b (fun r => r.r && r.w) true accs) (rel : s.releaseFor ord .sys = .ok u) :
      Fabrics (.rematom g ty sc ord op off d a b c) s
        (let vals := u.withOperands d c (tyRegs ty) accs
         farLoad (u.sendPeer u.grp.here (tyBytes ty) vals fun l => .atomic op ty l.data l.cmp) s g ty ord d vals (some op))
  /-- R424: the contribution goes to the switch; a lane outside the active set contributes the value of an empty set. -/
  | rred g ty op f a b s ps group num tag idx p (regs : s.vcheck [(a, tyRegs ty)] [] = .ok ()) (fut : (s.fut f).open = true)
      (ok : RredOk s b (tyRegs ty) group num tag idx) (policy : s.policyOf s.grp.vf = some p) (granted : group ∈ p.xgroups)
      (words : s.checkAll [⟨s.rsAt b 2, 128 * tyRegs ty, (·.w), anyKind⟩] = .ok ps) (room : s.rredCount s.grp.die < 64)
      (synced : s.synced = true) :
      Fabrics (.rred g ty op f a b) s
        (let t : State := (({ s with nextId := s.nextId + 1 } : State).issueFut f s.nextId).startOp s.nextId (.rred group tag idx (s.rsAt b 2) ty)
         let vals := (List.range 32).map fun l =>
           if (s.active g).getLsbD l then (s.vlane a (tyRegs ty) l).extractLsb' 0 64 else BitVec.ofNat 64 (rredEmpty op ty)
         (t.sendMsg .req s.grp.part s.grp.vf s.grp.die (s.grp.cluster / 10) (32 * tyBytes ty) tag none
           (NetMsg.rred ⟨group, tag, num, idx, op, ty, (s.rsAt b 3).toNat, vals, s.pkg, s.nextId⟩)).advance 3)
  | dpost round f a s ps group n mt row t u v (fut : (s.fut f).open = true) (ok : DpostOk s a group n)
      (words : s.checkAll [⟨s.rsAt a 0, 8 * n, (·.r), anyKind⟩, ⟨s.rsAt a 2, 8 * n, (·.r), anyKind⟩] = .ok ps)
      (table : s.loadTable (s.rsAt a 0) (8 * n) = .ok (mt, t)) (demand : t.loadTable (s.rsAt a 2) (8 * n) = .ok (row, u))
      (may : MayPost s group round.toNat n mt row) (synced : s.synced = true)
      (rel : ({ u with nextId := u.nextId + 1 } : State).release .pkg = .ok v) :
      Fabrics (.dpost round f a) s
        (postedRound v u.nextId s f a group round.toNat n mt row)
  /-- R432: before a calendar has come, the operation waits for it. -/
  | xcal f a s ps p (fut : (s.fut f).open = true) (al : (s.rsAt a 1).toNat % 8 = 0)
      (zero : s.rsAt a 3 = 0 ∧ s.rsAt a 4 = 0 ∧ s.rsAt a 5 = 0 ∧ s.rsAt a 6 = 0 ∧ s.rsAt a 7 = 0)
      (round : s.postedOf s.grp.vf s.grp.part ((s.rsAt a 0).toNat % 2 ^ 32) ((s.rsAt a 0).toNat / 2 ^ 32) = some p)
      (words : s.checkAll (if s.rsAt a 2 = 0 then [] else [⟨s.rsAt a 1, (s.rsAt a 2).toNat, (·.w), anyKind⟩]) = .ok ps)
      (open' : p.cal = none) :
      Fabrics (.xcal f a) s
        (((({ s with nextId := s.nextId + 1 } : State).issueFut f s.nextId).startOp s.nextId
          (.xcal ((s.rsAt a 0).toNat % 2 ^ 32) ((s.rsAt a 0).toNat / 2 ^ 32) (s.rsAt a 1) (s.rsAt a 2).toNat)).advance 1)
  | xrun f a s p send recv v (ok : XrunOk s f a p send recv v) : Fabrics (.xrun f a) s (xrunStarted s v f a p send recv)

/-- An instance of a reduction. -/
def instanceOf (s : State) (m : RredMsg) : RredInst :=
  (s.rreds.find? fun y => y.group == m.group && y.tag == m.tag).getD ⟨m.group, m.tag, s.time, []⟩

/-- The other instances. -/
def otherRreds (s : State) (m : RredMsg) : List RredInst := s.rreds.filter fun y => !(y.group == m.group && y.tag == m.tag)

/-- Contributions to one instance agree (R425): number, operation, type, timeout, indexes apart. -/
def agreeing (m : RredMsg) (x : RredInst) : Prop :=
  ∀ y ∈ x.msgs, y.n = m.n ∧ y.op = m.op ∧ y.ty = m.ty ∧ y.timeout = m.timeout ∧ y.idx ≠ m.idx

/-- Bytes that an entry of a calendar carries (R434): 4,096 a unit, or what is left of its stream, when it begins at its START; later, as many
whole sectors of them as there was time for (log 25). -/
def carried (s : State) (e : CalEntry) (j : XStream) : Nat :=
  if s.time ≤ e.start ∨ Config.choice s.tick 0xD000 % 2 = 0 then min (4096 * e.units) j.left
  else min (min (4096 * e.units) j.left) (32 * Config.choice s.tick 0xD001)

/-- Bytes of a stream in packets of up to 4 KiB of class XCH, in ascending order, charged to the sender (R357, R360, R434); the end marker
follows the last byte. -/
def streamed (u : State) (o : EngineOp) (port : Nat) (p : Posted) (j : XStream) (bs : List Byte) : State :=
  let n := (bs.length + 4095) / 4096
  let v := (List.range n).foldl
    (fun (v : State) k =>
      let m := p.packet j.dst (.data (j.sent + 4096 * k) ((bs.drop (4096 * k)).take 4096))
      v.inject_
        { part := o.part, vf := o.vf, die := o.die, bytes := 0, id := 0, cls := .xch, port, ch := Config.plane ((m.dest).getD 0) 0 % v.planesP } m)
    ({ u.charge o.part o.die n bs.length with reqs := u.reqs + n } : State)
  if j.count ≤ j.sent + bs.length then v.sendMarker o port p { j with sent := j.sent + bs.length } false else v

/-- A stream that has sent more bytes: its end marker has gone with the last one. -/
def streamAfter (j : XStream) (n : Nat) : XStream := { j with sent := j.sent + n, marked := decide (j.count ≤ j.sent + n) }

/-- A stream still open: bytes left, none refused, its buffer readable so far, not everything acknowledged. -/
structure Streaming (j : XStream) : Prop where
  unmarked : j.marked = false
  good : j.fault = false ∧ j.readErr = false ∧ j.refused = false
  owed : j.acked < j.count

/-- A message that a base die of this package sends for a context to the package from which a request came. -/
def answered (t : State) (req : RemReq) (stack bytes : Nat) (m : NetMsg) : State := t.answerFrom stack req.part req.vf bytes (req.off / 256) m

/-- Whether the standby has lost the primary Weaver of a package (R431): three heartbeats missed, none of its rounds issued yet. -/
def primaryLost (w : Nat × Duty) : Bool := w.2.primary && decide (3 ≤ w.2.missed)

/-- A round that the standby holds for a primary it has lost. -/
def heldForLost (s : State) (r : Round) : Bool := r.standby && r.state == .held && s.weavers.any fun w => primaryLost w && w.1 == r.prim

/-- The external ports in a new condition (R414): packets already on their way to a port that is no longer theirs leave the package, in order;
the plane is drained. -/
def portsChanged (s : State) (bad : List Nat) (port : Nat) : State :=
  let t : State := { s with badPorts := bad }
  { t with
    inject := s.inject.filter fun p => !s.rerouted t p
    net := s.net ++ (s.inject.filter (s.rerouted t)).filterMap (·.msg) ++ [.drainedPlane (port % s.planesP)] }

/-- Events of the fabric. -/
inductive FabricEvents : Instr → State → State → Prop
  /-- R419: the answer of another package's root, a mapped page: it is entered, and the die's waiting paths try again. -/
  | fill j reply s e (at_ : s.rtlb[j]? = some e) (open' : e.reply = none) (far : e.peer ≠ s.pkg)
      (mapped : reply.reached = true ∧ reply.mapped = true) :
      FabricEvents (.remoteTlbFill j reply) s (({ s with rtlb := s.rtlb.set j { e with reply := some reply } } : State).retryDie e none)
  /-- R419: a failed fill is not cached; the waiting paths of its context learn it. -/
  | fillFails j reply s e (at_ : s.rtlb[j]? = some e) (open' : e.reply = none) (far : e.peer ≠ s.pkg)
      (failed : reply.reached = false ∨ reply.mapped = false) :
      FabricEvents (.remoteTlbFill j reply) s (({ s with rtlb := dropAt s.rtlb j } : State).retryDie e (some reply.reached))
  | fillTimeout j s e (at_ : s.rtlb[j]? = some e) (open' : e.reply = none) (late : e.since + 50000 ≤ s.time) :
      FabricEvents (.remoteTlbTimeout j) s (({ s with rtlb := dropAt s.rtlb j } : State).retryDie e (some false))
  /-- R418, R419: the root answers a fill of another package through the exporting context. -/
  | arrivalFill req s t y (fill : req.kind = .fill) (peer : s.exportsTo req.vf req.part req.srcPkg req.srcVf req.srcPart = true)
      (page : s.exportMap req.vf req.part req.off = (.ok y, t)) :
      FabricEvents (.remoteAccessArrival req) s (answered t req 0 0 (.fillReply req.srcPkg ⟨true, true, y.r, y.w, y.kind⟩))
  /-- R418, R423: a load of another package is performed at a base die, and answered. -/
  | arrivalLoad req s t y (load : req.kind = .load) (peer : s.exportsTo req.vf req.part req.srcPkg req.srcVf req.srcPart = true)
      (page : s.exportMap req.vf req.part req.off = (.ok y, t)) (r : y.r = true) (kind : y.kind ≠ .host) :
      FabricEvents (.remoteAccessArrival req) s
        (answered (t.touch [y.pa]) req (t.stackOf y.pa) req.n
          (.remoteReply req.srcPkg req.n (BitVec.ofNat 128 (natOfBytes (memRead t.mem y.pa req.n))) (t.baseBad y.pa req.n)))
  | arrivalStore req s t y bs (store : req.kind = .store bs) (peer : s.exportsTo req.vf req.part req.srcPkg req.srcVf req.srcPart = true)
      (page : s.exportMap req.vf req.part req.off = (.ok y, t)) (w : y.w = true) (kind : y.kind ≠ .host) :
      FabricEvents (.remoteAccessArrival req) s
        (answered (t.basePut req.part y.pa bs) req (t.stackOf y.pa) 0 (.remoteReply req.srcPkg req.n 0 false))
  /-- R423: an atomic is one indivisible step at the base die of its word; the old value goes back. -/
  | arrivalAtomic req s t y op ty b c bs u (atomic : req.kind = .atomic op ty b c)
      (peer : s.exportsTo req.vf req.part req.srcPkg req.srcVf req.srcPart = true)
      (page : s.exportMap req.vf req.part req.off = (.ok y, t)) (rw : y.r = true ∧ y.w = true) (kind : y.kind = .atomicHome)
      (read : t.readPiece (agentHere (t.stackOf y.pa) req.part req.vf) false .dflt ⟨y.pa, tyBytes ty, .atomicHome⟩ = (bs, false, u)) :
      FabricEvents (.remoteAccessArrival req) s
        (answered (u.storePiece (agentHere (t.stackOf y.pa) req.part req.vf) .die .dflt ⟨y.pa, tyBytes ty, .atomicHome⟩
            (bytesOfNat (tyBytes ty) (atomNew op ty (natOfBytes bs) (b.toNat % 2 ^ tyBits ty) (c.toNat % 2 ^ tyBits ty)))) req
          (t.stackOf y.pa) (tyBytes ty) (.remoteReply req.srcPkg req.n (BitVec.ofNat 128 (natOfBytes bs)) false))
  /-- R418: a context that does not export to the sender is not touched. -/
  | arrivalRefused req s k (access : req.kind = k) (data : k ≠ .fill)
      (peer : s.exportsTo req.vf req.part req.srcPkg req.srcVf req.srcPart = false) :
      FabricEvents (.remoteAccessArrival req) s (answered s req 0 (replyBytes req) (.remoteReply req.srcPkg req.n 0 true))
  /-- R425: a contribution that agrees with the ones before it waits for the rest; the last one completes the instance. -/
  | contribution m s (far : m.pkg ≠ s.pkg) (synced : s.synced = true) (agree : agreeing m (instanceOf s m))
      (few : (instanceOf s m).msgs.length + 1 < m.n) :
      FabricEvents (.rredContribution m) s
        { s with rreds := otherRreds s m ++ [{ instanceOf s m with msgs := (instanceOf s m).msgs ++ [m] }] }
  | contributionLast m s (far : m.pkg ≠ s.pkg) (synced : s.synced = true) (agree : agreeing m (instanceOf s m))
      (all : m.n ≤ (instanceOf s m).msgs.length + 1) :
      FabricEvents (.rredContribution m) s
        (((instanceOf s m).msgs ++ [m]).foldl (fun s x => s.rredSend x 0 (rredResult ((instanceOf s m).msgs ++ [m]) m.op m.ty))
          { s with rreds := otherRreds s m })
  | rredTimeout j s x m (at_ : s.rreds[j]? = some x) (first : x.msgs.head? = some m) (late : x.first + m.timeout ≤ s.time) :
      FabricEvents (.rredTimeout j) s (s.rredAbort x 0)
  /-- R436: a package is lost. -/
  | lost p s (far : p ≠ s.pkg) (new : p ∉ s.lostPkgs) (none : s.rreds = []) (alone : s.groups = []) (dead : s.grp.live = 0) :
      FabricEvents (.packageLost p) s (({ s with lostPkgs := p :: s.lostPkgs } : State).loseStores p)
  /-- R427: a row of another package reaches a Weaver of this one, and is acknowledged. -/
  | row standby m s (far : m.pkg ≠ s.pkg) (here : (if standby then m.stby else m.prim) = s.pkg) (synced : s.synced = true)
      (alive : s.weaverAlive standby = true) (holds : standby = true ∨ (s.weaverOf s.pkg).primary = true) :
      FabricEvents (.weaverRowArrival standby m) s
        ((s.takeRow standby m).answerFrom (weaverStack standby) 31 0 0 0 (.rowAck m.pkg m.group m.round standby))
  /-- R431: after a takeover the primary takes no rows. -/
  | rowRefused m s (far : m.pkg ≠ s.pkg) (here : m.prim = s.pkg) (after : (s.weaverOf s.pkg).primary = false) :
      FabricEvents (.weaverRowArrival false m) s s
  /-- R430: 10 ms without all rows: an abort goes to those that posted. -/
  | collectTimeout j s r (at_ : s.rounds[j]? = some r) (open' : r.state = .collecting) (late : r.first + 10000000 ≤ s.time)
      (alive : s.weaverAlive r.standby = true) :
      FabricEvents (.weaverCollectTimeout j) s
        (({ s with rounds := s.rounds.set j { r with state := .done } } : State).sendFrom (weaverStack r.standby)
          (r.rows.map fun m => .calendar ⟨m.pkg, m.group, m.round, m.vf, m.part, m.n, m.idx, true, .abort⟩))
  /-- R431: after three missed heartbeats of a primary the standby issues what it holds of its rounds (log 24). -/
  | takeover s (missed : ∃ w ∈ s.weavers, primaryLost w = true) (alive : s.weaverAlive true = true) :
      FabricEvents .weaverTakeover s
        (({ s with
            weavers := s.weavers.map fun w => if primaryLost w then (w.1, { w.2 with primary := false }) else w
            rounds := s.rounds.map fun r => if heldForLost s r then { r with state := .issuing } else r } : State).sendFrom 6
          ((s.rounds.filter (heldForLost s)).flatMap fun r => r.cals.map NetMsg.calendar))
  /-- R431: the first complete calendar of a round that no operation waits for is kept. -/
  | calendar m s p (sent : NetMsg.calendar m ∉ s.net) (here : m.pkg = s.pkg) (synced : s.synced = true)
      (round : s.postedOf m.vf m.part m.group m.round = some p) (far : (weaversOf p.members).1 ≠ s.pkg) (open' : p.cal = none)
      (whole : m.complete = true) (noOps : s.ops = []) :
      FabricEvents (.calendarArrival m) s
        (s.setPosted m.vf m.part m.group m.round fun _ => { p with cal := some m.body, accepted := s.time })
  /-- R434: a Weaver answers for an open round. -/
  | query j s p (at_ : s.posted[j]? = some p) (open' : p.cal = none) (due : p.asked + 100000 ≤ s.time) :
      FabricEvents (.weaverQuery j true) s
        (let t := s.sendFrom 0 [.query (weaversOf p.members).1 p.group p.round, .query (weaversOf p.members).2 p.group p.round]
         { t with posted := t.posted.set j { p with answered := t.time, asked := t.time } })
  /-- R434: an entry that has ended before the first usable instant carries nothing. -/
  | slotLate i k s o x p es tau st e j (run : s.xrunAt i = some (o, x, p)) (plan : p.plan = some (es, tau, st)) (entry : es[k]? = some e)
      (out : x.outs.find? (fun j => j.dst == e.dest) = some j) (new : ∀ y ∈ x.started, y.1 ≠ k)
      (begun : max e.start (max p.accepted x.issued) ≤ s.time) (late : e.start + tau * e.units ≤ s.time) (goesOn : o.cancel = false)
      (order : x.behind es k e.dest = false) :
      FabricEvents (.xchSlotStart i k) s (s.setOp i fun _ => .xrun { x with started := x.started ++ [(k, 0)] })
  /-- R434: an entry that begins in time carries the next bytes of its stream to its destination. -/
  | slotCarries i k s o x p es tau st e j bs u (run : s.xrunAt i = some (o, x, p)) (plan : p.plan = some (es, tau, st)) (entry : es[k]? = some e)
      (out : x.outs.find? (fun j => j.dst == e.dest) = some j) (new : ∀ y ∈ x.started, y.1 ≠ k)
      (begun : max e.start (max p.accepted x.issued) ≤ s.time) (inTime : s.time < e.start + tau * e.units)
      (full : j.short = false) (goesOn : o.cancel = false) (order : x.behind es k e.dest = false)
      (credit : 0 < s.creditNow o.part o.die) (stream : Streaming j) (bytes : s.readBuffer o j.va j.sent (carried s e j) = (bs, none, u)) :
      FabricEvents (.xchSlotStart i k) s
        ((streamed u o x.port p j bs).setOp o.id fun _ =>
          .xrun ({ x with started := x.started ++ [(k, bs.length)] }.putOut (streamAfter j bs.length)))
  | slotEnd i k s o x p es tau st e j n (run : s.xrunAt i = some (o, x, p)) (plan : p.plan = some (es, tau, st)) (entry : es[k]? = some e)
      (out : x.outs.find? (fun j => j.dst == e.dest) = some j) (begun : x.started.find? (fun y => y.1 == k) = some (k, n))
      (new : k ∉ x.ended) (over' : e.start + tau * e.units ≤ s.time) :
      FabricEvents (.xchSlotEnd i k) s
        (s.setOp i fun _ => .xrun ({ x with ended := k :: x.ended }.putOut
          { j with short := j.short || decide (0 < j.left ∧ n < 4096 * e.units) }))
  /-- R434: with nothing left to send, the overflow sends nothing. -/
  | overflow i s o x p es tau st (run : s.xrunAt i = some (o, x, p)) (plan : p.plan = some (es, tau, st))
      (begun : max st (max p.accepted x.issued) ≤ s.time) (all : ∀ k < es.length, ∃ y ∈ x.started, y.1 = k) (sent : ∀ j ∈ x.outs, j.left = 0)
      (more : x.complete = false) (goesOn : o.cancel = false) : FabricEvents (.xchOverflowStart i) s (s.setOp o.id fun _ => .xrun x)
  /-- R434: the overflow sends what no entry has carried. -/
  | overflowSends i s o x p es tau st pre j post bs u (run : s.xrunAt i = some (o, x, p)) (plan : p.plan = some (es, tau, st))
      (begun : max st (max p.accepted x.issued) ≤ s.time) (all : ∀ k < es.length, ∃ y ∈ x.started, y.1 = k) (goesOn : o.cancel = false)
      (outs : x.outs = pre ++ j :: post) (others : ∀ y ∈ pre ++ post, y.left = 0 ∧ y.dst ≠ j.dst) (left : 0 < j.left)
      (credit : 0 < s.creditNow o.part o.die) (stream : Streaming j) (bytes : s.readBuffer o j.va j.sent j.left = (bs, none, u)) :
      FabricEvents (.xchOverflowStart i) s
        ((streamed u o x.port p j bs).setOp o.id fun _ =>
          .xrun { x with outs := pre ++ { streamAfter j bs.length with late := true } :: post })
  | xrunTimeout i s o x p es tau st (run : s.xrunAt i = some (o, x, p)) (plan : p.plan = some (es, tau, st)) (late : st + x.timeout ≤ s.time)
      (missing : s.missing p x ≠ []) : FabricEvents (.xrunTimeout i) s (s.endXrun o x (x.status (s.missing p x)))
  /-- R434: bytes of another package for a context that has not posted the round are refused. -/
  | dataRefused m s off bs (far : m.sender.1 ≠ s.pkg) (data : m.body = .data off bs) (synced : s.synced = true) (none : s.runOf m = none)
      (closed : ∀ c, s.ctx m.vf m.part = some c → (m.group, m.round) ∉ c.posted) (fresh : NetMsg.xch s.pkg m ∉ s.net)
      (first : s.early m = false) :
      FabricEvents (.xchDataArrival m) s
        (s.answerFrom 0 m.part m.vf 0 0 (.xch m.sender.1
          { m with sender := (s.pkg, m.part, m.vf), vf := m.sender.2.2, part := m.sender.2.1, body := .refused }))
  /-- R434: bytes of another package that come in their order are written at the base dies, and acknowledged. -/
  | dataPlaced m s off bs o x q u (far : m.sender.1 ≠ s.pkg) (data : m.body = .data off bs) (synced : s.synced = true)
      (run : s.runOf m = some (o, x)) (source : x.ins.find? (fun q => q.src == m.src) = some q) (order : q.got = off)
      (open' : q.marked = false ∧ q.fault = false) (some' : bs ≠ []) (room : q.got + bs.length ≤ q.cap) (fresh : NetMsg.xch s.pkg m ∉ s.net)
      (first : s.early m = false)
      (write : s.writeSectors (agentHere 0 o.part o.vf) .pkg (q.va + BitVec.ofNat 64 q.got) bs = (true, u)) :
      FabricEvents (.xchDataArrival m) s
        ((u.setOp o.id fun _ =>
          .xrun { x with ins := updateFirst (fun y => y.src == q.src) (fun _ => { q with got := q.got + bs.length }) x.ins }).backTo m
            (.ack (q.got + bs.length)))
  /-- R434: bytes that come after refused ones are refused too. -/
  | dataGap m s off bs o x q (far : m.sender.1 ≠ s.pkg) (data : m.body = .data off bs) (synced : s.synced = true)
      (run : s.runOf m = some (o, x)) (source : x.ins.find? (fun q => q.src == m.src) = some q) (gap : off ≠ q.got)
      (fresh : NetMsg.xch s.pkg m ∉ s.net) (first : s.early m = false) : FabricEvents (.xchDataArrival m) s (s.backTo m .refused)
  /-- R434: an end marker counts once all bytes before it are here; the run ends when it has everything. -/
  | marker m s c n o x q (far : m.sender.1 ≠ s.pkg) (marker : m.body = .marker c n) (synced : s.synced = true)
      (run : s.runOf m = some (o, x)) (source : x.ins.find? (fun q => q.src == m.src) = some q) (all : n ≤ q.got)
      (fresh : NetMsg.xch s.pkg m ∉ s.net) (first : s.early m = false) :
      FabricEvents (.xchDataArrival m) s
        (s.putXrun o { x with
          ins := updateFirst (fun y => y.src == q.src) (fun _ => { q with marked := true, cancelled := q.cancelled || c }) x.ins })
  /-- R427: 100 µs after the row went out. -/
  | dpostTimeout i s o group round p b t (op : s.findOp i = some o) (kind : o.kind = .dpost group round p b t) (late : t + 100000 ≤ s.time) :
      FabricEvents (.dpostAcknowledgeTimeout i) s
        (s.endOp o (if p then statusWord 0 false 2 else if b then statusWord 0 false 1 else statusWord 0x86 false 0) .pkg 0 0)
  /-- R416: once within the bound, the package stays synchronised. -/
  | clock master s (lowest : master ≤ s.pkg) (reached : master ∉ s.lostPkgs) :
      FabricEvents (.clockSync master true) s { s with synced := true }
  | clockNot master b s (not : b = false ∨ s.pkg < master ∨ master ∈ s.lostPkgs) : FabricEvents (.clockSync master b) s s
  | portFails p s (port : p < 24) (worked : p ∉ s.badPorts) :
      FabricEvents (.externalPortChange p false) s (portsChanged s (p :: s.badPorts) p)
  | portWorks p s (port : p < 24) (failed : p ∈ s.badPorts) :
      FabricEvents (.externalPortChange p true) s (portsChanged s (s.badPorts.filter (· != p)) p)
  | heartRoot k missed rs s (inst : k < 2) : FabricEvents (.heartbeat (.root k) missed rs) s { s with roots := ⟨k == 0, missed⟩ }
  | heartRegulator missed rs s : FabricEvents (.heartbeat .regulator missed rs) s { s with regulator := { s.regulator with missed } }
  | heartSync missed rs s : FabricEvents (.heartbeat .syncEngine missed rs) s { s with syncEngine := { s.syncEngine with missed } }
  | heartWeaver pkg missed rs s (some' : missed ≠ 0) :
      FabricEvents (.heartbeat (.weaver pkg) missed rs) s (s.setWeaver pkg { s.weaverOf pkg with missed })
  /-- R215: the engine has stopped; its future becomes idle, its tiles THREAD, and the path goes on. -/
  | cancel i s o (asked : i ∈ s.stopping) (op : s.findOp i = some o) :
      FabricEvents (.cancelAcknowledge i) s ((({ s with stopping := s.stopping.filter (· != i) } : State).cancelOp o).acknowledge i)

end Sys2Proof.Statements
end

