-- ==== Sys2Proof/Statements/Matrix.lean ====
section
/-! DEFINITION. Tables for the statements about the matrix engine and the tile store: planes, tiles, the reservation table and the
events that serve it (R221 to R242). -/
namespace Sys2Proof.Statements

open Sys2Proof Sys2Proof.Machine

/-- Room in the cluster's reservation table, and on TL where the entry counts (R130, R228). -/
def tableOpen (s : State) (counts : Bool) : Prop :=
  s.rtab.countP (fun e => e.die == s.grp.die && e.cluster == s.grp.cluster) < Config.tableEntries ∧ (counts = true → s.cnt .tl < 63)

/-- An entry of the path, as the last of the table. -/
def entered (s : State) (k : TabKind) : State :=
  let g := s.grp
  { s with
    nextId := s.nextId + 1
    rtab := s.rtab ++ [⟨s.nextId, g.die, g.cluster, g.bank, g.gang, g.key, s.tags, g.level, false, k, 0⟩] }

/-- The plane pair of the current group's bank and cluster, and who holds it. -/
def pairHere (s : State) (q : Nat) : Option PlanePair := s.pair s.grp.die s.grp.cluster s.grp.bank q

/-- The handle in a register is one of the gang's tiles (R239). -/
def ownTile (s : State) (a : SReg) : Prop := (s.gang s.grp.gang).alloc.getD (s.rs a).toNat false = true

/-- The forms of a quarter: MMQ and MMQS (R234, R235). -/
inductive QuarterForm : Instr → Bool → BitVec 2 → BitVec 2 → BitVec 2 → Ty → Bool → SReg → VReg → SReg → Prop
  | mmq q fus n ty sn t a b : QuarterForm (.mmq q fus n ty sn t a b) false q fus n ty sn t a b
  | mmqs q fus n ty sn t a b : QuarterForm (.mmqs q fus n ty sn t a b) true q fus n ty sn t a b

/-- The rows of a quarter: active lanes 8n to 8n + 7. -/
def quarterRows (s : State) (n : BitVec 2) : List Nat := (lanesOf s.slot.mask).filter fun l => decide (l / 8 = n.toNat)

/-- The handles that T names, one byte each. -/
def quarterTiles (s : State) (t : SReg) (fus : Nat) : List Nat :=
  (List.range (tilesOf fus)).map fun i => (s.rs t).toNat / 2 ^ (8 * i) % 256

/-- The words of A that a row holds. -/
def quarterWords (s : State) (a : VReg) (regs l : Nat) : List W32 :=
  (List.range regs).map fun i => (s.vlane (a + BitVec.ofNat 6 i) 1 l).extractLsb' 0 32

/-- The format runs on the group's die: every one in full service, FP16 and BF16 in reduced service (R1, R409). -/
def formatRuns (s : State) (ty : Ty) : Prop := (s.die s.grp.die).fullService = true ∨ ty = .f16 ∨ ty = .bf16

/-- Instructions of the matrix engine and the tile store. -/
inductive Matrices : Instr → State → State → Prop
  /-- R225: the source tiles are ENGINE's until the load ends; an unbound plane pair binds to the gang. -/
  | ldstat q ty f a s (format : formatRuns s ty) (fut : (s.fut f).open = true) (al : (s.rs a).toNat % 1024 = 0)
      (inside : (s.rs a).toNat + 1024 * planeTiles ty ≤ (s.gang s.grp.gang).shared)
      (tiles : threadTiles s (s.rs a).toNat (1024 * planeTiles ty)) (own : ∀ p, pairHere s q.toNat = some p → p.gang = s.grp.gang)
      (room : tableOpen s false) :
      Matrices (.ldstat q ty f a) s
        (let t : State := { s with
          nextId := s.nextId + 1
          planes := if (pairHere s q.toNat).isSome then s.planes
            else s.planes ++ [⟨s.grp.die, s.grp.cluster, s.grp.bank, q.toNat, s.grp.gang, {}, {}⟩] }
         (((t.flipTiles s.grp.gang s.nextId (localTiles (s.rs a).toNat (1024 * planeTiles ty))).issueFut f s.nextId).enterTable s.nextId
           (.ldstat q.toNat ty (s.rs a).toNat s.nextId s.nextId)).advance 3)
  /-- R226: another gang of the bank holds the quadrant. -/
  | ldstatBusy q ty f a s p (format : formatRuns s ty) (fut : (s.fut f).open = true) (al : (s.rs a).toNat % 1024 = 0)
      (inside : (s.rs a).toNat + 1024 * planeTiles ty ≤ (s.gang s.grp.gang).shared)
      (tiles : threadTiles s (s.rs a).toNat (1024 * planeTiles ty)) (held : pairHere s q.toNat = some p) (other : p.gang ≠ s.grp.gang) :
      Matrices (.ldstat q ty f a) s ((s.settleFut f ⟨.resolved, 0x02, 0⟩).advance 3)
  | swap q s p (own : pairHere s q.toNat = some p) (mine : p.gang = s.grp.gang) (room : tableOpen s false) :
      Matrices (.swap q) s ((entered s (.swap q.toNat)).advance 1)
  /-- R234, R235: planes of the same class, tiles of the gang, A read now. -/
  | quarter i block q fus n ty sn t a b s gens (form : QuarterForm i block q fus n ty sn t a b) (format : formatRuns s ty)
      (regs : s.vcheck [(a, aRegs ty (fus == 3))] [] = .ok ()) (rows : quarterRows s n ≠ [])
      (planes : s.planeCheck ty (quadsOf fus.toNat q.toNat) = some gens)
      (tiles : ∀ h ∈ quarterTiles s t fus.toNat, (s.gang s.grp.gang).alloc.getD h false = true) (room : tableOpen s true) :
      Matrices i s
        ((entered s (.mmq block ty fus.toNat (quadsOf fus.toNat q.toNat) gens (quarterRows s n) (quarterTiles s t fus.toNat)
          (if sn then some ((s.rs b).extractLsb' 0 32) else none)
          ((quarterRows s n).map (quarterWords s a (aRegs ty (fus == 3)))))).advance 3)
  /-- with no row the quarter completes, its checks made (log 52) -/
  | quarterNone i block q fus n ty sn t a b s gens (form : QuarterForm i block q fus n ty sn t a b) (format : formatRuns s ty)
      (regs : s.vcheck [(a, aRegs ty (fus == 3))] [] = .ok ()) (rows : quarterRows s n = [])
      (planes : s.planeCheck ty (quadsOf fus.toNat q.toNat) = some gens)
      (tiles : ∀ h ∈ quarterTiles s t fus.toNat, (s.gang s.grp.gang).alloc.getD h false = true) : Matrices i s (s.advance 3)
  /-- R239: the lowest free handle below the quota. -/
  | talloc d s h (free : h < (s.gang s.grp.gang).quota) (new : (s.gang s.grp.gang).alloc.getD h false = false)
      (lowest : ∀ k < h, (s.gang s.grp.gang).alloc.getD k false = true) :
      Matrices (.talloc d) s
        (((s.setGang (s.gang s.grp.gang).key fun g => { g with alloc := g.alloc.set h true }).setRs d (BitVec.ofNat 64 h)).advance 1)
  | tfree a s (own : ownTile s a)
      (unused : ∀ e ∈ s.rtab, e.gang = s.grp.gang → e.kind.names (s.rs a).toNat = false) :
      Matrices (.tfree a) s ((s.setGang s.grp.gang fun g => { g with alloc := g.alloc.set (s.rs a).toNat false }).advance 1)
  | tzero a s (own : ownTile s a) (room : tableOpen s true) : Matrices (.tzero a) s ((entered s (.tzero (s.rs a).toNat)).advance 1)
  /-- R240 -/
  | tld c d a s (regs : s.vcheck [] [(d, 8)] = .ok ()) (own : ownTile s a) (some' : s.slot.mask ≠ 0) (room : tableOpen s true) :
      Matrices (.tld c d a) s
        ((entered s (.tld c.toNat (s.rs a).toNat s.slot.mask (s.slot.wbase + d.toNat) s.pc)).advance 3)
  | tst c ty rnd sat d a s (regs : s.vcheck [(d, 8)] [] = .ok ()) (own : ownTile s a) (some' : s.slot.mask ≠ 0) (room : tableOpen s true) :
      Matrices (.tst c ty rnd sat d a) s
        (let seg (l : Nat) := sliceWords ty (s.mode rnd) sat (fun k => s.draw k l)
          ((List.range 8).map fun k => (s.vlane (d + BitVec.ofNat 6 k) 1 l).toNat)
         let t : State := if ty ≠ .f32 ∧ s.mode rnd = .sr then s.drawn 8 else s
         ((t.orFlags (((lanesOf s.slot.mask).map seg).foldl (fun f r => f ||| r.2) 0)) |> fun u =>
           entered u (.tst c.toNat (s.rs a).toNat s.slot.mask (((lanesOf s.slot.mask).map seg).map (·.1)))).advance 3)

/-- The table without entry `i`. -/
def without (s : State) (i : Nat) : State := { s with rtab := s.rtab.take i ++ s.rtab.drop (i + 1) }

/-- The tile store of the entry's cluster would serve entry `j` next: R228 lets it proceed, and none that it lets proceed ranks before
it (R229). -/
def servedNext (s : State) (j : Nat) (e : TabEntry) : Prop := ((s.served e.die e.cluster).head?.map (·.1)) = some j

/-- Events of the reservation table (R225 to R230, R234, R240). -/
inductive TableEvents : Instr → State → State → Prop
  /-- R225: the plane is loaded, the source tiles are THREAD's again, the future resolves OK. -/
  | load j s e q ty src op gen (at_ : s.rtab[j]? = some e) (kind : e.kind = .ldstat q ty src op gen) (live : op ≠ 0)
      (free : s.free j e = true) (good : (s.gang e.gang).localBad src (planeBytes ty) = false) (plain : isBlock ty = false) :
      TableEvents (.ldstatLoadEnd j) s
        ((((without s j).setPair e.die e.cluster e.bank q fun x =>
          { x with shadow := { ty := some ty, bytes := (s.gang e.gang).localRead src (planeBytes ty), loaded := true, gen } }).unflip
            e.gang op).resolve op 0)
  | loadBad j s e q ty src op gen (at_ : s.rtab[j]? = some e) (kind : e.kind = .ldstat q ty src op gen) (live : op ≠ 0)
      (free : s.free j e = true) (bad : (s.gang e.gang).localBad src (planeBytes ty) = true) :
      TableEvents (.ldstatLoadEnd j) s
        (((without s j).setPair e.die e.cluster e.bank q fun x =>
          { x with shadow :=
            { ty := some ty, bytes := (s.gang e.gang).localRead src (planeBytes ty), loaded := true, poisoned := true, gen } }).resolve
          op 0x101)
  | swap j s e q (at_ : s.rtab[j]? = some e) (kind : e.kind = .swap q) (free : s.free j e = true) :
      TableEvents (.swapEffect j) s
        ((without s j).setPair e.die e.cluster e.bank q fun x => { x with active := x.shadow, shadow := x.active })
  /-- R229: the first quarter in rank order is granted; alone where no other fits its pass. -/
  | grant j s e more (at_ : s.rtab[j]? = some e) (first : s.ranked e.die e.cluster = (j, e) :: more) (alone : ∀ x ∈ more, fuses e [e] x.2 = false)
      (mine : ∀ x ∈ more, x.1 ≠ j) :
      TableEvents (.matrixPassGrant j) s
        { s with rtab := updateAll (fun y => e.id == y.id) (fun y => { y with granted := true }) s.rtab }
  | applied j s e block ty fus quads gens rows tiles sigma a (at_ : s.rtab[j]? = some e)
      (kind : e.kind = .mmq block ty fus quads gens rows tiles sigma a) (granted : e.granted = true) :
      TableEvents (.matrixEntryApplied j) s ((without s j).applyQuarter e ty fus quads gens rows tiles sigma a)
  | tzero j s e h (at_ : s.rtab[j]? = some e) (kind : e.kind = .tzero h) (next : servedNext s j e) :
      TableEvents (.tileStoreServe j) s
        ((without s j).setGang e.gang fun g => { g with tiles := g.tiles.filter fun x => x.1 / 2048 != h })
  /-- R240: the value of row `l`'s word `k` of slice `c`, lanes in order. -/
  | tst j s e c h lanes vals (at_ : s.rtab[j]? = some e) (kind : e.kind = .tst c h lanes vals) (next : servedNext s j e) :
      TableEvents (.tileStoreServe j) s
        ((without s j).setGang e.gang fun g =>
          { g with tiles := ((List.range (lanesOf lanes).length).flatMap fun r => (List.range 8).map fun k =>
              (2048 * h + 64 * (lanesOf lanes).getD r 0 + 8 * c + k, (vals.getD r []).getD k 0)).foldl (fun x v => tileSet x v.1 v.2) g.tiles })
  | tld j s e c h lanes pos pc (at_ : s.rtab[j]? = some e) (kind : e.kind = .tld c h lanes pos pc) (next : servedNext s j e)
      (here : e.group = s.grp.key) (once : ∀ g ∈ s.groups, g.key ≠ s.grp.key) (runs : s.grp.live ≠ 0) :
      TableEvents (.tileStoreServe j) s
        ((without s j).within s.grp.key .a fun u => u.setGrp fun g =>
          (List.range 8).foldl (fun g k =>
            { g with vrf := g.vrf.set ((pos + k) % g.vrf.length) (mixLanes (g.vpos (pos + k)) lanes fun l =>
              tileGet (s.gang e.gang).tiles (2048 * h + 64 * l + 8 * c + k)) }) g)

end Sys2Proof.Statements
end

