-- ==== Sys2Proof/Statements/Raises.lean ====
section
/-! DEFINITION. Tables for the statements about the codes that instructions raise: the condition, the code, the address and aux words, the
lane (R5, R25, R70, R92, R124, R129, R172, R194, R215, R218, R252, R338, R409). -/
namespace Sys2Proof.Statements

open Sys2Proof Sys2Proof.Machine

/-- FUTURE_INVALID naming a future (R194). -/
def badFuture (s : State) (f : FReg) : Cause := { code := 0x14, addr := s.pc, aux0 := f.zeroExtend 64 }

/-- ILLEGAL_OP at the instruction (R25). -/
def badOp (s : State) : Cause := { code := 0x01, addr := s.pc }

/-- What an instruction raises: it takes the trap and has no other effect. -/
inductive Raises : Instr → State → Cause → Prop
  | fwait d f s (idle : (s.fut f).state = .idle) : Raises (.fwait d f) s (badFuture s f)
  | fexp d f s (idle : (s.fut f).state = .idle) : Raises (.fexp d f) s (badFuture s f)
  | fimpBusy f a s (held : (s.fut f).state ≠ .idle) : Raises (.fimp f a) s (badFuture s f)
  | fimp f a s (dead : ∀ e ∈ (s.gang s.grp.gang).expo, e.live = true → tokenOf e.entry e.core e.gen (s.gang s.grp.gang).tag ≠ s.rs a) :
      Raises (.fimp f a) s (badFuture s f)
  | spawn r d a s (none : (s.gang s.grp.gang).roles[r.toNat]? = none) :
      Raises (.spawn r d a) s { code := 0x0C, addr := s.pc, aux0 := r.zeroExtend 64 }
  /-- R252: a set that the gang does not have, or of which the group is no member. -/
  | set i a s (form : i = .bsync a ∨ i = .setleave a ∨ (∃ d, i = .barv d a) ∨ ∃ b, i = .bwait a b)
      (foreign : ∀ e, (s.gang s.grp.gang).sets[(s.rs a).toNat]? = some e →
        e.member.getLsbD s.grp.gid = false ∨ e.left.getLsbD s.grp.gid = true ∨ e.exited.getLsbD s.grp.gid = true) :
      Raises i s { code := 0x15, addr := s.pc, aux0 := s.rs a }
  /-- R252: BARV, BSYNC and SETLEAVE need every live lane. -/
  | partSet i a s n e (form : i = .bsync a ∨ i = .setleave a ∨ ∃ d, i = .barv d a) (own : memberOf s a n e)
      (part : s.slot.mask ≠ s.grp.live) : Raises i s (badOp s)
  /-- R197: TGET and RETT outside trap mode. -/
  | noTrap i s (form : i = .rett ∨ ∃ d n, i = .tget d n) (out : s.grp.trap = none) : Raises i s (badOp s)
  | rsopen s (bad : s.slot.mask ≠ s.grp.live ∨ s.grp.rsd = 15) : Raises .rsopen s (badOp s)
  | rsclose s (bad : s.slot.mask ≠ s.grp.live ∨ s.grp.rsd = 0) : Raises .rsclose s (badOp s)
  /-- R341: GPWAIT inside a read section. -/
  | gpwait i s (form : (∃ d, i = .gpwait d) ∨ (∃ d a, i = .gpwaitT d a) ∨ (∃ f, i = .gpwaitF f) ∨ ∃ f a, i = .gpwaitFT f a)
      (inside : s.grp.rsd ≠ 0) : Raises i s (badOp s)
  /-- R70, R71: SSET of a register that software may not write, and of values that a register refuses. -/
  | ssetRead r a s (ro : r ∉ [SysReg.sp, .sl, .tfp, .rngk, .rngc, .fmode]) : Raises (.sset r a) s (badOp s)
  | ssetAlign r a s (form : r = .sp ∨ r = .sl ∨ r = .tfp) (bad : (s.rs a).toNat % 128 ≠ 0) :
      Raises (.sset r a) s { code := 0x09, addr := s.rs a }
  | ssetLow a s (al : (s.rs a).toNat % 128 = 0) (low : s.rs a < s.grp.priv + 4096) :
      Raises (.sset .sl a) s { code := 0x05, addr := s.rs a }
  | ssetMode a s (bad : 6 ≤ (s.rs a).toNat % 8 ∨ 512 ≤ (s.rs a).toNat) : Raises (.sset .fmode a) s (badOp s)
  /-- R134: lanes removed without a pending join, or all of them. -/
  | exset a s (less : s.slot.mask &&& (s.rs a).extractLsb' 0 32 ≠ s.slot.mask)
      (bad : s.slot.pj = none ∨ s.slot.mask &&& (s.rs a).extractLsb' 0 32 = 0) : Raises (.exset a) s (badOp s)
  /-- R92: STACK_LIMIT. -/
  | call off s (quiet : s.quiet = true)
      (bad : s.slot.sp.toNat < 256 ∨ s.slot.sp - 256 < s.grp.sl ∨ 65535 ≤ s.slot.depth) :
      Raises (.call off) s { code := 0x05, addr := s.slot.sp - 256 }
  | enter f s (quiet : s.quiet = true)
      (bad : s.grp.vrf.length < 8 * (f.toNat + 1) ∨ (8 * (f.toNat + 1) - 8) * 128 > s.slot.fb.toNat ∨
        s.slot.fb - BitVec.ofNat 64 ((8 * (f.toNat + 1) - 8) * 128) < s.grp.sl) :
      Raises (.enter f) s { code := 0x05, addr := s.slot.fb - BitVec.ofNat 64 ((8 * (f.toNat + 1) - 8) * 128) }
  | ret s (quiet : s.quiet = true) (top : s.slot.frames = []) : Raises .ret s (badOp s)
  | retAlign s f rest (quiet : s.quiet = true) (frames : s.slot.frames = f :: rest) (res : f.resident = true) (held : f.link = [])
      (own : s.joinDepth ≠ some s.slot.depth) (bad : f.ret.toNat % 64 ≠ 0) : Raises .ret s { code := 0x02, addr := f.ret }
  /-- R124: TABLE_RANGE. -/
  | jts a s (out : s.grp.dtl ≤ s.rs a) :
      Raises (.jts a) s { code := 0x03, addr := s.grp.dtb + 8 * s.rs a, aux0 := s.rs a, aux1 := s.grp.dtl, lane := some 0 }
  /-- R172: MISALIGNED at the lowest lane, in gang memory and scratchpad. -/
  | loadLocal i x s l (form : LoadForm i true x) (regs : s.vcheck (idxReads x.idx) [(x.d, memRegs x.ty)] = .ok ()) (room : s.cnt .sm < 63)
      (lane : l < 32 ∧ (x.lanes s).getLsbD l = true) (bad : (x.reach s l).ok = false)
      (lowest : ∀ k < l, (x.lanes s).getLsbD k = true → (x.reach s k).ok = true) :
      Raises i s { code := 0x09, addr := (x.reach s l).ea, lane := some l }
  | storeLocal i x s l (form : StoreForm i true x) (regs : s.vcheck ((x.d, memRegs x.ty) :: idxReads x.idx) [] = .ok ()) (room : s.cnt .sm < 63)
      (lane : l < 32 ∧ (x.lanes s).getLsbD l = true) (bad : (x.reach s l).ok = false)
      (lowest : ∀ k < l, (x.lanes s).getLsbD k = true → (x.reach s k).ok = true) :
      Raises i s { code := 0x09, addr := (x.reach s l).ea, lane := some l }
  /-- R194: TOWN of a range of the wrong unit. -/
  | town i a b s (form : i = .townThread a b ∨ i = .townEngine a b) (some' : s.rs b ≠ 0)
      (bad : (s.rs a).toNat % (if (s.rs a).toNat < 0x10000000 then 1024 else 4096) ≠ 0) : Raises i s { code := 0x09, addr := s.rs a }
  | rfence a s (bad : (s.rs a).toNat % 256 ≠ 0) : Raises (.rfence a) s { code := 0x09, addr := s.rs a }
  | wake i sc ord off a n s (form : WakeForm i sc ord off a n) (bad : (wordEa s a off).toNat % 8 ≠ 0) :
      Raises i s { code := 0x09, addr := wordEa s a off, lane := some 0 }
  /-- R409: on a die in reduced service the formats but FP16 and BF16. -/
  | ldstatFormat q ty f a s (none : ¬formatRuns s ty) : Raises (.ldstat q ty f a) s (badOp s)
  | quarterFormat i block q fus n ty sn t a b s (form : QuarterForm i block q fus n ty sn t a b) (none : ¬formatRuns s ty) :
      Raises i s (badOp s)

/-- What the stages of R172 raise for global and private accesses, of the lowest lane that fails. -/
inductive MemRaises : Instr → State → Cause → Prop
  | load i x s l (form : LoadForm i false x) (regs : s.vcheck (idxReads x.idx) [(x.d, memRegs x.ty)] = .ok ()) (room : s.cnt .ld < 63)
      (lane : l < 32 ∧ (x.lanes s).getLsbD l = true) (bad : (x.reach s l).ok = false)
      (lowest : ∀ k < l, (x.lanes s).getLsbD k = true → (x.reach s k).ok = true) :
      MemRaises i s { code := 0x09, addr := (x.reach s l).ea, lane := some l }
  | store i x s l (form : StoreForm i false x) (regs : s.vcheck ((x.d, memRegs x.ty) :: idxReads x.idx) [] = .ok ()) (room : s.cnt .st < 63)
      (lane : l < 32 ∧ (x.lanes s).getLsbD l = true) (bad : (x.reach s l).ok = false)
      (lowest : ∀ k < l, (x.lanes s).getLsbD k = true → (x.reach s k).ok = true) :
      MemRaises i s { code := 0x09, addr := (x.reach s l).ea, lane := some l }
  | atom i op c x s l (form : AtomForm i false op c x)
      (regs : s.vcheck ((x.d, memRegs x.ty) :: (if op = .cas then [(c, memRegs x.ty)] else []) ++ idxReads x.idx) [(x.d, memRegs x.ty)] = .ok ())
      (room : s.cnt .ld < 63) (lane : l < 32 ∧ (x.lanes s).getLsbD l = true) (bad : (x.reach s l).ok = false)
      (lowest : ∀ k < l, (x.lanes s).getLsbD k = true → (x.reach s k).ok = true) :
      MemRaises i s { code := 0x09, addr := (x.reach s l).ea, lane := some l }
  | red i op x s l (form : RedForm i op x) (regs : s.vcheck ((x.d, memRegs x.ty) :: idxReads x.idx) [] = .ok ()) (room : s.cnt .st < 63)
      (lane : l < 32 ∧ (x.lanes s).getLsbD l = true) (bad : (x.reach s l).ok = false)
      (lowest : ∀ k < l, (x.lanes s).getLsbD k = true → (x.reach s k).ok = true) :
      MemRaises i s { code := 0x09, addr := (x.reach s l).ea, lane := some l }
  /-- PERMISSION: the lowest lane with a piece on a page without the permission, when every lane is aligned and translated. -/
  | loadPermission i x s l (form : LoadForm i false x) (regs : s.vcheck (idxReads x.idx) [(x.d, memRegs x.ty)] = .ok ()) (room : s.cnt .ld < 63)
      (lane : l < 32 ∧ (x.lanes s).getLsbD l = true) (aligned : ∀ k < 32, (x.lanes s).getLsbD k = true → (x.reach s k).ok = true)
      (mapped : s.translateStage x.priv (x.reaches s) = .ok ()) (bad : ∃ p ∈ s.piecesOf (x.reach s l), p.2.r = false)
      (lowest : ∀ k < l, (x.lanes s).getLsbD k = true → ∀ p ∈ s.piecesOf (x.reach s k), p.2.r = true) :
      MemRaises i s { code := 0x08, addr := (x.reach s l).ea, lane := some l }
  | storePermission i x s l (form : StoreForm i false x) (regs : s.vcheck ((x.d, memRegs x.ty) :: idxReads x.idx) [] = .ok ()) (room : s.cnt .st < 63)
      (lane : l < 32 ∧ (x.lanes s).getLsbD l = true) (aligned : ∀ k < 32, (x.lanes s).getLsbD k = true → (x.reach s k).ok = true)
      (mapped : s.translateStage x.priv (x.reaches s) = .ok ()) (bad : ∃ p ∈ s.piecesOf (x.reach s l), p.2.w = false)
      (lowest : ∀ k < l, (x.lanes s).getLsbD k = true → ∀ p ∈ s.piecesOf (x.reach s k), p.2.w = true) :
      MemRaises i s { code := 0x08, addr := (x.reach s l).ea, lane := some l }

end Sys2Proof.Statements
end

