-- ==== Sys2Proof/Statements/Rules.lean ====
section
/-! DEFINITION. What the statements say of one step as a whole: which registers and bytes an instruction leaves alone, the words of a trap
frame (R191 to R193), the outcome of one atomic (R180), the values of the floating-point formats (R96 to R103). -/
namespace Sys2Proof.Statements

open Sys2Proof Sys2Proof.Machine

/-- Scalar registers but those in a list, predicates, vector registers, flags, the draw counter and the rest of the group are as before. -/
structure RegsKept (s t : State) (ds : List SReg) : Prop where
  scalars : ∀ r, r ∉ ds → t.rs r = s.rs r
  preds : ∀ p, t.rp p = s.rp p
  vectors : t.grp.vrf = s.grp.vrf
  flags : t.grp.fmode = s.grp.fmode
  draws : t.grp.rngc = s.grp.rngc
  rest : groupKept s.grp t.grp

/-- The same of an instruction that writes a predicate. -/
structure PredsKept (s t : State) (d : PReg) : Prop where
  preds : ∀ p, p ≠ d → t.rp p = s.rp p
  scalars : ∀ r, t.rs r = s.rs r
  vectors : t.grp.vrf = s.grp.vrf
  draws : t.grp.rngc = s.grp.rngc
  rest : groupKept s.grp t.grp

/-- The same of an instruction that writes `n` vector registers from `d` in the lanes of a mask: every other register position and
every other lane keeps its word. -/
structure LanesKept (s t : State) (d : VReg) (n : Nat) (m : LaneMask) : Prop where
  size : t.grp.vrf.length = s.grp.vrf.length
  positions : ∀ k, (∀ i < n, k ≠ (s.slot.wbase + d.toNat + i) % s.grp.vrf.length) → t.grp.vrf[k]? = s.grp.vrf[k]?
  lanes : ∀ (k : Nat) (l : Fin 32), m.getLsbD l = false →
    (t.grp.vrf[k]?.map fun (v : Vector W32 32) => v[l]) = s.grp.vrf[k]?.map fun (v : Vector W32 32) => v[l]
  scalars : ∀ r, t.rs r = s.rs r
  preds : ∀ p, t.rp p = s.rp p
  rest : groupKept s.grp t.grp

/-- The value that an atomic leaves (R180), from `old`, the operand and the compare value, each of the type's width. -/
def atomAfter (op : AtomOp) (t : Ty) (old b c : BitVec (tyBits t)) : BitVec (tyBits t) :=
  let w := tyBits t
  let low := if isSigned t then decide (b.toInt < old.toInt) else decide (b.toNat < old.toNat)
  let high := if isSigned t then decide (old.toInt < b.toInt) else decide (old.toNat < b.toNat)
  match op with
  | .add => old + b
  | .min => if low then b else old
  | .max => if high then b else old
  | .and => old &&& b
  | .or => old ||| b
  | .xor => old ^^^ b
  | .exch => b
  | .cas => if old = c then b else old
  | .inc => if b.toNat ≤ old.toNat then 0 else old + 1
  | .dec => if old = 0 ∨ b.toNat < old.toNat then b else old - 1
  | .fadd => BitVec.ofNat w (roundFp (fmtOf t) .rne 0 (addFp false (decodeFp (fmtOf t) old.toNat) (decodeFp (fmtOf t) b.toNat)).1).1
  | .fmin => BitVec.ofNat w (minmaxBits (fmtOf t) false false old.toNat b.toNat).1
  | .fmax => BitVec.ofNat w (minmaxBits (fmtOf t) true false old.toNat b.toNat).1

/-- The bits of a word of a trap frame. -/
def bitsOf (w : W64) (lo n : Nat) : Nat := w.toNat / 2 ^ lo % 2 ^ n

/-- The block of an occupied slot in a trap frame (R193): `w k` is its word `k`. -/
structure BlockHolds (s : State) (i : SlotId) (w : Nat → W64) : Prop where
  pcb : w 0 = (s.grp.slot i).pcb
  idx : bitsOf (w 1) 0 4 = (s.grp.slot i).idx % 16
  state : bitsOf (w 1) 4 2 = match (s.grp.slot i).park with
    | .join => 2
    | .sleep _ _ => 3
    | _ => 1
  derr : bitsOf (w 1) 6 1 = if (s.grp.slot i).derr.isSome then 1 else 0
  spare : bitsOf (w 1) 7 25 = 0
  mask : bitsOf (w 1) 32 32 = (s.grp.slot i).mask.toNat
  pj : w 2 = ((s.grp.slot i).pj).getD 0
  cnt : w 3 = s.wcnt fun t => t.has i
  view : bitsOf (w 4) 0 16 = (s.grp.slot i).view.toNat
  depth : bitsOf (w 4) 16 16 = (s.grp.slot i).depth % 2 ^ 16
  frame : (s.grp.slot i).fsize < 2 ^ 8 → bitsOf (w 4) 32 8 = (s.grp.slot i).fsize
  coil : (s.grp.slot i).fsize < 2 ^ 8 → (s.grp.slot i).coil.length < 2 ^ 8 →
    bitsOf (w 4) 40 8 = (s.grp.slot i).coil.length ∧ bitsOf (w 4) 48 16 = 0
  sp : w 5 = (s.grp.slot i).sp
  fb : w 6 = (s.grp.slot i).fb
  dl : w 7 = match (s.grp.slot i).park with
    | .sleep _ d => BitVec.ofNat 64 d
    | _ => 0
  error : ∀ e, (s.grp.slot i).derr = some e → w 8 = e.ea ∧ w 9 = e.epc
  noError : (s.grp.slot i).derr = none → w 8 = 0 ∧ w 9 = 0
  last : w 10 = 0 ∧ w 11 = 0

/-- The trap frame's words (R192): `w k` is word `k`. -/
structure FrameHolds (s : State) (c : Cause) (w : Nat → W64) : Prop where
  code : bitsOf (w 0) 0 8 = c.code % 256
  slot : bitsOf (w 0) 8 1 = if s.sel = .b then 1 else 0
  lane : ∀ l, c.lane = some l → bitsOf (w 0) 9 5 = l % 32
  lv : bitsOf (w 0) 14 1 = if c.lane.isSome then 1 else 0
  noLane : c.lane = none → bitsOf (w 0) 9 5 = 0
  sec : bitsOf (w 0) 16 8 = 0
  operand : bitsOf (w 0) 32 9 = c.n % 2 ^ 9
  spare : bitsOf (w 0) 15 1 = 0 ∧ bitsOf (w 0) 41 23 = 0
  reason : bitsOf (w 0) 24 8 = c.reason % 256
  addr : w 1 = c.addr
  aux : w 2 = c.aux0 ∧ w 3 = c.aux1
  live : w 4 = s.grp.live.zeroExtend 64
  join : ∀ j, s.grp.sjoin = some j → w 5 = j.addr ∧ w 6 = BitVec.ofNat 64 (j.depth % 2 ^ 16) ∧ w 7 = j.sp
  noJoin : s.grp.sjoin = none → w 5 = 0 ∧ w 6 = 0 ∧ w 7 = 0
  blockA : s.grp.slotA.occ = true → BlockHolds s .a fun k => w (8 + k)
  blockB : s.grp.slotB.occ = true → BlockHolds s .b fun k => w (20 + k)
  freeA : s.grp.slotA.occ = false → ∀ k < 12, w (8 + k) = 0
  freeB : s.grp.slotB.occ = false → ∀ k < 12, w (20 + k) = 0
  futures : ∀ k : Fin 16, bitsOf (w (32 + k)) 32 32 = (s.grp.f[k]).status.toNat ∧ bitsOf (w (32 + k)) 0 2 = match (s.grp.f[k]).state with
    | .idle => 0
    | .pending => 1
    | .resolved => 2
  futureSpare : ∀ k < 16, bitsOf (w (32 + k)) 2 30 = 0
  preds : ∀ k : Fin 8, bitsOf (w (48 + k / 2)) (32 * (k % 2)) 32 = (s.grp.p[k]).toNat
  mode : w 56 = s.grp.fmode ∧ w 57 = s.grp.rngk ∧ w 58 = s.grp.rngc
  rsd : w 59 = s.grp.rsd.zeroExtend 64
  time : w 60 = BitVec.ofNat 64 s.time
  scalars : ∀ k : Fin 64, w (64 + k) = s.grp.s[k]
  rest : (∀ k, 52 ≤ k → k < 56 → w k = 0) ∧ (∀ k, 61 ≤ k → k < 64 → w k = 0) ∧ ∀ k, 128 ≤ k → k < 512 → w k = 0

/-- The handler's state at entry, and what the device keeps of the interrupted slots (R191, R195, R196): `u` is the group as it was. -/
structure Handling (u t : State) (entry : W64) : Prop where
  saved : ∃ c, t.grp.trap = some c ∧ c.fa = u.grp.tfp ∧ c.sjoin = u.grp.sjoin ∧ c.sl = u.grp.sl
  pc : t.slot.pcb = entry ∧ t.slot.idx = 1
  sel : t.sel = .a ∧ t.grp.slotB.occ = false ∧ t.grp.sjoin = none
  lanes : t.slot.mask = u.grp.live ∧ t.slot.pj = none
  frame : t.slot.fsize = 8 ∧ t.slot.depth = 0 ∧ t.slot.coil = []
  scalars : t.grp.s = u.grp.s ∧ t.grp.p = u.grp.p

/-- What the next move of a path makes of the outcome `u` of its instruction (R130, R159, R174, R210, R360, R407): it stands, unless the
instruction waits at issue; then the path has not issued and only notes that it waits. -/
inductive Settles (t u : State) : State → Prop
  | issued (free : t.heldIn u = false) (paid : 0 < t.creditNow t.grp.part t.grp.die ∨ u.reqs = t.reqs) (awake : u.called = []) : Settles t u u
  | held (waits : t.heldIn u = true) : Settles t u (t.park (if t.slot.park = .drain then .drain else .room))
  | unpaid (free : t.heldIn u = false) (unpaid : t.creditNow t.grp.part t.grp.die ≤ 0) (asks : u.reqs ≠ t.reqs) : Settles t u (t.park .room)
  | asleep (free : t.heldIn u = false) (paid : 0 < t.creditNow t.grp.part t.grp.die ∨ u.reqs = t.reqs) (calls : u.called ≠ []) :
      Settles t u ((t.rouse u.called).park .room)

/-- What becomes of a path that was parked at its barrier as its phase ends (R253); other paths stay as they are. -/
structure Unparked (n : Nat) (x y : Slot) : Prop where
  waiting : ∀ b, x.park = .barrier n b → y = { x with park := .released }
  arriving : ∀ b, x.park = .arrived n b → y = { x with park := .none }
  others : (∀ b, x.park ≠ .barrier n b ∧ x.park ≠ .arrived n b) → y = x

/-- A group as a phase of set `n` of its gang ends: every path of it, interrupted ones too (R253). -/
structure PhaseOver (n : Nat) (g h : Group) : Prop where
  slotA : Unparked n g.slotA h.slotA
  slotB : Unparked n g.slotB h.slotB
  interrupted : ∀ c, g.trap = some c → ∃ d, h.trap = some d ∧ Unparked n c.slotA d.slotA ∧ Unparked n c.slotB d.slotB ∧
    d = { c with slotA := d.slotA, slotB := d.slotB }
  running : g.trap = none → h.trap = none
  rest : h = { g with slotA := h.slotA, slotB := h.slotB, trap := h.trap }

/-- A group of gang `key`, or of another. -/
def phaseOver (key n : Nat) (g h : Group) : Prop := if g.gang = key then PhaseOver n g h else h = g

/-- Number of 1 bits of a mask. -/
def ones (n : Nat) (x : BitVec n) : Nat := (List.range n).countP fun i => x.getLsbD i

/-- A byte of memory that none of the lanes reaches. -/
def outside (ls : List LaneAcc) (a : Nat) : Prop := ∀ l ∈ ls, ∀ p ∈ l.pieces, a < p.pa ∨ p.pa + p.n ≤ a

/-- A byte of memory in a sector that none of the lanes reaches. -/
def outsideSectors (ls : List LaneAcc) (a : Nat) : Prop := ∀ l ∈ ls, ∀ p ∈ l.pieces, a / 32 < p.pa / 32 ∨ (p.pa + p.n - 1) / 32 < a / 32

/-- A queue entry that stores whole bytes, and so reads nothing. -/
def StoreOp.whole (o : StoreOp) : Bool :=
  match o.kind with
  | .store _ _ _ t => !t.isSub
  | .remote _ _ => true
  | _ => false

/-- The lanes of a queue entry that stores to memory. -/
def StoreOp.storedLanes (o : StoreOp) : Option (List LaneAcc) :=
  match o.kind with
  | .store _ _ ls _ => some ls
  | .red _ _ _ _ ls => some ls
  | .remote _ ls => some ls
  | _ => none

end Sys2Proof.Statements
end

