-- ==== Sys2Proof/Statements/Values.lean ====
section
/-! DEFINITION. Tables for the statements about values: conversions, integral values, minima and maxima, sums and extremes, by the value that
an encoding has (R97 to R106, R151, R154, R155, R163, R164). -/
namespace Sys2Proof.Statements

open Sys2Proof Sys2Proof.Machine

/-- The fraction m × 2^e: numerator and denominator. -/
def numOf (m : Nat) (e : Int) : Nat := m * 2 ^ e.toNat
def denOf (e : Int) : Nat := 2 ^ (-e).toNat

/-- `k` is the magnitude n / d rounded to an integer by a mode (R101, R102), for a value of sign `neg`. -/
def nearest (mode : Rnd) (draw : Nat) (neg : Bool) (n d k : Nat) : Prop :=
  let down := k * d ≤ n ∧ n < (k + 1) * d
  let up := n ≤ k * d ∧ k * d < n + d
  match mode with
  | .rtz => down
  | .rup => if neg then down else up
  | .rdn => if neg then up else down
  | .rne => 2 * k * d ≤ 2 * n + d ∧ 2 * n ≤ 2 * k * d + d ∧ (2 * k * d = 2 * n + d ∨ 2 * n = 2 * k * d + d → k % 2 = 0)
  | .rna => 2 * k * d ≤ 2 * n + d ∧ 2 * n + d < 2 * (k + 1) * d
  | .sr => draw < 2 ^ 32 ∧ k = if 2 ^ 32 ≤ n % d * 2 ^ 32 / d + draw then n / d + 1 else n / d
  | .dyn => False

/-- An integer with a sign. -/
def signedBy (neg : Bool) (k : Nat) : Int := if neg then -(k : Int) else k

/-- The numbers that an encoding and a fraction stand for are the same. -/
def sameValue (m : Nat) (e : Int) (n : Nat) (g : Int) : Prop := numOf m e * denOf g = numOf n g * denOf e

/-- x < y for two numbers (IEEE 754-2019). -/
def below : Fp → Fp → Prop
  | .inf true, .inf b => b = false
  | .inf true, .fin _ _ _ => True
  | .fin _ _ _, .inf b => b = false
  | .fin a m e, .fin b n g => signedBy a (numOf m e * denOf g) < signedBy b (numOf n g * denOf e)
  | _, _ => False

/-- NV for the signalling ones among some values (R104). -/
def signals (xs : List Fp) : Flags := if xs.any (· == .nan true) then 0x8 else 0

/-- An encoding of a format and its value. -/
def encodes (f : Fmt) (v : Nat) (x : Fp) : Prop := v < 2 ^ f.bits ∧ decodeFp f v = x

/-- The range of an integer type (R100). -/
def lowest (w : Nat) (sg : Bool) : Int := if sg then -(2 ^ (w - 1)) else 0
def highest (w : Nat) (sg : Bool) : Int := if sg then 2 ^ (w - 1) - 1 else 2 ^ w - 1

/-- The floating-point types (R96). -/
def isFloat (t : Ty) : Prop := t ∈ [Ty.f64, .f32, .bf16, .f16, .e5m2, .e4m3, .e3m2, .e2m3, .e2m1]

/-- The value of a source of a conversion. -/
def sourceFp (t : Ty) (v : Nat) : Fp := decodeFp (fmtOf t) (v % 2 ^ (fmtOf t).bits)

/-- The rows of R105 and R106: source, destination, mode, draw, SAT, source bits, destination bits and flags. -/
inductive Converts : Ty → Ty → Rnd → Nat → Bool → Nat → Nat × Flags → Prop
  | intInt src dst ws ss wd sd mode draw sat v x (from' : intOf src = some (ws, ss)) (dest : intOf dst = some (wd, sd))
      (value : x = readAs ss (BitVec.ofNat ws v)) :
      Converts src dst mode draw sat v ((BitVec.ofInt wd (if sat then max (lowest wd sd) (min x (highest wd sd)) else x)).toNat, 0)
  /-- a number the destination has -/
  | intExact src dst ws ss mode draw sat v x r m e (from' : intOf src = some (ws, ss)) (dest : isFloat dst)
      (value : x = readAs ss (BitVec.ofNat ws v)) (has : encodes (fmtOf dst) r (.fin (decide (x < 0)) m e)) (same : sameValue x.natAbs 0 m e) :
      Converts src dst mode draw sat v (r, 0)
  | intFloat src dst ws ss mode draw sat v x (from' : intOf src = some (ws, ss)) (dest : isFloat dst) (value : x = readAs ss (BitVec.ofNat ws v)) :
      Converts src dst mode draw sat v (roundFin (fmtOf dst) mode draw (sat && (fmtOf dst).inf) (decide (x < 0)) x.natAbs 0)
  | floatInt src dst w sg mode draw sat v n m e k (from' : isFloat src) (dest : intOf dst = some (w, sg)) (value : sourceFp src v = .fin n m e)
      (rounds : nearest mode draw n (numOf m e) (denOf e) k) (inside : lowest w sg ≤ signedBy n k ∧ signedBy n k ≤ highest w sg) :
      Converts src dst mode draw sat v ((BitVec.ofInt w (signedBy n k)).toNat, if k * denOf e = numOf m e then 0 else 0x80)
  | floatBelow src dst w sg mode draw sat v n m e k (from' : isFloat src) (dest : intOf dst = some (w, sg)) (value : sourceFp src v = .fin n m e)
      (rounds : nearest mode draw n (numOf m e) (denOf e) k) (outside : signedBy n k < lowest w sg) :
      Converts src dst mode draw sat v ((BitVec.ofInt w (lowest w sg)).toNat, 0x8)
  | floatAbove src dst w sg mode draw sat v n m e k (from' : isFloat src) (dest : intOf dst = some (w, sg)) (value : sourceFp src v = .fin n m e)
      (rounds : nearest mode draw n (numOf m e) (denOf e) k) (outside : highest w sg < signedBy n k) :
      Converts src dst mode draw sat v ((BitVec.ofInt w (highest w sg)).toNat, 0x8)
  | nanInt src dst w sg mode draw sat v q (from' : isFloat src) (dest : intOf dst = some (w, sg)) (value : sourceFp src v = .nan q) :
      Converts src dst mode draw sat v (0, 0x8)
  | infInt src dst w sg mode draw sat v n (from' : isFloat src) (dest : intOf dst = some (w, sg)) (value : sourceFp src v = .inf n) :
      Converts src dst mode draw sat v ((BitVec.ofInt w (if n then lowest w sg else highest w sg)).toNat, 0x8)
  /-- a number the destination has: every wider format, and the same one -/
  | exact src dst mode draw sat v n m e r k g (from' : isFloat src) (dest : isFloat dst) (value : sourceFp src v = .fin n m e)
      (has : encodes (fmtOf dst) r (.fin n k g)) (same : sameValue m e k g) : Converts src dst mode draw sat v (r, 0)
  | narrow src dst mode draw sat v n m e (from' : isFloat src) (dest : isFloat dst) (value : sourceFp src v = .fin n m e) :
      Converts src dst mode draw sat v (roundFin (fmtOf dst) mode draw (sat && (fmtOf dst).inf) n m e)
  /-- R105, R106: NaN to a format with infinities -/
  | nan src dst mode draw v q (from' : isFloat src) (dest : dst ∈ [Ty.f64, .f32, .bf16, .f16, .e5m2]) (value : sourceFp src v = .nan q) :
      Converts src dst mode draw false v (canonNaN (fmtOf dst), if q then 0x8 else 0)
  | nanSat src dst mode draw v q (from' : isFloat src) (dest : dst ∈ [Ty.f64, .f32, .bf16, .f16, .e5m2]) (value : sourceFp src v = .nan q)
      (other : src ≠ dst) : Converts src dst mode draw true v (0, 0x8)
  | nanE4m3 src mode draw sat v q (from' : isFloat src) (other : src ≠ .e4m3) (value : sourceFp src v = .nan q) :
      Converts src .e4m3 mode draw sat v (0x7F, 0x8)
  | nanSame mode draw sat v q (value : sourceFp .e4m3 v = .nan q) : Converts .e4m3 .e4m3 mode draw sat v (0x7F, 0)
  | nanSmall src dst mode draw sat v q (from' : isFloat src) (dest : dst ∈ [Ty.e3m2, .e2m3, .e2m1]) (value : sourceFp src v = .nan q) :
      Converts src dst mode draw sat v (0, 0x8)
  | inf src dst mode draw v n r (from' : isFloat src) (dest : isFloat dst) (value : sourceFp src v = .inf n) (has : encodes (fmtOf dst) r (.inf n)) :
      Converts src dst mode draw false v (r, 0)
  | infMax src dst mode draw sat v n (from' : isFloat src) (dest : isFloat dst) (value : sourceFp src v = .inf n) (other : src ≠ dst)
      (none : sat = true ∨ (fmtOf dst).inf = false) :
      Converts src dst mode draw sat v ((if n then 2 ^ ((fmtOf dst).bits - 1) else 0) + (fmtOf dst).maxFin, 0x8)

/-- The rows of R151: whether the greater is wanted, whether NaN gives way, operands, result. -/
inductive MinMax (f : Fmt) : Bool → Bool → Nat → Nat → Nat × Flags → Prop
  | less isMax num a b (lt : below (decodeFp f a) (decodeFp f b)) : MinMax f isMax num a b (if isMax then b else a, 0)
  | greater isMax num a b (gt : below (decodeFp f b) (decodeFp f a)) : MinMax f isMax num a b (if isMax then a else b, 0)
  | same isMax num a (number : (decodeFp f a).isNaN = false) : MinMax f isMax num a a (a, 0)
  | zeros isMax num a b e g (neg : decodeFp f a = .fin true 0 e) (pos : decodeFp f b = .fin false 0 g) :
      MinMax f isMax num a b (if isMax then b else a, 0)
  | zeros' isMax num a b e g (pos : decodeFp f a = .fin false 0 e) (neg : decodeFp f b = .fin true 0 g) :
      MinMax f isMax num a b (if isMax then a else b, 0)
  | nanLeft isMax num a b q (nan : decodeFp f a = .nan q) (number : (decodeFp f b).isNaN = false) :
      MinMax f isMax num a b (if num then b else canonNaN f, if q then 0x8 else 0)
  | nanRight isMax num a b q (number : (decodeFp f a).isNaN = false) (nan : decodeFp f b = .nan q) :
      MinMax f isMax num a b (if num then a else canonNaN f, if q then 0x8 else 0)
  | nans isMax num a b q r (left : decodeFp f a = .nan q) (right : decodeFp f b = .nan r) :
      MinMax f isMax num a b (canonNaN f, if q || r then 0x8 else 0)

/-- FRND (R154), on the formats it accepts. -/
inductive Integral : Ty → Rnd → Nat → Nat → Nat × Flags → Prop
  | nan t mode draw v q (form : t = .f32 ∨ t = .f64) (value : decodeFp (fmtOf t) v = .nan q) :
      Integral t mode draw v (canonNaN (fmtOf t), if q then 0x8 else 0)
  | inf t mode draw v n (form : t = .f32 ∨ t = .f64) (value : decodeFp (fmtOf t) v = .inf n) : Integral t mode draw v (v, 0)
  | whole t mode draw v n m e k (form : t = .f32 ∨ t = .f64) (value : encodes (fmtOf t) v (.fin n m e)) (integral : numOf m e = k * denOf e) :
      Integral t mode draw v (v, 0)
  /-- The sign stays, so a negative value that rounds to zero gives −0. -/
  | rounds t mode draw v n m e k r m' e' (form : t = .f32 ∨ t = .f64) (value : encodes (fmtOf t) v (.fin n m e))
      (near : nearest mode draw n (numOf m e) (denOf e) k) (result : encodes (fmtOf t) r (.fin n m' e')) (same : sameValue k 0 m' e') :
      Integral t mode draw v (r, 0)

/-- The values of a list are numbers. -/
def numbers (f : Fmt) (vs : List Nat) : Prop := ∀ v ∈ vs, (decodeFp f v).isNaN = false

/-- A finite value as a multiple of 2^q. -/
def unitsAt (q : Int) : Fp → Int
  | .fin n m e => signedBy n (m * 2 ^ (e - q).toNat)
  | _ => 0

/-- VRADD, and .add of VSCAN (R163, R164): type, values, result. -/
inductive Sums : Ty → List Nat → Nat × Flags → Prop
  | ints t vs (form : t ∈ [Ty.i32, .i64, .z32, .z64]) :
      Sums t vs ((BitVec.ofInt t.width ((vs.map fun v => readAs (isSigned t) (BitVec.ofNat t.width v)).sum)).toNat, 0)
  | none t (form : t = .f32 ∨ t = .f64) : Sums t [] (0, 0)
  | nan t vs v q (form : t = .f32 ∨ t = .f64) (mem : v ∈ vs) (nan : decodeFp (fmtOf t) v = .nan q)
      (oneSided : ∃ n, ∀ w ∈ vs, decodeFp (fmtOf t) w ≠ .inf n) : Sums t vs (canonNaN (fmtOf t), signals (vs.map (decodeFp (fmtOf t))))
  | infs t vs v w (form : t = .f32 ∨ t = .f64) (all : numbers (fmtOf t) vs) (pos : v ∈ vs ∧ decodeFp (fmtOf t) v = .inf false)
      (neg : w ∈ vs ∧ decodeFp (fmtOf t) w = .inf true) : Sums t vs (canonNaN (fmtOf t), 0x8)
  | inf t vs v n r (form : t = .f32 ∨ t = .f64) (all : numbers (fmtOf t) vs) (mem : v ∈ vs ∧ decodeFp (fmtOf t) v = .inf n)
      (only : ∀ w ∈ vs, decodeFp (fmtOf t) w ≠ .inf !n) (has : encodes (fmtOf t) r (.inf n)) : Sums t vs (r, 0)
  /-- The exact sum, rounded once. -/
  | finite t vs q (form : t = .f32 ∨ t = .f64) (all : ∀ v ∈ vs, ∃ n m e, decodeFp (fmtOf t) v = .fin n m e ∧ q ≤ e)
      (some' : ((vs.map (decodeFp (fmtOf t))).map (unitsAt q)).sum ≠ 0) :
      Sums t vs
        (let x := ((vs.map (decodeFp (fmtOf t))).map (unitsAt q)).sum
         roundFp (fmtOf t) .rne 0 (.fin (decide (x < 0)) x.natAbs q))
  /-- R103: a zero sum is −0 when every value is −0. -/
  | zero t vs q (form : t = .f32 ∨ t = .f64) (some' : vs ≠ []) (all : ∀ v ∈ vs, ∃ n m e, decodeFp (fmtOf t) v = .fin n m e ∧ q ≤ e)
      (nothing : ((vs.map (decodeFp (fmtOf t))).map (unitsAt q)).sum = 0) :
      Sums t vs (if vs.all fun v => (match decodeFp (fmtOf t) v with
        | .fin n m _ => n && m == 0
        | _ => false) then 2 ^ ((fmtOf t).bits - 1) else 0, 0)

/-- An integer as VRMIN and VRMAX compare it (R163): unsigned under .u and for .zN. -/
def orderOf (t : Ty) (u : Bool) (v : Nat) : Int := readAs (isSigned t && !u) (BitVec.ofNat t.width v)

/-- VRMIN, VRMAX, and .min and .max of VSCAN (R163, R164): type, whether the greatest is wanted, .u, values, result. -/
inductive Extremes : Ty → Bool → Bool → List Nat → Nat × Flags → Prop
  | least t u vs r (form : t ∈ [Ty.i32, .i64, .z32, .z64]) (fits : ∀ v ∈ vs, v < 2 ^ t.width) (mem : r ∈ vs)
      (low : ∀ v ∈ vs, orderOf t u r ≤ orderOf t u v) : Extremes t false u vs (r, 0)
  | greatest t u vs r (form : t ∈ [Ty.i32, .i64, .z32, .z64]) (fits : ∀ v ∈ vs, v < 2 ^ t.width) (mem : r ∈ vs)
      (high : ∀ v ∈ vs, orderOf t u v ≤ orderOf t u r) : Extremes t true u vs (r, 0)
  /-- The identity: the largest value of the type, the smallest. -/
  | noLeast t u (form : t ∈ [Ty.i32, .i64, .z32, .z64]) :
      Extremes t false u [] ((BitVec.ofInt t.width (highest t.width (isSigned t && !u))).toNat, 0)
  | noGreatest t u (form : t ∈ [Ty.i32, .i64, .z32, .z64]) :
      Extremes t true u [] ((BitVec.ofInt t.width (lowest t.width (isSigned t && !u))).toNat, 0)
  | noFloat t isMax u r (form : t = .f32 ∨ t = .f64) (has : encodes (fmtOf t) r (.inf isMax)) : Extremes t isMax u [] (r, 0)
  | nan t isMax u vs v q (form : t = .f32 ∨ t = .f64) (mem : v ∈ vs) (nan : decodeFp (fmtOf t) v = .nan q) :
      Extremes t isMax u vs (canonNaN (fmtOf t), signals (vs.map (decodeFp (fmtOf t))))
  | leastFp t u vs r (form : t = .f32 ∨ t = .f64) (fits : ∀ v ∈ vs, v < 2 ^ (fmtOf t).bits) (all : numbers (fmtOf t) vs) (mem : r ∈ vs)
      (low : ∀ v ∈ vs, ¬below (decodeFp (fmtOf t) v) (decodeFp (fmtOf t) r))
      (zero : ∀ v ∈ vs, ∀ e g, decodeFp (fmtOf t) r = .fin false 0 e → decodeFp (fmtOf t) v ≠ .fin true 0 g) :
      Extremes t false u vs (r, 0)
  | greatestFp t u vs r (form : t = .f32 ∨ t = .f64) (fits : ∀ v ∈ vs, v < 2 ^ (fmtOf t).bits) (all : numbers (fmtOf t) vs) (mem : r ∈ vs)
      (high : ∀ v ∈ vs, ¬below (decodeFp (fmtOf t) r) (decodeFp (fmtOf t) v))
      (zero : ∀ v ∈ vs, ∀ e g, decodeFp (fmtOf t) r = .fin true 0 e → decodeFp (fmtOf t) v ≠ .fin false 0 g) :
      Extremes t true u vs (r, 0)

end Sys2Proof.Statements
end

