-- ==== Sys2Proof/Certificates/Slice0/Obligations.lean ====
section
/-! DEFINITION. The statements for the provers: encodings, memory, what each instruction and event does and leaves alone, what a step
does, what reset leaves. The tables that some of them go through are in Sys2Proof/Statements. -/
section Slice0
open Sys2Proof Sys2Proof.Machine Sys2Proof.Statements

/-! ### Encodings -/

/-- Decoding the words of a well-formed instruction gives it back, whatever words follow. -/
def Obligations.DecodeOfEncode : Prop :=
  ∀ (i : Instr) (f : BaseWord × Form) (rest : List W32),
    i.wf = true → encodeFields i = some f → decodeWords (encode i ++ rest) = .ok i

/-- What the decoder reads is well-formed, and its encoding is the words it was read from: no word has a second reading, and no
reserved field passes unread. -/
def Obligations.EncodeOfDecode : Prop :=
  ∀ (ws : List W32) (i : Instr), decodeWords ws = .ok i →
    i.wf = true ∧ (encodeFields i).isSome = true ∧ encode i = ws.take (encode i).length

/-- Words that the spec writes out stand for the instructions it names (R37, R116, R129, R136, R142, R175). -/
def Obligations.DecodeSpecWords : Prop :=
  decodeWords [0x10040C99, 0, 0x80C] = .ok (.sbfe true 3 4 12 8) ∧
  decodeWords [0x01400200] = .ok (.trap 5) ∧
  decodeWords [0x15E8] = .ok (.ppack 5) ∧
  decodeWords [0x000901F0] = .ok (.punpk 9) ∧
  decodeWords [0x81851005, 0x00034000, 0] = .ok (.vaddW1 none .z32 true true 4 5 6) ∧
  decodeWords [0x0000532D, 0x00098000, 0x100] = .ok (.stpW1 none .b32 none 0x100 20) ∧
  decodeWords [0] = .error .opcode

/-! ### Steps -/

/-- A step with a prescribed move: time passes, then the move's event happens, unless its requests are for a stack in SREF, whose exit then
begins (R407); or the selected path, if it holds a bundle and can issue, starts (it is not parked, its stamp is now, and the yield ranks of
its core are over) and runs the instruction that the words at its program counter decode to, or raises ILLEGAL_OP where they decode to
none. That stands unless the instruction waits at issue (`Settles`). -/
def Obligations.StepRunsDecoded : Prop :=
  ∀ (s t : State) (m : Move) (more : List Move),
    s.agenda = m :: more → s.fatal = false → t = ({ s with agenda := more } : State).begin_.select m →
    (∀ e u, m.ev = some e → exec e t = .next u → step s = .next (if u.called = [] then u else t.rouse u.called)) ∧
    ∀ b, m.ev = none → t.canIssue = true → t.slot.derr = none →
      (t.slot.park = .none ∨ t.slot.park = .room ∨ t.slot.park = .drain) → t.slot.ibuf = some b → ¬(t.slot.pj = some t.slot.pcb ∧ t.slot.idx = 1) →
      (∀ i u v, decodeWords (b.words.drop t.slot.idx) = .ok i → exec i t.starts = .next u → Settles t u v → step s = .next v) ∧
      (t.starts.slot = { t.slot with park := .none, age := t.tick, since := none, yielded := false } ∧ t.starts.grp.s = t.grp.s ∧
        t.starts.grp.p = t.grp.p ∧ t.starts.grp.vrf = t.grp.vrf ∧ t.starts = { t with grp := t.starts.grp, groups := t.starts.groups }) ∧
      ∀ e u v, decodeWords (b.words.drop t.slot.idx) = .error e → u = t.starts.trap { code := 0x01, addr := t.pc } → Settles t u v →
        step s = .next v

/-- Every instruction and every event answers a next state, in every state; a step stops in one case alone: after a fatal error, with no
move prescribed (R410). -/
def Obligations.OnlyFatalStops : Prop :=
  (∀ (i : Instr) (s : State), ∃ t, exec i s = .next t) ∧
  ∀ s : State, if s.fatal = true ∧ s.agenda = [] then step s = .fault .fatal else ∃ t, step s = .next t

/-- After a fatal error nothing changes but time and the cycles metered for the context that holds a slice (R333), whatever the next move,
until a package reset (R410). -/
def Obligations.FatalHolds : Prop :=
  ∀ (s u : State), s.fatal = true → (∀ m more, s.agenda = m :: more → m.ev ≠ some .packageReset) → step s = .next u →
    u = { s with agenda := u.agenda, tick := u.tick, time := u.time, ctxs := u.ctxs } ∧ s.time ≤ u.time ∧
      u.ctxs = s.ctxs.map fun c => { c with ran :=
        if c.state = .active then Vector.ofFn fun (i : Fin 6) => c.ran[i] + s.dies[i].mhz * (u.time - s.time) else c.ran }

/-- What reset leaves: every gate locked to no partition (R386), no context, queue, handle, mapping or policy, memory that reads as 0
everywhere (the host's by the model's choice, log 3), no die in service, no fatal error. -/
def Obligations.ResetState : Prop :=
  (∀ k : Fin 24, State.reset.gates[k] = ⟨true, 31⟩ ∧ State.reset.gateCopy[k] = ⟨true, 31⟩) ∧
  (∀ a, memGet State.reset.mem a = 0 ∧ memGet State.reset.hmem a = 0) ∧
  (∀ d : Fin 6, (State.reset.dies[d]).present = false) ∧
  State.reset.ctxs = [] ∧ State.reset.queues = [] ∧ State.reset.handles = [] ∧ State.reset.maps = [] ∧ State.reset.vfs = [] ∧
  State.reset.groups = [] ∧ State.reset.grp.live = 0 ∧ State.reset.fatal = false ∧ State.reset.dump = none ∧ State.reset.bring = 0

/-! ### Memory -/

/-- Both memories are in the canonical form. -/
def memoryForm (s : State) : Prop := s.mem.wf = true ∧ s.hmem.wf = true

/-- The memory operations keep the canonical form; a read after a write finds the bytes written there and the old ones elsewhere;
memories in the form that read the same everywhere are equal. -/
def Obligations.MemoryOperations : Prop :=
  (∀ (m : Mem) (a : Nat) (b : Byte), m.wf = true → (memSet m a b).wf = true) ∧
  (∀ (m : Mem) (a : Nat) (bs : List Byte), m.wf = true → (memWrite m a bs).wf = true) ∧
  (∀ (m : Mem) (a x : Nat) (bs : List Byte), m.wf = true →
    memGet (memWrite m a bs) x = if a ≤ x ∧ x < a + bs.length then bs.getD (x - a) 0 else memGet m x) ∧
  ∀ m n : Mem, m.wf = true → n.wf = true → (∀ a, memGet m a = memGet n a) → m = n

/-- Every step keeps both memories in the canonical form. -/
def Obligations.StepKeepsMemoryForm : Prop :=
  ∀ s t : State, memoryForm s → step s = .next t → memoryForm t

/-- The canonical form holds at reset. -/
def Obligations.ResetMemoryForm : Prop := memoryForm State.reset

/-- What a performed entry of the store queue does to memory (R174, R176, R300, R359): a store of whole bytes leaves every byte outside the
bytes its lanes reach as it was; a reduction or a store of sub-byte elements, which reads its sectors first, every byte outside the sectors
its lanes reach; a piece of a lane of a whole-byte store at .pkg or .sys, on a page of kind NORMAL and inside
one sector, leaves its bytes at the base die. -/
def Obligations.PerformedStores : Prop :=
  (∀ (s : State) (o : StoreOp) (ls : List LaneAcc) (a : Nat), s.mem.wf = true → StoreOp.storedLanes o = some ls →
    (StoreOp.whole o = true ∧ outside ls a ∨ outsideSectors ls a) →
    memGet (s.performEntry o).mem a = memGet s.mem a) ∧
  ∀ (s : State) (w : Here) (sc : Scope) (cp : Cp) (pa k : Nat) (bs : List Byte), s.mem.wf = true → (sc = .pkg ∨ sc = .sys) →
    pa / 32 = (pa + bs.length - 1) / 32 → k < bs.length →
    memGet (s.storePiece w sc cp ⟨pa, bs.length, .normal⟩ bs).mem (pa + k) = bs.getD k 0

/-! ### Scalar and predicate instructions -/

/-- The scalar arithmetic, logic, shift, compare, select and move instructions (R114, R115): the destination gets the value of the rule,
nothing else of the group is written, the path goes on. A shift immediate above 63 is no instruction. -/
def Obligations.ScalarArithmetic : Prop :=
  (∀ i d n f s, ScalarArith i d n f → exec i s = .next ((s.setRs d (f s)).advance n)) ∧
  (∀ (s : State) (d : SReg) (v : W64), (s.setRs d v).rs d = v ∧ (∀ r, r ≠ d → (s.setRs d v).rs r = s.rs r) ∧
    (s.setRs d v) = { s with grp := { s.grp with s := (s.setRs d v).grp.s, olds := (s.setRs d v).grp.olds } }) ∧
  ∀ (w : W32) (rest : List W32), w.toNat % 2 ^ 10 ∈ [8 * 0x1C, 8 * 0x1D, 8 * 0x1E] → 64 ≤ w.toNat / 2 ^ 22 →
    decodeWords (w :: rest) = .error .field

/-- Scalar registers written from system registers, masks, futures and predicates (R70, R72, R133, R134, R136, R162, R215). -/
def Obligations.ScalarReads : Prop :=
  ∀ i d n f s, ScalarRead i d n f → exec i s = .next ((s.setRs d (f s)).advance n)

/-- Bit fields (R116): where position and width pass the checks the value is the field's; any other W2 is no instruction. -/
def Obligations.ScalarBitFields : Prop :=
  (∀ (sg : Bool) (d a : SReg) (p w : BitVec 8) (s : State), (Instr.sbfe sg d a p w).wf = true →
    exec (.sbfe sg d a p w) s = .next ((s.setRs d (fieldOut sg (s.rs a) p.toNat w.toNat)).advance 3)) ∧
  (∀ (d a : SReg) (p w : BitVec 8) (s : State), (Instr.sbfi d a p w).wf = true →
    exec (.sbfi d a p w) s = .next ((s.setRs d (fieldIn (s.rs d) (s.rs a) p.toNat w.toNat)).advance 3)) ∧
  (∀ (sg : Bool) (d a : SReg) (p w : BitVec 8),
    (Instr.sbfe sg d a p w).wf = (Instr.sbfi d a p w).wf ∧
      ((Instr.sbfe sg d a p w).wf = true ↔ p.toNat ≤ 63 ∧ 1 ≤ w.toNat ∧ w.toNat ≤ 64 ∧ p.toNat + w.toNat ≤ 64)) ∧
  ∀ (d a : SReg) (base : Nat) (w2 : W32) (rest : List W32), base ∈ [0x00000099, 0x10000099, 0x000000A1] →
    ¬(w2.toNat < 2 ^ 16 ∧ w2.toNat % 2 ^ 8 ≤ 63 ∧ 1 ≤ w2.toNat / 2 ^ 8 ∧ w2.toNat % 2 ^ 8 + w2.toNat / 2 ^ 8 ≤ 64) →
    decodeWords (BitVec.ofNat 32 (base + 2 ^ 10 * d.toNat + 2 ^ 16 * a.toNat) :: 0 :: w2 :: rest) = .error .field

/-- Predicate instructions (R18, R136): lanes of the guarded path get the value, the others keep theirs. PUNPK: bit k of a lane's word goes
to predicate k. -/
def Obligations.PredicateWrites : Prop :=
  (∀ i g d n f s, PredWrite i g d n f →
    ∃ v, exec i s = .next ((s.setRp d v).advance n) ∧
      ∀ l < 32, v.getLsbD l = if actsOn s g l then f s l else (s.rp d).getLsbD l) ∧
  ∀ (i : Instr) (g : Option Guard) (a : VReg) (n : Nat) (s : State),
    (i = .punpk a ∧ g = none ∧ n = 1 ∨ i = .punpkW1 g a ∧ n = 3) → s.vcheck [(a, 1)] [] = .ok () →
    ∃ p : Vector LaneMask 8, exec i s = .next ((s.setGrp fun x => { x with p := p }).advance n) ∧
      ∀ (k : Fin 8) (l : Nat), l < 32 →
        (p[k]).getLsbD l = if actsOn s g l then (laneBits s .b32 (.v a) l).getLsbD k else (s.grp.p[k]).getLsbD l

/-- Frame of the scalar and predicate instructions: but for their destination no scalar register, no predicate, no vector register, no
flag, no byte of memory and no other group changes; the path goes on by the instruction's words. -/
def Obligations.ScalarFrame : Prop :=
  (∀ i d n f s t, (ScalarArith i d n f ∨ ScalarRead i d n f) → exec i s = .next t →
    RegsKept s t [d] ∧ Outside s t ∧ WentOn s t n) ∧
  ∀ i g d n f s t, PredWrite i g d n f → exec i s = .next t →
    PredsKept s t d ∧ t.grp.fmode = s.grp.fmode ∧ Outside s t ∧ WentOn s t n

/-! ### Vector instructions -/

/-- Lane instructions that set no flag (R111, R136, R138 to R149, R161): where the registers pass the frame check and no result is
outstanding in the destination, each lane of the guarded path gets the value of its rule. -/
def Obligations.LaneValues : Prop :=
  ∀ i g reads d n words f s, LaneWrite i g reads d n words f → i.wf = true → s.vcheck reads [(d, n)] = .ok () →
    exec i s = .next ((s.vput d n (s.active g) (f s)).advance words)

/-- VADDC (R143): the sum of two operands and the carry predicate, exact; its low bits in the lane, its carry in the predicate. -/
def Obligations.CarryChain : Prop :=
  ∀ (g : Option Guard) (t : Ty) (x : Bool) (d a b : VReg) (c : PReg) (s : State),
    (Instr.vaddc g t x d a b c).wf = true → s.vcheck ((a, tyRegs t) :: (srcOf x b).reads (tyRegs t)) [(d, tyRegs t)] = .ok () →
    let sum (l : Nat) := (laneBits s t (.v a) l).toNat + (laneBits s t (srcOf x b) l).toNat + (if (s.rp c).getLsbD l then 1 else 0)
    ∃ v, exec (.vaddc g t x d a b c) s =
        .next (((s.vput d (tyRegs t) (s.active g) fun l => sum l % 2 ^ t.width).setRp c v).advance 3) ∧
      ∀ l < 32, v.getLsbD l = if actsOn s g l then decide (2 ^ t.width ≤ sum l) else (s.rp c).getLsbD l

/-- Floating-point instructions (R101, R102, R105, R106, R111, R150, R151, R154 to R156, R164): values and flags of each lane. Those that
round do it in the mode in force, with the draws of the lane; under SR the group's counter goes on. -/
def Obligations.RoundedLanes : Prop :=
  (∀ i g rnd draws reads d n words f s, RoundWrite i g rnd draws reads d n words f → i.wf = true → s.vcheck reads [(d, n)] = .ok () →
    let r (l : Nat) := f s (s.mode rnd) (fun j => s.draw j l) l
    let t := (s.vput d n (s.active g) fun l => (r l).1).orFlags (flagsOver (s.active g) fun l => (r l).2)
    exec i s = .next ((if s.mode rnd = .sr then t.drawn draws else t).advance words)) ∧
  ∀ i g reads d n words f s, FlagWrite i g reads d n words f → i.wf = true → s.vcheck reads [(d, n)] = .ok () →
    exec i s = .next (((s.vput d n (s.active g) fun l => (f s l).1).orFlags (flagsOver (s.active g) fun l => (f s l).2)).advance words)

/-- Compares and reductions: VCMP and FCMP put each lane's relation into a predicate (R146, R152); a reduction combines the active lanes'
values, ascending, into a scalar register (R163, log 15). -/
def Obligations.LaneResults : Prop :=
  (∀ i g reads d f s, PredLane i g reads d f → i.wf = true → s.vcheck reads [] = .ok () →
    ∃ v, exec i s = .next (((s.setRp d v).orFlags (flagsOver (s.active g) fun l => (f s l).2)).advance 3) ∧
      ∀ l < 32, v.getLsbD l = if actsOn s g l then (f s l).1 else (s.rp d).getLsbD l) ∧
  ∀ i g t a d words f s, Reduce i g t a d words f → i.wf = true → s.vcheck [(a, tyRegs t)] [] = .ok () →
    let r := f ((lanesOf (s.active g)).map fun l => s.src (.v a) t l)
    exec i s = .next (((s.setRs d (reduced t r.1)).orFlags r.2).advance words)

/-- Special functions (R159): the inputs are read at issue, the result becomes outstanding; an empty active set leaves nothing outstanding.
That the flags are set at issue, not with the result, is the model's choice (log 74). -/
def Obligations.SpecialFunctions : Prop :=
  ∀ i fn g d a words s, Special i fn g d a words → s.vcheck [(a, 1)] [(d, 1)] = .ok () →
    exec i s = .next (if s.active g = 0 then s.advance words
      else ((addResult s
        { id := s.nextId, tags := s.tags, cnt := .sfu, pos := s.slot.wbase + d.toNat, regs := 1, pc := s.pc, pend := s.active g
          full := s.active g, lanes := (lanesOf (s.active g)).map fun l => { lane := l, ea := 0, pieces := [] }
          kind := .sfu fn ((List.range 32).map fun l => BitVec.ofNat 32 (s.src (.v a) .b32 l)) }).orFlags
        (flagsOver (s.active g) fun l => (sfuResult fn (BitVec.ofNat 32 (s.src (.v a) .b32 l))).2)).advance words)

/-- Special inputs of the special functions (R160): zeros and infinities, and the NaN and NV of a signalling NaN. -/
def Obligations.SpecialInputs : Prop :=
  let row (x : W32) := (List.range 8).map fun fn => sfuResult fn x
  row 0x00000000 = [(0x7F800000, 0x10), (0x7F800000, 0x10), (0, 0), (0x3F800000, 0), (0xFF800000, 0x10), (0, 0), (0x3F800000, 0), (0, 0)] ∧
  row 0x80000000 = [(0xFF800000, 0x10), (0xFF800000, 0x10), (0x80000000, 0), (0x3F800000, 0), (0xFF800000, 0x10), (0x80000000, 0),
    (0x3F800000, 0), (0x80000000, 0)] ∧
  row 0x7F800000 = [(0, 0), (0, 0), (0x7F800000, 0), (0x7F800000, 0), (0x7F800000, 0), (0x7FC00000, 0x8), (0x7FC00000, 0x8), (0x3F800000, 0)] ∧
  row 0xFF800000 = [(0x80000000, 0), (0x7FC00000, 0x8), (0x7FC00000, 0x8), (0, 0), (0x7FC00000, 0x8), (0x7FC00000, 0x8), (0x7FC00000, 0x8),
    (0xBF800000, 0)] ∧
  (∀ fn, sfuResult fn 0x7F800001 = (0x7FC00000, 0x8) ∧ sfuResult fn 0x7FC00001 = (0x7FC00000, 0)) ∧
  ∀ (fn : Nat) (x : W32), fn = 1 ∨ fn = 2 ∨ fn = 4 → 0x80000000 < x.toNat → x.toNat < 0xFF800000 → sfuResult fn x = (0x7FC00000, 0x8)

/-- Frame of the lane instructions: the words of other registers and other lanes, the scalars, the predicates, memory and the other
groups are as before, and the lanes of the guarded path hold the value of the rule. -/
def Obligations.LaneFrame : Prop :=
  ∀ i g reads d n words f s t, LaneWrite i g reads d n words f → i.wf = true → s.vcheck reads [(d, n)] = .ok () →
    s.slot.fsize ≤ s.grp.vrf.length → exec i s = .next t →
    LanesKept s t d n (s.active g) ∧ t.grp.fmode = s.grp.fmode ∧ t.grp.rngc = s.grp.rngc ∧ Outside s t ∧ WentOn s t words ∧
      ∀ l < 32, (s.active g).getLsbD l = true → t.grp.vgetWide (s.slot.wbase + d.toNat) n l = BitVec.ofNat 128 (f s l % 2 ^ (32 * n))

/-- The generator function, draw n of lane l, and RNG's use of both (R166). -/
def Obligations.GeneratorDraws : Prop :=
  (∀ key x : W64, hashH key x = generator key x) ∧
  (∀ (s : State) (n l : Nat), s.draw n l = (generator s.grp.rngk (32 * (s.grp.rngc + BitVec.ofNat 64 n) + BitVec.ofNat 64 l)).toNat) ∧
  ∀ (i : Instr) (g : Option Guard) (unit : Bool) (d : VReg) (n : Nat) (s : State),
    (i = .rng unit d ∧ g = none ∧ n = 1 ∨ i = .rngW1 g unit d ∧ n = 3) → s.vcheck [] [(d, 1)] = .ok () →
    exec i s = .next (((s.vput d 1 (s.active g) fun l =>
        let h := (generator s.grp.rngk (32 * s.grp.rngc + BitVec.ofNat 64 l)).toNat
        if unit then (roundFp (fmtOf .f32) .rne 0 (.fin false (h / 2 ^ 8) (-24))).1 else h).setGrp fun x =>
      { x with rngc := x.rngc + 1 }).advance n)

/-- Floating-point formats (R96 to R98, R101, R103): rounding the value of an encoding that is not NaN gives the encoding back, in every
mode, without a flag. An exact sum of opposite signs that is zero is −0 under RDN alone; a nonzero value that rounds to zero keeps its
sign; a product of zeros has the sign of the signs. -/
def Obligations.RoundingAndZeros : Prop :=
  (∀ (t : Ty) (m : Rnd) (draw v : Nat), t ∈ [Ty.f64, .f32, .bf16, .f16, .e5m2, .e4m3, .e3m2, .e2m3, .e2m1] → v < 2 ^ (fmtOf t).bits →
    (decodeFp (fmtOf t) v).isNaN = false → roundFp (fmtOf t) m draw (decodeFp (fmtOf t) v) = (v, 0)) ∧
  (∀ (rdn a b : Bool) (m n : Nat) (e g : Int), a ≠ b → signedAt a m e (min e g) + signedAt b n g (min e g) = 0 →
    (addFp rdn (.fin a m e) (.fin b n g)).1 = .fin rdn 0 0) ∧
  (∀ (t : Ty) (m : Rnd) (draw : Nat) (neg : Bool) (mant : Nat) (exp : Int), mant ≠ 0 →
    (roundFin (fmtOf t) m draw false neg mant exp).1 % 2 ^ ((fmtOf t).bits - 1) = 0 →
    (roundFin (fmtOf t) m draw false neg mant exp).1 = signBit (fmtOf t) neg) ∧
  ∀ (a b : Bool) (e g : Int), (mulFp (.fin a 0 e) (.fin b 0 g)).1 = .fin (a != b) 0 (e + g)

/-- Conversions (R105, R106, R155), by the numbers that the encodings stand for: what an integer, a finite value, an infinity and a NaN of
any source give in any destination, in each mode, with and without SAT. A type converted to itself under SAT is not in the table where R106
and R155 differ (log 39). -/
def Obligations.Conversions : Prop :=
  ∀ (src dst : Ty) (mode : Rnd) (draw : Nat) (sat : Bool) (v : Nat) (r : Nat × Flags), Converts src dst mode draw sat v r →
    convert src dst mode draw sat v = r

/-- Minimum and maximum of two encodings of a format (R151), and FRND (R154), by the numbers that the encodings stand for: the lesser or the
greater, −0 below +0, NaN by the variant; the integer that the mode gives, with its sign and no NX. -/
def Obligations.MinimaAndIntegers : Prop :=
  (∀ (t : Ty) (isMax num : Bool) (a b : Nat) (r : Nat × Flags), isFloat t → MinMax (fmtOf t) isMax num a b r →
    minmaxBits (fmtOf t) isMax num a b = r) ∧
  ∀ (t : Ty) (mode : Rnd) (draw v : Nat) (r : Nat × Flags), Integral t mode draw v r → integralBits (fmtOf t) mode draw v = r

/-- What VRADD, VRMIN, VRMAX and VSCAN combine (R163, R164): the exact sum, modulo 2^w or rounded once, and the least or greatest value, by
the numbers that the encodings stand for; the identities of an empty set; NaN and infinities. -/
def Obligations.SumsAndExtremes : Prop :=
  (∀ (t : Ty) (vs : List Nat) (r : Nat × Flags), Sums t vs r → sumOf t vs = r) ∧
  ∀ (t : Ty) (isMax u : Bool) (vs : List Nat) (r : Nat × Flags), Extremes t isMax u vs r → extremeOf t isMax u vs = r

/-! ### Control flow, traps, system registers -/

/-- Control flow, calls, dispatches, splits, EXIT, TRAP and SVC (R76 to R80, R88 to R92, R118 to R129). -/
def Obligations.ControlFlow : Prop := ∀ i s t, Control i s t → exec i s = .next t

/-- System registers, execution masks, trap-frame reads, RETT, waits, sleep, random-number registers (R70, R130 to R134, R166, R167, R197). -/
def Obligations.SystemRegisters : Prop := ∀ i s t, System i s t → exec i s = .next t

/-- Codes that instructions raise (R5, R25, R70, R92, R124, R172, R194, R197, R215, R218, R252, R338, R409): the trap is taken, or what
taking it asks for first, and the instruction has no other effect. The model's own: MISALIGNED first for an $sp both misaligned and
too low (log 49), the formats of reduced service checked first (log 51), the ADDR of a misaligned TOWN (log 36). -/
def Obligations.RaisedCodes : Prop :=
  (∀ i s c, Raises i s c → exec i s = .next (s.trap c)) ∧
  ∀ i s c, MemRaises i s c → exec i s = .next (s.trap c)

/-- Taking a trap (R191 to R193, R195, R196). A code raised is taken as a trap, or held while results of the group are outstanding, as it
is while one stands with another unit (which of the two the hardware does, before the last result returns, is the model's reading: log 13). At
the trap results and the device's writes of the group are written first; the frame's words then
hold what R192 and R193 say, and the handler starts at the trap entry with every live lane in slot A. -/
def Obligations.TrapEntry : Prop :=
  (∀ (s : State) (c : Cause), s.grp.trap = none → (s.gang s.grp.gang).trapEntry ≠ 0 →
    (s.mustWait = true → s.trap c = raisedBy s c) ∧
    (s.mustWait = false → s.trap c = s.takeTrap c ∨ s.grp.outst ≠ [] ∧ s.trap c = raisedBy s c)) ∧
  (∀ s : State, s.grp.raised ≠ none → s.canIssue = false) ∧
  ∀ (s u v : State) (c : Cause), s.grp.trap = none → (s.gang s.grp.gang).trapEntry ≠ 0 → c.code < 256 →
    u = (s.returnAll fun _ => true).drainQueue (fun o => o.group == s.grp.key && o.cnt == .none) →
    u.grpWrite u.grp.tfp ((u.frameWords c).flatMap fun w => bytesOfNat 8 w.toNat) = .ok v →
    (∀ t, v.enterTrap (s.gang s.grp.gang).trapEntry = .ok t → s.takeTrap c = t ∧ Handling u t (s.gang s.grp.gang).trapEntry) ∧
    (u.frameWords c).length = 512 ∧ FrameHolds u c fun k => (u.frameWords c).getD k 0

/-- A code raised in trap mode, or without a handler, ends the launch context (R190, R198): its groups are gone, the context is
TERMINATED. The cause word of a DOUBLE_FAULT holds 0x12 and, as SEC, the code raised (R193). -/
def Obligations.DoubleFault : Prop :=
  (∀ (s t : State) (c : Cause), (s.grp.trap ≠ none ∨ (s.gang s.grp.gang).trapEntry = 0) → t = s.trap c →
    t = s.terminateFor c s.inTrap ∧ t.grp.live = 0 ∧ (∀ g ∈ t.groups, ¬(g.vf = s.grp.vf ∧ g.part = s.grp.part)) ∧
      ∀ x, t.ctx s.grp.vf s.grp.part = some x → x.state = .terminated) ∧
  ∀ (c : Cause) (i : SlotId), c.code < 256 → bitsOf (c.word i true) 0 8 = 0x12 ∧ bitsOf (c.word i true) 16 8 = c.code

/-! ### Memory access -/

/-- Loads that issue (R168 to R177): the result becomes outstanding, counts, and the path goes on. -/
def Obligations.LoadsIssue : Prop := ∀ i s t, Loads i s t → exec i s = .next t

/-- Stores that issue (R168 to R177): their data are read and they are queued for their point. -/
def Obligations.StoresIssue : Prop := ∀ i s t, Stores i s t → exec i s = .next t

/-- Atomics and reductions that issue (R179 to R182). -/
def Obligations.AtomicsIssue : Prop := ∀ i s t, Atomics i s t → exec i s = .next t

/-- The value that one step of an atomic leaves (R180). -/
def Obligations.AtomicValues : Prop :=
  ∀ (op : AtomOp) (t : Ty) (old b c : BitVec (tyBits t)), (op.accepts t true = true) →
    atomNew op t old.toNat b.toNat c.toNat = (atomAfter op t old b c).toNat

/-- Fences, cache control, waiting on a word, WAKE (R185 to R188). CCTL.icinv performs the core's queued stores first (log 37), and WAKE
asks for no permission and finds its waiters by the physical address (log 18): both are the model's readings. -/
def Obligations.OrderingInstructions : Prop := ∀ i s t, Orders i s t → exec i s = .next t

/-- PREF (R184): it never raises a memory fault and no register, group, gang or launch changes but the path's place; with no store to host
memory queued, no byte of it changes. -/
def Obligations.Prefetches : Prop :=
  ∀ i g x n s, PrefForm i g x n → s.vcheck (idxReads x) [] = .ok () →
    ∃ t, exec i s = .next t ∧ Prefetched s t n ∧
      ((∀ o ∈ s.wq, ∀ ls, StoreOp.storedLanes o = some ls → ∀ l ∈ ls, ∀ p ∈ l.pieces, p.kind ≠ .host) → t.hmem = s.hmem)

/-- What issuing an access leaves alone (R174): scalars, predicates, flags and the draw counter, for every load, store and atomic. A load
without an order and a store without one, on a path with no result outstanding, leave every vector register and every byte of memory as
it was: the store's bytes reach memory when its queue entry is performed. -/
def Obligations.MemoryIssueFrame : Prop :=
  (∀ i s t, (Loads i s t ∨ Stores i s t ∨ Atomics i s t) → exec i s = .next t →
    (∀ r, t.rs r = s.rs r) ∧ (∀ p, t.rp p = s.rp p) ∧ t.grp.fmode = s.grp.fmode ∧ t.grp.rngc = s.grp.rngc) ∧
  (∀ i s t isLocal a, Loads i s t → LoadForm i isLocal a → a.ord = .rlx → exec i s = .next t →
    t.grp.vrf = s.grp.vrf ∧ (∀ x, memGet t.mem x = memGet s.mem x) ∧ t.gangs = s.gangs ∧ t.l2 = s.l2 ∧ t.wq = s.wq) ∧
  ∀ i s t isLocal a, Stores i s t → StoreForm i isLocal a → a.ord = .rlx → s.grp.outst = [] → exec i s = .next t →
    t.grp.vrf = s.grp.vrf ∧ (∀ x, memGet t.mem x = memGet s.mem x) ∧ t.gangs = s.gangs ∧ t.l2 = s.l2 ∧
      (a.lanes s ≠ 0 → ∃ o, t.wq = s.wq ++ [o] ∧ o.group = s.grp.key ∧ o.counted = true)

/-- Events of outstanding accesses and of the caches (R159, R173, R174, R177, R185, R187, R281, R300, R359). The payload of the packets that a
write-back charges (log 22), and the root's second walk as the answer to a stage-2 failure (log 12), are the model's. -/
def Obligations.AccessEvents : Prop := ∀ i s t, Statements.AccessEvents i s t → exec i s = .next t

/-- Events of bundles and joins (R28, R31 to R36, R78 to R80, R195). -/
def Obligations.FetchEvents : Prop := ∀ i s t, Statements.FetchEvents i s t → exec i s = .next t

/-! ### Futures, groups, barriers, read sections -/

/-- R75: issuing an operation into fk marks fk pending in the views of both slots; a resolution sets the future resolved and clears the
mark in both views; a path that reads a pending future parks, and cannot issue while it is pending. -/
def Obligations.FutureViews : Prop :=
  (∀ (s : State) (f : FReg) (op : Nat), (s.issueFut f op).fut f = ⟨.pending, 0, op⟩ ∧
    (s.issueFut f op).grp.slotA.view = s.grp.slotA.view ||| (1#16 <<< f.toNat) ∧
    (s.issueFut f op).grp.slotB.view = s.grp.slotB.view ||| (1#16 <<< f.toNat)) ∧
  (∀ (s : State) (f : FReg) (op : Nat) (status : W32), (s.fut f).state = .pending → (s.fut f).op = op →
    ((s.resolve op status).fut f) = ⟨.resolved, status, op⟩ ∧ (s.resolve op status).grp.slotA.view.getLsbD f.toNat = false ∧
      (s.resolve op status).grp.slotB.view.getLsbD f.toNat = false) ∧
  (∀ (s : State) (d : SReg) (f : FReg), (s.fut f).state = .pending → exec (.fwait d f) s = .next (s.park (.future f (s.fut f).op))) ∧
  ∀ (s : State) (f : FReg), s.slot.derr = none → s.slot.park = .future f (s.fut f).op → (s.fut f).state = .pending → s.canIssue = false

/-- Futures and SPAWN (R213 to R220); a spawned group starts in the state of R69 and R219. FEXP takes the lowest free entry and counts its
generations from 1 (log 16), which R216 leaves open. -/
def Obligations.FuturesAndSpawning : Prop :=
  (∀ i s t, Futures i s t → exec i s = .next t) ∧
  (∀ i s t, Spawns i s t → exec i s = .next t) ∧
  ∀ (s : State) (g : Gang) (key gid r core : Nat) (ro : Role) (v : List W64),
    let x := startGroup s g key gid r ro core v
    x.live = 0xFFFFFFFF ∧ x.slotA.mask = 0xFFFFFFFF ∧ x.slotA.pcb = ro.entry ∧ x.slotA.idx = 1 ∧ x.slotA.pj = none ∧
      x.slotA.fsize = ro.f0 ∧ x.slotA.coil = [] ∧ x.slotB = {} ∧ x.sjoin = none ∧ (∀ k : Fin 8, x.p[k] = 0) ∧
      (∀ k : Fin 64, x.s[k] = v.getD k 0) ∧ (∀ f : Fin 16, x.f[f] = {}) ∧ x.vrf = List.replicate (ro.f0 + ro.w) (Vector.replicate 32 0) ∧
      x.rngc = 0 ∧ x.fmode = 0 ∧ x.rsd = 0 ∧ x.outst = [] ∧ x.trap = none

/-- Barriers (R252, R253), and the release that SETLEAVE performs (R304). -/
def Obligations.Barriers : Prop := ∀ i s t, Statements.Barriers i s t → exec i s = .next t

/-- A phase ends exactly when every member in EXPECT has arrived in it (R253, R304 for SETLEAVE): PHASE flips and ARRV is cleared in one step; every path of
the gang that is parked on the set, of the current group, of any other, of the interrupted ones in trap mode, goes on, whether it waits for
the phase (BWAIT, BSYNC) or to arrive again (BARV, BSYNC, SETLEAVE); and otherwise nothing changes. -/
def Obligations.PhaseEnds : Prop :=
  ∀ (s : State) (key n : Nat) (e : SetEntry), (s.gang key).key = key → (s.gang key).sets[n]? = some e →
    if 0 < ones 256 (e.member &&& ~~~e.left) ∧ ones 256 (e.member &&& ~~~e.left) = ones 256 e.arrv
    then ((s.completeIf key n).gang key).sets[n]? = some { e with phase := !e.phase, arrv := 0, since := none } ∧
      phaseOver key n s.grp (s.completeIf key n).grp ∧ List.Forall₂ (phaseOver key n) s.groups (s.completeIf key n).groups ∧
      (∀ m, m ≠ n → ((s.completeIf key n).gang key).sets[m]? = (s.gang key).sets[m]?) ∧
      (∀ k, k ≠ key → (s.completeIf key n).gang k = s.gang k) ∧
      s.completeIf key n = { s with
        gangs := (s.completeIf key n).gangs, grp := (s.completeIf key n).grp, groups := (s.completeIf key n).groups }
    else s.completeIf key n = s

/-- Read sections, grace periods and deferred frees (R338 to R343). -/
def Obligations.GracePeriods : Prop := ∀ i s t, Grace' i s t → exec i s = .next t

/-! ### Engines, the matrix engine, near memory -/

/-- GATHER, TCOPY, PUT, RFENCE and TOWN (R257, R258, R284 to R296). -/
def Obligations.EngineIssue : Prop := ∀ i s t, Engines i s t → exec i s = .next t

/-- What the gather, copy and put engines do, and the barrier watchdog (R256, R258, R259, R268, R285 to R293). -/
def Obligations.EngineEvents : Prop := ∀ i s t, Statements.EngineEvents i s t → exec i s = .next t

/-- LDSTAT, SWAP, MMQ, MMQS and the tile store (R225, R226, R234, R235, R239, R240). -/
def Obligations.MatrixIssue : Prop := ∀ i s t, Matrices i s t → exec i s = .next t

/-- Events of the reservation table (R225 to R230, R234, R240). -/
def Obligations.MatrixEvents : Prop := ∀ i s t, TableEvents i s t → exec i s = .next t

/-- NMCALL, IXRED, WALK, COLL and GRED (R367 to R377). -/
def Obligations.NearMemoryIssue : Prop := ∀ i s t, Nears i s t → exec i s = .next t

/-- Events of the near-memory units (R360, R363 to R379). How many packets a row, a share or a token costs, and their payloads, is the model's
choice (log 22). -/
def Obligations.NearMemoryEvents : Prop := ∀ i s t, NearEvents i s t → exec i s = .next t

/-! ### Other packages -/

/-- REMLD, REMST, REMATOM, RRED, DPOST, XCAL and XRUN (R420 to R435). -/
def Obligations.FabricIssue : Prop := ∀ i s t, Fabrics i s t → exec i s = .next t

/-- Events of the fabric and of the acknowledgement of a cancel (R215, R416 to R436). The model's own: a refused arrival answers as bad data
(log 23), a takeover issues its rounds in one event (log 24), what a slot carries that starts late or is partly used (log 25), the list of
missing sources of a timeout (log 36), what a port change drains (log 57). -/
def Obligations.FabricEvents : Prop := ∀ i s t, Statements.FabricEvents i s t → exec i s = .next t

/-! ### The root, the host, power -/

/-- Queues and launches (R319 to R323, R327, R328, R330). -/
def Obligations.QueueEvents : Prop := ∀ i s t, Statements.QueueEvents i s t → exec i s = .next t

/-- Admission, retirement, stealing, slices, saving and resuming; grace periods and deferred frees (R204 to R209, R324 to R345). -/
def Obligations.ContextEvents : Prop :=
  (∀ i s t, Statements.ContextEvents i s t → exec i s = .next t) ∧ ∀ i s t, RegulatorEvents i s t → exec i s = .next t

/-- Sessions, and reads and writes of BAR0, BAR2 and BAR4 (R388, R391, R399, R401, R403 to R405). The order of the requests of a session is log
30, the places of a command's operands in its 64 bytes log 71. -/
def Obligations.HostAccess : Prop :=
  (∀ i s t, SessionEvents i s t → exec i s = .next t) ∧ ∀ i s t, BarWrites i s t → exec i s = .next t

/-- Mailbox commands (R387, R392 to R402). EVICT and PARTITION answer at once (log 26), the corners of MAP, HWIN, RESIZE and SAVEAREA (log
29) and the unused operands (log 71) are the model's. -/
def Obligations.MailboxCommands : Prop := ∀ i s t, Commands i s t → exec i s = .next t

/-- Power states, bring-up, takeover, fatal errors, package reset (R361, R390, R406 to R410); a failed die leaves the service (R361). When SREF
is entered and left (log 32) and what a package reset keeps (log 34) are the model's. -/
def Obligations.PowerAndService : Prop :=
  (∀ i s t, PowerEvents i s t → exec i s = .next t) ∧
  ∀ (d : Nat) (s : State), (s.die d).present = true → ∃ t, exec (.dieFailure d) s = .next t ∧ DieGone s t d

end Slice0
end

