-- ==== Sys2Proof/Laws/Decode.lean ====
section
/-! SUPPORT. The packing of the words of an instruction and its inverse; the codes of the fields and theirs. -/
namespace Sys2Proof

/-- The bits of a packed base word. -/
theorem packBase_getLsbD (x : BaseWord) (i : Nat) :
    (packBase x).getLsbD i = (x.m ++ x.b ++ x.a ++ x.d ++ x.op ++ BitVec.ofBool x.u ++ x.len).getLsbD i := rfl
theorem packExt_getLsbD (x : ExtWord) (i : Nat) :
    (packExt x).getLsbD i = (x.xop ++ x.cp ++ x.ord ++ x.sc ++ x.ty ++ BitVec.ofBool x.sat ++ x.rnd ++ x.p ++ BitVec.ofBool x.pn ++
      BitVec.ofBool x.pe ++ x.c).getLsbD i := rfl

/-- Unpacking the base word gives the fields it was packed from. -/
@[simp] theorem unpackBase_packBase (x : BaseWord) : unpackBase (packBase x) = x := by
  simp only [unpackBase]
  obtain ⟨l, u, op, d, a, b, m⟩ := x
  simp only [BaseWord.mk.injEq]
  refine ⟨?_, ?_, ?_, ?_, ?_, ?_, ?_⟩ <;>
    first
      | (apply BitVec.eq_of_getLsbD_eq; intro i hi
         simp only [BitVec.getLsbD_extractLsb', packBase_getLsbD, BitVec.getLsbD_append]
         interval_cases i <;> simp)
      | (rw [packBase_getLsbD]; simp only [BitVec.getLsbD_append]; simp)

/-- Packing the fields of a word gives the word back. -/
@[simp] theorem packBase_unpackBase (w : W32) : packBase (unpackBase w) = w := by
  apply BitVec.eq_of_getLsbD_eq
  intro i hi
  simp only [packBase_getLsbD, BitVec.getLsbD_append, unpackBase, BitVec.getLsbD_extractLsb', BitVec.getLsbD_ofBool]
  interval_cases i <;> simp

/-- The same of W1. -/
@[simp] theorem unpackExt_packExt (x : ExtWord) : unpackExt (packExt x) = x := by
  simp only [unpackExt]
  obtain ⟨c, pe, pn, p, rnd, sat, ty, sc, ord, cp, xop⟩ := x
  simp only [ExtWord.mk.injEq]
  refine ⟨?_, ?_, ?_, ?_, ?_, ?_, ?_, ?_, ?_, ?_, ?_⟩ <;>
    first
      | (apply BitVec.eq_of_getLsbD_eq; intro i hi
         simp only [BitVec.getLsbD_extractLsb', packExt_getLsbD, BitVec.getLsbD_append]
         interval_cases i <;> simp)
      | (rw [packExt_getLsbD]; simp only [BitVec.getLsbD_append]; simp)

@[simp] theorem packExt_unpackExt (w : W32) : packExt (unpackExt w) = w := by
  apply BitVec.eq_of_getLsbD_eq
  intro i hi
  simp only [packExt_getLsbD, BitVec.getLsbD_append, unpackExt, BitVec.getLsbD_extractLsb', BitVec.getLsbD_ofBool]
  interval_cases i <;> simp

/-- The two words of a literal. -/
@[simp] theorem literal_halves (l : W64) : (l.extractLsb' 32 32 ++ l.extractLsb' 0 32 : BitVec 64) = l := by
  apply BitVec.eq_of_getLsbD_eq
  intro i hi
  rw [BitVec.getLsbD_append, BitVec.getLsbD_extractLsb', BitVec.getLsbD_extractLsb']
  by_cases h : i < 32
  · simp [h]
  · simp [h, show 32 + (i - 32) = i by omega, show i - 32 < 32 by omega]

/-! ### Codes -/

@[simp] theorem tyOf_tyCode (x) : tyOf (tyCode x) = some x := by cases x <;> rfl
@[simp] theorem rndOf_rndCode (x) : rndOf (rndCode x) = some x := by cases x <;> rfl
@[simp] theorem scopeOf_scopeCode (x) : scopeOf (scopeCode x) = some x := by cases x <;> rfl
@[simp] theorem cpOf_cpCode (x) : cpOf (cpCode x) = some x := by cases x <;> rfl
@[simp] theorem cmpOf_cmpCode (x) : cmpOf (cmpCode x) = some x := by cases x <;> rfl
@[simp] theorem fcmpOf_fcmpCode (x) : fcmpOf (fcmpCode x) = some x := by cases x <;> rfl
@[simp] theorem atomOf_atomCode (x) : atomOf (atomCode x) = some x := by cases x <;> rfl
@[simp] theorem scanOf_scanCode (x) : scanOf (scanCode x) = some x := by cases x <;> rfl
@[simp] theorem sysRegOf_sysRegCode (x) : sysRegOf (sysRegCode x) = some x := by cases x <;> rfl
@[simp] theorem orderOf_orderCode (x) : Sys2Proof.orderOf (orderCode x) = x := by cases x <;> rfl
@[simp] theorem guardOf_extGuard (g : Option Guard) : guardOf (extGuard g) = some g := by
  rcases g with _ | ⟨p, n⟩ <;> simp [guardOf, extGuard]
@[simp] theorem brOf_brA (x) : brOf (brA x) (brM x) = some x := by cases x <;> simp [brOf, brA, brM]

end Sys2Proof
end

