-- ==== Sys2Proof/Laws/Mem.lean ====
section
/-! SUPPORT. The canonical form of a memory: every operation on bytes keeps it, and reset's memories have it; what a byte reads as after
one byte is written. -/
namespace Sys2Proof.Machine
open Sys2Proof

/-- Above a lower bound, above a higher address that the list does not reach. -/
theorem memAbove_weaken {lo : Option Nat} {m : Mem} (h : memAbove lo m = true) : memAbove none m = true := by
  cases m with
  | nil => rfl
  | cons c r => simp only [memAbove, Bool.and_eq_true, Bool.true_and] at h ⊢; exact ⟨h.1.2, h.2⟩

theorem memAbove_lower {k : Nat} {lo : Option Nat} {m : Mem} (h : memAbove (some k) m = true) (hl : ∀ l, lo = some l → l < k) :
    memAbove lo m = true := by
  cases m with
  | nil => rfl
  | cons c r =>
    simp only [memAbove, Bool.and_eq_true, decide_eq_true_eq] at h ⊢
    refine ⟨⟨?_, h.1.2⟩, h.2⟩
    cases lo with
    | none => rfl
    | some l => simpa using (hl l rfl).trans h.1.1

/-- One byte written keeps the form, above any bound below its address. -/
theorem memSet_above (m : Mem) (a : Nat) (v : Byte) (lo : Option Nat) (h : memAbove lo m = true) (hl : ∀ l, lo = some l → l < a) :
    memAbove lo (memSet m a v) = true := by
  induction m generalizing lo with
  | nil =>
    by_cases hv : v = 0
    · simp [memSet, hv, memAbove]
    · rw [memSet, if_neg hv]
      cases lo with
      | none => simpa [memAbove] using hv
      | some l => simpa [memAbove, hl l rfl] using hv
  | cons c r ih =>
    obtain ⟨k, b⟩ := c
    simp only [memAbove, Bool.and_eq_true, bne_iff_ne, ne_eq] at h
    obtain ⟨⟨hk, hb⟩, hr⟩ := h
    have whole : memAbove lo ((k, b) :: r) = true := by simp only [memAbove, Bool.and_eq_true, bne_iff_ne, ne_eq]; exact ⟨⟨hk, hb⟩, hr⟩
    simp only [memSet]
    by_cases h1 : a < k
    · by_cases hv : v = 0
      · simpa [h1, hv] using whole
      · rw [if_pos h1, if_neg hv]
        cases lo with
        | none => simpa [memAbove, hr, h1] using ⟨hv, hb⟩
        | some l => simpa [memAbove, hr, h1, hl l rfl] using ⟨hv, hb⟩
    · by_cases h2 : a = k
      · subst h2
        by_cases hv : v = 0
        · simpa [hv] using memAbove_lower hr hl
        · rw [if_neg h1, if_pos rfl, if_neg hv]
          cases lo with
          | none => simpa [memAbove, hr] using hv
          | some l => simpa [memAbove, hr, hl l rfl] using hv
      · have hka : k < a := by omega
        simp only [h1, h2, if_false, memAbove, Bool.and_eq_true, bne_iff_ne, ne_eq]
        exact ⟨⟨hk, hb⟩, ih (some k) hr (by rintro l ⟨⟩; exact hka)⟩

/-- Every memory operation keeps the canonical form. -/
theorem memSet_wf (m : Mem) (a : Nat) (v : Byte) (h : m.wf = true) : (memSet m a v).wf = true :=
  memSet_above m a v none h (by rintro l ⟨⟩)

theorem memWrite_wf (m : Mem) (a : Nat) (bs : List Byte) (h : m.wf = true) : (memWrite m a bs).wf = true := by
  induction bs generalizing m a with
  | nil => exact h
  | cons b r ih => exact ih _ _ (memSet_wf m a b h)

theorem memAbove_filter (p : Host.Cell → Bool) (lo : Option Nat) (m : Mem) (h : memAbove lo m = true) : memAbove lo (m.filter p) = true := by
  induction m generalizing lo with
  | nil => rfl
  | cons c r ih =>
    simp only [memAbove, Bool.and_eq_true] at h
    by_cases hp : p c = true
    · simp only [List.filter_cons, hp, if_true, memAbove, Bool.and_eq_true]
      exact ⟨h.1, ih _ h.2⟩
    · simp only [List.filter_cons, hp]
      refine memAbove_lower (ih _ h.2) ?_
      rintro l rfl; simpa using h.1.1

theorem memFilter_wf (p : Host.Cell → Bool) (m : Mem) (h : m.wf = true) : Mem.wf (m.filter p) = true := memAbove_filter p none m h

/-- Memory as reset leaves it has the form. -/
theorem reset_mem_wf : State.reset.mem.wf = true := rfl
theorem reset_hmem_wf : State.reset.hmem.wf = true := rfl

/-- The bound of a list in the form lies below every address it lists. -/
theorem memGet_above (m : Mem) (k a : Nat) (h : memAbove (some k) m = true) (ha : a ≤ k) : memGet m a = 0 := by
  induction m generalizing k with
  | nil => rfl
  | cons c r ih =>
    simp only [memAbove, Bool.and_eq_true, decide_eq_true_eq] at h
    have : a ≠ c.1 := by omega
    simp only [memGet, this, if_false]
    exact ih c.1 h.2 (by omega)

/-- A read after one byte is written. -/
theorem memGet_memSet (m : Mem) (a x : Nat) (v : Byte) (lo : Option Nat) (h : memAbove lo m = true) :
    memGet (memSet m a v) x = if x = a then v else memGet m x := by
  induction m generalizing lo with
  | nil =>
    by_cases hv : v = 0
    · simp [memSet, hv, memGet]
    · rw [memSet, if_neg hv]; simp [memGet]
  | cons c r ih =>
    obtain ⟨k, b⟩ := c
    simp only [memAbove, Bool.and_eq_true] at h
    have hz : ∀ y, y ≤ k → memGet r y = 0 := fun y hy => memGet_above r k y h.2 hy
    simp only [memSet]
    by_cases h1 : a < k
    · by_cases hv : v = 0
      · simp only [h1, hv, if_true, memGet]
        by_cases hx : x = a
        · have : x ≠ k := by omega
          simp [hx, hz a (by omega), show a ≠ k by omega]
        · simp [hx]
      · rw [if_pos h1, if_neg hv]; simp [memGet]
    · by_cases h2 : a = k
      · subst h2
        by_cases hv : v = 0
        · simp only [h1, hv, if_true, if_false, memGet]
          by_cases hx : x = a
          · simp [hx, hz a (le_refl a)]
          · simp [hx]
        · simp only [h1, hv, if_true, if_false, memGet]
          by_cases hx : x = a <;> simp [hx]
      · simp only [h1, h2, if_false, memGet, ih (some k) h.2]
        by_cases hx : x = k
        · simp [hx, show k ≠ a by omega]
        · simp [hx]

/-- Bytes read back as many as were asked for. -/
@[simp] theorem memRead_length (m : Mem) (a n : Nat) : (memRead m a n).length = n := by
  induction n generalizing a with
  | zero => rfl
  | succ n ih => simp [memRead, ih]

/-! ### Memory of the state -/

/-- Bytes put at the base die keep the form, whole or under a mask. -/
theorem basePut_wf (s : State) (part pa : Nat) (bs : List Byte) (h : s.mem.wf = true) : (s.basePut part pa bs).mem.wf = true := memWrite_wf _ _ _ h
@[simp] theorem basePut_hmem (s : State) (part pa : Nat) (bs : List Byte) : (s.basePut part pa bs).hmem = s.hmem := rfl

theorem foldl_wf {α : Type} (l : List α) (f : State → α → State) (s : State) (hf : ∀ s x, s.mem.wf = true → (f s x).mem.wf = true)
    (h : s.mem.wf = true) : (l.foldl f s).mem.wf = true := by
  induction l generalizing s with
  | nil => exact h
  | cons x r ih => exact ih _ (hf _ _ h)

theorem basePutMasked_wf (s : State) (part sec : Nat) (bs : List Byte) (mask : LaneMask) (h : s.mem.wf = true) :
    (s.basePutMasked part sec bs mask).mem.wf = true := by
  refine foldl_wf _ _ _ (fun s i h => ?_) ?_
  · split
    · exact memSet_wf _ _ _ h
    · exact h
  · split <;> exact h

theorem rereadSec_wf (old new : List Byte × List Byte) (m : Mem) (sec : Nat) (h : m.wf = true) : (rereadSec old new m sec).wf = true := by
  unfold rereadSec
  generalize reread old new sec _ = bs
  exact memWrite_wf _ _ _ h

/-- Sectors read again under another pair of keys keep the form (R396). -/
theorem rereadPage_wf (s : State) (old new : List Byte × List Byte) (p : Nat) (h : s.mem.wf = true) : (s.rereadPage old new p).mem.wf = true := by
  have go (l : List Nat) (m : Mem) (hm : m.wf = true) : (l.foldl (rereadSec old new) m).wf = true := by
    induction l generalizing m with
    | nil => exact hm
    | cons k r ih => rw [List.foldl_cons]; exact ih _ (rereadSec_wf _ _ _ _ hm)
  simp only [State.rereadPage]
  exact go _ _ h

/-- An entry written into one of the root's tables keeps the form. -/
theorem tablePut_wf (s : State) (t x level e : Nat) (h : s.mem.wf = true) : (s.tablePut t x level e).mem.wf = true := memWrite_wf _ _ _ h

end Sys2Proof.Machine
end

