-- ==== Sys2Proof/Laws/State.lean ====
section
/-! SUPPORT. One lemma per field of the state (and of the current group) per update: what an update leaves alone, and what it writes. -/
namespace Sys2Proof.Machine
open Sys2Proof

/-! ### setGrp -/

@[simp] theorem State.setGrp_agenda (s : State) (f : Group → Group) : (s.setGrp f).agenda = s.agenda := rfl
@[simp] theorem State.setGrp_sel (s : State) (f : Group → Group) : (s.setGrp f).sel = s.sel := rfl
@[simp] theorem State.setGrp_tick (s : State) (f : Group → Group) : (s.setGrp f).tick = s.tick := rfl
@[simp] theorem State.setGrp_nextId (s : State) (f : Group → Group) : (s.setGrp f).nextId = s.nextId := rfl
@[simp] theorem State.setGrp_groups (s : State) (f : Group → Group) : (s.setGrp f).groups = s.groups := rfl
@[simp] theorem State.setGrp_gangs (s : State) (f : Group → Group) : (s.setGrp f).gangs = s.gangs := rfl
@[simp] theorem State.setGrp_time (s : State) (f : Group → Group) : (s.setGrp f).time = s.time := rfl
@[simp] theorem State.setGrp_synced (s : State) (f : Group → Group) : (s.setGrp f).synced = s.synced := rfl
@[simp] theorem State.setGrp_wq (s : State) (f : Group → Group) : (s.setGrp f).wq = s.wq := rfl
@[simp] theorem State.setGrp_l1 (s : State) (f : Group → Group) : (s.setGrp f).l1 = s.l1 := rfl
@[simp] theorem State.setGrp_l2 (s : State) (f : Group → Group) : (s.setGrp f).l2 = s.l2 := rfl
@[simp] theorem State.setGrp_wbuf (s : State) (f : Group → Group) : (s.setGrp f).wbuf = s.wbuf := rfl
@[simp] theorem State.setGrp_icache (s : State) (f : Group → Group) : (s.setGrp f).icache = s.icache := rfl
@[simp] theorem State.setGrp_fetchq (s : State) (f : Group → Group) : (s.setGrp f).fetchq = s.fetchq := rfl
@[simp] theorem State.setGrp_tlb (s : State) (f : Group → Group) : (s.setGrp f).tlb = s.tlb := rfl
@[simp] theorem State.setGrp_misses (s : State) (f : Group → Group) : (s.setGrp f).misses = s.misses := rfl
@[simp] theorem State.setGrp_rtlb (s : State) (f : Group → Group) : (s.setGrp f).rtlb = s.rtlb := rfl
@[simp] theorem State.setGrp_recs (s : State) (f : Group → Group) : (s.setGrp f).recs = s.recs := rfl
@[simp] theorem State.setGrp_planes (s : State) (f : Group → Group) : (s.setGrp f).planes = s.planes := rfl
@[simp] theorem State.setGrp_rtab (s : State) (f : Group → Group) : (s.setGrp f).rtab = s.rtab := rfl
@[simp] theorem State.setGrp_ops (s : State) (f : Group → Group) : (s.setGrp f).ops = s.ops := rfl
@[simp] theorem State.setGrp_stopping (s : State) (f : Group → Group) : (s.setGrp f).stopping = s.stopping := rfl
@[simp] theorem State.setGrp_shares (s : State) (f : Group → Group) : (s.setGrp f).shares = s.shares := rfl
@[simp] theorem State.setGrp_abank (s : State) (f : Group → Group) : (s.setGrp f).abank = s.abank := rfl
@[simp] theorem State.setGrp_admits (s : State) (f : Group → Group) : (s.setGrp f).admits = s.admits := rfl
@[simp] theorem State.setGrp_dies (s : State) (f : Group → Group) : (s.setGrp f).dies = s.dies := rfl
@[simp] theorem State.setGrp_gates (s : State) (f : Group → Group) : (s.setGrp f).gates = s.gates := rfl
@[simp] theorem State.setGrp_gateCopy (s : State) (f : Group → Group) : (s.setGrp f).gateCopy = s.gateCopy := rfl
@[simp] theorem State.setGrp_mem (s : State) (f : Group → Group) : (s.setGrp f).mem = s.mem := rfl
@[simp] theorem State.setGrp_hmem (s : State) (f : Group → Group) : (s.setGrp f).hmem = s.hmem := rfl
@[simp] theorem State.setGrp_poison (s : State) (f : Group → Group) : (s.setGrp f).poison = s.poison := rfl
@[simp] theorem State.setGrp_kills (s : State) (f : Group → Group) : (s.setGrp f).kills = s.kills := rfl
@[simp] theorem State.setGrp_regions (s : State) (f : Group → Group) : (s.setGrp f).regions = s.regions := rfl
@[simp] theorem State.setGrp_control (s : State) (f : Group → Group) : (s.setGrp f).control = s.control := rfl
@[simp] theorem State.setGrp_entries (s : State) (f : Group → Group) : (s.setGrp f).entries = s.entries := rfl
@[simp] theorem State.setGrp_nmus (s : State) (f : Group → Group) : (s.setGrp f).nmus = s.nmus := rfl
@[simp] theorem State.setGrp_credits (s : State) (f : Group → Group) : (s.setGrp f).credits = s.credits := rfl
@[simp] theorem State.setGrp_reqs (s : State) (f : Group → Group) : (s.setGrp f).reqs = s.reqs := rfl
@[simp] theorem State.setGrp_chq (s : State) (f : Group → Group) : (s.setGrp f).chq = s.chq := rfl
@[simp] theorem State.setGrp_inject (s : State) (f : Group → Group) : (s.setGrp f).inject = s.inject := rfl
@[simp] theorem State.setGrp_srefStacks (s : State) (f : Group → Group) : (s.setGrp f).srefStacks = s.srefStacks := rfl
@[simp] theorem State.setGrp_stackUse (s : State) (f : Group → Group) : (s.setGrp f).stackUse = s.stackUse := rfl
@[simp] theorem State.setGrp_called (s : State) (f : Group → Group) : (s.setGrp f).called = s.called := rfl
@[simp] theorem State.setGrp_wake (s : State) (f : Group → Group) : (s.setGrp f).wake = s.wake := rfl
@[simp] theorem State.setGrp_pkg (s : State) (f : Group → Group) : (s.setGrp f).pkg = s.pkg := rfl
@[simp] theorem State.setGrp_ctxs (s : State) (f : Group → Group) : (s.setGrp f).ctxs = s.ctxs := rfl
@[simp] theorem State.setGrp_launches (s : State) (f : Group → Group) : (s.setGrp f).launches = s.launches := rfl
@[simp] theorem State.setGrp_queues (s : State) (f : Group → Group) : (s.setGrp f).queues = s.queues := rfl
@[simp] theorem State.setGrp_vfs (s : State) (f : Group → Group) : (s.setGrp f).vfs = s.vfs := rfl
@[simp] theorem State.setGrp_handles (s : State) (f : Group → Group) : (s.setGrp f).handles = s.handles := rfl
@[simp] theorem State.setGrp_maps (s : State) (f : Group → Group) : (s.setGrp f).maps = s.maps := rfl
@[simp] theorem State.setGrp_rootPages (s : State) (f : Group → Group) : (s.setGrp f).rootPages = s.rootPages := rfl
@[simp] theorem State.setGrp_moving (s : State) (f : Group → Group) : (s.setGrp f).moving = s.moving := rfl
@[simp] theorem State.setGrp_saved (s : State) (f : Group → Group) : (s.setGrp f).saved = s.saved := rfl
@[simp] theorem State.setGrp_resolutions (s : State) (f : Group → Group) : (s.setGrp f).resolutions = s.resolutions := rfl
@[simp] theorem State.setGrp_pfs (s : State) (f : Group → Group) : (s.setGrp f).pfs = s.pfs := rfl
@[simp] theorem State.setGrp_host (s : State) (f : Group → Group) : (s.setGrp f).host = s.host := rfl
@[simp] theorem State.setGrp_bring (s : State) (f : Group → Group) : (s.setGrp f).bring = s.bring := rfl
@[simp] theorem State.setGrp_dump (s : State) (f : Group → Group) : (s.setGrp f).dump = s.dump := rfl
@[simp] theorem State.setGrp_fatal (s : State) (f : Group → Group) : (s.setGrp f).fatal = s.fatal := rfl
@[simp] theorem State.setGrp_regulator (s : State) (f : Group → Group) : (s.setGrp f).regulator = s.regulator := rfl
@[simp] theorem State.setGrp_syncEngine (s : State) (f : Group → Group) : (s.setGrp f).syncEngine = s.syncEngine := rfl
@[simp] theorem State.setGrp_weavers (s : State) (f : Group → Group) : (s.setGrp f).weavers = s.weavers := rfl
@[simp] theorem State.setGrp_roots (s : State) (f : Group → Group) : (s.setGrp f).roots = s.roots := rfl
@[simp] theorem State.setGrp_planesP (s : State) (f : Group → Group) : (s.setGrp f).planesP = s.planesP := rfl
@[simp] theorem State.setGrp_badPorts (s : State) (f : Group → Group) : (s.setGrp f).badPorts = s.badPorts := rfl
@[simp] theorem State.setGrp_rreds (s : State) (f : Group → Group) : (s.setGrp f).rreds = s.rreds := rfl
@[simp] theorem State.setGrp_rounds (s : State) (f : Group → Group) : (s.setGrp f).rounds = s.rounds := rfl
@[simp] theorem State.setGrp_posted (s : State) (f : Group → Group) : (s.setGrp f).posted = s.posted := rfl
@[simp] theorem State.setGrp_lostPkgs (s : State) (f : Group → Group) : (s.setGrp f).lostPkgs = s.lostPkgs := rfl
@[simp] theorem State.setGrp_net (s : State) (f : Group → Group) : (s.setGrp f).net = s.net := rfl

/-! ### setSlot -/

@[simp] theorem State.setSlot_agenda (s : State) (f : Slot → Slot) : (s.setSlot f).agenda = s.agenda := rfl
@[simp] theorem State.setSlot_sel (s : State) (f : Slot → Slot) : (s.setSlot f).sel = s.sel := rfl
@[simp] theorem State.setSlot_tick (s : State) (f : Slot → Slot) : (s.setSlot f).tick = s.tick := rfl
@[simp] theorem State.setSlot_nextId (s : State) (f : Slot → Slot) : (s.setSlot f).nextId = s.nextId := rfl
@[simp] theorem State.setSlot_groups (s : State) (f : Slot → Slot) : (s.setSlot f).groups = s.groups := rfl
@[simp] theorem State.setSlot_gangs (s : State) (f : Slot → Slot) : (s.setSlot f).gangs = s.gangs := rfl
@[simp] theorem State.setSlot_time (s : State) (f : Slot → Slot) : (s.setSlot f).time = s.time := rfl
@[simp] theorem State.setSlot_synced (s : State) (f : Slot → Slot) : (s.setSlot f).synced = s.synced := rfl
@[simp] theorem State.setSlot_wq (s : State) (f : Slot → Slot) : (s.setSlot f).wq = s.wq := rfl
@[simp] theorem State.setSlot_l1 (s : State) (f : Slot → Slot) : (s.setSlot f).l1 = s.l1 := rfl
@[simp] theorem State.setSlot_l2 (s : State) (f : Slot → Slot) : (s.setSlot f).l2 = s.l2 := rfl
@[simp] theorem State.setSlot_wbuf (s : State) (f : Slot → Slot) : (s.setSlot f).wbuf = s.wbuf := rfl
@[simp] theorem State.setSlot_icache (s : State) (f : Slot → Slot) : (s.setSlot f).icache = s.icache := rfl
@[simp] theorem State.setSlot_fetchq (s : State) (f : Slot → Slot) : (s.setSlot f).fetchq = s.fetchq := rfl
@[simp] theorem State.setSlot_tlb (s : State) (f : Slot → Slot) : (s.setSlot f).tlb = s.tlb := rfl
@[simp] theorem State.setSlot_misses (s : State) (f : Slot → Slot) : (s.setSlot f).misses = s.misses := rfl
@[simp] theorem State.setSlot_rtlb (s : State) (f : Slot → Slot) : (s.setSlot f).rtlb = s.rtlb := rfl
@[simp] theorem State.setSlot_recs (s : State) (f : Slot → Slot) : (s.setSlot f).recs = s.recs := rfl
@[simp] theorem State.setSlot_planes (s : State) (f : Slot → Slot) : (s.setSlot f).planes = s.planes := rfl
@[simp] theorem State.setSlot_rtab (s : State) (f : Slot → Slot) : (s.setSlot f).rtab = s.rtab := rfl
@[simp] theorem State.setSlot_ops (s : State) (f : Slot → Slot) : (s.setSlot f).ops = s.ops := rfl
@[simp] theorem State.setSlot_stopping (s : State) (f : Slot → Slot) : (s.setSlot f).stopping = s.stopping := rfl
@[simp] theorem State.setSlot_shares (s : State) (f : Slot → Slot) : (s.setSlot f).shares = s.shares := rfl
@[simp] theorem State.setSlot_abank (s : State) (f : Slot → Slot) : (s.setSlot f).abank = s.abank := rfl
@[simp] theorem State.setSlot_admits (s : State) (f : Slot → Slot) : (s.setSlot f).admits = s.admits := rfl
@[simp] theorem State.setSlot_dies (s : State) (f : Slot → Slot) : (s.setSlot f).dies = s.dies := rfl
@[simp] theorem State.setSlot_gates (s : State) (f : Slot → Slot) : (s.setSlot f).gates = s.gates := rfl
@[simp] theorem State.setSlot_gateCopy (s : State) (f : Slot → Slot) : (s.setSlot f).gateCopy = s.gateCopy := rfl
@[simp] theorem State.setSlot_mem (s : State) (f : Slot → Slot) : (s.setSlot f).mem = s.mem := rfl
@[simp] theorem State.setSlot_hmem (s : State) (f : Slot → Slot) : (s.setSlot f).hmem = s.hmem := rfl
@[simp] theorem State.setSlot_poison (s : State) (f : Slot → Slot) : (s.setSlot f).poison = s.poison := rfl
@[simp] theorem State.setSlot_kills (s : State) (f : Slot → Slot) : (s.setSlot f).kills = s.kills := rfl
@[simp] theorem State.setSlot_regions (s : State) (f : Slot → Slot) : (s.setSlot f).regions = s.regions := rfl
@[simp] theorem State.setSlot_control (s : State) (f : Slot → Slot) : (s.setSlot f).control = s.control := rfl
@[simp] theorem State.setSlot_entries (s : State) (f : Slot → Slot) : (s.setSlot f).entries = s.entries := rfl
@[simp] theorem State.setSlot_nmus (s : State) (f : Slot → Slot) : (s.setSlot f).nmus = s.nmus := rfl
@[simp] theorem State.setSlot_credits (s : State) (f : Slot → Slot) : (s.setSlot f).credits = s.credits := rfl
@[simp] theorem State.setSlot_reqs (s : State) (f : Slot → Slot) : (s.setSlot f).reqs = s.reqs := rfl
@[simp] theorem State.setSlot_chq (s : State) (f : Slot → Slot) : (s.setSlot f).chq = s.chq := rfl
@[simp] theorem State.setSlot_inject (s : State) (f : Slot → Slot) : (s.setSlot f).inject = s.inject := rfl
@[simp] theorem State.setSlot_srefStacks (s : State) (f : Slot → Slot) : (s.setSlot f).srefStacks = s.srefStacks := rfl
@[simp] theorem State.setSlot_stackUse (s : State) (f : Slot → Slot) : (s.setSlot f).stackUse = s.stackUse := rfl
@[simp] theorem State.setSlot_called (s : State) (f : Slot → Slot) : (s.setSlot f).called = s.called := rfl
@[simp] theorem State.setSlot_wake (s : State) (f : Slot → Slot) : (s.setSlot f).wake = s.wake := rfl
@[simp] theorem State.setSlot_pkg (s : State) (f : Slot → Slot) : (s.setSlot f).pkg = s.pkg := rfl
@[simp] theorem State.setSlot_ctxs (s : State) (f : Slot → Slot) : (s.setSlot f).ctxs = s.ctxs := rfl
@[simp] theorem State.setSlot_launches (s : State) (f : Slot → Slot) : (s.setSlot f).launches = s.launches := rfl
@[simp] theorem State.setSlot_queues (s : State) (f : Slot → Slot) : (s.setSlot f).queues = s.queues := rfl
@[simp] theorem State.setSlot_vfs (s : State) (f : Slot → Slot) : (s.setSlot f).vfs = s.vfs := rfl
@[simp] theorem State.setSlot_handles (s : State) (f : Slot → Slot) : (s.setSlot f).handles = s.handles := rfl
@[simp] theorem State.setSlot_maps (s : State) (f : Slot → Slot) : (s.setSlot f).maps = s.maps := rfl
@[simp] theorem State.setSlot_rootPages (s : State) (f : Slot → Slot) : (s.setSlot f).rootPages = s.rootPages := rfl
@[simp] theorem State.setSlot_moving (s : State) (f : Slot → Slot) : (s.setSlot f).moving = s.moving := rfl
@[simp] theorem State.setSlot_saved (s : State) (f : Slot → Slot) : (s.setSlot f).saved = s.saved := rfl
@[simp] theorem State.setSlot_resolutions (s : State) (f : Slot → Slot) : (s.setSlot f).resolutions = s.resolutions := rfl
@[simp] theorem State.setSlot_pfs (s : State) (f : Slot → Slot) : (s.setSlot f).pfs = s.pfs := rfl
@[simp] theorem State.setSlot_host (s : State) (f : Slot → Slot) : (s.setSlot f).host = s.host := rfl
@[simp] theorem State.setSlot_bring (s : State) (f : Slot → Slot) : (s.setSlot f).bring = s.bring := rfl
@[simp] theorem State.setSlot_dump (s : State) (f : Slot → Slot) : (s.setSlot f).dump = s.dump := rfl
@[simp] theorem State.setSlot_fatal (s : State) (f : Slot → Slot) : (s.setSlot f).fatal = s.fatal := rfl
@[simp] theorem State.setSlot_regulator (s : State) (f : Slot → Slot) : (s.setSlot f).regulator = s.regulator := rfl
@[simp] theorem State.setSlot_syncEngine (s : State) (f : Slot → Slot) : (s.setSlot f).syncEngine = s.syncEngine := rfl
@[simp] theorem State.setSlot_weavers (s : State) (f : Slot → Slot) : (s.setSlot f).weavers = s.weavers := rfl
@[simp] theorem State.setSlot_roots (s : State) (f : Slot → Slot) : (s.setSlot f).roots = s.roots := rfl
@[simp] theorem State.setSlot_planesP (s : State) (f : Slot → Slot) : (s.setSlot f).planesP = s.planesP := rfl
@[simp] theorem State.setSlot_badPorts (s : State) (f : Slot → Slot) : (s.setSlot f).badPorts = s.badPorts := rfl
@[simp] theorem State.setSlot_rreds (s : State) (f : Slot → Slot) : (s.setSlot f).rreds = s.rreds := rfl
@[simp] theorem State.setSlot_rounds (s : State) (f : Slot → Slot) : (s.setSlot f).rounds = s.rounds := rfl
@[simp] theorem State.setSlot_posted (s : State) (f : Slot → Slot) : (s.setSlot f).posted = s.posted := rfl
@[simp] theorem State.setSlot_lostPkgs (s : State) (f : Slot → Slot) : (s.setSlot f).lostPkgs = s.lostPkgs := rfl
@[simp] theorem State.setSlot_net (s : State) (f : Slot → Slot) : (s.setSlot f).net = s.net := rfl

/-! ### setRs -/

@[simp] theorem State.setRs_agenda (s : State) (r : SReg) (v : W64) : (s.setRs r v).agenda = s.agenda := rfl
@[simp] theorem State.setRs_sel (s : State) (r : SReg) (v : W64) : (s.setRs r v).sel = s.sel := rfl
@[simp] theorem State.setRs_tick (s : State) (r : SReg) (v : W64) : (s.setRs r v).tick = s.tick := rfl
@[simp] theorem State.setRs_nextId (s : State) (r : SReg) (v : W64) : (s.setRs r v).nextId = s.nextId := rfl
@[simp] theorem State.setRs_groups (s : State) (r : SReg) (v : W64) : (s.setRs r v).groups = s.groups := rfl
@[simp] theorem State.setRs_gangs (s : State) (r : SReg) (v : W64) : (s.setRs r v).gangs = s.gangs := rfl
@[simp] theorem State.setRs_time (s : State) (r : SReg) (v : W64) : (s.setRs r v).time = s.time := rfl
@[simp] theorem State.setRs_synced (s : State) (r : SReg) (v : W64) : (s.setRs r v).synced = s.synced := rfl
@[simp] theorem State.setRs_wq (s : State) (r : SReg) (v : W64) : (s.setRs r v).wq = s.wq := rfl
@[simp] theorem State.setRs_l1 (s : State) (r : SReg) (v : W64) : (s.setRs r v).l1 = s.l1 := rfl
@[simp] theorem State.setRs_l2 (s : State) (r : SReg) (v : W64) : (s.setRs r v).l2 = s.l2 := rfl
@[simp] theorem State.setRs_wbuf (s : State) (r : SReg) (v : W64) : (s.setRs r v).wbuf = s.wbuf := rfl
@[simp] theorem State.setRs_icache (s : State) (r : SReg) (v : W64) : (s.setRs r v).icache = s.icache := rfl
@[simp] theorem State.setRs_fetchq (s : State) (r : SReg) (v : W64) : (s.setRs r v).fetchq = s.fetchq := rfl
@[simp] theorem State.setRs_tlb (s : State) (r : SReg) (v : W64) : (s.setRs r v).tlb = s.tlb := rfl
@[simp] theorem State.setRs_misses (s : State) (r : SReg) (v : W64) : (s.setRs r v).misses = s.misses := rfl
@[simp] theorem State.setRs_rtlb (s : State) (r : SReg) (v : W64) : (s.setRs r v).rtlb = s.rtlb := rfl
@[simp] theorem State.setRs_recs (s : State) (r : SReg) (v : W64) : (s.setRs r v).recs = s.recs := rfl
@[simp] theorem State.setRs_planes (s : State) (r : SReg) (v : W64) : (s.setRs r v).planes = s.planes := rfl
@[simp] theorem State.setRs_rtab (s : State) (r : SReg) (v : W64) : (s.setRs r v).rtab = s.rtab := rfl
@[simp] theorem State.setRs_ops (s : State) (r : SReg) (v : W64) : (s.setRs r v).ops = s.ops := rfl
@[simp] theorem State.setRs_stopping (s : State) (r : SReg) (v : W64) : (s.setRs r v).stopping = s.stopping := rfl
@[simp] theorem State.setRs_shares (s : State) (r : SReg) (v : W64) : (s.setRs r v).shares = s.shares := rfl
@[simp] theorem State.setRs_abank (s : State) (r : SReg) (v : W64) : (s.setRs r v).abank = s.abank := rfl
@[simp] theorem State.setRs_admits (s : State) (r : SReg) (v : W64) : (s.setRs r v).admits = s.admits := rfl
@[simp] theorem State.setRs_dies (s : State) (r : SReg) (v : W64) : (s.setRs r v).dies = s.dies := rfl
@[simp] theorem State.setRs_gates (s : State) (r : SReg) (v : W64) : (s.setRs r v).gates = s.gates := rfl
@[simp] theorem State.setRs_gateCopy (s : State) (r : SReg) (v : W64) : (s.setRs r v).gateCopy = s.gateCopy := rfl
@[simp] theorem State.setRs_mem (s : State) (r : SReg) (v : W64) : (s.setRs r v).mem = s.mem := rfl
@[simp] theorem State.setRs_hmem (s : State) (r : SReg) (v : W64) : (s.setRs r v).hmem = s.hmem := rfl
@[simp] theorem State.setRs_poison (s : State) (r : SReg) (v : W64) : (s.setRs r v).poison = s.poison := rfl
@[simp] theorem State.setRs_kills (s : State) (r : SReg) (v : W64) : (s.setRs r v).kills = s.kills := rfl
@[simp] theorem State.setRs_regions (s : State) (r : SReg) (v : W64) : (s.setRs r v).regions = s.regions := rfl
@[simp] theorem State.setRs_control (s : State) (r : SReg) (v : W64) : (s.setRs r v).control = s.control := rfl
@[simp] theorem State.setRs_entries (s : State) (r : SReg) (v : W64) : (s.setRs r v).entries = s.entries := rfl
@[simp] theorem State.setRs_nmus (s : State) (r : SReg) (v : W64) : (s.setRs r v).nmus = s.nmus := rfl
@[simp] theorem State.setRs_credits (s : State) (r : SReg) (v : W64) : (s.setRs r v).credits = s.credits := rfl
@[simp] theorem State.setRs_reqs (s : State) (r : SReg) (v : W64) : (s.setRs r v).reqs = s.reqs := rfl
@[simp] theorem State.setRs_chq (s : State) (r : SReg) (v : W64) : (s.setRs r v).chq = s.chq := rfl
@[simp] theorem State.setRs_inject (s : State) (r : SReg) (v : W64) : (s.setRs r v).inject = s.inject := rfl
@[simp] theorem State.setRs_srefStacks (s : State) (r : SReg) (v : W64) : (s.setRs r v).srefStacks = s.srefStacks := rfl
@[simp] theorem State.setRs_stackUse (s : State) (r : SReg) (v : W64) : (s.setRs r v).stackUse = s.stackUse := rfl
@[simp] theorem State.setRs_called (s : State) (r : SReg) (v : W64) : (s.setRs r v).called = s.called := rfl
@[simp] theorem State.setRs_wake (s : State) (r : SReg) (v : W64) : (s.setRs r v).wake = s.wake := rfl
@[simp] theorem State.setRs_pkg (s : State) (r : SReg) (v : W64) : (s.setRs r v).pkg = s.pkg := rfl
@[simp] theorem State.setRs_ctxs (s : State) (r : SReg) (v : W64) : (s.setRs r v).ctxs = s.ctxs := rfl
@[simp] theorem State.setRs_launches (s : State) (r : SReg) (v : W64) : (s.setRs r v).launches = s.launches := rfl
@[simp] theorem State.setRs_queues (s : State) (r : SReg) (v : W64) : (s.setRs r v).queues = s.queues := rfl
@[simp] theorem State.setRs_vfs (s : State) (r : SReg) (v : W64) : (s.setRs r v).vfs = s.vfs := rfl
@[simp] theorem State.setRs_handles (s : State) (r : SReg) (v : W64) : (s.setRs r v).handles = s.handles := rfl
@[simp] theorem State.setRs_maps (s : State) (r : SReg) (v : W64) : (s.setRs r v).maps = s.maps := rfl
@[simp] theorem State.setRs_rootPages (s : State) (r : SReg) (v : W64) : (s.setRs r v).rootPages = s.rootPages := rfl
@[simp] theorem State.setRs_moving (s : State) (r : SReg) (v : W64) : (s.setRs r v).moving = s.moving := rfl
@[simp] theorem State.setRs_saved (s : State) (r : SReg) (v : W64) : (s.setRs r v).saved = s.saved := rfl
@[simp] theorem State.setRs_resolutions (s : State) (r : SReg) (v : W64) : (s.setRs r v).resolutions = s.resolutions := rfl
@[simp] theorem State.setRs_pfs (s : State) (r : SReg) (v : W64) : (s.setRs r v).pfs = s.pfs := rfl
@[simp] theorem State.setRs_host (s : State) (r : SReg) (v : W64) : (s.setRs r v).host = s.host := rfl
@[simp] theorem State.setRs_bring (s : State) (r : SReg) (v : W64) : (s.setRs r v).bring = s.bring := rfl
@[simp] theorem State.setRs_dump (s : State) (r : SReg) (v : W64) : (s.setRs r v).dump = s.dump := rfl
@[simp] theorem State.setRs_fatal (s : State) (r : SReg) (v : W64) : (s.setRs r v).fatal = s.fatal := rfl
@[simp] theorem State.setRs_regulator (s : State) (r : SReg) (v : W64) : (s.setRs r v).regulator = s.regulator := rfl
@[simp] theorem State.setRs_syncEngine (s : State) (r : SReg) (v : W64) : (s.setRs r v).syncEngine = s.syncEngine := rfl
@[simp] theorem State.setRs_weavers (s : State) (r : SReg) (v : W64) : (s.setRs r v).weavers = s.weavers := rfl
@[simp] theorem State.setRs_roots (s : State) (r : SReg) (v : W64) : (s.setRs r v).roots = s.roots := rfl
@[simp] theorem State.setRs_planesP (s : State) (r : SReg) (v : W64) : (s.setRs r v).planesP = s.planesP := rfl
@[simp] theorem State.setRs_badPorts (s : State) (r : SReg) (v : W64) : (s.setRs r v).badPorts = s.badPorts := rfl
@[simp] theorem State.setRs_rreds (s : State) (r : SReg) (v : W64) : (s.setRs r v).rreds = s.rreds := rfl
@[simp] theorem State.setRs_rounds (s : State) (r : SReg) (v : W64) : (s.setRs r v).rounds = s.rounds := rfl
@[simp] theorem State.setRs_posted (s : State) (r : SReg) (v : W64) : (s.setRs r v).posted = s.posted := rfl
@[simp] theorem State.setRs_lostPkgs (s : State) (r : SReg) (v : W64) : (s.setRs r v).lostPkgs = s.lostPkgs := rfl
@[simp] theorem State.setRs_net (s : State) (r : SReg) (v : W64) : (s.setRs r v).net = s.net := rfl

/-! ### setRp -/

@[simp] theorem State.setRp_agenda (s : State) (p : PReg) (v : LaneMask) : (s.setRp p v).agenda = s.agenda := rfl
@[simp] theorem State.setRp_sel (s : State) (p : PReg) (v : LaneMask) : (s.setRp p v).sel = s.sel := rfl
@[simp] theorem State.setRp_tick (s : State) (p : PReg) (v : LaneMask) : (s.setRp p v).tick = s.tick := rfl
@[simp] theorem State.setRp_nextId (s : State) (p : PReg) (v : LaneMask) : (s.setRp p v).nextId = s.nextId := rfl
@[simp] theorem State.setRp_groups (s : State) (p : PReg) (v : LaneMask) : (s.setRp p v).groups = s.groups := rfl
@[simp] theorem State.setRp_gangs (s : State) (p : PReg) (v : LaneMask) : (s.setRp p v).gangs = s.gangs := rfl
@[simp] theorem State.setRp_time (s : State) (p : PReg) (v : LaneMask) : (s.setRp p v).time = s.time := rfl
@[simp] theorem State.setRp_synced (s : State) (p : PReg) (v : LaneMask) : (s.setRp p v).synced = s.synced := rfl
@[simp] theorem State.setRp_wq (s : State) (p : PReg) (v : LaneMask) : (s.setRp p v).wq = s.wq := rfl
@[simp] theorem State.setRp_l1 (s : State) (p : PReg) (v : LaneMask) : (s.setRp p v).l1 = s.l1 := rfl
@[simp] theorem State.setRp_l2 (s : State) (p : PReg) (v : LaneMask) : (s.setRp p v).l2 = s.l2 := rfl
@[simp] theorem State.setRp_wbuf (s : State) (p : PReg) (v : LaneMask) : (s.setRp p v).wbuf = s.wbuf := rfl
@[simp] theorem State.setRp_icache (s : State) (p : PReg) (v : LaneMask) : (s.setRp p v).icache = s.icache := rfl
@[simp] theorem State.setRp_fetchq (s : State) (p : PReg) (v : LaneMask) : (s.setRp p v).fetchq = s.fetchq := rfl
@[simp] theorem State.setRp_tlb (s : State) (p : PReg) (v : LaneMask) : (s.setRp p v).tlb = s.tlb := rfl
@[simp] theorem State.setRp_misses (s : State) (p : PReg) (v : LaneMask) : (s.setRp p v).misses = s.misses := rfl
@[simp] theorem State.setRp_rtlb (s : State) (p : PReg) (v : LaneMask) : (s.setRp p v).rtlb = s.rtlb := rfl
@[simp] theorem State.setRp_recs (s : State) (p : PReg) (v : LaneMask) : (s.setRp p v).recs = s.recs := rfl
@[simp] theorem State.setRp_planes (s : State) (p : PReg) (v : LaneMask) : (s.setRp p v).planes = s.planes := rfl
@[simp] theorem State.setRp_rtab (s : State) (p : PReg) (v : LaneMask) : (s.setRp p v).rtab = s.rtab := rfl
@[simp] theorem State.setRp_ops (s : State) (p : PReg) (v : LaneMask) : (s.setRp p v).ops = s.ops := rfl
@[simp] theorem State.setRp_stopping (s : State) (p : PReg) (v : LaneMask) : (s.setRp p v).stopping = s.stopping := rfl
@[simp] theorem State.setRp_shares (s : State) (p : PReg) (v : LaneMask) : (s.setRp p v).shares = s.shares := rfl
@[simp] theorem State.setRp_abank (s : State) (p : PReg) (v : LaneMask) : (s.setRp p v).abank = s.abank := rfl
@[simp] theorem State.setRp_admits (s : State) (p : PReg) (v : LaneMask) : (s.setRp p v).admits = s.admits := rfl
@[simp] theorem State.setRp_dies (s : State) (p : PReg) (v : LaneMask) : (s.setRp p v).dies = s.dies := rfl
@[simp] theorem State.setRp_gates (s : State) (p : PReg) (v : LaneMask) : (s.setRp p v).gates = s.gates := rfl
@[simp] theorem State.setRp_gateCopy (s : State) (p : PReg) (v : LaneMask) : (s.setRp p v).gateCopy = s.gateCopy := rfl
@[simp] theorem State.setRp_mem (s : State) (p : PReg) (v : LaneMask) : (s.setRp p v).mem = s.mem := rfl
@[simp] theorem State.setRp_hmem (s : State) (p : PReg) (v : LaneMask) : (s.setRp p v).hmem = s.hmem := rfl
@[simp] theorem State.setRp_poison (s : State) (p : PReg) (v : LaneMask) : (s.setRp p v).poison = s.poison := rfl
@[simp] theorem State.setRp_kills (s : State) (p : PReg) (v : LaneMask) : (s.setRp p v).kills = s.kills := rfl
@[simp] theorem State.setRp_regions (s : State) (p : PReg) (v : LaneMask) : (s.setRp p v).regions = s.regions := rfl
@[simp] theorem State.setRp_control (s : State) (p : PReg) (v : LaneMask) : (s.setRp p v).control = s.control := rfl
@[simp] theorem State.setRp_entries (s : State) (p : PReg) (v : LaneMask) : (s.setRp p v).entries = s.entries := rfl
@[simp] theorem State.setRp_nmus (s : State) (p : PReg) (v : LaneMask) : (s.setRp p v).nmus = s.nmus := rfl
@[simp] theorem State.setRp_credits (s : State) (p : PReg) (v : LaneMask) : (s.setRp p v).credits = s.credits := rfl
@[simp] theorem State.setRp_reqs (s : State) (p : PReg) (v : LaneMask) : (s.setRp p v).reqs = s.reqs := rfl
@[simp] theorem State.setRp_chq (s : State) (p : PReg) (v : LaneMask) : (s.setRp p v).chq = s.chq := rfl
@[simp] theorem State.setRp_inject (s : State) (p : PReg) (v : LaneMask) : (s.setRp p v).inject = s.inject := rfl
@[simp] theorem State.setRp_srefStacks (s : State) (p : PReg) (v : LaneMask) : (s.setRp p v).srefStacks = s.srefStacks := rfl
@[simp] theorem State.setRp_stackUse (s : State) (p : PReg) (v : LaneMask) : (s.setRp p v).stackUse = s.stackUse := rfl
@[simp] theorem State.setRp_called (s : State) (p : PReg) (v : LaneMask) : (s.setRp p v).called = s.called := rfl
@[simp] theorem State.setRp_wake (s : State) (p : PReg) (v : LaneMask) : (s.setRp p v).wake = s.wake := rfl
@[simp] theorem State.setRp_pkg (s : State) (p : PReg) (v : LaneMask) : (s.setRp p v).pkg = s.pkg := rfl
@[simp] theorem State.setRp_ctxs (s : State) (p : PReg) (v : LaneMask) : (s.setRp p v).ctxs = s.ctxs := rfl
@[simp] theorem State.setRp_launches (s : State) (p : PReg) (v : LaneMask) : (s.setRp p v).launches = s.launches := rfl
@[simp] theorem State.setRp_queues (s : State) (p : PReg) (v : LaneMask) : (s.setRp p v).queues = s.queues := rfl
@[simp] theorem State.setRp_vfs (s : State) (p : PReg) (v : LaneMask) : (s.setRp p v).vfs = s.vfs := rfl
@[simp] theorem State.setRp_handles (s : State) (p : PReg) (v : LaneMask) : (s.setRp p v).handles = s.handles := rfl
@[simp] theorem State.setRp_maps (s : State) (p : PReg) (v : LaneMask) : (s.setRp p v).maps = s.maps := rfl
@[simp] theorem State.setRp_rootPages (s : State) (p : PReg) (v : LaneMask) : (s.setRp p v).rootPages = s.rootPages := rfl
@[simp] theorem State.setRp_moving (s : State) (p : PReg) (v : LaneMask) : (s.setRp p v).moving = s.moving := rfl
@[simp] theorem State.setRp_saved (s : State) (p : PReg) (v : LaneMask) : (s.setRp p v).saved = s.saved := rfl
@[simp] theorem State.setRp_resolutions (s : State) (p : PReg) (v : LaneMask) : (s.setRp p v).resolutions = s.resolutions := rfl
@[simp] theorem State.setRp_pfs (s : State) (p : PReg) (v : LaneMask) : (s.setRp p v).pfs = s.pfs := rfl
@[simp] theorem State.setRp_host (s : State) (p : PReg) (v : LaneMask) : (s.setRp p v).host = s.host := rfl
@[simp] theorem State.setRp_bring (s : State) (p : PReg) (v : LaneMask) : (s.setRp p v).bring = s.bring := rfl
@[simp] theorem State.setRp_dump (s : State) (p : PReg) (v : LaneMask) : (s.setRp p v).dump = s.dump := rfl
@[simp] theorem State.setRp_fatal (s : State) (p : PReg) (v : LaneMask) : (s.setRp p v).fatal = s.fatal := rfl
@[simp] theorem State.setRp_regulator (s : State) (p : PReg) (v : LaneMask) : (s.setRp p v).regulator = s.regulator := rfl
@[simp] theorem State.setRp_syncEngine (s : State) (p : PReg) (v : LaneMask) : (s.setRp p v).syncEngine = s.syncEngine := rfl
@[simp] theorem State.setRp_weavers (s : State) (p : PReg) (v : LaneMask) : (s.setRp p v).weavers = s.weavers := rfl
@[simp] theorem State.setRp_roots (s : State) (p : PReg) (v : LaneMask) : (s.setRp p v).roots = s.roots := rfl
@[simp] theorem State.setRp_planesP (s : State) (p : PReg) (v : LaneMask) : (s.setRp p v).planesP = s.planesP := rfl
@[simp] theorem State.setRp_badPorts (s : State) (p : PReg) (v : LaneMask) : (s.setRp p v).badPorts = s.badPorts := rfl
@[simp] theorem State.setRp_rreds (s : State) (p : PReg) (v : LaneMask) : (s.setRp p v).rreds = s.rreds := rfl
@[simp] theorem State.setRp_rounds (s : State) (p : PReg) (v : LaneMask) : (s.setRp p v).rounds = s.rounds := rfl
@[simp] theorem State.setRp_posted (s : State) (p : PReg) (v : LaneMask) : (s.setRp p v).posted = s.posted := rfl
@[simp] theorem State.setRp_lostPkgs (s : State) (p : PReg) (v : LaneMask) : (s.setRp p v).lostPkgs = s.lostPkgs := rfl
@[simp] theorem State.setRp_net (s : State) (p : PReg) (v : LaneMask) : (s.setRp p v).net = s.net := rfl

/-! ### setFut -/

@[simp] theorem State.setFut_agenda (s : State) (k : FReg) (v : Future) : (s.setFut k v).agenda = s.agenda := rfl
@[simp] theorem State.setFut_sel (s : State) (k : FReg) (v : Future) : (s.setFut k v).sel = s.sel := rfl
@[simp] theorem State.setFut_tick (s : State) (k : FReg) (v : Future) : (s.setFut k v).tick = s.tick := rfl
@[simp] theorem State.setFut_nextId (s : State) (k : FReg) (v : Future) : (s.setFut k v).nextId = s.nextId := rfl
@[simp] theorem State.setFut_groups (s : State) (k : FReg) (v : Future) : (s.setFut k v).groups = s.groups := rfl
@[simp] theorem State.setFut_gangs (s : State) (k : FReg) (v : Future) : (s.setFut k v).gangs = s.gangs := rfl
@[simp] theorem State.setFut_time (s : State) (k : FReg) (v : Future) : (s.setFut k v).time = s.time := rfl
@[simp] theorem State.setFut_synced (s : State) (k : FReg) (v : Future) : (s.setFut k v).synced = s.synced := rfl
@[simp] theorem State.setFut_wq (s : State) (k : FReg) (v : Future) : (s.setFut k v).wq = s.wq := rfl
@[simp] theorem State.setFut_l1 (s : State) (k : FReg) (v : Future) : (s.setFut k v).l1 = s.l1 := rfl
@[simp] theorem State.setFut_l2 (s : State) (k : FReg) (v : Future) : (s.setFut k v).l2 = s.l2 := rfl
@[simp] theorem State.setFut_wbuf (s : State) (k : FReg) (v : Future) : (s.setFut k v).wbuf = s.wbuf := rfl
@[simp] theorem State.setFut_icache (s : State) (k : FReg) (v : Future) : (s.setFut k v).icache = s.icache := rfl
@[simp] theorem State.setFut_fetchq (s : State) (k : FReg) (v : Future) : (s.setFut k v).fetchq = s.fetchq := rfl
@[simp] theorem State.setFut_tlb (s : State) (k : FReg) (v : Future) : (s.setFut k v).tlb = s.tlb := rfl
@[simp] theorem State.setFut_misses (s : State) (k : FReg) (v : Future) : (s.setFut k v).misses = s.misses := rfl
@[simp] theorem State.setFut_rtlb (s : State) (k : FReg) (v : Future) : (s.setFut k v).rtlb = s.rtlb := rfl
@[simp] theorem State.setFut_recs (s : State) (k : FReg) (v : Future) : (s.setFut k v).recs = s.recs := rfl
@[simp] theorem State.setFut_planes (s : State) (k : FReg) (v : Future) : (s.setFut k v).planes = s.planes := rfl
@[simp] theorem State.setFut_rtab (s : State) (k : FReg) (v : Future) : (s.setFut k v).rtab = s.rtab := rfl
@[simp] theorem State.setFut_ops (s : State) (k : FReg) (v : Future) : (s.setFut k v).ops = s.ops := rfl
@[simp] theorem State.setFut_stopping (s : State) (k : FReg) (v : Future) : (s.setFut k v).stopping = s.stopping := rfl
@[simp] theorem State.setFut_shares (s : State) (k : FReg) (v : Future) : (s.setFut k v).shares = s.shares := rfl
@[simp] theorem State.setFut_abank (s : State) (k : FReg) (v : Future) : (s.setFut k v).abank = s.abank := rfl
@[simp] theorem State.setFut_admits (s : State) (k : FReg) (v : Future) : (s.setFut k v).admits = s.admits := rfl
@[simp] theorem State.setFut_dies (s : State) (k : FReg) (v : Future) : (s.setFut k v).dies = s.dies := rfl
@[simp] theorem State.setFut_gates (s : State) (k : FReg) (v : Future) : (s.setFut k v).gates = s.gates := rfl
@[simp] theorem State.setFut_gateCopy (s : State) (k : FReg) (v : Future) : (s.setFut k v).gateCopy = s.gateCopy := rfl
@[simp] theorem State.setFut_mem (s : State) (k : FReg) (v : Future) : (s.setFut k v).mem = s.mem := rfl
@[simp] theorem State.setFut_hmem (s : State) (k : FReg) (v : Future) : (s.setFut k v).hmem = s.hmem := rfl
@[simp] theorem State.setFut_poison (s : State) (k : FReg) (v : Future) : (s.setFut k v).poison = s.poison := rfl
@[simp] theorem State.setFut_kills (s : State) (k : FReg) (v : Future) : (s.setFut k v).kills = s.kills := rfl
@[simp] theorem State.setFut_regions (s : State) (k : FReg) (v : Future) : (s.setFut k v).regions = s.regions := rfl
@[simp] theorem State.setFut_control (s : State) (k : FReg) (v : Future) : (s.setFut k v).control = s.control := rfl
@[simp] theorem State.setFut_entries (s : State) (k : FReg) (v : Future) : (s.setFut k v).entries = s.entries := rfl
@[simp] theorem State.setFut_nmus (s : State) (k : FReg) (v : Future) : (s.setFut k v).nmus = s.nmus := rfl
@[simp] theorem State.setFut_credits (s : State) (k : FReg) (v : Future) : (s.setFut k v).credits = s.credits := rfl
@[simp] theorem State.setFut_reqs (s : State) (k : FReg) (v : Future) : (s.setFut k v).reqs = s.reqs := rfl
@[simp] theorem State.setFut_chq (s : State) (k : FReg) (v : Future) : (s.setFut k v).chq = s.chq := rfl
@[simp] theorem State.setFut_inject (s : State) (k : FReg) (v : Future) : (s.setFut k v).inject = s.inject := rfl
@[simp] theorem State.setFut_srefStacks (s : State) (k : FReg) (v : Future) : (s.setFut k v).srefStacks = s.srefStacks := rfl
@[simp] theorem State.setFut_stackUse (s : State) (k : FReg) (v : Future) : (s.setFut k v).stackUse = s.stackUse := rfl
@[simp] theorem State.setFut_called (s : State) (k : FReg) (v : Future) : (s.setFut k v).called = s.called := rfl
@[simp] theorem State.setFut_wake (s : State) (k : FReg) (v : Future) : (s.setFut k v).wake = s.wake := rfl
@[simp] theorem State.setFut_pkg (s : State) (k : FReg) (v : Future) : (s.setFut k v).pkg = s.pkg := rfl
@[simp] theorem State.setFut_ctxs (s : State) (k : FReg) (v : Future) : (s.setFut k v).ctxs = s.ctxs := rfl
@[simp] theorem State.setFut_launches (s : State) (k : FReg) (v : Future) : (s.setFut k v).launches = s.launches := rfl
@[simp] theorem State.setFut_queues (s : State) (k : FReg) (v : Future) : (s.setFut k v).queues = s.queues := rfl
@[simp] theorem State.setFut_vfs (s : State) (k : FReg) (v : Future) : (s.setFut k v).vfs = s.vfs := rfl
@[simp] theorem State.setFut_handles (s : State) (k : FReg) (v : Future) : (s.setFut k v).handles = s.handles := rfl
@[simp] theorem State.setFut_maps (s : State) (k : FReg) (v : Future) : (s.setFut k v).maps = s.maps := rfl
@[simp] theorem State.setFut_rootPages (s : State) (k : FReg) (v : Future) : (s.setFut k v).rootPages = s.rootPages := rfl
@[simp] theorem State.setFut_moving (s : State) (k : FReg) (v : Future) : (s.setFut k v).moving = s.moving := rfl
@[simp] theorem State.setFut_saved (s : State) (k : FReg) (v : Future) : (s.setFut k v).saved = s.saved := rfl
@[simp] theorem State.setFut_resolutions (s : State) (k : FReg) (v : Future) : (s.setFut k v).resolutions = s.resolutions := rfl
@[simp] theorem State.setFut_pfs (s : State) (k : FReg) (v : Future) : (s.setFut k v).pfs = s.pfs := rfl
@[simp] theorem State.setFut_host (s : State) (k : FReg) (v : Future) : (s.setFut k v).host = s.host := rfl
@[simp] theorem State.setFut_bring (s : State) (k : FReg) (v : Future) : (s.setFut k v).bring = s.bring := rfl
@[simp] theorem State.setFut_dump (s : State) (k : FReg) (v : Future) : (s.setFut k v).dump = s.dump := rfl
@[simp] theorem State.setFut_fatal (s : State) (k : FReg) (v : Future) : (s.setFut k v).fatal = s.fatal := rfl
@[simp] theorem State.setFut_regulator (s : State) (k : FReg) (v : Future) : (s.setFut k v).regulator = s.regulator := rfl
@[simp] theorem State.setFut_syncEngine (s : State) (k : FReg) (v : Future) : (s.setFut k v).syncEngine = s.syncEngine := rfl
@[simp] theorem State.setFut_weavers (s : State) (k : FReg) (v : Future) : (s.setFut k v).weavers = s.weavers := rfl
@[simp] theorem State.setFut_roots (s : State) (k : FReg) (v : Future) : (s.setFut k v).roots = s.roots := rfl
@[simp] theorem State.setFut_planesP (s : State) (k : FReg) (v : Future) : (s.setFut k v).planesP = s.planesP := rfl
@[simp] theorem State.setFut_badPorts (s : State) (k : FReg) (v : Future) : (s.setFut k v).badPorts = s.badPorts := rfl
@[simp] theorem State.setFut_rreds (s : State) (k : FReg) (v : Future) : (s.setFut k v).rreds = s.rreds := rfl
@[simp] theorem State.setFut_rounds (s : State) (k : FReg) (v : Future) : (s.setFut k v).rounds = s.rounds := rfl
@[simp] theorem State.setFut_posted (s : State) (k : FReg) (v : Future) : (s.setFut k v).posted = s.posted := rfl
@[simp] theorem State.setFut_lostPkgs (s : State) (k : FReg) (v : Future) : (s.setFut k v).lostPkgs = s.lostPkgs := rfl
@[simp] theorem State.setFut_net (s : State) (k : FReg) (v : Future) : (s.setFut k v).net = s.net := rfl

/-! ### jump -/

@[simp] theorem State.jump_agenda (s : State) (a : W64) : (s.jump a).agenda = s.agenda := rfl
@[simp] theorem State.jump_sel (s : State) (a : W64) : (s.jump a).sel = s.sel := rfl
@[simp] theorem State.jump_tick (s : State) (a : W64) : (s.jump a).tick = s.tick := rfl
@[simp] theorem State.jump_nextId (s : State) (a : W64) : (s.jump a).nextId = s.nextId := rfl
@[simp] theorem State.jump_groups (s : State) (a : W64) : (s.jump a).groups = s.groups := rfl
@[simp] theorem State.jump_gangs (s : State) (a : W64) : (s.jump a).gangs = s.gangs := rfl
@[simp] theorem State.jump_time (s : State) (a : W64) : (s.jump a).time = s.time := rfl
@[simp] theorem State.jump_synced (s : State) (a : W64) : (s.jump a).synced = s.synced := rfl
@[simp] theorem State.jump_wq (s : State) (a : W64) : (s.jump a).wq = s.wq := rfl
@[simp] theorem State.jump_l1 (s : State) (a : W64) : (s.jump a).l1 = s.l1 := rfl
@[simp] theorem State.jump_l2 (s : State) (a : W64) : (s.jump a).l2 = s.l2 := rfl
@[simp] theorem State.jump_wbuf (s : State) (a : W64) : (s.jump a).wbuf = s.wbuf := rfl
@[simp] theorem State.jump_icache (s : State) (a : W64) : (s.jump a).icache = s.icache := rfl
@[simp] theorem State.jump_fetchq (s : State) (a : W64) : (s.jump a).fetchq = s.fetchq := rfl
@[simp] theorem State.jump_tlb (s : State) (a : W64) : (s.jump a).tlb = s.tlb := rfl
@[simp] theorem State.jump_misses (s : State) (a : W64) : (s.jump a).misses = s.misses := rfl
@[simp] theorem State.jump_rtlb (s : State) (a : W64) : (s.jump a).rtlb = s.rtlb := rfl
@[simp] theorem State.jump_recs (s : State) (a : W64) : (s.jump a).recs = s.recs := rfl
@[simp] theorem State.jump_planes (s : State) (a : W64) : (s.jump a).planes = s.planes := rfl
@[simp] theorem State.jump_rtab (s : State) (a : W64) : (s.jump a).rtab = s.rtab := rfl
@[simp] theorem State.jump_ops (s : State) (a : W64) : (s.jump a).ops = s.ops := rfl
@[simp] theorem State.jump_stopping (s : State) (a : W64) : (s.jump a).stopping = s.stopping := rfl
@[simp] theorem State.jump_shares (s : State) (a : W64) : (s.jump a).shares = s.shares := rfl
@[simp] theorem State.jump_abank (s : State) (a : W64) : (s.jump a).abank = s.abank := rfl
@[simp] theorem State.jump_admits (s : State) (a : W64) : (s.jump a).admits = s.admits := rfl
@[simp] theorem State.jump_dies (s : State) (a : W64) : (s.jump a).dies = s.dies := rfl
@[simp] theorem State.jump_gates (s : State) (a : W64) : (s.jump a).gates = s.gates := rfl
@[simp] theorem State.jump_gateCopy (s : State) (a : W64) : (s.jump a).gateCopy = s.gateCopy := rfl
@[simp] theorem State.jump_mem (s : State) (a : W64) : (s.jump a).mem = s.mem := rfl
@[simp] theorem State.jump_hmem (s : State) (a : W64) : (s.jump a).hmem = s.hmem := rfl
@[simp] theorem State.jump_poison (s : State) (a : W64) : (s.jump a).poison = s.poison := rfl
@[simp] theorem State.jump_kills (s : State) (a : W64) : (s.jump a).kills = s.kills := rfl
@[simp] theorem State.jump_regions (s : State) (a : W64) : (s.jump a).regions = s.regions := rfl
@[simp] theorem State.jump_control (s : State) (a : W64) : (s.jump a).control = s.control := rfl
@[simp] theorem State.jump_entries (s : State) (a : W64) : (s.jump a).entries = s.entries := rfl
@[simp] theorem State.jump_nmus (s : State) (a : W64) : (s.jump a).nmus = s.nmus := rfl
@[simp] theorem State.jump_credits (s : State) (a : W64) : (s.jump a).credits = s.credits := rfl
@[simp] theorem State.jump_reqs (s : State) (a : W64) : (s.jump a).reqs = s.reqs := rfl
@[simp] theorem State.jump_chq (s : State) (a : W64) : (s.jump a).chq = s.chq := rfl
@[simp] theorem State.jump_inject (s : State) (a : W64) : (s.jump a).inject = s.inject := rfl
@[simp] theorem State.jump_srefStacks (s : State) (a : W64) : (s.jump a).srefStacks = s.srefStacks := rfl
@[simp] theorem State.jump_stackUse (s : State) (a : W64) : (s.jump a).stackUse = s.stackUse := rfl
@[simp] theorem State.jump_called (s : State) (a : W64) : (s.jump a).called = s.called := rfl
@[simp] theorem State.jump_wake (s : State) (a : W64) : (s.jump a).wake = s.wake := rfl
@[simp] theorem State.jump_pkg (s : State) (a : W64) : (s.jump a).pkg = s.pkg := rfl
@[simp] theorem State.jump_ctxs (s : State) (a : W64) : (s.jump a).ctxs = s.ctxs := rfl
@[simp] theorem State.jump_launches (s : State) (a : W64) : (s.jump a).launches = s.launches := rfl
@[simp] theorem State.jump_queues (s : State) (a : W64) : (s.jump a).queues = s.queues := rfl
@[simp] theorem State.jump_vfs (s : State) (a : W64) : (s.jump a).vfs = s.vfs := rfl
@[simp] theorem State.jump_handles (s : State) (a : W64) : (s.jump a).handles = s.handles := rfl
@[simp] theorem State.jump_maps (s : State) (a : W64) : (s.jump a).maps = s.maps := rfl
@[simp] theorem State.jump_rootPages (s : State) (a : W64) : (s.jump a).rootPages = s.rootPages := rfl
@[simp] theorem State.jump_moving (s : State) (a : W64) : (s.jump a).moving = s.moving := rfl
@[simp] theorem State.jump_saved (s : State) (a : W64) : (s.jump a).saved = s.saved := rfl
@[simp] theorem State.jump_resolutions (s : State) (a : W64) : (s.jump a).resolutions = s.resolutions := rfl
@[simp] theorem State.jump_pfs (s : State) (a : W64) : (s.jump a).pfs = s.pfs := rfl
@[simp] theorem State.jump_host (s : State) (a : W64) : (s.jump a).host = s.host := rfl
@[simp] theorem State.jump_bring (s : State) (a : W64) : (s.jump a).bring = s.bring := rfl
@[simp] theorem State.jump_dump (s : State) (a : W64) : (s.jump a).dump = s.dump := rfl
@[simp] theorem State.jump_fatal (s : State) (a : W64) : (s.jump a).fatal = s.fatal := rfl
@[simp] theorem State.jump_regulator (s : State) (a : W64) : (s.jump a).regulator = s.regulator := rfl
@[simp] theorem State.jump_syncEngine (s : State) (a : W64) : (s.jump a).syncEngine = s.syncEngine := rfl
@[simp] theorem State.jump_weavers (s : State) (a : W64) : (s.jump a).weavers = s.weavers := rfl
@[simp] theorem State.jump_roots (s : State) (a : W64) : (s.jump a).roots = s.roots := rfl
@[simp] theorem State.jump_planesP (s : State) (a : W64) : (s.jump a).planesP = s.planesP := rfl
@[simp] theorem State.jump_badPorts (s : State) (a : W64) : (s.jump a).badPorts = s.badPorts := rfl
@[simp] theorem State.jump_rreds (s : State) (a : W64) : (s.jump a).rreds = s.rreds := rfl
@[simp] theorem State.jump_rounds (s : State) (a : W64) : (s.jump a).rounds = s.rounds := rfl
@[simp] theorem State.jump_posted (s : State) (a : W64) : (s.jump a).posted = s.posted := rfl
@[simp] theorem State.jump_lostPkgs (s : State) (a : W64) : (s.jump a).lostPkgs = s.lostPkgs := rfl
@[simp] theorem State.jump_net (s : State) (a : W64) : (s.jump a).net = s.net := rfl

/-! ### advance -/

@[simp] theorem State.advance_agenda (s : State) (n : Nat) : (s.advance n).agenda = s.agenda := rfl
@[simp] theorem State.advance_sel (s : State) (n : Nat) : (s.advance n).sel = s.sel := rfl
@[simp] theorem State.advance_tick (s : State) (n : Nat) : (s.advance n).tick = s.tick := rfl
@[simp] theorem State.advance_nextId (s : State) (n : Nat) : (s.advance n).nextId = s.nextId := rfl
@[simp] theorem State.advance_groups (s : State) (n : Nat) : (s.advance n).groups = s.groups := rfl
@[simp] theorem State.advance_gangs (s : State) (n : Nat) : (s.advance n).gangs = s.gangs := rfl
@[simp] theorem State.advance_time (s : State) (n : Nat) : (s.advance n).time = s.time := rfl
@[simp] theorem State.advance_synced (s : State) (n : Nat) : (s.advance n).synced = s.synced := rfl
@[simp] theorem State.advance_wq (s : State) (n : Nat) : (s.advance n).wq = s.wq := rfl
@[simp] theorem State.advance_l1 (s : State) (n : Nat) : (s.advance n).l1 = s.l1 := rfl
@[simp] theorem State.advance_l2 (s : State) (n : Nat) : (s.advance n).l2 = s.l2 := rfl
@[simp] theorem State.advance_wbuf (s : State) (n : Nat) : (s.advance n).wbuf = s.wbuf := rfl
@[simp] theorem State.advance_icache (s : State) (n : Nat) : (s.advance n).icache = s.icache := rfl
@[simp] theorem State.advance_fetchq (s : State) (n : Nat) : (s.advance n).fetchq = s.fetchq := rfl
@[simp] theorem State.advance_tlb (s : State) (n : Nat) : (s.advance n).tlb = s.tlb := rfl
@[simp] theorem State.advance_misses (s : State) (n : Nat) : (s.advance n).misses = s.misses := rfl
@[simp] theorem State.advance_rtlb (s : State) (n : Nat) : (s.advance n).rtlb = s.rtlb := rfl
@[simp] theorem State.advance_recs (s : State) (n : Nat) : (s.advance n).recs = s.recs := rfl
@[simp] theorem State.advance_planes (s : State) (n : Nat) : (s.advance n).planes = s.planes := rfl
@[simp] theorem State.advance_rtab (s : State) (n : Nat) : (s.advance n).rtab = s.rtab := rfl
@[simp] theorem State.advance_ops (s : State) (n : Nat) : (s.advance n).ops = s.ops := rfl
@[simp] theorem State.advance_stopping (s : State) (n : Nat) : (s.advance n).stopping = s.stopping := rfl
@[simp] theorem State.advance_shares (s : State) (n : Nat) : (s.advance n).shares = s.shares := rfl
@[simp] theorem State.advance_abank (s : State) (n : Nat) : (s.advance n).abank = s.abank := rfl
@[simp] theorem State.advance_admits (s : State) (n : Nat) : (s.advance n).admits = s.admits := rfl
@[simp] theorem State.advance_dies (s : State) (n : Nat) : (s.advance n).dies = s.dies := rfl
@[simp] theorem State.advance_gates (s : State) (n : Nat) : (s.advance n).gates = s.gates := rfl
@[simp] theorem State.advance_gateCopy (s : State) (n : Nat) : (s.advance n).gateCopy = s.gateCopy := rfl
@[simp] theorem State.advance_mem (s : State) (n : Nat) : (s.advance n).mem = s.mem := rfl
@[simp] theorem State.advance_hmem (s : State) (n : Nat) : (s.advance n).hmem = s.hmem := rfl
@[simp] theorem State.advance_poison (s : State) (n : Nat) : (s.advance n).poison = s.poison := rfl
@[simp] theorem State.advance_kills (s : State) (n : Nat) : (s.advance n).kills = s.kills := rfl
@[simp] theorem State.advance_regions (s : State) (n : Nat) : (s.advance n).regions = s.regions := rfl
@[simp] theorem State.advance_control (s : State) (n : Nat) : (s.advance n).control = s.control := rfl
@[simp] theorem State.advance_entries (s : State) (n : Nat) : (s.advance n).entries = s.entries := rfl
@[simp] theorem State.advance_nmus (s : State) (n : Nat) : (s.advance n).nmus = s.nmus := rfl
@[simp] theorem State.advance_credits (s : State) (n : Nat) : (s.advance n).credits = s.credits := rfl
@[simp] theorem State.advance_reqs (s : State) (n : Nat) : (s.advance n).reqs = s.reqs := rfl
@[simp] theorem State.advance_chq (s : State) (n : Nat) : (s.advance n).chq = s.chq := rfl
@[simp] theorem State.advance_inject (s : State) (n : Nat) : (s.advance n).inject = s.inject := rfl
@[simp] theorem State.advance_srefStacks (s : State) (n : Nat) : (s.advance n).srefStacks = s.srefStacks := rfl
@[simp] theorem State.advance_stackUse (s : State) (n : Nat) : (s.advance n).stackUse = s.stackUse := rfl
@[simp] theorem State.advance_called (s : State) (n : Nat) : (s.advance n).called = s.called := rfl
@[simp] theorem State.advance_wake (s : State) (n : Nat) : (s.advance n).wake = s.wake := rfl
@[simp] theorem State.advance_pkg (s : State) (n : Nat) : (s.advance n).pkg = s.pkg := rfl
@[simp] theorem State.advance_ctxs (s : State) (n : Nat) : (s.advance n).ctxs = s.ctxs := rfl
@[simp] theorem State.advance_launches (s : State) (n : Nat) : (s.advance n).launches = s.launches := rfl
@[simp] theorem State.advance_queues (s : State) (n : Nat) : (s.advance n).queues = s.queues := rfl
@[simp] theorem State.advance_vfs (s : State) (n : Nat) : (s.advance n).vfs = s.vfs := rfl
@[simp] theorem State.advance_handles (s : State) (n : Nat) : (s.advance n).handles = s.handles := rfl
@[simp] theorem State.advance_maps (s : State) (n : Nat) : (s.advance n).maps = s.maps := rfl
@[simp] theorem State.advance_rootPages (s : State) (n : Nat) : (s.advance n).rootPages = s.rootPages := rfl
@[simp] theorem State.advance_moving (s : State) (n : Nat) : (s.advance n).moving = s.moving := rfl
@[simp] theorem State.advance_saved (s : State) (n : Nat) : (s.advance n).saved = s.saved := rfl
@[simp] theorem State.advance_resolutions (s : State) (n : Nat) : (s.advance n).resolutions = s.resolutions := rfl
@[simp] theorem State.advance_pfs (s : State) (n : Nat) : (s.advance n).pfs = s.pfs := rfl
@[simp] theorem State.advance_host (s : State) (n : Nat) : (s.advance n).host = s.host := rfl
@[simp] theorem State.advance_bring (s : State) (n : Nat) : (s.advance n).bring = s.bring := rfl
@[simp] theorem State.advance_dump (s : State) (n : Nat) : (s.advance n).dump = s.dump := rfl
@[simp] theorem State.advance_fatal (s : State) (n : Nat) : (s.advance n).fatal = s.fatal := rfl
@[simp] theorem State.advance_regulator (s : State) (n : Nat) : (s.advance n).regulator = s.regulator := rfl
@[simp] theorem State.advance_syncEngine (s : State) (n : Nat) : (s.advance n).syncEngine = s.syncEngine := rfl
@[simp] theorem State.advance_weavers (s : State) (n : Nat) : (s.advance n).weavers = s.weavers := rfl
@[simp] theorem State.advance_roots (s : State) (n : Nat) : (s.advance n).roots = s.roots := rfl
@[simp] theorem State.advance_planesP (s : State) (n : Nat) : (s.advance n).planesP = s.planesP := rfl
@[simp] theorem State.advance_badPorts (s : State) (n : Nat) : (s.advance n).badPorts = s.badPorts := rfl
@[simp] theorem State.advance_rreds (s : State) (n : Nat) : (s.advance n).rreds = s.rreds := rfl
@[simp] theorem State.advance_rounds (s : State) (n : Nat) : (s.advance n).rounds = s.rounds := rfl
@[simp] theorem State.advance_posted (s : State) (n : Nat) : (s.advance n).posted = s.posted := rfl
@[simp] theorem State.advance_lostPkgs (s : State) (n : Nat) : (s.advance n).lostPkgs = s.lostPkgs := rfl
@[simp] theorem State.advance_net (s : State) (n : Nat) : (s.advance n).net = s.net := rfl

/-! ### park -/

@[simp] theorem State.park_agenda (s : State) (p : Park) : (s.park p).agenda = s.agenda := rfl
@[simp] theorem State.park_sel (s : State) (p : Park) : (s.park p).sel = s.sel := rfl
@[simp] theorem State.park_tick (s : State) (p : Park) : (s.park p).tick = s.tick := rfl
@[simp] theorem State.park_nextId (s : State) (p : Park) : (s.park p).nextId = s.nextId := rfl
@[simp] theorem State.park_groups (s : State) (p : Park) : (s.park p).groups = s.groups := rfl
@[simp] theorem State.park_gangs (s : State) (p : Park) : (s.park p).gangs = s.gangs := rfl
@[simp] theorem State.park_time (s : State) (p : Park) : (s.park p).time = s.time := rfl
@[simp] theorem State.park_synced (s : State) (p : Park) : (s.park p).synced = s.synced := rfl
@[simp] theorem State.park_wq (s : State) (p : Park) : (s.park p).wq = s.wq := rfl
@[simp] theorem State.park_l1 (s : State) (p : Park) : (s.park p).l1 = s.l1 := rfl
@[simp] theorem State.park_l2 (s : State) (p : Park) : (s.park p).l2 = s.l2 := rfl
@[simp] theorem State.park_wbuf (s : State) (p : Park) : (s.park p).wbuf = s.wbuf := rfl
@[simp] theorem State.park_icache (s : State) (p : Park) : (s.park p).icache = s.icache := rfl
@[simp] theorem State.park_fetchq (s : State) (p : Park) : (s.park p).fetchq = s.fetchq := rfl
@[simp] theorem State.park_tlb (s : State) (p : Park) : (s.park p).tlb = s.tlb := rfl
@[simp] theorem State.park_misses (s : State) (p : Park) : (s.park p).misses = s.misses := rfl
@[simp] theorem State.park_rtlb (s : State) (p : Park) : (s.park p).rtlb = s.rtlb := rfl
@[simp] theorem State.park_recs (s : State) (p : Park) : (s.park p).recs = s.recs := rfl
@[simp] theorem State.park_planes (s : State) (p : Park) : (s.park p).planes = s.planes := rfl
@[simp] theorem State.park_rtab (s : State) (p : Park) : (s.park p).rtab = s.rtab := rfl
@[simp] theorem State.park_ops (s : State) (p : Park) : (s.park p).ops = s.ops := rfl
@[simp] theorem State.park_stopping (s : State) (p : Park) : (s.park p).stopping = s.stopping := rfl
@[simp] theorem State.park_shares (s : State) (p : Park) : (s.park p).shares = s.shares := rfl
@[simp] theorem State.park_abank (s : State) (p : Park) : (s.park p).abank = s.abank := rfl
@[simp] theorem State.park_admits (s : State) (p : Park) : (s.park p).admits = s.admits := rfl
@[simp] theorem State.park_dies (s : State) (p : Park) : (s.park p).dies = s.dies := rfl
@[simp] theorem State.park_gates (s : State) (p : Park) : (s.park p).gates = s.gates := rfl
@[simp] theorem State.park_gateCopy (s : State) (p : Park) : (s.park p).gateCopy = s.gateCopy := rfl
@[simp] theorem State.park_mem (s : State) (p : Park) : (s.park p).mem = s.mem := rfl
@[simp] theorem State.park_hmem (s : State) (p : Park) : (s.park p).hmem = s.hmem := rfl
@[simp] theorem State.park_poison (s : State) (p : Park) : (s.park p).poison = s.poison := rfl
@[simp] theorem State.park_kills (s : State) (p : Park) : (s.park p).kills = s.kills := rfl
@[simp] theorem State.park_regions (s : State) (p : Park) : (s.park p).regions = s.regions := rfl
@[simp] theorem State.park_control (s : State) (p : Park) : (s.park p).control = s.control := rfl
@[simp] theorem State.park_entries (s : State) (p : Park) : (s.park p).entries = s.entries := rfl
@[simp] theorem State.park_nmus (s : State) (p : Park) : (s.park p).nmus = s.nmus := rfl
@[simp] theorem State.park_credits (s : State) (p : Park) : (s.park p).credits = s.credits := rfl
@[simp] theorem State.park_reqs (s : State) (p : Park) : (s.park p).reqs = s.reqs := rfl
@[simp] theorem State.park_chq (s : State) (p : Park) : (s.park p).chq = s.chq := rfl
@[simp] theorem State.park_inject (s : State) (p : Park) : (s.park p).inject = s.inject := rfl
@[simp] theorem State.park_srefStacks (s : State) (p : Park) : (s.park p).srefStacks = s.srefStacks := rfl
@[simp] theorem State.park_stackUse (s : State) (p : Park) : (s.park p).stackUse = s.stackUse := rfl
@[simp] theorem State.park_called (s : State) (p : Park) : (s.park p).called = s.called := rfl
@[simp] theorem State.park_wake (s : State) (p : Park) : (s.park p).wake = s.wake := rfl
@[simp] theorem State.park_pkg (s : State) (p : Park) : (s.park p).pkg = s.pkg := rfl
@[simp] theorem State.park_ctxs (s : State) (p : Park) : (s.park p).ctxs = s.ctxs := rfl
@[simp] theorem State.park_launches (s : State) (p : Park) : (s.park p).launches = s.launches := rfl
@[simp] theorem State.park_queues (s : State) (p : Park) : (s.park p).queues = s.queues := rfl
@[simp] theorem State.park_vfs (s : State) (p : Park) : (s.park p).vfs = s.vfs := rfl
@[simp] theorem State.park_handles (s : State) (p : Park) : (s.park p).handles = s.handles := rfl
@[simp] theorem State.park_maps (s : State) (p : Park) : (s.park p).maps = s.maps := rfl
@[simp] theorem State.park_rootPages (s : State) (p : Park) : (s.park p).rootPages = s.rootPages := rfl
@[simp] theorem State.park_moving (s : State) (p : Park) : (s.park p).moving = s.moving := rfl
@[simp] theorem State.park_saved (s : State) (p : Park) : (s.park p).saved = s.saved := rfl
@[simp] theorem State.park_resolutions (s : State) (p : Park) : (s.park p).resolutions = s.resolutions := rfl
@[simp] theorem State.park_pfs (s : State) (p : Park) : (s.park p).pfs = s.pfs := rfl
@[simp] theorem State.park_host (s : State) (p : Park) : (s.park p).host = s.host := rfl
@[simp] theorem State.park_bring (s : State) (p : Park) : (s.park p).bring = s.bring := rfl
@[simp] theorem State.park_dump (s : State) (p : Park) : (s.park p).dump = s.dump := rfl
@[simp] theorem State.park_fatal (s : State) (p : Park) : (s.park p).fatal = s.fatal := rfl
@[simp] theorem State.park_regulator (s : State) (p : Park) : (s.park p).regulator = s.regulator := rfl
@[simp] theorem State.park_syncEngine (s : State) (p : Park) : (s.park p).syncEngine = s.syncEngine := rfl
@[simp] theorem State.park_weavers (s : State) (p : Park) : (s.park p).weavers = s.weavers := rfl
@[simp] theorem State.park_roots (s : State) (p : Park) : (s.park p).roots = s.roots := rfl
@[simp] theorem State.park_planesP (s : State) (p : Park) : (s.park p).planesP = s.planesP := rfl
@[simp] theorem State.park_badPorts (s : State) (p : Park) : (s.park p).badPorts = s.badPorts := rfl
@[simp] theorem State.park_rreds (s : State) (p : Park) : (s.park p).rreds = s.rreds := rfl
@[simp] theorem State.park_rounds (s : State) (p : Park) : (s.park p).rounds = s.rounds := rfl
@[simp] theorem State.park_posted (s : State) (p : Park) : (s.park p).posted = s.posted := rfl
@[simp] theorem State.park_lostPkgs (s : State) (p : Park) : (s.park p).lostPkgs = s.lostPkgs := rfl
@[simp] theorem State.park_net (s : State) (p : Park) : (s.park p).net = s.net := rfl

/-! ### orFlags -/

@[simp] theorem State.orFlags_agenda (s : State) (v : Flags) : (s.orFlags v).agenda = s.agenda := rfl
@[simp] theorem State.orFlags_sel (s : State) (v : Flags) : (s.orFlags v).sel = s.sel := rfl
@[simp] theorem State.orFlags_tick (s : State) (v : Flags) : (s.orFlags v).tick = s.tick := rfl
@[simp] theorem State.orFlags_nextId (s : State) (v : Flags) : (s.orFlags v).nextId = s.nextId := rfl
@[simp] theorem State.orFlags_groups (s : State) (v : Flags) : (s.orFlags v).groups = s.groups := rfl
@[simp] theorem State.orFlags_gangs (s : State) (v : Flags) : (s.orFlags v).gangs = s.gangs := rfl
@[simp] theorem State.orFlags_time (s : State) (v : Flags) : (s.orFlags v).time = s.time := rfl
@[simp] theorem State.orFlags_synced (s : State) (v : Flags) : (s.orFlags v).synced = s.synced := rfl
@[simp] theorem State.orFlags_wq (s : State) (v : Flags) : (s.orFlags v).wq = s.wq := rfl
@[simp] theorem State.orFlags_l1 (s : State) (v : Flags) : (s.orFlags v).l1 = s.l1 := rfl
@[simp] theorem State.orFlags_l2 (s : State) (v : Flags) : (s.orFlags v).l2 = s.l2 := rfl
@[simp] theorem State.orFlags_wbuf (s : State) (v : Flags) : (s.orFlags v).wbuf = s.wbuf := rfl
@[simp] theorem State.orFlags_icache (s : State) (v : Flags) : (s.orFlags v).icache = s.icache := rfl
@[simp] theorem State.orFlags_fetchq (s : State) (v : Flags) : (s.orFlags v).fetchq = s.fetchq := rfl
@[simp] theorem State.orFlags_tlb (s : State) (v : Flags) : (s.orFlags v).tlb = s.tlb := rfl
@[simp] theorem State.orFlags_misses (s : State) (v : Flags) : (s.orFlags v).misses = s.misses := rfl
@[simp] theorem State.orFlags_rtlb (s : State) (v : Flags) : (s.orFlags v).rtlb = s.rtlb := rfl
@[simp] theorem State.orFlags_recs (s : State) (v : Flags) : (s.orFlags v).recs = s.recs := rfl
@[simp] theorem State.orFlags_planes (s : State) (v : Flags) : (s.orFlags v).planes = s.planes := rfl
@[simp] theorem State.orFlags_rtab (s : State) (v : Flags) : (s.orFlags v).rtab = s.rtab := rfl
@[simp] theorem State.orFlags_ops (s : State) (v : Flags) : (s.orFlags v).ops = s.ops := rfl
@[simp] theorem State.orFlags_stopping (s : State) (v : Flags) : (s.orFlags v).stopping = s.stopping := rfl
@[simp] theorem State.orFlags_shares (s : State) (v : Flags) : (s.orFlags v).shares = s.shares := rfl
@[simp] theorem State.orFlags_abank (s : State) (v : Flags) : (s.orFlags v).abank = s.abank := rfl
@[simp] theorem State.orFlags_admits (s : State) (v : Flags) : (s.orFlags v).admits = s.admits := rfl
@[simp] theorem State.orFlags_dies (s : State) (v : Flags) : (s.orFlags v).dies = s.dies := rfl
@[simp] theorem State.orFlags_gates (s : State) (v : Flags) : (s.orFlags v).gates = s.gates := rfl
@[simp] theorem State.orFlags_gateCopy (s : State) (v : Flags) : (s.orFlags v).gateCopy = s.gateCopy := rfl
@[simp] theorem State.orFlags_mem (s : State) (v : Flags) : (s.orFlags v).mem = s.mem := rfl
@[simp] theorem State.orFlags_hmem (s : State) (v : Flags) : (s.orFlags v).hmem = s.hmem := rfl
@[simp] theorem State.orFlags_poison (s : State) (v : Flags) : (s.orFlags v).poison = s.poison := rfl
@[simp] theorem State.orFlags_kills (s : State) (v : Flags) : (s.orFlags v).kills = s.kills := rfl
@[simp] theorem State.orFlags_regions (s : State) (v : Flags) : (s.orFlags v).regions = s.regions := rfl
@[simp] theorem State.orFlags_control (s : State) (v : Flags) : (s.orFlags v).control = s.control := rfl
@[simp] theorem State.orFlags_entries (s : State) (v : Flags) : (s.orFlags v).entries = s.entries := rfl
@[simp] theorem State.orFlags_nmus (s : State) (v : Flags) : (s.orFlags v).nmus = s.nmus := rfl
@[simp] theorem State.orFlags_credits (s : State) (v : Flags) : (s.orFlags v).credits = s.credits := rfl
@[simp] theorem State.orFlags_reqs (s : State) (v : Flags) : (s.orFlags v).reqs = s.reqs := rfl
@[simp] theorem State.orFlags_chq (s : State) (v : Flags) : (s.orFlags v).chq = s.chq := rfl
@[simp] theorem State.orFlags_inject (s : State) (v : Flags) : (s.orFlags v).inject = s.inject := rfl
@[simp] theorem State.orFlags_srefStacks (s : State) (v : Flags) : (s.orFlags v).srefStacks = s.srefStacks := rfl
@[simp] theorem State.orFlags_stackUse (s : State) (v : Flags) : (s.orFlags v).stackUse = s.stackUse := rfl
@[simp] theorem State.orFlags_called (s : State) (v : Flags) : (s.orFlags v).called = s.called := rfl
@[simp] theorem State.orFlags_wake (s : State) (v : Flags) : (s.orFlags v).wake = s.wake := rfl
@[simp] theorem State.orFlags_pkg (s : State) (v : Flags) : (s.orFlags v).pkg = s.pkg := rfl
@[simp] theorem State.orFlags_ctxs (s : State) (v : Flags) : (s.orFlags v).ctxs = s.ctxs := rfl
@[simp] theorem State.orFlags_launches (s : State) (v : Flags) : (s.orFlags v).launches = s.launches := rfl
@[simp] theorem State.orFlags_queues (s : State) (v : Flags) : (s.orFlags v).queues = s.queues := rfl
@[simp] theorem State.orFlags_vfs (s : State) (v : Flags) : (s.orFlags v).vfs = s.vfs := rfl
@[simp] theorem State.orFlags_handles (s : State) (v : Flags) : (s.orFlags v).handles = s.handles := rfl
@[simp] theorem State.orFlags_maps (s : State) (v : Flags) : (s.orFlags v).maps = s.maps := rfl
@[simp] theorem State.orFlags_rootPages (s : State) (v : Flags) : (s.orFlags v).rootPages = s.rootPages := rfl
@[simp] theorem State.orFlags_moving (s : State) (v : Flags) : (s.orFlags v).moving = s.moving := rfl
@[simp] theorem State.orFlags_saved (s : State) (v : Flags) : (s.orFlags v).saved = s.saved := rfl
@[simp] theorem State.orFlags_resolutions (s : State) (v : Flags) : (s.orFlags v).resolutions = s.resolutions := rfl
@[simp] theorem State.orFlags_pfs (s : State) (v : Flags) : (s.orFlags v).pfs = s.pfs := rfl
@[simp] theorem State.orFlags_host (s : State) (v : Flags) : (s.orFlags v).host = s.host := rfl
@[simp] theorem State.orFlags_bring (s : State) (v : Flags) : (s.orFlags v).bring = s.bring := rfl
@[simp] theorem State.orFlags_dump (s : State) (v : Flags) : (s.orFlags v).dump = s.dump := rfl
@[simp] theorem State.orFlags_fatal (s : State) (v : Flags) : (s.orFlags v).fatal = s.fatal := rfl
@[simp] theorem State.orFlags_regulator (s : State) (v : Flags) : (s.orFlags v).regulator = s.regulator := rfl
@[simp] theorem State.orFlags_syncEngine (s : State) (v : Flags) : (s.orFlags v).syncEngine = s.syncEngine := rfl
@[simp] theorem State.orFlags_weavers (s : State) (v : Flags) : (s.orFlags v).weavers = s.weavers := rfl
@[simp] theorem State.orFlags_roots (s : State) (v : Flags) : (s.orFlags v).roots = s.roots := rfl
@[simp] theorem State.orFlags_planesP (s : State) (v : Flags) : (s.orFlags v).planesP = s.planesP := rfl
@[simp] theorem State.orFlags_badPorts (s : State) (v : Flags) : (s.orFlags v).badPorts = s.badPorts := rfl
@[simp] theorem State.orFlags_rreds (s : State) (v : Flags) : (s.orFlags v).rreds = s.rreds := rfl
@[simp] theorem State.orFlags_rounds (s : State) (v : Flags) : (s.orFlags v).rounds = s.rounds := rfl
@[simp] theorem State.orFlags_posted (s : State) (v : Flags) : (s.orFlags v).posted = s.posted := rfl
@[simp] theorem State.orFlags_lostPkgs (s : State) (v : Flags) : (s.orFlags v).lostPkgs = s.lostPkgs := rfl
@[simp] theorem State.orFlags_net (s : State) (v : Flags) : (s.orFlags v).net = s.net := rfl

/-! ### drawn -/

@[simp] theorem State.drawn_agenda (s : State) (c : Nat) : (s.drawn c).agenda = s.agenda := rfl
@[simp] theorem State.drawn_sel (s : State) (c : Nat) : (s.drawn c).sel = s.sel := rfl
@[simp] theorem State.drawn_tick (s : State) (c : Nat) : (s.drawn c).tick = s.tick := rfl
@[simp] theorem State.drawn_nextId (s : State) (c : Nat) : (s.drawn c).nextId = s.nextId := rfl
@[simp] theorem State.drawn_groups (s : State) (c : Nat) : (s.drawn c).groups = s.groups := rfl
@[simp] theorem State.drawn_gangs (s : State) (c : Nat) : (s.drawn c).gangs = s.gangs := rfl
@[simp] theorem State.drawn_time (s : State) (c : Nat) : (s.drawn c).time = s.time := rfl
@[simp] theorem State.drawn_synced (s : State) (c : Nat) : (s.drawn c).synced = s.synced := rfl
@[simp] theorem State.drawn_wq (s : State) (c : Nat) : (s.drawn c).wq = s.wq := rfl
@[simp] theorem State.drawn_l1 (s : State) (c : Nat) : (s.drawn c).l1 = s.l1 := rfl
@[simp] theorem State.drawn_l2 (s : State) (c : Nat) : (s.drawn c).l2 = s.l2 := rfl
@[simp] theorem State.drawn_wbuf (s : State) (c : Nat) : (s.drawn c).wbuf = s.wbuf := rfl
@[simp] theorem State.drawn_icache (s : State) (c : Nat) : (s.drawn c).icache = s.icache := rfl
@[simp] theorem State.drawn_fetchq (s : State) (c : Nat) : (s.drawn c).fetchq = s.fetchq := rfl
@[simp] theorem State.drawn_tlb (s : State) (c : Nat) : (s.drawn c).tlb = s.tlb := rfl
@[simp] theorem State.drawn_misses (s : State) (c : Nat) : (s.drawn c).misses = s.misses := rfl
@[simp] theorem State.drawn_rtlb (s : State) (c : Nat) : (s.drawn c).rtlb = s.rtlb := rfl
@[simp] theorem State.drawn_recs (s : State) (c : Nat) : (s.drawn c).recs = s.recs := rfl
@[simp] theorem State.drawn_planes (s : State) (c : Nat) : (s.drawn c).planes = s.planes := rfl
@[simp] theorem State.drawn_rtab (s : State) (c : Nat) : (s.drawn c).rtab = s.rtab := rfl
@[simp] theorem State.drawn_ops (s : State) (c : Nat) : (s.drawn c).ops = s.ops := rfl
@[simp] theorem State.drawn_stopping (s : State) (c : Nat) : (s.drawn c).stopping = s.stopping := rfl
@[simp] theorem State.drawn_shares (s : State) (c : Nat) : (s.drawn c).shares = s.shares := rfl
@[simp] theorem State.drawn_abank (s : State) (c : Nat) : (s.drawn c).abank = s.abank := rfl
@[simp] theorem State.drawn_admits (s : State) (c : Nat) : (s.drawn c).admits = s.admits := rfl
@[simp] theorem State.drawn_dies (s : State) (c : Nat) : (s.drawn c).dies = s.dies := rfl
@[simp] theorem State.drawn_gates (s : State) (c : Nat) : (s.drawn c).gates = s.gates := rfl
@[simp] theorem State.drawn_gateCopy (s : State) (c : Nat) : (s.drawn c).gateCopy = s.gateCopy := rfl
@[simp] theorem State.drawn_mem (s : State) (c : Nat) : (s.drawn c).mem = s.mem := rfl
@[simp] theorem State.drawn_hmem (s : State) (c : Nat) : (s.drawn c).hmem = s.hmem := rfl
@[simp] theorem State.drawn_poison (s : State) (c : Nat) : (s.drawn c).poison = s.poison := rfl
@[simp] theorem State.drawn_kills (s : State) (c : Nat) : (s.drawn c).kills = s.kills := rfl
@[simp] theorem State.drawn_regions (s : State) (c : Nat) : (s.drawn c).regions = s.regions := rfl
@[simp] theorem State.drawn_control (s : State) (c : Nat) : (s.drawn c).control = s.control := rfl
@[simp] theorem State.drawn_entries (s : State) (c : Nat) : (s.drawn c).entries = s.entries := rfl
@[simp] theorem State.drawn_nmus (s : State) (c : Nat) : (s.drawn c).nmus = s.nmus := rfl
@[simp] theorem State.drawn_credits (s : State) (c : Nat) : (s.drawn c).credits = s.credits := rfl
@[simp] theorem State.drawn_reqs (s : State) (c : Nat) : (s.drawn c).reqs = s.reqs := rfl
@[simp] theorem State.drawn_chq (s : State) (c : Nat) : (s.drawn c).chq = s.chq := rfl
@[simp] theorem State.drawn_inject (s : State) (c : Nat) : (s.drawn c).inject = s.inject := rfl
@[simp] theorem State.drawn_srefStacks (s : State) (c : Nat) : (s.drawn c).srefStacks = s.srefStacks := rfl
@[simp] theorem State.drawn_stackUse (s : State) (c : Nat) : (s.drawn c).stackUse = s.stackUse := rfl
@[simp] theorem State.drawn_called (s : State) (c : Nat) : (s.drawn c).called = s.called := rfl
@[simp] theorem State.drawn_wake (s : State) (c : Nat) : (s.drawn c).wake = s.wake := rfl
@[simp] theorem State.drawn_pkg (s : State) (c : Nat) : (s.drawn c).pkg = s.pkg := rfl
@[simp] theorem State.drawn_ctxs (s : State) (c : Nat) : (s.drawn c).ctxs = s.ctxs := rfl
@[simp] theorem State.drawn_launches (s : State) (c : Nat) : (s.drawn c).launches = s.launches := rfl
@[simp] theorem State.drawn_queues (s : State) (c : Nat) : (s.drawn c).queues = s.queues := rfl
@[simp] theorem State.drawn_vfs (s : State) (c : Nat) : (s.drawn c).vfs = s.vfs := rfl
@[simp] theorem State.drawn_handles (s : State) (c : Nat) : (s.drawn c).handles = s.handles := rfl
@[simp] theorem State.drawn_maps (s : State) (c : Nat) : (s.drawn c).maps = s.maps := rfl
@[simp] theorem State.drawn_rootPages (s : State) (c : Nat) : (s.drawn c).rootPages = s.rootPages := rfl
@[simp] theorem State.drawn_moving (s : State) (c : Nat) : (s.drawn c).moving = s.moving := rfl
@[simp] theorem State.drawn_saved (s : State) (c : Nat) : (s.drawn c).saved = s.saved := rfl
@[simp] theorem State.drawn_resolutions (s : State) (c : Nat) : (s.drawn c).resolutions = s.resolutions := rfl
@[simp] theorem State.drawn_pfs (s : State) (c : Nat) : (s.drawn c).pfs = s.pfs := rfl
@[simp] theorem State.drawn_host (s : State) (c : Nat) : (s.drawn c).host = s.host := rfl
@[simp] theorem State.drawn_bring (s : State) (c : Nat) : (s.drawn c).bring = s.bring := rfl
@[simp] theorem State.drawn_dump (s : State) (c : Nat) : (s.drawn c).dump = s.dump := rfl
@[simp] theorem State.drawn_fatal (s : State) (c : Nat) : (s.drawn c).fatal = s.fatal := rfl
@[simp] theorem State.drawn_regulator (s : State) (c : Nat) : (s.drawn c).regulator = s.regulator := rfl
@[simp] theorem State.drawn_syncEngine (s : State) (c : Nat) : (s.drawn c).syncEngine = s.syncEngine := rfl
@[simp] theorem State.drawn_weavers (s : State) (c : Nat) : (s.drawn c).weavers = s.weavers := rfl
@[simp] theorem State.drawn_roots (s : State) (c : Nat) : (s.drawn c).roots = s.roots := rfl
@[simp] theorem State.drawn_planesP (s : State) (c : Nat) : (s.drawn c).planesP = s.planesP := rfl
@[simp] theorem State.drawn_badPorts (s : State) (c : Nat) : (s.drawn c).badPorts = s.badPorts := rfl
@[simp] theorem State.drawn_rreds (s : State) (c : Nat) : (s.drawn c).rreds = s.rreds := rfl
@[simp] theorem State.drawn_rounds (s : State) (c : Nat) : (s.drawn c).rounds = s.rounds := rfl
@[simp] theorem State.drawn_posted (s : State) (c : Nat) : (s.drawn c).posted = s.posted := rfl
@[simp] theorem State.drawn_lostPkgs (s : State) (c : Nat) : (s.drawn c).lostPkgs = s.lostPkgs := rfl
@[simp] theorem State.drawn_net (s : State) (c : Nat) : (s.drawn c).net = s.net := rfl

/-! ### vput -/

@[simp] theorem State.vput_agenda (s : State) (r : VReg) (n : Nat) (m : LaneMask) (f : Nat → Nat) : (s.vput r n m f).agenda = s.agenda := rfl
@[simp] theorem State.vput_sel (s : State) (r : VReg) (n : Nat) (m : LaneMask) (f : Nat → Nat) : (s.vput r n m f).sel = s.sel := rfl
@[simp] theorem State.vput_tick (s : State) (r : VReg) (n : Nat) (m : LaneMask) (f : Nat → Nat) : (s.vput r n m f).tick = s.tick := rfl
@[simp] theorem State.vput_nextId (s : State) (r : VReg) (n : Nat) (m : LaneMask) (f : Nat → Nat) : (s.vput r n m f).nextId = s.nextId := rfl
@[simp] theorem State.vput_groups (s : State) (r : VReg) (n : Nat) (m : LaneMask) (f : Nat → Nat) : (s.vput r n m f).groups = s.groups := rfl
@[simp] theorem State.vput_gangs (s : State) (r : VReg) (n : Nat) (m : LaneMask) (f : Nat → Nat) : (s.vput r n m f).gangs = s.gangs := rfl
@[simp] theorem State.vput_time (s : State) (r : VReg) (n : Nat) (m : LaneMask) (f : Nat → Nat) : (s.vput r n m f).time = s.time := rfl
@[simp] theorem State.vput_synced (s : State) (r : VReg) (n : Nat) (m : LaneMask) (f : Nat → Nat) : (s.vput r n m f).synced = s.synced := rfl
@[simp] theorem State.vput_wq (s : State) (r : VReg) (n : Nat) (m : LaneMask) (f : Nat → Nat) : (s.vput r n m f).wq = s.wq := rfl
@[simp] theorem State.vput_l1 (s : State) (r : VReg) (n : Nat) (m : LaneMask) (f : Nat → Nat) : (s.vput r n m f).l1 = s.l1 := rfl
@[simp] theorem State.vput_l2 (s : State) (r : VReg) (n : Nat) (m : LaneMask) (f : Nat → Nat) : (s.vput r n m f).l2 = s.l2 := rfl
@[simp] theorem State.vput_wbuf (s : State) (r : VReg) (n : Nat) (m : LaneMask) (f : Nat → Nat) : (s.vput r n m f).wbuf = s.wbuf := rfl
@[simp] theorem State.vput_icache (s : State) (r : VReg) (n : Nat) (m : LaneMask) (f : Nat → Nat) : (s.vput r n m f).icache = s.icache := rfl
@[simp] theorem State.vput_fetchq (s : State) (r : VReg) (n : Nat) (m : LaneMask) (f : Nat → Nat) : (s.vput r n m f).fetchq = s.fetchq := rfl
@[simp] theorem State.vput_tlb (s : State) (r : VReg) (n : Nat) (m : LaneMask) (f : Nat → Nat) : (s.vput r n m f).tlb = s.tlb := rfl
@[simp] theorem State.vput_misses (s : State) (r : VReg) (n : Nat) (m : LaneMask) (f : Nat → Nat) : (s.vput r n m f).misses = s.misses := rfl
@[simp] theorem State.vput_rtlb (s : State) (r : VReg) (n : Nat) (m : LaneMask) (f : Nat → Nat) : (s.vput r n m f).rtlb = s.rtlb := rfl
@[simp] theorem State.vput_recs (s : State) (r : VReg) (n : Nat) (m : LaneMask) (f : Nat → Nat) : (s.vput r n m f).recs = s.recs := rfl
@[simp] theorem State.vput_planes (s : State) (r : VReg) (n : Nat) (m : LaneMask) (f : Nat → Nat) : (s.vput r n m f).planes = s.planes := rfl
@[simp] theorem State.vput_rtab (s : State) (r : VReg) (n : Nat) (m : LaneMask) (f : Nat → Nat) : (s.vput r n m f).rtab = s.rtab := rfl
@[simp] theorem State.vput_ops (s : State) (r : VReg) (n : Nat) (m : LaneMask) (f : Nat → Nat) : (s.vput r n m f).ops = s.ops := rfl
@[simp] theorem State.vput_stopping (s : State) (r : VReg) (n : Nat) (m : LaneMask) (f : Nat → Nat) : (s.vput r n m f).stopping = s.stopping := rfl
@[simp] theorem State.vput_shares (s : State) (r : VReg) (n : Nat) (m : LaneMask) (f : Nat → Nat) : (s.vput r n m f).shares = s.shares := rfl
@[simp] theorem State.vput_abank (s : State) (r : VReg) (n : Nat) (m : LaneMask) (f : Nat → Nat) : (s.vput r n m f).abank = s.abank := rfl
@[simp] theorem State.vput_admits (s : State) (r : VReg) (n : Nat) (m : LaneMask) (f : Nat → Nat) : (s.vput r n m f).admits = s.admits := rfl
@[simp] theorem State.vput_dies (s : State) (r : VReg) (n : Nat) (m : LaneMask) (f : Nat → Nat) : (s.vput r n m f).dies = s.dies := rfl
@[simp] theorem State.vput_gates (s : State) (r : VReg) (n : Nat) (m : LaneMask) (f : Nat → Nat) : (s.vput r n m f).gates = s.gates := rfl
@[simp] theorem State.vput_gateCopy (s : State) (r : VReg) (n : Nat) (m : LaneMask) (f : Nat → Nat) : (s.vput r n m f).gateCopy = s.gateCopy := rfl
@[simp] theorem State.vput_mem (s : State) (r : VReg) (n : Nat) (m : LaneMask) (f : Nat → Nat) : (s.vput r n m f).mem = s.mem := rfl
@[simp] theorem State.vput_hmem (s : State) (r : VReg) (n : Nat) (m : LaneMask) (f : Nat → Nat) : (s.vput r n m f).hmem = s.hmem := rfl
@[simp] theorem State.vput_poison (s : State) (r : VReg) (n : Nat) (m : LaneMask) (f : Nat → Nat) : (s.vput r n m f).poison = s.poison := rfl
@[simp] theorem State.vput_kills (s : State) (r : VReg) (n : Nat) (m : LaneMask) (f : Nat → Nat) : (s.vput r n m f).kills = s.kills := rfl
@[simp] theorem State.vput_regions (s : State) (r : VReg) (n : Nat) (m : LaneMask) (f : Nat → Nat) : (s.vput r n m f).regions = s.regions := rfl
@[simp] theorem State.vput_control (s : State) (r : VReg) (n : Nat) (m : LaneMask) (f : Nat → Nat) : (s.vput r n m f).control = s.control := rfl
@[simp] theorem State.vput_entries (s : State) (r : VReg) (n : Nat) (m : LaneMask) (f : Nat → Nat) : (s.vput r n m f).entries = s.entries := rfl
@[simp] theorem State.vput_nmus (s : State) (r : VReg) (n : Nat) (m : LaneMask) (f : Nat → Nat) : (s.vput r n m f).nmus = s.nmus := rfl
@[simp] theorem State.vput_credits (s : State) (r : VReg) (n : Nat) (m : LaneMask) (f : Nat → Nat) : (s.vput r n m f).credits = s.credits := rfl
@[simp] theorem State.vput_reqs (s : State) (r : VReg) (n : Nat) (m : LaneMask) (f : Nat → Nat) : (s.vput r n m f).reqs = s.reqs := rfl
@[simp] theorem State.vput_chq (s : State) (r : VReg) (n : Nat) (m : LaneMask) (f : Nat → Nat) : (s.vput r n m f).chq = s.chq := rfl
@[simp] theorem State.vput_inject (s : State) (r : VReg) (n : Nat) (m : LaneMask) (f : Nat → Nat) : (s.vput r n m f).inject = s.inject := rfl
@[simp] theorem State.vput_srefStacks (s : State) (r : VReg) (n : Nat) (m : LaneMask) (f : Nat → Nat) : (s.vput r n m f).srefStacks = s.srefStacks := rfl
@[simp] theorem State.vput_stackUse (s : State) (r : VReg) (n : Nat) (m : LaneMask) (f : Nat → Nat) : (s.vput r n m f).stackUse = s.stackUse := rfl
@[simp] theorem State.vput_called (s : State) (r : VReg) (n : Nat) (m : LaneMask) (f : Nat → Nat) : (s.vput r n m f).called = s.called := rfl
@[simp] theorem State.vput_wake (s : State) (r : VReg) (n : Nat) (m : LaneMask) (f : Nat → Nat) : (s.vput r n m f).wake = s.wake := rfl
@[simp] theorem State.vput_pkg (s : State) (r : VReg) (n : Nat) (m : LaneMask) (f : Nat → Nat) : (s.vput r n m f).pkg = s.pkg := rfl
@[simp] theorem State.vput_ctxs (s : State) (r : VReg) (n : Nat) (m : LaneMask) (f : Nat → Nat) : (s.vput r n m f).ctxs = s.ctxs := rfl
@[simp] theorem State.vput_launches (s : State) (r : VReg) (n : Nat) (m : LaneMask) (f : Nat → Nat) : (s.vput r n m f).launches = s.launches := rfl
@[simp] theorem State.vput_queues (s : State) (r : VReg) (n : Nat) (m : LaneMask) (f : Nat → Nat) : (s.vput r n m f).queues = s.queues := rfl
@[simp] theorem State.vput_vfs (s : State) (r : VReg) (n : Nat) (m : LaneMask) (f : Nat → Nat) : (s.vput r n m f).vfs = s.vfs := rfl
@[simp] theorem State.vput_handles (s : State) (r : VReg) (n : Nat) (m : LaneMask) (f : Nat → Nat) : (s.vput r n m f).handles = s.handles := rfl
@[simp] theorem State.vput_maps (s : State) (r : VReg) (n : Nat) (m : LaneMask) (f : Nat → Nat) : (s.vput r n m f).maps = s.maps := rfl
@[simp] theorem State.vput_rootPages (s : State) (r : VReg) (n : Nat) (m : LaneMask) (f : Nat → Nat) : (s.vput r n m f).rootPages = s.rootPages := rfl
@[simp] theorem State.vput_moving (s : State) (r : VReg) (n : Nat) (m : LaneMask) (f : Nat → Nat) : (s.vput r n m f).moving = s.moving := rfl
@[simp] theorem State.vput_saved (s : State) (r : VReg) (n : Nat) (m : LaneMask) (f : Nat → Nat) : (s.vput r n m f).saved = s.saved := rfl
@[simp] theorem State.vput_resolutions (s : State) (r : VReg) (n : Nat) (m : LaneMask) (f : Nat → Nat) : (s.vput r n m f).resolutions = s.resolutions := rfl
@[simp] theorem State.vput_pfs (s : State) (r : VReg) (n : Nat) (m : LaneMask) (f : Nat → Nat) : (s.vput r n m f).pfs = s.pfs := rfl
@[simp] theorem State.vput_host (s : State) (r : VReg) (n : Nat) (m : LaneMask) (f : Nat → Nat) : (s.vput r n m f).host = s.host := rfl
@[simp] theorem State.vput_bring (s : State) (r : VReg) (n : Nat) (m : LaneMask) (f : Nat → Nat) : (s.vput r n m f).bring = s.bring := rfl
@[simp] theorem State.vput_dump (s : State) (r : VReg) (n : Nat) (m : LaneMask) (f : Nat → Nat) : (s.vput r n m f).dump = s.dump := rfl
@[simp] theorem State.vput_fatal (s : State) (r : VReg) (n : Nat) (m : LaneMask) (f : Nat → Nat) : (s.vput r n m f).fatal = s.fatal := rfl
@[simp] theorem State.vput_regulator (s : State) (r : VReg) (n : Nat) (m : LaneMask) (f : Nat → Nat) : (s.vput r n m f).regulator = s.regulator := rfl
@[simp] theorem State.vput_syncEngine (s : State) (r : VReg) (n : Nat) (m : LaneMask) (f : Nat → Nat) : (s.vput r n m f).syncEngine = s.syncEngine := rfl
@[simp] theorem State.vput_weavers (s : State) (r : VReg) (n : Nat) (m : LaneMask) (f : Nat → Nat) : (s.vput r n m f).weavers = s.weavers := rfl
@[simp] theorem State.vput_roots (s : State) (r : VReg) (n : Nat) (m : LaneMask) (f : Nat → Nat) : (s.vput r n m f).roots = s.roots := rfl
@[simp] theorem State.vput_planesP (s : State) (r : VReg) (n : Nat) (m : LaneMask) (f : Nat → Nat) : (s.vput r n m f).planesP = s.planesP := rfl
@[simp] theorem State.vput_badPorts (s : State) (r : VReg) (n : Nat) (m : LaneMask) (f : Nat → Nat) : (s.vput r n m f).badPorts = s.badPorts := rfl
@[simp] theorem State.vput_rreds (s : State) (r : VReg) (n : Nat) (m : LaneMask) (f : Nat → Nat) : (s.vput r n m f).rreds = s.rreds := rfl
@[simp] theorem State.vput_rounds (s : State) (r : VReg) (n : Nat) (m : LaneMask) (f : Nat → Nat) : (s.vput r n m f).rounds = s.rounds := rfl
@[simp] theorem State.vput_posted (s : State) (r : VReg) (n : Nat) (m : LaneMask) (f : Nat → Nat) : (s.vput r n m f).posted = s.posted := rfl
@[simp] theorem State.vput_lostPkgs (s : State) (r : VReg) (n : Nat) (m : LaneMask) (f : Nat → Nat) : (s.vput r n m f).lostPkgs = s.lostPkgs := rfl
@[simp] theorem State.vput_net (s : State) (r : VReg) (n : Nat) (m : LaneMask) (f : Nat → Nat) : (s.vput r n m f).net = s.net := rfl

/-! ### setGang -/

@[simp] theorem State.setGang_agenda (s : State) (key : Nat) (f : Gang → Gang) : (s.setGang key f).agenda = s.agenda := rfl
@[simp] theorem State.setGang_sel (s : State) (key : Nat) (f : Gang → Gang) : (s.setGang key f).sel = s.sel := rfl
@[simp] theorem State.setGang_tick (s : State) (key : Nat) (f : Gang → Gang) : (s.setGang key f).tick = s.tick := rfl
@[simp] theorem State.setGang_nextId (s : State) (key : Nat) (f : Gang → Gang) : (s.setGang key f).nextId = s.nextId := rfl
@[simp] theorem State.setGang_grp (s : State) (key : Nat) (f : Gang → Gang) : (s.setGang key f).grp = s.grp := rfl
@[simp] theorem State.setGang_groups (s : State) (key : Nat) (f : Gang → Gang) : (s.setGang key f).groups = s.groups := rfl
@[simp] theorem State.setGang_time (s : State) (key : Nat) (f : Gang → Gang) : (s.setGang key f).time = s.time := rfl
@[simp] theorem State.setGang_synced (s : State) (key : Nat) (f : Gang → Gang) : (s.setGang key f).synced = s.synced := rfl
@[simp] theorem State.setGang_wq (s : State) (key : Nat) (f : Gang → Gang) : (s.setGang key f).wq = s.wq := rfl
@[simp] theorem State.setGang_l1 (s : State) (key : Nat) (f : Gang → Gang) : (s.setGang key f).l1 = s.l1 := rfl
@[simp] theorem State.setGang_l2 (s : State) (key : Nat) (f : Gang → Gang) : (s.setGang key f).l2 = s.l2 := rfl
@[simp] theorem State.setGang_wbuf (s : State) (key : Nat) (f : Gang → Gang) : (s.setGang key f).wbuf = s.wbuf := rfl
@[simp] theorem State.setGang_icache (s : State) (key : Nat) (f : Gang → Gang) : (s.setGang key f).icache = s.icache := rfl
@[simp] theorem State.setGang_fetchq (s : State) (key : Nat) (f : Gang → Gang) : (s.setGang key f).fetchq = s.fetchq := rfl
@[simp] theorem State.setGang_tlb (s : State) (key : Nat) (f : Gang → Gang) : (s.setGang key f).tlb = s.tlb := rfl
@[simp] theorem State.setGang_misses (s : State) (key : Nat) (f : Gang → Gang) : (s.setGang key f).misses = s.misses := rfl
@[simp] theorem State.setGang_rtlb (s : State) (key : Nat) (f : Gang → Gang) : (s.setGang key f).rtlb = s.rtlb := rfl
@[simp] theorem State.setGang_recs (s : State) (key : Nat) (f : Gang → Gang) : (s.setGang key f).recs = s.recs := rfl
@[simp] theorem State.setGang_planes (s : State) (key : Nat) (f : Gang → Gang) : (s.setGang key f).planes = s.planes := rfl
@[simp] theorem State.setGang_rtab (s : State) (key : Nat) (f : Gang → Gang) : (s.setGang key f).rtab = s.rtab := rfl
@[simp] theorem State.setGang_ops (s : State) (key : Nat) (f : Gang → Gang) : (s.setGang key f).ops = s.ops := rfl
@[simp] theorem State.setGang_stopping (s : State) (key : Nat) (f : Gang → Gang) : (s.setGang key f).stopping = s.stopping := rfl
@[simp] theorem State.setGang_shares (s : State) (key : Nat) (f : Gang → Gang) : (s.setGang key f).shares = s.shares := rfl
@[simp] theorem State.setGang_abank (s : State) (key : Nat) (f : Gang → Gang) : (s.setGang key f).abank = s.abank := rfl
@[simp] theorem State.setGang_admits (s : State) (key : Nat) (f : Gang → Gang) : (s.setGang key f).admits = s.admits := rfl
@[simp] theorem State.setGang_dies (s : State) (key : Nat) (f : Gang → Gang) : (s.setGang key f).dies = s.dies := rfl
@[simp] theorem State.setGang_gates (s : State) (key : Nat) (f : Gang → Gang) : (s.setGang key f).gates = s.gates := rfl
@[simp] theorem State.setGang_gateCopy (s : State) (key : Nat) (f : Gang → Gang) : (s.setGang key f).gateCopy = s.gateCopy := rfl
@[simp] theorem State.setGang_mem (s : State) (key : Nat) (f : Gang → Gang) : (s.setGang key f).mem = s.mem := rfl
@[simp] theorem State.setGang_hmem (s : State) (key : Nat) (f : Gang → Gang) : (s.setGang key f).hmem = s.hmem := rfl
@[simp] theorem State.setGang_poison (s : State) (key : Nat) (f : Gang → Gang) : (s.setGang key f).poison = s.poison := rfl
@[simp] theorem State.setGang_kills (s : State) (key : Nat) (f : Gang → Gang) : (s.setGang key f).kills = s.kills := rfl
@[simp] theorem State.setGang_regions (s : State) (key : Nat) (f : Gang → Gang) : (s.setGang key f).regions = s.regions := rfl
@[simp] theorem State.setGang_control (s : State) (key : Nat) (f : Gang → Gang) : (s.setGang key f).control = s.control := rfl
@[simp] theorem State.setGang_entries (s : State) (key : Nat) (f : Gang → Gang) : (s.setGang key f).entries = s.entries := rfl
@[simp] theorem State.setGang_nmus (s : State) (key : Nat) (f : Gang → Gang) : (s.setGang key f).nmus = s.nmus := rfl
@[simp] theorem State.setGang_credits (s : State) (key : Nat) (f : Gang → Gang) : (s.setGang key f).credits = s.credits := rfl
@[simp] theorem State.setGang_reqs (s : State) (key : Nat) (f : Gang → Gang) : (s.setGang key f).reqs = s.reqs := rfl
@[simp] theorem State.setGang_chq (s : State) (key : Nat) (f : Gang → Gang) : (s.setGang key f).chq = s.chq := rfl
@[simp] theorem State.setGang_inject (s : State) (key : Nat) (f : Gang → Gang) : (s.setGang key f).inject = s.inject := rfl
@[simp] theorem State.setGang_srefStacks (s : State) (key : Nat) (f : Gang → Gang) : (s.setGang key f).srefStacks = s.srefStacks := rfl
@[simp] theorem State.setGang_stackUse (s : State) (key : Nat) (f : Gang → Gang) : (s.setGang key f).stackUse = s.stackUse := rfl
@[simp] theorem State.setGang_called (s : State) (key : Nat) (f : Gang → Gang) : (s.setGang key f).called = s.called := rfl
@[simp] theorem State.setGang_wake (s : State) (key : Nat) (f : Gang → Gang) : (s.setGang key f).wake = s.wake := rfl
@[simp] theorem State.setGang_pkg (s : State) (key : Nat) (f : Gang → Gang) : (s.setGang key f).pkg = s.pkg := rfl
@[simp] theorem State.setGang_ctxs (s : State) (key : Nat) (f : Gang → Gang) : (s.setGang key f).ctxs = s.ctxs := rfl
@[simp] theorem State.setGang_launches (s : State) (key : Nat) (f : Gang → Gang) : (s.setGang key f).launches = s.launches := rfl
@[simp] theorem State.setGang_queues (s : State) (key : Nat) (f : Gang → Gang) : (s.setGang key f).queues = s.queues := rfl
@[simp] theorem State.setGang_vfs (s : State) (key : Nat) (f : Gang → Gang) : (s.setGang key f).vfs = s.vfs := rfl
@[simp] theorem State.setGang_handles (s : State) (key : Nat) (f : Gang → Gang) : (s.setGang key f).handles = s.handles := rfl
@[simp] theorem State.setGang_maps (s : State) (key : Nat) (f : Gang → Gang) : (s.setGang key f).maps = s.maps := rfl
@[simp] theorem State.setGang_rootPages (s : State) (key : Nat) (f : Gang → Gang) : (s.setGang key f).rootPages = s.rootPages := rfl
@[simp] theorem State.setGang_moving (s : State) (key : Nat) (f : Gang → Gang) : (s.setGang key f).moving = s.moving := rfl
@[simp] theorem State.setGang_saved (s : State) (key : Nat) (f : Gang → Gang) : (s.setGang key f).saved = s.saved := rfl
@[simp] theorem State.setGang_resolutions (s : State) (key : Nat) (f : Gang → Gang) : (s.setGang key f).resolutions = s.resolutions := rfl
@[simp] theorem State.setGang_pfs (s : State) (key : Nat) (f : Gang → Gang) : (s.setGang key f).pfs = s.pfs := rfl
@[simp] theorem State.setGang_host (s : State) (key : Nat) (f : Gang → Gang) : (s.setGang key f).host = s.host := rfl
@[simp] theorem State.setGang_bring (s : State) (key : Nat) (f : Gang → Gang) : (s.setGang key f).bring = s.bring := rfl
@[simp] theorem State.setGang_dump (s : State) (key : Nat) (f : Gang → Gang) : (s.setGang key f).dump = s.dump := rfl
@[simp] theorem State.setGang_fatal (s : State) (key : Nat) (f : Gang → Gang) : (s.setGang key f).fatal = s.fatal := rfl
@[simp] theorem State.setGang_regulator (s : State) (key : Nat) (f : Gang → Gang) : (s.setGang key f).regulator = s.regulator := rfl
@[simp] theorem State.setGang_syncEngine (s : State) (key : Nat) (f : Gang → Gang) : (s.setGang key f).syncEngine = s.syncEngine := rfl
@[simp] theorem State.setGang_weavers (s : State) (key : Nat) (f : Gang → Gang) : (s.setGang key f).weavers = s.weavers := rfl
@[simp] theorem State.setGang_roots (s : State) (key : Nat) (f : Gang → Gang) : (s.setGang key f).roots = s.roots := rfl
@[simp] theorem State.setGang_planesP (s : State) (key : Nat) (f : Gang → Gang) : (s.setGang key f).planesP = s.planesP := rfl
@[simp] theorem State.setGang_badPorts (s : State) (key : Nat) (f : Gang → Gang) : (s.setGang key f).badPorts = s.badPorts := rfl
@[simp] theorem State.setGang_rreds (s : State) (key : Nat) (f : Gang → Gang) : (s.setGang key f).rreds = s.rreds := rfl
@[simp] theorem State.setGang_rounds (s : State) (key : Nat) (f : Gang → Gang) : (s.setGang key f).rounds = s.rounds := rfl
@[simp] theorem State.setGang_posted (s : State) (key : Nat) (f : Gang → Gang) : (s.setGang key f).posted = s.posted := rfl
@[simp] theorem State.setGang_lostPkgs (s : State) (key : Nat) (f : Gang → Gang) : (s.setGang key f).lostPkgs = s.lostPkgs := rfl
@[simp] theorem State.setGang_net (s : State) (key : Nat) (f : Gang → Gang) : (s.setGang key f).net = s.net := rfl

/-! ### setCtx -/

@[simp] theorem State.setCtx_agenda (s : State) (vf part : Nat) (f : Ctx → Ctx) : (s.setCtx vf part f).agenda = s.agenda := rfl
@[simp] theorem State.setCtx_sel (s : State) (vf part : Nat) (f : Ctx → Ctx) : (s.setCtx vf part f).sel = s.sel := rfl
@[simp] theorem State.setCtx_tick (s : State) (vf part : Nat) (f : Ctx → Ctx) : (s.setCtx vf part f).tick = s.tick := rfl
@[simp] theorem State.setCtx_nextId (s : State) (vf part : Nat) (f : Ctx → Ctx) : (s.setCtx vf part f).nextId = s.nextId := rfl
@[simp] theorem State.setCtx_grp (s : State) (vf part : Nat) (f : Ctx → Ctx) : (s.setCtx vf part f).grp = s.grp := rfl
@[simp] theorem State.setCtx_groups (s : State) (vf part : Nat) (f : Ctx → Ctx) : (s.setCtx vf part f).groups = s.groups := rfl
@[simp] theorem State.setCtx_gangs (s : State) (vf part : Nat) (f : Ctx → Ctx) : (s.setCtx vf part f).gangs = s.gangs := rfl
@[simp] theorem State.setCtx_time (s : State) (vf part : Nat) (f : Ctx → Ctx) : (s.setCtx vf part f).time = s.time := rfl
@[simp] theorem State.setCtx_synced (s : State) (vf part : Nat) (f : Ctx → Ctx) : (s.setCtx vf part f).synced = s.synced := rfl
@[simp] theorem State.setCtx_wq (s : State) (vf part : Nat) (f : Ctx → Ctx) : (s.setCtx vf part f).wq = s.wq := rfl
@[simp] theorem State.setCtx_l1 (s : State) (vf part : Nat) (f : Ctx → Ctx) : (s.setCtx vf part f).l1 = s.l1 := rfl
@[simp] theorem State.setCtx_l2 (s : State) (vf part : Nat) (f : Ctx → Ctx) : (s.setCtx vf part f).l2 = s.l2 := rfl
@[simp] theorem State.setCtx_wbuf (s : State) (vf part : Nat) (f : Ctx → Ctx) : (s.setCtx vf part f).wbuf = s.wbuf := rfl
@[simp] theorem State.setCtx_icache (s : State) (vf part : Nat) (f : Ctx → Ctx) : (s.setCtx vf part f).icache = s.icache := rfl
@[simp] theorem State.setCtx_fetchq (s : State) (vf part : Nat) (f : Ctx → Ctx) : (s.setCtx vf part f).fetchq = s.fetchq := rfl
@[simp] theorem State.setCtx_tlb (s : State) (vf part : Nat) (f : Ctx → Ctx) : (s.setCtx vf part f).tlb = s.tlb := rfl
@[simp] theorem State.setCtx_misses (s : State) (vf part : Nat) (f : Ctx → Ctx) : (s.setCtx vf part f).misses = s.misses := rfl
@[simp] theorem State.setCtx_rtlb (s : State) (vf part : Nat) (f : Ctx → Ctx) : (s.setCtx vf part f).rtlb = s.rtlb := rfl
@[simp] theorem State.setCtx_recs (s : State) (vf part : Nat) (f : Ctx → Ctx) : (s.setCtx vf part f).recs = s.recs := rfl
@[simp] theorem State.setCtx_planes (s : State) (vf part : Nat) (f : Ctx → Ctx) : (s.setCtx vf part f).planes = s.planes := rfl
@[simp] theorem State.setCtx_rtab (s : State) (vf part : Nat) (f : Ctx → Ctx) : (s.setCtx vf part f).rtab = s.rtab := rfl
@[simp] theorem State.setCtx_ops (s : State) (vf part : Nat) (f : Ctx → Ctx) : (s.setCtx vf part f).ops = s.ops := rfl
@[simp] theorem State.setCtx_stopping (s : State) (vf part : Nat) (f : Ctx → Ctx) : (s.setCtx vf part f).stopping = s.stopping := rfl
@[simp] theorem State.setCtx_shares (s : State) (vf part : Nat) (f : Ctx → Ctx) : (s.setCtx vf part f).shares = s.shares := rfl
@[simp] theorem State.setCtx_abank (s : State) (vf part : Nat) (f : Ctx → Ctx) : (s.setCtx vf part f).abank = s.abank := rfl
@[simp] theorem State.setCtx_admits (s : State) (vf part : Nat) (f : Ctx → Ctx) : (s.setCtx vf part f).admits = s.admits := rfl
@[simp] theorem State.setCtx_dies (s : State) (vf part : Nat) (f : Ctx → Ctx) : (s.setCtx vf part f).dies = s.dies := rfl
@[simp] theorem State.setCtx_gates (s : State) (vf part : Nat) (f : Ctx → Ctx) : (s.setCtx vf part f).gates = s.gates := rfl
@[simp] theorem State.setCtx_gateCopy (s : State) (vf part : Nat) (f : Ctx → Ctx) : (s.setCtx vf part f).gateCopy = s.gateCopy := rfl
@[simp] theorem State.setCtx_mem (s : State) (vf part : Nat) (f : Ctx → Ctx) : (s.setCtx vf part f).mem = s.mem := rfl
@[simp] theorem State.setCtx_hmem (s : State) (vf part : Nat) (f : Ctx → Ctx) : (s.setCtx vf part f).hmem = s.hmem := rfl
@[simp] theorem State.setCtx_poison (s : State) (vf part : Nat) (f : Ctx → Ctx) : (s.setCtx vf part f).poison = s.poison := rfl
@[simp] theorem State.setCtx_kills (s : State) (vf part : Nat) (f : Ctx → Ctx) : (s.setCtx vf part f).kills = s.kills := rfl
@[simp] theorem State.setCtx_regions (s : State) (vf part : Nat) (f : Ctx → Ctx) : (s.setCtx vf part f).regions = s.regions := rfl
@[simp] theorem State.setCtx_control (s : State) (vf part : Nat) (f : Ctx → Ctx) : (s.setCtx vf part f).control = s.control := rfl
@[simp] theorem State.setCtx_entries (s : State) (vf part : Nat) (f : Ctx → Ctx) : (s.setCtx vf part f).entries = s.entries := rfl
@[simp] theorem State.setCtx_nmus (s : State) (vf part : Nat) (f : Ctx → Ctx) : (s.setCtx vf part f).nmus = s.nmus := rfl
@[simp] theorem State.setCtx_credits (s : State) (vf part : Nat) (f : Ctx → Ctx) : (s.setCtx vf part f).credits = s.credits := rfl
@[simp] theorem State.setCtx_reqs (s : State) (vf part : Nat) (f : Ctx → Ctx) : (s.setCtx vf part f).reqs = s.reqs := rfl
@[simp] theorem State.setCtx_chq (s : State) (vf part : Nat) (f : Ctx → Ctx) : (s.setCtx vf part f).chq = s.chq := rfl
@[simp] theorem State.setCtx_inject (s : State) (vf part : Nat) (f : Ctx → Ctx) : (s.setCtx vf part f).inject = s.inject := rfl
@[simp] theorem State.setCtx_srefStacks (s : State) (vf part : Nat) (f : Ctx → Ctx) : (s.setCtx vf part f).srefStacks = s.srefStacks := rfl
@[simp] theorem State.setCtx_stackUse (s : State) (vf part : Nat) (f : Ctx → Ctx) : (s.setCtx vf part f).stackUse = s.stackUse := rfl
@[simp] theorem State.setCtx_called (s : State) (vf part : Nat) (f : Ctx → Ctx) : (s.setCtx vf part f).called = s.called := rfl
@[simp] theorem State.setCtx_wake (s : State) (vf part : Nat) (f : Ctx → Ctx) : (s.setCtx vf part f).wake = s.wake := rfl
@[simp] theorem State.setCtx_pkg (s : State) (vf part : Nat) (f : Ctx → Ctx) : (s.setCtx vf part f).pkg = s.pkg := rfl
@[simp] theorem State.setCtx_launches (s : State) (vf part : Nat) (f : Ctx → Ctx) : (s.setCtx vf part f).launches = s.launches := rfl
@[simp] theorem State.setCtx_queues (s : State) (vf part : Nat) (f : Ctx → Ctx) : (s.setCtx vf part f).queues = s.queues := rfl
@[simp] theorem State.setCtx_vfs (s : State) (vf part : Nat) (f : Ctx → Ctx) : (s.setCtx vf part f).vfs = s.vfs := rfl
@[simp] theorem State.setCtx_handles (s : State) (vf part : Nat) (f : Ctx → Ctx) : (s.setCtx vf part f).handles = s.handles := rfl
@[simp] theorem State.setCtx_maps (s : State) (vf part : Nat) (f : Ctx → Ctx) : (s.setCtx vf part f).maps = s.maps := rfl
@[simp] theorem State.setCtx_rootPages (s : State) (vf part : Nat) (f : Ctx → Ctx) : (s.setCtx vf part f).rootPages = s.rootPages := rfl
@[simp] theorem State.setCtx_moving (s : State) (vf part : Nat) (f : Ctx → Ctx) : (s.setCtx vf part f).moving = s.moving := rfl
@[simp] theorem State.setCtx_saved (s : State) (vf part : Nat) (f : Ctx → Ctx) : (s.setCtx vf part f).saved = s.saved := rfl
@[simp] theorem State.setCtx_resolutions (s : State) (vf part : Nat) (f : Ctx → Ctx) : (s.setCtx vf part f).resolutions = s.resolutions := rfl
@[simp] theorem State.setCtx_pfs (s : State) (vf part : Nat) (f : Ctx → Ctx) : (s.setCtx vf part f).pfs = s.pfs := rfl
@[simp] theorem State.setCtx_host (s : State) (vf part : Nat) (f : Ctx → Ctx) : (s.setCtx vf part f).host = s.host := rfl
@[simp] theorem State.setCtx_bring (s : State) (vf part : Nat) (f : Ctx → Ctx) : (s.setCtx vf part f).bring = s.bring := rfl
@[simp] theorem State.setCtx_dump (s : State) (vf part : Nat) (f : Ctx → Ctx) : (s.setCtx vf part f).dump = s.dump := rfl
@[simp] theorem State.setCtx_fatal (s : State) (vf part : Nat) (f : Ctx → Ctx) : (s.setCtx vf part f).fatal = s.fatal := rfl
@[simp] theorem State.setCtx_regulator (s : State) (vf part : Nat) (f : Ctx → Ctx) : (s.setCtx vf part f).regulator = s.regulator := rfl
@[simp] theorem State.setCtx_syncEngine (s : State) (vf part : Nat) (f : Ctx → Ctx) : (s.setCtx vf part f).syncEngine = s.syncEngine := rfl
@[simp] theorem State.setCtx_weavers (s : State) (vf part : Nat) (f : Ctx → Ctx) : (s.setCtx vf part f).weavers = s.weavers := rfl
@[simp] theorem State.setCtx_roots (s : State) (vf part : Nat) (f : Ctx → Ctx) : (s.setCtx vf part f).roots = s.roots := rfl
@[simp] theorem State.setCtx_planesP (s : State) (vf part : Nat) (f : Ctx → Ctx) : (s.setCtx vf part f).planesP = s.planesP := rfl
@[simp] theorem State.setCtx_badPorts (s : State) (vf part : Nat) (f : Ctx → Ctx) : (s.setCtx vf part f).badPorts = s.badPorts := rfl
@[simp] theorem State.setCtx_rreds (s : State) (vf part : Nat) (f : Ctx → Ctx) : (s.setCtx vf part f).rreds = s.rreds := rfl
@[simp] theorem State.setCtx_rounds (s : State) (vf part : Nat) (f : Ctx → Ctx) : (s.setCtx vf part f).rounds = s.rounds := rfl
@[simp] theorem State.setCtx_posted (s : State) (vf part : Nat) (f : Ctx → Ctx) : (s.setCtx vf part f).posted = s.posted := rfl
@[simp] theorem State.setCtx_lostPkgs (s : State) (vf part : Nat) (f : Ctx → Ctx) : (s.setCtx vf part f).lostPkgs = s.lostPkgs := rfl
@[simp] theorem State.setCtx_net (s : State) (vf part : Nat) (f : Ctx → Ctx) : (s.setCtx vf part f).net = s.net := rfl

/-! ### setVf -/

@[simp] theorem State.setVf_agenda (s : State) (v : Nat) (f : Vf → Vf) : (s.setVf v f).agenda = s.agenda := rfl
@[simp] theorem State.setVf_sel (s : State) (v : Nat) (f : Vf → Vf) : (s.setVf v f).sel = s.sel := rfl
@[simp] theorem State.setVf_tick (s : State) (v : Nat) (f : Vf → Vf) : (s.setVf v f).tick = s.tick := rfl
@[simp] theorem State.setVf_nextId (s : State) (v : Nat) (f : Vf → Vf) : (s.setVf v f).nextId = s.nextId := rfl
@[simp] theorem State.setVf_grp (s : State) (v : Nat) (f : Vf → Vf) : (s.setVf v f).grp = s.grp := rfl
@[simp] theorem State.setVf_groups (s : State) (v : Nat) (f : Vf → Vf) : (s.setVf v f).groups = s.groups := rfl
@[simp] theorem State.setVf_gangs (s : State) (v : Nat) (f : Vf → Vf) : (s.setVf v f).gangs = s.gangs := rfl
@[simp] theorem State.setVf_time (s : State) (v : Nat) (f : Vf → Vf) : (s.setVf v f).time = s.time := rfl
@[simp] theorem State.setVf_synced (s : State) (v : Nat) (f : Vf → Vf) : (s.setVf v f).synced = s.synced := rfl
@[simp] theorem State.setVf_wq (s : State) (v : Nat) (f : Vf → Vf) : (s.setVf v f).wq = s.wq := rfl
@[simp] theorem State.setVf_l1 (s : State) (v : Nat) (f : Vf → Vf) : (s.setVf v f).l1 = s.l1 := rfl
@[simp] theorem State.setVf_l2 (s : State) (v : Nat) (f : Vf → Vf) : (s.setVf v f).l2 = s.l2 := rfl
@[simp] theorem State.setVf_wbuf (s : State) (v : Nat) (f : Vf → Vf) : (s.setVf v f).wbuf = s.wbuf := rfl
@[simp] theorem State.setVf_icache (s : State) (v : Nat) (f : Vf → Vf) : (s.setVf v f).icache = s.icache := rfl
@[simp] theorem State.setVf_fetchq (s : State) (v : Nat) (f : Vf → Vf) : (s.setVf v f).fetchq = s.fetchq := rfl
@[simp] theorem State.setVf_tlb (s : State) (v : Nat) (f : Vf → Vf) : (s.setVf v f).tlb = s.tlb := rfl
@[simp] theorem State.setVf_misses (s : State) (v : Nat) (f : Vf → Vf) : (s.setVf v f).misses = s.misses := rfl
@[simp] theorem State.setVf_rtlb (s : State) (v : Nat) (f : Vf → Vf) : (s.setVf v f).rtlb = s.rtlb := rfl
@[simp] theorem State.setVf_recs (s : State) (v : Nat) (f : Vf → Vf) : (s.setVf v f).recs = s.recs := rfl
@[simp] theorem State.setVf_planes (s : State) (v : Nat) (f : Vf → Vf) : (s.setVf v f).planes = s.planes := rfl
@[simp] theorem State.setVf_rtab (s : State) (v : Nat) (f : Vf → Vf) : (s.setVf v f).rtab = s.rtab := rfl
@[simp] theorem State.setVf_ops (s : State) (v : Nat) (f : Vf → Vf) : (s.setVf v f).ops = s.ops := rfl
@[simp] theorem State.setVf_stopping (s : State) (v : Nat) (f : Vf → Vf) : (s.setVf v f).stopping = s.stopping := rfl
@[simp] theorem State.setVf_shares (s : State) (v : Nat) (f : Vf → Vf) : (s.setVf v f).shares = s.shares := rfl
@[simp] theorem State.setVf_abank (s : State) (v : Nat) (f : Vf → Vf) : (s.setVf v f).abank = s.abank := rfl
@[simp] theorem State.setVf_admits (s : State) (v : Nat) (f : Vf → Vf) : (s.setVf v f).admits = s.admits := rfl
@[simp] theorem State.setVf_dies (s : State) (v : Nat) (f : Vf → Vf) : (s.setVf v f).dies = s.dies := rfl
@[simp] theorem State.setVf_gates (s : State) (v : Nat) (f : Vf → Vf) : (s.setVf v f).gates = s.gates := rfl
@[simp] theorem State.setVf_gateCopy (s : State) (v : Nat) (f : Vf → Vf) : (s.setVf v f).gateCopy = s.gateCopy := rfl
@[simp] theorem State.setVf_mem (s : State) (v : Nat) (f : Vf → Vf) : (s.setVf v f).mem = s.mem := rfl
@[simp] theorem State.setVf_hmem (s : State) (v : Nat) (f : Vf → Vf) : (s.setVf v f).hmem = s.hmem := rfl
@[simp] theorem State.setVf_poison (s : State) (v : Nat) (f : Vf → Vf) : (s.setVf v f).poison = s.poison := rfl
@[simp] theorem State.setVf_kills (s : State) (v : Nat) (f : Vf → Vf) : (s.setVf v f).kills = s.kills := rfl
@[simp] theorem State.setVf_regions (s : State) (v : Nat) (f : Vf → Vf) : (s.setVf v f).regions = s.regions := rfl
@[simp] theorem State.setVf_control (s : State) (v : Nat) (f : Vf → Vf) : (s.setVf v f).control = s.control := rfl
@[simp] theorem State.setVf_entries (s : State) (v : Nat) (f : Vf → Vf) : (s.setVf v f).entries = s.entries := rfl
@[simp] theorem State.setVf_nmus (s : State) (v : Nat) (f : Vf → Vf) : (s.setVf v f).nmus = s.nmus := rfl
@[simp] theorem State.setVf_credits (s : State) (v : Nat) (f : Vf → Vf) : (s.setVf v f).credits = s.credits := rfl
@[simp] theorem State.setVf_reqs (s : State) (v : Nat) (f : Vf → Vf) : (s.setVf v f).reqs = s.reqs := rfl
@[simp] theorem State.setVf_chq (s : State) (v : Nat) (f : Vf → Vf) : (s.setVf v f).chq = s.chq := rfl
@[simp] theorem State.setVf_inject (s : State) (v : Nat) (f : Vf → Vf) : (s.setVf v f).inject = s.inject := rfl
@[simp] theorem State.setVf_srefStacks (s : State) (v : Nat) (f : Vf → Vf) : (s.setVf v f).srefStacks = s.srefStacks := rfl
@[simp] theorem State.setVf_stackUse (s : State) (v : Nat) (f : Vf → Vf) : (s.setVf v f).stackUse = s.stackUse := rfl
@[simp] theorem State.setVf_called (s : State) (v : Nat) (f : Vf → Vf) : (s.setVf v f).called = s.called := rfl
@[simp] theorem State.setVf_wake (s : State) (v : Nat) (f : Vf → Vf) : (s.setVf v f).wake = s.wake := rfl
@[simp] theorem State.setVf_pkg (s : State) (v : Nat) (f : Vf → Vf) : (s.setVf v f).pkg = s.pkg := rfl
@[simp] theorem State.setVf_ctxs (s : State) (v : Nat) (f : Vf → Vf) : (s.setVf v f).ctxs = s.ctxs := rfl
@[simp] theorem State.setVf_launches (s : State) (v : Nat) (f : Vf → Vf) : (s.setVf v f).launches = s.launches := rfl
@[simp] theorem State.setVf_queues (s : State) (v : Nat) (f : Vf → Vf) : (s.setVf v f).queues = s.queues := rfl
@[simp] theorem State.setVf_handles (s : State) (v : Nat) (f : Vf → Vf) : (s.setVf v f).handles = s.handles := rfl
@[simp] theorem State.setVf_maps (s : State) (v : Nat) (f : Vf → Vf) : (s.setVf v f).maps = s.maps := rfl
@[simp] theorem State.setVf_rootPages (s : State) (v : Nat) (f : Vf → Vf) : (s.setVf v f).rootPages = s.rootPages := rfl
@[simp] theorem State.setVf_moving (s : State) (v : Nat) (f : Vf → Vf) : (s.setVf v f).moving = s.moving := rfl
@[simp] theorem State.setVf_saved (s : State) (v : Nat) (f : Vf → Vf) : (s.setVf v f).saved = s.saved := rfl
@[simp] theorem State.setVf_resolutions (s : State) (v : Nat) (f : Vf → Vf) : (s.setVf v f).resolutions = s.resolutions := rfl
@[simp] theorem State.setVf_pfs (s : State) (v : Nat) (f : Vf → Vf) : (s.setVf v f).pfs = s.pfs := rfl
@[simp] theorem State.setVf_host (s : State) (v : Nat) (f : Vf → Vf) : (s.setVf v f).host = s.host := rfl
@[simp] theorem State.setVf_bring (s : State) (v : Nat) (f : Vf → Vf) : (s.setVf v f).bring = s.bring := rfl
@[simp] theorem State.setVf_dump (s : State) (v : Nat) (f : Vf → Vf) : (s.setVf v f).dump = s.dump := rfl
@[simp] theorem State.setVf_fatal (s : State) (v : Nat) (f : Vf → Vf) : (s.setVf v f).fatal = s.fatal := rfl
@[simp] theorem State.setVf_regulator (s : State) (v : Nat) (f : Vf → Vf) : (s.setVf v f).regulator = s.regulator := rfl
@[simp] theorem State.setVf_syncEngine (s : State) (v : Nat) (f : Vf → Vf) : (s.setVf v f).syncEngine = s.syncEngine := rfl
@[simp] theorem State.setVf_weavers (s : State) (v : Nat) (f : Vf → Vf) : (s.setVf v f).weavers = s.weavers := rfl
@[simp] theorem State.setVf_roots (s : State) (v : Nat) (f : Vf → Vf) : (s.setVf v f).roots = s.roots := rfl
@[simp] theorem State.setVf_planesP (s : State) (v : Nat) (f : Vf → Vf) : (s.setVf v f).planesP = s.planesP := rfl
@[simp] theorem State.setVf_badPorts (s : State) (v : Nat) (f : Vf → Vf) : (s.setVf v f).badPorts = s.badPorts := rfl
@[simp] theorem State.setVf_rreds (s : State) (v : Nat) (f : Vf → Vf) : (s.setVf v f).rreds = s.rreds := rfl
@[simp] theorem State.setVf_rounds (s : State) (v : Nat) (f : Vf → Vf) : (s.setVf v f).rounds = s.rounds := rfl
@[simp] theorem State.setVf_posted (s : State) (v : Nat) (f : Vf → Vf) : (s.setVf v f).posted = s.posted := rfl
@[simp] theorem State.setVf_lostPkgs (s : State) (v : Nat) (f : Vf → Vf) : (s.setVf v f).lostPkgs = s.lostPkgs := rfl
@[simp] theorem State.setVf_net (s : State) (v : Nat) (f : Vf → Vf) : (s.setVf v f).net = s.net := rfl

/-! ### setDie -/

@[simp] theorem State.setDie_agenda (s : State) (d : Nat) (f : Die → Die) : (s.setDie d f).agenda = s.agenda := rfl
@[simp] theorem State.setDie_sel (s : State) (d : Nat) (f : Die → Die) : (s.setDie d f).sel = s.sel := rfl
@[simp] theorem State.setDie_tick (s : State) (d : Nat) (f : Die → Die) : (s.setDie d f).tick = s.tick := rfl
@[simp] theorem State.setDie_nextId (s : State) (d : Nat) (f : Die → Die) : (s.setDie d f).nextId = s.nextId := rfl
@[simp] theorem State.setDie_grp (s : State) (d : Nat) (f : Die → Die) : (s.setDie d f).grp = s.grp := rfl
@[simp] theorem State.setDie_groups (s : State) (d : Nat) (f : Die → Die) : (s.setDie d f).groups = s.groups := rfl
@[simp] theorem State.setDie_gangs (s : State) (d : Nat) (f : Die → Die) : (s.setDie d f).gangs = s.gangs := rfl
@[simp] theorem State.setDie_time (s : State) (d : Nat) (f : Die → Die) : (s.setDie d f).time = s.time := rfl
@[simp] theorem State.setDie_synced (s : State) (d : Nat) (f : Die → Die) : (s.setDie d f).synced = s.synced := rfl
@[simp] theorem State.setDie_wq (s : State) (d : Nat) (f : Die → Die) : (s.setDie d f).wq = s.wq := rfl
@[simp] theorem State.setDie_l1 (s : State) (d : Nat) (f : Die → Die) : (s.setDie d f).l1 = s.l1 := rfl
@[simp] theorem State.setDie_l2 (s : State) (d : Nat) (f : Die → Die) : (s.setDie d f).l2 = s.l2 := rfl
@[simp] theorem State.setDie_wbuf (s : State) (d : Nat) (f : Die → Die) : (s.setDie d f).wbuf = s.wbuf := rfl
@[simp] theorem State.setDie_icache (s : State) (d : Nat) (f : Die → Die) : (s.setDie d f).icache = s.icache := rfl
@[simp] theorem State.setDie_fetchq (s : State) (d : Nat) (f : Die → Die) : (s.setDie d f).fetchq = s.fetchq := rfl
@[simp] theorem State.setDie_tlb (s : State) (d : Nat) (f : Die → Die) : (s.setDie d f).tlb = s.tlb := rfl
@[simp] theorem State.setDie_misses (s : State) (d : Nat) (f : Die → Die) : (s.setDie d f).misses = s.misses := rfl
@[simp] theorem State.setDie_rtlb (s : State) (d : Nat) (f : Die → Die) : (s.setDie d f).rtlb = s.rtlb := rfl
@[simp] theorem State.setDie_recs (s : State) (d : Nat) (f : Die → Die) : (s.setDie d f).recs = s.recs := rfl
@[simp] theorem State.setDie_planes (s : State) (d : Nat) (f : Die → Die) : (s.setDie d f).planes = s.planes := rfl
@[simp] theorem State.setDie_rtab (s : State) (d : Nat) (f : Die → Die) : (s.setDie d f).rtab = s.rtab := rfl
@[simp] theorem State.setDie_ops (s : State) (d : Nat) (f : Die → Die) : (s.setDie d f).ops = s.ops := rfl
@[simp] theorem State.setDie_stopping (s : State) (d : Nat) (f : Die → Die) : (s.setDie d f).stopping = s.stopping := rfl
@[simp] theorem State.setDie_shares (s : State) (d : Nat) (f : Die → Die) : (s.setDie d f).shares = s.shares := rfl
@[simp] theorem State.setDie_abank (s : State) (d : Nat) (f : Die → Die) : (s.setDie d f).abank = s.abank := rfl
@[simp] theorem State.setDie_admits (s : State) (d : Nat) (f : Die → Die) : (s.setDie d f).admits = s.admits := rfl
@[simp] theorem State.setDie_gates (s : State) (d : Nat) (f : Die → Die) : (s.setDie d f).gates = s.gates := rfl
@[simp] theorem State.setDie_gateCopy (s : State) (d : Nat) (f : Die → Die) : (s.setDie d f).gateCopy = s.gateCopy := rfl
@[simp] theorem State.setDie_mem (s : State) (d : Nat) (f : Die → Die) : (s.setDie d f).mem = s.mem := rfl
@[simp] theorem State.setDie_hmem (s : State) (d : Nat) (f : Die → Die) : (s.setDie d f).hmem = s.hmem := rfl
@[simp] theorem State.setDie_poison (s : State) (d : Nat) (f : Die → Die) : (s.setDie d f).poison = s.poison := rfl
@[simp] theorem State.setDie_kills (s : State) (d : Nat) (f : Die → Die) : (s.setDie d f).kills = s.kills := rfl
@[simp] theorem State.setDie_regions (s : State) (d : Nat) (f : Die → Die) : (s.setDie d f).regions = s.regions := rfl
@[simp] theorem State.setDie_control (s : State) (d : Nat) (f : Die → Die) : (s.setDie d f).control = s.control := rfl
@[simp] theorem State.setDie_entries (s : State) (d : Nat) (f : Die → Die) : (s.setDie d f).entries = s.entries := rfl
@[simp] theorem State.setDie_nmus (s : State) (d : Nat) (f : Die → Die) : (s.setDie d f).nmus = s.nmus := rfl
@[simp] theorem State.setDie_credits (s : State) (d : Nat) (f : Die → Die) : (s.setDie d f).credits = s.credits := rfl
@[simp] theorem State.setDie_reqs (s : State) (d : Nat) (f : Die → Die) : (s.setDie d f).reqs = s.reqs := rfl
@[simp] theorem State.setDie_chq (s : State) (d : Nat) (f : Die → Die) : (s.setDie d f).chq = s.chq := rfl
@[simp] theorem State.setDie_inject (s : State) (d : Nat) (f : Die → Die) : (s.setDie d f).inject = s.inject := rfl
@[simp] theorem State.setDie_srefStacks (s : State) (d : Nat) (f : Die → Die) : (s.setDie d f).srefStacks = s.srefStacks := rfl
@[simp] theorem State.setDie_stackUse (s : State) (d : Nat) (f : Die → Die) : (s.setDie d f).stackUse = s.stackUse := rfl
@[simp] theorem State.setDie_called (s : State) (d : Nat) (f : Die → Die) : (s.setDie d f).called = s.called := rfl
@[simp] theorem State.setDie_wake (s : State) (d : Nat) (f : Die → Die) : (s.setDie d f).wake = s.wake := rfl
@[simp] theorem State.setDie_pkg (s : State) (d : Nat) (f : Die → Die) : (s.setDie d f).pkg = s.pkg := rfl
@[simp] theorem State.setDie_ctxs (s : State) (d : Nat) (f : Die → Die) : (s.setDie d f).ctxs = s.ctxs := rfl
@[simp] theorem State.setDie_launches (s : State) (d : Nat) (f : Die → Die) : (s.setDie d f).launches = s.launches := rfl
@[simp] theorem State.setDie_queues (s : State) (d : Nat) (f : Die → Die) : (s.setDie d f).queues = s.queues := rfl
@[simp] theorem State.setDie_vfs (s : State) (d : Nat) (f : Die → Die) : (s.setDie d f).vfs = s.vfs := rfl
@[simp] theorem State.setDie_handles (s : State) (d : Nat) (f : Die → Die) : (s.setDie d f).handles = s.handles := rfl
@[simp] theorem State.setDie_maps (s : State) (d : Nat) (f : Die → Die) : (s.setDie d f).maps = s.maps := rfl
@[simp] theorem State.setDie_rootPages (s : State) (d : Nat) (f : Die → Die) : (s.setDie d f).rootPages = s.rootPages := rfl
@[simp] theorem State.setDie_moving (s : State) (d : Nat) (f : Die → Die) : (s.setDie d f).moving = s.moving := rfl
@[simp] theorem State.setDie_saved (s : State) (d : Nat) (f : Die → Die) : (s.setDie d f).saved = s.saved := rfl
@[simp] theorem State.setDie_resolutions (s : State) (d : Nat) (f : Die → Die) : (s.setDie d f).resolutions = s.resolutions := rfl
@[simp] theorem State.setDie_pfs (s : State) (d : Nat) (f : Die → Die) : (s.setDie d f).pfs = s.pfs := rfl
@[simp] theorem State.setDie_host (s : State) (d : Nat) (f : Die → Die) : (s.setDie d f).host = s.host := rfl
@[simp] theorem State.setDie_bring (s : State) (d : Nat) (f : Die → Die) : (s.setDie d f).bring = s.bring := rfl
@[simp] theorem State.setDie_dump (s : State) (d : Nat) (f : Die → Die) : (s.setDie d f).dump = s.dump := rfl
@[simp] theorem State.setDie_fatal (s : State) (d : Nat) (f : Die → Die) : (s.setDie d f).fatal = s.fatal := rfl
@[simp] theorem State.setDie_regulator (s : State) (d : Nat) (f : Die → Die) : (s.setDie d f).regulator = s.regulator := rfl
@[simp] theorem State.setDie_syncEngine (s : State) (d : Nat) (f : Die → Die) : (s.setDie d f).syncEngine = s.syncEngine := rfl
@[simp] theorem State.setDie_weavers (s : State) (d : Nat) (f : Die → Die) : (s.setDie d f).weavers = s.weavers := rfl
@[simp] theorem State.setDie_roots (s : State) (d : Nat) (f : Die → Die) : (s.setDie d f).roots = s.roots := rfl
@[simp] theorem State.setDie_planesP (s : State) (d : Nat) (f : Die → Die) : (s.setDie d f).planesP = s.planesP := rfl
@[simp] theorem State.setDie_badPorts (s : State) (d : Nat) (f : Die → Die) : (s.setDie d f).badPorts = s.badPorts := rfl
@[simp] theorem State.setDie_rreds (s : State) (d : Nat) (f : Die → Die) : (s.setDie d f).rreds = s.rreds := rfl
@[simp] theorem State.setDie_rounds (s : State) (d : Nat) (f : Die → Die) : (s.setDie d f).rounds = s.rounds := rfl
@[simp] theorem State.setDie_posted (s : State) (d : Nat) (f : Die → Die) : (s.setDie d f).posted = s.posted := rfl
@[simp] theorem State.setDie_lostPkgs (s : State) (d : Nat) (f : Die → Die) : (s.setDie d f).lostPkgs = s.lostPkgs := rfl
@[simp] theorem State.setDie_net (s : State) (d : Nat) (f : Die → Die) : (s.setDie d f).net = s.net := rfl

/-! ### tell -/

@[simp] theorem State.tell_agenda (s : State) (ms : List HostMsg) : (s.tell ms).agenda = s.agenda := rfl
@[simp] theorem State.tell_sel (s : State) (ms : List HostMsg) : (s.tell ms).sel = s.sel := rfl
@[simp] theorem State.tell_tick (s : State) (ms : List HostMsg) : (s.tell ms).tick = s.tick := rfl
@[simp] theorem State.tell_nextId (s : State) (ms : List HostMsg) : (s.tell ms).nextId = s.nextId := rfl
@[simp] theorem State.tell_grp (s : State) (ms : List HostMsg) : (s.tell ms).grp = s.grp := rfl
@[simp] theorem State.tell_groups (s : State) (ms : List HostMsg) : (s.tell ms).groups = s.groups := rfl
@[simp] theorem State.tell_gangs (s : State) (ms : List HostMsg) : (s.tell ms).gangs = s.gangs := rfl
@[simp] theorem State.tell_time (s : State) (ms : List HostMsg) : (s.tell ms).time = s.time := rfl
@[simp] theorem State.tell_synced (s : State) (ms : List HostMsg) : (s.tell ms).synced = s.synced := rfl
@[simp] theorem State.tell_wq (s : State) (ms : List HostMsg) : (s.tell ms).wq = s.wq := rfl
@[simp] theorem State.tell_l1 (s : State) (ms : List HostMsg) : (s.tell ms).l1 = s.l1 := rfl
@[simp] theorem State.tell_l2 (s : State) (ms : List HostMsg) : (s.tell ms).l2 = s.l2 := rfl
@[simp] theorem State.tell_wbuf (s : State) (ms : List HostMsg) : (s.tell ms).wbuf = s.wbuf := rfl
@[simp] theorem State.tell_icache (s : State) (ms : List HostMsg) : (s.tell ms).icache = s.icache := rfl
@[simp] theorem State.tell_fetchq (s : State) (ms : List HostMsg) : (s.tell ms).fetchq = s.fetchq := rfl
@[simp] theorem State.tell_tlb (s : State) (ms : List HostMsg) : (s.tell ms).tlb = s.tlb := rfl
@[simp] theorem State.tell_misses (s : State) (ms : List HostMsg) : (s.tell ms).misses = s.misses := rfl
@[simp] theorem State.tell_rtlb (s : State) (ms : List HostMsg) : (s.tell ms).rtlb = s.rtlb := rfl
@[simp] theorem State.tell_recs (s : State) (ms : List HostMsg) : (s.tell ms).recs = s.recs := rfl
@[simp] theorem State.tell_planes (s : State) (ms : List HostMsg) : (s.tell ms).planes = s.planes := rfl
@[simp] theorem State.tell_rtab (s : State) (ms : List HostMsg) : (s.tell ms).rtab = s.rtab := rfl
@[simp] theorem State.tell_ops (s : State) (ms : List HostMsg) : (s.tell ms).ops = s.ops := rfl
@[simp] theorem State.tell_stopping (s : State) (ms : List HostMsg) : (s.tell ms).stopping = s.stopping := rfl
@[simp] theorem State.tell_shares (s : State) (ms : List HostMsg) : (s.tell ms).shares = s.shares := rfl
@[simp] theorem State.tell_abank (s : State) (ms : List HostMsg) : (s.tell ms).abank = s.abank := rfl
@[simp] theorem State.tell_admits (s : State) (ms : List HostMsg) : (s.tell ms).admits = s.admits := rfl
@[simp] theorem State.tell_dies (s : State) (ms : List HostMsg) : (s.tell ms).dies = s.dies := rfl
@[simp] theorem State.tell_gates (s : State) (ms : List HostMsg) : (s.tell ms).gates = s.gates := rfl
@[simp] theorem State.tell_gateCopy (s : State) (ms : List HostMsg) : (s.tell ms).gateCopy = s.gateCopy := rfl
@[simp] theorem State.tell_mem (s : State) (ms : List HostMsg) : (s.tell ms).mem = s.mem := rfl
@[simp] theorem State.tell_hmem (s : State) (ms : List HostMsg) : (s.tell ms).hmem = s.hmem := rfl
@[simp] theorem State.tell_poison (s : State) (ms : List HostMsg) : (s.tell ms).poison = s.poison := rfl
@[simp] theorem State.tell_kills (s : State) (ms : List HostMsg) : (s.tell ms).kills = s.kills := rfl
@[simp] theorem State.tell_regions (s : State) (ms : List HostMsg) : (s.tell ms).regions = s.regions := rfl
@[simp] theorem State.tell_control (s : State) (ms : List HostMsg) : (s.tell ms).control = s.control := rfl
@[simp] theorem State.tell_entries (s : State) (ms : List HostMsg) : (s.tell ms).entries = s.entries := rfl
@[simp] theorem State.tell_nmus (s : State) (ms : List HostMsg) : (s.tell ms).nmus = s.nmus := rfl
@[simp] theorem State.tell_credits (s : State) (ms : List HostMsg) : (s.tell ms).credits = s.credits := rfl
@[simp] theorem State.tell_reqs (s : State) (ms : List HostMsg) : (s.tell ms).reqs = s.reqs := rfl
@[simp] theorem State.tell_chq (s : State) (ms : List HostMsg) : (s.tell ms).chq = s.chq := rfl
@[simp] theorem State.tell_inject (s : State) (ms : List HostMsg) : (s.tell ms).inject = s.inject := rfl
@[simp] theorem State.tell_srefStacks (s : State) (ms : List HostMsg) : (s.tell ms).srefStacks = s.srefStacks := rfl
@[simp] theorem State.tell_stackUse (s : State) (ms : List HostMsg) : (s.tell ms).stackUse = s.stackUse := rfl
@[simp] theorem State.tell_called (s : State) (ms : List HostMsg) : (s.tell ms).called = s.called := rfl
@[simp] theorem State.tell_wake (s : State) (ms : List HostMsg) : (s.tell ms).wake = s.wake := rfl
@[simp] theorem State.tell_pkg (s : State) (ms : List HostMsg) : (s.tell ms).pkg = s.pkg := rfl
@[simp] theorem State.tell_ctxs (s : State) (ms : List HostMsg) : (s.tell ms).ctxs = s.ctxs := rfl
@[simp] theorem State.tell_launches (s : State) (ms : List HostMsg) : (s.tell ms).launches = s.launches := rfl
@[simp] theorem State.tell_queues (s : State) (ms : List HostMsg) : (s.tell ms).queues = s.queues := rfl
@[simp] theorem State.tell_vfs (s : State) (ms : List HostMsg) : (s.tell ms).vfs = s.vfs := rfl
@[simp] theorem State.tell_handles (s : State) (ms : List HostMsg) : (s.tell ms).handles = s.handles := rfl
@[simp] theorem State.tell_maps (s : State) (ms : List HostMsg) : (s.tell ms).maps = s.maps := rfl
@[simp] theorem State.tell_rootPages (s : State) (ms : List HostMsg) : (s.tell ms).rootPages = s.rootPages := rfl
@[simp] theorem State.tell_moving (s : State) (ms : List HostMsg) : (s.tell ms).moving = s.moving := rfl
@[simp] theorem State.tell_saved (s : State) (ms : List HostMsg) : (s.tell ms).saved = s.saved := rfl
@[simp] theorem State.tell_resolutions (s : State) (ms : List HostMsg) : (s.tell ms).resolutions = s.resolutions := rfl
@[simp] theorem State.tell_pfs (s : State) (ms : List HostMsg) : (s.tell ms).pfs = s.pfs := rfl
@[simp] theorem State.tell_bring (s : State) (ms : List HostMsg) : (s.tell ms).bring = s.bring := rfl
@[simp] theorem State.tell_dump (s : State) (ms : List HostMsg) : (s.tell ms).dump = s.dump := rfl
@[simp] theorem State.tell_fatal (s : State) (ms : List HostMsg) : (s.tell ms).fatal = s.fatal := rfl
@[simp] theorem State.tell_regulator (s : State) (ms : List HostMsg) : (s.tell ms).regulator = s.regulator := rfl
@[simp] theorem State.tell_syncEngine (s : State) (ms : List HostMsg) : (s.tell ms).syncEngine = s.syncEngine := rfl
@[simp] theorem State.tell_weavers (s : State) (ms : List HostMsg) : (s.tell ms).weavers = s.weavers := rfl
@[simp] theorem State.tell_roots (s : State) (ms : List HostMsg) : (s.tell ms).roots = s.roots := rfl
@[simp] theorem State.tell_planesP (s : State) (ms : List HostMsg) : (s.tell ms).planesP = s.planesP := rfl
@[simp] theorem State.tell_badPorts (s : State) (ms : List HostMsg) : (s.tell ms).badPorts = s.badPorts := rfl
@[simp] theorem State.tell_rreds (s : State) (ms : List HostMsg) : (s.tell ms).rreds = s.rreds := rfl
@[simp] theorem State.tell_rounds (s : State) (ms : List HostMsg) : (s.tell ms).rounds = s.rounds := rfl
@[simp] theorem State.tell_posted (s : State) (ms : List HostMsg) : (s.tell ms).posted = s.posted := rfl
@[simp] theorem State.tell_lostPkgs (s : State) (ms : List HostMsg) : (s.tell ms).lostPkgs = s.lostPkgs := rfl
@[simp] theorem State.tell_net (s : State) (ms : List HostMsg) : (s.tell ms).net = s.net := rfl

/-! ### The current group -/

@[simp] theorem State.setGrp_grp (s : State) (f : Group → Group) : (s.setGrp f).grp = f s.grp := rfl
@[simp] theorem State.setRs_grp_key (s : State) (r : SReg) (v : W64) : (s.setRs r v).grp.key = s.grp.key := rfl
@[simp] theorem State.setRs_grp_live (s : State) (r : SReg) (v : W64) : (s.setRs r v).grp.live = s.grp.live := rfl
@[simp] theorem State.setRs_grp_slotA (s : State) (r : SReg) (v : W64) : (s.setRs r v).grp.slotA = s.grp.slotA := rfl
@[simp] theorem State.setRs_grp_slotB (s : State) (r : SReg) (v : W64) : (s.setRs r v).grp.slotB = s.grp.slotB := rfl
@[simp] theorem State.setRs_grp_sjoin (s : State) (r : SReg) (v : W64) : (s.setRs r v).grp.sjoin = s.grp.sjoin := rfl
@[simp] theorem State.setRs_grp_p (s : State) (r : SReg) (v : W64) : (s.setRs r v).grp.p = s.grp.p := rfl
@[simp] theorem State.setRs_grp_f (s : State) (r : SReg) (v : W64) : (s.setRs r v).grp.f = s.grp.f := rfl
@[simp] theorem State.setRs_grp_vrf (s : State) (r : SReg) (v : W64) : (s.setRs r v).grp.vrf = s.grp.vrf := rfl
@[simp] theorem State.setRs_grp_sl (s : State) (r : SReg) (v : W64) : (s.setRs r v).grp.sl = s.grp.sl := rfl
@[simp] theorem State.setRs_grp_tfp (s : State) (r : SReg) (v : W64) : (s.setRs r v).grp.tfp = s.grp.tfp := rfl
@[simp] theorem State.setRs_grp_dtb (s : State) (r : SReg) (v : W64) : (s.setRs r v).grp.dtb = s.grp.dtb := rfl
@[simp] theorem State.setRs_grp_dtl (s : State) (r : SReg) (v : W64) : (s.setRs r v).grp.dtl = s.grp.dtl := rfl
@[simp] theorem State.setRs_grp_rngk (s : State) (r : SReg) (v : W64) : (s.setRs r v).grp.rngk = s.grp.rngk := rfl
@[simp] theorem State.setRs_grp_rngc (s : State) (r : SReg) (v : W64) : (s.setRs r v).grp.rngc = s.grp.rngc := rfl
@[simp] theorem State.setRs_grp_fmode (s : State) (r : SReg) (v : W64) : (s.setRs r v).grp.fmode = s.grp.fmode := rfl
@[simp] theorem State.setRs_grp_rsd (s : State) (r : SReg) (v : W64) : (s.setRs r v).grp.rsd = s.grp.rsd := rfl
@[simp] theorem State.setRs_grp_gid (s : State) (r : SReg) (v : W64) : (s.setRs r v).grp.gid = s.grp.gid := rfl
@[simp] theorem State.setRs_grp_role (s : State) (r : SReg) (v : W64) : (s.setRs r v).grp.role = s.grp.role := rfl
@[simp] theorem State.setRs_grp_gang (s : State) (r : SReg) (v : W64) : (s.setRs r v).grp.gang = s.grp.gang := rfl
@[simp] theorem State.setRs_grp_die (s : State) (r : SReg) (v : W64) : (s.setRs r v).grp.die = s.grp.die := rfl
@[simp] theorem State.setRs_grp_cluster (s : State) (r : SReg) (v : W64) : (s.setRs r v).grp.cluster = s.grp.cluster := rfl
@[simp] theorem State.setRs_grp_core (s : State) (r : SReg) (v : W64) : (s.setRs r v).grp.core = s.grp.core := rfl
@[simp] theorem State.setRs_grp_cslot (s : State) (r : SReg) (v : W64) : (s.setRs r v).grp.cslot = s.grp.cslot := rfl
@[simp] theorem State.setRs_grp_part (s : State) (r : SReg) (v : W64) : (s.setRs r v).grp.part = s.grp.part := rfl
@[simp] theorem State.setRs_grp_vf (s : State) (r : SReg) (v : W64) : (s.setRs r v).grp.vf = s.grp.vf := rfl
@[simp] theorem State.setRs_grp_bank (s : State) (r : SReg) (v : W64) : (s.setRs r v).grp.bank = s.grp.bank := rfl
@[simp] theorem State.setRs_grp_level (s : State) (r : SReg) (v : W64) : (s.setRs r v).grp.level = s.grp.level := rfl
@[simp] theorem State.setRs_grp_priv (s : State) (r : SReg) (v : W64) : (s.setRs r v).grp.priv = s.grp.priv := rfl
@[simp] theorem State.setRs_grp_psize (s : State) (r : SReg) (v : W64) : (s.setRs r v).grp.psize = s.grp.psize := rfl
@[simp] theorem State.setRs_grp_f0 (s : State) (r : SReg) (v : W64) : (s.setRs r v).grp.f0 = s.grp.f0 := rfl
@[simp] theorem State.setRs_grp_wcap (s : State) (r : SReg) (v : W64) : (s.setRs r v).grp.wcap = s.grp.wcap := rfl
@[simp] theorem State.setRs_grp_outst (s : State) (r : SReg) (v : W64) : (s.setRs r v).grp.outst = s.grp.outst := rfl
@[simp] theorem State.setRs_grp_raised (s : State) (r : SReg) (v : W64) : (s.setRs r v).grp.raised = s.grp.raised := rfl
@[simp] theorem State.setRs_grp_trap (s : State) (r : SReg) (v : W64) : (s.setRs r v).grp.trap = s.grp.trap := rfl
@[simp] theorem State.setRp_grp_key (s : State) (p : PReg) (v : LaneMask) : (s.setRp p v).grp.key = s.grp.key := rfl
@[simp] theorem State.setRp_grp_live (s : State) (p : PReg) (v : LaneMask) : (s.setRp p v).grp.live = s.grp.live := rfl
@[simp] theorem State.setRp_grp_slotA (s : State) (p : PReg) (v : LaneMask) : (s.setRp p v).grp.slotA = s.grp.slotA := rfl
@[simp] theorem State.setRp_grp_slotB (s : State) (p : PReg) (v : LaneMask) : (s.setRp p v).grp.slotB = s.grp.slotB := rfl
@[simp] theorem State.setRp_grp_sjoin (s : State) (p : PReg) (v : LaneMask) : (s.setRp p v).grp.sjoin = s.grp.sjoin := rfl
@[simp] theorem State.setRp_grp_s (s : State) (p : PReg) (v : LaneMask) : (s.setRp p v).grp.s = s.grp.s := rfl
@[simp] theorem State.setRp_grp_f (s : State) (p : PReg) (v : LaneMask) : (s.setRp p v).grp.f = s.grp.f := rfl
@[simp] theorem State.setRp_grp_vrf (s : State) (p : PReg) (v : LaneMask) : (s.setRp p v).grp.vrf = s.grp.vrf := rfl
@[simp] theorem State.setRp_grp_sl (s : State) (p : PReg) (v : LaneMask) : (s.setRp p v).grp.sl = s.grp.sl := rfl
@[simp] theorem State.setRp_grp_tfp (s : State) (p : PReg) (v : LaneMask) : (s.setRp p v).grp.tfp = s.grp.tfp := rfl
@[simp] theorem State.setRp_grp_dtb (s : State) (p : PReg) (v : LaneMask) : (s.setRp p v).grp.dtb = s.grp.dtb := rfl
@[simp] theorem State.setRp_grp_dtl (s : State) (p : PReg) (v : LaneMask) : (s.setRp p v).grp.dtl = s.grp.dtl := rfl
@[simp] theorem State.setRp_grp_rngk (s : State) (p : PReg) (v : LaneMask) : (s.setRp p v).grp.rngk = s.grp.rngk := rfl
@[simp] theorem State.setRp_grp_rngc (s : State) (p : PReg) (v : LaneMask) : (s.setRp p v).grp.rngc = s.grp.rngc := rfl
@[simp] theorem State.setRp_grp_fmode (s : State) (p : PReg) (v : LaneMask) : (s.setRp p v).grp.fmode = s.grp.fmode := rfl
@[simp] theorem State.setRp_grp_rsd (s : State) (p : PReg) (v : LaneMask) : (s.setRp p v).grp.rsd = s.grp.rsd := rfl
@[simp] theorem State.setRp_grp_gid (s : State) (p : PReg) (v : LaneMask) : (s.setRp p v).grp.gid = s.grp.gid := rfl
@[simp] theorem State.setRp_grp_role (s : State) (p : PReg) (v : LaneMask) : (s.setRp p v).grp.role = s.grp.role := rfl
@[simp] theorem State.setRp_grp_gang (s : State) (p : PReg) (v : LaneMask) : (s.setRp p v).grp.gang = s.grp.gang := rfl
@[simp] theorem State.setRp_grp_die (s : State) (p : PReg) (v : LaneMask) : (s.setRp p v).grp.die = s.grp.die := rfl
@[simp] theorem State.setRp_grp_cluster (s : State) (p : PReg) (v : LaneMask) : (s.setRp p v).grp.cluster = s.grp.cluster := rfl
@[simp] theorem State.setRp_grp_core (s : State) (p : PReg) (v : LaneMask) : (s.setRp p v).grp.core = s.grp.core := rfl
@[simp] theorem State.setRp_grp_cslot (s : State) (p : PReg) (v : LaneMask) : (s.setRp p v).grp.cslot = s.grp.cslot := rfl
@[simp] theorem State.setRp_grp_part (s : State) (p : PReg) (v : LaneMask) : (s.setRp p v).grp.part = s.grp.part := rfl
@[simp] theorem State.setRp_grp_vf (s : State) (p : PReg) (v : LaneMask) : (s.setRp p v).grp.vf = s.grp.vf := rfl
@[simp] theorem State.setRp_grp_bank (s : State) (p : PReg) (v : LaneMask) : (s.setRp p v).grp.bank = s.grp.bank := rfl
@[simp] theorem State.setRp_grp_level (s : State) (p : PReg) (v : LaneMask) : (s.setRp p v).grp.level = s.grp.level := rfl
@[simp] theorem State.setRp_grp_priv (s : State) (p : PReg) (v : LaneMask) : (s.setRp p v).grp.priv = s.grp.priv := rfl
@[simp] theorem State.setRp_grp_psize (s : State) (p : PReg) (v : LaneMask) : (s.setRp p v).grp.psize = s.grp.psize := rfl
@[simp] theorem State.setRp_grp_f0 (s : State) (p : PReg) (v : LaneMask) : (s.setRp p v).grp.f0 = s.grp.f0 := rfl
@[simp] theorem State.setRp_grp_wcap (s : State) (p : PReg) (v : LaneMask) : (s.setRp p v).grp.wcap = s.grp.wcap := rfl
@[simp] theorem State.setRp_grp_outst (s : State) (p : PReg) (v : LaneMask) : (s.setRp p v).grp.outst = s.grp.outst := rfl
@[simp] theorem State.setRp_grp_olds (s : State) (p : PReg) (v : LaneMask) : (s.setRp p v).grp.olds = s.grp.olds := rfl
@[simp] theorem State.setRp_grp_raised (s : State) (p : PReg) (v : LaneMask) : (s.setRp p v).grp.raised = s.grp.raised := rfl
@[simp] theorem State.setRp_grp_trap (s : State) (p : PReg) (v : LaneMask) : (s.setRp p v).grp.trap = s.grp.trap := rfl
@[simp] theorem State.setFut_grp_key (s : State) (k : FReg) (v : Future) : (s.setFut k v).grp.key = s.grp.key := rfl
@[simp] theorem State.setFut_grp_live (s : State) (k : FReg) (v : Future) : (s.setFut k v).grp.live = s.grp.live := rfl
@[simp] theorem State.setFut_grp_slotA (s : State) (k : FReg) (v : Future) : (s.setFut k v).grp.slotA = s.grp.slotA := rfl
@[simp] theorem State.setFut_grp_slotB (s : State) (k : FReg) (v : Future) : (s.setFut k v).grp.slotB = s.grp.slotB := rfl
@[simp] theorem State.setFut_grp_sjoin (s : State) (k : FReg) (v : Future) : (s.setFut k v).grp.sjoin = s.grp.sjoin := rfl
@[simp] theorem State.setFut_grp_s (s : State) (k : FReg) (v : Future) : (s.setFut k v).grp.s = s.grp.s := rfl
@[simp] theorem State.setFut_grp_p (s : State) (k : FReg) (v : Future) : (s.setFut k v).grp.p = s.grp.p := rfl
@[simp] theorem State.setFut_grp_vrf (s : State) (k : FReg) (v : Future) : (s.setFut k v).grp.vrf = s.grp.vrf := rfl
@[simp] theorem State.setFut_grp_sl (s : State) (k : FReg) (v : Future) : (s.setFut k v).grp.sl = s.grp.sl := rfl
@[simp] theorem State.setFut_grp_tfp (s : State) (k : FReg) (v : Future) : (s.setFut k v).grp.tfp = s.grp.tfp := rfl
@[simp] theorem State.setFut_grp_dtb (s : State) (k : FReg) (v : Future) : (s.setFut k v).grp.dtb = s.grp.dtb := rfl
@[simp] theorem State.setFut_grp_dtl (s : State) (k : FReg) (v : Future) : (s.setFut k v).grp.dtl = s.grp.dtl := rfl
@[simp] theorem State.setFut_grp_rngk (s : State) (k : FReg) (v : Future) : (s.setFut k v).grp.rngk = s.grp.rngk := rfl
@[simp] theorem State.setFut_grp_rngc (s : State) (k : FReg) (v : Future) : (s.setFut k v).grp.rngc = s.grp.rngc := rfl
@[simp] theorem State.setFut_grp_fmode (s : State) (k : FReg) (v : Future) : (s.setFut k v).grp.fmode = s.grp.fmode := rfl
@[simp] theorem State.setFut_grp_rsd (s : State) (k : FReg) (v : Future) : (s.setFut k v).grp.rsd = s.grp.rsd := rfl
@[simp] theorem State.setFut_grp_gid (s : State) (k : FReg) (v : Future) : (s.setFut k v).grp.gid = s.grp.gid := rfl
@[simp] theorem State.setFut_grp_role (s : State) (k : FReg) (v : Future) : (s.setFut k v).grp.role = s.grp.role := rfl
@[simp] theorem State.setFut_grp_gang (s : State) (k : FReg) (v : Future) : (s.setFut k v).grp.gang = s.grp.gang := rfl
@[simp] theorem State.setFut_grp_die (s : State) (k : FReg) (v : Future) : (s.setFut k v).grp.die = s.grp.die := rfl
@[simp] theorem State.setFut_grp_cluster (s : State) (k : FReg) (v : Future) : (s.setFut k v).grp.cluster = s.grp.cluster := rfl
@[simp] theorem State.setFut_grp_core (s : State) (k : FReg) (v : Future) : (s.setFut k v).grp.core = s.grp.core := rfl
@[simp] theorem State.setFut_grp_cslot (s : State) (k : FReg) (v : Future) : (s.setFut k v).grp.cslot = s.grp.cslot := rfl
@[simp] theorem State.setFut_grp_part (s : State) (k : FReg) (v : Future) : (s.setFut k v).grp.part = s.grp.part := rfl
@[simp] theorem State.setFut_grp_vf (s : State) (k : FReg) (v : Future) : (s.setFut k v).grp.vf = s.grp.vf := rfl
@[simp] theorem State.setFut_grp_bank (s : State) (k : FReg) (v : Future) : (s.setFut k v).grp.bank = s.grp.bank := rfl
@[simp] theorem State.setFut_grp_level (s : State) (k : FReg) (v : Future) : (s.setFut k v).grp.level = s.grp.level := rfl
@[simp] theorem State.setFut_grp_priv (s : State) (k : FReg) (v : Future) : (s.setFut k v).grp.priv = s.grp.priv := rfl
@[simp] theorem State.setFut_grp_psize (s : State) (k : FReg) (v : Future) : (s.setFut k v).grp.psize = s.grp.psize := rfl
@[simp] theorem State.setFut_grp_f0 (s : State) (k : FReg) (v : Future) : (s.setFut k v).grp.f0 = s.grp.f0 := rfl
@[simp] theorem State.setFut_grp_wcap (s : State) (k : FReg) (v : Future) : (s.setFut k v).grp.wcap = s.grp.wcap := rfl
@[simp] theorem State.setFut_grp_outst (s : State) (k : FReg) (v : Future) : (s.setFut k v).grp.outst = s.grp.outst := rfl
@[simp] theorem State.setFut_grp_olds (s : State) (k : FReg) (v : Future) : (s.setFut k v).grp.olds = s.grp.olds := rfl
@[simp] theorem State.setFut_grp_raised (s : State) (k : FReg) (v : Future) : (s.setFut k v).grp.raised = s.grp.raised := rfl
@[simp] theorem State.setFut_grp_trap (s : State) (k : FReg) (v : Future) : (s.setFut k v).grp.trap = s.grp.trap := rfl
@[simp] theorem State.orFlags_grp_key (s : State) (v : Flags) : (s.orFlags v).grp.key = s.grp.key := rfl
@[simp] theorem State.orFlags_grp_live (s : State) (v : Flags) : (s.orFlags v).grp.live = s.grp.live := rfl
@[simp] theorem State.orFlags_grp_slotA (s : State) (v : Flags) : (s.orFlags v).grp.slotA = s.grp.slotA := rfl
@[simp] theorem State.orFlags_grp_slotB (s : State) (v : Flags) : (s.orFlags v).grp.slotB = s.grp.slotB := rfl
@[simp] theorem State.orFlags_grp_sjoin (s : State) (v : Flags) : (s.orFlags v).grp.sjoin = s.grp.sjoin := rfl
@[simp] theorem State.orFlags_grp_s (s : State) (v : Flags) : (s.orFlags v).grp.s = s.grp.s := rfl
@[simp] theorem State.orFlags_grp_p (s : State) (v : Flags) : (s.orFlags v).grp.p = s.grp.p := rfl
@[simp] theorem State.orFlags_grp_f (s : State) (v : Flags) : (s.orFlags v).grp.f = s.grp.f := rfl
@[simp] theorem State.orFlags_grp_vrf (s : State) (v : Flags) : (s.orFlags v).grp.vrf = s.grp.vrf := rfl
@[simp] theorem State.orFlags_grp_sl (s : State) (v : Flags) : (s.orFlags v).grp.sl = s.grp.sl := rfl
@[simp] theorem State.orFlags_grp_tfp (s : State) (v : Flags) : (s.orFlags v).grp.tfp = s.grp.tfp := rfl
@[simp] theorem State.orFlags_grp_dtb (s : State) (v : Flags) : (s.orFlags v).grp.dtb = s.grp.dtb := rfl
@[simp] theorem State.orFlags_grp_dtl (s : State) (v : Flags) : (s.orFlags v).grp.dtl = s.grp.dtl := rfl
@[simp] theorem State.orFlags_grp_rngk (s : State) (v : Flags) : (s.orFlags v).grp.rngk = s.grp.rngk := rfl
@[simp] theorem State.orFlags_grp_rngc (s : State) (v : Flags) : (s.orFlags v).grp.rngc = s.grp.rngc := rfl
@[simp] theorem State.orFlags_grp_rsd (s : State) (v : Flags) : (s.orFlags v).grp.rsd = s.grp.rsd := rfl
@[simp] theorem State.orFlags_grp_gid (s : State) (v : Flags) : (s.orFlags v).grp.gid = s.grp.gid := rfl
@[simp] theorem State.orFlags_grp_role (s : State) (v : Flags) : (s.orFlags v).grp.role = s.grp.role := rfl
@[simp] theorem State.orFlags_grp_gang (s : State) (v : Flags) : (s.orFlags v).grp.gang = s.grp.gang := rfl
@[simp] theorem State.orFlags_grp_die (s : State) (v : Flags) : (s.orFlags v).grp.die = s.grp.die := rfl
@[simp] theorem State.orFlags_grp_cluster (s : State) (v : Flags) : (s.orFlags v).grp.cluster = s.grp.cluster := rfl
@[simp] theorem State.orFlags_grp_core (s : State) (v : Flags) : (s.orFlags v).grp.core = s.grp.core := rfl
@[simp] theorem State.orFlags_grp_cslot (s : State) (v : Flags) : (s.orFlags v).grp.cslot = s.grp.cslot := rfl
@[simp] theorem State.orFlags_grp_part (s : State) (v : Flags) : (s.orFlags v).grp.part = s.grp.part := rfl
@[simp] theorem State.orFlags_grp_vf (s : State) (v : Flags) : (s.orFlags v).grp.vf = s.grp.vf := rfl
@[simp] theorem State.orFlags_grp_bank (s : State) (v : Flags) : (s.orFlags v).grp.bank = s.grp.bank := rfl
@[simp] theorem State.orFlags_grp_level (s : State) (v : Flags) : (s.orFlags v).grp.level = s.grp.level := rfl
@[simp] theorem State.orFlags_grp_priv (s : State) (v : Flags) : (s.orFlags v).grp.priv = s.grp.priv := rfl
@[simp] theorem State.orFlags_grp_psize (s : State) (v : Flags) : (s.orFlags v).grp.psize = s.grp.psize := rfl
@[simp] theorem State.orFlags_grp_f0 (s : State) (v : Flags) : (s.orFlags v).grp.f0 = s.grp.f0 := rfl
@[simp] theorem State.orFlags_grp_wcap (s : State) (v : Flags) : (s.orFlags v).grp.wcap = s.grp.wcap := rfl
@[simp] theorem State.orFlags_grp_outst (s : State) (v : Flags) : (s.orFlags v).grp.outst = s.grp.outst := rfl
@[simp] theorem State.orFlags_grp_olds (s : State) (v : Flags) : (s.orFlags v).grp.olds = s.grp.olds := rfl
@[simp] theorem State.orFlags_grp_raised (s : State) (v : Flags) : (s.orFlags v).grp.raised = s.grp.raised := rfl
@[simp] theorem State.orFlags_grp_trap (s : State) (v : Flags) : (s.orFlags v).grp.trap = s.grp.trap := rfl
@[simp] theorem State.drawn_grp_key (s : State) (c : Nat) : (s.drawn c).grp.key = s.grp.key := rfl
@[simp] theorem State.drawn_grp_live (s : State) (c : Nat) : (s.drawn c).grp.live = s.grp.live := rfl
@[simp] theorem State.drawn_grp_slotA (s : State) (c : Nat) : (s.drawn c).grp.slotA = s.grp.slotA := rfl
@[simp] theorem State.drawn_grp_slotB (s : State) (c : Nat) : (s.drawn c).grp.slotB = s.grp.slotB := rfl
@[simp] theorem State.drawn_grp_sjoin (s : State) (c : Nat) : (s.drawn c).grp.sjoin = s.grp.sjoin := rfl
@[simp] theorem State.drawn_grp_s (s : State) (c : Nat) : (s.drawn c).grp.s = s.grp.s := rfl
@[simp] theorem State.drawn_grp_p (s : State) (c : Nat) : (s.drawn c).grp.p = s.grp.p := rfl
@[simp] theorem State.drawn_grp_f (s : State) (c : Nat) : (s.drawn c).grp.f = s.grp.f := rfl
@[simp] theorem State.drawn_grp_vrf (s : State) (c : Nat) : (s.drawn c).grp.vrf = s.grp.vrf := rfl
@[simp] theorem State.drawn_grp_sl (s : State) (c : Nat) : (s.drawn c).grp.sl = s.grp.sl := rfl
@[simp] theorem State.drawn_grp_tfp (s : State) (c : Nat) : (s.drawn c).grp.tfp = s.grp.tfp := rfl
@[simp] theorem State.drawn_grp_dtb (s : State) (c : Nat) : (s.drawn c).grp.dtb = s.grp.dtb := rfl
@[simp] theorem State.drawn_grp_dtl (s : State) (c : Nat) : (s.drawn c).grp.dtl = s.grp.dtl := rfl
@[simp] theorem State.drawn_grp_rngk (s : State) (c : Nat) : (s.drawn c).grp.rngk = s.grp.rngk := rfl
@[simp] theorem State.drawn_grp_fmode (s : State) (c : Nat) : (s.drawn c).grp.fmode = s.grp.fmode := rfl
@[simp] theorem State.drawn_grp_rsd (s : State) (c : Nat) : (s.drawn c).grp.rsd = s.grp.rsd := rfl
@[simp] theorem State.drawn_grp_gid (s : State) (c : Nat) : (s.drawn c).grp.gid = s.grp.gid := rfl
@[simp] theorem State.drawn_grp_role (s : State) (c : Nat) : (s.drawn c).grp.role = s.grp.role := rfl
@[simp] theorem State.drawn_grp_gang (s : State) (c : Nat) : (s.drawn c).grp.gang = s.grp.gang := rfl
@[simp] theorem State.drawn_grp_die (s : State) (c : Nat) : (s.drawn c).grp.die = s.grp.die := rfl
@[simp] theorem State.drawn_grp_cluster (s : State) (c : Nat) : (s.drawn c).grp.cluster = s.grp.cluster := rfl
@[simp] theorem State.drawn_grp_core (s : State) (c : Nat) : (s.drawn c).grp.core = s.grp.core := rfl
@[simp] theorem State.drawn_grp_cslot (s : State) (c : Nat) : (s.drawn c).grp.cslot = s.grp.cslot := rfl
@[simp] theorem State.drawn_grp_part (s : State) (c : Nat) : (s.drawn c).grp.part = s.grp.part := rfl
@[simp] theorem State.drawn_grp_vf (s : State) (c : Nat) : (s.drawn c).grp.vf = s.grp.vf := rfl
@[simp] theorem State.drawn_grp_bank (s : State) (c : Nat) : (s.drawn c).grp.bank = s.grp.bank := rfl
@[simp] theorem State.drawn_grp_level (s : State) (c : Nat) : (s.drawn c).grp.level = s.grp.level := rfl
@[simp] theorem State.drawn_grp_priv (s : State) (c : Nat) : (s.drawn c).grp.priv = s.grp.priv := rfl
@[simp] theorem State.drawn_grp_psize (s : State) (c : Nat) : (s.drawn c).grp.psize = s.grp.psize := rfl
@[simp] theorem State.drawn_grp_f0 (s : State) (c : Nat) : (s.drawn c).grp.f0 = s.grp.f0 := rfl
@[simp] theorem State.drawn_grp_wcap (s : State) (c : Nat) : (s.drawn c).grp.wcap = s.grp.wcap := rfl
@[simp] theorem State.drawn_grp_outst (s : State) (c : Nat) : (s.drawn c).grp.outst = s.grp.outst := rfl
@[simp] theorem State.drawn_grp_olds (s : State) (c : Nat) : (s.drawn c).grp.olds = s.grp.olds := rfl
@[simp] theorem State.drawn_grp_raised (s : State) (c : Nat) : (s.drawn c).grp.raised = s.grp.raised := rfl
@[simp] theorem State.drawn_grp_trap (s : State) (c : Nat) : (s.drawn c).grp.trap = s.grp.trap := rfl

@[simp] theorem Group.setSlot_key (g : Group) (i : SlotId) (f : Slot → Slot) : (g.setSlot i f).key = g.key := by cases i <;> rfl
@[simp] theorem Group.setSlot_live (g : Group) (i : SlotId) (f : Slot → Slot) : (g.setSlot i f).live = g.live := by cases i <;> rfl
@[simp] theorem Group.setSlot_sjoin (g : Group) (i : SlotId) (f : Slot → Slot) : (g.setSlot i f).sjoin = g.sjoin := by cases i <;> rfl
@[simp] theorem Group.setSlot_s (g : Group) (i : SlotId) (f : Slot → Slot) : (g.setSlot i f).s = g.s := by cases i <;> rfl
@[simp] theorem Group.setSlot_p (g : Group) (i : SlotId) (f : Slot → Slot) : (g.setSlot i f).p = g.p := by cases i <;> rfl
@[simp] theorem Group.setSlot_f (g : Group) (i : SlotId) (f : Slot → Slot) : (g.setSlot i f).f = g.f := by cases i <;> rfl
@[simp] theorem Group.setSlot_vrf (g : Group) (i : SlotId) (f : Slot → Slot) : (g.setSlot i f).vrf = g.vrf := by cases i <;> rfl
@[simp] theorem Group.setSlot_sl (g : Group) (i : SlotId) (f : Slot → Slot) : (g.setSlot i f).sl = g.sl := by cases i <;> rfl
@[simp] theorem Group.setSlot_tfp (g : Group) (i : SlotId) (f : Slot → Slot) : (g.setSlot i f).tfp = g.tfp := by cases i <;> rfl
@[simp] theorem Group.setSlot_dtb (g : Group) (i : SlotId) (f : Slot → Slot) : (g.setSlot i f).dtb = g.dtb := by cases i <;> rfl
@[simp] theorem Group.setSlot_dtl (g : Group) (i : SlotId) (f : Slot → Slot) : (g.setSlot i f).dtl = g.dtl := by cases i <;> rfl
@[simp] theorem Group.setSlot_rngk (g : Group) (i : SlotId) (f : Slot → Slot) : (g.setSlot i f).rngk = g.rngk := by cases i <;> rfl
@[simp] theorem Group.setSlot_rngc (g : Group) (i : SlotId) (f : Slot → Slot) : (g.setSlot i f).rngc = g.rngc := by cases i <;> rfl
@[simp] theorem Group.setSlot_fmode (g : Group) (i : SlotId) (f : Slot → Slot) : (g.setSlot i f).fmode = g.fmode := by cases i <;> rfl
@[simp] theorem Group.setSlot_rsd (g : Group) (i : SlotId) (f : Slot → Slot) : (g.setSlot i f).rsd = g.rsd := by cases i <;> rfl
@[simp] theorem Group.setSlot_gid (g : Group) (i : SlotId) (f : Slot → Slot) : (g.setSlot i f).gid = g.gid := by cases i <;> rfl
@[simp] theorem Group.setSlot_role (g : Group) (i : SlotId) (f : Slot → Slot) : (g.setSlot i f).role = g.role := by cases i <;> rfl
@[simp] theorem Group.setSlot_gang (g : Group) (i : SlotId) (f : Slot → Slot) : (g.setSlot i f).gang = g.gang := by cases i <;> rfl
@[simp] theorem Group.setSlot_die (g : Group) (i : SlotId) (f : Slot → Slot) : (g.setSlot i f).die = g.die := by cases i <;> rfl
@[simp] theorem Group.setSlot_cluster (g : Group) (i : SlotId) (f : Slot → Slot) : (g.setSlot i f).cluster = g.cluster := by cases i <;> rfl
@[simp] theorem Group.setSlot_core (g : Group) (i : SlotId) (f : Slot → Slot) : (g.setSlot i f).core = g.core := by cases i <;> rfl
@[simp] theorem Group.setSlot_cslot (g : Group) (i : SlotId) (f : Slot → Slot) : (g.setSlot i f).cslot = g.cslot := by cases i <;> rfl
@[simp] theorem Group.setSlot_part (g : Group) (i : SlotId) (f : Slot → Slot) : (g.setSlot i f).part = g.part := by cases i <;> rfl
@[simp] theorem Group.setSlot_vf (g : Group) (i : SlotId) (f : Slot → Slot) : (g.setSlot i f).vf = g.vf := by cases i <;> rfl
@[simp] theorem Group.setSlot_bank (g : Group) (i : SlotId) (f : Slot → Slot) : (g.setSlot i f).bank = g.bank := by cases i <;> rfl
@[simp] theorem Group.setSlot_level (g : Group) (i : SlotId) (f : Slot → Slot) : (g.setSlot i f).level = g.level := by cases i <;> rfl
@[simp] theorem Group.setSlot_priv (g : Group) (i : SlotId) (f : Slot → Slot) : (g.setSlot i f).priv = g.priv := by cases i <;> rfl
@[simp] theorem Group.setSlot_psize (g : Group) (i : SlotId) (f : Slot → Slot) : (g.setSlot i f).psize = g.psize := by cases i <;> rfl
@[simp] theorem Group.setSlot_f0 (g : Group) (i : SlotId) (f : Slot → Slot) : (g.setSlot i f).f0 = g.f0 := by cases i <;> rfl
@[simp] theorem Group.setSlot_wcap (g : Group) (i : SlotId) (f : Slot → Slot) : (g.setSlot i f).wcap = g.wcap := by cases i <;> rfl
@[simp] theorem Group.setSlot_outst (g : Group) (i : SlotId) (f : Slot → Slot) : (g.setSlot i f).outst = g.outst := by cases i <;> rfl
@[simp] theorem Group.setSlot_olds (g : Group) (i : SlotId) (f : Slot → Slot) : (g.setSlot i f).olds = g.olds := by cases i <;> rfl
@[simp] theorem Group.setSlot_raised (g : Group) (i : SlotId) (f : Slot → Slot) : (g.setSlot i f).raised = g.raised := by cases i <;> rfl
@[simp] theorem Group.setSlot_trap (g : Group) (i : SlotId) (f : Slot → Slot) : (g.setSlot i f).trap = g.trap := by cases i <;> rfl

@[simp] theorem State.setSlot_grp_key (s : State) (f : Slot → Slot) : (s.setSlot f).grp.key = s.grp.key := Group.setSlot_key _ _ f
@[simp] theorem State.setSlot_grp_live (s : State) (f : Slot → Slot) : (s.setSlot f).grp.live = s.grp.live := Group.setSlot_live _ _ f
@[simp] theorem State.setSlot_grp_sjoin (s : State) (f : Slot → Slot) : (s.setSlot f).grp.sjoin = s.grp.sjoin := Group.setSlot_sjoin _ _ f
@[simp] theorem State.setSlot_grp_s (s : State) (f : Slot → Slot) : (s.setSlot f).grp.s = s.grp.s := Group.setSlot_s _ _ f
@[simp] theorem State.setSlot_grp_p (s : State) (f : Slot → Slot) : (s.setSlot f).grp.p = s.grp.p := Group.setSlot_p _ _ f
@[simp] theorem State.setSlot_grp_f (s : State) (f : Slot → Slot) : (s.setSlot f).grp.f = s.grp.f := Group.setSlot_f _ _ f
@[simp] theorem State.setSlot_grp_vrf (s : State) (f : Slot → Slot) : (s.setSlot f).grp.vrf = s.grp.vrf := Group.setSlot_vrf _ _ f
@[simp] theorem State.setSlot_grp_sl (s : State) (f : Slot → Slot) : (s.setSlot f).grp.sl = s.grp.sl := Group.setSlot_sl _ _ f
@[simp] theorem State.setSlot_grp_tfp (s : State) (f : Slot → Slot) : (s.setSlot f).grp.tfp = s.grp.tfp := Group.setSlot_tfp _ _ f
@[simp] theorem State.setSlot_grp_dtb (s : State) (f : Slot → Slot) : (s.setSlot f).grp.dtb = s.grp.dtb := Group.setSlot_dtb _ _ f
@[simp] theorem State.setSlot_grp_dtl (s : State) (f : Slot → Slot) : (s.setSlot f).grp.dtl = s.grp.dtl := Group.setSlot_dtl _ _ f
@[simp] theorem State.setSlot_grp_rngk (s : State) (f : Slot → Slot) : (s.setSlot f).grp.rngk = s.grp.rngk := Group.setSlot_rngk _ _ f
@[simp] theorem State.setSlot_grp_rngc (s : State) (f : Slot → Slot) : (s.setSlot f).grp.rngc = s.grp.rngc := Group.setSlot_rngc _ _ f
@[simp] theorem State.setSlot_grp_fmode (s : State) (f : Slot → Slot) : (s.setSlot f).grp.fmode = s.grp.fmode := Group.setSlot_fmode _ _ f
@[simp] theorem State.setSlot_grp_rsd (s : State) (f : Slot → Slot) : (s.setSlot f).grp.rsd = s.grp.rsd := Group.setSlot_rsd _ _ f
@[simp] theorem State.setSlot_grp_gid (s : State) (f : Slot → Slot) : (s.setSlot f).grp.gid = s.grp.gid := Group.setSlot_gid _ _ f
@[simp] theorem State.setSlot_grp_role (s : State) (f : Slot → Slot) : (s.setSlot f).grp.role = s.grp.role := Group.setSlot_role _ _ f
@[simp] theorem State.setSlot_grp_gang (s : State) (f : Slot → Slot) : (s.setSlot f).grp.gang = s.grp.gang := Group.setSlot_gang _ _ f
@[simp] theorem State.setSlot_grp_die (s : State) (f : Slot → Slot) : (s.setSlot f).grp.die = s.grp.die := Group.setSlot_die _ _ f
@[simp] theorem State.setSlot_grp_cluster (s : State) (f : Slot → Slot) : (s.setSlot f).grp.cluster = s.grp.cluster := Group.setSlot_cluster _ _ f
@[simp] theorem State.setSlot_grp_core (s : State) (f : Slot → Slot) : (s.setSlot f).grp.core = s.grp.core := Group.setSlot_core _ _ f
@[simp] theorem State.setSlot_grp_cslot (s : State) (f : Slot → Slot) : (s.setSlot f).grp.cslot = s.grp.cslot := Group.setSlot_cslot _ _ f
@[simp] theorem State.setSlot_grp_part (s : State) (f : Slot → Slot) : (s.setSlot f).grp.part = s.grp.part := Group.setSlot_part _ _ f
@[simp] theorem State.setSlot_grp_vf (s : State) (f : Slot → Slot) : (s.setSlot f).grp.vf = s.grp.vf := Group.setSlot_vf _ _ f
@[simp] theorem State.setSlot_grp_bank (s : State) (f : Slot → Slot) : (s.setSlot f).grp.bank = s.grp.bank := Group.setSlot_bank _ _ f
@[simp] theorem State.setSlot_grp_level (s : State) (f : Slot → Slot) : (s.setSlot f).grp.level = s.grp.level := Group.setSlot_level _ _ f
@[simp] theorem State.setSlot_grp_priv (s : State) (f : Slot → Slot) : (s.setSlot f).grp.priv = s.grp.priv := Group.setSlot_priv _ _ f
@[simp] theorem State.setSlot_grp_psize (s : State) (f : Slot → Slot) : (s.setSlot f).grp.psize = s.grp.psize := Group.setSlot_psize _ _ f
@[simp] theorem State.setSlot_grp_f0 (s : State) (f : Slot → Slot) : (s.setSlot f).grp.f0 = s.grp.f0 := Group.setSlot_f0 _ _ f
@[simp] theorem State.setSlot_grp_wcap (s : State) (f : Slot → Slot) : (s.setSlot f).grp.wcap = s.grp.wcap := Group.setSlot_wcap _ _ f
@[simp] theorem State.setSlot_grp_outst (s : State) (f : Slot → Slot) : (s.setSlot f).grp.outst = s.grp.outst := Group.setSlot_outst _ _ f
@[simp] theorem State.setSlot_grp_olds (s : State) (f : Slot → Slot) : (s.setSlot f).grp.olds = s.grp.olds := Group.setSlot_olds _ _ f
@[simp] theorem State.setSlot_grp_raised (s : State) (f : Slot → Slot) : (s.setSlot f).grp.raised = s.grp.raised := Group.setSlot_raised _ _ f
@[simp] theorem State.setSlot_grp_trap (s : State) (f : Slot → Slot) : (s.setSlot f).grp.trap = s.grp.trap := Group.setSlot_trap _ _ f

@[simp] theorem State.jump_grp_key (s : State) (a : W64) : (s.jump a).grp.key = s.grp.key := Group.setSlot_key _ _ _
@[simp] theorem State.jump_grp_live (s : State) (a : W64) : (s.jump a).grp.live = s.grp.live := Group.setSlot_live _ _ _
@[simp] theorem State.jump_grp_sjoin (s : State) (a : W64) : (s.jump a).grp.sjoin = s.grp.sjoin := Group.setSlot_sjoin _ _ _
@[simp] theorem State.jump_grp_s (s : State) (a : W64) : (s.jump a).grp.s = s.grp.s := Group.setSlot_s _ _ _
@[simp] theorem State.jump_grp_p (s : State) (a : W64) : (s.jump a).grp.p = s.grp.p := Group.setSlot_p _ _ _
@[simp] theorem State.jump_grp_f (s : State) (a : W64) : (s.jump a).grp.f = s.grp.f := Group.setSlot_f _ _ _
@[simp] theorem State.jump_grp_vrf (s : State) (a : W64) : (s.jump a).grp.vrf = s.grp.vrf := Group.setSlot_vrf _ _ _
@[simp] theorem State.jump_grp_sl (s : State) (a : W64) : (s.jump a).grp.sl = s.grp.sl := Group.setSlot_sl _ _ _
@[simp] theorem State.jump_grp_tfp (s : State) (a : W64) : (s.jump a).grp.tfp = s.grp.tfp := Group.setSlot_tfp _ _ _
@[simp] theorem State.jump_grp_dtb (s : State) (a : W64) : (s.jump a).grp.dtb = s.grp.dtb := Group.setSlot_dtb _ _ _
@[simp] theorem State.jump_grp_dtl (s : State) (a : W64) : (s.jump a).grp.dtl = s.grp.dtl := Group.setSlot_dtl _ _ _
@[simp] theorem State.jump_grp_rngk (s : State) (a : W64) : (s.jump a).grp.rngk = s.grp.rngk := Group.setSlot_rngk _ _ _
@[simp] theorem State.jump_grp_rngc (s : State) (a : W64) : (s.jump a).grp.rngc = s.grp.rngc := Group.setSlot_rngc _ _ _
@[simp] theorem State.jump_grp_fmode (s : State) (a : W64) : (s.jump a).grp.fmode = s.grp.fmode := Group.setSlot_fmode _ _ _
@[simp] theorem State.jump_grp_rsd (s : State) (a : W64) : (s.jump a).grp.rsd = s.grp.rsd := Group.setSlot_rsd _ _ _
@[simp] theorem State.jump_grp_gid (s : State) (a : W64) : (s.jump a).grp.gid = s.grp.gid := Group.setSlot_gid _ _ _
@[simp] theorem State.jump_grp_role (s : State) (a : W64) : (s.jump a).grp.role = s.grp.role := Group.setSlot_role _ _ _
@[simp] theorem State.jump_grp_gang (s : State) (a : W64) : (s.jump a).grp.gang = s.grp.gang := Group.setSlot_gang _ _ _
@[simp] theorem State.jump_grp_die (s : State) (a : W64) : (s.jump a).grp.die = s.grp.die := Group.setSlot_die _ _ _
@[simp] theorem State.jump_grp_cluster (s : State) (a : W64) : (s.jump a).grp.cluster = s.grp.cluster := Group.setSlot_cluster _ _ _
@[simp] theorem State.jump_grp_core (s : State) (a : W64) : (s.jump a).grp.core = s.grp.core := Group.setSlot_core _ _ _
@[simp] theorem State.jump_grp_cslot (s : State) (a : W64) : (s.jump a).grp.cslot = s.grp.cslot := Group.setSlot_cslot _ _ _
@[simp] theorem State.jump_grp_part (s : State) (a : W64) : (s.jump a).grp.part = s.grp.part := Group.setSlot_part _ _ _
@[simp] theorem State.jump_grp_vf (s : State) (a : W64) : (s.jump a).grp.vf = s.grp.vf := Group.setSlot_vf _ _ _
@[simp] theorem State.jump_grp_bank (s : State) (a : W64) : (s.jump a).grp.bank = s.grp.bank := Group.setSlot_bank _ _ _
@[simp] theorem State.jump_grp_level (s : State) (a : W64) : (s.jump a).grp.level = s.grp.level := Group.setSlot_level _ _ _
@[simp] theorem State.jump_grp_priv (s : State) (a : W64) : (s.jump a).grp.priv = s.grp.priv := Group.setSlot_priv _ _ _
@[simp] theorem State.jump_grp_psize (s : State) (a : W64) : (s.jump a).grp.psize = s.grp.psize := Group.setSlot_psize _ _ _
@[simp] theorem State.jump_grp_f0 (s : State) (a : W64) : (s.jump a).grp.f0 = s.grp.f0 := Group.setSlot_f0 _ _ _
@[simp] theorem State.jump_grp_wcap (s : State) (a : W64) : (s.jump a).grp.wcap = s.grp.wcap := Group.setSlot_wcap _ _ _
@[simp] theorem State.jump_grp_outst (s : State) (a : W64) : (s.jump a).grp.outst = s.grp.outst := Group.setSlot_outst _ _ _
@[simp] theorem State.jump_grp_olds (s : State) (a : W64) : (s.jump a).grp.olds = s.grp.olds := Group.setSlot_olds _ _ _
@[simp] theorem State.jump_grp_raised (s : State) (a : W64) : (s.jump a).grp.raised = s.grp.raised := Group.setSlot_raised _ _ _
@[simp] theorem State.jump_grp_trap (s : State) (a : W64) : (s.jump a).grp.trap = s.grp.trap := Group.setSlot_trap _ _ _

@[simp] theorem State.advance_grp_key (s : State) (n : Nat) : (s.advance n).grp.key = s.grp.key := Group.setSlot_key _ _ _
@[simp] theorem State.advance_grp_live (s : State) (n : Nat) : (s.advance n).grp.live = s.grp.live := Group.setSlot_live _ _ _
@[simp] theorem State.advance_grp_sjoin (s : State) (n : Nat) : (s.advance n).grp.sjoin = s.grp.sjoin := Group.setSlot_sjoin _ _ _
@[simp] theorem State.advance_grp_s (s : State) (n : Nat) : (s.advance n).grp.s = s.grp.s := Group.setSlot_s _ _ _
@[simp] theorem State.advance_grp_p (s : State) (n : Nat) : (s.advance n).grp.p = s.grp.p := Group.setSlot_p _ _ _
@[simp] theorem State.advance_grp_f (s : State) (n : Nat) : (s.advance n).grp.f = s.grp.f := Group.setSlot_f _ _ _
@[simp] theorem State.advance_grp_vrf (s : State) (n : Nat) : (s.advance n).grp.vrf = s.grp.vrf := Group.setSlot_vrf _ _ _
@[simp] theorem State.advance_grp_sl (s : State) (n : Nat) : (s.advance n).grp.sl = s.grp.sl := Group.setSlot_sl _ _ _
@[simp] theorem State.advance_grp_tfp (s : State) (n : Nat) : (s.advance n).grp.tfp = s.grp.tfp := Group.setSlot_tfp _ _ _
@[simp] theorem State.advance_grp_dtb (s : State) (n : Nat) : (s.advance n).grp.dtb = s.grp.dtb := Group.setSlot_dtb _ _ _
@[simp] theorem State.advance_grp_dtl (s : State) (n : Nat) : (s.advance n).grp.dtl = s.grp.dtl := Group.setSlot_dtl _ _ _
@[simp] theorem State.advance_grp_rngk (s : State) (n : Nat) : (s.advance n).grp.rngk = s.grp.rngk := Group.setSlot_rngk _ _ _
@[simp] theorem State.advance_grp_rngc (s : State) (n : Nat) : (s.advance n).grp.rngc = s.grp.rngc := Group.setSlot_rngc _ _ _
@[simp] theorem State.advance_grp_fmode (s : State) (n : Nat) : (s.advance n).grp.fmode = s.grp.fmode := Group.setSlot_fmode _ _ _
@[simp] theorem State.advance_grp_rsd (s : State) (n : Nat) : (s.advance n).grp.rsd = s.grp.rsd := Group.setSlot_rsd _ _ _
@[simp] theorem State.advance_grp_gid (s : State) (n : Nat) : (s.advance n).grp.gid = s.grp.gid := Group.setSlot_gid _ _ _
@[simp] theorem State.advance_grp_role (s : State) (n : Nat) : (s.advance n).grp.role = s.grp.role := Group.setSlot_role _ _ _
@[simp] theorem State.advance_grp_gang (s : State) (n : Nat) : (s.advance n).grp.gang = s.grp.gang := Group.setSlot_gang _ _ _
@[simp] theorem State.advance_grp_die (s : State) (n : Nat) : (s.advance n).grp.die = s.grp.die := Group.setSlot_die _ _ _
@[simp] theorem State.advance_grp_cluster (s : State) (n : Nat) : (s.advance n).grp.cluster = s.grp.cluster := Group.setSlot_cluster _ _ _
@[simp] theorem State.advance_grp_core (s : State) (n : Nat) : (s.advance n).grp.core = s.grp.core := Group.setSlot_core _ _ _
@[simp] theorem State.advance_grp_cslot (s : State) (n : Nat) : (s.advance n).grp.cslot = s.grp.cslot := Group.setSlot_cslot _ _ _
@[simp] theorem State.advance_grp_part (s : State) (n : Nat) : (s.advance n).grp.part = s.grp.part := Group.setSlot_part _ _ _
@[simp] theorem State.advance_grp_vf (s : State) (n : Nat) : (s.advance n).grp.vf = s.grp.vf := Group.setSlot_vf _ _ _
@[simp] theorem State.advance_grp_bank (s : State) (n : Nat) : (s.advance n).grp.bank = s.grp.bank := Group.setSlot_bank _ _ _
@[simp] theorem State.advance_grp_level (s : State) (n : Nat) : (s.advance n).grp.level = s.grp.level := Group.setSlot_level _ _ _
@[simp] theorem State.advance_grp_priv (s : State) (n : Nat) : (s.advance n).grp.priv = s.grp.priv := Group.setSlot_priv _ _ _
@[simp] theorem State.advance_grp_psize (s : State) (n : Nat) : (s.advance n).grp.psize = s.grp.psize := Group.setSlot_psize _ _ _
@[simp] theorem State.advance_grp_f0 (s : State) (n : Nat) : (s.advance n).grp.f0 = s.grp.f0 := Group.setSlot_f0 _ _ _
@[simp] theorem State.advance_grp_wcap (s : State) (n : Nat) : (s.advance n).grp.wcap = s.grp.wcap := Group.setSlot_wcap _ _ _
@[simp] theorem State.advance_grp_outst (s : State) (n : Nat) : (s.advance n).grp.outst = s.grp.outst := Group.setSlot_outst _ _ _
@[simp] theorem State.advance_grp_olds (s : State) (n : Nat) : (s.advance n).grp.olds = s.grp.olds := Group.setSlot_olds _ _ _
@[simp] theorem State.advance_grp_raised (s : State) (n : Nat) : (s.advance n).grp.raised = s.grp.raised := Group.setSlot_raised _ _ _
@[simp] theorem State.advance_grp_trap (s : State) (n : Nat) : (s.advance n).grp.trap = s.grp.trap := Group.setSlot_trap _ _ _

@[simp] theorem State.park_grp_key (s : State) (p : Park) : (s.park p).grp.key = s.grp.key := Group.setSlot_key _ _ _
@[simp] theorem State.park_grp_live (s : State) (p : Park) : (s.park p).grp.live = s.grp.live := Group.setSlot_live _ _ _
@[simp] theorem State.park_grp_sjoin (s : State) (p : Park) : (s.park p).grp.sjoin = s.grp.sjoin := Group.setSlot_sjoin _ _ _
@[simp] theorem State.park_grp_s (s : State) (p : Park) : (s.park p).grp.s = s.grp.s := Group.setSlot_s _ _ _
@[simp] theorem State.park_grp_p (s : State) (p : Park) : (s.park p).grp.p = s.grp.p := Group.setSlot_p _ _ _
@[simp] theorem State.park_grp_f (s : State) (p : Park) : (s.park p).grp.f = s.grp.f := Group.setSlot_f _ _ _
@[simp] theorem State.park_grp_vrf (s : State) (p : Park) : (s.park p).grp.vrf = s.grp.vrf := Group.setSlot_vrf _ _ _
@[simp] theorem State.park_grp_sl (s : State) (p : Park) : (s.park p).grp.sl = s.grp.sl := Group.setSlot_sl _ _ _
@[simp] theorem State.park_grp_tfp (s : State) (p : Park) : (s.park p).grp.tfp = s.grp.tfp := Group.setSlot_tfp _ _ _
@[simp] theorem State.park_grp_dtb (s : State) (p : Park) : (s.park p).grp.dtb = s.grp.dtb := Group.setSlot_dtb _ _ _
@[simp] theorem State.park_grp_dtl (s : State) (p : Park) : (s.park p).grp.dtl = s.grp.dtl := Group.setSlot_dtl _ _ _
@[simp] theorem State.park_grp_rngk (s : State) (p : Park) : (s.park p).grp.rngk = s.grp.rngk := Group.setSlot_rngk _ _ _
@[simp] theorem State.park_grp_rngc (s : State) (p : Park) : (s.park p).grp.rngc = s.grp.rngc := Group.setSlot_rngc _ _ _
@[simp] theorem State.park_grp_fmode (s : State) (p : Park) : (s.park p).grp.fmode = s.grp.fmode := Group.setSlot_fmode _ _ _
@[simp] theorem State.park_grp_rsd (s : State) (p : Park) : (s.park p).grp.rsd = s.grp.rsd := Group.setSlot_rsd _ _ _
@[simp] theorem State.park_grp_gid (s : State) (p : Park) : (s.park p).grp.gid = s.grp.gid := Group.setSlot_gid _ _ _
@[simp] theorem State.park_grp_role (s : State) (p : Park) : (s.park p).grp.role = s.grp.role := Group.setSlot_role _ _ _
@[simp] theorem State.park_grp_gang (s : State) (p : Park) : (s.park p).grp.gang = s.grp.gang := Group.setSlot_gang _ _ _
@[simp] theorem State.park_grp_die (s : State) (p : Park) : (s.park p).grp.die = s.grp.die := Group.setSlot_die _ _ _
@[simp] theorem State.park_grp_cluster (s : State) (p : Park) : (s.park p).grp.cluster = s.grp.cluster := Group.setSlot_cluster _ _ _
@[simp] theorem State.park_grp_core (s : State) (p : Park) : (s.park p).grp.core = s.grp.core := Group.setSlot_core _ _ _
@[simp] theorem State.park_grp_cslot (s : State) (p : Park) : (s.park p).grp.cslot = s.grp.cslot := Group.setSlot_cslot _ _ _
@[simp] theorem State.park_grp_part (s : State) (p : Park) : (s.park p).grp.part = s.grp.part := Group.setSlot_part _ _ _
@[simp] theorem State.park_grp_vf (s : State) (p : Park) : (s.park p).grp.vf = s.grp.vf := Group.setSlot_vf _ _ _
@[simp] theorem State.park_grp_bank (s : State) (p : Park) : (s.park p).grp.bank = s.grp.bank := Group.setSlot_bank _ _ _
@[simp] theorem State.park_grp_level (s : State) (p : Park) : (s.park p).grp.level = s.grp.level := Group.setSlot_level _ _ _
@[simp] theorem State.park_grp_priv (s : State) (p : Park) : (s.park p).grp.priv = s.grp.priv := Group.setSlot_priv _ _ _
@[simp] theorem State.park_grp_psize (s : State) (p : Park) : (s.park p).grp.psize = s.grp.psize := Group.setSlot_psize _ _ _
@[simp] theorem State.park_grp_f0 (s : State) (p : Park) : (s.park p).grp.f0 = s.grp.f0 := Group.setSlot_f0 _ _ _
@[simp] theorem State.park_grp_wcap (s : State) (p : Park) : (s.park p).grp.wcap = s.grp.wcap := Group.setSlot_wcap _ _ _
@[simp] theorem State.park_grp_outst (s : State) (p : Park) : (s.park p).grp.outst = s.grp.outst := Group.setSlot_outst _ _ _
@[simp] theorem State.park_grp_olds (s : State) (p : Park) : (s.park p).grp.olds = s.grp.olds := Group.setSlot_olds _ _ _
@[simp] theorem State.park_grp_raised (s : State) (p : Park) : (s.park p).grp.raised = s.grp.raised := Group.setSlot_raised _ _ _
@[simp] theorem State.park_grp_trap (s : State) (p : Park) : (s.park p).grp.trap = s.grp.trap := Group.setSlot_trap _ _ _

/-! ### The selected slot and the registers -/

@[simp] theorem Group.slot_setSlot (g : Group) (i : SlotId) (f : Slot → Slot) : (g.setSlot i f).slot i = f (g.slot i) := by cases i <;> rfl
theorem Group.slot_setSlot_other (g : Group) (i j : SlotId) (f : Slot → Slot) (h : j ≠ i) : (g.setSlot i f).slot j = g.slot j := by
  cases i <;> cases j <;> first | rfl | exact absurd rfl h
@[simp] theorem State.slot_setSlot (s : State) (f : Slot → Slot) : (s.setSlot f).slot = f s.slot := Group.slot_setSlot _ _ _
@[simp] theorem State.slot_setRs (s : State) (r : SReg) (v : W64) : (s.setRs r v).slot = s.slot := by cases h : s.sel <;> simp [State.slot, State.setRs, h, Group.slot]
@[simp] theorem State.slot_setRp (s : State) (p : PReg) (v : LaneMask) : (s.setRp p v).slot = s.slot := by cases h : s.sel <;> simp [State.slot, State.setRp, h, Group.slot]
@[simp] theorem State.slot_orFlags (s : State) (v : Flags) : (s.orFlags v).slot = s.slot := by cases h : s.sel <;> simp [State.slot, State.orFlags, h, Group.slot]
@[simp] theorem State.slot_drawn (s : State) (c : Nat) : (s.drawn c).slot = s.slot := by cases h : s.sel <;> simp [State.slot, State.drawn, h, Group.slot]
@[simp] theorem State.slot_park (s : State) (p : Park) : (s.park p).slot = { s.slot with park := p } := Group.slot_setSlot _ _ _
@[simp] theorem State.slot_jump (s : State) (a : W64) : (s.jump a).slot = s.slot.leave a s.tick := Group.slot_setSlot _ _ _

/-! What the other path's writes leave readable (R74). -/

@[simp] theorem State.shared_setSlot (s : State) (f : Slot → Slot) : (s.setSlot f).shared = s.shared := by
  have h : s.sel.other ≠ s.sel := by cases s.sel <;> simp [SlotId.other]
  show ((s.grp.setSlot s.sel f).slot s.sel.other).occ = _
  rw [Group.slot_setSlot_other _ _ _ _ h]; rfl
@[simp] theorem State.shared_setRs (s : State) (r : SReg) (v : W64) : (s.setRs r v).shared = s.shared := by cases h : s.sel <;> simp [State.shared, State.setRs, SlotId.other, h, Group.slot]
@[simp] theorem State.shared_setRp (s : State) (r : PReg) (v : LaneMask) : (s.setRp r v).shared = s.shared := by cases h : s.sel <;> simp [State.shared, State.setRp, SlotId.other, h, Group.slot]
@[simp] theorem State.shared_orFlags (s : State) (v : Flags) : (s.orFlags v).shared = s.shared := by cases h : s.sel <;> simp [State.shared, State.orFlags, SlotId.other, h, Group.slot]

/-- A scalar register reads the same in two states that agree on the registers, on what they held and on who reads. -/
theorem State.rs_congr (s t : State) (q : SReg) (h1 : t.grp.s = s.grp.s) (h2 : t.grp.olds = s.grp.olds) (h3 : t.sel = s.sel) (h4 : t.tick = s.tick)
    (h5 : t.shared = s.shared) : t.rs q = s.rs q := by simp only [State.rs, State.oldRs, h1, h2, h3, h4, h5]

/-- Nothing older than a path's own write is left for it to read; what other registers held stays. -/
theorem State.oldRs_setRs (s : State) (r q : SReg) (v : W64) : (s.setRs r v).oldRs q = if q = r then none else s.oldRs q := by
  have e : (s.setRs r v).grp.olds = if s.shared then (s.sel, r.toNat, s.grp.s[r.toNat]'(by have := r.isLt; omega)) ::
      s.grp.olds.filter (fun o => o.2.1 != r.toNat) else s.grp.olds := rfl
  simp only [State.oldRs, State.shared_setRs, e]
  by_cases hs : s.shared = true
  · have h1 : ∀ l : List (SlotId × Nat × W64), (l.filter fun o => o.2.1 != r.toNat).find? (fun o => o.1 != s.sel && o.2.1 == q.toNat) =
        if q = r then none else l.find? (fun o => o.1 != s.sel && o.2.1 == q.toNat) := by
      intro l
      by_cases h : q = r
      · subst h; simp; intro _ _ _ _ hb _; exact fun hc => hb hc
      · simp only [h, if_false, List.find?_filter]
        congr 1; funext o
        by_cases ho : o.2.1 = q.toNat
        · have : q.toNat ≠ r.toNat := fun hh => h (BitVec.eq_of_toNat_eq hh)
          rw [ho]; simp [this]
          cases hx : (o.1 != s.sel) <;> simp_all
        · simp [ho]
    simp [hs, h1]
    by_cases h : q = r <;> simp [h]
  · have hs : s.shared = false := by simpa using hs
    simp [hs]

/-- A scalar register reads back what was written to it, and the others as before. -/
theorem State.rs_setRs (s : State) (r q : SReg) (v : W64) : (s.setRs r v).rs q = if q = r then v else s.rs q := by
  simp only [State.rs, State.oldRs_setRs]
  by_cases h : q = r
  · subst h; simp [State.setRs]
  · have e : (s.setRs r v).grp.s[q.toNat]'(by have := q.isLt; omega) = s.grp.s[q.toNat]'(by have := q.isLt; omega) :=
      Vector.getElem_set_ne (by have := r.isLt; omega) (by have := q.isLt; omega) fun e => h (BitVec.eq_of_toNat_eq e.symm)
    simp only [h, if_false, e, State.setRs_tick]
@[simp] theorem State.rs_setRs_self (s : State) (r : SReg) (v : W64) : (s.setRs r v).rs r = v := by simp [State.rs_setRs]

/-- A predicate reads back what was written to it, and the others as before. -/
@[simp] theorem State.rp_setRp_self (s : State) (r : PReg) (v : LaneMask) : (s.setRp r v).rp r = v := by simp [State.rp, State.setRp]
theorem State.rp_setRp (s : State) (r q : PReg) (v : LaneMask) : (s.setRp r v).rp q = if q = r then v else s.rp q := by
  by_cases h : q = r
  · simp [h]
  · simp only [h, if_false, State.rp, State.setRp, State.setGrp]
    exact Vector.getElem_set_ne (by have := r.isLt; omega) (by have := q.isLt; omega) fun e => h (BitVec.eq_of_toNat_eq e.symm)

/-- A future reads back what was written to it. -/
@[simp] theorem State.fut_setFut_self (s : State) (r : FReg) (v : Future) : (s.setFut r v).fut r = v := by simp [State.fut, State.setFut]

@[simp] theorem State.rs_setRp (s : State) (r : PReg) (q : SReg) (v : LaneMask) : (s.setRp r v).rs q = s.rs q :=
  State.rs_congr _ _ _ rfl rfl rfl rfl (State.shared_setRp _ _ _)
@[simp] theorem State.rp_setRs (s : State) (r : SReg) (q : PReg) (v : W64) : (s.setRs r v).rp q = s.rp q := rfl
@[simp] theorem State.rs_orFlags (s : State) (v : Flags) (q : SReg) : (s.orFlags v).rs q = s.rs q :=
  State.rs_congr _ _ _ rfl rfl rfl rfl (State.shared_orFlags _ _)
@[simp] theorem State.rp_orFlags (s : State) (v : Flags) (q : PReg) : (s.orFlags v).rp q = s.rp q := rfl
@[simp] theorem State.rs_setSlot (s : State) (f : Slot → Slot) (q : SReg) : (s.setSlot f).rs q = s.rs q :=
  State.rs_congr _ _ _ (by simp) (by simp) rfl rfl (State.shared_setSlot _ _)
@[simp] theorem State.rp_setSlot (s : State) (f : Slot → Slot) (q : PReg) : (s.setSlot f).rp q = s.rp q := by simp [State.rp]
@[simp] theorem State.fut_setSlot (s : State) (f : Slot → Slot) (q : FReg) : (s.setSlot f).fut q = s.fut q := by simp [State.fut]
@[simp] theorem State.rs_advance (s : State) (n : Nat) (q : SReg) : (s.advance n).rs q = s.rs q := State.rs_setSlot _ _ _
@[simp] theorem State.rp_advance (s : State) (n : Nat) (q : PReg) : (s.advance n).rp q = s.rp q := State.rp_setSlot _ _ _
@[simp] theorem State.fut_advance (s : State) (n : Nat) (q : FReg) : (s.advance n).fut q = s.fut q := State.fut_setSlot _ _ _
@[simp] theorem State.rs_jump (s : State) (a : W64) (q : SReg) : (s.jump a).rs q = s.rs q := State.rs_setSlot _ _ _
@[simp] theorem State.rs_park (s : State) (p : Park) (q : SReg) : (s.park p).rs q = s.rs q := State.rs_setSlot _ _ _

end Sys2Proof.Machine
end

