-- ==== Sys2Proof/Laws/Ops.lean ====
section
/-! SUPPORT. What each shared operation can do, said once: sequencing, the checks of an instruction, the shapes of the vector and scalar
instructions, the program counter, taking a trap, gangs, contexts, queues of outstanding results. -/
namespace Sys2Proof.Machine
open Sys2Proof

/-! ### Operations that may stop short -/

@[simp] theorem ok_bind {α β : Type} (a : α) (f : α → Res β) : (Except.ok a >>= f : Res β) = f a := rfl
@[simp] theorem error_bind {α β : Type} (e : Stop) (f : α → Res β) : (Except.error e >>= f : Res β) = .error e := rfl

/-- A sequence succeeds exactly when both parts do. -/
theorem bind_eq_ok {α β : Type} {x : Res α} {f : α → Res β} {b : β} : (x >>= f) = .ok b ↔ ∃ a, x = .ok a ∧ f a = .ok b := by
  cases x <;> simp

@[simp] theorem finish_ok (s t : State) : finish s (.ok t) = .next t := rfl
@[simp] theorem finish_raise (s : State) (c : Cause) : finish s (.error (.raise c)) = .next (s.trap c) := rfl
@[simp] theorem finish_hold (s t : State) : finish s (.error (.hold t)) = .next t := rfl

/-- Finishing answers a next state, whatever happened. -/
theorem finish_next (s : State) (r : Res State) : ∃ t, finish s r = .next t := by
  rcases r with (c | t) | t <;> exact ⟨_, rfl⟩

/-- The three ways an operation finishes. -/
theorem finish_cases {s t : State} {r : Res State} (h : finish s r = .next t) :
    r = .ok t ∨ (∃ c, r = .error (.raise c) ∧ t = s.trap c) ∨ r = .error (.hold t) := by
  rcases r with (c | u) | u <;> simp only [finish, Host.Outcome.next.injEq] at h <;> simp [h]

@[simp] theorem must_true (c : Cause) : must true c = .ok () := rfl
@[simp] theorem must_false (c : Cause) : must false c = raise c := rfl
theorem must_eq_ok {b : Bool} {c : Cause} : must b c = .ok () ↔ b = true := by cases b <;> simp [must, raise]

/-! ### Lane masks -/

theorem maskOf_fold (f : Nat → Bool) (n : Nat) (l : Nat) (hl : l < 32) :
    (((List.range n).foldl (fun m k => if f k then m ||| (1#32 <<< k) else m) (0 : LaneMask)).getLsbD l) = (decide (l < n) && f l) := by
  induction n with
  | zero => simp
  | succ n ih =>
    rw [List.range_succ, List.foldl_append]
    simp only [List.foldl_cons, List.foldl_nil]
    by_cases hf : f n = true
    · rw [if_pos hf, BitVec.getLsbD_or, ih]
      by_cases h : l = n
      · subst h; simp [hf, hl]
      · by_cases hlt : l < n
        · simp [hlt, show l < n + 1 by omega]
        · simp [hlt, show ¬l < n + 1 by omega, show l - n ≠ 0 by omega]
    · rw [if_neg hf, ih]
      by_cases h : l = n
      · subst h; simp [hf]
      · rw [show decide (l < n + 1) = decide (l < n) by simp; omega]

/-- A mask built from a condition holds the lanes that meet it. -/
@[simp] theorem maskOf_getLsbD (f : Nat → Bool) (l : Nat) (hl : l < 32) : (maskOf f).getLsbD l = f l :=
  (maskOf_fold f 32 l hl).trans (by simp [hl])

theorem mem_lanesOf (m : LaneMask) (l : Nat) : l ∈ lanesOf m ↔ l < 32 ∧ m.getLsbD l = true := by simp [lanesOf]

@[simp] theorem active_none (s : State) : s.active none = s.slot.mask := rfl
theorem active_some (s : State) (g : Guard) : s.active (some g) = s.slot.mask &&& (if g.neg then ~~~s.rp g.p else s.rp g.p) := rfl

/-- A guard removes lanes, never adds one. -/
theorem active_sub (s : State) (g : Option Guard) (l : Nat) (h : (s.active g).getLsbD l = true) : s.slot.mask.getLsbD l = true := by
  cases g with
  | none => exact h
  | some g => rw [active_some, BitVec.getLsbD_and, Bool.and_eq_true] at h; exact h.1

/-! ### Vector instructions -/

/-- The checks of a vector instruction: the frame, then the interlock. -/
theorem vcheck_eq_ok {s : State} {reads writes : List (VReg × Nat)} :
    s.vcheck reads writes = .ok () ↔ (∀ x ∈ reads ++ writes, x.1.toNat + x.2 ≤ s.slot.fsize) ∧ ∀ x ∈ writes, s.locked x = false := by
  have fr : ∀ x, s.inFrame x = true ↔ x.1.toNat + x.2 ≤ s.slot.fsize := fun x => by simp [State.inFrame]
  simp only [← fr, State.vcheck]
  by_cases h : (reads ++ writes).all s.inFrame = true
  · by_cases g : writes.any s.locked = true
    · simp only [h, g, Bool.not_true, Bool.false_eq_true, if_false, if_true, reduceCtorEq, false_iff, not_and]
      intro _ e
      obtain ⟨x, hx, hl⟩ := List.any_eq_true.mp g
      simp [e x hx] at hl
    · simp only [h, g, Bool.not_true, Bool.false_eq_true, if_false, true_iff]
      exact ⟨List.all_eq_true.mp h, fun x hx => by simpa using fun e => g (List.any_eq_true.mpr ⟨x, hx, e⟩)⟩
  · simp only [h, Bool.not_false, if_true, State.illegal, raise, reduceCtorEq, false_iff, not_and]
    intro e
    exact absurd (List.all_eq_true.mpr e) h

/-- What the checks can answer. -/
theorem vcheck_cases (s : State) (reads writes : List (VReg × Nat)) :
    s.vcheck reads writes = .ok () ∨ s.vcheck reads writes = s.illegal ∨ s.vcheck reads writes = .error (.hold (s.park .room)) := by
  simp only [State.vcheck]; split
  · exact .inr (.inl rfl)
  · split
    · exact .inr (.inr rfl)
    · exact .inl rfl

theorem mixLanes_get (old : Vector W32 32) (m : LaneMask) (f : Nat → W32) (l : Fin 32) :
    (mixLanes old m f)[l] = if m.getLsbD l then f l else old[l] := by simp [mixLanes]

theorem vput_fold (g : Group) (l : List Nat) (pos : Nat → Nat) (m : LaneMask) (f : Nat → Nat → W32) :
    ∃ rows, l.foldl (fun g i => { g with vrf := g.vrf.set (pos i % g.vrf.length) (mixLanes (g.vpos (pos i)) m (f i)) }) g =
      { g with vrf := rows } ∧ rows.length = g.vrf.length := by
  induction l generalizing g with
  | nil => exact ⟨g.vrf, rfl, rfl⟩
  | cons i r ih =>
    obtain ⟨rows, h, hl⟩ := ih { g with vrf := g.vrf.set (pos i % g.vrf.length) (mixLanes (g.vpos (pos i)) m (f i)) }
    exact ⟨rows, h, by rw [hl]; simp⟩

/-- Writing vector registers changes the group's rows and nothing else, and not their number. -/
theorem vput_rows (s : State) (r : VReg) (n : Nat) (m : LaneMask) (f : Nat → Nat) :
    ∃ rows, s.vput r n m f = s.setGrp (fun g => { g with vrf := rows }) ∧ rows.length = s.grp.vrf.length := by
  obtain ⟨rows, h, hl⟩ := vput_fold s.grp (List.range n) (fun i => s.slot.wbase + r.toNat + i) m fun i l => BitVec.ofNat 32 (f l / 2 ^ (32 * i))
  exact ⟨rows, by simpa only [State.vput, State.setGrp] using congrArg (fun g => { s with grp := g }) h, hl⟩

@[simp] theorem rs_vput (s : State) (r : VReg) (n : Nat) (m : LaneMask) (f : Nat → Nat) (q : SReg) : (s.vput r n m f).rs q = s.rs q := by
  obtain ⟨rows, h, -⟩ := vput_rows s r n m f; rw [h]; rfl
@[simp] theorem rp_vput (s : State) (r : VReg) (n : Nat) (m : LaneMask) (f : Nat → Nat) (q : PReg) : (s.vput r n m f).rp q = s.rp q := by
  obtain ⟨rows, h, -⟩ := vput_rows s r n m f; rw [h]; rfl

/-- The vector shape completes where its checks pass. -/
theorem vecOp_next {s : State} {reads : List (VReg × Nat)} {d : VReg} {n : Nat} (words : Nat) (g : Option Guard) (f : Nat → Nat × Flags)
    (h : s.vcheck reads [(d, n)] = .ok ()) :
    vecOp s words g reads d n f =
      .next (((s.vput d n (s.active g) fun l => (f l).1).orFlags (flagsOver (s.active g) fun l => (f l).2)).advance words) := by
  simp [vecOp, h]

/-- No flag from any lane. -/
@[simp] theorem flagsOver_zero (m : LaneMask) : (flagsOver m fun _ => 0) = 0 := by
  have : ∀ l : List Nat, l.foldl (fun acc k => if m.getLsbD k then acc ||| 0 else acc) (0 : Flags) = 0 := by
    intro l; induction l with
    | nil => rfl
    | cons x r ih => simp only [List.foldl_cons]; split <;> simpa using ih
  exact this _

@[simp] theorem orFlags_zero (s : State) : s.orFlags 0 = s := by simp [State.orFlags, State.setGrp]

theorem vecInt_next {s : State} {reads : List (VReg × Nat)} {d : VReg} {n : Nat} (words : Nat) (g : Option Guard) (f : Nat → Nat)
    (h : s.vcheck reads [(d, n)] = .ok ()) :
    vecInt s words g reads d n f = .next ((s.vput d n (s.active g) f).advance words) := by
  rw [vecInt, vecOp_next words g _ h]
  show Host.Outcome.next (((s.vput d n (s.active g) f).orFlags (flagsOver (s.active g) fun _ => 0)).advance words) = _
  rw [flagsOver_zero, orFlags_zero]

theorem vecRound_next {s : State} {reads : List (VReg × Nat)} {d : VReg} {n : Nat} (words : Nat) (g : Option Guard) (rnd : Rnd) (draws : Nat)
    (f : Rnd → (Nat → Nat) → Nat → Nat × Flags) (h : s.vcheck reads [(d, n)] = .ok ()) :
    let r (l : Nat) := f (s.mode rnd) (fun j => s.draw j l) l
    let t := (s.vput d n (s.active g) fun l => (r l).1).orFlags (flagsOver (s.active g) fun l => (r l).2)
    vecRound s words g rnd draws reads d n f = .next ((if s.mode rnd = .sr then t.drawn draws else t).advance words) := by
  simp [vecRound, h]

theorem predOp_next {s : State} {reads : List (VReg × Nat)} (words : Nat) (g : Option Guard) (d : PReg) (f : Nat → Bool × Flags)
    (h : s.vcheck reads [] = .ok ()) :
    predOp s words g reads d f = .next (((s.setRp d ((s.rp d &&& ~~~s.active g) ||| (maskOf (fun l => (f l).1) &&& s.active g))).orFlags
      (flagsOver (s.active g) fun l => (f l).2)).advance words) := by
  simp [predOp, h]

/-- A predicate with some lanes replaced. -/
theorem predMix_getLsbD (old m : LaneMask) (f : Nat → Bool) (l : Nat) (hl : l < 32) :
    ((old &&& ~~~m) ||| (maskOf f &&& m)).getLsbD l = if m.getLsbD l then f l else old.getLsbD l := by
  simp only [BitVec.getLsbD_or, BitVec.getLsbD_and, BitVec.getLsbD_not, maskOf_getLsbD f l hl, hl, decide_true, Bool.true_and]
  cases m.getLsbD l <;> simp

theorem scalarOp_next (s : State) (words : Nat) (d : SReg) (v : W64) : scalarOp s words d v = .next ((s.setRs d v).advance words) := rfl

/-! ### The program counter -/

/-- Going on within the bundle. -/
theorem slot_advance_within (s : State) (n : Nat) (h : s.slot.idx + n ≤ s.slot.ctl % 16) :
    (s.advance n).slot = { s.slot with idx := s.slot.idx + n, park := .none, failed := [], farFailed := [] } := by
  simp [State.advance, h]

/-- Going on to the next bundle. -/
theorem slot_advance_leave (s : State) (n : Nat) (h : s.slot.ctl % 16 < s.slot.idx + n) :
    (s.advance n).slot = s.slot.leave (s.slot.pcb + 64) s.tick := by
  simp [State.advance, show ¬s.slot.idx + n ≤ s.slot.ctl % 16 by omega]

/-! ### Taking a trap -/

/-- In trap mode a code is a double fault. -/
theorem trap_inTrap (s : State) (c : Cause) (h : s.inTrap = true) : s.trap c = s.terminateFor c true := by
  simp [State.trap, State.trapTo, State.takeTrap, h]

/-- Without a handler a code ends the context. -/
theorem trap_noHandler (s : State) (c : Cause) (h : s.inTrap = false) (e : (s.gang s.grp.gang).trapEntry = 0) :
    s.trap c = s.terminateFor c false := by
  simp [State.trap, State.trapTo, State.takeTrap, h, e]

/-- Results that must be waited for hold the code raised. -/
theorem trap_waits (s : State) (c : Cause) (h : s.inTrap = false) (e : (s.gang s.grp.gang).trapEntry ≠ 0) (w : s.mustWait = true) :
    s.trap c = s.setGrp fun g => { g with raised := some (s.sel, c) } := by
  have : ((s.gang s.grp.gang).trapEntry == 0) = false := beq_eq_false_iff_ne.mpr e
  simp only [State.trap, State.trapTo, id, h, this, w, Bool.false_or, Bool.true_or, Bool.false_eq_true, if_false, if_true]

/-- With nothing outstanding the trap is taken. -/
theorem trap_taken (s : State) (c : Cause) (o : s.grp.outst = []) (w : s.mustWait = false) : s.trap c = s.takeTrap c := by
  simp [State.trap, State.trapTo, w, o]

/-- Otherwise it is taken or held. -/
theorem trap_either (s : State) (c : Cause) :
    s.trap c = s.takeTrap c ∨ s.trap c = s.setGrp fun g => { g with raised := some (s.sel, c) } := by
  simp only [State.trap, State.trapTo, id]
  split
  · exact .inl rfl
  · split
    · exact .inr rfl
    · exact .inl rfl

/-- A group with a code raised does not go on. -/
theorem stirs_raised (s : State) (h : s.grp.raised ≠ none) : s.stirs = false := by
  have : s.grp.raised.isNone = false := by
    cases e : s.grp.raised with
    | none => exact absurd e h
    | some _ => rfl
  simp [State.stirs, this]

/-- Taking a trap with a handler: the results return, the frame is written, trap mode is entered. -/
theorem takeTrap_enters (s t : State) (c : Cause) (h : s.inTrap = false) (e : (s.gang s.grp.gang).trapEntry ≠ 0)
    (hw : let u := (s.returnAll fun _ => true).drainQueue fun o => o.ofDevice s.grp.key
      u.grpWrite u.grp.tfp ((u.frameWords c).flatMap fun w => bytesOfNat 8 w.toNat) = .ok t) :
    s.takeTrap c = match t.enterTrap (s.gang s.grp.gang).trapEntry with
      | .ok v => v
      | .error (.raise d) => t.terminateFor { c with code := d.code } true
      | .error (.hold v) => v := by
  simp only at hw
  simp only [State.takeTrap, h, Bool.false_eq_true, if_false, if_neg e, hw]
  all_goals rcases t.enterTrap (s.gang s.grp.gang).trapEntry with (d | v) | v <;> rfl

/-! ### The memory network's credit (R360) -/

/-- A charge changes nothing but the credits. -/
theorem charge_frame (s : State) (part die n m : Nat) : s.charge part die n m = { s with credits := (s.charge part die n m).credits } := by
  unfold State.charge; split <;> rfl
@[simp] theorem charge_mem (s : State) (part die n m : Nat) : (s.charge part die n m).mem = s.mem := by rw [charge_frame]
@[simp] theorem charge_hmem (s : State) (part die n m : Nat) : (s.charge part die n m).hmem = s.hmem := by rw [charge_frame]
@[simp] theorem charge_grp (s : State) (part die n m : Nat) : (s.charge part die n m).grp = s.grp := by rw [charge_frame]

/-- With credit an access goes through, and so does one that sends nothing. -/
theorem paid_credit (s t : State) (part die : Nat) (h : 0 < s.creditNow part die) : s.paid part die t = t := if_neg fun k => absurd k.1 (by omega)
theorem paid_free (s t : State) (part die : Nat) (h : t.reqs = s.reqs) : s.paid part die t = t := if_neg fun k => k.2 h

/-- Otherwise it has not happened yet. -/
theorem paid_either (s t : State) (part die : Nat) : s.paid part die t = t ∨ s.paid part die t = s := by
  unfold State.paid; split
  · exact .inr rfl
  · exact .inl rfl

/-! ### Lists of gangs, contexts and other records -/

theorem find_updateFirst_self {α : Type} (p : α → Bool) (f : α → α) (l : List α) (hf : ∀ x, p x = true → p (f x) = true) :
    (updateFirst p f l).find? p = (l.find? p).map f := by
  induction l with
  | nil => rfl
  | cons x r ih =>
    by_cases h : p x = true
    · simp [updateFirst, h, hf x h]
    · simp [updateFirst, h, ih]

theorem find_updateFirst_other {α : Type} (p q : α → Bool) (f : α → α) (l : List α) (hf : ∀ x, p x = true → q (f x) = q x)
    (hq : ∀ x, p x = true → q x = false) : (updateFirst p f l).find? q = l.find? q := by
  induction l with
  | nil => rfl
  | cons x r ih =>
    by_cases h : p x = true
    · simp [updateFirst, h, hf x h, hq x h]
    · simp [updateFirst, h, List.find?_cons, ih]

/-- A gang reads back as changed, where the change keeps its key. -/
theorem gang_setGang (s : State) (key : Nat) (f : Gang → Gang) (hf : ∀ g, (f g).key = g.key) (h : s.gangs.any fun g => g.key == key) :
    (s.setGang key f).gang key = f (s.gang key) := by
  have e := find_updateFirst_self (fun g : Gang => g.key == key) f s.gangs fun x hx => by simpa [hf] using hx
  simp only [List.any_eq_true] at h
  obtain ⟨g, hg, hk⟩ := h
  have : (s.gangs.find? fun g => g.key == key).isSome := by
    rw [List.find?_isSome]; exact ⟨g, hg, hk⟩
  obtain ⟨x, hx⟩ := Option.isSome_iff_exists.mp this
  simp only [State.gang, State.setGang, e, hx, Option.map_some, Option.getD_some]

/-- Other gangs read as before. -/
theorem gang_setGang_other (s : State) (key k : Nat) (f : Gang → Gang) (hf : ∀ g, (f g).key = g.key) (h : k ≠ key) :
    (s.setGang key f).gang k = s.gang k := by
  have : (updateFirst (fun g => g.key == key) f s.gangs).find? (fun g => g.key == k) = s.gangs.find? fun g => g.key == k :=
    find_updateFirst_other _ _ f s.gangs (fun x _ => by simp [hf]) fun x hx => by simp_all [Ne.symm h]
  simp [State.gang, State.setGang, this]

/-- A context reads back as changed, where the change keeps its names. -/
theorem ctx_setCtx (s : State) (vf part : Nat) (f : Ctx → Ctx) (hf : ∀ c, (f c).vf = c.vf ∧ (f c).part = c.part) :
    (s.setCtx vf part f).ctx vf part = (s.ctx vf part).map f :=
  find_updateFirst_self _ f s.ctxs fun x hx => by simpa [hf] using hx

/-! ### Lists -/

theorem dropAt_eq {α : Type} (l : List α) (j : Nat) : dropAt l j = l.take j ++ l.drop (j + 1) := by
  induction l generalizing j with
  | nil => simp [dropAt]
  | cons x r ih => cases j <;> simp [dropAt, ih]

@[simp] theorem bytesOfNat_length (n v : Nat) : (bytesOfNat n v).length = n := by
  induction n generalizing v with
  | zero => rfl
  | succ n ih => simp [bytesOfNat, ih]

/-- Bytes of a number read back as the number, in range. -/
theorem natOfBytes_bytesOfNat (n v : Nat) : natOfBytes (bytesOfNat n v) = v % 2 ^ (8 * n) := by
  induction n generalizing v with
  | zero => simp [bytesOfNat, natOfBytes]; omega
  | succ n ih =>
    simp only [bytesOfNat, natOfBytes, ih, BitVec.toNat_ofNat]
    rw [show 8 * (n + 1) = 8 + 8 * n by ring, pow_add, Nat.mod_mul]
    rfl

/-! ### Counters and room -/

/-- A counter below its limit has room (R130). -/
theorem room_ok (s : State) (c : Counter) (h : s.cnt c < 63) : s.room c = .ok () := by
  simp [State.room, State.full]; omega

/-! ### Futures -/

/-- Issuing into a future makes it pending, and both views show it (R75). -/
theorem fut_issueFut (s : State) (f : FReg) (op : Nat) : (s.issueFut f op).fut f = ⟨.pending, 0, op⟩ := by
  simp [State.issueFut, State.fut, State.setFut, State.setGrp, Group.setView]

theorem fut_settleFut (s : State) (f : FReg) (v : Future) : (s.settleFut f v).fut f = v := by
  simp [State.settleFut, State.fut, State.setFut, State.setGrp, Group.setView]

end Sys2Proof.Machine
end

