-- ==== Sys2Proof/Tests/States.lean ====
section
/-! SUPPORT. Small states for the tests and the witnesses. -/
namespace Sys2Proof.Tests
open Sys2Proof Sys2Proof.Machine

/-- A path at word 1 of the bundle at 0x10000, all lanes, a frame of 12 registers. -/
def path : Slot := { occ := true, pcb := 0x10000, mask := 0xFFFFFFFF, fsize := 12, fb := 0x20000, sp := 0x20000 }

/-- A group that runs on that path. -/
def runGroup : Group := { key := 1, live := 0xFFFFFFFF, slotA := path, vrf := List.replicate 32 (Vector.replicate 32 0), gang := 1, wcap := 16 }

/-- Pages 0 to 15 of context 0, mapped to themselves, every permission. -/
def mapped (core : Option (Nat × Nat)) : TlbEntry :=
  { die := 0, core, part := 0, vf := 0, vpage := 0, ppage := 0, pages := 16, r := true, w := true, x := true, kind := .normal }

/-- A context that runs, with nothing else. -/
def ctx0 : Ctx :=
  { vf := 0, part := 0, state := .active, paused := false, bank := 0, s1root := 0, s2root := 0, dfc := 0, pver := 0, save := 0, carry := 0
    ran := Vector.replicate 6 0, sliceStart := 0, slice := 0, wall := 0, rate := 0, burst := 0, resize := none, quota := 0, evict := false
    image := [], lastSlice := 0, kinds := [], readers := [], graces := [], batches := [], posted := [] }

/-- A machine with that group, its gang and its context. -/
def run : State := { grp := runGroup, gangs := [{ key := 1 }], ctxs := [ctx0], tlb := [mapped none, mapped (some (0, 0))] }

/-- The same with some scalar registers set. -/
def runWith (l : List (SReg × W64)) : State := l.foldl (fun s x => s.setRs x.1 x.2) run

/-- A gang with 4 KiB of gang memory and a tile of scratchpad. -/
def gang1 : Gang := { key := 1, shared := 4096, scratch := 1 }

/-- One lane runs, in that gang. -/
def runOne : State :=
  { (run.setGrp fun g => { g with live := 1, slotA := { path with mask := 1 }, priv := 0x10000, psize := 0x20000 }) with gangs := [gang1] }
def runOneWith (l : List (SReg × W64)) : State := l.foldl (fun s x => s.setRs x.1 x.2) runOne

/-- Tables that map the low 512 MiB of both stages to themselves: stage 2 from 0x100000, stage 1 from 0x120000. -/
def tables : Mem := [(0x100000, 1), (0x100002, 0x11), (0x110000, 0x1F), (0x120000, 1), (0x120002, 0x13), (0x130000, 0x1F)]
def ctxMapped : Ctx := { ctx0 with s1root := 0x120000, s2root := 0x100000 }

/-- An instruction (or event) of a table, with a state that meets the row. -/
def Meets (R : Instr → State → State → Prop) (i : Instr) : Prop := ∃ s t, R i s t

end Sys2Proof.Tests
end

