-- ==== Sys2Proof/Tests/Fabric.lean ====
section
/-! SUPPORT. Witnesses of the statements about other packages: for every row of their tables, operands and a state that meet it. -/
namespace Sys2Proof.Tests
open Sys2Proof Sys2Proof.Machine Sys2Proof.Statements

set_option maxRecDepth 40000

/-- A policy that exports to the VF 0 of package 0, with one exchange group. -/
def policy0 : Policy :=
  { version := 1, pubkey := [], permit := 0xF, quota := 0, memq := 0, queues := [], maxHandles := 4, slice := 1, wall := 1, rate := 0, burst := 0
    ltol := 0, s1root := 0x120000, dfc := 0, kinds := [], peers := [(0, 0, 0)], xgroups := [7] }
def vf0 : Vf := { vf := 0, secret := none, policy := some policy0, bound := none, lstat := 0, lerr := 0, ltol := none, devCtr := 0, saveCtr := 0 }

/-- The export half's first pages, as a base die knows them. -/
def exportPages : TlbEntry := { mapped none with die := 6, vpage := 2 ^ 38 }

/-- What a remote TLB holds for package 0's first page. -/
def farPage : RemEntry := ⟨0, 0, 0, 0, 0, some ⟨true, true, true, true, .atomicHome⟩, 0⟩

/-- A machine of package `n`. -/
def runFar (n : Nat) (l : List (SReg × W64)) : State :=
  { runOneWith l with ctxs := [ctxMapped], mem := tables ++ [(0x1F0000, 1)], vfs := [vf0], rtlb := [farPage], pkg := n, synced := true
                      tlb := [mapped none, mapped (some (0, 0)), exportPages] }

theorem wit_remld : Meets Fabrics (.remld none .f32 .sys .acq 0 4 0 2) ∧ (∃ s t, s.pkg = 0 ∧ Fabrics (.remld none .f32 .sys .rlx 0 4 0 2) s t) :=
  ⟨⟨runFar 1 [], _, .remld _ _ _ _ _ _ _ _ _ _ rfl (by decide) ⟨by decide, by decide, rfl, rfl, rfl⟩⟩,
   ⟨runFar 0 [], _, rfl, .remld _ _ _ _ _ _ _ _ _ _ rfl (by decide) ⟨by decide, by decide, rfl, rfl, rfl⟩⟩⟩
theorem wit_remst : Meets Fabrics (.remst none .f32 .sys .rlx 0 4 0 2) :=
  ⟨runFar 1 [], _, .remst _ _ _ _ _ _ _ _ _ _ _ rfl (by decide) ⟨by decide, by decide, rfl, rfl, rfl⟩ rfl⟩
theorem wit_rematom : Meets Fabrics (.rematom none .i32 .sys .rlx .cas 0 4 0 2 6) :=
  ⟨runFar 1 [], _, .rematom _ _ _ _ _ _ _ _ _ _ _ _ _ rfl (by decide) ⟨by decide, by decide, rfl, rfl, rfl⟩ rfl⟩
theorem wit_rred : Meets Fabrics (.rred none .f32 .fadd 15 4 8) :=
  ⟨runFar 0 [(8, 0x200000007), (9, 0), (10, 0x1000), (11, 1000)], _,
    .rred _ _ _ _ _ _ _ _ 7 2 0 0 _ rfl rfl ⟨by decide, by decide, by decide, by decide, by decide, by decide⟩ rfl (by decide) rfl (by decide) rfl⟩

/-- Two participants: this context and one of package 1. Their table stands at 0x1000, an empty demand row after it. -/
def runPost : State := { runFar 0 [(8, 0x1000), (9, 0x200000007), (10, 0x1010), (11, 20)] with mem := (0x1008, 1) :: tables }

/-- A release below .sys that waits for nothing ends. -/
theorem release_pkg (s : State) (h : s.releaseWaits .pkg = false) : ∃ v, s.release .pkg = .ok v := by
  simp only [State.release, h]
  exact ⟨_, rfl⟩

theorem wit_dpost : Meets Fabrics (.dpost 3 15 8) :=
  have ⟨_, e⟩ := release_pkg _ (by decide)
  ⟨runPost, _, .dpost _ _ _ _ _ 7 2 _ _ _ _ _ rfl ⟨by decide, by decide, by decide, by decide, by decide, by decide⟩ rfl rfl rfl
    ⟨⟨policy0, rfl, by decide, by decide⟩, by decide, by decide, by decide, by decide, rfl, by decide⟩ rfl e⟩

/-- An open round of two participants. -/
def roundOf (cal : Option CalBody) : Posted := ⟨0, 0, 7, 3, 0, [(0, 0, 0), (1, 0, 0)], cal, 0, false, 0, 0⟩
def oneEntry : CalBody := .calendar 0 20 1 1 [⟨100, 1, 1⟩] 500

theorem wit_xcal : Meets Fabrics (.xcal 15 8) :=
  ⟨{ runFar 0 [(8, 0x300000007), (9, 0x1000)] with posted := [roundOf none] }, _,
    .xcal _ _ _ _ _ rfl (by decide) ⟨by decide, by decide, by decide, by decide, by decide⟩ rfl rfl rfl⟩
theorem wit_xrun : Meets Fabrics (.xrun 15 8) :=
  have ⟨_, e⟩ := release_pkg _ (by decide)
  ⟨{ runFar 0 [(8, 0x300000007), (9, 0x1000), (10, 0x1000), (11, 1000)] with posted := [roundOf none] }, _,
    .xrun _ _ _ _ _ _ _ ⟨rfl, ⟨by decide, by decide⟩, ⟨by decide, by decide⟩, by decide, ⟨by decide, by decide⟩, rfl, rfl, ⟨_, rfl⟩,
      ⟨_, _, rfl, rfl, e⟩, by decide, by intro o h; cases h⟩⟩

theorem wit_fills : Meets FabricEvents (.remoteTlbFill 0 ⟨true, true, true, true, .normal⟩) ∧
    Meets FabricEvents (.remoteTlbFill 0 ⟨true, false, true, true, .normal⟩) ∧ Meets FabricEvents (.remoteTlbTimeout 0) :=
  ⟨⟨{ runFar 1 [] with rtlb := [{ farPage with reply := none }] }, _, .fill _ _ _ _ rfl rfl (by decide) ⟨rfl, rfl⟩⟩,
   ⟨{ runFar 1 [] with rtlb := [{ farPage with reply := none }] }, _, .fillFails _ _ _ _ rfl rfl (by decide) (.inr rfl)⟩,
   ⟨{ runFar 1 [] with rtlb := [{ farPage with reply := none }], time := 50000 }, _, .fillTimeout _ _ _ rfl rfl (by decide)⟩⟩

/-- A remote access from VF 0 of package 0. -/
def request (k : RemKind) : RemReq := ⟨0, 0, 0, 0, 0, 0x1000, 4, k⟩

theorem wit_arrivals : Meets FabricEvents (.remoteAccessArrival (request .load)) ∧
    Meets FabricEvents (.remoteAccessArrival (request (.store [1, 2, 3, 4]))) ∧
    (∃ s t, s.vfs = [] ∧ FabricEvents (.remoteAccessArrival (request .load)) s t) :=
  ⟨⟨runFar 1 [], _, .arrivalLoad _ _ _ _ rfl rfl rfl rfl (by decide)⟩, ⟨runFar 1 [], _, .arrivalStore _ _ _ _ _ rfl rfl rfl rfl (by decide)⟩,
   ⟨{ runFar 1 [] with vfs := [] }, _, rfl, .arrivalRefused _ _ _ rfl (by decide) rfl⟩⟩

/-- An export half on pages of kind ATOMIC_HOME. -/
def runHome : State := { runFar 1 [] with tlb := [{ exportPages with kind := .atomicHome }] }
theorem wit_arrival_fill : Meets FabricEvents (.remoteAccessArrival (request .fill)) :=
  ⟨runFar 1 [], _, .arrivalFill _ _ _ _ rfl rfl rfl⟩
theorem wit_arrival_atomic : Meets FabricEvents (.remoteAccessArrival (request (.atomic .add .i32 1 0))) :=
  ⟨runHome, _, .arrivalAtomic _ _ _ _ _ _ _ _ _ _ rfl rfl rfl ⟨rfl, rfl⟩ rfl rfl⟩

/-- A contribution of package 1. -/
def share (k : Nat) : RredMsg := ⟨7, 0, 2, k, .fadd, .f32, 1000, [], 1, 9⟩

theorem wit_contributions : Meets FabricEvents (.rredContribution (share 1)) ∧
    (∃ s t, s.rreds = [⟨7, 0, 0, [share 0]⟩] ∧ FabricEvents (.rredContribution (share 1)) s t) ∧ Meets FabricEvents (.rredTimeout 0) :=
  ⟨⟨runFar 0 [], _, .contribution _ _ (by decide) rfl (by intro y h; cases h) (by decide)⟩,
   ⟨{ runFar 0 [] with rreds := [⟨7, 0, 0, [share 0]⟩] }, _, rfl, .contributionLast _ _ (by decide) rfl (by
      intro y h
      have : y = share 0 := by simpa [instanceOf, share] using h
      subst this; decide) (by decide)⟩,
   ⟨{ runFar 0 [] with rreds := [⟨7, 0, 0, [share 0]⟩], time := 1000 }, _, .rredTimeout _ _ _ _ rfl rfl (by decide)⟩⟩
theorem wit_lost : Meets FabricEvents (.packageLost 3) := ⟨{}, _, .lost _ _ (by decide) (by decide) rfl rfl rfl⟩

/-- A row of package 1 whose Weavers are both this package's. -/
def rowOf : RowMsg := ⟨1, 0, 0, 0, 0, 7, 3, 2, 1, [], 20, 0, [0, 0]⟩
def collecting (standby : Bool) (st : RoundState) : Round := ⟨7, 3, standby, st, 0, [rowOf], [], []⟩

theorem wit_row_refused : ∃ s t, s.weavers ≠ [] ∧ FabricEvents (.weaverRowArrival false rowOf) s t :=
  ⟨{ runFar 0 [] with weavers := [(0, ⟨false, 3⟩)] }, _, by decide, .rowRefused _ _ (by decide) rfl rfl⟩
theorem wit_weaver : Meets FabricEvents (.weaverRowArrival false rowOf) ∧ Meets FabricEvents (.weaverCollectTimeout 0) ∧
    Meets FabricEvents .weaverTakeover :=
  ⟨⟨runFar 0 [], _, .row _ _ _ (by decide) rfl rfl rfl (.inr rfl)⟩,
   ⟨{ runFar 0 [] with rounds := [collecting false .collecting], time := 10000000 }, _, .collectTimeout _ _ _ rfl rfl (by decide) rfl⟩,
   ⟨{ runFar 0 [] with rounds := [collecting true .held], weavers := [(0, ⟨true, 3⟩)] }, _, .takeover _ ⟨_, List.mem_singleton.2 rfl, rfl⟩ rfl⟩⟩
theorem wit_calendar : Meets FabricEvents (.calendarArrival ⟨0, 7, 3, 0, 0, 2, 0, true, oneEntry⟩) ∧ Meets FabricEvents (.weaverQuery 0 true) :=
  ⟨⟨{ runFar 0 [] with posted := [{ roundOf none with members := [(1, 0, 0), (0, 0, 0)] }] }, _,
      .calendar _ _ _ (by decide) rfl rfl rfl (by decide) rfl rfl rfl⟩,
   ⟨{ runFar 0 [] with posted := [roundOf none], time := 100000 }, _, .query _ _ _ rfl rfl (by decide)⟩⟩

/-- A run of the round with nothing to send, some entries started. -/
def runOf (started : List (Nat × Nat)) : XrunOp :=
  { group := 7, round := 3, port := 0, timeout := 1000, cw := 0, cv := 0, issued := 0, outs := [{ dst := 1, va := 0, count := 0 }]
    ins := [{ src := 1, va := 0, cap := 0 }], started }
def runRound (x : XrunOp) (time : Nat) : State :=
  { runFar 0 [] with ops := [{ id := 5, gang := 1, vf := 0, part := 0, die := 0, live := true, cancel := false, kind := .xrun x }], nextId := 6
                     posted := [{ roundOf (some oneEntry) with ran := true }], time }

theorem wit_entries : Meets FabricEvents (.xchSlotStart 5 0) ∧ Meets FabricEvents (.xchSlotEnd 5 0) ∧ Meets FabricEvents (.xchOverflowStart 5) ∧
    Meets FabricEvents (.xrunTimeout 5) :=
  ⟨⟨runRound (runOf []) 120, _, .slotLate _ _ _ _ _ _ _ _ _ _ _ rfl rfl rfl rfl (by intro y h; cases h) (by decide) (by decide) rfl rfl⟩,
   ⟨runRound (runOf [(0, 0)]) 120, _, .slotEnd _ _ _ _ _ _ _ _ _ _ _ _ rfl rfl rfl rfl rfl (by decide) (by decide)⟩,
   ⟨runRound (runOf [(0, 0)]) 500, _, .overflow _ _ _ _ _ _ _ _ rfl rfl (by decide) (by decide) (by decide) rfl rfl⟩,
   ⟨runRound (runOf []) 1500, _, .xrunTimeout _ _ _ _ _ _ _ _ rfl rfl (by decide) (by decide)⟩⟩

/-- A run with one byte to send and one to receive, where the sender may send. -/
def runSending (started : List (Nat × Nat)) (time : Nat) : State :=
  { runRound { runOf started with outs := [{ dst := 1, va := 0x1000, count := 1 }], ins := [{ src := 1, va := 0x2000, cap := 1 }] } time with
    ctxs := [{ ctxMapped with burst := 1 }], tlb := [{ mapped none with die := 6 }] }
def oneRun : EngineOp :=
  { id := 5, gang := 1, vf := 0, part := 0, die := 0, live := true, cancel := false
    kind := .xrun { runOf [] with outs := [{ dst := 1, va := 0x1000, count := 1 }], ins := [{ src := 1, va := 0x2000, cap := 1 }] } }
theorem carried_one (s : State) (e : CalEntry) (j : XStream) (u : 0 < e.units) (h : j.left = 1) : carried s e j = 0 ∨ carried s e j = 1 := by
  unfold carried; split <;> omega

theorem wit_slot_carries : ∃ s t, s.time = 110 ∧ FabricEvents (.xchSlotStart 5 0) s t := by
  have go n bs u (h : carried (runSending [] 110) ⟨100, 1, 1⟩ { dst := 1, va := 0x1000, count := 1 } = n)
      (r : (runSending [] 110).readBuffer oneRun 0x1000 0 n = (bs, none, u)) :
      ∃ s t, s.time = 110 ∧ FabricEvents (.xchSlotStart 5 0) s t :=
    ⟨runSending [] 110, _, rfl, .slotCarries _ _ _ _ _ _ _ _ _ ⟨100, 1, 1⟩ { dst := 1, va := 0x1000, count := 1 } bs u rfl rfl rfl rfl
      (by intro y h; cases h) (by decide) (by decide) rfl rfl rfl (by decide) ⟨rfl, ⟨rfl, rfl, rfl⟩, by decide⟩ (by rw [h]; exact r)⟩
  rcases carried_one (runSending [] 110) ⟨100, 1, 1⟩ { dst := 1, va := 0x1000, count := 1 } (by decide) rfl with h | h
  · exact go _ _ _ h rfl
  · exact go _ _ _ h rfl
theorem wit_overflow_sends : ∃ s t, s.time = 500 ∧ FabricEvents (.xchOverflowStart 5) s t :=
  ⟨runSending [(0, 0)] 500, _, rfl, .overflowSends _ _ _ _ _ _ _ _ [] { dst := 1, va := 0x1000, count := 1 } [] _ _ rfl rfl (by decide) (by decide) rfl rfl
    (by intro y h; cases h) (by decide) (by decide) ⟨rfl, ⟨rfl, rfl, rfl⟩, by decide⟩ rfl⟩
theorem wit_data_placed : ∃ s t, s.ops ≠ [] ∧ FabricEvents (.xchDataArrival ⟨7, 3, 1, 0, (1, 0, 0), 0, 0, .data 0 [9]⟩) s t :=
  ⟨runSending [] 0, _, by decide, .dataPlaced _ _ _ _ _ _ _ _ (by decide) rfl rfl rfl rfl rfl ⟨rfl, rfl⟩ (by decide) (by decide) (by decide) rfl rfl⟩

theorem wit_data_gap : ∃ s t, s.ops ≠ [] ∧ FabricEvents (.xchDataArrival ⟨7, 3, 1, 0, (1, 0, 0), 0, 0, .data 32 [9]⟩) s t :=
  ⟨runSending [] 0, _, by decide, .dataGap _ _ _ _ _ _ _ (by decide) rfl rfl rfl rfl (by decide) (by decide) rfl⟩
theorem wit_marker : Meets FabricEvents (.xchDataArrival ⟨7, 3, 1, 0, (1, 0, 0), 0, 0, .marker false 0⟩) :=
  ⟨runSending [] 0, _, .marker _ _ _ _ _ _ _ (by decide) rfl rfl rfl rfl (by decide) (by decide) rfl⟩

/-- Bytes of package 1 for a round that is not open. -/
def dataOf : XchMsg := ⟨7, 3, 1, 0, (1, 0, 0), 0, 0, .data 0 [1]⟩

theorem wit_data : Meets FabricEvents (.xchDataArrival dataOf) :=
  ⟨runFar 0 [], _, .dataRefused _ _ _ _ (by decide) rfl rfl rfl (by intro c h; cases h; decide) (by decide) rfl⟩
theorem wit_dpost_timeout : Meets FabricEvents (.dpostAcknowledgeTimeout 5) :=
  ⟨{ runFar 0 [] with
      ops := [{ id := 5, gang := 1, vf := 0, part := 0, die := 0, live := true, cancel := false, kind := .dpost 7 3 true false 0 }], time := 100000 }, _,
    .dpostTimeout _ _ _ _ _ _ _ _ rfl rfl (by decide)⟩
theorem wit_package_events : Meets FabricEvents (.clockSync 0 true) ∧ Meets FabricEvents (.clockSync 0 false) ∧ Meets FabricEvents (.externalPortChange 0 false) ∧
    Meets FabricEvents (.externalPortChange 0 true) ∧ Meets FabricEvents (.heartbeat (.root 1) 2 []) ∧ Meets FabricEvents (.heartbeat .regulator 2 []) ∧
    Meets FabricEvents (.heartbeat .syncEngine 2 []) ∧ Meets FabricEvents (.heartbeat (.weaver 4) 2 []) :=
  ⟨⟨{}, _, .clock _ _ (by decide) (by decide)⟩, ⟨{}, _, .clockNot _ _ _ (.inl rfl)⟩, ⟨{}, _, .portFails _ _ (by decide) (by decide)⟩, ⟨{ badPorts := [0] }, _, .portWorks _ _ (by decide) (by decide)⟩,
   ⟨{}, _, .heartRoot _ _ _ _ (by decide)⟩, ⟨{}, _, .heartRegulator _ _ _⟩, ⟨{}, _, .heartSync _ _ _⟩, ⟨{}, _, .heartWeaver _ _ _ _ (by decide)⟩⟩
theorem wit_cancel : Meets FabricEvents (.cancelAcknowledge 5) :=
  ⟨{ runRound (runOf []) 0 with stopping := [5] }, _, .cancel _ _ _ (by decide) rfl⟩

end Sys2Proof.Tests
end

