-- ==== Sys2Proof/Tests/Roots.lean ====
section
/-! SUPPORT. Witnesses of the statements about queues, launches, contexts, gangs and grace periods: for every row of their tables, operands
and a state that meet it. A row that reads a ring's entry rests on the verdict of an uninterpreted cipher (log 10): its witness takes
that verdict, and nothing else, as given. -/
namespace Sys2Proof.Tests
open Sys2Proof Sys2Proof.Machine Sys2Proof.Statements

set_option maxRecDepth 40000

/-- A queue of context 0 with entry `n` to start, whose wait word has been read at 1 ns where `ok`. -/
def queue0 (n : Nat) (ok : Bool) : Queue := ⟨0, 2, 0, 1, 7, 4, 0xF0000, true, 1, n, [], false, none, if ok then 1 else 0, ok⟩

/-- A machine whose dies are up, quadrant 0 of die 0 in partition 0, with that queue and a page of ring. -/
def rootRun : State :=
  { ctxs := [{ ctxMapped with quota := 0x1FFFFFFFFFFFFFF }], mem := tables, queues := [queue0 0 true], bring := 4
    handles := [⟨7, 0, .memory [8], none⟩]
    gates := (Vector.replicate 24 ⟨true, 31⟩).set 0 ⟨true, 0⟩, dies := (Vector.replicate 6 {}).set 0 { present := true, mhz := 1000 } }

theorem wit_bad : Meets QueueEvents (.entryStart 0) :=
  ⟨{ rootRun with handles := [] }, _, .bad _ _ _ _ ⟨rfl, by decide, rfl, rfl, (by intro b h; cases h), rfl, (by intro c h; cases h; decide)⟩
    (by intro b h; cases h)⟩

/-- The bytes of an entry by its words. -/
def entryBytes (ws : List Nat) : List Byte := ws.flatMap (bytesOfNat 8)
def launchBytes : List Byte := entryBytes [0x1000101, 0x1000, 0x10000, 0, 0, 5, 0, 0]
def invalidateBytes : List Byte := entryBytes [2, 0, 0, 0, 0, 0, 0, 0]

/-- The same machine with a header at 0x1000: one role of one group, 8 registers, entry 0. -/
def launchRun : State := { rootRun with mem := [(0x1014, 0xE8), (0x1015, 3), (0x1018, 1), (0x1028, 1), (0x1029, 8)] ++ tables }

theorem wit_poll (h : { rootRun with queues := [queue0 0 false] }.entryAt (queue0 0 false) 0 = some launchBytes) :
    Meets QueueEvents (.waitConditionPoll 0) :=
  ⟨{ rootRun with queues := [queue0 0 false] }, _, .poll _ _ _ _ rfl (by decide) (.inl rfl) h⟩
/-- The state as the checks of the next entry begin. -/
def begun (s : State) : State :=
  ((s.touchEntry (queue0 0 true) 0).setQueue 0 2 fun q' => { q' with started := 1, lastPoll := 0, waitOk := false }).acquirePart 0

theorem wit_starts (s : State) (bs : List Byte) (e : s.entryAt (queue0 0 true) 0 = some bs) (queues : s.queues[0]? = some (queue0 0 true))
    (may : s.mayStart (queue0 0 true) = true) (order : (queue0 0 true).inOrder (some bs) = true)
    (met : (queue0 0 true).waitMet s.time = true) (runs : ∀ c, (begun s).ctx 0 0 = some c → c.state ≠ .terminated) :
    Starts s 0 (queue0 0 true) (begun s) :=
  ⟨queues, by decide, may, (by rw [show (queue0 0 true).started = 0 from rfl, e]; exact order), (by intro b _; exact .inr (.inr met)), rfl, runs⟩

/-- The header that the root reads, where it reads one. -/
theorem header_of {t : State} {q : Queue} {bs : List Byte}
    (r : (t.readHeader q.vf q.part (BitVec.ofNat 64 (field bs 8 8))).1.isSome = true)
    (fits : ((t.readHeader q.vf q.part (BitVec.ofNat 64 (field bs 8 8))).1.get r).fitsRegion (65536 * bits (field bs 0 8) 8 16) = true)
    (place : ((t.readHeader q.vf q.part (BitVec.ofNat 64 (field bs 8 8))).1.get r).placeable
      ((t.readHeader q.vf q.part (BitVec.ofNat 64 (field bs 8 8))).2.launchQuota q.vf q.part) = true) :
    ∃ u h, HeaderOk t u q bs h := ⟨_, _, by rw [Option.some_get], fits, place⟩

theorem wit_launch (h : launchRun.entryAt (queue0 0 true) 0 = some launchBytes) : Meets QueueEvents (.entryStart 0) := by
  obtain ⟨u, x, ok⟩ : ∃ u x, HeaderOk { begun launchRun with nextId := (begun launchRun).nextId + 1 } u (queue0 0 true) launchBytes x :=
    header_of (by decide) (by decide) (by decide)
  exact ⟨launchRun, _, .launch _ _ _ _ u _ x (wit_starts _ _ h rfl (by decide) (by decide) (by decide) (by intro c e; cases e; decide)) h
    ⟨by decide, by decide, by decide, by decide, by decide, .inl rfl⟩ rfl ok⟩
/-- The same with a diagnostic area. -/
def diagBytes : List Byte := entryBytes [0x1000101, 0x1000, 0x10000, 0x40000, 0, 5, 0, 0]
theorem wit_launch_diag (h : launchRun.entryAt (queue0 0 true) 0 = some diagBytes) : Meets QueueEvents (.entryStart 0) := by
  obtain ⟨ps, v, p, u, x, ok⟩ : ∃ ps v, ({ begun launchRun with nextId := (begun launchRun).nextId + 1 } : State).mapVa (rootHere 0 0) 65536
      (BitVec.ofNat 64 (field diagBytes 24 8)) 8192 (·.w) = (.ok ps, v) ∧ ∃ u x, HeaderOk v u (queue0 0 true) diagBytes x := by
    have e : ∃ ps, (({ begun launchRun with nextId := (begun launchRun).nextId + 1 } : State).mapVa (rootHere 0 0) 65536
      (BitVec.ofNat 64 (field diagBytes 24 8)) 8192 (·.w)).1 = .ok ps := ⟨_, rfl⟩
    exact ⟨_, _, Prod.ext e.choose_spec rfl, header_of (by decide) (by decide) (by decide)⟩
  have st : Starts launchRun 0 (queue0 0 true) (begun launchRun) :=
    wit_starts _ _ h rfl (by decide) (by decide) (by decide) (by intro c e; cases e; decide)
  exact ⟨launchRun, _, .launchDiag _ _ _ _ v u _ x ps st h ⟨by decide, by decide, by decide, by decide, by decide, .inl rfl⟩ (by decide) p ok⟩
theorem wit_invalidate (h : rootRun.entryAt (queue0 0 true) 0 = some invalidateBytes) : Meets QueueEvents (.entryStart 0) :=
  ⟨rootRun, _, .invalidate _ _ _ _ _ (wit_starts _ _ h rfl (by decide) (by decide) (by decide) (by intro c e; cases e; decide))
    h ⟨by decide, by decide, by decide, by decide, .inl rfl⟩ rfl⟩
def rangeBytes : List Byte := entryBytes [2, 0x10000, 0x20000, 0, 0, 0, 0, 0]
theorem wit_invalidate_range (h : rootRun.entryAt (queue0 0 true) 0 = some rangeBytes) : Meets QueueEvents (.entryStart 0) :=
  ⟨rootRun, _, .invalidateRange _ _ _ _ _ (wit_starts _ _ h rfl (by decide) (by decide) (by decide) (by intro c e; cases e; decide))
    h ⟨by decide, by decide, by decide, by decide, .inl rfl⟩ (by decide)⟩
/-- An entry whose wait word lies on no page. -/
def lostBytes : List Byte := entryBytes [2, 0, 0, 0, 0, 0, 0x400000000000000, 1]
theorem wit_unreadable (h : rootRun.entryAt (queue0 0 true) 0 = some lostBytes) : Meets QueueEvents (.entryStart 0) :=
  ⟨rootRun, _, .unreadable _ _ _ _ _ ⟨rfl, by decide, rfl, (by rw [show (queue0 0 true).started = 0 from rfl, h]; rfl),
      (by intro b _; exact .inr (.inr (by decide))), rfl, (by intro c e; cases e; decide)⟩ h (by decide) rfl⟩

/-- A launch of one gang of one group. -/
def launch0 (unplaced : List (Nat × Nat)) : Launch :=
  { id := 4, vf := 0, part := 0, q := 2, entry := 0, level := 1, gangs := 1
    hdr := ⟨0, 0, 0, 1000, 1, 0, 0, 0, [⟨0, 8, 0, 1⟩], [], 0⟩, priv := 0x10000, psize := 65536, diag := 0, tfb := 0, seed := 0, start := 0
    unplaced, stolen := [], retired := 0, status := 0, trec := false }

theorem wit_complete : Meets QueueEvents (.launchComplete 0) :=
  ⟨{ rootRun with launches := [launch0 []], queues := [queue0 1 false] }, _,
    .completes _ _ _ _ _ rfl rfl rfl (by intro o h; cases h) ⟨_, _, rfl, rfl, rfl, rfl⟩⟩
theorem wit_invalidated : ∃ s t, s.launches.map (·.inval) = [true] ∧ QueueEvents (.launchComplete 0) s t :=
  ⟨{ rootRun with launches := [{ launch0 [] with inval := true, gangs := 0 }], queues := [queue0 1 false] }, _, rfl,
    .invalidated _ _ _ _ _ rfl rfl rfl (by intro o h; cases h) (by intro o h; cases h) (by intro o h; cases h) ⟨_, _, rfl, rfl, rfl, rfl⟩⟩

/-- Shares for context 0. -/
def share0 : Share := ⟨0, 0, 0, 0, 64, 16, 0, 16, 0, 16, 0, 16, 0, 16⟩

theorem wit_admit : Meets ContextEvents (.gangAdmit 0) :=
  ⟨{ rootRun with launches := [launch0 [(0, 0)]], shares := [share0] }, _,
    .admits _ _ (launch0 [(0, 0)]) 0 0 0 ⟨⟨[], [], rfl, by intro m h; cases h⟩, rfl, by decide, by decide, rfl⟩⟩
theorem wit_retire : Meets ContextEvents (.gangRetire 1) :=
  ⟨{ gangs := [gang1] }, _, .retires _ _ _ rfl (by intro x h; cases h) (by intro x h; cases h) (by intro x h; cases h)⟩
/-- Quadrants of two dies in partition 0, die 0 holding two gangs. -/
def stealRun : State :=
  { rootRun with
    launches := [launch0 [(0, 0), (0, 1)]], shares := [share0]
    gates := ((Vector.replicate 24 ⟨true, 31⟩).set 0 ⟨true, 0⟩).set 4 ⟨true, 0⟩
    dies := ((Vector.replicate 6 {}).set 0 { present := true, mhz := 1000 }).set 1 { present := true, mhz := 1000 } }
theorem wit_steal : Meets ContextEvents (.stealRequest 1 0 4) :=
  ⟨stealRun, _, .steals 1 0 stealRun (launch0 [(0, 0), (0, 1)]) 1 rfl rfl (by decide) (by decide) (.inr rfl) (by decide) (by decide) (by decide) (by decide) rfl (by decide)⟩

/-- The context in another state. -/
def ctxRun (st : CtxState) : State := { rootRun with ctxs := [{ ctxMapped with state := st }], launches := [launch0 []] }

theorem wit_switch : Meets ContextEvents (.bankSwitch 0 0) :=
  ⟨ctxRun .resident, _, .switches _ _ { ctxMapped with state := .resident } (by decide) (by decide) rfl⟩
theorem wit_slice : Meets ContextEvents (.sliceEnd 0) ∧ (∃ s t, s.ctxs.length = 2 ∧ ContextEvents (.sliceEnd 0) s t) :=
  ⟨⟨ctxRun .active, _, .sliceGoesOn _ _ _ _ rfl rfl rfl (by decide)⟩,
   ⟨{ ctxRun .active with ctxs := [ctxMapped, { ctxMapped with vf := 1, state := .resident }], launches := [launch0 [], { launch0 [] with vf := 1 }] }, _, rfl,
    .sliceEnds _ _ _ _ rfl rfl rfl (by decide)⟩⟩
theorem wit_loaded : Meets ContextEvents (.contextLoad 0) :=
  ⟨ctxRun .loading, _, .loaded _ _ _ rfl rfl rfl (by intro v h; cases h)⟩
/-- The state of a context that is loaded into free shares. -/
def absentRun : State := { ctxRun .absent with ctxs := [{ ctxMapped with state := .absent, s1root := 0 }] }
theorem room_absent : absentRun.roomFor { ctxMapped with state := .absent, s1root := 0 } = some ⟨0, 0, 0, 0, 1, 1, 0, 0, 0, 0, 0, 0, 0, 0⟩ := by
  have f (n m : Nat) (h : m ≤ n) : firstFit n m [] = some 0 := by simp [firstFit, h]
  have e : absentRun.sizesFor { ctxMapped with state := .absent, s1root := 0 } = ⟨1, 1, 0, 0, 0, 0⟩ := by decide
  have b : absentRun.shares = [] := rfl
  simp only [State.roomFor, State.shareFor, e, b]
  simp [f, lowestFree]
  rfl
theorem wit_context_loads : ∃ s t, s.ctxs.map (·.state) = [.absent] ∧ ContextEvents (.contextLoad 0) s t :=
  ⟨absentRun, _, rfl, .loads _ _ _ _ _ rfl rfl rfl rfl rfl rfl room_absent rfl rfl⟩
/-- A SAVING context whose save area is large enough, whatever an image takes (log 27). -/
def savingRun : State :=
  { ctxRun .saving with
    ctxs := [{ ctxMapped with state := .saving, save := 7 }], gangs := [gang1], handles := [⟨7, 0, .memory (List.replicate (areaNeed 0) 9), none⟩] }
theorem area_saving : savingRun.saveArea { ctxMapped with state := .saving, save := 7 } = some ⟨7, 0, .memory (List.replicate (areaNeed 0) 9), none⟩ := by
  have n : areaNeed 0 ≤ 65536 * areaNeed 0 := by omega
  have h : savingRun.handle 7 = some ⟨7, 0, .memory (List.replicate (areaNeed 0) 9), none⟩ := rfl
  simp [State.saveArea, h, Handle.size, ctxMapped, ctx0, n]
theorem wit_save : Meets ContextEvents (.gangSave 1) :=
  ⟨savingRun, _, .saves _ _ _ _ _ _ _ _ _ rfl rfl rfl area_saving rfl (by intro e h; cases h) (by intro x h; cases h) (by intro x h; cases h) rfl rfl
    area_saving rfl⟩
/-- A saved gang, and one cluster of its quadrant with room. -/
def resumeRun : State :=
  { ctxRun .loading with
    saved := [⟨{ gang1 with shared := 1024 }, [], [], []⟩], shares := [share0]
    gangs := (List.range 9).map fun k => { gang1 with key := 20 + k, cluster := k, shared := 16384, scratch := 0 } }
theorem wit_resume : Meets ContextEvents (.gangResume 0) :=
  ⟨resumeRun, _, .resumes _ _ _ _ 0 9 0 rfl rfl rfl (by intro x h; cases h) rfl (by decide) (by decide) rfl⟩
theorem wit_resolutions : Meets ContextEvents (.savedResolutionApply 0) ∧ Meets ContextEvents .syncEngineTakeover :=
  ⟨⟨{ resolutions := [(3, 0)] }, _, .applies _ _ _ rfl⟩, ⟨{ syncEngine := ⟨true, 3⟩ }, _, .syncTakeover _ rfl (by decide)⟩⟩

/-- A context with a grace period, or a batch of one free. -/
def graceRun (g : Grace) : State := { rootRun with ctxs := [{ ctxMapped with graces := [g] }] }
def batchOf (cur : Option Nat) (st : BatchState) : Batch := { entries := [(0x9000, 0, 0xF0000), (0x9100, 0, 0xF0000)], since := 0, state := st, cur }
def batchRun (b : Batch) : State :=
  { rootRun with ctxs := [{ ctxMapped with batches := [b] }], time := 10000
                 tlb := [{ mapped none with die := 6, pages := 15 }, { mapped none with die := 6, vpage := 15, ppage := 15, pages := 1, kind := .atomicHome }] }

theorem wit_grace_periods : Meets RegulatorEvents (.gracePeriodEnd 3) ∧ Meets RegulatorEvents (.gpwaitDeadline 3) :=
  ⟨⟨graceRun ⟨3, true, [], none⟩, _, .graceEnds _ _ _ _ rfl rfl rfl⟩, ⟨graceRun ⟨3, true, [], some 0⟩, _, .deadline _ _ _ _ _ rfl rfl (by decide)⟩⟩
theorem wit_batch_closes : Meets RegulatorEvents (.batchClose 0) :=
  ⟨batchRun (batchOf none .opened), _, .batchCloses _ _ _ (batchOf none .opened) rfl (by decide) rfl (by decide)⟩
theorem wit_batch_reads : Meets RegulatorEvents (.batchPush 0) :=
  ⟨batchRun (batchOf none .pushing), _, .pushReads _ _ _ _ _ (batchOf none .pushing) [] 0x9000 0 0xF0000 [(0x9100, 0, 0xF0000)] _ _ rfl rfl rfl rfl rfl rfl rfl⟩
theorem wit_batch_pushes : ∃ s t, s.ctxs.map (·.batches) = [[batchOf (some 0) .pushing]] ∧ RegulatorEvents (.batchPush 0) s t :=
  ⟨batchRun (batchOf (some 0) .pushing), _, rfl,
    .pushes _ _ _ _ (batchOf (some 0) .pushing) [] 0x9000 0 0xF0000 [(0x9100, 0, 0xF0000)] 0 _ rfl rfl rfl rfl rfl (by decide) rfl⟩
theorem wit_takeover : Meets RegulatorEvents .regulatorTakeover := ⟨{ regulator := ⟨true, 3⟩ }, _, .takeover _ rfl (by decide)⟩

end Sys2Proof.Tests
end

