-- ==== Sys2Proof/Tests/Commands.lean ====
section
/-! SUPPORT. Witnesses of the statements about the host's commands, the BARs, power and failures: for every row of their tables, operands
and a state that meet it. The verdicts of uninterpreted ciphers (log 10) are taken as given where a row needs one. -/
namespace Sys2Proof.Tests
open Sys2Proof Sys2Proof.Machine Sys2Proof.Statements

set_option maxRecDepth 40000

/-- A package that serves, with a VF that has keys and a policy, and sessions on its first port. -/
def policy1 : Policy :=
  { policy0 with permit := 7, memq := 16, queues := [4, 4, 4, 4], ltol := 5000, kinds := [(0x20000000, 0x10000, .host)] }
def vf0' : Vf := { vf0 with secret := some (List.replicate 32 0), policy := some policy1 }
def hostRun : State :=
  { rootRun with
    vfs := [vf0'], ctxs := [], handles := []
    pfs := (Vector.replicate 2 {}).set 0 { session := true, stage := 3 } }

theorem wit_spdm_answers (k : spdmKeeps 0x81 (Config.spdmOptions 0x81 []) = true) (h : Config.spdmAccepts 0x81 [] [] = true) :
    Meets SessionEvents (.getDigests 0 []) :=
  ⟨hostRun, _, .answers _ _ _ _ _ _ _ (.digests _ _) rfl rfl k h⟩
theorem wit_spdm_version (k : spdmKeeps 0x84 (Config.spdmOptions 0x84 []) = true) (h : Config.spdmAccepts 0x84 [] [] = true) :
    Meets SessionEvents (.getVersion 0 []) :=
  ⟨hostRun, _, .version _ _ _ _ rfl rfl k h⟩
theorem wit_spdm_refuses : Meets SessionEvents (.getCapabilities 0 []) ∧ Meets SessionEvents (.negotiateAlgorithms 0 []) ∧
    Meets SessionEvents (.getDigests 1 []) ∧ Meets SessionEvents (.getCertificate 1 []) ∧ Meets SessionEvents (.challenge 1 []) ∧
    Meets SessionEvents (.getMeasurements 1 []) ∧ Meets SessionEvents (.keyExchange 0 []) ∧ Meets SessionEvents (.finish 0 []) ∧
    Meets SessionEvents (.endSession 1 []) :=
  ⟨⟨hostRun, _, .refuses _ _ _ _ _ _ _ (.capabilities _ _) rfl (.inl rfl)⟩, ⟨hostRun, _, .refuses _ _ _ _ _ _ _ (.algorithms _ _) rfl (.inl rfl)⟩,
   ⟨hostRun, _, .refuses _ _ _ _ _ _ _ (.digests _ _) rfl (.inl rfl)⟩, ⟨hostRun, _, .refuses _ _ _ _ _ _ _ (.certificate _ _) rfl (.inl rfl)⟩,
   ⟨hostRun, _, .refuses _ _ _ _ _ _ _ (.challenge _ _) rfl (.inl rfl)⟩, ⟨hostRun, _, .refuses _ _ _ _ _ _ _ (.measurements _ _) rfl (.inl rfl)⟩,
   ⟨hostRun, _, .refuses _ _ _ _ _ _ _ (.exchange _ _) rfl (.inl rfl)⟩, ⟨hostRun, _, .refuses _ _ _ _ _ _ _ (.finish _ _) rfl (.inl rfl)⟩,
   ⟨hostRun, _, .refuses _ _ _ _ _ _ _ (.endSession _ _) rfl (.inl rfl)⟩⟩
theorem wit_keys : Meets SessionEvents (.keySet 0 0 (List.replicate 32 1)) ∧ Meets SessionEvents (.keySet 0 0 (List.replicate 32 0)) ∧ Meets SessionEvents (.keySet 0 0 []) ∧
    Meets SessionEvents (.vfQuery 0 0) ∧ Meets SessionEvents (.vfQuery 0 512) ∧ Meets SessionEvents (.policySet 0 0 []) :=
  ⟨⟨hostRun, _, .keySet _ _ _ _ rfl rfl rfl rfl (by intro c h; cases h) (by intro v h; cases h; rfl) (by intro v h; cases h; decide)⟩,
   ⟨hostRun, _, .keySame _ _ _ _ _ rfl rfl rfl rfl (by intro c h; cases h) rfl rfl⟩,
   ⟨hostRun, _, .keyRefused _ _ _ _ rfl rfl rfl (.inl (by decide))⟩, ⟨hostRun, _, .query _ _ _ _ rfl rfl rfl rfl⟩,
   ⟨hostRun, _, .noSession _ _ 512 _ (.inr (.inr rfl)) rfl (.inr (by decide))⟩, ⟨hostRun, _, .policyBad _ _ _ _ rfl rfl rfl rfl⟩⟩

/-- Bytes given by a function that is 0 from their end on. -/
theorem bytes_at (n : Nat) (f : Nat → Byte) (z : ∀ i, n ≤ i → f i = 0) (i : Nat) : ((List.range n).map f).getD i 0 = f i := by
  by_cases h : i < n
  · simp [h]
  · simp [h, z i (by omega)]

/-- A policy of version 2 with no queue, slices of 10 µs, walls of 20 µs, a tolerance of 1 µs. -/
def policyByte (i : Nat) : Byte :=
  if i < 9 then (if i = 0 then 1 else if i = 8 then 2 else 0)
  else if i < 112 ∨ 138 ≤ i then 0 else [0x10, 0x27, 0, 0, 0, 0, 0, 0, 0x20, 0x4E].getD (i - 112) (if i = 136 then 0xE8 else if i = 137 then 3 else 0)
def policyBytes : List Byte := (List.range 832).map policyByte
theorem policy_fields : ∃ p, policyOfBytes policyBytes = some p ∧ 0 < p.version := by
  have l : policyBytes.length = 832 := by simp [policyBytes]
  have k : kindsEntry policyBytes = fun k => kindsEntry policyBytes k := rfl
  have g := fun i => bytes_at 832 policyByte (fun i h => by simp [policyByte, show ¬i < 9 by omega, show i < 112 ∨ 138 ≤ i by omega]) i
  unfold policyOfBytes
  rw [k, l]
  simp only [policyBytes, kindsEntry, field, slice, g]
  exact ⟨_, rfl, by decide⟩
theorem wit_policy (h : ∀ p, Config.sm2Verify p (slice policyBytes 0 768) (slice policyBytes 768 64) = true) :
    Meets SessionEvents (.policySet 0 0 policyBytes) :=
  have ⟨_, e, v⟩ := policy_fields
  ⟨{ hostRun with vfs := [] }, _, .policySet _ _ _ _ _ rfl rfl rfl e (h _) (by intro v e; cases e) (by intro q e; cases e) v⟩

/-- Handle 7 of page 9, or of enough pages for a ring or a save area. -/
def handleRun (h : HandleKind) : State := { hostRun with handles := [⟨7, 0, h, none⟩] }
/-- That context in a state. -/
def hostCtx (s : State) (st : CtxState) : State := { s with ctxs := [{ ctxMapped with state := st, quota := 0, kinds := [] }] }

theorem wit_alloc : Meets Commands (.alloc 0 3 0 2 false 0) :=
  ⟨hostRun, _, .alloc _ _ _ _ _ _ _ _ _ policy1 ⟨rfl, rfl, rfl⟩ rfl (by decide) (by decide) rfl rfl (by decide) rfl rfl⟩
theorem wit_hwin : Meets Commands (.hwin 0 3 0 0 0x100000 1) :=
  ⟨hostRun, _, .hwin _ _ _ _ _ _ _ _ policy1 ⟨rfl, rfl, rfl⟩ rfl (by decide) rfl rfl (by decide) (by decide) (by decide) (by decide)⟩
theorem wit_free : Meets Commands (.free 0 3 7) :=
  ⟨handleRun (.memory [9]), _, .free _ _ _ _ _ _ _ _ _ ⟨rfl, rfl, rfl⟩ rfl rfl rfl rfl (by intro m h; cases h) rfl rfl⟩
/-- A page of memory mapped, and a page of a host window. -/
theorem wit_map : Meets Commands (.map 0 3 0 0 7 0x50000 0 65536) :=
  ⟨hostCtx (handleRun (.memory [9])) .resident, _,
    .map 0 3 0 0 7 0x50000 0 _ _ _ _ _ _ (fun _ => 9) ⟨rfl, rfl, rfl⟩ rfl (by decide) (by decide) (by decide) (by decide) rfl (by decide)
      rfl (by decide) (.inl rfl) rfl (by decide) (.page _ _ _ _ _ _ _ rfl rfl (.done _))⟩
theorem wit_map_host : Meets Commands (.map 0 3 0 0 7 0x20000000 0 65536) :=
  ⟨{ hostCtx (handleRun (.window 0 0 65536 Config.hostAperture)) .resident with
      ctxs := [{ ctxMapped with state := .resident, quota := 0, kinds := [(0x20000000, 0x10000, .host)] }] }, _,
    .map 0 3 0 0 7 0x20000000 0 _ _ _ _ _ _ (fun i => Config.hostAperture / 65536 + i) ⟨rfl, rfl, rfl⟩ rfl (by decide) (by decide) (by decide) (by decide) rfl
      (by decide) rfl (by decide) (.inl rfl) rfl
      (by intro i h
          have : i = 0 := by omega
          subst this; rfl)
      (.page _ _ _ _ _ _ _ rfl rfl (.done _))⟩
theorem wit_unmap : Meets Commands (.unmap 0 3 0 0 0x50000 65536) :=
  ⟨hostRun, _, .unmap _ _ _ _ _ _ _ _ ⟨rfl, rfl, rfl⟩ rfl (by decide) (by decide) (by decide) rfl⟩
theorem wit_qcreate : Meets Commands (.qcreate 0 3 0 0 2 1 7 4 0xF0000 true) :=
  ⟨{ hostCtx (handleRun (.memory [9, 10, 11, 12, 13])) .resident with
      tlb := [{ mapped none with die := 6, kind := .atomicHome }], queues := [] }, _,
    .qcreate _ _ _ _ _ _ _ _ _ _ _ _ _ _ policy1 ⟨rfl, rfl, rfl⟩ rfl (by decide) (by decide) (by decide) (by decide) (by decide) rfl rfl rfl (by decide) rfl rfl
      (by decide) rfl rfl⟩
theorem wit_qdestroy : Meets Commands (.qdestroy 0 3 0 2) :=
  ⟨hostRun, _, .qdestroy _ _ _ _ _ _ _ rfl rfl rfl rfl (by decide) rfl rfl (by decide)⟩
theorem wit_pauses : Meets Commands (.pause 0 3 0 0) ∧ Meets Commands (.unpause 0 3 0 0) :=
  ⟨⟨hostCtx hostRun .active, _, .pause _ _ _ _ _ _ _ _ ⟨rfl, rfl, rfl⟩ rfl (by decide) rfl rfl rfl rfl⟩,
   ⟨hostCtx hostRun .active, _, .unpause _ _ _ _ _ _ _ ⟨rfl, rfl, rfl⟩ rfl (by decide) rfl rfl rfl⟩⟩
theorem wit_evict : Meets Commands (.evict 0 3 0 0) :=
  ⟨{ hostCtx hostRun .resident with gangs := [gang1] }, _,
    .evict _ _ _ _ _ _ _ _ ⟨rfl, rfl, rfl⟩ rfl (by decide) rfl rfl rfl rfl rfl ⟨gang1, by decide, by decide⟩ (by decide)⟩
theorem wit_resize : Meets Commands (.resize 0 3 0 0 0) :=
  ⟨hostCtx hostRun .absent, _,
    .resize _ _ _ _ _ _ _ _ _ policy1 ⟨rfl, rfl, rfl⟩ rfl (by decide) (by decide) rfl rfl rfl rfl rfl rfl rfl (.inl rfl) (by decide)⟩
theorem wit_partition : Meets Commands (.partition 0 3 0 0 0) ∧ Meets Commands (.partition 0 3 0 0 5) ∧
    (∃ s t, s.ctxs.map (·.state) = [.resident] ∧ Commands (.partition 0 3 0 0 5) s t) :=
  ⟨⟨hostRun, _, .partitionStays _ _ _ _ _ _ _ ⟨rfl, rfl, rfl⟩ (by decide) (by decide) (by decide) rfl rfl (by intro c h; cases h)⟩,
   ⟨hostRun, _, .partition _ _ _ _ _ _ _ _ ⟨rfl, rfl, rfl⟩ (by decide) (by decide) (by decide) rfl rfl (by decide) (by intro c h; cases h)⟩,
   ⟨hostCtx hostRun .resident, _, rfl, .partition _ _ _ _ _ _ _ _ ⟨rfl, rfl, rfl⟩ (by decide) (by decide) (by decide) rfl rfl (by decide) (by decide)⟩⟩
theorem wit_reset : Meets Commands (.reset 0 3 0 0) ∧ Meets Commands (.setltol 0 3 0 100) :=
  ⟨⟨hostCtx hostRun .terminated, _, .reset _ _ _ _ _ _ _ ⟨rfl, rfl, rfl⟩ rfl (by decide) rfl rfl⟩,
   ⟨hostRun, _, .setltol _ _ _ _ _ _ policy1 ⟨rfl, rfl, rfl⟩ rfl rfl rfl (by decide)⟩⟩
theorem wit_dumpget : Meets Commands (.dumpget 0 3 0 0x100) :=
  ⟨{ hostRun with dump := some ⟨1, 0, [(true, 0, [1])]⟩ }, _, .dumpget _ _ _ _ _ _ _ _ _ ⟨rfl, rfl, rfl⟩ rfl rfl⟩
theorem wit_savearea : Meets Commands (.savearea 0 3 0 0 7) :=
  ⟨hostCtx (handleRun (.memory (List.replicate (areaNeed 0) 9))) .resident, _,
    .savearea _ _ _ _ _ _ _ _ _ _ ⟨rfl, rfl, rfl⟩ rfl (by decide) rfl rfl rfl rfl (by decide)
      (by have n : areaNeed 0 ≤ 65536 * areaNeed 0 := by omega
          simpa [Handle.size] using n)⟩
theorem wit_other_port : Meets Commands (.pause 1 3 0 0) ∧ Meets Commands (.hwin 1 3 0 0 0 1) ∧ Meets Commands (.savearea 1 3 0 0 7) :=
  ⟨⟨hostRun, _, .otherPort _ _ _ _ _ _ _ _ (.inr (.inr (.inr (.inr (.inl ⟨_, rfl, rfl, rfl⟩))))) ⟨rfl, rfl, rfl⟩ (by decide)⟩,
   ⟨hostRun, _, .otherPort _ _ _ _ _ _ _ _ (.inr (.inl ⟨_, _, _, rfl, rfl, rfl⟩)) ⟨rfl, rfl, rfl⟩ (by decide)⟩,
   ⟨hostRun, _, .otherPort _ _ _ _ _ _ _ _ (.inr (.inr (.inr (.inr (.inr (.inr (.inr (.inr (.inr ⟨_, _, rfl, rfl, rfl⟩))))))))) ⟨rfl, rfl, rfl⟩ (by decide)⟩⟩
theorem wit_busy : Meets Commands (.free 0 3 7) ∧ Meets Commands (.qdestroy 0 3 0 2) :=
  ⟨⟨{ hostRun with pfs := (Vector.replicate 2 {}).set 0 { done := false } }, _, .busy _ 0 3 _ (.inr (.inl ⟨7, rfl⟩)) rfl⟩,
   ⟨{ hostRun with pfs := (Vector.replicate 2 {}).set 0 { done := false } }, _, .busy _ 0 3 _ (.inr (.inr (.inr ⟨0, 2, rfl⟩))) rfl⟩⟩

theorem wit_doorbells : Meets BarWrites (.doorbell 0 2 16) ∧ Meets BarWrites (.doorbell 0 2 17) ∧ Meets BarWrites (.doorbell 0 2 1) :=
  ⟨⟨hostRun, _, .doorbell _ _ _ _ _ rfl rfl rfl (by decide) (by decide)⟩, ⟨hostRun, _, .doorbellOver _ _ _ _ _ rfl rfl rfl (by decide) (by decide)⟩,
   ⟨hostRun, _, .doorbellOld _ _ _ _ _ rfl (by decide)⟩⟩
theorem wit_bars : Meets BarWrites (.qstatWrite 0 2 2) ∧ Meets BarWrites (.qstatWrite 0 2 1) ∧ Meets BarWrites (.loadRecord 0 0 (List.replicate 512 0)) ∧
    Meets BarWrites (.lstatRead 0x1000) ∧ Meets BarWrites (.registerWrite 0 4 0x100003 [1]) ∧ Meets BarWrites (.registerWrite 0 2 8 [1]) :=
  ⟨⟨hostRun, _, .qstat _ _ _ _ rfl rfl⟩, ⟨hostRun, _, .qstatZero _ _ _ _ rfl⟩, ⟨hostRun, _, .loadOld _ _ _ _ _ rfl (by decide) rfl (by decide)⟩,
   ⟨hostRun, _, .lstat 0 _ _ rfl (by decide) rfl⟩, ⟨handleRun (.memory [9]), _, .ring _ _ _ _ _ _ rfl (by decide) rfl rfl (by decide)⟩,
   ⟨hostRun, _, .dropped _ _ _ _ _ (by decide) (by decide)⟩⟩
theorem wit_bar2 : Meets BarWrites (.lstatRead 0x1010) ∧ Meets BarWrites (.lstatRead 0x91000) ∧ Meets BarWrites (.lstatRead 0x810) ∧
    Meets BarWrites (.lstatRead 0x1008) ∧ Meets BarWrites (.loadRecord 9 0 (List.replicate 512 0)) :=
  ⟨⟨hostRun, _, .lerr 0 _ _ rfl (by decide) rfl⟩, ⟨hostRun, _, .nothingYet 9 0x1000 _ rfl (by decide) rfl (.inl rfl)⟩,
   ⟨hostRun, _, .qstatRead 0 2 _ _ rfl (by decide) (by decide) rfl⟩, ⟨hostRun, _, .service 0 _ rfl (by decide)⟩,
   ⟨hostRun, _, .loadForeign _ _ _ _ rfl (by decide) (by intro h e; cases e)⟩⟩
/-- A mailbox that holds a command: an opcode and its operands. -/
def mailRun (op : Nat) (l : List Nat) : State :=
  { hostRun with pfs := (Vector.replicate 2 {}).set 0 { command := mailWords op 3 l } }
theorem wit_mailbox : Meets BarWrites (.registerWrite 1024 0 0x2000 [1]) ∧ Meets BarWrites (.registerWrite 1024 0 0x2080 [1]) ∧
    (∃ s t, (s.pf 0).command = mailWords 99 3 [] ∧ BarWrites (.registerWrite 1024 0 0x2080 [1]) s t) :=
  ⟨⟨hostRun, _, .command 0 0 _ _ rfl (by decide) (by decide)⟩,
   ⟨mailRun 8 [0, 0], _, .gives 0 8 (.pause 0 3 0 0) _ _ rfl (by decide) .pause rfl rfl⟩,
   ⟨mailRun 99 [], _, rfl, .unknown 0 _ (by decide) rfl rfl (.inr (by decide))⟩⟩
/-- A record with counter 1, for handle 7. -/
def recordByte (i : Nat) : Byte := if i = 272 then 1 else if i = 280 then 7 else 0
def recordBytes : List Byte := (List.range 512).map recordByte
theorem record_fields : field recordBytes 272 8 = 1 ∧ field recordBytes 280 8 = 7 ∧ field recordBytes 288 8 = 0 ∧ field recordBytes 296 216 = 0 := by
  simp only [recordBytes, field, slice,
    bytes_at 512 recordByte (fun i h => by simp [recordByte, show i ≠ 272 by omega, show i ≠ 280 by omega])]
  exact ⟨rfl, rfl, rfl, rfl⟩
theorem wit_load (p : List Byte) (h : Config.gcmOpen ((handleRun (.memory [9])).vfKey 0 labelLoad) (bytesOfNat 2 0 ++ [2, 0] ++ bytesOfNat 8 1)
      (slice recordBytes 280 8 ++ slice recordBytes 288 8 ++ slice recordBytes 272 8) (slice recordBytes 0 256) (slice recordBytes 256 16) = some p) :
    Meets BarWrites (.loadRecord 0 0 recordBytes) :=
  have ⟨c, d, e, f⟩ := record_fields
  ⟨handleRun (.memory [9]), _, .load _ _ _ _ vf0' ⟨7, 0, .memory [9], none⟩ p rfl (by decide) rfl (by decide) (by simp [recordBytes]) (by rw [c]; decide) (by rw [e]) f
    (by rw [d]; rfl) (by rw [c]; exact h) rfl (by rw [e]; decide)⟩

/-- One die with nothing to do, four quadrants in partition 31. -/
def idleRun (x : Die) : State := { bring := 4, dies := (Vector.replicate 6 {}).set 0 x, ctxs := [{ ctx0 with part := 3, state := .resident }] }
def here : Die := { present := true, mhz := 500 }

theorem wit_power_low : Meets PowerEvents (.powerStateChange (.die 0)) :=
  ⟨{ idleRun here with
      ctxs := [{ ctx0 with state := .resident }], gates := (Vector.replicate 24 ⟨true, 31⟩).set 0 ⟨true, 0⟩
      vfs := [{ vf0 with policy := some policy1 }] }, _, .low _ _ (by decide) rfl rfl rfl rfl rfl⟩
theorem wit_power_leaves : ∃ s t, (s.die 0).power = .low ∧ PowerEvents (.powerStateChange (.die 0)) s t :=
  ⟨{ idleRun { here with power := .low } with
      ctxs := [{ ctx0 with state := .resident }], gates := (Vector.replicate 24 ⟨true, 31⟩).set 0 ⟨true, 0⟩, launches := [launch0 []] }, _, rfl,
    .dieLeaves _ _ (by decide) rfl rfl rfl (by decide) rfl⟩
theorem wit_power_gate : Meets PowerEvents (.powerStateChange (.quadrant 0 1)) ∧ Meets PowerEvents (.powerStateNotice 0 1 true) :=
  ⟨⟨idleRun { here with idlePorts := [1] }, _, .gates _ _ _ (by decide) rfl rfl rfl (by decide) (by decide) rfl rfl (by decide)⟩,
   ⟨idleRun here, _, .portStops _ _ _ rfl (by decide) (.inr rfl) (by decide)⟩⟩
theorem wit_stacks : Meets PowerEvents (.powerStateChange (.stack 3)) ∧ (∃ s t, s.srefStacks = [3] ∧ PowerEvents (.powerStateChange (.stack 3)) s t) ∧
    Meets PowerEvents (.powerExitComplete (.stack 3)) :=
  ⟨⟨{ idleRun here with time := 50000 }, _, .stackSleeps _ _ (by decide) rfl (by decide) (by decide) ⟨0, rfl, by decide⟩ (by decide)⟩,
   ⟨{ idleRun here with
      srefStacks := [3], ctxs := [{ ctx0 with state := .resident }], gates := (Vector.replicate 24 ⟨true, 31⟩).set 0 ⟨true, 0⟩
      vfs := [{ vf0 with policy := some policy1 }] }, _, rfl, .stackLeaves _ _ (by decide) rfl (by decide) (by decide)⟩,
   ⟨{ idleRun here with srefStacks := [3], wake := [(.stack 3, 0)] }, _, .stackUp _ _ rfl⟩⟩
theorem wit_power_up : Meets PowerEvents (.powerExitComplete (.quadrant 0 1)) ∧ Meets PowerEvents (.powerStateNotice 0 1 false) ∧
    Meets PowerEvents (.throttling 0 300) :=
  ⟨⟨{ idleRun here with wake := [(.quadrant 0 1, 0)] }, _, .quadUp _ _ _ rfl (by decide)⟩,
   ⟨{ idleRun here with wake := [(.quadrant 0 1, 0)] }, _, .portReturns _ _ _ rfl (by decide) (.inr rfl)⟩, ⟨idleRun here, _, .throttles _ _ _ rfl⟩⟩
/-- The signatures verify, or they do not. -/
theorem wit_bring : (Config.firmwareSigned 0 = true → Meets PowerEvents .powerGood) ∧ (Config.firmwareSigned 0 = false → Meets PowerEvents .powerGood) ∧
    (∃ s t, s.bring = 1 ∧ PowerEvents .powerGood s t) ∧ (∃ s t, s.bring = 2 ∧ PowerEvents .powerGood s t) ∧
    (∃ s t, s.bring = 3 ∧ PowerEvents .powerGood s t) ∧ Meets PowerEvents (.calibrationEnd 0) :=
  ⟨fun h => ⟨State.reset, _, .bring0 _ rfl h⟩, fun h => ⟨State.reset, _, .unsigned _ rfl h⟩, ⟨{ bring := 1 }, _, rfl, .bring1 _ rfl rfl⟩,
   ⟨{ bring := 2 }, _, rfl, .bring2 _ rfl⟩, ⟨{ bring := 3 }, _, rfl, .bring3 _ rfl⟩, ⟨idleRun here, _, .calibrated _ _ (by decide) rfl rfl⟩⟩
theorem wit_failures : Meets PowerEvents (.rootTakeover 0) ∧ Meets PowerEvents (.fatalError 2) ∧
    (∃ s t, s.vfs ≠ [] ∧ PowerEvents (.fatalError 2) s t) ∧ (∃ s t, s.fatal = true ∧ PowerEvents (.fatalError 2) s t) ∧ Meets PowerEvents .packageReset :=
  ⟨⟨{ roots := ⟨true, 3⟩ }, _, .takeover _ _ (by decide) (by decide) rfl rfl rfl rfl⟩, ⟨{}, _, .fatal _ _ rfl (by decide)⟩,
   ⟨hostRun, _, by decide, .fatal _ _ rfl (by decide)⟩, ⟨{ fatal := true }, _, rfl, .fatalAgain _ _ rfl⟩, ⟨{}, _, .reset _⟩⟩
theorem wit_takeover_busy : ∃ s t, (s.pf 0).done = false ∧ PowerEvents (.rootTakeover 0) s t :=
  ⟨{ hostRun with roots := ⟨true, 3⟩, pfs := (Vector.replicate 2 {}).set 0 { done := false }, queues := [{ queue0 0 true with dying := some (0, 3) }] }, _, rfl,
    .takeoverBusy _ _ _ _ _ (by decide) (by decide) rfl rfl rfl rfl rfl rfl rfl⟩

end Sys2Proof.Tests
end

