-- ==== Sys2Proof/Tests/Control.lean ====
section
/-! SUPPORT. Witnesses of the statements about control flow and system registers: for every row of their tables, operands and a state
that meet it. -/
namespace Sys2Proof.Tests
open Sys2Proof Sys2Proof.Machine Sys2Proof.Statements

/-- Predicate 0 true in the lanes of a mask. -/
def runPred (m : LaneMask) : State := run.setRp 0 m

/-- A group whose slot B holds another path. -/
def runBoth : State := (runPred 1).setGrp fun g => { g with slotB := { occ := true, mask := 0 } }

/-- A path with a pending join. -/
def runJoin : State := run.setSlot fun x => { x with pj := some 0x10040 }

/-- A path with a caller. -/
def runCalled (f : Frame) : State := run.setSlot fun x => { x with depth := 1, frames := [f] }
def callerFrame : Frame := { ret := 0x10040, fb := 0x20100, fsize := 8, wbase := 0, resident := true, rows := [] }

/-- A gang with a handler. -/
def runHandled : State := { run with gangs := [{ key := 1, trapEntry := 0x40 }] }

/-- A dispatch table of one entry at 0x30000, which leads to 0x10080. -/
def runTable : State :=
  { run with grp := { run.grp with dtb := 0x30000, dtl := 1 }, mem := [(0x30000, 0x80), (0x30002, 0x01)] }

theorem wit_branches :
    Meets Control (.br .always (-1)) ∧ Meets Control (.br (.nz 5) 1) ∧ Meets Control (.br (.z 63) 1) ∧
    Meets Control (.brd ⟨false, 0⟩ 2 3) ∧ (∃ s t, s.active (some ⟨false, 0⟩) ≠ 0 ∧ Control (.brd ⟨false, 0⟩ 2 3) s t) :=
  ⟨⟨run, _, .br _ _⟩, ⟨runWith [(5, 1)], _, .brNz _ _ _ (by decide)⟩, ⟨run, _, .brZ _ _ _ (by decide)⟩,
   ⟨run, _, .brdNone _ _ _ _ (by decide)⟩, ⟨runPred 0xFFFFFFFF, _, by decide, .brdAll _ _ _ _ (by decide) (by decide)⟩⟩
theorem wit_branches_not : Meets Control (.br (.nz 5) 1) ∧ Meets Control (.br (.z 5) 1) :=
  ⟨⟨run, _, .brNzNot _ _ _ (by decide)⟩, ⟨runWith [(5, 1)], _, .brZNot _ _ _ (by decide)⟩⟩
theorem wit_split : Meets Control (.brd ⟨false, 0⟩ 2 3) := ⟨runPred 1, _, .brdSplit _ _ _ _ (by decide) (by decide) rfl rfl⟩
theorem wit_split_coil : Meets Control (.brd ⟨false, 0⟩ 2 3) :=
  ⟨runBoth, _, .brdCoil _ _ _ _ _ (by decide) (by decide) (.inl rfl) rfl⟩
theorem wit_calls : Meets Control (.call 4) ∧ Meets Control (.enter 1) ∧ Meets Control .ret ∧ Meets Control (.jts 5) ∧
    Meets Control (.calltScalar 5) ∧ Meets Control (.calltScalarW1 5) :=
  ⟨⟨run, _, .call _ _ _ rfl rfl⟩, ⟨run, _, .enter _ _ _ rfl rfl⟩, ⟨runCalled callerFrame, _, .ret _ _ _ rfl rfl rfl rfl (by decide) rfl⟩,
   ⟨runTable, _, .jts _ _ _ _ rfl⟩, ⟨runTable, _, .calltScalar _ _ _ _ _ rfl rfl rfl⟩, ⟨runTable, _, .calltScalarW1 _ _ _ _ _ rfl rfl rfl⟩⟩

/-- A table for lanes: one lane selected by the guard. -/
def runLanes : State := runTable.setRp 7 1

theorem wit_dispatch_lanes : Meets Control (.jtv 11) ∧ Meets Control (.jtvW1 (some ⟨false, 7⟩) 11) ∧ Meets Control (.calltLane 11) ∧
    Meets Control (.calltLaneW1 (some ⟨false, 7⟩) 11) :=
  ⟨⟨runLanes, _, .jtv _ _ _ _ _ rfl rfl rfl⟩, ⟨runLanes, _, .jtvW1 _ _ _ _ _ _ rfl rfl rfl⟩,
   ⟨runLanes, _, .calltLane _ _ _ _ _ rfl rfl rfl rfl rfl⟩, ⟨runLanes, _, .calltLaneW1 _ _ _ _ _ _ rfl rfl rfl rfl rfl⟩⟩
theorem wit_ret_fills : Meets Control .ret :=
  ⟨runCalled { callerFrame with resident := false }, _, .retFill _ _ _ _ _ rfl rfl (by decide) rfl rfl⟩
theorem wit_exit : Meets Control .exit ∧ (∃ s j t, s.slot.pj = some j ∧ Control .exit s t) ∧
    (∃ s t, s.grp.live &&& ~~~s.slot.mask ≠ 0 ∧ Control .exit s t) :=
  ⟨⟨run, _, .exitLast _ rfl rfl⟩,
   ⟨runJoin.setSlot fun x => { x with mask := 1 }, _, _, rfl, .exitJoin _ _ rfl (by decide) rfl⟩,
   ⟨run.setSlot fun x => { x with mask := 1 }, _, by decide, .exitFree _ rfl (by decide) rfl⟩⟩
theorem wit_plain : Meets Control .nop ∧ Meets Control .yield ∧ Meets Control (.trap 511) ∧ Meets Control (.svc 0) :=
  ⟨⟨run, _, .nop _⟩, ⟨run, _, .yield _⟩, ⟨runHandled, _, .trap _ _ ⟨rfl, by decide, rfl, rfl⟩⟩,
   ⟨runHandled, _, .svc _ _ ⟨rfl, by decide, rfl, rfl⟩⟩⟩

/-- The same with a result of another package outstanding. -/
def runFarResult : State :=
  runHandled.setGrp fun g => { g with
    outst := [{ id := 1, tags := { a := true }, cnt := .ld, pos := 0, regs := 1, pc := 0, pend := 1, full := 1
                lanes := [{ lane := 0, ea := 0, pieces := [] }], kind := .remote .b32 false none }] }
theorem wit_trap_drains : (∃ s t, s.mustWait = true ∧ Control (.trap 511) s t) ∧ (∃ s t, s.mustWait = true ∧ Control (.svc 0) s t) :=
  ⟨⟨runFarResult, _, rfl, .trapDrains _ _ ⟨rfl, by decide, rfl⟩⟩, ⟨runFarResult, _, rfl, .svcDrains _ _ ⟨rfl, by decide, rfl⟩⟩⟩

/-- A group in trap mode, its frame at 0x40000: slot A at word 1 with lane 0. -/
def runTrapped : State :=
  { run.setGrp fun g => { g with trap := some { fa := 0x40000, slotA := path, slotB := {}, sjoin := none, sl := 0 } } with
    mem := [(0x40048, 1), (0x4004C, 1)], tlb := [{ mapped none with kind := .atomicHome }] }

theorem wit_sset :
    Meets System (.sset .sp 5) ∧ Meets System (.sset .sl 5) ∧ Meets System (.sset .tfp 5) ∧ Meets System (.sset .rngk 5) ∧
    Meets System (.sset .rngc 5) ∧ Meets System (.sset .fmode 5) :=
  ⟨⟨runWith [(5, 0x80)], _, .sset _ _ _ _ (.sp _ _ rfl)⟩, ⟨runWith [(5, 0x1000)], _, .sset _ _ _ _ (.sl _ _ rfl (by decide))⟩,
   ⟨runWith [(5, 0x80)], _, .sset _ _ _ _ (.tfp _ _ rfl)⟩, ⟨run, _, .sset _ _ _ _ (.rngk _ _)⟩, ⟨run, _, .sset _ _ _ _ (.rngc _ _)⟩,
   ⟨runWith [(5, 0x1FD)], _, .sset _ _ _ _ (.fmode _ _ (by decide) (by decide))⟩⟩
theorem wit_exset : Meets System (.exset 5) ∧ (∃ s t, s.slot.mask &&& (s.rs 5).extractLsb' 0 32 ≠ s.slot.mask ∧ System (.exset 5) s t) :=
  ⟨⟨runWith [(5, 0xFFFFFFFF)], _, .exsetSame _ _ rfl⟩,
   ⟨runJoin.setRs 5 1, _, by decide, .exset _ _ _ _ (by decide) (by decide) rfl rfl⟩⟩
theorem wit_trap_mode : Meets System (.tget 5 511) := ⟨runTrapped, _, .tget _ _ _ _ _ _ rfl rfl rfl⟩
set_option maxRecDepth 100000 in
theorem wit_rett : Meets System .rett := ⟨runTrapped, _, .rett _ _ _ rfl rfl rfl rfl rfl rfl rfl rfl rfl rfl⟩
theorem wit_waits : Meets System (.rdtime 63) ∧ Meets System (.waitc 15) ∧ Meets System (.sleep 5 6) ∧
    (∃ s t, s.rs 6 ≠ 0 ∧ System (.sleep 5 6) s t) ∧ Meets System .sleepDeadline :=
  ⟨⟨run, _, .rdtime _ _ rfl⟩, ⟨run, _, .waitc _ _ (fun _ => rfl) (fun _ => rfl) (fun _ => rfl) fun _ => rfl⟩, ⟨run, _, .sleepZero _ _ _ rfl⟩,
   ⟨runWith [(6, 0xFFFFFFFFFFFFFFFF)], _, by decide, .sleep _ _ _ (by decide)⟩,
   ⟨(run.setSlot fun x => { x with ibuf := some ⟨0x10000, [15]⟩ }).park (.sleep 5 0), _, .wakes 5 0 _ rfl (by decide) rfl (by decide) rfl⟩⟩
/-- A path that RETT has resumed asleep: at word 4 of its bundle, or past its last word. -/
def runAsleep (k : Nat) : State :=
  (run.setSlot fun x => { x with ibuf := some ⟨0x10000, [7]⟩, idx := k, moved := true }).park (.sleep 5 0)
theorem wit_wakes_moved : (∃ s t, s.slot.idx = 4 ∧ System .sleepDeadline s t) ∧ (∃ s t, s.slot.idx = 8 ∧ System .sleepDeadline s t) :=
  ⟨⟨runAsleep 4, _, rfl, .wakesAt 5 0 _ rfl (by decide) rfl (by decide) rfl (by decide)⟩,
   ⟨runAsleep 8, _, rfl, .wakesNext 5 0 _ rfl (by decide) rfl (by decide) rfl (by decide)⟩⟩
theorem wit_exit_trap : ∃ s t, s.grp.trap ≠ none ∧ Control .exit s t := ⟨runTrapped, _, by decide, .exitTrap _ (by decide)⟩
theorem wit_random : Meets System (.rngseed 5 6) ∧ Meets System (.rngskip 5) ∧ Meets System (.rng true 11) ∧
    Meets System (.rngW1 (some ⟨true, 7⟩) false 11) :=
  ⟨⟨run, _, .rngseed _ _ _⟩, ⟨run, _, .rngskip _ _⟩, ⟨run, _, .rng _ _ _ rfl⟩, ⟨run, _, .rngW1 _ _ _ _ rfl⟩⟩

end Sys2Proof.Tests
end

