-- ==== Sys2Proof/Tests/Decode.lean ====
section
/-! SUPPORT. The decoding of every instruction, on words written out from the spec's tables (R8, R11, R13 to R17, R42 to R54): the fields of
a base word are LEN + 4·U + 8·OP + 2^10·D + 2^16·A + 2^22·B + 2^28·M, those of W1 as R13 places them. -/
namespace Sys2Proof.Tests
open Sys2Proof

set_option maxRecDepth 20000

theorem decode_scalar1 :
    decodeWords [0x01882808] = .ok (.sadd 10 8 6) ∧
    decodeWords [0x0008280A, 0x89ABCDEF, 0x01234567] = .ok (.saddLit 10 8 0x0123456789ABCDEF) ∧
    decodeWords [0x01882810] = .ok (.ssub 10 8 6) ∧
    decodeWords [0x00082812, 0x89ABCDEF, 0x01234567] = .ok (.ssubLit 10 8 0x0123456789ABCDEF) ∧
    decodeWords [0x01882818] = .ok (.smul 10 8 6) ∧
    decodeWords [0x0008281A, 0x89ABCDEF, 0x01234567] = .ok (.smulLit 10 8 0x0123456789ABCDEF) ∧
    decodeWords [0x01882828] = .ok (.sand 10 8 6) ∧
    decodeWords [0x0008282A, 0x89ABCDEF, 0x01234567] = .ok (.sandLit 10 8 0x0123456789ABCDEF) ∧
    decodeWords [0x01882830] = .ok (.sor 10 8 6) ∧
    decodeWords [0x00082832, 0x89ABCDEF, 0x01234567] = .ok (.sorLit 10 8 0x0123456789ABCDEF) ∧
    decodeWords [0x01882838] = .ok (.sxor 10 8 6) ∧
    decodeWords [0x0008283A, 0x89ABCDEF, 0x01234567] = .ok (.sxorLit 10 8 0x0123456789ABCDEF) := by decide
theorem decode_scalar2 :
    decodeWords [0x11882820] = .ok (.smulh true 10 8 6) ∧
    decodeWords [0x00082822, 0x89ABCDEF, 0x01234567] = .ok (.smulhLit false 10 8 0x0123456789ABCDEF) ∧
    decodeWords [0x11882858] = .ok (.smin true 10 8 6) ∧
    decodeWords [0x0008285A, 0x89ABCDEF, 0x01234567] = .ok (.sminLit false 10 8 0x0123456789ABCDEF) ∧
    decodeWords [0x11882860] = .ok (.smax true 10 8 6) ∧
    decodeWords [0x00082862, 0x89ABCDEF, 0x01234567] = .ok (.smaxLit false 10 8 0x0123456789ABCDEF) ∧
    decodeWords [0x01882840] = .ok (.sshl 10 8 6) ∧
    decodeWords [0x01882848] = .ok (.sshr 10 8 6) ∧
    decodeWords [0x01882850] = .ok (.ssra 10 8 6) ∧
    decodeWords [0xA94828C0] = .ok (.saddImm 10 8 0x2A5) ∧
    decodeWords [0xA94828C8] = .ok (.sandImm 10 8 0x2A5) ∧
    decodeWords [0xA94828D0] = .ok (.sorImm 10 8 0x2A5) := by decide
theorem decode_scalar3 :
    decodeWords [0xA94828D8] = .ok (.sxorImm 10 8 0x2A5) ∧
    decodeWords [0x0FC828E0] = .ok (.sshlImm 10 8 63) ∧
    decodeWords [0x0FC828E8] = .ok (.sshrImm 10 8 63) ∧
    decodeWords [0x0FC828F0] = .ok (.ssraImm 10 8 63) ∧
    decodeWords [0x61882868] = .ok (.scmp .ltu 10 8 6) ∧
    decodeWords [0x5008286A, 0x89ABCDEF, 0x01234567] = .ok (.scmpLit .ge 10 8 0x0123456789ABCDEF) ∧
    decodeWords [0x01882871, 0x0000000C, 0x00000000] = .ok (.ssel 10 8 6 12) ∧
    decodeWords [0x00082878] = .ok (.smov 10 8) ∧
    decodeWords [0x00002881, 0x00000000, 0x87654321] = .ok (.sliW2 10 0x87654321) ∧
    decodeWords [0x00002882, 0x89ABCDEF, 0x01234567] = .ok (.sliLit 10 0x0123456789ABCDEF) ∧
    decodeWords [0xA94028F8] = .ok (.sliImm 10 0x2A5) ∧
    decodeWords [0x00082888] = .ok (.spopc 10 8) := by decide
theorem decode_scalar4 :
    decodeWords [0x00082890] = .ok (.sclz 10 8) ∧
    decodeWords [0x10082899, 0x00000000, 0x0000140C] = .ok (.sbfe true 10 8 12 20) ∧
    decodeWords [0x000828A1, 0x00000000, 0x0000140C] = .ok (.sbfi 10 8 12 20) := by decide
theorem decode_control1 :
    decodeWords [0x20080101, 0x00000000, 0xFFFFFFFE] = .ok (.br (.z 8) 0xFFFFFFFE) ∧
    decodeWords [0x00000109, 0x000005C0, 0x0003FFFE] = .ok (.brd ⟨true, 5⟩ 0xFFFE 3) ∧
    decodeWords [0x00000111, 0x00000000, 0xFFFFFFFE] = .ok (.call 0xFFFFFFFE) ∧
    decodeWords [0x00080118] = .ok (.calltScalar 8) ∧
    decodeWords [0x00080119, 0x00000000, 0x00000000] = .ok (.calltScalarW1 8) ∧
    decodeWords [0x10080118] = .ok (.calltLane 8) ∧
    decodeWords [0x10080119, 0x000005C0, 0x00000000] = .ok (.calltLaneW1 (some ⟨true, 5⟩) 8) ∧
    decodeWords [0x00000120] = .ok (.ret) ∧
    decodeWords [0x50000128] = .ok (.enter 5) ∧
    decodeWords [0x00080130] = .ok (.jts 8) ∧
    decodeWords [0x00080138] = .ok (.jtv 8) ∧
    decodeWords [0x00080139, 0x000005C0, 0x00000000] = .ok (.jtvW1 (some ⟨true, 5⟩) 8) := by decide
theorem decode_control2 :
    decodeWords [0x00000140] = .ok (.exit) ∧
    decodeWords [0x00000148] = .ok (.nop) ∧
    decodeWords [0x00000150] = .ok (.yield) := by decide
theorem decode_predicates1 :
    decodeWords [0x11461DC0] = .ok (.pand true 7 6 5) ∧
    decodeWords [0x01461DC1, 0x000005C0, 0x00000000] = .ok (.pandW1 (some ⟨true, 5⟩) false 7 6 5) ∧
    decodeWords [0x11461DC8] = .ok (.por true 7 6 5) ∧
    decodeWords [0x01461DC9, 0x000005C0, 0x00000000] = .ok (.porW1 (some ⟨true, 5⟩) false 7 6 5) ∧
    decodeWords [0x11461DD0] = .ok (.pxor true 7 6 5) ∧
    decodeWords [0x01461DD1, 0x000005C0, 0x00000000] = .ok (.pxorW1 (some ⟨true, 5⟩) false 7 6 5) ∧
    decodeWords [0x00061DD8] = .ok (.pnot 7 6) ∧
    decodeWords [0x00061DD9, 0x000005C0, 0x00000000] = .ok (.pnotW1 (some ⟨true, 5⟩) 7 6) ∧
    decodeWords [0x00061DE0] = .ok (.pmov 7 6) ∧
    decodeWords [0x00061DE1, 0x000005C0, 0x00000000] = .ok (.pmovW1 (some ⟨true, 5⟩) 7 6) ∧
    decodeWords [0x000029E8] = .ok (.ppack 10) ∧
    decodeWords [0x000029E9, 0x000005C0, 0x00000000] = .ok (.ppackW1 (some ⟨true, 5⟩) 10) := by decide
theorem decode_predicates2 :
    decodeWords [0x000801F0] = .ok (.punpk 8) ∧
    decodeWords [0x000801F1, 0x000005C0, 0x00000000] = .ok (.punpkW1 (some ⟨true, 5⟩) 8) ∧
    decodeWords [0x000629F8] = .ok (.pany 10 6) ∧
    decodeWords [0x100629F8] = .ok (.pall 10 6) := by decide
theorem decode_system :
    decodeWords [0x69400200] = .ok (.trap 0x1A5) ∧
    decodeWords [0x69400208] = .ok (.svc 0x1A5) ∧
    decodeWords [0x00000210] = .ok (.rett) ∧
    decodeWords [0x69402A18] = .ok (.tget 10 0x1A5) := by decide
theorem decode_sysregs :
    decodeWords [0x00112A20] = .ok (.sget 10 .wcnt) ∧
    decodeWords [0x00083E28] = .ok (.sset .fmode 8) ∧
    decodeWords [0x00002A30] = .ok (.exget 10) ∧
    decodeWords [0x00080238] = .ok (.exset 8) ∧
    decodeWords [0x00002A40] = .ok (.rdtime 10) := by decide
theorem decode_waiting :
    decodeWords [0x20082A80] = .ok (.spawn 2 10 8) ∧
    decodeWords [0x000E2A88] = .ok (.fwait 10 14) ∧
    decodeWords [0x000E2A90] = .ok (.ftest 10 14) ∧
    decodeWords [0x000E0298] = .ok (.fcancel 14) ∧
    decodeWords [0x000E2AA0] = .ok (.fexp 10 14) ∧
    decodeWords [0x00083AA8] = .ok (.fimp 14 8) ∧
    decodeWords [0x900002B0] = .ok (.waitc 9) ∧
    decodeWords [0x00082AB8] = .ok (.sleep 10 8) ∧
    decodeWords [0x81882AC0] = .ok (.waita .gtu 10 8 6) ∧
    decodeWords [0x21882AC1, 0x00C00000, 0xFFFFFFF8] = .ok (.waitaW1 .lt .sys .acq 0xFFFFFFF8 10 8 6) ∧
    decodeWords [0x000802C8] = .ok (.wake 8) ∧
    decodeWords [0x000802C9, 0x01300000, 0x00000010] = .ok (.wakeW1 .pkg .rel 16 8) := by decide
theorem decode_cluster1 :
    decodeWords [0x30083B01, 0x000D0000, 0x00000000] = .ok (.ldstat 3 .k48i8 14 8) ∧
    decodeWords [0x30000308] = .ok (.swap 3) ∧
    decodeWords [0x61882B11, 0x30050000, 0x00000001] = .ok (.mmq 2 1 3 .bf16 true 10 8 6) ∧
    decodeWords [0xD0082B19, 0x200B0000, 0x00000000] = .ok (.mmqs 1 3 2 .k48e2m1 false 10 8 0) ∧
    decodeWords [0x00002B20] = .ok (.talloc 10) ∧
    decodeWords [0x00080328] = .ok (.tfree 8) ∧
    decodeWords [0x00080330] = .ok (.tzero 8) ∧
    decodeWords [0x00082B39, 0x50000000, 0x00000000] = .ok (.tld 5 10 8) ∧
    decodeWords [0x00082B41, 0x5005E800, 0x00000000] = .ok (.tst 5 .f16 .sr true 10 8) ∧
    decodeWords [0x00082B48] = .ok (.barv 10 8) ∧
    decodeWords [0x01880350] = .ok (.bwait 8 6) ∧
    decodeWords [0x00080358] = .ok (.bsync 8) := by decide
theorem decode_cluster2 :
    decodeWords [0x00080360] = .ok (.setleave 8) ∧
    decodeWords [0x00083B69, 0x00028000, 0x00000000] = .ok (.gather .z16 14 8) := by decide
theorem decode_package1 :
    decodeWords [0x10083B81, 0x0B300000, 0x00000000] = .ok (.tcopy true .pkg .rel .keep 14 8) ∧
    decodeWords [0x00080388] = .ok (.rfence 8) ∧
    decodeWords [0x10083B91, 0x01200000, 0x00000000] = .ok (.put true .die .rel 14 8) ∧
    decodeWords [0x01880398] = .ok (.townThread 8 6) ∧
    decodeWords [0x11880398] = .ok (.townEngine 8 6) ∧
    decodeWords [0x000003A0] = .ok (.rsopen) ∧
    decodeWords [0x000003A8] = .ok (.rsclose) ∧
    decodeWords [0x00002BB0] = .ok (.gpwait 10) ∧
    decodeWords [0x20082BB0] = .ok (.gpwaitT 10 8) ∧
    decodeWords [0x10003BB0] = .ok (.gpwaitF 14) ∧
    decodeWords [0x30083BB0] = .ok (.gpwaitFT 14 8) ∧
    decodeWords [0x000803B8] = .ok (.dfree 8) := by decide
theorem decode_package2 :
    decodeWords [0x00083BC1, 0x01300000, 0x00000015] = .ok (.nmcall .pkg .rel 21 14 8) ∧
    decodeWords [0x000803C9, 0x01350000, 0x00000000] = .ok (.ixred .bf16 .pkg .rel 8) ∧
    decodeWords [0x00083BD1, 0x01300000, 0x00000000] = .ok (.walk .pkg .rel 14 8) ∧
    decodeWords [0x00083BE1, 0x00000000, 0x87654321] = .ok (.dpost 0x87654321 14 8) ∧
    decodeWords [0x00083BE8] = .ok (.xrun 14 8) ∧
    decodeWords [0x00083BF0] = .ok (.xcal 14 8) ∧
    decodeWords [0x00083BD9, 0x01300000, 0x00000000] = .ok (.coll .pkg .rel 14 8) := by decide
theorem decode_vectorint1 :
    decodeWords [0x81882804] = .ok (.vadd true 10 8 6) ∧
    decodeWords [0x01882805, 0x0003C5C0, 0x00000000] = .ok (.vaddW1 (some ⟨true, 5⟩) .z64 true false 10 8 6) ∧
    decodeWords [0x00082806, 0x89ABCDEF, 0x01234567] = .ok (.vaddLit 10 8 0x0123456789ABCDEF) ∧
    decodeWords [0x00082807, 0x0001C5C0, 0x00000000, 0x89ABCDEF, 0x01234567] = .ok (.vaddLitW1 (some ⟨true, 5⟩) .i64 true 10 8 0x0123456789ABCDEF) ∧
    decodeWords [0x8188280C] = .ok (.vsub true 10 8 6) ∧
    decodeWords [0x0188280D, 0x0003C5C0, 0x00000000] = .ok (.vsubW1 (some ⟨true, 5⟩) .z64 true false 10 8 6) ∧
    decodeWords [0x0008280E, 0x89ABCDEF, 0x01234567] = .ok (.vsubLit 10 8 0x0123456789ABCDEF) ∧
    decodeWords [0x0008280F, 0x0001C5C0, 0x00000000, 0x89ABCDEF, 0x01234567] = .ok (.vsubLitW1 (some ⟨true, 5⟩) .i64 true 10 8 0x0123456789ABCDEF) ∧
    decodeWords [0x81882814] = .ok (.vmul true 10 8 6) ∧
    decodeWords [0x01882815, 0x0003C5C0, 0x00000000] = .ok (.vmulW1 (some ⟨true, 5⟩) .z64 true false 10 8 6) ∧
    decodeWords [0x00082816, 0x89ABCDEF, 0x01234567] = .ok (.vmulLit 10 8 0x0123456789ABCDEF) ∧
    decodeWords [0x00082817, 0x0001C5C0, 0x00000000, 0x89ABCDEF, 0x01234567] = .ok (.vmulLitW1 (some ⟨true, 5⟩) .i64 true 10 8 0x0123456789ABCDEF) := by decide
theorem decode_vectorint2 :
    decodeWords [0x9188281C] = .ok (.vmulh true true 10 8 6) ∧
    decodeWords [0x1188281D, 0x000185C0, 0x00000000] = .ok (.vmulhW1 (some ⟨true, 5⟩) .i64 true false 10 8 6) ∧
    decodeWords [0x81882825, 0x000145CC, 0x00000000] = .ok (.vmad (some ⟨true, 5⟩) .i32 true true 10 8 6 12) ∧
    decodeWords [0x8188282D, 0x000985C4, 0x00000000] = .ok (.vaddc (some ⟨true, 5⟩) .b32 true 10 8 6 4) ∧
    decodeWords [0x81882834] = .ok (.vand true 10 8 6) ∧
    decodeWords [0x01882835, 0x000A05C0, 0x00000000] = .ok (.vandW1 (some ⟨true, 5⟩) .b64 false 10 8 6) ∧
    decodeWords [0x00082836, 0x89ABCDEF, 0x01234567] = .ok (.vandLit 10 8 0x0123456789ABCDEF) ∧
    decodeWords [0x00082837, 0x000A05C0, 0x00000000, 0x89ABCDEF, 0x01234567] = .ok (.vandLitW1 (some ⟨true, 5⟩) .b64 10 8 0x0123456789ABCDEF) ∧
    decodeWords [0x8188283C] = .ok (.vor true 10 8 6) ∧
    decodeWords [0x0188283D, 0x000A05C0, 0x00000000] = .ok (.vorW1 (some ⟨true, 5⟩) .b64 false 10 8 6) ∧
    decodeWords [0x0008283E, 0x89ABCDEF, 0x01234567] = .ok (.vorLit 10 8 0x0123456789ABCDEF) ∧
    decodeWords [0x0008283F, 0x000A05C0, 0x00000000, 0x89ABCDEF, 0x01234567] = .ok (.vorLitW1 (some ⟨true, 5⟩) .b64 10 8 0x0123456789ABCDEF) := by decide
theorem decode_vectorint3 :
    decodeWords [0x81882844] = .ok (.vxor true 10 8 6) ∧
    decodeWords [0x01882845, 0x000A05C0, 0x00000000] = .ok (.vxorW1 (some ⟨true, 5⟩) .b64 false 10 8 6) ∧
    decodeWords [0x00082846, 0x89ABCDEF, 0x01234567] = .ok (.vxorLit 10 8 0x0123456789ABCDEF) ∧
    decodeWords [0x00082847, 0x000A05C0, 0x00000000, 0x89ABCDEF, 0x01234567] = .ok (.vxorLitW1 (some ⟨true, 5⟩) .b64 10 8 0x0123456789ABCDEF) ∧
    decodeWords [0x8188284C] = .ok (.vshl true 10 8 6) ∧
    decodeWords [0x8188284D, 0x000185C0, 0x00000000] = .ok (.vshlW1 (some ⟨true, 5⟩) .i64 true 10 8 6) ∧
    decodeWords [0x81882854] = .ok (.vshr true 10 8 6) ∧
    decodeWords [0x81882855, 0x000185C0, 0x00000000] = .ok (.vshrW1 (some ⟨true, 5⟩) .i64 true 10 8 6) ∧
    decodeWords [0x8188285C] = .ok (.vsra true 10 8 6) ∧
    decodeWords [0x8188285D, 0x000185C0, 0x00000000] = .ok (.vsraW1 (some ⟨true, 5⟩) .i64 true 10 8 6) := by decide
theorem decode_vectorint21 :
    decodeWords [0x11882864] = .ok (.vmin true false 10 8 6) ∧
    decodeWords [0x81882865, 0x000185C0, 0x00000000] = .ok (.vminW1 (some ⟨true, 5⟩) .i64 false true 10 8 6) ∧
    decodeWords [0x10082866, 0x89ABCDEF, 0x01234567] = .ok (.vminLit true 10 8 0x0123456789ABCDEF) ∧
    decodeWords [0x10082867, 0x000185C0, 0x00000000, 0x89ABCDEF, 0x01234567] = .ok (.vminLitW1 (some ⟨true, 5⟩) .i64 true 10 8 0x0123456789ABCDEF) ∧
    decodeWords [0x1188286C] = .ok (.vmax true false 10 8 6) ∧
    decodeWords [0x8188286D, 0x000185C0, 0x00000000] = .ok (.vmaxW1 (some ⟨true, 5⟩) .i64 false true 10 8 6) ∧
    decodeWords [0x1008286E, 0x89ABCDEF, 0x01234567] = .ok (.vmaxLit true 10 8 0x0123456789ABCDEF) ∧
    decodeWords [0x1008286F, 0x000185C0, 0x00000000, 0x89ABCDEF, 0x01234567] = .ok (.vmaxLitW1 (some ⟨true, 5⟩) .i64 true 10 8 0x0123456789ABCDEF) ∧
    decodeWords [0x00082874] = .ok (.vpopc 10 8) ∧
    decodeWords [0x00082875, 0x000385C0, 0x00000000] = .ok (.vpopcW1 (some ⟨true, 5⟩) .z64 10 8) ∧
    decodeWords [0x0008287C] = .ok (.vclz 10 8) ∧
    decodeWords [0x0008287D, 0x000385C0, 0x00000000] = .ok (.vclzW1 (some ⟨true, 5⟩) .z64 10 8) := by decide
theorem decode_vectorint22 :
    decodeWords [0x10082885, 0x000185C0, 0x0000140C] = .ok (.vbfe (some ⟨true, 5⟩) .i64 true 10 8 12 20) ∧
    decodeWords [0x0008288D, 0x000105C0, 0x0000140C] = .ok (.vbfi (some ⟨true, 5⟩) .i32 10 8 12 20) ∧
    decodeWords [0x01882895, 0x000405C4, 0x00000000] = .ok (.vsel (some ⟨true, 5⟩) .f64 10 8 6 4) ∧
    decodeWords [0x8008289C] = .ok (.vmov true 10 8) ∧
    decodeWords [0x8008289D, 0x000405C0, 0x00000000] = .ok (.vmovW1 (some ⟨true, 5⟩) .f64 true 10 8) ∧
    decodeWords [0x0000289E, 0x89ABCDEF, 0x01234567] = .ok (.vmovLit 10 0x0123456789ABCDEF) ∧
    decodeWords [0x0000289F, 0x000A05C0, 0x00000000, 0x89ABCDEF, 0x01234567] = .ok (.vmovLitW1 (some ⟨true, 5⟩) .b64 10 0x0123456789ABCDEF) ∧
    decodeWords [0x81881CA5, 0x800185C0, 0x00000000] = .ok (.vcmp (some ⟨true, 5⟩) .i64 .gtu true 7 8 6) ∧
    decodeWords [0xA94828C4] = .ok (.vaddImm 10 8 0x2a5) ∧
    decodeWords [0xA94828CC] = .ok (.vandImm 10 8 0x2a5) ∧
    decodeWords [0x07C828D4] = .ok (.vshlImm 10 8 31) ∧
    decodeWords [0x07C828DC] = .ok (.vshrImm 10 8 31) := by decide
theorem decode_vectorint23 :
    decodeWords [0x07C828E4] = .ok (.vsraImm 10 8 31) := by decide
theorem decode_floats1 :
    decodeWords [0x81882904] = .ok (.fadd true 10 8 6) ∧
    decodeWords [0x81882905, 0x00041DC0, 0x00000000] = .ok (.faddW1 (some ⟨true, 5⟩) .f64 .rdn true 10 8 6) ∧
    decodeWords [0x8188290C] = .ok (.fsub true 10 8 6) ∧
    decodeWords [0x8188290D, 0x00041DC0, 0x00000000] = .ok (.fsubW1 (some ⟨true, 5⟩) .f64 .rdn true 10 8 6) ∧
    decodeWords [0x81882914] = .ok (.fmul true 10 8 6) ∧
    decodeWords [0x81882915, 0x00041DC0, 0x00000000] = .ok (.fmulW1 (some ⟨true, 5⟩) .f64 .rdn true 10 8 6) ∧
    decodeWords [0x9188291C] = .ok (.ffma true false true 10 8 6) ∧
    decodeWords [0x2188291D, 0x00042DCC, 0x00000000] = .ok (.ffmaW1 (some ⟨true, 5⟩) .f64 .sr false true false 10 8 6 12) ∧
    decodeWords [0x11882924] = .ok (.fmin true 10 8 6) ∧
    decodeWords [0x11882925, 0x000405C0, 0x00000000] = .ok (.fminW1 (some ⟨true, 5⟩) .f64 true 10 8 6) ∧
    decodeWords [0x1188292C] = .ok (.fmax true 10 8 6) ∧
    decodeWords [0x1188292D, 0x000405C0, 0x00000000] = .ok (.fmaxW1 (some ⟨true, 5⟩) .f64 true 10 8 6) := by decide
theorem decode_floats2 :
    decodeWords [0x81881D35, 0x700405C0, 0x00000000] = .ok (.fcmp (some ⟨true, 5⟩) .f64 .ord true 7 8 6) ∧
    decodeWords [0x0008293C] = .ok (.fclass 10 8) ∧
    decodeWords [0x0008293D, 0x000805C0, 0x00000000] = .ok (.fclassW1 (some ⟨true, 5⟩) .e2m1 10 8) ∧
    decodeWords [0x00082945, 0x000425C0, 0x00000000] = .ok (.frnd (some ⟨true, 5⟩) .f64 .rna 10 8) ∧
    decodeWords [0x0208294D, 0x00064DC0, 0x00000000] = .ok (.cvt (some ⟨true, 5⟩) .e4m3 .rtz true .f64 10 8) ∧
    decodeWords [0x01882954] = .ok (.pkadd 10 8 6) ∧
    decodeWords [0x01882955, 0x000515C0, 0x00000000] = .ok (.pkaddW1 (some ⟨true, 5⟩) .bf16 .rup 10 8 6) ∧
    decodeWords [0x0188295C] = .ok (.pkmul 10 8 6) ∧
    decodeWords [0x0188295D, 0x000515C0, 0x00000000] = .ok (.pkmulW1 (some ⟨true, 5⟩) .bf16 .rup 10 8 6) ∧
    decodeWords [0x01882964] = .ok (.pkfma 10 8 6) ∧
    decodeWords [0x01882965, 0x000515CC, 0x00000000] = .ok (.pkfmaW1 (some ⟨true, 5⟩) .bf16 .rup 10 8 6 12) := by decide
theorem decode_special1 :
    decodeWords [0x00082A04] = .ok (.xrcp 10 8) ∧
    decodeWords [0x00082A05, 0x000485C0, 0x00000000] = .ok (.xrcpW1 (some ⟨true, 5⟩) 10 8) ∧
    decodeWords [0x00082A0C] = .ok (.xrsq 10 8) ∧
    decodeWords [0x00082A0D, 0x000485C0, 0x00000000] = .ok (.xrsqW1 (some ⟨true, 5⟩) 10 8) ∧
    decodeWords [0x00082A14] = .ok (.xsqrt 10 8) ∧
    decodeWords [0x00082A15, 0x000485C0, 0x00000000] = .ok (.xsqrtW1 (some ⟨true, 5⟩) 10 8) ∧
    decodeWords [0x00082A1C] = .ok (.xexp2 10 8) ∧
    decodeWords [0x00082A1D, 0x000485C0, 0x00000000] = .ok (.xexp2W1 (some ⟨true, 5⟩) 10 8) ∧
    decodeWords [0x00082A24] = .ok (.xlog2 10 8) ∧
    decodeWords [0x00082A25, 0x000485C0, 0x00000000] = .ok (.xlog2W1 (some ⟨true, 5⟩) 10 8) ∧
    decodeWords [0x00082A2C] = .ok (.xsin 10 8) ∧
    decodeWords [0x00082A2D, 0x000485C0, 0x00000000] = .ok (.xsinW1 (some ⟨true, 5⟩) 10 8) := by decide
theorem decode_special2 :
    decodeWords [0x00082A34] = .ok (.xcos 10 8) ∧
    decodeWords [0x00082A35, 0x000485C0, 0x00000000] = .ok (.xcosW1 (some ⟨true, 5⟩) 10 8) ∧
    decodeWords [0x00082A3C] = .ok (.xtanh 10 8) ∧
    decodeWords [0x00082A3D, 0x000485C0, 0x00000000] = .ok (.xtanhW1 (some ⟨true, 5⟩) 10 8) ∧
    decodeWords [0x01880244] = .ok (.rngseed 8 6) ∧
    decodeWords [0x10002A4C] = .ok (.rng true 10) ∧
    decodeWords [0x00002A4D, 0x000005C0, 0x00000000] = .ok (.rngW1 (some ⟨true, 5⟩) false 10) ∧
    decodeWords [0x00080254] = .ok (.rngskip 8) := by decide
theorem decode_exchange1 :
    decodeWords [0x31882A84] = .ok (.vshfl 3 10 8 6) ∧
    decodeWords [0x21882A85, 0x000185C0, 0x00000000] = .ok (.vshflW1 (some ⟨true, 5⟩) .i64 2 10 8 6) ∧
    decodeWords [0x01882A8C] = .ok (.vrot 10 8 6) ∧
    decodeWords [0x01882A8D, 0x000405C0, 0x00000000] = .ok (.vrotW1 (some ⟨true, 5⟩) .f64 10 8 6) ∧
    decodeWords [0x01882A94] = .ok (.vbcast 10 8 6) ∧
    decodeWords [0x01882A95, 0x000405C0, 0x00000000] = .ok (.vbcastW1 (some ⟨true, 5⟩) .f64 10 8 6) ∧
    decodeWords [0x00062A9C] = .ok (.vballot 10 6) ∧
    decodeWords [0x00062A9D, 0x000005C0, 0x00000000] = .ok (.vballotW1 (some ⟨true, 5⟩) 10 6) ∧
    decodeWords [0x00082AA4] = .ok (.vradd 10 8) ∧
    decodeWords [0x00082AA5, 0x000405C0, 0x00000000] = .ok (.vraddW1 (some ⟨true, 5⟩) .f64 10 8) ∧
    decodeWords [0x10082AAC] = .ok (.vrmin true 10 8) ∧
    decodeWords [0x10082AAD, 0x000185C0, 0x00000000] = .ok (.vrminW1 (some ⟨true, 5⟩) .i64 true 10 8) := by decide
theorem decode_exchange2 :
    decodeWords [0x10082AB4] = .ok (.vrmax true 10 8) ∧
    decodeWords [0x10082AB5, 0x000185C0, 0x00000000] = .ok (.vrmaxW1 (some ⟨true, 5⟩) .i64 true 10 8) ∧
    decodeWords [0x10082ABD, 0x200385C0, 0x00000000] = .ok (.vscan (some ⟨true, 5⟩) .z64 .max true 10 8) ∧
    decodeWords [0x11882AC4] = .ok (.vdot4 true false 10 8 6) ∧
    decodeWords [0x21882AC5, 0x000045CC, 0x00000000] = .ok (.vdot4W1 (some ⟨true, 5⟩) true false true 10 8 6 12) ∧
    decodeWords [0x01882ACC] = .ok (.vdot2h 10 8 6) ∧
    decodeWords [0x01882ACD, 0x000505CC, 0x00000000] = .ok (.vdot2hW1 (some ⟨true, 5⟩) .bf16 10 8 6 12) := by decide
theorem decode_memory1 :
    decodeWords [0xF1882B04] = .ok (.ld ⟨8, some ⟨true, 3, 6⟩⟩ 10) ∧
    decodeWords [0x00083305, 0x0ACA85C0, 0xFFFFFFF0] = .ok (.ldW1 (some ⟨true, 5⟩) .b128 .sys .acq .keep ⟨8, none⟩ 0xFFFFFFF0 12) ∧
    decodeWords [0xF1882B0C] = .ok (.st ⟨8, some ⟨true, 3, 6⟩⟩ 10) ∧
    decodeWords [0x0008330D, 0x0B4A85C0, 0xFFFFFFF0] = .ok (.stW1 (some ⟨true, 5⟩) .b128 .sys .rel .keep ⟨8, none⟩ 0xFFFFFFF0 12) ∧
    decodeWords [0xF1882B14] = .ok (.ldg ⟨8, some ⟨true, 3, 6⟩⟩ 10) ∧
    decodeWords [0x00083315, 0x0ACA85C0, 0xFFFFFFF0] = .ok (.ldgW1 (some ⟨true, 5⟩) .b128 .sys .acq .keep ⟨8, none⟩ 0xFFFFFFF0 12) ∧
    decodeWords [0xF1882B1C] = .ok (.stg ⟨8, some ⟨true, 3, 6⟩⟩ 10) ∧
    decodeWords [0x0008331D, 0x0B4A85C0, 0xFFFFFFF0] = .ok (.stgW1 (some ⟨true, 5⟩) .b128 .sys .rel .keep ⟨8, none⟩ 0xFFFFFFF0 12) ∧
    decodeWords [0xF1802B24] = .ok (.ldp (some ⟨true, 3, 6⟩) 10) ∧
    decodeWords [0x00002B25, 0x000185C0, 0x00000080] = .ok (.ldpW1 (some ⟨true, 5⟩) .i64 none 128 10) ∧
    decodeWords [0xF1802B2C] = .ok (.stp (some ⟨true, 3, 6⟩) 10) ∧
    decodeWords [0x00002B2D, 0x000185C0, 0x00000080] = .ok (.stpW1 (some ⟨true, 5⟩) .i64 none 128 10) := by decide
theorem decode_memory2 :
    decodeWords [0xF1882B35, 0x79BA05CC, 0x00000010] = .ok (.atom (some ⟨true, 5⟩) .b64 .pkg .ar .na .cas ⟨8, some ⟨true, 3, 6⟩⟩ 16 10 12) ∧
    decodeWords [0x00082B3D, 0x909305C0, 0x00000010] = .ok (.atomg (some ⟨true, 5⟩) .z32 .gang .acq .dec ⟨8, none⟩ 16 10 0) ∧
    decodeWords [0x00082B45, 0xA34405C0, 0x00000010] = .ok (.red (some ⟨true, 5⟩) .f64 .sys .rel .l2 .fadd ⟨8, none⟩ 16 10) ∧
    decodeWords [0xF188034C] = .ok (.pref ⟨8, some ⟨true, 3, 6⟩⟩) ∧
    decodeWords [0x0008034D, 0x040005C0, 0x00000040] = .ok (.prefW1 (some ⟨true, 5⟩) .strm ⟨8, none⟩ 64) ∧
    decodeWords [0x00000355, 0x00C00000, 0x00000000] = .ok (.fence .sys .acq) ∧
    decodeWords [0x0008035D, 0x30000000, 0x00000040] = .ok (.cctl 3 ⟨8, none⟩ 64) := by decide
theorem decode_remote :
    decodeWords [0x01882B85, 0x00CA05C0, 0x00000008] = .ok (.remld (some ⟨true, 5⟩) .b64 .sys .acq 8 10 8 6) ∧
    decodeWords [0x0188338D, 0x014A85C0, 0x00000008] = .ok (.remst (some ⟨true, 5⟩) .b128 .sys .rel 8 12 8 6) ∧
    decodeWords [0x01882B95, 0x71CA05CC, 0x00000008] = .ok (.rematom (some ⟨true, 5⟩) .b64 .sys .ar .cas 8 10 8 6 12) ∧
    decodeWords [0x01083B9D, 0xC00405C0, 0x00000000] = .ok (.rred (some ⟨true, 5⟩) .f64 .fmax 14 8 4) ∧
    decodeWords [0x00082FA5, 0xB00505C0, 0x00000000] = .ok (.gred (some ⟨true, 5⟩) .bf16 .fmin 11 8) := by decide

end Sys2Proof.Tests
end

