-- ==== Sys2Proof/Tests/Events.lean ====
section
/-! SUPPORT. Witnesses of the statements about the events of cores, caches and engines: for every row of their tables, operands and a state
that meet it. -/
namespace Sys2Proof.Tests
open Sys2Proof Sys2Proof.Machine Sys2Proof.Statements

set_option maxRecDepth 40000

/-- A core's line with one bundle of one instruction. -/
def lineOne (bytes : List Byte) (bad : List Nat) : ILine :=
  { die := 0, cluster := 0, core := 0, part := 0, vf := 0, codeBase := 0, line := 0x100, bytes, bad }

/-- A credit for what the current context's agents send (R360). -/
def funded (s : State) : State := { s with ctxs := s.ctxs.map fun c => { c with burst := 1024 } }

theorem wit_bundles : Meets FetchEvents .bundleDecode ∧ (∃ s t, s.icache = [lineOne [0] []] ∧ FetchEvents .bundleDecode s t) ∧
    (∃ s t, s.icache = [lineOne [1] [0]] ∧ FetchEvents .bundleDecode s t) :=
  ⟨⟨{ run with icache := [lineOne [1, 0, 0, 0, 8] []] }, _, .decodes _ _ ⟨⟨rfl, rfl, rfl, .inl (by decide)⟩, rfl⟩ rfl rfl (by decide) rfl rfl (by decide)⟩,
   ⟨{ run with icache := [lineOne [0] []] }, _, rfl, .invalid _ _ 0 ⟨⟨rfl, rfl, rfl, .inl (by decide)⟩, rfl⟩ rfl rfl (by decide) rfl⟩,
   ⟨{ run with icache := [lineOne [1] [0]] }, _, rfl, .poisoned _ _ ⟨⟨rfl, rfl, rfl, .inl (by decide)⟩, rfl⟩ rfl rfl (by decide)⟩⟩
theorem wit_ahead : ∃ s t, s.icache = [{ lineOne [] [] with fault := some 1 }] ∧ FetchEvents .bundleDecode s t :=
  ⟨{ run with icache := [{ lineOne [] [] with fault := some 1 }] }, _, rfl, .ahead _ _ _ ⟨⟨rfl, rfl, rfl, .inl (by decide)⟩, rfl⟩ rfl rfl⟩

/-- The agent's entry for that line. -/
def lineEntry : FetchEntry := ⟨0, 0, 0, 0, 0x100, 0x10000, .normal, [(0, 0)]⟩

theorem wit_fetch_miss : Meets FetchEvents .instructionCacheMiss ∧ (∃ s t, s.fetchq = [lineEntry] ∧ FetchEvents .instructionCacheMiss s t) ∧
    (∃ s t, s.slot.pcb = 0x1000000000000000 ∧ FetchEvents .instructionCacheMiss s t) ∧
    (∃ s t, s.tlb = [] ∧ FetchEvents .instructionCacheMiss s t) :=
  ⟨⟨funded run, _, .missNew _ _ _ ⟨⟨rfl, rfl, rfl, .inl (by decide)⟩, rfl⟩ rfl rfl rfl rfl (by intro d w h; cases h) (by decide)⟩,
   ⟨funded { run with fetchq := [lineEntry] }, _, rfl, .missMerged _ _ _ ⟨⟨rfl, rfl, rfl, .inl (by decide)⟩, rfl⟩ rfl rfl rfl rfl (by intro d w h; cases h) (by decide)⟩,
   ⟨run.setSlot fun x => { x with pcb := 0x1000000000000000 }, _, rfl, .missHigh _ ⟨⟨rfl, rfl, rfl, .inl (by decide)⟩, rfl⟩ rfl rfl⟩,
   ⟨funded { run with tlb := [] }, _, rfl, .missFault _ _ _ ⟨⟨rfl, rfl, rfl, .inl (by decide)⟩, rfl⟩ rfl rfl rfl (by decide)⟩⟩
theorem wit_fill : Meets FetchEvents (.multicastFill 0) :=
  ⟨funded { run with fetchq := [lineEntry] }, _, .fill _ _ _ _ _ _ rfl rfl (by decide) (by decide)⟩

/-- A path at its pending join, whose bundle carries JOIN. -/
def runAtJoin : State :=
  run.setGrp fun g => { g with
    slotA := { path with pj := some 0x10000, ibuf := some ⟨0x10000, [65, 8]⟩ }, slotB := { path with mask := 0 }
    sjoin := some ⟨0x10000, 0, 0x20000⟩ }
def coilTopEntry : CoilEntry := ⟨0x10080, 0x10000, 1, .resume, 0, 0x20000⟩

/-- The bytes of that entry where the coil has its first. -/
def runCoil (e : CoilEntry) : State :=
  let t := runAtJoin.setSlot fun x => { x with coil := [e] }
  { t with mem := memWrite [] (t.grp.coilBase .a).toNat e.bytes }
def mergeEntry : CoilEntry := ⟨0x10000, 1, 1, .merge, 0, 0x20000⟩

theorem wit_joins : Meets FetchEvents .joinArrival ∧ (∃ s t, s.slot.coil = [coilTopEntry] ∧ FetchEvents .joinArrival s t) :=
  ⟨⟨runAtJoin, _, .joinParks _ _ ⟨⟨rfl, rfl, rfl, .inl (by decide)⟩, rfl, rfl, rfl, rfl, rfl⟩ rfl rfl ⟨rfl, rfl⟩ rfl (by decide)⟩,
   ⟨runCoil coilTopEntry, _, rfl, .joinResumes _ _ _ ⟨⟨rfl, rfl, rfl, .inl (by decide)⟩, rfl, rfl, rfl, rfl, rfl⟩ ⟨_, rfl, rfl⟩ ⟨rfl, rfl⟩ rfl rfl (by decide)⟩⟩
theorem wit_join_pops : ∃ s t, s.slot.coil = [mergeEntry] ∧ FetchEvents .joinArrival s t :=
  ⟨runCoil mergeEntry, _, rfl, .joinPops _ _ _ ⟨⟨rfl, rfl, rfl, .inl (by decide)⟩, rfl, rfl, rfl, rfl, rfl⟩ ⟨_, rfl, rfl⟩ ⟨rfl, rfl⟩ rfl rfl (by decide) (by decide) rfl⟩
theorem wit_join_merges : ∃ s t, s.grp.slotB.park = .join ∧ FetchEvents .joinArrival s t :=
  ⟨runAtJoin.setGrp fun g => { g with slotB := { path with mask := 0, park := .join } }, _, rfl,
    .joinMerges _ _ ⟨⟨rfl, rfl, rfl, .inl (by decide)⟩, rfl, rfl, rfl, rfl, rfl⟩ rfl rfl ⟨rfl, rfl⟩ rfl ⟨rfl, rfl, rfl⟩ ⟨rfl, rfl⟩ (by intro c _; cases c <;> decide)⟩
theorem wit_deferred : Meets FetchEvents .trapEntry :=
  ⟨{ run.setSlot fun x => { x with derr := some { ea := 8, epc := 0x10004, lane := 31 } } with gangs := [{ key := 1, trapEntry := 0x8000 }] }, _,
    .dataError _ _ ⟨rfl, by decide⟩ rfl rfl rfl rfl rfl⟩
theorem wit_drained : ∃ s t, s.grp.raised = some (.b, { code := 1 }) ∧ FetchEvents .trapEntry s t :=
  ⟨run.setGrp fun g => { g with raised := some (.b, { code := 1 }) }, _, rfl, .drained _ _ _ rfl rfl⟩

/-- An outstanding result of the current path. -/
def outOf (k : OutKind) : Outst :=
  { id := 5, tags := { a := true, b := false }, cnt := .ld, pos := 4, regs := 1, pc := 0x10004, pend := 1, full := 1
    lanes := [{ lane := 0, ea := 0x1000, pieces := [⟨0x1000, 4, .normal⟩] }], kind := k }
def runOut (l : List Outst) : State := funded (runOne.setGrp fun g => { g with outst := l })

theorem wit_results : Meets AccessEvents (.loadResultReturn 0 1 []) ∧ Meets AccessEvents (.sfuResult 1) :=
  ⟨⟨runOut [outOf (.load .b32 .grp .dflt false)], _, .result _ _ _ _ _ rfl (by intro fn x h; cases h) (by intro o h; cases h) (by decide)⟩,
   ⟨runOut [outOf (.load .b32 .grp .dflt false), outOf (.sfu 0 [])], _, .special _ _ _ _ _ rfl rfl (by
      intro y h fn x e
      have : y = outOf (.load .b32 .grp .dflt false) := by simpa [runOut, funded, State.setGrp] using h
      subst this; cases e)⟩⟩

/-- A queued store of the current path. -/
def storeOf (counted : Bool) (k : StoreKind) : StoreOp :=
  { group := 1, tags := { a := true, b := false }, cnt := .st, counted, part := 0, vf := 0, die := 0, cluster := 0, core := 0, kind := k }
def storeKind (sc : Scope) : StoreKind := .store sc .dflt [{ lane := 0, ea := 0x1000, pieces := [⟨0x1000, 4, .normal⟩] }] .b32

theorem wit_store_near : Meets AccessEvents (.storePerformed 0) :=
  ⟨{ runOne with wq := [storeOf true (storeKind .grp)] }, _, .storeNear _ _ _ _ _ _ _ rfl rfl rfl (.inl rfl) (by
    intro l h p hp
    have : l = { lane := 0, ea := 0x1000, pieces := [⟨0x1000, 4, .normal⟩] } := by simpa using h
    subst this
    have : p = ⟨0x1000, 4, .normal⟩ := by simpa using hp
    subst this; rfl)⟩
theorem wit_store_far : Meets AccessEvents (.storePerformed 0) :=
  ⟨funded { runOne with wq := [storeOf true (storeKind .die)] }, _,
    .storePerformed _ _ _ rfl (.inl rfl) (by intro t l h; cases h) (by intro x h; cases h) (by decide)⟩

/-- An open miss of page 0. -/
def missOf (toRoot : Bool) : Miss := ⟨0, 0, 0, 0, 0, 0, toRoot⟩
def runMiss (m : Miss) (c : Ctx) (mem : Mem) : State := funded { runOne with misses := [m], ctxs := [c], mem, tlb := [] }

/-- A pair by its first half. -/
theorem half {α β : Type} {p : α × β} {a : α} (h : p.1 = a) : p = (a, p.2) := by rw [← h]

theorem wit_walks : Meets AccessEvents (.translationWalkDone 0) ∧
    (∃ s t, s.mem = tables.take 3 ∧ AccessEvents (.translationWalkDone 0) s t) ∧ (∃ s t, s.mem = [] ∧ AccessEvents (.translationWalkDone 0) s t) :=
  ⟨⟨runMiss (missOf false) ctxMapped tables, _, .walkMapped _ _ _ _ _ _ rfl (by decide) rfl (by decide) (half rfl)⟩,
   ⟨runMiss (missOf false) ctxMapped (tables.take 3), _, rfl, .walkFails _ _ _ _ _ rfl (by decide) rfl (by decide) (half rfl)⟩,
   ⟨runMiss (missOf false) ctxMapped [], _, rfl, .walkToRoot _ _ _ _ _ rfl (by decide) rfl (by decide) (half rfl)⟩⟩
theorem wit_walks_root : Meets AccessEvents (.stage2FaultToRoot 0) ∧ (∃ s t, s.mem = [] ∧ AccessEvents (.stage2FaultToRoot 0) s t) :=
  ⟨⟨runMiss (missOf true) ctxMapped tables, _, .rootMapped _ _ _ _ _ _ rfl rfl (by decide) (half rfl)⟩,
   ⟨runMiss (missOf true) ctxMapped [], _, rfl, .rootFails _ _ _ _ _ rfl rfl (by decide) (half rfl)⟩⟩

/-- A path that waits for the word at 0x1000 to equal `v`. -/
def runWait (v : W64) : State := funded { run.park (.waita ⟨0x1000, v, .eq, .die, true, 5, 3, 0, true, false, none, false⟩) with time := 100000 }

theorem wit_reread : Meets AccessEvents .waitaReread ∧ Meets AccessEvents .waitaPollTimeout :=
  ⟨⟨runWait 0, _, .rereadMet _ _ _ _ _ _ (.inl ⟨rfl, .inl rfl⟩) rfl rfl (by decide) (by decide) rfl rfl rfl rfl rfl⟩,
   ⟨runWait 0, _, .rereadMet _ _ _ _ _ _ (.inr ⟨rfl, by decide⟩) rfl rfl (by decide) (by decide) rfl rfl rfl rfl rfl⟩⟩
theorem wit_reread_parks : Meets AccessEvents .waitaReread ∧ Meets AccessEvents .waitaPollTimeout :=
  ⟨⟨runWait 1, _, .rereadParks _ _ _ _ _ _ (.inl ⟨rfl, .inr rfl⟩) rfl rfl (by decide) (by decide) rfl rfl rfl rfl rfl⟩,
   ⟨runWait 1, _, .rereadParks _ _ _ _ _ _ (.inr ⟨rfl, by decide⟩) rfl rfl (by decide) (by decide) rfl rfl rfl rfl rfl⟩⟩
theorem wit_released : Meets AccessEvents .fenceReleaseDone :=
  ⟨run.park (.release .sys), _, .released _ _ rfl (by intro _ o h; cases h) (by intro _ o h; cases h) rfl⟩

/-- A sector of L2. -/
def sectorOf (dirty : LaneMask) (bad : Bool) : L2Sector := ⟨0, 0, 0, 0x80, List.replicate 32 0, 0xFFFFFFFF, dirty, 0, bad⟩

theorem wit_evictions : Meets AccessEvents (.l2Eviction 0) ∧ (∃ s t, s.l2 = [sectorOf 1 true] ∧ AccessEvents (.l2Eviction 0) s t) :=
  ⟨⟨{ run with l2 := [sectorOf 1 false] }, _, .evict _ _ _ (0x80 / 8) rfl (by decide)⟩,
   ⟨{ run with l2 := [sectorOf 1 true] }, _, rfl, .evict _ _ _ (0x80 / 8) rfl (by decide)⟩⟩
theorem wit_writebacks : Meets AccessEvents (.writebackAck 0) ∧
    (∃ s t, s.wbuf = [⟨0, 0, 0, 0x80, List.replicate 32 0, 0xFFFFFFFF, true⟩] ∧ AccessEvents (.writebackAck 0) s t) :=
  ⟨⟨{ run with wbuf := [⟨0, 0, 0, 0x80, List.replicate 32 0, 1, false⟩] }, _, .writeback _ _ _ rfl (by intro x h; cases h) rfl⟩,
   ⟨{ run with wbuf := [⟨0, 0, 0, 0x80, List.replicate 32 0, 0xFFFFFFFF, true⟩] }, _, rfl,
    .writebackWhole _ _ _ rfl (by intro x h; cases h) rfl⟩⟩

/-- An operation of the current group. -/
def opOf (k : OpKind) : EngineOp := { id := 5, gang := 1, vf := 0, part := 0, die := 0, live := true, cancel := false, kind := k }
def runOp (k : OpKind) : State := funded { runOne with ops := [opOf k], nextId := 6 }
/-- A gather of one row of 32 bytes. -/
def rowGather : GatherOp :=
  { cluster := 0, ty := .z32, base := 0x1000, idx := 0x2000, n := 1, bound := 0, len := 32, stride := 32, dst := 1024, cw := 0, cv := 0 }

theorem wit_gather_reads : Meets EngineEvents (.gatherService 5) ∧
    (∃ s t, s.ops = [opOf (.gather { rowGather with row := some (some 0x1000) })] ∧ EngineEvents (.gatherService 5) s t) :=
  ⟨⟨runOp (.gather rowGather), _, .index _ _ _ _ _ _ rfl rfl rfl rfl rfl (by decide) rfl rfl (by decide)⟩,
   ⟨runOp (.gather { rowGather with row := some (some 0x1000) }), _, rfl, .rowRead _ _ _ _ _ _ _ rfl rfl rfl rfl rfl (by decide) rfl (by decide) rfl (by decide)⟩⟩
theorem wit_gather_writes : Meets EngineEvents (.gatherService 5) ∧ Meets EngineEvents (.gatherComplete 5) :=
  ⟨⟨runOp (.gather { rowGather with row := some none, buf := List.replicate 32 0 }), _,
      .rowWritten _ _ _ _ _ rfl rfl rfl rfl rfl (by decide) rfl (by decide) (by decide)⟩,
   ⟨runOp (.gather { rowGather with k := 1 }), _, .gathered _ _ _ _ rfl rfl rfl rfl (by decide) rfl rfl (by decide)⟩⟩
/-- A row of two sectors. -/
theorem wit_gather_sector : Meets EngineEvents (.gatherService 5) :=
  ⟨runOp (.gather { rowGather with len := 64, row := some none, buf := List.replicate 64 0 }), _,
    .sectorWritten _ _ _ _ _ rfl rfl rfl rfl rfl (by decide) rfl (by decide) (by decide)⟩

/-- A record of one dimension: element type code 0, one element. -/
def record : List Byte := (List.range 256).map fun i => if i = 9 ∨ i = 16 ∨ i = 208 then 1 else 0
def copyOf (shape : List Byte) (filling : Bool) : TcopyOp :=
  { out := false, sc := .die, cp := .dflt, loc := 0, len := 32, cw := 0, cv := 0, org := List.replicate 16 0, recAddr := 0x100, shape, filling, keep := true }

theorem wit_record : Meets EngineEvents (.recordFill 5) ∧
    (∃ s t, s.ops = [opOf (.tcopy (copyOf (List.replicate 224 0) true))] ∧ EngineEvents (.recordFill 5) s t) :=
  ⟨⟨runOp (.tcopy (copyOf [] true)), _, .recordMore _ _ _ _ _ _ _ _ rfl rfl rfl rfl rfl rfl (by decide) (by decide)⟩,
   ⟨runOp (.tcopy (copyOf (List.replicate 224 0) true)), _, rfl, .recordDone _ _ _ _ _ _ _ _ rfl rfl rfl rfl rfl rfl rfl rfl (by decide) (by decide)⟩⟩
theorem wit_copy : Meets EngineEvents (.tcopyComplete 5 1) ∧ Meets EngineEvents (.tcopyComplete 5 0) :=
  ⟨⟨runOp (.tcopy (copyOf record false)), _, .copied _ _ _ _ _ _ _ _ rfl rfl rfl rfl rfl rfl rfl rfl (by decide) rfl (by decide) (by decide)⟩,
   ⟨runOp (.tcopy (copyOf record false)), _, .copies _ _ _ _ _ _ _ _ rfl rfl rfl rfl rfl rfl (by decide) rfl (by decide) (by decide)⟩⟩

def putTile (landed : Option Nat) (status : Option W32) : PutOp :=
  { sc := .die, src := 0, len := 32, tgt := 0, dst := 1024, ctr := 0, cw := 0, cv := 0, landed, status }
def openGates : Vector Gate 24 := Vector.replicate 24 ⟨false, 0⟩

theorem wit_put_arrives : Meets EngineEvents (.putArrival 5) :=
  ⟨{ runOp (.put (putTile none none)) with gates := openGates }, _,
    .arrives _ _ _ _ _ rfl rfl rfl rfl rfl rfl rfl rfl (by
      intro t _ k h
      obtain ⟨b, n⟩ := t
      cases b <;> simp [Gang.owner, gang1] at h)⟩
theorem wit_put_lands : Meets EngineEvents (.putArrival 5) ∧ (∃ s t, s.gates = openGates ∧ EngineEvents (.putArrival 5) s t) ∧
    Meets EngineEvents (.putComplete 5) :=
  ⟨⟨runOp (.put (putTile none none)), _, .rejected _ _ _ _ rfl rfl rfl rfl rfl rfl⟩,
   ⟨{ runOp (.put (putTile (some 1) none)) with gates := openGates }, _, rfl, .lands _ _ _ _ _ rfl rfl rfl rfl rfl rfl (by decide)⟩,
   ⟨runOp (.put (putTile (some 1) (some 0))), _, .putEnds _ _ _ _ _ rfl rfl rfl rfl rfl rfl rfl (by decide)⟩⟩
theorem wit_watchdog : Meets EngineEvents (.barrierTimeout 1 0) :=
  ⟨{ runOne.park (.barrier 0 false) with gangs := [{ gang1 with wdog := 1, sets := [{ member := 3, arrv := 1, since := some 0 }] }], time := 1 }, _,
    .watchdog _ _ _ _ rfl rfl (by intro m h; omega)⟩

end Sys2Proof.Tests
end

