-- ==== Sys2Proof/Tests/Groups.lean ====
section
/-! SUPPORT. Witnesses of the statements about futures, spawning, barriers, read sections and the engines: for every row of their tables,
operands and a state that meet it. -/
namespace Sys2Proof.Tests
open Sys2Proof Sys2Proof.Machine Sys2Proof.Statements

set_option maxRecDepth 40000

def runFut (v : Future) : State := runOne.setFut 15 v
/-- A gang with export entries. -/
def runExpo (l : List ExpoEntry) : State := { runFut ⟨.resolved, 0x101, 7⟩ with gangs := [{ gang1 with expo := l }] }

theorem wit_futures : Meets Futures (.fwait 5 15) ∧ Meets Futures (.fcancel 15) :=
  ⟨⟨runFut ⟨.resolved, 0x101, 7⟩, _, .fwait _ _ _ rfl⟩, ⟨runOne, _, .fcancelIdle _ _ rfl⟩⟩
theorem wit_export : Meets Futures (.fexp 5 15) :=
  ⟨runExpo [⟨0, 0, 3, true, {}⟩], _, .fexp _ _ _ 1 _ (by decide) (by decide) rfl (by decide) rfl⟩
theorem wit_import : Meets Futures (.fimp 0 5) :=
  ⟨(runExpo [⟨0, 127, 1, true, ⟨.pending, 0, 9⟩⟩]).setRs 5 (127 + 2 ^ 9), _, .fimp _ _ _ ⟨0, 127, 1, true, ⟨.pending, 0, 9⟩⟩ rfl (by decide)⟩
theorem wit_futures_wait : Meets Futures (.fwait 5 15) ∧ Meets Futures (.fcancel 15) :=
  ⟨⟨runFut ⟨.pending, 0, 7⟩, _, .fwaitParks _ _ _ rfl⟩, ⟨runFut ⟨.pending, 0, 7⟩, _, .fcancelAsks _ _ rfl (by rintro ⟨_, _, _, _, _, _, h, -⟩; cases h)⟩⟩
theorem wit_futures_post : ∃ s t, s.ops ≠ [] ∧ Futures (.fcancel 15) s t :=
  ⟨{ runFut ⟨.pending, 0, 7⟩ with ops := [{ id := 7, gang := 1, vf := 0, part := 0, die := 0, live := true, cancel := false, kind := .dpost 7 3 true false 0 }] }, _,
    by decide, .fcancelPost _ _ rfl ⟨_, _, _, _, _, _, rfl, rfl⟩⟩
theorem wit_futures_cancel : (∃ s t, (s.fut 15).state = .resolved ∧ (s.fut 15).status.getLsbD 8 = false ∧ Futures (.fcancel 15) s t) ∧
    (∃ s t, (s.fut 15).state = .resolved ∧ (s.fut 15).status.getLsbD 8 = true ∧ Futures (.fcancel 15) s t) :=
  ⟨⟨runFut ⟨.resolved, 0, 7⟩, _, rfl, rfl, .fcancelDone _ _ rfl rfl⟩, ⟨runFut ⟨.resolved, 0x101, 7⟩, _, rfl, rfl, .fcancelHeld _ _ rfl rfl⟩⟩
theorem wit_export_full : Meets Futures (.fexp 5 15) :=
  ⟨runExpo ((List.range 128).map fun n => ⟨0, n, 1, true, {}⟩), _, .fexpFull _ _ _ (by decide) (by decide)⟩

/-- A gang with a role of 8 registers of frame and 8 of window, and the share of its context. -/
def runRoles (slots positions : Nat) : State :=
  { runOne with
    gangs := [{ gang1 with roles := [{ entry := 0x10000, f0 := 8, w := 8, g := 1 }] }]
    shares := [⟨0, 0, 0, 0, positions, slots, 0, 4, 0, 4, 0, 4, 0, 4⟩] }

theorem wit_spawn : Meets Spawns (.spawn 0 5 8) := ⟨runRoles 64 64, _, .spawned _ _ _ _ _ _ rfl rfl (by decide) (by decide)⟩
theorem wit_spawn_refused : Meets Spawns (.spawn 0 5 8) ∧ (∃ s t, 0 < s.freeSlots 0 0 0 0 0 ∧ Spawns (.spawn 0 5 8) s t) :=
  ⟨⟨runRoles 1 64, _, .noSlot _ _ _ _ _ _ rfl rfl (by decide)⟩, ⟨runRoles 64 4, _, by decide, .noPositions _ _ _ _ _ _ rfl rfl (by decide) (by decide)⟩⟩
theorem wit_spawn_full : Meets Spawns (.spawn 0 5 8) :=
  ⟨{ runRoles 64 64 with groups := (List.range 255).map fun i => { runGroup with gid := i + 1, key := i + 2 } }, _, .full _ _ _ _ _ rfl (by decide)⟩

/-- Set 2 of the gang, of which group 0 is a member. -/
def runSet (e : SetEntry) : State := { runOne.setRs 5 2 with gangs := [{ gang1 with sets := [{}, {}, e] }] }

theorem wit_barriers : Meets Barriers (.barv 6 5) ∧ Meets Barriers (.bsync 5) ∧ Meets Barriers (.setleave 5) :=
  have h : memberOf (runSet { member := 3 }) 5 2 { member := 3 } := ⟨rfl, rfl, rfl, rfl, rfl⟩
  ⟨⟨_, _, .barv _ _ _ _ _ _ h rfl rfl rfl⟩, ⟨_, _, .bsync _ _ _ _ _ h rfl rfl rfl⟩, ⟨_, _, .setleave _ _ _ _ _ h rfl rfl rfl⟩⟩
theorem wit_barriers_arrived : Meets Barriers (.barv 6 5) ∧ Meets Barriers (.bsync 5) ∧ Meets Barriers (.setleave 5) :=
  have h : memberOf (runSet { member := 3, arrv := 1 }) 5 2 { member := 3, arrv := 1 } := ⟨rfl, rfl, rfl, rfl, rfl⟩
  ⟨⟨_, _, .arrived _ _ _ _ _ (.inr (.inr ⟨_, rfl⟩)) h rfl rfl⟩, ⟨_, _, .arrived _ _ _ _ _ (.inl rfl) h rfl rfl⟩,
   ⟨_, _, .arrived _ _ _ _ _ (.inr (.inl rfl)) h rfl rfl⟩⟩
theorem wit_bwait : Meets Barriers (.bwait 5 6) ∧ (∃ s t, s.rs 6 = 0 ∧ Barriers (.bwait 5 6) s t) :=
  have h : memberOf ((runSet { member := 3 }).setRs 6 1) 5 2 { member := 3 } := ⟨rfl, rfl, rfl, rfl, rfl⟩
  have k : memberOf (runSet { member := 3 }) 5 2 { member := 3 } := ⟨rfl, rfl, rfl, rfl, rfl⟩
  ⟨⟨_, _, .bwaitOver _ _ _ _ _ h (by decide)⟩, ⟨_, _, rfl, .bwaitParks _ _ _ _ _ k rfl⟩⟩
/-- A phase that ends, and one that does not. -/
theorem wit_phase : ((runSet { member := 1, arrv := 1 }).gang 1).key = 1 ∧
    ((runSet { member := 1, arrv := 1 }).gang 1).sets[2]? = some { member := 1, arrv := 1 } ∧
    ((runSet { member := 3, arrv := 1 }).gang 1).sets[2]? = some { member := 3, arrv := 1 } ∧
    (0 < ones 256 (({ member := 1, arrv := 1 } : SetEntry).member &&& ~~~({ member := 1, arrv := 1 } : SetEntry).left) ∧
      ones 256 (({ member := 1, arrv := 1 } : SetEntry).member &&& ~~~({ member := 1, arrv := 1 } : SetEntry).left) = ones 256 1#256) :=
  ⟨rfl, rfl, rfl, by decide, by decide⟩

def runSection (n : BitVec 4) : State := runOne.setGrp fun g => { g with rsd := n }

theorem wit_sections : Meets Grace' .rsopen ∧ (∃ s t, s.grp.rsd = 14 ∧ Grace' .rsopen s t) ∧ Meets Grace' .rsclose ∧
    (∃ s t, s.grp.rsd = 2 ∧ Grace' .rsclose s t) :=
  ⟨⟨runOne, _, .rsopenFirst _ rfl rfl⟩, ⟨runSection 14, _, rfl, .rsopen _ rfl (by decide) (by decide)⟩,
   ⟨runSection 1, _, .rscloseLast _ rfl rfl rfl rfl⟩, ⟨runSection 2, _, rfl, .rsclose _ rfl (by decide) (by decide) rfl rfl⟩⟩
theorem wit_grace : Meets Grace' (.gpwait 5) ∧ Meets Grace' (.gpwaitT 5 6) ∧ Meets Grace' (.gpwaitF 15) ∧ Meets Grace' (.gpwaitFT 15 6) :=
  ⟨⟨runOne, _, .gpwait _ _ _ _ _ _ _ (.plain _) rfl (by decide) rfl rfl⟩, ⟨runOne, _, .gpwait _ _ _ _ _ _ _ (.timed _ _) rfl (by decide) rfl rfl⟩,
   ⟨runOne, _, .gpwait _ _ _ _ _ _ _ (.future _) rfl (by decide) rfl rfl⟩,
   ⟨runOne, _, .gpwait _ _ _ _ _ _ _ (.timedFuture _ _) rfl (by decide) rfl rfl⟩⟩

/-- Pages of kind ATOMIC_HOME. -/
def homeTlb : List TlbEntry := [{ mapped none with kind := .atomicHome }, { mapped (some (0, 0)) with kind := .atomicHome }]

theorem wit_dfree : Meets Grace' (.dfree 8) :=
  ⟨{ runOneWith [(8, 0x40), (9, 4), (10, 0x100)] with tlb := homeTlb }, _,
    .dfree _ _ _ _ (by decide) (by decide) (by decide) (by decide) rfl rfl (by intro c h; cases h; decide)⟩

/-- The context with its deferred-free queue full. -/
def ctxFull : Ctx := { ctx0 with batches := [{ entries := List.replicate 65536 (0, 4, 0), since := 0, state := .opened }] }
theorem full_queue : 65536 ≤ ctxFull.queued := by
  have h (n : Nat) (x : W64 × Nat × W64) : [(List.replicate n x).length].sum = n := by simp
  exact Nat.le_of_eq (h 65536 (0, 4, 0)).symm
theorem wit_dfree_waits : ∃ s t, (∃ x c h, t.slot.park = .dfree x c h) ∧ Grace' (.dfree 8) s t :=
  ⟨{ runOneWith [(8, 0x40), (9, 4), (10, 0x100)] with tlb := homeTlb, ctxs := [ctxFull] }, _, ⟨_, _, _, rfl⟩,
    .dfreeWaits _ _ _ _ ctxFull (by decide) (by decide) (by decide) (by decide) rfl rfl rfl full_queue⟩

/-- A gather of N rows of 32 bytes into gang memory. -/
def runGather (n : W64) : State := { runOneWith [(8, 0x1000), (9, 0x2000), (10, n), (11, 32), (12, 32), (13, 1024)] with nextId := 9 }

theorem wit_gather : Meets Engines (.gather .z32 15 8) ∧ (∃ s t, (s.rsAt 8 2).toNat % 2 ^ 32 = 32 ∧ Engines (.gather .z32 15 8) s t) :=
  ⟨⟨runGather 0x700000000, _, .gatherNone _ _ _ _ _ rfl
      ⟨by decide, by decide, by decide, by decide, by decide, by decide, by decide, by decide⟩ rfl (by decide)⟩,
   ⟨runGather 0x700000020, _, by decide, .gather _ _ _ _ _ rfl
      ⟨by decide, by decide, by decide, by decide, by decide, by decide, by decide, by decide⟩ rfl (by decide) (by unfold threadTiles; decide) (by decide)⟩⟩

/-- A copy of 4096 bytes of gang memory under the record at 0x100. -/
def runCopy : State := runOneWith [(8, 0x100), (9, 0), (10, 4096)]

theorem wit_tcopy : Meets Engines (.tcopy true .gang .rel .keep 15 8) ∧ (∃ s t, s.recs ≠ [] ∧ Engines (.tcopy false .sys .rlx .strm 15 8) s t) :=
  ⟨⟨runCopy, _, .tcopyCold _ _ _ _ _ _ _ _ _ rfl
      ⟨by decide, by decide, by decide, by decide, by decide, by unfold threadTiles; decide⟩ rfl rfl rfl⟩,
   ⟨{ runCopy with recs := [⟨0, 0, 0, 0x100, []⟩] }, _, by decide, .tcopyWarm _ _ _ _ _ _ _ _ _ _ rfl
      ⟨by decide, by decide, by decide, by decide, by decide, by unfold threadTiles; decide⟩ rfl rfl rfl⟩⟩
theorem wit_put : Meets Engines (.put true .die .rel 15 8) :=
  ⟨{ runOneWith [(8, 0x10000000), (9, 4096), (10, 0), (11, 0x10000000)] with
      gateCopy := Vector.replicate 24 ⟨false, 0⟩, gangs := [{ gang1 with scratch := 1 }] }, _,
    .put _ _ _ _ _ _ _ _ _ rfl ⟨by decide, by decide, by decide, by decide, by decide, by decide, by decide, by decide, by decide, by unfold threadTiles; decide⟩
      rfl rfl rfl (by decide) rfl⟩
theorem wit_tiles : Meets Engines (.rfence 5) ∧ Meets Engines (.townThread 5 6) ∧ Meets Engines (.townEngine 5 6) :=
  ⟨⟨runOneWith [(5, 0x300)], _, .rfence _ _ (by decide) (by intro o h; cases h) (by intro e h; cases h)⟩, ⟨runOneWith [(5, 1024)], _, .townNone _ _ _ _ (.inl rfl) rfl⟩,
   ⟨runOneWith [(5, 1)], _, .townNone _ _ _ _ (.inr rfl) rfl⟩⟩
theorem unowned (t : Bool × Nat) (k : Nat) : gang1.owner t ≠ .engine k := by
  obtain ⟨b, n⟩ := t
  cases b <;> simp [Gang.owner, gang1]
theorem wit_town : Meets Engines (.townThread 5 6) ∧ Meets Engines (.townEngine 5 6) :=
  ⟨⟨runOneWith [(5, 3072), (6, 1024)], _, .townThread _ _ _ (by decide) (by decide) (by decide) rfl fun t _ k => unowned t k⟩,
   ⟨runOneWith [(5, 0x10000000), (6, 4096)], _, .townEngine _ _ _ (by decide) (by decide) (by decide) rfl fun t _ k => unowned t k⟩⟩

end Sys2Proof.Tests
end

