-- ==== Sys2Proof/Tests/Lanes.lean ====
section
/-! SUPPORT. Witnesses of the statements about scalar, predicate and lane instructions: for every row of their tables, operands (wide
types, the highest registers of the frame) and a state that meet the row's hypotheses. -/
namespace Sys2Proof.Tests
open Sys2Proof Sys2Proof.Machine Sys2Proof.Statements

def ArithMeets (i : Instr) : Prop := ∃ d n f, ScalarArith i d n f
def ReadMeets (i : Instr) : Prop := ∃ d n f, ScalarRead i d n f
def PredWriteMeets (i : Instr) : Prop := ∃ g d n f, PredWrite i g d n f
def LaneMeets (i : Instr) : Prop :=
  ∃ g reads d n words f, LaneWrite i g reads d n words f ∧ i.wf = true ∧ run.vcheck reads [(d, n)] = .ok ()
def RoundMeets (i : Instr) : Prop :=
  ∃ g rnd draws reads d n words f, RoundWrite i g rnd draws reads d n words f ∧ i.wf = true ∧ run.vcheck reads [(d, n)] = .ok ()
def FlagMeets (i : Instr) : Prop :=
  ∃ g reads d n words f, FlagWrite i g reads d n words f ∧ i.wf = true ∧ run.vcheck reads [(d, n)] = .ok ()
def PredMeets (i : Instr) : Prop := ∃ g reads d f, PredLane i g reads d f ∧ i.wf = true ∧ run.vcheck reads [] = .ok ()
def ReduceMeets (i : Instr) : Prop := ∃ g t a d words f, Reduce i g t a d words f ∧ i.wf = true ∧ run.vcheck [(a, tyRegs t)] [] = .ok ()
def SpecialMeets (i : Instr) : Prop := ∃ fn g d a words, Special i fn g d a words ∧ run.vcheck [(a, 1)] [(d, 1)] = .ok ()

theorem wit_scalar_arithmetic :
    ArithMeets (.sadd 63 5 5) ∧
    ArithMeets (.saddLit 63 5 0xFFFFFFFFFFFFFFFF) ∧
    ArithMeets (.saddImm 63 5 0x1F) ∧
    ArithMeets (.ssub 63 5 5) ∧
    ArithMeets (.ssubLit 63 5 0xFFFFFFFFFFFFFFFF) ∧
    ArithMeets (.smul 63 5 5) ∧
    ArithMeets (.smulLit 63 5 0xFFFFFFFFFFFFFFFF) ∧
    ArithMeets (.smulh false 63 5 5) ∧
    ArithMeets (.smulhLit false 63 5 0xFFFFFFFFFFFFFFFF) ∧
    ArithMeets (.sand 63 5 5) ∧
    ArithMeets (.sandLit 63 5 0xFFFFFFFFFFFFFFFF) ∧
    ArithMeets (.sandImm 63 5 0x1F) ∧
    ArithMeets (.sor 63 5 5) ∧
    ArithMeets (.sorLit 63 5 0xFFFFFFFFFFFFFFFF) ∧
    ArithMeets (.sorImm 63 5 0x1F) ∧
    ArithMeets (.sxor 63 5 5) ∧
    ArithMeets (.sxorLit 63 5 0xFFFFFFFFFFFFFFFF) ∧
    ArithMeets (.sxorImm 63 5 0x1F) ∧
    ArithMeets (.sshl 63 5 5) ∧
    ArithMeets (.sshlImm 63 5 0x1F) ∧
    ArithMeets (.sshr 63 5 5) ∧
    ArithMeets (.sshrImm 63 5 0x1F) ∧
    ArithMeets (.ssra 63 5 5) ∧
    ArithMeets (.ssraImm 63 5 0x1F) ∧
    ArithMeets (.smin false 63 5 5) ∧
    ArithMeets (.sminLit false 63 5 0xFFFFFFFFFFFFFFFF) ∧
    ArithMeets (.smax false 63 5 5) ∧
    ArithMeets (.smaxLit false 63 5 0xFFFFFFFFFFFFFFFF) ∧
    ArithMeets (.scmp .geu 63 5 5) ∧
    ArithMeets (.scmpLit .geu 63 5 0xFFFFFFFFFFFFFFFF) ∧
    ArithMeets (.ssel 63 5 5 5) ∧
    ArithMeets (.smov 63 5) ∧
    ArithMeets (.sliW2 63 0x80000000) ∧
    ArithMeets (.sliLit 63 0xFFFFFFFFFFFFFFFF) ∧
    ArithMeets (.sliImm 63 0x1F) ∧
    ArithMeets (.spopc 63 5) ∧
    ArithMeets (.sclz 63 5) :=
  ⟨⟨_, _, _, .sadd _ _ _⟩,
   ⟨_, _, _, .saddLit _ _ _⟩,
   ⟨_, _, _, .saddImm _ _ _⟩,
   ⟨_, _, _, .ssub _ _ _⟩,
   ⟨_, _, _, .ssubLit _ _ _⟩,
   ⟨_, _, _, .smul _ _ _⟩,
   ⟨_, _, _, .smulLit _ _ _⟩,
   ⟨_, _, _, .smulh _ _ _ _⟩,
   ⟨_, _, _, .smulhLit _ _ _ _⟩,
   ⟨_, _, _, .sand _ _ _⟩,
   ⟨_, _, _, .sandLit _ _ _⟩,
   ⟨_, _, _, .sandImm _ _ _⟩,
   ⟨_, _, _, .sor _ _ _⟩,
   ⟨_, _, _, .sorLit _ _ _⟩,
   ⟨_, _, _, .sorImm _ _ _⟩,
   ⟨_, _, _, .sxor _ _ _⟩,
   ⟨_, _, _, .sxorLit _ _ _⟩,
   ⟨_, _, _, .sxorImm _ _ _⟩,
   ⟨_, _, _, .sshl _ _ _⟩,
   ⟨_, _, _, .sshlImm _ _ _⟩,
   ⟨_, _, _, .sshr _ _ _⟩,
   ⟨_, _, _, .sshrImm _ _ _⟩,
   ⟨_, _, _, .ssra _ _ _⟩,
   ⟨_, _, _, .ssraImm _ _ _⟩,
   ⟨_, _, _, .smin _ _ _ _⟩,
   ⟨_, _, _, .sminLit _ _ _ _⟩,
   ⟨_, _, _, .smax _ _ _ _⟩,
   ⟨_, _, _, .smaxLit _ _ _ _⟩,
   ⟨_, _, _, .scmp _ _ _ _⟩,
   ⟨_, _, _, .scmpLit _ _ _ _⟩,
   ⟨_, _, _, .ssel _ _ _ _⟩,
   ⟨_, _, _, .smov _ _⟩,
   ⟨_, _, _, .sliW2 _ _⟩,
   ⟨_, _, _, .sliLit _ _⟩,
   ⟨_, _, _, .sliImm _ _⟩,
   ⟨_, _, _, .spopc _ _⟩,
   ⟨_, _, _, .sclz _ _⟩⟩

theorem wit_scalar_reads :
    ReadMeets (.sget 63 .exec) ∧
    ReadMeets (.sget 63 .gid) ∧
    ReadMeets (.sget 63 .role) ∧
    ReadMeets (.sget 63 .gang) ∧
    ReadMeets (.sget 63 .core) ∧
    ReadMeets (.sget 63 .cluster) ∧
    ReadMeets (.sget 63 .die) ∧
    ReadMeets (.sget 63 .pkg) ∧
    ReadMeets (.sget 63 .sp) ∧
    ReadMeets (.sget 63 .sl) ∧
    ReadMeets (.sget 63 .tfp) ∧
    ReadMeets (.sget 63 .dtb) ∧
    ReadMeets (.sget 63 .dtl) ∧
    ReadMeets (.sget 63 .rngk) ∧
    ReadMeets (.sget 63 .rngc) ∧
    ReadMeets (.sget 63 .fmode) ∧
    ReadMeets (.sget 63 .time) ∧
    ReadMeets (.sget 63 .wcnt) ∧
    ReadMeets (.sget 63 .rsd) ∧
    ReadMeets (.exget 63) ∧
    ReadMeets (.pany 63 7) ∧
    ReadMeets (.pall 63 7) ∧
    ReadMeets (.vballot 63 7) ∧
    ReadMeets (.vballotW1 (some ⟨true, 7⟩) 63 7) ∧
    ReadMeets (.ftest 63 15) :=
  ⟨⟨_, _, _, .exec _⟩,
   ⟨_, _, _, .gid _⟩,
   ⟨_, _, _, .role _⟩,
   ⟨_, _, _, .gang _⟩,
   ⟨_, _, _, .core _⟩,
   ⟨_, _, _, .cluster _⟩,
   ⟨_, _, _, .die _⟩,
   ⟨_, _, _, .pkg _⟩,
   ⟨_, _, _, .sp _⟩,
   ⟨_, _, _, .sl _⟩,
   ⟨_, _, _, .tfp _⟩,
   ⟨_, _, _, .dtb _⟩,
   ⟨_, _, _, .dtl _⟩,
   ⟨_, _, _, .rngk _⟩,
   ⟨_, _, _, .rngc _⟩,
   ⟨_, _, _, .fmode _⟩,
   ⟨_, _, _, .time _⟩,
   ⟨_, _, _, .wcnt _⟩,
   ⟨_, _, _, .rsd _⟩,
   ⟨_, _, _, .exget _⟩,
   ⟨_, _, _, .pany _ _⟩,
   ⟨_, _, _, .pall _ _⟩,
   ⟨_, _, _, .vballot _ _⟩,
   ⟨_, _, _, .vballotW1 _ _ _⟩,
   ⟨_, _, _, .ftestIdle _ _⟩⟩

theorem wit_predicate_writes :
    PredWriteMeets (.pand false 7 7 7) ∧
    PredWriteMeets (.pandW1 (some ⟨true, 7⟩) false 7 7 7) ∧
    PredWriteMeets (.por false 7 7 7) ∧
    PredWriteMeets (.porW1 (some ⟨true, 7⟩) false 7 7 7) ∧
    PredWriteMeets (.pxor false 7 7 7) ∧
    PredWriteMeets (.pxorW1 (some ⟨true, 7⟩) false 7 7 7) ∧
    PredWriteMeets (.pnot 7 7) ∧
    PredWriteMeets (.pnotW1 (some ⟨true, 7⟩) 7 7) ∧
    PredWriteMeets (.pmov 7 7) ∧
    PredWriteMeets (.pmovW1 (some ⟨true, 7⟩) 7 7) :=
  ⟨⟨_, _, _, _, .pand _ _ _ _⟩,
   ⟨_, _, _, _, .pandW1 _ _ _ _ _⟩,
   ⟨_, _, _, _, .por _ _ _ _⟩,
   ⟨_, _, _, _, .porW1 _ _ _ _ _⟩,
   ⟨_, _, _, _, .pxor _ _ _ _⟩,
   ⟨_, _, _, _, .pxorW1 _ _ _ _ _⟩,
   ⟨_, _, _, _, .pnot _ _⟩,
   ⟨_, _, _, _, .pnotW1 _ _ _⟩,
   ⟨_, _, _, _, .pmov _ _⟩,
   ⟨_, _, _, _, .pmovW1 _ _ _⟩⟩

theorem wit_lanes_1 :
    LaneMeets (.vadd false 10 8 6) ∧
    LaneMeets (.vaddW1 (some ⟨true, 7⟩) .i64 false false 10 8 6) ∧
    LaneMeets (.vaddLit 10 8 0xFFFFFFFFFFFFFFFF) ∧
    LaneMeets (.vaddLitW1 (some ⟨true, 7⟩) .i64 false 10 8 0xFFFFFFFFFFFFFFFF) ∧
    LaneMeets (.vaddImm 10 8 0x1F) ∧
    LaneMeets (.vsub false 10 8 6) ∧
    LaneMeets (.vsubW1 (some ⟨true, 7⟩) .i64 false false 10 8 6) ∧
    LaneMeets (.vsubLit 10 8 0xFFFFFFFFFFFFFFFF) ∧
    LaneMeets (.vsubLitW1 (some ⟨true, 7⟩) .i64 false 10 8 0xFFFFFFFFFFFFFFFF) ∧
    LaneMeets (.vmul false 10 8 6) ∧
    LaneMeets (.vmulW1 (some ⟨true, 7⟩) .i64 false false 10 8 6) ∧
    LaneMeets (.vmulLit 10 8 0xFFFFFFFFFFFFFFFF) ∧
    LaneMeets (.vmulLitW1 (some ⟨true, 7⟩) .i64 false 10 8 0xFFFFFFFFFFFFFFFF) ∧
    LaneMeets (.vmulh false false 10 8 6) ∧
    LaneMeets (.vmulhW1 (some ⟨true, 7⟩) .i64 false false 10 8 6) ∧
    LaneMeets (.vmad (some ⟨true, 7⟩) .i64 false false 10 8 6 4) ∧
    LaneMeets (.vand false 10 8 6) ∧
    LaneMeets (.vandW1 (some ⟨true, 7⟩) .i64 false 10 8 6) ∧
    LaneMeets (.vandLit 10 8 0xFFFFFFFFFFFFFFFF) ∧
    LaneMeets (.vandLitW1 (some ⟨true, 7⟩) .i64 10 8 0xFFFFFFFFFFFFFFFF) ∧
    LaneMeets (.vandImm 10 8 0x1F) ∧
    LaneMeets (.vor false 10 8 6) ∧
    LaneMeets (.vorW1 (some ⟨true, 7⟩) .i64 false 10 8 6) ∧
    LaneMeets (.vorLit 10 8 0xFFFFFFFFFFFFFFFF) :=
  ⟨⟨_, _, _, _, _, _, .vadd _ _ _ _, rfl, rfl⟩,
   ⟨_, _, _, _, _, _, .vaddW1 _ _ _ _ _ _ _, rfl, rfl⟩,
   ⟨_, _, _, _, _, _, .vaddLit _ _ _, rfl, rfl⟩,
   ⟨_, _, _, _, _, _, .vaddLitW1 _ _ _ _ _ _, rfl, rfl⟩,
   ⟨_, _, _, _, _, _, .vaddImm _ _ _, rfl, rfl⟩,
   ⟨_, _, _, _, _, _, .vsub _ _ _ _, rfl, rfl⟩,
   ⟨_, _, _, _, _, _, .vsubW1 _ _ _ _ _ _ _, rfl, rfl⟩,
   ⟨_, _, _, _, _, _, .vsubLit _ _ _, rfl, rfl⟩,
   ⟨_, _, _, _, _, _, .vsubLitW1 _ _ _ _ _ _, rfl, rfl⟩,
   ⟨_, _, _, _, _, _, .vmul _ _ _ _, rfl, rfl⟩,
   ⟨_, _, _, _, _, _, .vmulW1 _ _ _ _ _ _ _, rfl, rfl⟩,
   ⟨_, _, _, _, _, _, .vmulLit _ _ _, rfl, rfl⟩,
   ⟨_, _, _, _, _, _, .vmulLitW1 _ _ _ _ _ _, rfl, rfl⟩,
   ⟨_, _, _, _, _, _, .vmulh _ _ _ _ _, rfl, rfl⟩,
   ⟨_, _, _, _, _, _, .vmulhW1 _ _ _ _ _ _ _, rfl, rfl⟩,
   ⟨_, _, _, _, _, _, .vmad _ _ _ _ _ _ _ _, rfl, rfl⟩,
   ⟨_, _, _, _, _, _, .vand _ _ _ _, rfl, rfl⟩,
   ⟨_, _, _, _, _, _, .vandW1 _ _ _ _ _ _, rfl, rfl⟩,
   ⟨_, _, _, _, _, _, .vandLit _ _ _, rfl, rfl⟩,
   ⟨_, _, _, _, _, _, .vandLitW1 _ _ _ _ _, rfl, rfl⟩,
   ⟨_, _, _, _, _, _, .vandImm _ _ _, rfl, rfl⟩,
   ⟨_, _, _, _, _, _, .vor _ _ _ _, rfl, rfl⟩,
   ⟨_, _, _, _, _, _, .vorW1 _ _ _ _ _ _, rfl, rfl⟩,
   ⟨_, _, _, _, _, _, .vorLit _ _ _, rfl, rfl⟩⟩

theorem wit_lanes_2 :
    LaneMeets (.vorLitW1 (some ⟨true, 7⟩) .i64 10 8 0xFFFFFFFFFFFFFFFF) ∧
    LaneMeets (.vxor false 10 8 6) ∧
    LaneMeets (.vxorW1 (some ⟨true, 7⟩) .i64 false 10 8 6) ∧
    LaneMeets (.vxorLit 10 8 0xFFFFFFFFFFFFFFFF) ∧
    LaneMeets (.vxorLitW1 (some ⟨true, 7⟩) .i64 10 8 0xFFFFFFFFFFFFFFFF) ∧
    LaneMeets (.vshl false 10 8 6) ∧
    LaneMeets (.vshlW1 (some ⟨true, 7⟩) .i64 false 10 8 6) ∧
    LaneMeets (.vshlImm 10 8 0x1F) ∧
    LaneMeets (.vshr false 10 8 6) ∧
    LaneMeets (.vshrW1 (some ⟨true, 7⟩) .i64 false 10 8 6) ∧
    LaneMeets (.vshrImm 10 8 0x1F) ∧
    LaneMeets (.vsra false 10 8 6) ∧
    LaneMeets (.vsraW1 (some ⟨true, 7⟩) .i64 false 10 8 6) ∧
    LaneMeets (.vsraImm 10 8 0x1F) ∧
    LaneMeets (.vmin false false 10 8 6) ∧
    LaneMeets (.vminW1 (some ⟨true, 7⟩) .i64 false false 10 8 6) ∧
    LaneMeets (.vminLit false 10 8 0xFFFFFFFFFFFFFFFF) ∧
    LaneMeets (.vminLitW1 (some ⟨true, 7⟩) .i64 false 10 8 0xFFFFFFFFFFFFFFFF) ∧
    LaneMeets (.vmax false false 10 8 6) ∧
    LaneMeets (.vmaxW1 (some ⟨true, 7⟩) .i64 false false 10 8 6) ∧
    LaneMeets (.vmaxLit false 10 8 0xFFFFFFFFFFFFFFFF) ∧
    LaneMeets (.vmaxLitW1 (some ⟨true, 7⟩) .i64 false 10 8 0xFFFFFFFFFFFFFFFF) ∧
    LaneMeets (.vpopc 10 8) ∧
    LaneMeets (.vpopcW1 (some ⟨true, 7⟩) .i64 10 8) :=
  ⟨⟨_, _, _, _, _, _, .vorLitW1 _ _ _ _ _, rfl, rfl⟩,
   ⟨_, _, _, _, _, _, .vxor _ _ _ _, rfl, rfl⟩,
   ⟨_, _, _, _, _, _, .vxorW1 _ _ _ _ _ _, rfl, rfl⟩,
   ⟨_, _, _, _, _, _, .vxorLit _ _ _, rfl, rfl⟩,
   ⟨_, _, _, _, _, _, .vxorLitW1 _ _ _ _ _, rfl, rfl⟩,
   ⟨_, _, _, _, _, _, .vshl _ _ _ _, rfl, rfl⟩,
   ⟨_, _, _, _, _, _, .vshlW1 _ _ _ _ _ _, rfl, rfl⟩,
   ⟨_, _, _, _, _, _, .vshlImm _ _ _, rfl, rfl⟩,
   ⟨_, _, _, _, _, _, .vshr _ _ _ _, rfl, rfl⟩,
   ⟨_, _, _, _, _, _, .vshrW1 _ _ _ _ _ _, rfl, rfl⟩,
   ⟨_, _, _, _, _, _, .vshrImm _ _ _, rfl, rfl⟩,
   ⟨_, _, _, _, _, _, .vsra _ _ _ _, rfl, rfl⟩,
   ⟨_, _, _, _, _, _, .vsraW1 _ _ _ _ _ _, rfl, rfl⟩,
   ⟨_, _, _, _, _, _, .vsraImm _ _ _, rfl, rfl⟩,
   ⟨_, _, _, _, _, _, .vmin _ _ _ _ _, rfl, rfl⟩,
   ⟨_, _, _, _, _, _, .vminW1 _ _ _ _ _ _ _, rfl, rfl⟩,
   ⟨_, _, _, _, _, _, .vminLit _ _ _ _, rfl, rfl⟩,
   ⟨_, _, _, _, _, _, .vminLitW1 _ _ _ _ _ _, rfl, rfl⟩,
   ⟨_, _, _, _, _, _, .vmax _ _ _ _ _, rfl, rfl⟩,
   ⟨_, _, _, _, _, _, .vmaxW1 _ _ _ _ _ _ _, rfl, rfl⟩,
   ⟨_, _, _, _, _, _, .vmaxLit _ _ _ _, rfl, rfl⟩,
   ⟨_, _, _, _, _, _, .vmaxLitW1 _ _ _ _ _ _, rfl, rfl⟩,
   ⟨_, _, _, _, _, _, .vpopc _ _, rfl, rfl⟩,
   ⟨_, _, _, _, _, _, .vpopcW1 _ _ _ _, rfl, rfl⟩⟩

theorem wit_lanes_3 :
    LaneMeets (.vclz 10 8) ∧
    LaneMeets (.vclzW1 (some ⟨true, 7⟩) .i64 10 8) ∧
    LaneMeets (.vbfe (some ⟨true, 7⟩) .i64 false 10 8 0 64) ∧
    LaneMeets (.vbfi (some ⟨true, 7⟩) .i64 10 8 0 64) ∧
    LaneMeets (.vsel (some ⟨true, 7⟩) .f64 10 8 6 7) ∧
    LaneMeets (.vmov false 10 8) ∧
    LaneMeets (.vmovW1 (some ⟨true, 7⟩) .f64 false 10 8) ∧
    LaneMeets (.vmovLit 10 0xFFFFFFFFFFFFFFFF) ∧
    LaneMeets (.vmovLitW1 (some ⟨true, 7⟩) .i64 10 0xFFFFFFFFFFFFFFFF) ∧
    LaneMeets (.vshfl 3 10 8 6) ∧
    LaneMeets (.vshflW1 (some ⟨true, 7⟩) .f64 3 10 8 6) ∧
    LaneMeets (.vrot 10 8 5) ∧
    LaneMeets (.vrotW1 (some ⟨true, 7⟩) .i64 10 8 5) ∧
    LaneMeets (.vbcast 10 8 5) ∧
    LaneMeets (.vbcastW1 (some ⟨true, 7⟩) .i64 10 8 5) ∧
    LaneMeets (.vdot4 false false 10 8 6) ∧
    LaneMeets (.vdot4W1 (some ⟨true, 7⟩) false false false 10 8 6 4) ∧
    LaneMeets (.fclass 10 8) ∧
    LaneMeets (.fclassW1 (some ⟨true, 7⟩) .f64 10 8) ∧
    LaneMeets (.ppack 10) ∧
    LaneMeets (.ppackW1 (some ⟨true, 7⟩) 10) :=
  ⟨⟨_, _, _, _, _, _, .vclz _ _, rfl, rfl⟩,
   ⟨_, _, _, _, _, _, .vclzW1 _ _ _ _, rfl, rfl⟩,
   ⟨_, _, _, _, _, _, .vbfe _ _ _ _ _ _ _ (by decide), rfl, rfl⟩,
   ⟨_, _, _, _, _, _, .vbfi _ _ _ _ _ _ (by decide), rfl, rfl⟩,
   ⟨_, _, _, _, _, _, .vsel _ _ _ _ _ _, rfl, rfl⟩,
   ⟨_, _, _, _, _, _, .vmov _ _ _, rfl, rfl⟩,
   ⟨_, _, _, _, _, _, .vmovW1 _ _ _ _ _, rfl, rfl⟩,
   ⟨_, _, _, _, _, _, .vmovLit _ _, rfl, rfl⟩,
   ⟨_, _, _, _, _, _, .vmovLitW1 _ _ _ _, rfl, rfl⟩,
   ⟨_, _, _, _, _, _, .vshfl _ _ _ _, rfl, rfl⟩,
   ⟨_, _, _, _, _, _, .vshflW1 _ _ _ _ _ _, rfl, rfl⟩,
   ⟨_, _, _, _, _, _, .vrot _ _ _, rfl, rfl⟩,
   ⟨_, _, _, _, _, _, .vrotW1 _ _ _ _ _, rfl, rfl⟩,
   ⟨_, _, _, _, _, _, .vbcast _ _ _, rfl, rfl⟩,
   ⟨_, _, _, _, _, _, .vbcastW1 _ _ _ _ _, rfl, rfl⟩,
   ⟨_, _, _, _, _, _, .vdot4 _ _ _ _ _, rfl, rfl⟩,
   ⟨_, _, _, _, _, _, .vdot4W1 _ _ _ _ _ _ _ _, rfl, rfl⟩,
   ⟨_, _, _, _, _, _, .fclass _ _, rfl, rfl⟩,
   ⟨_, _, _, _, _, _, .fclassW1 _ _ _ _, rfl, rfl⟩,
   ⟨_, _, _, _, _, _, .ppack _, rfl, rfl⟩,
   ⟨_, _, _, _, _, _, .ppackW1 _ _, rfl, rfl⟩⟩

theorem wit_rounded :
    RoundMeets (.fadd false 10 8 6) ∧
    RoundMeets (.faddW1 (some ⟨true, 7⟩) .f64 .sr false 10 8 6) ∧
    RoundMeets (.fsub false 10 8 6) ∧
    RoundMeets (.fsubW1 (some ⟨true, 7⟩) .f64 .sr false 10 8 6) ∧
    RoundMeets (.fmul false 10 8 6) ∧
    RoundMeets (.fmulW1 (some ⟨true, 7⟩) .f64 .sr false 10 8 6) ∧
    RoundMeets (.ffma false false false 10 8 6) ∧
    RoundMeets (.ffmaW1 (some ⟨true, 7⟩) .f64 .sr false false false 10 8 6 4) ∧
    RoundMeets (.frnd (some ⟨true, 7⟩) .f64 .sr 10 8) ∧
    RoundMeets (.cvt (some ⟨true, 7⟩) .f64 .sr false .i64 10 8) ∧
    RoundMeets (.pkadd 10 8 6) ∧
    RoundMeets (.pkaddW1 (some ⟨true, 7⟩) .bf16 .sr 10 8 6) ∧
    RoundMeets (.pkmul 10 8 6) ∧
    RoundMeets (.pkmulW1 (some ⟨true, 7⟩) .bf16 .sr 10 8 6) ∧
    RoundMeets (.pkfma 10 8 6) ∧
    RoundMeets (.pkfmaW1 (some ⟨true, 7⟩) .bf16 .sr 10 8 6 4) :=
  ⟨⟨_, _, _, _, _, _, _, _, .fadd _ _ _ _, rfl, rfl⟩,
   ⟨_, _, _, _, _, _, _, _, .faddW1 _ _ _ _ _ _ _, rfl, rfl⟩,
   ⟨_, _, _, _, _, _, _, _, .fsub _ _ _ _, rfl, rfl⟩,
   ⟨_, _, _, _, _, _, _, _, .fsubW1 _ _ _ _ _ _ _, rfl, rfl⟩,
   ⟨_, _, _, _, _, _, _, _, .fmul _ _ _ _, rfl, rfl⟩,
   ⟨_, _, _, _, _, _, _, _, .fmulW1 _ _ _ _ _ _ _, rfl, rfl⟩,
   ⟨_, _, _, _, _, _, _, _, .ffma _ _ _ _ _ _, rfl, rfl⟩,
   ⟨_, _, _, _, _, _, _, _, .ffmaW1 _ _ _ _ _ _ _ _ _ _, rfl, rfl⟩,
   ⟨_, _, _, _, _, _, _, _, .frnd _ _ _ _ _, rfl, rfl⟩,
   ⟨_, _, _, _, _, _, _, _, .cvt _ _ _ _ _ _ _, rfl, rfl⟩,
   ⟨_, _, _, _, _, _, _, _, .pkadd _ _ _, rfl, rfl⟩,
   ⟨_, _, _, _, _, _, _, _, .pkaddW1 _ _ _ _ _ _, rfl, rfl⟩,
   ⟨_, _, _, _, _, _, _, _, .pkmul _ _ _, rfl, rfl⟩,
   ⟨_, _, _, _, _, _, _, _, .pkmulW1 _ _ _ _ _ _, rfl, rfl⟩,
   ⟨_, _, _, _, _, _, _, _, .pkfma _ _ _, rfl, rfl⟩,
   ⟨_, _, _, _, _, _, _, _, .pkfmaW1 _ _ _ _ _ _ _, rfl, rfl⟩⟩

theorem wit_flagged :
    FlagMeets (.fmin false 10 8 6) ∧
    FlagMeets (.fminW1 (some ⟨true, 7⟩) .f64 false 10 8 6) ∧
    FlagMeets (.fmax false 10 8 6) ∧
    FlagMeets (.fmaxW1 (some ⟨true, 7⟩) .f64 false 10 8 6) ∧
    FlagMeets (.vdot2h 10 8 6) ∧
    FlagMeets (.vdot2hW1 (some ⟨true, 7⟩) .bf16 10 8 6 4) ∧
    FlagMeets (.vscan (some ⟨true, 7⟩) .f64 .max false 10 8) :=
  ⟨⟨_, _, _, _, _, _, .fmin _ _ _ _, rfl, rfl⟩,
   ⟨_, _, _, _, _, _, .fminW1 _ _ _ _ _ _, rfl, rfl⟩,
   ⟨_, _, _, _, _, _, .fmax _ _ _ _, rfl, rfl⟩,
   ⟨_, _, _, _, _, _, .fmaxW1 _ _ _ _ _ _, rfl, rfl⟩,
   ⟨_, _, _, _, _, _, .vdot2h _ _ _, rfl, rfl⟩,
   ⟨_, _, _, _, _, _, .vdot2hW1 _ _ _ _ _ _, rfl, rfl⟩,
   ⟨_, _, _, _, _, _, .vscan _ _ _ _ _ _, rfl, rfl⟩⟩

theorem wit_compares :
    PredMeets (.vcmp (some ⟨true, 7⟩) .i64 .geu false 7 10 8) ∧
    PredMeets (.fcmp (some ⟨true, 7⟩) .f64 .ord false 7 10 8) :=
  ⟨⟨_, _, _, _, .vcmp _ _ _ _ _ _ _, rfl, rfl⟩,
   ⟨_, _, _, _, .fcmp _ _ _ _ _ _ _, rfl, rfl⟩⟩

theorem wit_reductions :
    ReduceMeets (.vradd 63 10) ∧
    ReduceMeets (.vraddW1 (some ⟨true, 7⟩) .f64 63 10) ∧
    ReduceMeets (.vrmin false 63 10) ∧
    ReduceMeets (.vrminW1 (some ⟨true, 7⟩) .i64 false 63 10) ∧
    ReduceMeets (.vrmax false 63 10) ∧
    ReduceMeets (.vrmaxW1 (some ⟨true, 7⟩) .i64 false 63 10) :=
  ⟨⟨_, _, _, _, _, _, .vradd _ _, rfl, rfl⟩,
   ⟨_, _, _, _, _, _, .vraddW1 _ _ _ _, rfl, rfl⟩,
   ⟨_, _, _, _, _, _, .vrmin _ _ _, rfl, rfl⟩,
   ⟨_, _, _, _, _, _, .vrminW1 _ _ _ _ _, rfl, rfl⟩,
   ⟨_, _, _, _, _, _, .vrmax _ _ _, rfl, rfl⟩,
   ⟨_, _, _, _, _, _, .vrmaxW1 _ _ _ _ _, rfl, rfl⟩⟩

theorem wit_special :
    SpecialMeets (.xrcp 10 8) ∧
    SpecialMeets (.xrcpW1 (some ⟨true, 7⟩) 10 8) ∧
    SpecialMeets (.xrsq 10 8) ∧
    SpecialMeets (.xrsqW1 (some ⟨true, 7⟩) 10 8) ∧
    SpecialMeets (.xsqrt 10 8) ∧
    SpecialMeets (.xsqrtW1 (some ⟨true, 7⟩) 10 8) ∧
    SpecialMeets (.xexp2 10 8) ∧
    SpecialMeets (.xexp2W1 (some ⟨true, 7⟩) 10 8) ∧
    SpecialMeets (.xlog2 10 8) ∧
    SpecialMeets (.xlog2W1 (some ⟨true, 7⟩) 10 8) ∧
    SpecialMeets (.xsin 10 8) ∧
    SpecialMeets (.xsinW1 (some ⟨true, 7⟩) 10 8) ∧
    SpecialMeets (.xcos 10 8) ∧
    SpecialMeets (.xcosW1 (some ⟨true, 7⟩) 10 8) ∧
    SpecialMeets (.xtanh 10 8) ∧
    SpecialMeets (.xtanhW1 (some ⟨true, 7⟩) 10 8) :=
  ⟨⟨_, _, _, _, _, .xrcp _ _, rfl⟩,
   ⟨_, _, _, _, _, .xrcpW1 _ _ _, rfl⟩,
   ⟨_, _, _, _, _, .xrsq _ _, rfl⟩,
   ⟨_, _, _, _, _, .xrsqW1 _ _ _, rfl⟩,
   ⟨_, _, _, _, _, .xsqrt _ _, rfl⟩,
   ⟨_, _, _, _, _, .xsqrtW1 _ _ _, rfl⟩,
   ⟨_, _, _, _, _, .xexp2 _ _, rfl⟩,
   ⟨_, _, _, _, _, .xexp2W1 _ _ _, rfl⟩,
   ⟨_, _, _, _, _, .xlog2 _ _, rfl⟩,
   ⟨_, _, _, _, _, .xlog2W1 _ _ _, rfl⟩,
   ⟨_, _, _, _, _, .xsin _ _, rfl⟩,
   ⟨_, _, _, _, _, .xsinW1 _ _ _, rfl⟩,
   ⟨_, _, _, _, _, .xcos _ _, rfl⟩,
   ⟨_, _, _, _, _, .xcosW1 _ _ _, rfl⟩,
   ⟨_, _, _, _, _, .xtanh _ _, rfl⟩,
   ⟨_, _, _, _, _, .xtanhW1 _ _ _, rfl⟩⟩

/-- VADDC, the bit fields, PUNPK and RNG: the same of the statements that name them. -/
theorem wit_named :
    ((Instr.vaddc (some ⟨false, 7⟩) .i64 false 10 8 6 7).wf = true ∧
      run.vcheck ((8, tyRegs .i64) :: (srcOf false 6).reads (tyRegs .i64)) [(10, tyRegs .i64)] = .ok ()) ∧
    (Instr.sbfe true 63 5 0 64).wf = true ∧ (Instr.sbfi 63 5 63 1).wf = true ∧
    ¬((0x4100 : W32).toNat < 2 ^ 16 ∧ (0x4100 : W32).toNat % 2 ^ 8 ≤ 63 ∧ 1 ≤ (0x4100 : W32).toNat / 2 ^ 8 ∧
      (0x4100 : W32).toNat % 2 ^ 8 + (0x4100 : W32).toNat / 2 ^ 8 ≤ 64) ∧
    run.vcheck [(11, 1)] [] = .ok () ∧ run.vcheck [] [(11, 1)] = .ok () ∧
    ((0x100000E0 : W32).toNat % 2 ^ 10 ∈ [8 * 0x1C, 8 * 0x1D, 8 * 0x1E] ∧ 64 ≤ (0x100000E0 : W32).toNat / 2 ^ 22) := by decide

end Sys2Proof.Tests
end

