-- ==== Sys2Proof/Tests/Matrix.lean ====
section
/-! SUPPORT. Witnesses of the statements about the matrix engine and the tile store: for every row of their tables, operands and a state
that meet it. -/
namespace Sys2Proof.Tests
open Sys2Proof Sys2Proof.Machine Sys2Proof.Statements

set_option maxRecDepth 40000

/-- A plane of bank 0, quadrant `q`, held by gang `g`. -/
def planeOf (q g : Nat) : PlanePair := ⟨0, 0, 0, q, g, { ty := some .f16, loaded := true, gen := 3 }, {}⟩

theorem wit_ldstat : Meets Matrices (.ldstat 3 .f16 15 5) :=
  ⟨{ runOneWith [(5, 1024)] with gangs := [{ gang1 with shared := 8192 }] }, _,
    .ldstat _ _ _ _ _ (.inr (.inl rfl)) rfl (by decide) (by decide) (by unfold threadTiles; decide) (by intro p h; cases h) ⟨by decide, by decide⟩⟩
theorem wit_ldstat_busy : Meets Matrices (.ldstat 0 .f16 15 5) :=
  ⟨{ runOneWith [(5, 1024)] with gangs := [{ gang1 with shared := 8192 }], planes := [planeOf 0 2] }, _,
    .ldstatBusy _ _ _ _ _ _ (.inr (.inl rfl)) rfl (by decide) (by decide) (by unfold threadTiles; decide) rfl (by decide)⟩
theorem wit_swap : Meets Matrices (.swap 2) := ⟨{ runOne with planes := [planeOf 2 1] }, _, .swap _ _ _ rfl rfl ⟨by decide, by decide⟩⟩

/-- A gang that holds tiles 0 and 1, and the plane of quadrant 0. -/
def runTiles : State := { (runOneWith [(4, 1)]).setSlot fun x => { x with fsize := 26 } with gangs := [{ gang1 with alloc := [true, true, false], quota := 3 }], planes := [planeOf 0 1] }
def runPlane (t : Ty) : State :=
  { runTiles with
    planes := [⟨0, 0, 0, 0, 1, { ty := some t, loaded := true, gen := 3 }, {}⟩], dies := (Vector.replicate 6 {}).set 0 { fullService := true } }

theorem wit_quarter : Meets Matrices (.mmq 0 0 0 .f16 true 4 2 6) ∧ Meets Matrices (.mmqs 0 0 0 .k48i8 false 4 0 6) :=
  ⟨⟨runTiles, _, .quarter _ _ _ _ _ _ _ _ _ _ _ _ (.mmq _ _ _ _ _ _ _ _) (.inr (.inl rfl)) rfl (by decide) rfl (by decide) ⟨by decide, by decide⟩⟩,
   ⟨runPlane .k48i8, _, .quarter _ _ _ _ _ _ _ _ _ _ _ _ (.mmqs _ _ _ _ _ _ _ _) (.inl rfl) rfl (by decide) rfl (by decide) ⟨by decide, by decide⟩⟩⟩
theorem wit_quarter_none : Meets Matrices (.mmq 0 0 3 .f16 true 4 2 6) ∧ Meets Matrices (.mmqs 0 0 3 .k48i8 true 4 0 6) :=
  ⟨⟨runTiles, _, .quarterNone _ _ _ _ _ _ _ _ _ _ _ _ (.mmq _ _ _ _ _ _ _ _) (.inr (.inl rfl)) rfl rfl rfl (by decide)⟩,
   ⟨runPlane .k48i8, _, .quarterNone _ _ _ _ _ _ _ _ _ _ _ _ (.mmqs _ _ _ _ _ _ _ _) (.inl rfl) rfl rfl rfl (by decide)⟩⟩
theorem wit_tiles_own : Meets Matrices (.talloc 5) ∧ Meets Matrices (.tfree 4) ∧ Meets Matrices (.tzero 4) ∧ Meets Matrices (.tld 7 4 4) ∧
    Meets Matrices (.tst 7 .f16 .sr true 4 4) :=
  ⟨⟨runTiles, _, .talloc _ _ 2 (by decide) rfl (by decide)⟩, ⟨runTiles, _, .tfree _ _ rfl (by intro e h; cases h)⟩,
   ⟨runTiles, _, .tzero _ _ rfl ⟨by decide, by decide⟩⟩, ⟨runTiles, _, .tld _ _ _ _ rfl rfl (by decide) ⟨by decide, by decide⟩⟩,
   ⟨runTiles, _, .tst _ _ _ _ _ _ _ rfl rfl (by decide) ⟨by decide, by decide⟩⟩⟩

/-- A table of one entry of the current group. -/
def entryOf (granted : Bool) (k : TabKind) : TabEntry := ⟨5, 0, 0, 0, 1, 1, { a := true, b := false }, 0, granted, k, 0⟩
def runTab (e : TabEntry) : State := { runTiles with rtab := [e] }
def quarterKind : TabKind := .mmq false .f16 0 [0] [3] [0] [1] none [[0, 0]]

theorem wit_table_load : Meets TableEvents (.ldstatLoadEnd 0) :=
  ⟨runTab (entryOf false (.ldstat 0 .f16 0 9 9)), _, .load _ _ _ _ _ _ _ _ rfl rfl (by decide) rfl rfl rfl⟩
theorem wit_table_bad : Meets TableEvents (.ldstatLoadEnd 0) :=
  ⟨{ runTab (entryOf false (.ldstat 0 .f16 0 9 9)) with gangs := [{ gang1 with bad := [0] }] }, _, .loadBad _ _ _ _ _ _ _ _ rfl rfl (by decide) rfl rfl⟩
theorem wit_table_events : Meets TableEvents (.swapEffect 0) ∧ Meets TableEvents (.matrixPassGrant 0) ∧ Meets TableEvents (.matrixEntryApplied 0) :=
  ⟨⟨runTab (entryOf false (.swap 0)), _, .swap _ _ _ _ rfl rfl rfl⟩,
   ⟨runTab (entryOf false quarterKind), _, .grant _ _ _ _ rfl rfl (by intro x h; cases h) (by intro x h; cases h)⟩,
   ⟨runTab (entryOf true quarterKind), _, .applied _ _ _ _ _ _ _ _ _ _ _ _ rfl rfl rfl⟩⟩
theorem wit_table_tiles : Meets TableEvents (.tileStoreServe 0) ∧
    (∃ s t, s.rtab.any (fun e => e.kind == .tst 7 1 1 [[1]]) = true ∧ TableEvents (.tileStoreServe 0) s t) ∧
    (∃ s t, s.rtab.any (fun e => e.kind == .tld 7 1 1 4 0x10004) = true ∧ TableEvents (.tileStoreServe 0) s t) :=
  ⟨⟨runTab (entryOf false (.tzero 1)), _, .tzero _ _ _ _ rfl rfl rfl⟩,
   ⟨runTab (entryOf false (.tst 7 1 1 [[1]])), _, rfl, .tst _ _ _ _ _ _ _ rfl rfl rfl⟩,
   ⟨runTab (entryOf false (.tld 7 1 1 4 0x10004)), _, rfl, .tld _ _ _ _ _ _ _ _ rfl rfl rfl rfl (by intro g h; cases h) (by decide)⟩⟩

end Sys2Proof.Tests
end

