-- ==== Sys2Proof/Tests/Memory.lean ====
section
/-! SUPPORT. Witnesses of the statements about memory and about the codes that instructions raise: for every row of their tables, operands
and a state that meet it. -/
namespace Sys2Proof.Tests
open Sys2Proof Sys2Proof.Machine Sys2Proof.Statements

/-- No lane acts. -/
def runNone : State := runOne.setSlot fun x => { x with mask := 0 }

theorem wit_loads : Meets Loads (.ld ⟨5, none⟩ 11) ∧ Meets Loads (.ldW1 none .b128 .sys .acq .keep ⟨5, none⟩ 0xFFF0 8) ∧ Meets Loads (.ldp none 11) ∧
    Meets Loads (.ldpW1 none .b128 none 0 8) ∧ Meets Loads (.ldg ⟨5, none⟩ 11) ∧
    Meets Loads (.ldgW1 none .f64 .gang .rlx .dflt ⟨5, none⟩ 4088 10) :=
  ⟨⟨runOne, _, .load _ _ _ _ _ (.ld _ _) rfl (by decide) (by decide) rfl⟩,
   ⟨runOne, _, .load _ _ _ _ _ (.ldW1 _ _ _ _ _ _ _ _) rfl (by decide) (by decide) rfl⟩,
   ⟨runOne, _, .load _ _ _ _ _ (.ldp _ _) rfl (by decide) (by decide) rfl⟩,
   ⟨runOne, _, .load _ _ _ _ _ (.ldpW1 _ _ _ _ _) rfl (by decide) (by decide) rfl⟩,
   ⟨runOne, _, .load _ _ _ _ _ (.ldg _ _) rfl (by decide) (by decide) rfl⟩,
   ⟨runOne, _, .load _ _ _ _ _ (.ldgW1 _ _ _ _ _ _ _ _) rfl (by decide) (by decide) rfl⟩⟩
theorem wit_loads_none : Meets Loads (.ldW1 none .b128 .sys .acq .keep ⟨5, none⟩ 0xFFF0 8) :=
  ⟨runNone, _, .empty _ _ _ _ (.ldW1 _ _ _ _ _ _ _ _) rfl (by decide)⟩
theorem wit_stores : Meets Stores (.st ⟨5, none⟩ 11) ∧ Meets Stores (.stW1 none .b128 .sys .rel .keep ⟨5, none⟩ 0xFFF0 8) ∧
    Meets Stores (.stp none 11) ∧ Meets Stores (.stpW1 none .b128 none 0 8) ∧ Meets Stores (.stg ⟨5, none⟩ 11) ∧
    Meets Stores (.stgW1 none .f64 .gang .rlx .dflt ⟨5, none⟩ 4088 10) :=
  ⟨⟨runOne, _, .store _ _ _ _ _ _ (.st _ _) rfl (by decide) (by decide) rfl rfl rfl⟩,
   ⟨runOne, _, .store _ _ _ _ _ _ (.stW1 _ _ _ _ _ _ _ _) rfl (by decide) (by decide) rfl rfl rfl⟩,
   ⟨runOne, _, .store _ _ _ _ _ _ (.stp _ _) rfl (by decide) (by decide) rfl rfl rfl⟩,
   ⟨runOne, _, .store _ _ _ _ _ _ (.stpW1 _ _ _ _ _) rfl (by decide) (by decide) rfl rfl rfl⟩,
   ⟨runOne, _, .store _ _ _ _ _ _ (.stg _ _) rfl (by decide) (by decide) rfl rfl rfl⟩,
   ⟨runOne, _, .store _ _ _ _ _ _ (.stgW1 _ _ _ _ _ _ _ _) rfl (by decide) (by decide) rfl rfl rfl⟩⟩
theorem wit_stores_none : Meets Stores (.st ⟨5, none⟩ 11) := ⟨runNone, _, .empty _ _ _ _ _ (.st _ _) rfl (by decide) rfl⟩
theorem wit_atomics : Meets Atomics (.atom none .b128 .pkg .ar .dflt .cas ⟨5, none⟩ 0 8 4) ∧
    Meets Atomics (.atomg none .z64 .gang .rlx .inc ⟨5, none⟩ 0 10 0) ∧ Meets Atomics (.red none .f64 .die .rel .dflt .fadd ⟨5, none⟩ 0 10) :=
  ⟨⟨{ runOne with tlb := [{ mapped none with kind := .atomicHome }, { mapped (some (0, 0)) with kind := .atomicHome }] }, _,
      .atomic _ _ _ _ _ _ _ _ (.atom _ _ _ _ _ _ _ _ _ _) rfl (by decide) (by decide) rfl rfl⟩,
   ⟨runOne, _, .atomic _ _ _ _ _ _ _ _ (.atomg _ _ _ _ _ _ _ _ _) rfl (by decide) (by decide) rfl rfl⟩,
   ⟨runOne, _, .red _ _ _ _ _ _ (.red _ _ _ _ _ _ _ _ _) rfl (by decide) (by decide) rfl rfl rfl⟩⟩
theorem wit_atomics_none : Meets Atomics (.atom none .b128 .pkg .ar .dflt .cas ⟨5, none⟩ 0 8 4) ∧
    Meets Atomics (.red none .f64 .die .rel .dflt .fadd ⟨5, none⟩ 0 10) :=
  ⟨⟨runNone, _, .atomicEmpty _ _ _ _ _ _ _ (.atom _ _ _ _ _ _ _ _ _ _) rfl (by decide) rfl⟩, ⟨runNone, _, .redEmpty _ _ _ _ _ (.red _ _ _ _ _ _ _ _ _) rfl (by decide) rfl⟩⟩
theorem wit_fences : Meets Orders (.fence .sys .rlx) ∧ Meets Orders (.fence .gang .acq) ∧ Meets Orders (.fence .pkg .rel) ∧
    Meets Orders (.cctl 0 ⟨5, none⟩ 0) ∧ Meets Orders (.cctl 3 ⟨5, none⟩ 0) :=
  ⟨⟨runOne, _, .fenceFull _ _ _ _ (.inl rfl) rfl⟩, ⟨runOne, _, .fenceAcq _ _⟩, ⟨runOne, _, .fenceRel _ _ _ rfl⟩,
   ⟨runOne, _, .icinv _ _ _ _ rfl rfl rfl⟩, ⟨runOne, _, .cctl _ _ _ _ _ rfl (by decide) (by decide) rfl⟩⟩
theorem wit_waita : Meets Orders (.waita .eq 5 6 7) ∧ Meets Orders (.waitaW1 .geu .sys .acq 0xFFF8 5 6 7) ∧ Meets Orders (.waita .ne 5 6 7) ∧
    Meets Orders (.waitaW1 .ltu .die .rlx 8 5 6 7) :=
  ⟨⟨runOne, _, .waitMet _ _ _ _ _ _ _ _ _ _ _ _ _ (.plain _ _ _ _) rfl rfl rfl rfl rfl⟩,
   ⟨runOne, _, .waitMet _ _ _ _ _ _ _ _ _ _ _ _ _ (.w1 _ _ _ _ _ _ _) rfl rfl rfl rfl rfl⟩,
   ⟨runOne, _, .waitParks _ _ _ _ _ _ _ _ _ _ _ _ _ (.plain _ _ _ _) rfl rfl rfl rfl rfl⟩,
   ⟨runOne, _, .waitParks _ _ _ _ _ _ _ _ _ _ _ _ _ (.w1 _ _ _ _ _ _ _) rfl rfl rfl rfl rfl⟩⟩
theorem wit_wake : Meets Orders (.wake 5) ∧ Meets Orders (.wakeW1 .sys .rel 8 5) :=
  ⟨⟨runOne, _, .wake _ _ _ _ _ _ _ _ _ _ (.plain _) rfl rfl rfl⟩, ⟨runOne, _, .wake _ _ _ _ _ _ _ _ _ _ (.w1 _ _ _ _) rfl rfl rfl⟩⟩
theorem wit_pref : (PrefForm (.pref ⟨5, none⟩) none none 1 ∧ runOne.vcheck (idxReads none) [] = .ok ()) ∧
    (PrefForm (.prefW1 (some ⟨true, 7⟩) .keep ⟨5, some ⟨true, 3, 11⟩⟩ 1) (some ⟨true, 7⟩) (some ⟨true, 3, 11⟩) 3 ∧
      runOne.vcheck (idxReads (some ⟨true, 3, 11⟩)) [] = .ok ()) := ⟨⟨.plain _, rfl⟩, ⟨.w1 _ _ _ _, rfl⟩⟩
/-- The loads and stores of the frame statement: no order, and no result outstanding. -/
theorem wit_issue_frame :
    (∃ s t a, Loads (.ldW1 none .b32 .grp .rlx .dflt ⟨5, none⟩ 0 11) s t ∧ LoadForm (.ldW1 none .b32 .grp .rlx .dflt ⟨5, none⟩ 0 11) false a ∧ a.ord = .rlx) ∧
    (∃ s t a, Stores (.stW1 none .b32 .grp .rlx .dflt ⟨5, none⟩ 0 11) s t ∧ StoreForm (.stW1 none .b32 .grp .rlx .dflt ⟨5, none⟩ 0 11) false a ∧
      a.ord = .rlx ∧ s.grp.outst = [] ∧ a.lanes s ≠ 0) :=
  ⟨⟨runOne, _, _, .load _ _ _ _ _ (.ldW1 _ _ _ _ _ _ _ _) rfl (by decide) (by decide) rfl, .ldW1 _ _ _ _ _ _ _ _, rfl⟩,
   ⟨runOne, _, _, .store _ _ _ _ _ _ (.stW1 _ _ _ _ _ _ _ _) rfl (by decide) (by decide) rfl rfl rfl, .stW1 _ _ _ _ _ _ _ _, rfl, rfl, by decide⟩⟩

def Raising (i : Instr) : Prop := ∃ s c, Raises i s c
def MemRaising (i : Instr) : Prop := ∃ s c, MemRaises i s c

/-- A future pending; every other one idle. -/
def runPending : State := runOne.setFut 15 ⟨.pending, 0, 7⟩

/-- A gang whose set 1 has no member, and whose set 2 has group 0. -/
def runSets : State :=
  { runOne with gangs := [{ gang1 with sets := [{}, {}, { member := 1 }, { member := 1, left := 1 }, { member := 1, exited := 1 }] }] }

theorem wit_raise_futures : Raising (.fwait 5 15) ∧ Raising (.fexp 5 15) ∧ Raising (.fimp 15 5) ∧ Raising (.fimp 0 5) ∧ Raising (.spawn 63 5 8) :=
  ⟨⟨runOne, _, .fwait _ _ _ rfl⟩, ⟨runOne, _, .fexp _ _ _ rfl⟩, ⟨runPending, _, .fimpBusy _ _ _ (by decide)⟩,
   ⟨runOne, _, .fimp _ _ _ (by decide)⟩, ⟨runOne, _, .spawn _ _ _ _ rfl⟩⟩
theorem wit_raise_sets : Raising (.bsync 5) ∧ Raising (.setleave 5) ∧ Raising (.barv 6 5) ∧ Raising (.bwait 5 6) :=
  ⟨⟨runSets.setRs 5 1, _, .set _ 5 _ (.inl rfl) fun e h => by cases h; decide⟩,
   ⟨runSets.setRs 5 3, _, .set _ 5 _ (.inr (.inl rfl)) fun e h => by cases h; decide⟩,
   ⟨runSets.setRs 5 4, _, .set _ 5 _ (.inr (.inr (.inl ⟨_, rfl⟩))) fun e h => by cases h; decide⟩,
   ⟨runSets.setRs 5 256, _, .set _ 5 _ (.inr (.inr (.inr ⟨_, rfl⟩))) fun e h => by cases h⟩⟩
theorem wit_raise_part : Raising (.bsync 5) ∧ Raising (.setleave 5) ∧ Raising (.barv 6 5) :=
  have h : memberOf ((runSets.setRs 5 2).setGrp fun g => { g with live := 3 }) 5 2 { member := 1 } := ⟨rfl, rfl, rfl, rfl, rfl⟩
  ⟨⟨_, _, .partSet _ _ _ _ _ (.inl rfl) h (by decide)⟩, ⟨_, _, .partSet _ _ _ _ _ (.inr (.inl rfl)) h (by decide)⟩,
   ⟨_, _, .partSet _ _ _ _ _ (.inr (.inr ⟨_, rfl⟩)) h (by decide)⟩⟩
theorem wit_raise_mode : Raising .rett ∧ Raising (.tget 5 0) ∧ Raising .rsopen ∧ Raising .rsclose ∧ Raising (.gpwait 5) ∧ Raising (.gpwaitT 5 6) ∧
    Raising (.gpwaitF 0) ∧ Raising (.gpwaitFT 0 6) :=
  have in' : (runOne.setGrp fun g => { g with rsd := 1 }).grp.rsd ≠ 0 := by decide
  ⟨⟨runOne, _, .noTrap _ _ (.inl rfl) rfl⟩, ⟨runOne, _, .noTrap _ _ (.inr ⟨_, _, rfl⟩) rfl⟩,
   ⟨runOne.setGrp fun g => { g with rsd := 15 }, _, .rsopen _ (.inr rfl)⟩, ⟨runOne, _, .rsclose _ (.inr rfl)⟩,
   ⟨_, _, .gpwait _ _ (.inl ⟨_, rfl⟩) in'⟩, ⟨_, _, .gpwait _ _ (.inr (.inl ⟨_, _, rfl⟩)) in'⟩,
   ⟨_, _, .gpwait _ _ (.inr (.inr (.inl ⟨_, rfl⟩))) in'⟩, ⟨_, _, .gpwait _ _ (.inr (.inr (.inr ⟨_, _, rfl⟩))) in'⟩⟩
theorem wit_raise_sset : Raising (.sset .exec 5) ∧ Raising (.sset .sp 5) ∧ Raising (.sset .sl 5) ∧ Raising (.sset .fmode 5) ∧ Raising (.exset 5) :=
  ⟨⟨runOne, _, .ssetRead _ _ _ (by decide)⟩, ⟨runOneWith [(5, 127)], _, .ssetAlign _ _ _ (.inl rfl) (by decide)⟩,
   ⟨runOne, _, .ssetLow _ _ rfl (by decide)⟩, ⟨runOneWith [(5, 6)], _, .ssetMode _ _ (.inl (by decide))⟩,
   ⟨runOne, _, .exset _ _ (by decide) (.inl rfl)⟩⟩
theorem wit_raise_format : Raising (.ldstat 0 .k48i8 15 5) ∧ Raising (.mmq 0 0 0 .k48i8 false 4 0 6) ∧ Raising (.mmqs 0 0 0 .k48i8 false 4 0 6) :=
  have none' : ¬formatRuns runOne .k48i8 := by simp [formatRuns]; decide
  ⟨⟨runOne, _, .ldstatFormat _ _ _ _ _ none'⟩, ⟨runOne, _, .quarterFormat _ _ _ _ _ _ _ _ _ _ _ (.mmq _ _ _ _ _ _ _ _) none'⟩,
   ⟨runOne, _, .quarterFormat _ _ _ _ _ _ _ _ _ _ _ (.mmqs _ _ _ _ _ _ _ _) none'⟩⟩
theorem wit_raise_limits : Raising (.call 1) ∧ Raising (.enter 7) ∧ Raising .ret ∧ Raising (.jts 5) :=
  ⟨⟨runOne.setSlot fun x => { x with sp := 255 }, _, .call _ _ rfl (.inl (by decide))⟩,
   ⟨runOne.setSlot fun x => { x with fb := 0 }, _, .enter _ _ rfl (.inr (.inl (by decide)))⟩, ⟨runOne, _, .ret _ rfl rfl⟩, ⟨runOne, _, .jts _ _ (by decide)⟩⟩
theorem wit_raise_return : Raising .ret :=
  ⟨runOne.setSlot fun x => { x with depth := 1, frames := [{ ret := 0x10041, fb := 0x20100, fsize := 8, wbase := 0, resident := true, rows := [] }] },
    _, .retAlign _ _ _ rfl rfl rfl rfl (by decide) (by decide)⟩
theorem wit_raise_local : Raising (.ldg ⟨5, none⟩ 11) ∧ Raising (.stg ⟨5, none⟩ 11) ∧ Raising (.townThread 5 6) ∧ Raising (.townEngine 5 6) ∧
    Raising (.rfence 5) ∧ Raising (.wake 5) ∧ Raising (.wakeW1 .sys .rel 4 6) :=
  ⟨⟨runOneWith [(5, 1)], _, .loadLocal _ _ _ 0 (.ldg _ _) rfl (by decide) (by decide) rfl (by decide)⟩,
   ⟨runOneWith [(5, 1)], _, .storeLocal _ _ _ 0 (.stg _ _) rfl (by decide) (by decide) rfl (by decide)⟩,
   ⟨runOneWith [(5, 1), (6, 1)], _, .town _ _ _ _ (.inl rfl) (by decide) (by decide)⟩,
   ⟨runOneWith [(5, 0x10000400), (6, 1)], _, .town _ _ _ _ (.inr rfl) (by decide) (by decide)⟩,
   ⟨runOneWith [(5, 128)], _, .rfence _ _ (by decide)⟩, ⟨runOneWith [(5, 4)], _, .wake _ _ _ _ _ _ _ (.plain _) (by decide)⟩,
   ⟨runOne, _, .wake _ _ _ _ _ _ _ (.w1 _ _ _ _) (by decide)⟩⟩
theorem wit_misaligned : MemRaising (.ld ⟨5, none⟩ 11) ∧ MemRaising (.stp none 11) ∧ MemRaising (.atom none .i64 .die .rlx .dflt .add ⟨5, none⟩ 4 10 0) ∧
    MemRaising (.red none .i32 .die .rlx .dflt .add ⟨5, none⟩ 2 10) :=
  ⟨⟨runOneWith [(5, 3)], _, .load _ _ _ 0 (.ld _ _) rfl (by decide) (by decide) rfl (by decide)⟩,
   ⟨runOne.setSlot fun x => { x with sp := 0x20001 }, _, .store _ _ _ 0 (.stp _ _) rfl (by decide) (by decide) rfl (by decide)⟩,
   ⟨runOne, _, .atom _ _ _ _ _ 0 (.atom _ _ _ _ _ _ _ _ _ _) rfl (by decide) (by decide) rfl (by decide)⟩,
   ⟨runOne, _, .red _ _ _ _ 0 (.red _ _ _ _ _ _ _ _ _) rfl (by decide) (by decide) rfl (by decide)⟩⟩

/-- Pages that may be neither read nor written. -/
def runForbidden : State :=
  { runOne with tlb := [{ mapped none with r := false, w := false }, { mapped (some (0, 0)) with r := false, w := false }] }

theorem wit_permission : MemRaising (.ld ⟨5, none⟩ 11) ∧ MemRaising (.st ⟨5, none⟩ 11) :=
  ⟨⟨runForbidden, _, .loadPermission _ _ _ 0 (.ld _ _) rfl (by decide) (by decide) (by decide) rfl ⟨_, .head _, rfl⟩ (by decide)⟩,
   ⟨runForbidden, _, .storePermission _ _ _ 0 (.st _ _) rfl (by decide) (by decide) (by decide) rfl ⟨_, .head _, rfl⟩ (by decide)⟩⟩

end Sys2Proof.Tests
end

