-- ==== Sys2Proof/Tests/Near.lean ====
section
/-! SUPPORT. Witnesses of the statements about near-memory commands: for every row of their tables, operands and a state that meet it. -/
namespace Sys2Proof.Tests
open Sys2Proof Sys2Proof.Machine Sys2Proof.Statements

set_option maxRecDepth 40000

/-- A machine with page tables, and a descriptor from s8. -/
def nearWith (l : List (SReg × W64)) : State := { runOneWith l with ctxs := [ctxMapped], mem := tables }

theorem wit_nmcall : Meets Nears (.nmcall .die .rlx 0 15 8) :=
  ⟨nearWith [(8, 0x1000), (9, 1)], _, .nmcall _ _ _ _ _ _ _ _ rfl ⟨by decide, by decide, by decide, by decide, by decide, by decide⟩ rfl (by decide) rfl rfl⟩
theorem wit_nmcall_unnamed : Meets Nears (.nmcall .die .rlx 5 15 8) :=
  ⟨nearWith [(8, 0x1000), (9, 1)], _, .nmcallUnnamed _ _ _ _ _ _ _ _ rfl ⟨by decide, by decide, by decide, by decide, by decide, by decide⟩ rfl (by decide) rfl⟩
theorem wit_ixred : Meets Nears (.ixred .f32 .die .rlx 8) :=
  ⟨nearWith [(8, 0x1000), (9, 0x10020), (14, 0x2000)], _, .ixred _ _ _ _ _ _ _ 32 1 _
    ⟨by decide, by decide, by decide, by decide, by decide, by decide, by decide⟩ rfl rfl (by decide) rfl⟩
theorem wit_walk : Meets Nears (.walk .die .rlx 15 8) :=
  ⟨{ nearWith [(8, 0x1000), (9, 0x2000), (10, 0x100000001), (11, 0x3000), (12, 1), (13, 0x4000), (14, 0x5000)] with
      tlb := [{ mapped none with pages := 15 }, { mapped (some (0, 0)) with pages := 15 },
        { mapped (some (0, 0)) with vpage := 15, ppage := 15, pages := 1, kind := .atomicHome }] }.setRs 14 0xF0000, _,
    .walk _ _ _ _ _ _ _ 1 1 0 rfl ⟨by decide, by decide, by decide, by decide, by decide, by decide, by decide, by decide, by decide⟩ rfl rfl rfl⟩
theorem wit_coll : Meets Nears (.coll .die .rlx 15 8) :=
  ⟨nearWith [(8, 0x1000), (9, 0x90100000100)], _,
    .coll _ _ _ _ _ _ _ _ _ 256 2 0 .f32 _ _ _ _ rfl ⟨by decide, by decide, by decide, .inl rfl, by decide, by decide, by decide, by decide, by decide⟩ rfl rfl (by decide) rfl rfl (by decide)⟩
theorem wit_gred : Meets Nears (.gred none .f32 .fadd 4 0) ∧ Meets Nears (.gred (some ⟨false, 0⟩) .f32 .fadd 4 0) :=
  ⟨⟨nearWith [], _, .gred _ _ _ _ _ _ _ rfl (by decide) (by decide) rfl (by decide)⟩, ⟨nearWith [], _, .gredNone _ _ _ _ _ _ rfl rfl⟩⟩

/-- A command that runs. -/
def callOf (k : Nat) (status : Option W32) : NmcallOp :=
  { entry := 0, sc := .die, addr := 0x1000, count := 2, stride := 256, arg := 7, res := 0, cw := 0, cv := 0, ch := 32, k, status }
/-- The context with a kilobyte of credit. -/
def ctxPaid : Ctx := { ctxMapped with burst := 1024 }
def nearOp (k : OpKind) : State :=
  { runOne with ops := [{ id := 5, gang := 1, vf := 0, part := 0, die := 0, live := true, cancel := false, kind := k }], nextId := 6
                ctxs := [ctxPaid], mem := tables }

/-- A packet for a channel at an edge port of die 0, or at a stack. -/
def packetAt (port ch : Nat) (at_ : Option (Nat × Nat)) : Packet := { part := 0, vf := 0, die := 0, bytes := 64, id := 5, port, ch, at_ }
def netRun (p : Packet) : State := { nearOp (.nmcall (callOf 0 none)) with inject := [p] }

theorem next_first (p : Packet) : nextPacket (netRun p) 0 p := ⟨rfl, by intro q h; cases h⟩
/-- The same with another operation under way. -/
def netOp (k : OpKind) (p : Packet) : State := { nearOp k with inject := [p] }
theorem only_first (k : OpKind) (p : Packet) : nextPacket (netOp k p) 0 p := ⟨rfl, by intro q h; cases h⟩

theorem wit_inject : Meets NearEvents (.rateLimitedInject 0) ∧ (∃ s t, s.ctxs = [ctxMapped] ∧ NearEvents (.rateLimitedInject 0) s t) :=
  ⟨⟨netRun (packetAt 1 32 none), _, .inject _ _ _ _ (next_first _) rfl ⟨fun _ _ _ => by decide, fun _ => by decide⟩ rfl (.call _ _ rfl rfl rfl rfl rfl)⟩,
   ⟨{ netRun (packetAt 1 32 none) with ctxs := [ctxMapped] }, _, rfl, .injectWaits _ _ (packetAt 1 32 none) ⟨rfl, by intro q h; cases h⟩ rfl
      fun h => absurd (h.1 (by decide) (by decide) (by decide)) (by decide)⟩⟩
theorem wit_hops : (∃ s t, s.inject = [packetAt 0 64 none] ∧ NearEvents (.rateLimitedInject 0) s t) ∧
    (∃ s t, s.inject = [packetAt 0 64 (some (0, 0))] ∧ NearEvents (.rateLimitedInject 0) s t) ∧
    (∃ s t, s.inject = [packetAt 0 32 (some (0, 0))] ∧ NearEvents (.rateLimitedInject 0) s t) :=
  ⟨⟨netRun (packetAt 0 64 none), _, rfl, .injectOnward _ _ _ _ (next_first _) rfl ⟨fun _ _ _ => by decide, fun _ => by decide⟩ rfl (by decide)⟩,
   ⟨netRun (packetAt 0 64 (some (0, 0))), _, rfl, .hop _ _ _ _ 0 0 1 (next_first _) rfl rfl rfl (by decide)⟩,
   ⟨netRun (packetAt 0 32 (some (0, 0))), _, rfl, .hopThere _ _ _ _ 0 0 _ (next_first _) rfl rfl rfl (.call _ _ rfl rfl rfl rfl rfl)⟩⟩
theorem wit_call_fill : Meets NearEvents (.nmuStep 32) :=
  ⟨{ nearOp (.nmcall (callOf 0 none)) with nmus := [{ ch := 32, queue := [.call 5] }] }, _,
    .fill _ _ _ _ _ _ _ rfl rfl rfl rfl rfl rfl rfl rfl (by decide) rfl (by decide)⟩
theorem wit_call_ends : Meets NearEvents (.nmcallComplete 5) ∧ (∃ s t, s.ops.length = 1 ∧ NearEvents (.nmcallComplete 5) s t) ∧
    Meets NearEvents (.nmuWatchdog 32) :=
  ⟨⟨nearOp (.nmcall (callOf 2 none)), _, .callEnds _ _ _ _ rfl rfl rfl rfl (by decide) rfl rfl⟩,
   ⟨nearOp (.nmcall (callOf 0 (some 3))), _, rfl, .callStops _ _ _ _ _ rfl rfl rfl rfl rfl⟩,
   ⟨{ nearOp (.nmcall { callOf 0 none with entry := 1 }) with nmus := [{ ch := 32, queue := [.call 5], run := some (.call 5) }], time := 20000 }, _,
    .watchdog _ _ _ _ _ rfl rfl rfl rfl (by decide) rfl rfl (by decide) rfl⟩⟩

/-- A pooled row of 32 bytes, with its counters. -/
def rowOp : IxredOp :=
  { ty := .f32, wide := false, sc := .die, rows := [[⟨0x1000, 32, .normal⟩]], dst := [⟨0x2000, 32, .normal⟩], ctr := some (0xF0000, 0xF0008), stack := 2 }

theorem wit_ixred_ends : Meets NearEvents (.ixredComplete 5) ∧ (∃ s t, s.poison = [0x1000 / 32] ∧ NearEvents (.ixredComplete 5) s t) :=
  ⟨⟨nearOp (.ixred rowOp), _, .ixred _ _ _ _ _ _ _ rfl rfl rfl (by intro p h; cases h) rfl rfl (by decide)⟩,
   ⟨{ nearOp (.ixred rowOp) with poison := [0x1000 / 32] }, _, rfl, .ixredBad _ _ _ _ _ _ rfl rfl rfl (by intro p h; cases h) rfl rfl (by decide)⟩⟩
theorem wit_gred_ends : Meets NearEvents (.gredShareReturn 5) :=
  ⟨(nearOp (.gred { group := 1, outst := 4, port := 0, op := .fadd, ty := .f32, shares := [(16, [(0, 0x1000)])], results := [(16, none, 0)] })).setGrp fun g =>
      { g with outst := [{ id := 4, tags := { a := true, b := false }, cnt := .ld, pos := 4, regs := 2, pc := 0x10004, pend := 1, full := 1
                           lanes := [], kind := .gred 5 }] }, _,
    .gred _ _ _ _ _ rfl rfl (by intro p h; cases h) (by decide) rfl (by decide) (by intro g h; cases h) rfl⟩

/-- A walk of one hop from vertex 0. -/
def walkOp (next : Nat) (live : List Walk) : WalkOp :=
  { sc := .die, rowptr := 0x1000, col := 0x2000, v := 1, hops := 1, rnlog := 0, start := 0x3000, nw := 2, ring := 0x4000, ctr := 0xF0000, kw := 0, ch := 96, next, live }

/-- The channel of the first start vertex, and a walk whose token is at a channel. -/
def homeChannel : Nat := run.channelOf 0x3000
def tokenAt (ch : Nat) : OpKind := .walk (walkOp 1 [⟨0, ch, 0, 0, [], .start, none⟩])

theorem wit_walk_starts : Meets NearEvents (.walkHop 5 0) :=
  ⟨nearOp (.walk (walkOp 0 [])), _, .walkStarts _ _ _ _ _ rfl rfl rfl rfl (by intro k h; cases h) rfl (by decide) rfl (by intro k h; cases h)⟩
theorem wit_walk_steps : (∃ s t, s.ops.map (·.kind) = [tokenAt 0] ∧ NearEvents (.walkHop 5 0) s t) ∧
    (∃ s t, s.nmus = [] ∧ NearEvents (.walkHop 5 0) s t) ∧ (∃ s t, s.nmus = [{ ch := homeChannel, queue := [.call 9] }] ∧ NearEvents (.walkHop 5 0) s t) :=
  ⟨⟨nearOp (tokenAt 0), _, rfl, .walkMoves _ _ _ _ _ _ _ rfl rfl rfl rfl rfl rfl rfl (by decide)⟩,
   ⟨nearOp (tokenAt homeChannel), _, rfl, .walkReads _ _ _ _ _ _ rfl rfl rfl rfl rfl rfl (.inr ⟨rfl, rfl⟩) (by decide)⟩,
   ⟨{ nearOp (tokenAt homeChannel) with nmus := [{ ch := homeChannel, queue := [.call 9] }] }, _, rfl,
    .walkWaits _ _ _ _ _ _ rfl rfl rfl rfl rfl rfl rfl (by decide) (by decide)⟩⟩

/-- What arrives where it goes. -/
theorem wit_delivers : (∃ s p t, Delivers s p t ∧ p.msg = some (.drainedPlane 0)) ∧
    (∃ s t, s.ops.map (·.kind) = [tokenAt 0] ∧ Delivers s { packetAt 4 homeChannel (some (0, 0)) with what := .token 0 } t) ∧
    (∃ s t, s.ops.map (·.kind) = [tokenAt 0] ∧ Delivers s (packetAt 0 96 none) t) ∧
    (∃ s t, s.ops.map (·.kind) = [.ixred rowOp] ∧ Delivers s (packetAt 0 64 none) t) :=
  ⟨⟨run, { packetAt 0 0 none with msg := some (.drainedPlane 0) }, _, .message _ rfl, rfl⟩, ⟨nearOp (tokenAt 0), _, rfl, .token _ _ _ rfl rfl rfl rfl⟩,
   ⟨nearOp (tokenAt 0), _, rfl, .arrived _ ⟨1, 4, 0, .fadd, .f32, [], []⟩ rfl rfl (.inr ⟨_, rfl, rfl⟩)⟩, ⟨nearOp (.ixred rowOp), _, rfl, .row _ _ rfl rfl rfl rfl⟩⟩

/-- A collective of two buffers of `len` bytes, a copy. -/
def collOp (len : Nat) (bufs : Option (List W64)) (since : Option Nat) : CollOp :=
  { sc := .die, stack := 0, bufs, len, opc := 1, ty := .f32, cw := 0, cv := 0, since }

def shareOp : GredOp := { group := 1, outst := 4, port := 0, op := .fadd, ty := .f32, shares := [(16, [(0, 0x1000)])], results := [] }
theorem wit_delivers_near : (∃ s t, s.ops.map (·.kind) = [.gred shareOp] ∧ Delivers s (packetAt 0 16 none) t) ∧
    (∃ s t, s.ops.map (·.kind) = [.coll (collOp 256 none none)] ∧ Delivers s (packetAt 0 0 none) t) :=
  ⟨⟨nearOp (.gred shareOp), _, rfl, .share _ _ rfl rfl rfl rfl⟩, ⟨nearOp (.coll (collOp 256 none none)), _, rfl, .coll _ _ rfl rfl rfl rfl⟩⟩
theorem wit_coll_lines : Meets NearEvents (.collLine 0) ∧
    (∃ s t, s.ops.map (·.kind) = [.coll (collOp 256 (some [0x10000, 0x20000]) none)] ∧ NearEvents (.collLine 0) s t) ∧ Meets NearEvents (.sequencerWatchdog 0) :=
  ⟨⟨nearOp (.coll (collOp 512 (some [0x10000, 0x20000]) none)), _, .coll _ _ _ _ _ _ _ rfl rfl rfl rfl rfl rfl (by decide) (by decide)⟩,
   ⟨nearOp (.coll (collOp 256 (some [0x10000, 0x20000]) none)), _, rfl, .collLast _ _ _ _ _ _ _ rfl rfl rfl rfl rfl rfl (by decide) (by decide)⟩,
   ⟨{ nearOp (.coll (collOp 256 none (some 0))) with time := 1000000 }, _, .sequencer _ _ _ _ rfl ⟨0, rfl, by decide⟩ rfl (by
      intro q h n; simp [nearOp] at h; subst h; exact absurd rfl n)⟩⟩
theorem wit_refresh : Meets NearEvents (.refreshPause 32) ∧ Meets NearEvents (.refreshComplete 16) :=
  ⟨⟨{ nearOp (.nmcall (callOf 0 none)) with nmus := [{ ch := 32, queue := [.call 5] }] }, _, .pause _ _ (by decide) rfl⟩,
   ⟨{ run with nmus := [{ ch := 16, paused := some 0 }] }, _, .refreshed _ _ _ rfl (by intro o h; cases h)⟩⟩

end Sys2Proof.Tests
end

