-- ==== Sys2Proof/Tests/Rules.lean ====
section
/-! SUPPORT. Witnesses of the statements that go through no table: a state and operands that meet their hypotheses. -/
namespace Sys2Proof.Tests
open Sys2Proof Sys2Proof.Machine Sys2Proof.Statements

set_option maxRecDepth 40000

theorem wit_encodings : (Instr.sadd 1 2 3).wf = true ∧ (encodeFields (.sadd 1 2 3)).isSome = true ∧ decodeWords [0x00C20408] = .ok (.sadd 1 2 3) := by decide

/-- A path that holds a bundle, and the move that issues it. -/
def stepRun (ws : List W32) : State := { run.setSlot fun x => { x with ibuf := some ⟨0x10000, ws⟩ } with agenda := [⟨none, .a, none⟩] }
theorem wit_step : ∃ (s t : State) (m : Move) (b : Bundle), s.agenda = [m] ∧ s.fatal = false ∧ t = ({ s with agenda := [] } : State).begin_.select m ∧
    m.ev = none ∧ t.canIssue = true ∧ t.slot.derr = none ∧ t.slot.park = .none ∧ t.slot.ibuf = some b ∧ ¬(t.slot.pj = some t.slot.pcb ∧ t.slot.idx = 1) ∧
    decodeWords (b.words.drop t.slot.idx) = .ok (.sadd 1 2 3) :=
  ⟨stepRun [1, 0x00C20408], _, _, _, rfl, rfl, rfl, rfl, rfl, rfl, rfl, rfl, (by rintro ⟨h, -⟩; cases h), by decide⟩
theorem wit_step_none : ∃ (s t : State) (m : Move) (b : Bundle), s.agenda = [m] ∧ s.fatal = false ∧ t = ({ s with agenda := [] } : State).begin_.select m ∧
    t.canIssue = true ∧ t.slot.ibuf = some b ∧ decodeWords (b.words.drop t.slot.idx) = .error .opcode :=
  ⟨stepRun [1, 0], _, _, _, rfl, rfl, rfl, rfl, rfl, by decide⟩
/-- What becomes of the instruction: it stands; it finds its operand locked; its request has no credit; its request is for a stack in SREF. -/
theorem wit_settles_issued : ∃ t u, exec (.sadd 1 2 3) t.starts = .next u ∧ Settles t u u := ⟨run, _, rfl, .issued rfl (.inr rfl) rfl⟩
theorem wit_settles_held : ∃ t u v, exec (.rdtime 1) t.starts = .next u ∧ t.heldIn u = true ∧ Settles t u v :=
  ⟨(run.setGrp fun g => { g with outst := [outOf (.load .b32 .grp .dflt false)] }).park .drain, _, _, rfl, rfl, .held rfl⟩
/-- A store to the atomic home that a fence performs. -/
def homeRun : State := { runOne with wq := [storeOf true (.store .sys .dflt [{ lane := 0, ea := 0x1000, pieces := [⟨0x1000, 4, .atomicHome⟩] }] .b32)] }
theorem wit_settles_unpaid : ∃ t u v, exec (.fence .sys .rel) t.starts = .next u ∧ Settles t u v :=
  ⟨homeRun, _, _, rfl, .unpaid rfl (by decide) (by decide)⟩
theorem wit_settles_asleep : ∃ t u v, exec (.fence .sys .rel) t.starts = .next u ∧ Settles t u v :=
  ⟨{ funded homeRun with srefStacks := List.range 12 }, _, _, rfl, .asleep rfl (.inl (by decide)) (by decide)⟩
theorem wit_step_event : ∃ (s : State) (m : Move), s.agenda = [m] ∧ s.fatal = false ∧ m.ev = some .powerGood :=
  ⟨{ agenda := [⟨none, .a, some .powerGood⟩] }, _, rfl, rfl, rfl⟩
theorem wit_fatal : ∃ s u : State, s.fatal = true ∧ (∀ m more, s.agenda = m :: more → m.ev ≠ some .packageReset) ∧ step s = .next u :=
  ⟨{ fatal := true, agenda := [⟨none, .a, none⟩] }, _, rfl, (by intro m r h; cases h; decide), rfl⟩
theorem wit_fatal_stops : ∃ s : State, s.fatal = true ∧ s.agenda = [] := ⟨{ fatal := true }, rfl, rfl⟩
theorem wit_form : memoryForm State.reset ∧ memoryForm ({ mem := tables } : State) ∧
    ∃ t, step ({ mem := tables, agenda := [⟨none, .a, some .sleepDeadline⟩] } : State) = .next t := ⟨by unfold memoryForm; decide, by unfold memoryForm; decide, _, rfl⟩
theorem wit_performed : ∃ (s : State) (o : StoreOp) (ls : List LaneAcc) (a : Nat), s.mem.wf = true ∧ StoreOp.storedLanes o = some ls ∧ outside ls a :=
  ⟨run, storeOf true (storeKind .sys), _, 0x2000, by decide, rfl, by
    intro l h p k
    have e : l = { lane := 0, ea := 0x1000, pieces := [⟨0x1000, 4, .normal⟩] } := by simpa using h
    subst e
    have f : p = ⟨0x1000, 4, .normal⟩ := by simpa using k
    subst f
    decide⟩
theorem wit_lane_frame : ∃ (s t : State) (f : State → Nat → Nat) (reads : List (VReg × Nat)) (words : Nat),
    LaneWrite (.vadd false 10 8 6) none reads 10 1 words f ∧ s.vcheck reads [(10, 1)] = .ok () ∧ s.slot.fsize ≤ s.grp.vrf.length ∧
      exec (.vadd false 10 8 6) s = .next t := ⟨run, _, _, _, _, .vadd _ _ _ _, by decide, by decide, rfl⟩
theorem wit_rounding : (1 < 2 ^ (fmtOf .f32).bits ∧ (decodeFp (fmtOf .f32) 1).isNaN = false) ∧
    (signedAt false 3 0 (min 0 0) + signedAt true 3 0 (min 0 0) = 0) ∧
    (roundFin (fmtOf .f32) .rne 0 false true 1 (-200)).1 % 2 ^ ((fmtOf .f32).bits - 1) = 0 := by decide
theorem wit_special_range : 0x80000000 < (0x80000001 : W32).toNat ∧ (0x80000001 : W32).toNat < 0xFF800000 := by decide

/-- A gang with a handler at 0x8000, frames on the mapped pages. -/
def trapRun : State := { runOne.setGrp fun g => { g with tfp := 0x30000 } with gangs := [{ gang1 with trapEntry := 0x8000 }] }
theorem wit_trap : ∃ (s u v t : State) (c : Cause), s.grp.trap = none ∧ (s.gang s.grp.gang).trapEntry ≠ 0 ∧ s.mustWait = false ∧ c.code < 256 ∧
    u = (s.returnAll fun _ => true).drainQueue (fun o => o.group == s.grp.key && o.cnt == .none) ∧ u.grpWrite u.grp.tfp ((u.frameWords c).flatMap fun w => bytesOfNat 8 w.toNat) = .ok v ∧
    v.enterTrap (s.gang s.grp.gang).trapEntry = .ok t :=
  ⟨trapRun, _, _, _, { code := 1 }, rfl, by decide, rfl, by decide, rfl, rfl, rfl⟩
theorem wit_raised : ∃ s : State, s.grp.raised ≠ none := ⟨runOne.setGrp fun g => { g with raised := some (.a, { code := 1 }) }, by decide⟩
theorem wit_trap_waits : ∃ s : State, s.grp.trap = none ∧ (s.gang s.grp.gang).trapEntry ≠ 0 ∧ s.mustWait = true :=
  ⟨{ trapRun with rtab := [⟨5, 0, 0, 0, 1, 1, { a := true }, 0, false, .tld 0 0 1 0 0, 0⟩] }, rfl, by decide, rfl⟩
theorem wit_double : ∃ s : State, (s.grp.trap ≠ none ∨ (s.gang s.grp.gang).trapEntry = 0) ∧ s.ctx s.grp.vf s.grp.part = some ctx0 := ⟨run, .inr rfl, rfl⟩
theorem wit_double_trap : ∃ s : State, s.grp.trap ≠ none :=
  ⟨trapRun.setGrp fun g => { g with trap := some ⟨0x30000, path, {}, none, 0⟩ }, by decide⟩
theorem wit_atomic_pairs : AtomOp.add.accepts .i32 true = true ∧ AtomOp.cas.accepts .b128 true = true ∧ AtomOp.fmin.accepts .f64 true = true := by decide
theorem wit_future_views : ((runOne.setFut 15 ⟨.pending, 0, 7⟩).fut 15).state = .pending ∧ ((runOne.setFut 15 ⟨.pending, 0, 7⟩).fut 15).op = 7 ∧
    ((runOne.setFut 15 ⟨.pending, 0, 7⟩).park (.future 15 7)).slot.park = .future 15 7 ∧
    ((runOne.setFut 15 ⟨.pending, 0, 7⟩).park (.future 15 7)).slot.derr = none := by decide
theorem wit_phase_ends : ∃ (s : State) (e : SetEntry), (s.gang 1).key = 1 ∧ (s.gang 1).sets[0]? = some e ∧
    0 < ones 256 (e.member &&& ~~~e.left) ∧ ones 256 (e.member &&& ~~~e.left) = ones 256 e.arrv :=
  ⟨{ gangs := [{ gang1 with sets := [{ member := 3, arrv := 3 }] }] }, _, rfl, rfl, by decide, by decide⟩
theorem wit_phase_open : ∃ (s : State) (e : SetEntry), (s.gang 1).key = 1 ∧ (s.gang 1).sets[0]? = some e ∧
    ones 256 (e.member &&& ~~~e.left) ≠ ones 256 e.arrv :=
  ⟨{ gangs := [{ gang1 with sets := [{ member := 3, arrv := 1 }] }] }, _, rfl, rfl, by decide⟩
theorem wit_die : ∃ s : State, (s.die 0).present = true := ⟨{ dies := (Vector.replicate 6 {}).set 0 { present := true } }, rfl⟩

end Sys2Proof.Tests
end

