-- ==== Sys2Proof/Tests/Slice0.lean ====
section
/-! SUPPORT. The smoke test of the static checks, further words that the spec writes out, and single steps from small states. -/
namespace Sys2Proof.Tests
open Sys2Proof Sys2Proof.Machine

set_option maxRecDepth 40000

/-! ### Ill-formed terms, one for each check -/

theorem smoke_fields : [Instr.sbfe true 1 2 64 1, .sbfe true 1 2 0 0, .sbfe false 1 2 1 64, .sbfi 1 2 40 25, .sset .exec 1, .sset .wcnt 1, .spawn 0 1 4,
    .waitc 0, .waitaW1 .eq .die .rel 0 1 2 3, .waitaW1 .eq .die .ar 0 1 2 3, .wakeW1 .die .acq 0 1, .wakeW1 .die .ar 0 1].all (fun i => !i.wf) = true := by decide
theorem smoke_cluster : [Instr.ldstat 0 .f32 0 1, .mmq 0 0 0 .f32 true 1 2 3, .mmq 1 1 0 .f16 true 1 2 3, .mmq 1 2 0 .f16 true 1 2 3, .mmq 2 3 0 .f16 true 1 2 3,
    .mmq 0 0 0 .f16 false 1 2 3, .mmqs 0 0 0 .f16 true 1 2 3, .mmqs 0 3 0 .k48e3m2 true 1 2 3, .mmqs 0 0 0 .k48i8 false 1 2 3, .tst 0 .bf16 .rne false 1 2,
    .tst 0 .i32 .rne false 1 2, .tst 0 .f32 .rtz false 1 2, .tst 0 .f32 .rne true 1 2].map Instr.wf =
    [false, false, false, false, false, false, false, false, false, true, false, false, false] := by decide
theorem smoke_package : [Instr.gather .f32 0 8, .gather .z32 0 9, .tcopy false .die .acq .dflt 0 8, .tcopy false .die .rel .l2 0 8, .tcopy false .die .rel .last 0 8,
    .tcopy false .die .rel .dflt 0 12, .put false .die .ar 0 8, .put false .die .rel 0 12, .dfree 6].all (fun i => !i.wf) = true := by decide
theorem smoke_near : [Instr.nmcall .die .acq 0 0 8, .nmcall .die .rel 0 0 12, .ixred .f16 .die .rel 8, .ixred .f32 .die .acq 8, .ixred .f32 .die .rel 12,
    .walk .die .acq 0 8, .walk .die .rel 0 12, .coll .die .acq 0 8, .coll .die .rel 0 12, .dpost 0 0 12, .xrun 0 12, .xcal 0 12].all (fun i => !i.wf) = true := by decide
theorem smoke_types : [Instr.vaddW1 none .f32 false false 2 4 6, .vsubW1 none .b32 true false 2 4 6, .vmulW1 none .i8 false false 2 4 6, .vmulhW1 none .z32 false false 2 4 6,
    .vmad none .b64 true false 2 4 6 8, .vaddc none .f64 false 2 4 6 1, .vandW1 none .f32 false 2 4 6, .vshlW1 none .i16 false 2 4 6, .vminW1 none .z32 false false 2 4 6,
    .vpopcW1 none .f32 2 4, .vsel none .i16 2 4 6 1, .vmovW1 none .b128 false 4 8].all (fun i => !i.wf) = true := by decide
theorem smoke_pairs : [Instr.vaddW1 none .i64 false false 3 4 6, .vaddW1 none .i64 false false 2 5 6, .vaddW1 none .i64 false false 2 4 7, .vmad none .i64 false true 2 4 7 9,
    .vaddLitW1 none .z64 false 2 5 0, .vandLitW1 none .b64 3 4 0, .vmaxLitW1 none .i64 false 3 4 0, .vbfe none .i64 false 2 5 0 1, .vbfe none .i32 false 2 5 32 1,
    .vbfi none .i32 2 5 0 33, .vbfi none .f32 2 5 0 1, .vcmp none .z64 .eq false 1 2 4].all (fun i => !i.wf) = true := by decide
theorem smoke_floats : [Instr.faddW1 none .f16 .rne false 2 4 6, .fsubW1 none .f64 .rne false 3 4 6, .fmulW1 none .f64 .rne true 2 5 7, .ffmaW1 none .f64 .rne false false false 2 4 6 9,
    .fminW1 none .f64 false 2 4 7, .fmaxW1 none .i32 false 2 4 6, .fcmp none .bf16 .eq false 1 2 4, .fclassW1 none .i32 2 4, .frnd none .bf16 .rne 2 4,
    .cvt none .b32 .rne false .f32 2 4, .cvt none .f32 .rne false .b32 2 4, .cvt none .i64 .rne false .f32 3 4].all (fun i => !i.wf) = true := by decide
theorem smoke_exchange : [Instr.pkaddW1 none .f32 .rne 2 4 6, .pkmulW1 none .e4m3 .rne 2 4 6, .pkfmaW1 none .f32 .rne 2 4 6 8, .vshflW1 none .i8 0 2 4 6, .vrotW1 none .f64 3 4 1,
    .vbcastW1 none .f64 2 5 1, .vraddW1 none .b32 1 2, .vrminW1 none .z32 false 1 2, .vrminW1 none .f32 true 1 2, .vrmaxW1 none .f64 true 1 2, .vscan none .b64 .add false 2 4,
    .vdot2hW1 none .f32 2 4 6 8].all (fun i => !i.wf) = true := by decide
theorem smoke_memory : [Instr.ldW1 none .k48i8 .die .rlx .dflt ⟨1, none⟩ 0 4, .ldW1 none .b32 .die .rel .dflt ⟨1, none⟩ 0 4, .ldW1 none .b128 .die .rlx .dflt ⟨1, none⟩ 0 6,
    .ldW1 none .e2m1 .die .rlx .dflt ⟨1, some ⟨false, 1, 2⟩⟩ 0 4, .stW1 none .b32 .die .acq .dflt ⟨1, none⟩ 0 4, .ldgW1 none .b64 .die .rlx .dflt ⟨1, none⟩ 0 5,
    .stgW1 none .b32 .die .ar .dflt ⟨1, none⟩ 0 4, .ldpW1 none .i8 none 0 4, .stpW1 none .b128 none 0 6, .prefW1 none .last ⟨1, none⟩ 0, .prefW1 none .na ⟨1, none⟩ 0,
    .fence .die .ar].all (fun i => !i.wf) = true := by decide
theorem smoke_atomics : [Instr.atom none .i32 .die .rlx .dflt .cas ⟨1, none⟩ 0 4 6, .atom none .b32 .die .rlx .dflt .exch ⟨1, none⟩ 0 4 6, .atom none .i64 .die .rlx .dflt .add ⟨1, none⟩ 0 5 0,
    .atomg none .b128 .die .rlx .cas ⟨1, none⟩ 0 4 8, .atomg none .f32 .die .rlx .add ⟨1, none⟩ 0 4 0, .red none .b32 .die .rlx .dflt .exch ⟨1, none⟩ 0 4,
    .red none .b32 .die .rlx .dflt .cas ⟨1, none⟩ 0 4, .red none .i32 .die .acq .dflt .add ⟨1, none⟩ 0 4, .red none .b32 .die .rlx .dflt .min ⟨1, none⟩ 0 4].all (fun i => !i.wf) = true := by decide
theorem smoke_remote : [Instr.remld none .e2m1 .sys .rlx 0 4 1 2, .remld none .b32 .sys .rel 0 4 1 2, .remld none .b32 .sys .rlx 0 4 1 3, .remst none .b32 .sys .acq 0 4 1 2,
    .remst none .b64 .sys .rlx 0 5 1 2, .rematom none .b32 .sys .rlx .add 0 4 1 3 0, .rematom none .b32 .sys .rlx .exch 0 4 1 2 6, .rred none .i32 .fadd 0 4 4, .rred none .f32 .fadd 0 4 6,
    .gred none .f32 .add 4 2, .gred none .f64 .fadd 4 2, .gred none .f32 .fadd 4 3].all (fun i => !i.wf) = true := by decide

/-! ### Words of the spec's examples -/

/-- The function of chapter 02, and the word of R372, R424, R420. -/
theorem spec_words : decodeWords [0x10000128] = .ok (.enter 1) ∧ decodeWords [0x00820844] = .ok (.vxor false 2 2 2) ∧
    decodeWords [0x60442304] = .ok (.ld ⟨4, some ⟨false, 2, 1⟩⟩ 8) ∧ decodeWords [0x02020904] = .ok (.fadd false 2 2 8) ∧
    decodeWords [0x200410C0] = .ok (.saddImm 4 4 128) ∧ decodeWords [0xFFC618C0] = .ok (.saddImm 6 6 0x3FF) ∧
    decodeWords [0x10060101, 0, 0xFFFFFFFF] = .ok (.br (.nz 6) 0xFFFFFFFF) ∧ decodeWords [0x00000120] = .ok .ret ∧
    decodeWords [0x000223A5, 0xA0048140, 0] = .ok (.gred (some ⟨false, 1⟩) .f32 .fadd 8 2) ∧
    decodeWords [0x0408079D, 0xA0048000, 0] = .ok (.rred none .f32 .fadd 1 8 16) ∧
    decodeWords [0x01022385, 0x00CA0000, 0] = .ok (.remld none .b64 .sys .acq 0 8 2 4) := by decide

/-- Refused words: an unassigned opcode, a LEN, a reserved M, a W1 field that is not used, a W2 that is not, a field out of range, too few words. -/
theorem refused_words : decodeWords [0x000000A8] = .error .opcode ∧ decodeWords [0x00000009, 0, 0] = .error .opcode ∧ decodeWords [0x10000008] = .error .field ∧
    decodeWords [0x00000005, 0x20, 0] = .error .field ∧ decodeWords [0x00000005, 0, 1] = .error .field ∧ decodeWords [0x00100288] = .error .field ∧
    decodeWords [0x00000005, 0] = .error .truncated := by decide

/-! ### Single steps -/

/-- What a step leaves of the current group's scalar register, if it goes on. -/
def scalarAfter (s : State) (r : SReg) : Option W64 :=
  match step s with
  | .next t => some (t.rs r)
  | _ => none
/-- The program counter after a step. -/
def stepPc (s : State) : Option (W64 × Nat) :=
  match step s with
  | .next t => some (t.slot.pcb, t.slot.idx)
  | _ => none

/-- SADD s1, s2, s3 wraps modulo 2^64 (R114). -/
theorem step_sadd : scalarAfter ((runWith [(2, 0xFFFFFFFFFFFFFFFF), (3, 2)]).withFetchWord 32 0x00C20408) 1 = some 1 := by decide
/-- SADD s6, s6, -1 (R114). -/
theorem step_sadd_imm : scalarAfter ((runWith [(6, 5)]).withFetchWord 32 0xFFC618C0) 6 = some 4 := by decide
/-- SSRA s1, s1, 63 of a negative number: source and destination the same (R115). -/
theorem step_ssra : scalarAfter ((runWith [(1, 0x8000000000000000)]).withFetchWord 32 0x0FC104F0) 1 = some 0xFFFFFFFFFFFFFFFF := by decide
/-- SLI s4, 126 as the first instruction after reset (R114). -/
theorem step_reset : scalarAfter (State.reset.withFetchWord 32 0x1F8010F8) 4 = some 0x7E := by decide
/-- After the last instruction of a bundle comes word 1 of the next (R24). -/
theorem step_nop : stepPc (run.withFetchWord 32 0x148) = some (0x10040, 1) := by decide

/-- An unassigned word without a handler ends the context: no path is left (R25, R198). -/
def ended (s : State) : Bool :=
  match step s with
  | .next t => t.grp.live == 0 && t.ctxs.map (·.state) == [.terminated]
  | _ => false
theorem step_illegal : ended (run.withFetchWord 32 0) = true := by decide
/-- A step without a move, after reset, changes nothing but time and the turn. -/
def idles (s : State) : Bool :=
  match step s with
  | .next t => t.grp == s.grp && t.mem.isEmpty && t.tick == 1
  | _ => false
theorem step_reset_idle : idles State.reset = true := by decide

end Sys2Proof.Tests
end

