-- ==== Sys2Proof/Tests/Values.lean ====
section
/-! SUPPORT. Witnesses of the statements about values: for every row of their tables, encodings that meet it, worked out from the formats of
R96 to R98. -/
namespace Sys2Proof.Tests
open Sys2Proof Sys2Proof.Machine Sys2Proof.Statements

/-- −1 as a byte is 255 as an unsigned one, and 0 under SAT. -/
theorem wit_convert_ints : (∃ r, Converts .i8 .z8 .rne 0 false 0xFF r) ∧ (∃ r, Converts .i8 .z8 .rne 0 true 0xFF r) :=
  ⟨⟨_, .intInt _ _ 8 true 8 false _ _ _ _ _ rfl rfl rfl⟩, ⟨_, .intInt _ _ 8 true 8 false _ _ _ _ _ rfl rfl rfl⟩⟩
/-- −1 is 0xBF800000 as FP32; 2^24 + 1 is rounded. -/
theorem wit_convert_int_float : (∃ r, Converts .i8 .f32 .rne 0 false 0xFF r) ∧ (∃ r, Converts .i32 .f32 .rup 0 false 0x1000001 r) :=
  ⟨⟨_, .intExact _ _ 8 true _ _ _ _ _ 0xBF800000 0x800000 (-23) rfl (by simp [isFloat]) rfl ⟨by decide, by decide⟩ (by unfold sameValue; decide)⟩,
   ⟨_, .intFloat _ _ 32 true _ _ _ _ _ rfl (by simp [isFloat]) rfl⟩⟩
/-- 2.5 to a byte: 2 by RNE, 3 by RNA and RUP. 300 is above its range, −300 below. -/
theorem wit_convert_float_int : (∃ r, Converts .f32 .i8 .rne 0 false 0x40200000 r) ∧ (∃ r, Converts .f32 .i8 .rna 0 false 0x40200000 r) ∧
    (∃ r, Converts .f32 .i8 .rup 0 false 0x40200000 r) ∧ (∃ r, Converts .f32 .i8 .rtz 0 false 0x43960000 r) ∧
    (∃ r, Converts .f32 .i8 .rdn 0 false 0xC3960000 r) ∧ (∃ r, Converts .f32 .i8 .sr 0x80000000 false 0x40200000 r) :=
  ⟨⟨_, .floatInt _ _ 8 true _ _ _ _ false 0xA00000 (-22) 2 (by simp [isFloat]) rfl (by decide) ⟨by decide, by decide, by decide⟩ (by decide)⟩,
   ⟨_, .floatInt _ _ 8 true _ _ _ _ false 0xA00000 (-22) 3 (by simp [isFloat]) rfl (by decide) ⟨by decide, by decide⟩ (by decide)⟩,
   ⟨_, .floatInt _ _ 8 true _ _ _ _ false 0xA00000 (-22) 3 (by simp [isFloat]) rfl (by decide) ⟨by decide, by decide⟩ (by decide)⟩,
   ⟨_, .floatAbove _ _ 8 true _ _ _ _ false 0x960000 (-15) 300 (by simp [isFloat]) rfl (by decide) ⟨by decide, by decide⟩ (by decide)⟩,
   ⟨_, .floatBelow _ _ 8 true _ _ _ _ true 0x960000 (-15) 300 (by simp [isFloat]) rfl (by decide) ⟨by decide, by decide⟩ (by decide)⟩,
   ⟨_, .floatInt _ _ 8 true _ _ _ _ false 0xA00000 (-22) 3 (by simp [isFloat]) rfl (by decide) ⟨by decide, by decide⟩ (by decide)⟩⟩
theorem wit_convert_special_int : (∃ r, Converts .f32 .i8 .rne 0 false 0x7FC00000 r) ∧ (∃ r, Converts .f32 .i8 .rne 0 false 0xFF800000 r) :=
  ⟨⟨_, .nanInt _ _ 8 true _ _ _ _ false (by simp [isFloat]) rfl (by decide)⟩, ⟨_, .infInt _ _ 8 true _ _ _ _ true (by simp [isFloat]) rfl (by decide)⟩⟩
/-- 1.5 as FP16 is 0x3E00; 1 + 2^-23 is rounded. -/
theorem wit_convert_floats : (∃ r, Converts .f32 .f16 .rne 0 false 0x3FC00000 r) ∧ (∃ r, Converts .f32 .f16 .rne 0 true 0x3F800001 r) :=
  ⟨⟨_, .exact _ _ _ _ _ _ false 0xC00000 (-23) 0x3E00 0x600 (-10) (by simp [isFloat]) (by simp [isFloat]) (by decide) ⟨by decide, by decide⟩
      (by unfold sameValue; decide)⟩,
   ⟨_, .narrow _ _ _ _ _ _ false 0x800001 (-23) (by simp [isFloat]) (by simp [isFloat]) (by decide)⟩⟩
theorem wit_convert_nan : (∃ r, Converts .f32 .f16 .rne 0 false 0x7F800001 r) ∧ (∃ r, Converts .f32 .f16 .rne 0 true 0x7F800001 r) ∧
    (∃ r, Converts .f32 .e4m3 .rne 0 false 0x7FC00000 r) ∧ (∃ r, Converts .e4m3 .e4m3 .rne 0 false 0xFF r) ∧
    (∃ r, Converts .f32 .e2m1 .rne 0 false 0x7FC00000 r) :=
  ⟨⟨_, .nan _ _ _ _ _ true (by simp [isFloat]) (by simp) (by decide)⟩, ⟨_, .nanSat _ _ _ _ _ true (by simp [isFloat]) (by simp) (by decide) (by decide)⟩,
   ⟨_, .nanE4m3 _ _ _ _ _ false (by simp [isFloat]) (by decide) (by decide)⟩, ⟨_, .nanSame _ _ _ _ false (by decide)⟩,
   ⟨_, .nanSmall _ _ _ _ _ _ false (by simp [isFloat]) (by simp) (by decide)⟩⟩
theorem wit_convert_inf : (∃ r, Converts .f32 .f16 .rne 0 false 0xFF800000 r) ∧ (∃ r, Converts .f32 .f16 .rne 0 true 0xFF800000 r) ∧
    (∃ r, Converts .f32 .e4m3 .rne 0 false 0x7F800000 r) :=
  ⟨⟨_, .inf _ _ _ _ _ true 0xFC00 (by simp [isFloat]) (by simp [isFloat]) (by decide) ⟨by decide, by decide⟩⟩,
   ⟨_, .infMax _ _ _ _ _ _ true (by simp [isFloat]) (by simp [isFloat]) (by decide) (by decide) (.inl rfl)⟩,
   ⟨_, .infMax _ _ _ _ _ _ false (by simp [isFloat]) (by simp [isFloat]) (by decide) (by decide) (.inr rfl)⟩⟩
theorem wit_minmax : (∃ r, MinMax (fmtOf .f32) true false 0x3F800000 0x40000000 r) ∧ (∃ r, MinMax (fmtOf .f32) true false 0x40000000 0xBF800000 r) ∧
    (∃ r, MinMax (fmtOf .f32) false true 0x7F800000 0x7F800000 r) ∧ (∃ r, MinMax (fmtOf .f32) false false 0x80000000 0 r) ∧
    (∃ r, MinMax (fmtOf .f32) false false 0 0x80000000 r) :=
  ⟨⟨_, .less _ _ _ _ (by show signedBy _ _ < signedBy _ _; decide)⟩, ⟨_, .greater _ _ _ _ (by show signedBy _ _ < signedBy _ _; decide)⟩,
   ⟨_, .same _ _ _ (by decide)⟩, ⟨_, .zeros _ _ _ _ (-149) (-149) (by decide) (by decide)⟩, ⟨_, .zeros' _ _ _ _ (-149) (-149) (by decide) (by decide)⟩⟩
theorem wit_minmax_nan : (∃ r, MinMax (fmtOf .f32) true true 0x7F800001 0x40000000 r) ∧ (∃ r, MinMax (fmtOf .f32) true false 0x40000000 0x7FC00000 r) ∧
    (∃ r, MinMax (fmtOf .f32) false true 0x7FC00000 0x7F800001 r) :=
  ⟨⟨_, .nanLeft _ _ _ _ true (by decide) (by decide)⟩, ⟨_, .nanRight _ _ _ _ false (by decide) (by decide)⟩,
   ⟨_, .nans _ _ _ _ false true (by decide) (by decide)⟩⟩
/-- −0.25 rounds to −0; 2.5 to 2. -/
theorem wit_integral : (∃ r, Integral .f32 .rne 0 0x7F800001 r) ∧ (∃ r, Integral .f32 .rne 0 0xFF800000 r) ∧ (∃ r, Integral .f32 .rup 0 0x40000000 r) ∧
    (∃ r, Integral .f32 .rne 0 0xBE800000 r) ∧ (∃ r, Integral .f32 .rne 0 0x40200000 r) :=
  ⟨⟨_, .nan _ _ _ _ true (.inl rfl) (by decide)⟩, ⟨_, .inf _ _ _ _ true (.inl rfl) (by decide)⟩,
   ⟨_, .whole _ _ _ _ false 0x800000 (-22) 2 (.inl rfl) ⟨by decide, by decide⟩ (by decide)⟩,
   ⟨_, .rounds _ _ _ _ true 0x800000 (-25) 0 0x80000000 0 (-149) (.inl rfl) ⟨by decide, by decide⟩ ⟨by decide, by decide, by decide⟩
      ⟨by decide, by decide⟩ (by unfold sameValue; decide)⟩,
   ⟨_, .rounds _ _ _ _ false 0xA00000 (-22) 2 0x40000000 0x800000 (-22) (.inl rfl) ⟨by decide, by decide⟩ ⟨by decide, by decide, by decide⟩
      ⟨by decide, by decide⟩ (by unfold sameValue; decide)⟩⟩
theorem wit_sums : (∃ r, Sums .i32 [0xFFFFFFFF, 3] r) ∧ (∃ r, Sums .f64 [] r) ∧ (∃ r, Sums .f32 [0x7F800001, 0x7F800000] r) ∧
    (∃ r, Sums .f32 [0x7F800000, 0xFF800000] r) ∧ (∃ r, Sums .f32 [0x7F800000, 0x3F800000] r) :=
  ⟨⟨_, .ints _ _ (by simp)⟩, ⟨_, .none _ (.inr rfl)⟩, ⟨_, .nan _ _ 0x7F800001 true (.inl rfl) (by simp) (by decide) ⟨true, by decide⟩⟩,
   ⟨_, .infs _ _ 0x7F800000 0xFF800000 (.inl rfl) (by unfold numbers; decide) ⟨by simp, by decide⟩ ⟨by simp, by decide⟩⟩,
   ⟨_, .inf _ _ 0x7F800000 false 0x7F800000 (.inl rfl) (by unfold numbers; decide) ⟨by simp, by decide⟩ (by decide) ⟨by decide, by decide⟩⟩⟩
/-- 1 + 2, and 1 − 1. -/
theorem wit_sums_finite : (∃ r, Sums .f32 [0x3F800000, 0x40000000] r) ∧ (∃ r, Sums .f32 [0x3F800000, 0xBF800000] r) :=
  ⟨⟨_, .finite _ _ (-23) (.inl rfl)
      (by simp only [List.mem_cons, List.not_mem_nil, or_false]; rintro v (rfl | rfl)
          · exact ⟨false, 0x800000, -23, by decide, by decide⟩
          · exact ⟨false, 0x800000, -22, by decide, by decide⟩) (by decide)⟩,
   ⟨_, .zero _ _ (-23) (.inl rfl) (by simp)
      (by simp only [List.mem_cons, List.not_mem_nil, or_false]; rintro v (rfl | rfl)
          · exact ⟨false, 0x800000, -23, by decide, by decide⟩
          · exact ⟨true, 0x800000, -23, by decide, by decide⟩) (by decide)⟩⟩
theorem wit_extremes : (∃ r, Extremes .i32 false false [1, 0xFFFFFFFF] r) ∧ (∃ r, Extremes .i32 true true [1, 0xFFFFFFFF] r) ∧
    (∃ r, Extremes .i32 false false [] r) ∧ (∃ r, Extremes .z64 true false [] r) ∧ (∃ r, Extremes .f32 true false [] r) :=
  ⟨⟨_, .least _ _ _ 0xFFFFFFFF (by simp) (by decide) (by simp) (by decide)⟩, ⟨_, .greatest _ _ _ 0xFFFFFFFF (by simp) (by decide) (by simp) (by decide)⟩,
   ⟨_, .noLeast _ _ (by simp)⟩, ⟨_, .noGreatest _ _ (by simp)⟩, ⟨_, .noFloat _ _ _ 0xFF800000 (.inl rfl) ⟨by decide, by decide⟩⟩⟩
theorem wit_extremes_float : (∃ r, Extremes .f32 false false [0x7FC00000, 1] r) ∧ (∃ r, Extremes .f32 false false [0x40000000, 0xBF800000] r) ∧
    (∃ r, Extremes .f32 true false [0x40000000, 0xBF800000] r) :=
  ⟨⟨_, .nan _ _ _ _ 0x7FC00000 false (.inl rfl) (by simp) (by decide)⟩,
   ⟨_, .leastFp _ _ _ 0xBF800000 (.inl rfl) (by decide) (by unfold numbers; decide) (by simp)
      (by simp only [List.mem_cons, List.not_mem_nil, or_false]; rintro v (rfl | rfl) <;> (show ¬signedBy _ _ < signedBy _ _; decide))
      (by intro v _ e g h; exact absurd h (by rw [show decodeFp (fmtOf .f32) 0xBF800000 = .fin true 0x800000 (-23) by decide]; simp))⟩,
   ⟨_, .greatestFp _ _ _ 0x40000000 (.inl rfl) (by decide) (by unfold numbers; decide) (by simp)
      (by simp only [List.mem_cons, List.not_mem_nil, or_false]; rintro v (rfl | rfl) <;> (show ¬signedBy _ _ < signedBy _ _; decide))
      (by intro v _ e g h; exact absurd h (by rw [show decodeFp (fmtOf .f32) 0x40000000 = .fin false 0x800000 (-22) by decide]; simp))⟩⟩

end Sys2Proof.Tests
end

section
/-! PROOFS. Future views (R75): what issuing, resolving and waiting do to a future and to both slots' views of it. -/
namespace Sys2Proof.Machine
open Sys2Proof

/-! ### One group's views -/

@[simp] theorem Group.setView_f (g : Group) (k : Nat) (p : Bool) : (g.setView k p).f = g.f := rfl
theorem Group.setView_true_slotA_view (g : Group) (k : Nat) : (g.setView k true).slotA.view = g.slotA.view ||| (1#16 <<< k) := rfl
theorem Group.setView_true_slotB_view (g : Group) (k : Nat) : (g.setView k true).slotB.view = g.slotB.view ||| (1#16 <<< k) := rfl
theorem Group.setView_false_slotA_view (g : Group) (k : Nat) : (g.setView k false).slotA.view = g.slotA.view &&& ~~~(1#16 <<< k) := rfl
theorem Group.setView_false_slotB_view (g : Group) (k : Nat) : (g.setView k false).slotB.view = g.slotB.view &&& ~~~(1#16 <<< k) := rfl

/-- Clearing a mark leaves the other marks as they are. -/
theorem getLsbD_clear_mark (v : BitVec 16) (j k : Nat) : (v &&& ~~~(1#16 <<< j)).getLsbD k = (v.getLsbD k && decide (k ≠ j)) := by
  by_cases hk : k < 16
  · by_cases h : k = j
    · simp [h]
    · by_cases hlt : k < j
      · simp [hk, h, hlt]
      · simp [hk, h, hlt, show k - j ≠ 0 by omega]
  · simp [BitVec.getLsbD_of_ge v k (by omega)]

/-- Neither slot's view shows future `k` as pending. -/
def Group.Unmarked (g : Group) (k : Nat) : Prop := g.slotA.view.getLsbD k = false ∧ g.slotB.view.getLsbD k = false

/-- Clearing the marks of future `j` unmarks `j` and no other future. -/
theorem Group.unmarked_setView (g : Group) (j k : Nat) : (g.setView j false).Unmarked k ↔ k = j ∨ g.Unmarked k := by
  simp only [Group.Unmarked, Group.setView_false_slotA_view, Group.setView_false_slotB_view, getLsbD_clear_mark]
  by_cases h : k = j <;> simp [h]

/-! ### A resolution, future by future -/

/-- Whether a future is pending on operation `op`. -/
def Future.awaits (x : Future) (op : Nat) : Prop := x.state = .pending ∧ x.op = op

/-- Future `k` of a group set resolved, its mark cleared in both views. -/
def Group.settle (g : Group) (op : Nat) (status : W32) (k : Nat) : Group :=
  ({ g with f := g.f.setIfInBounds k ⟨.resolved, status, op⟩ }).setView k false

/-- What `Group.resolve` does for future `k`. -/
def Group.resolveAt (op : Nat) (status : W32) (g : Group) (k : Nat) : Group :=
  match g.f[k]? with
  | some x => if x.state = .pending ∧ x.op = op then g.settle op status k else g
  | none => g

/-- A resolution goes through the sixteen futures in turn. -/
theorem Group.resolve_eq_foldl (g : Group) (op : Nat) (status : W32) :
    g.resolve op status = (List.range 16).foldl (Group.resolveAt op status) g := rfl

theorem Group.resolveAt_awaiting {g : Group} {op k : Nat} {x : Future} (status : W32) (hx : g.f[k]? = some x) (hop : x.awaits op) :
    g.resolveAt op status k = g.settle op status k := by
  obtain ⟨hstate, hop⟩ := hop
  simp [Group.resolveAt, hx, hstate, hop]

/-- Each turn settles its future or leaves the group alone, which it does where the future does not wait for the operation. -/
theorem Group.resolveAt_cases (g : Group) (op : Nat) (status : W32) (k : Nat) :
    g.resolveAt op status k = g ∨ (∃ x, g.f[k]? = some x ∧ x.awaits op) ∧ g.resolveAt op status k = g.settle op status k := by
  cases hx : g.f[k]? with
  | none => exact .inl (by simp [Group.resolveAt, hx])
  | some x =>
    by_cases hop : x.awaits op
    · exact .inr ⟨⟨x, rfl, hop⟩, Group.resolveAt_awaiting status hx hop⟩
    · exact .inl (by simpa [Group.resolveAt, hx] using fun hs ho => absurd ⟨hs, ho⟩ hop)

/-- Another future's turn leaves a future as it is. -/
theorem Group.resolveAt_f_of_ne (g : Group) (op : Nat) (status : W32) {j k : Nat} (h : j ≠ k) :
    (g.resolveAt op status j).f[k]? = g.f[k]? := by
  rcases g.resolveAt_cases op status j with e | ⟨-, e⟩ <;> rw [e]
  exact Vector.getElem?_setIfInBounds_ne h

/-- Future `k` is resolved with this status, and neither view marks it. -/
def Group.Resolved (g : Group) (op : Nat) (status : W32) (k : Nat) : Prop := g.f[k]? = some ⟨.resolved, status, op⟩ ∧ g.Unmarked k

theorem Group.resolved_resolveAt_self {g : Group} {op k : Nat} {x : Future} (status : W32) (hx : g.f[k]? = some x) (hop : x.awaits op) :
    (g.resolveAt op status k).Resolved op status k := by
  have hk : k < 16 := (Vector.getElem?_eq_some_iff.mp hx).1
  rw [Group.resolveAt_awaiting status hx hop]
  exact ⟨Vector.getElem?_setIfInBounds_self_of_lt hk, (Group.unmarked_setView _ k k).mpr (.inl rfl)⟩

/-- A future once resolved stays so in every further turn: it is not pending, and marks are only cleared. -/
theorem Group.Resolved.resolveAt {g : Group} {op k : Nat} {status : W32} (h : g.Resolved op status k) (j : Nat) :
    (g.resolveAt op status j).Resolved op status k := by
  obtain ⟨hf, hview⟩ := h
  rcases g.resolveAt_cases op status j with e | ⟨⟨x, hx, hstate, -⟩, e⟩
  · rw [e]; exact ⟨hf, hview⟩
  · have hj : j ≠ k := by
      rintro rfl
      rw [hf] at hx; cases hx; cases hstate
    refine ⟨(g.resolveAt_f_of_ne op status hj).trans hf, ?_⟩
    rw [e]; exact (Group.unmarked_setView _ j k).mpr (.inr hview)

theorem Group.Resolved.foldl {g : Group} {op k : Nat} {status : W32} (h : g.Resolved op status k) (l : List Nat) :
    (l.foldl (Group.resolveAt op status) g).Resolved op status k := by
  induction l generalizing g with
  | nil => exact h
  | cons j l ih => exact ih (h.resolveAt j)

/-- After all turns, a future that waited for the operation and had its turn is resolved. -/
theorem Group.resolved_foldl {g : Group} {op k : Nat} {x : Future} (status : W32) (l : List Nat) (hk : k ∈ l)
    (hx : g.f[k]? = some x) (hop : x.awaits op) : (l.foldl (Group.resolveAt op status) g).Resolved op status k := by
  induction l generalizing g with
  | nil => cases hk
  | cons j l ih =>
    by_cases hj : j = k
    · subst hj
      exact (Group.resolved_resolveAt_self status hx hop).foldl l
    · exact ih ((List.mem_cons.mp hk).resolve_left (Ne.symm hj)) ((g.resolveAt_f_of_ne op status hj).trans hx)

/-! ### Futures of the state -/

/-- A future of the state, as an optional entry of the group's list. -/
theorem State.grp_f_getElem? (s : State) (f : FReg) : s.grp.f[f.toNat]? = some (s.fut f) := Vector.getElem?_eq_getElem f.isLt

@[simp] theorem State.resolve_grp (s : State) (op : Nat) (status : W32) : (s.resolve op status).grp = s.grp.resolve op status := by
  simp only [State.resolve]

/-- A resolution reaches every future of the group that waits for the operation (R75). -/
theorem State.resolved_resolve (s : State) (f : FReg) (op : Nat) (status : W32) (hop : (s.fut f).awaits op) :
    (s.resolve op status).grp.Resolved op status f.toNat := by
  rw [State.resolve_grp, Group.resolve_eq_foldl]
  exact Group.resolved_foldl status _ (List.mem_range.mpr f.isLt) (s.grp_f_getElem? f) hop

theorem State.fut_of_resolved {s : State} {f : FReg} {op : Nat} {status : W32} (h : s.grp.Resolved op status f.toNat) :
    s.fut f = ⟨.resolved, status, op⟩ := Option.some.inj ((s.grp_f_getElem? f).symm.trans h.1)

theorem exec_fwait (d : SReg) (f : FReg) (s : State) : exec (.fwait d f) s = execFwait d f s := rfl

/-- FWAIT of a pending future parks its path (R75, R214). -/
theorem execFwait_pending (d : SReg) {f : FReg} {s : State} (h : (s.fut f).state = .pending) :
    execFwait d f s = .next (s.park (.future f (s.fut f).op)) := by simp only [execFwait, h]

/-- A path parked on a future cannot issue while the future is pending on the operation it waits for. -/
theorem State.canIssue_parked_pending {s : State} {f : FReg} (herr : s.slot.derr = none) (hpark : s.slot.park = .future f (s.fut f).op)
    (h : (s.fut f).state = .pending) : s.canIssue = false := by simp [State.canIssue, herr, hpark, h]

/-- Settles O43: issuing marks both views; a resolution, future by future, settles the one that waits and clears both marks, which no
later turn undoes; FWAIT of a pending future parks, and so parked the path's issue condition is false. -/
theorem futureViews : Obligations.FutureViews := by
  refine ⟨fun s f op => ⟨fut_issueFut s f op, ?_, ?_⟩, fun s f op status hstate hop => ?_, fun s d f h => ?_, fun s f => ?_⟩
  · exact Group.setView_true_slotA_view _ _
  · exact Group.setView_true_slotB_view _ _
  · have h := s.resolved_resolve f op status ⟨hstate, hop⟩
    obtain ⟨hA, hB⟩ := h.2
    exact ⟨State.fut_of_resolved h, hA, hB⟩
  · rw [exec_fwait]; exact execFwait_pending d h
  · exact State.canIssue_parked_pending

end Sys2Proof.Machine
end

section
/-! PROOFS. The decoder on scalar words (R8, R11, R42): the fields of the base word as numbers, and the table that reads them. -/
namespace Sys2Proof

theorem extractLsb'_toNat_div {w : Nat} (x : BitVec w) (lo n : Nat) : (x.extractLsb' lo n).toNat = x.toNat / 2 ^ lo % 2 ^ n := by
  rw [BitVec.extractLsb'_toNat, Nat.shiftRight_eq_div_pow]

theorem extractLsb'_eq_zero_iff {w : Nat} (x : BitVec w) (lo n : Nat) : x.extractLsb' lo n = 0 ↔ x.toNat / 2 ^ lo % 2 ^ n = 0 := by
  rw [← BitVec.toNat_inj, extractLsb'_toNat_div, BitVec.ofNat_eq_ofNat, BitVec.toNat_zero]

theorem unpackBase_len_toNat (w : W32) : (unpackBase w).len.toNat = w.toNat % 2 ^ 2 := by
  rw [unpackBase, extractLsb'_toNat_div, Nat.pow_zero, Nat.div_one]

theorem unpackBase_u (w : W32) : (unpackBase w).u = decide (w.toNat / 2 ^ 2 % 2 = 1) := Nat.testBit_eq_decide_div_mod_eq

theorem unpackBase_op_toNat (w : W32) : (unpackBase w).op.toNat = w.toNat / 2 ^ 3 % 2 ^ 7 := by
  rw [unpackBase, extractLsb'_toNat_div]

/-- What is read as a plain instruction is the instruction. -/
theorem map_plain_instr (r : Except DecodeError Instr) : (r.map Decoded.plain).map Decoded.instr = r := by cases r <;> rfl

theorem readForm_short {b : BaseWord} (hu : b.u = false) : readForm b .short = (decodeScalar b).map .plain := by
  cases b; subst hu; rfl

theorem readForm_ext {b : BaseWord} (hu : b.u = false) (w : ExtWord) (w2 : W32) :
    readForm b (.ext w w2) = (decodeScalarExt b w w2).map .plain := by
  cases b; subst hu; rfl

/-- LEN 0b00 and U = 0: the word alone, by the scalar table (R8, R11). -/
theorem decodeWords_scalar {w : W32} (h : w.toNat % 8 = 0) (rest : List W32) : decodeWords (w :: rest) = decodeScalar (unpackBase w) := by
  have hlen : (unpackBase w).len.toNat = 0 := by rw [unpackBase_len_toNat]; omega
  have hu : (unpackBase w).u = false := by rw [unpackBase_u, decide_eq_false_iff_not]; omega
  simp only [decodeWords, readWords, hlen, readForm_short hu, map_plain_instr]

/-- LEN 0b01 and U = 0: with W1 and W2, by the scalar table of that length (R8, R11). -/
theorem decodeWords_scalarExt {w : W32} (h : w.toNat % 8 = 1) (w1 w2 : W32) (rest : List W32) :
    decodeWords (w :: w1 :: w2 :: rest) = decodeScalarExt (unpackBase w) (unpackExt w1) w2 := by
  have hlen : (unpackBase w).len.toNat = 1 := by rw [unpackBase_len_toNat]; omega
  have hu : (unpackBase w).u = false := by rw [unpackBase_u, decide_eq_false_iff_not]; omega
  simp only [decodeWords, readWords, hlen, readForm_ext hu, map_plain_instr]

theorem accept_false (i : Instr) : accept false i = .error .field := rfl

/-- The ten-bit immediate of M and B is the top of the word (R42). -/
theorem unpackBase_imm (w : W32) : (unpackBase w).m ++ (unpackBase w).b = w.extractLsb' 22 10 :=
  BitVec.extractLsb'_append_extractLsb'_eq_extractLsb' rfl

end Sys2Proof
end

section
/-! PROOFS. Scalar instructions (R114 to R116): the value of each by the spec's rule, and the encodings that are no instruction. -/
namespace Sys2Proof.Machine
open Sys2Proof Sys2Proof.Statements

/-! ### The model's numbers as words -/

theorem ofNat_wrap (w : Nat) (x : Int) : BitVec.ofNat w (wrap w x) = BitVec.ofInt w x := by
  apply BitVec.eq_of_toNat_eq
  rw [BitVec.toNat_ofNat, BitVec.toNat_ofInt, wrap]
  have hpos : (0 : Int) < (2 ^ w : Nat) := by exact_mod_cast Nat.two_pow_pos w
  have hlt := Int.emod_lt_of_pos x hpos
  exact Nat.mod_eq_of_lt (by omega)

theorem signedOf_eq_toInt (w v : Nat) : signedOf w v = (BitVec.ofNat w v).toInt := by
  rw [signedOf, BitVec.toInt_eq_msb_cond, BitVec.msb_eq_decide, BitVec.toNat_ofNat]
  simp only [decide_eq_true_eq]

theorem signedOf_toNat {w : Nat} (x : BitVec w) : signedOf w x.toNat = x.toInt := by
  rw [signedOf_eq_toInt, BitVec.ofNat_toNat, BitVec.setWidth_eq]

/-- The reading that .u selects, of a register's word. -/
theorem signOr_toNat {w : Nat} (u : Bool) (x : BitVec w) : signOr u w x.toNat = if u then (x.toNat : Int) else x.toInt := by
  rw [signOr, signedOf_toNat]

/-! ### Values of R114 -/

theorem smulhVal_eq (u : Bool) (a b : W64) : smulhVal u a b = mulHigh64 u a b := by
  rw [smulhVal, mulHigh, ofNat_wrap, signOr_toNat, signOr_toNat]
  cases u with
  | true => exact BitVec.ofInt_natCast 64 (a.toNat * b.toNat / 2 ^ 64)
  | false =>
    simp only [mulHigh64, Bool.false_eq_true, if_false, Int.fdiv_eq_ediv_of_nonneg _ (show (0 : Int) ≤ 2 ^ 64 by decide)]
    rfl

theorem signOr_lt_iff (u : Bool) (a b : W64) : signOr u 64 a.toNat < signOr u 64 b.toNat ↔ less64 u a b = true := by
  rw [signOr_toNat, signOr_toNat]
  cases u with
  | true => simp [less64, BitVec.ult]
  | false => simp [less64, BitVec.slt]

theorem sminVal_eq (u : Bool) (a b : W64) : sminVal u a b = if less64 u b a then b else a := by
  simp only [sminVal, minBy, signOr_lt_iff]
  split <;> exact BitVec.ofNat_toNat 64 _

theorem smaxVal_eq (u : Bool) (a b : W64) : smaxVal u a b = if less64 u a b then b else a := by
  simp only [smaxVal, maxBy, signOr_lt_iff]
  split <;> exact BitVec.ofNat_toNat 64 _

theorem cmpHolds_eq_rel64 (cc : Cmp) (a b : W64) : cmpHolds cc 64 a.toNat b.toNat = rel64 cc a b := by
  have heq : (a.toNat == b.toNat) = (a == b) := Bool.eq_iff_iff.mpr (by simp only [beq_iff_eq, BitVec.toNat_inj])
  cases cc <;>
    simp only [cmpHolds, rel64, bne, heq, signedOf_toNat, BitVec.slt_eq_decide, BitVec.sle_eq_decide, BitVec.ult_eq_decide, BitVec.ule_eq_decide]

theorem scmpVal_eq (cc : Cmp) (a b : W64) : scmpVal cc a b = if rel64 cc a b then 1 else 0 := by
  rw [scmpVal, cmpHolds_eq_rel64]

/-- Counting by a running total. -/
theorem foldl_count (p : Nat → Bool) (l : List Nat) (c : Nat) :
    l.foldl (fun n i => if p i then n + 1 else n) c = c + l.countP p := by
  induction l generalizing c with
  | nil => rfl
  | cons i l ih => rw [List.foldl_cons, ih, List.countP_cons]; split <;> omega

theorem popCount_eq_ones64 (a : W64) : BitVec.ofNat 64 (popCount 64 a.toNat) = ones64 a := by
  rw [popCount, foldl_count, Nat.zero_add]; rfl

/-- Seen from bit 63 down, the highest 1 bit of a number comes first. -/
theorem findIdx_highest_bit {v : Nat} (h0 : v ≠ 0) (h : v < 2 ^ 64) :
    (List.range 64).findIdx (fun i => v.testBit (63 - i)) = 63 - v.log2 := by
  have hlog : v.log2 < 64 := (Nat.log2_lt h0).mpr h
  refine (List.findIdx_eq (by rw [List.length_range]; omega)).mpr ⟨?_, fun j hj => ?_⟩
  · rw [List.getElem_range, show 63 - (63 - v.log2) = v.log2 by omega]
    exact Nat.testBit_log2 h0
  · rw [List.getElem_range]
    exact Nat.testBit_lt_two_pow (lt_of_lt_of_le Nat.lt_log2_self (Nat.pow_le_pow_right (by decide) (by omega)))

theorem leadingZeros_eq_zeros64 (a : W64) : BitVec.ofNat 64 (leadingZeros 64 a.toNat) = zeros64 a := by
  by_cases h0 : a.toNat = 0
  · obtain rfl : a = 0 := BitVec.eq_of_toNat_eq h0
    decide
  · rw [leadingZeros, Nat.mod_eq_of_lt a.isLt, if_neg h0, ← findIdx_highest_bit h0 a.isLt]; rfl

/-! ### Shifts (R115) -/

theorem shiftLeft_eq_shl64 (a n : W64) : BitVec.ofNat 64 (shiftLeft 64 a.toNat n.toNat) = shl64 a n := by
  rw [shiftLeft, shl64]
  split
  · rfl
  · exact BitVec.eq_of_toNat_eq (by simp)

theorem shiftRight_eq_shr64 (a n : W64) : BitVec.ofNat 64 (shiftRight 64 a.toNat n.toNat) = shr64 a n := by
  rw [shiftRight, shr64]
  split <;> rfl

theorem shiftArith_eq_sra64 (a n : W64) : BitVec.ofNat 64 (shiftArith 64 a.toNat n.toNat) = sra64 a n := by
  rw [shiftArith, sra64, signedOf_toNat]
  split
  · have : a.toNat.testBit 63 = a.msb := rfl
    rw [this]
    cases a.msb <;> rfl
  · rw [ofNat_wrap, Int.fdiv_eq_ediv_of_nonneg _ (by positivity)]; norm_cast

/-- Widening a shift immediate keeps its number. -/
theorem toNat_zeroExtend_imm (i : BitVec 6) : (i.zeroExtend 64).toNat = i.toNat := BitVec.toNat_setWidth_of_le (by decide)

/-! ### The instructions -/

/-- Each instruction of R114 and R115 writes its value and goes on. -/
theorem exec_scalarArith {i : Instr} {d : SReg} {n : Nat} {f : State → W64} (h : ScalarArith i d n f) (s : State) :
    exec i s = scalarOp s n d (f s) := by
  cases h with
  | sadd | saddLit | saddImm | ssub | ssubLit | smul | smulLit | sand | sandLit | sandImm | sor | sorLit | sorImm
  | sxor | sxorLit | sxorImm | ssel | smov | sliW2 | sliLit | sliImm => rfl
  | smulh | smulhLit => exact congrArg (scalarOp s _ d) (smulhVal_eq ..)
  | smin | sminLit => exact congrArg (scalarOp s _ d) (sminVal_eq ..)
  | smax | smaxLit => exact congrArg (scalarOp s _ d) (smaxVal_eq ..)
  | scmp | scmpLit => exact congrArg (scalarOp s _ d) (scmpVal_eq ..)
  | spopc => exact congrArg (scalarOp s _ d) (popCount_eq_ones64 _)
  | sclz => exact congrArg (scalarOp s _ d) (leadingZeros_eq_zeros64 _)
  | sshl => exact congrArg (scalarOp s _ d) (shiftLeft_eq_shl64 ..)
  | sshr => exact congrArg (scalarOp s _ d) (shiftRight_eq_shr64 ..)
  | ssra => exact congrArg (scalarOp s _ d) (shiftArith_eq_sra64 ..)
  | sshlImm => simp only [← shiftLeft_eq_shl64, toNat_zeroExtend_imm]; rfl
  | sshrImm => simp only [← shiftRight_eq_shr64, toNat_zeroExtend_imm]; rfl
  | ssraImm => simp only [← shiftArith_eq_sra64, toNat_zeroExtend_imm]; rfl

/-! ### Words that are no instruction -/

/-- A shift amount above 63 has a bit above the six that it may set (R115). -/
theorem shiftImm_high_bits {w : W32} (h : 64 ≤ w.toNat / 2 ^ 22) :
    (((unpackBase w).m ++ (unpackBase w).b).extractLsb' 6 4 == 0) = false := by
  rw [beq_eq_false_iff_ne, unpackBase_imm, Ne, extractLsb'_eq_zero_iff, extractLsb'_toNat_div]
  have := w.isLt
  omega

theorem decodeScalar_shiftImm_above {b : BaseWord} (hop : b.op.toNat = 0x1C ∨ b.op.toNat = 0x1D ∨ b.op.toNat = 0x1E)
    (himm : ((b.m ++ b.b).extractLsb' 6 4 == 0) = false) : decodeScalar b = .error .field := by
  rcases hop with hop | hop | hop <;> simp only [decodeScalar, hop, himm, accept_false]

theorem decodeWords_shiftImm_above {w : W32} (rest : List W32) (hlow : w.toNat % 2 ^ 10 ∈ [8 * 0x1C, 8 * 0x1D, 8 * 0x1E])
    (h : 64 ≤ w.toNat / 2 ^ 22) : decodeWords (w :: rest) = .error .field := by
  simp only [List.mem_cons, List.not_mem_nil, or_false] at hlow
  rw [decodeWords_scalar (by omega) rest]
  exact decodeScalar_shiftImm_above (by rw [unpackBase_op_toNat]; omega) (shiftImm_high_bits h)

/-- Settles O12: each row by the lemma of its value; a write to a scalar register is seen there alone; an amount above 63 sets a bit that
the decoder requires to be 0. -/
theorem scalarArithmetic : Obligations.ScalarArithmetic := by
  refine ⟨fun i d n f s h => exec_scalarArith h s, fun s d v => ⟨s.rs_setRs_self d v, fun r hr => ?_, rfl⟩,
    fun w rest => decodeWords_shiftImm_above rest⟩
  rw [State.rs_setRs, if_neg hr]

/-! ### Bit fields (R116) -/

theorem toNat_fieldMask {w : Nat} (h : w ≤ 64) : (fieldMask w).toNat = 2 ^ w - 1 := by
  have := Nat.pow_le_pow_right (n := 2) (by decide) h
  have := Nat.two_pow_pos w
  rw [fieldMask, BitVec.toNat_ofNat, Nat.mod_eq_of_lt (by omega)]

/-- The field before its sign. -/
theorem toNat_and_fieldMask (a : W64) {w : Nat} (h : w ≤ 64) : (a &&& fieldMask w).toNat = a.toNat % 2 ^ w := by
  rw [BitVec.toNat_and, toNat_fieldMask h, Nat.and_two_pow_sub_one_eq_mod]

/-- The top bit of a `w`-bit number, by comparison. -/
theorem testBit_top {w v : Nat} (h : v < 2 ^ w) : v.testBit (w - 1) = decide (2 ^ (w - 1) ≤ v) := by
  rw [← Nat.mod_eq_of_lt h, ← BitVec.toNat_ofNat, ← BitVec.msb_eq_decide, BitVec.msb_eq_getLsbD_last]; rfl

theorem extractField_eq_fieldOut (sg : Bool) (a : W64) {p w : Nat} (hw : w ≤ 64) :
    BitVec.ofNat 64 (extractField 64 sg a.toNat p w) = fieldOut sg a p w := by
  have hf : ((a >>> p) &&& fieldMask w).toNat = bits a.toNat p w := by
    rw [toNat_and_fieldMask _ hw, BitVec.toNat_ushiftRight, Nat.shiftRight_eq_div_pow, bits]
  have hlt : bits a.toNat p w < 2 ^ w := Nat.mod_lt _ (Nat.two_pow_pos w)
  have htop : ((a >>> p) &&& fieldMask w).getLsbD (w - 1) = decide (2 ^ (w - 1) ≤ bits a.toNat p w) := by
    rw [BitVec.getLsbD, hf, testBit_top hlt]
  have hplain : BitVec.ofNat 64 (bits a.toNat p w) = (a >>> p) &&& fieldMask w := by rw [← hf, BitVec.ofNat_toNat, BitVec.setWidth_eq]
  cases sg with
  | false => exact hplain
  | true =>
    simp only [extractField, fieldOut, htop, if_true, ofNat_wrap, signedOf, Nat.mod_eq_of_lt hlt, Bool.true_and, decide_eq_true_eq, hf]
    split
    · push_cast; rfl
    · rw [BitVec.ofInt_natCast, hplain]

/-- A field cut to its width and shifted to its place is the shifted word under the shifted mask. -/
theorem ofNat_field_shifted (a : W64) {p w : Nat} (hw : w ≤ 64) :
    BitVec.ofNat 64 (a.toNat % 2 ^ w * 2 ^ p) = (a &&& fieldMask w) <<< p := by
  apply BitVec.eq_of_toNat_eq
  rw [BitVec.toNat_shiftLeft, toNat_and_fieldMask a hw, Nat.shiftLeft_eq, BitVec.toNat_ofNat]

/-- Clearing a field that lies inside the word. -/
theorem ofNat_field_cleared (d : W64) {p w : Nat} (h : p + w ≤ 64) :
    BitVec.ofNat 64 (d.toNat &&& (2 ^ 64 - 1 - (2 ^ w - 1) * 2 ^ p)) = d &&& ~~~(fieldMask w <<< p) := by
  have hlt : (2 ^ w - 1) * 2 ^ p < 2 ^ 64 := calc
    (2 ^ w - 1) * 2 ^ p < 2 ^ w * 2 ^ p := Nat.mul_lt_mul_of_pos_right (Nat.sub_lt (Nat.two_pow_pos w) Nat.one_pos) (Nat.two_pow_pos p)
    _ = 2 ^ (w + p) := (Nat.pow_add ..).symm
    _ ≤ 2 ^ 64 := Nat.pow_le_pow_right (by decide) (by omega)
  have hmask : (~~~(fieldMask w <<< p)).toNat = 2 ^ 64 - 1 - (2 ^ w - 1) * 2 ^ p := by
    rw [BitVec.toNat_not, BitVec.toNat_shiftLeft, toNat_fieldMask (by omega), Nat.shiftLeft_eq, Nat.mod_eq_of_lt hlt]
  rw [← hmask, ← BitVec.toNat_and, BitVec.ofNat_toNat, BitVec.setWidth_eq]

theorem insertField_eq_fieldIn (d a : W64) {p w : Nat} (h : p + w ≤ 64) :
    BitVec.ofNat 64 (insertField 64 d.toNat a.toNat p w) = fieldIn d a p w := by
  have hdisj : (d &&& ~~~(fieldMask w <<< p)) &&& ((a &&& fieldMask w) <<< p) = 0#64 := by
    rw [BitVec.shiftLeft_and_distrib]
    generalize fieldMask w <<< p = m
    ext i hi
    simp only [BitVec.getElem_and, BitVec.getElem_not, BitVec.getElem_zero]
    cases m[i] <;> simp
  rw [insertField, BitVec.ofNat_add, ofNat_field_cleared d h, ofNat_field_shifted a (by omega), BitVec.add_eq_or_of_and_eq_zero _ _ hdisj]
  rfl

theorem fieldOk_iff (p w : BitVec 8) :
    fieldOk 64 p w = true ↔ p.toNat ≤ 63 ∧ 1 ≤ w.toNat ∧ w.toNat ≤ 64 ∧ p.toNat + w.toNat ≤ 64 := by
  rw [fieldOk, decide_eq_true_iff]; omega

/-- The checks of R116 on a W2: nothing above [15:0], position and width in their ranges. -/
def FieldWord (w2 : W32) : Prop :=
  w2.toNat < 2 ^ 16 ∧ w2.toNat % 2 ^ 8 ≤ 63 ∧ 1 ≤ w2.toNat / 2 ^ 8 ∧ w2.toNat % 2 ^ 8 + w2.toNat / 2 ^ 8 ≤ 64

/-- What the decoder requires of W2 is the checks of R116. -/
theorem fieldWord_of_checks {w2 : W32} (hhigh : w2.extractLsb' 16 16 = 0) (hok : fieldOk 64 (w2.extractLsb' 0 8) (w2.extractLsb' 8 8) = true) :
    FieldWord w2 := by
  rw [extractLsb'_eq_zero_iff] at hhigh
  simp only [fieldOk_iff, extractLsb'_toNat_div] at hok
  have := w2.isLt
  unfold FieldWord
  omega

/-- A bit-field instruction whose W2 fails a check is refused, whatever its other fields. -/
theorem accept_not_fieldWord {zero : Bool} {w2 : W32} {i : Instr} (hwf : i.wf = fieldOk 64 (w2.extractLsb' 0 8) (w2.extractLsb' 8 8))
    (h : ¬FieldWord w2) : accept (w2.extractLsb' 16 16 == 0 && zero) i = .error .field := by
  refine if_neg fun hand => h ?_
  simp only [Bool.and_eq_true, beq_iff_eq, hwf] at hand
  obtain ⟨⟨hhigh, -⟩, hok⟩ := hand
  exact fieldWord_of_checks hhigh hok

theorem decodeScalarExt_not_fieldWord {b : BaseWord} {w2 : W32} (w : ExtWord) (hop : b.op.toNat = 0x13 ∨ b.op.toNat = 0x14)
    (h : ¬FieldWord w2) : decodeScalarExt b w w2 = .error .field := by
  rcases hop with hop | hop <;> simp only [decodeScalarExt, hop, Bool.and_assoc] <;> exact accept_not_fieldWord rfl h

theorem decodeWords_not_fieldWord (d a : SReg) {base : Nat} {w2 : W32} (rest : List W32)
    (hbase : base ∈ [0x00000099, 0x10000099, 0x000000A1]) (h : ¬FieldWord w2) :
    decodeWords (BitVec.ofNat 32 (base + 2 ^ 10 * d.toNat + 2 ^ 16 * a.toNat) :: 0 :: w2 :: rest) = .error .field := by
  have hw := BitVec.toNat_ofNat (base + 2 ^ 10 * d.toNat + 2 ^ 16 * a.toNat) 32
  simp only [List.mem_cons, List.not_mem_nil, or_false] at hbase
  rw [decodeWords_scalarExt (by omega)]
  exact decodeScalarExt_not_fieldWord _ (by rw [unpackBase_op_toNat]; omega) h

/-- Settles O14: the model's arithmetic on numbers is the words' own, the inserted field being disjoint from what is kept; the checks on W2
are the decoder's. -/
theorem scalarBitFields : Obligations.ScalarBitFields := by
  refine ⟨fun sg d a p w s h => ?_, fun d a p w s h => ?_, fun sg d a p w => ⟨rfl, fieldOk_iff p w⟩,
    fun d a base w2 rest => decodeWords_not_fieldWord d a rest⟩
  · obtain ⟨-, -, hw, -⟩ := (fieldOk_iff p w).mp h
    exact congrArg (scalarOp s 3 d) (extractField_eq_fieldOut sg _ hw)
  · obtain ⟨-, -, -, hpw⟩ := (fieldOk_iff p w).mp h
    exact congrArg (scalarOp s 3 d) (insertField_eq_fieldIn _ _ hpw)

end Sys2Proof.Machine
end

section
/-! PROOFS. Vector operands (R138, R140, R143): a lane of an operand lies below two to the type's width, so its number is the bit
string's; the lanes that a guard selects; VADDC. -/
namespace Sys2Proof.Machine
open Sys2Proof Sys2Proof.Statements

/-! ### Lanes of operands as numbers -/

/-- `n` registers of a lane, a word each, make a number of 32·n bits. -/
theorem Group.vgetWide_lt (g : Group) (pos n l : Nat) : (g.vgetWide pos n l).toNat < 2 ^ (32 * n) := by
  induction n with
  | zero => exact Nat.one_pos
  | succ n ih =>
    have hword (w : W32) : (w.zeroExtend 128 <<< (32 * n)).toNat < 2 ^ (32 * (n + 1)) :=
      calc (w.zeroExtend 128 <<< (32 * n)).toNat
        _ ≤ w.toNat * 2 ^ (32 * n) := by
          rw [BitVec.toNat_shiftLeft, Nat.shiftLeft_eq, BitVec.toNat_setWidth_of_le (by decide)]
          exact Nat.mod_le _ _
        _ < 2 ^ 32 * 2 ^ (32 * n) := Nat.mul_lt_mul_of_pos_right w.isLt (Nat.two_pow_pos _)
        _ = 2 ^ (32 * (n + 1)) := by rw [← Nat.pow_add]; congr 1; omega
    rw [Group.vgetWide, List.range_succ, List.foldl_append, List.foldl_cons, List.foldl_nil, BitVec.toNat_or]
    exact Nat.or_lt_two_pow (lt_of_lt_of_le ih (Nat.pow_le_pow_right (by decide) (by omega))) (hword _)

/-- The registers of a vector integer type hold its width (R139, R142). -/
theorem tyRegs_mul_of_isInt {t : Ty} (h : t.isInt = true) : 32 * tyRegs t = t.width := by
  cases t with
  | i32 | z32 | b32 | i64 | z64 | b64 => rfl
  | _ => cases h

/-- A lane of an operand is below two to the type's width, from whichever source (R138). -/
theorem State.src_lt (s : State) (x : Src) {t : Ty} (h : t.isInt = true) (l : Nat) : s.src x t l < 2 ^ t.width := by
  cases x with
  | v r => rw [← tyRegs_mul_of_isInt h]; exact s.grp.vgetWide_lt _ _ l
  | s r => exact Nat.mod_lt _ (Nat.two_pow_pos _)
  | lit v => exact Nat.mod_lt _ (Nat.two_pow_pos _)

/-- So the lane's number is the one its bit string stands for. -/
theorem laneBits_toNat (s : State) (x : Src) {t : Ty} (h : t.isInt = true) (l : Nat) : (laneBits s t x l).toNat = s.src x t l := by
  rw [laneBits, BitVec.toNat_ofNat, Nat.mod_eq_of_lt (s.src_lt x h l)]

/-- The guarded path's lanes are those on which the instruction acts (R18). -/
theorem active_getLsbD (s : State) (g : Option Guard) {l : Nat} (hl : l < 32) : (s.active g).getLsbD l = actsOn s g l := by
  cases g with
  | none => exact (Bool.and_true _).symm
  | some g => rw [active_some, BitVec.getLsbD_and, actsOn]; cases g.neg <;> simp [hl]

/-! ### VADDC (R143) -/

/-- The exact sum of a lane: both operands and the carry in. -/
def carrySum (s : State) (t : Ty) (x y : Src) (c : PReg) (l : Nat) : Nat :=
  s.src x t l + s.src y t l + if (s.rp c).getLsbD l then 1 else 0

theorem exec_vaddc (g : Option Guard) (t : Ty) (x : Bool) (d a b : VReg) (c : PReg) (s : State) :
    exec (.vaddc g t x d a b c) s = execVaddc g t x d a b c s := rfl

/-- VADDC completes where its checks pass; both writes take the lanes of the guard as it was read before them. -/
theorem execVaddc_next (g : Option Guard) {t : Ty} {x : Bool} {d a b : VReg} (c : PReg) {s : State}
    (h : s.vcheck ((a, tyRegs t) :: (srcOf x b).reads (tyRegs t)) [(d, tyRegs t)] = .ok ()) :
    let sum := carrySum s t (.v a) (srcOf x b) c
    execVaddc g t x d a b c s = .next (((s.vput d (tyRegs t) (s.active g) fun l => sum l % 2 ^ t.width).setRp c
      ((s.rp c &&& ~~~s.active g) ||| (maskOf (fun l => decide (2 ^ t.width ≤ sum l)) &&& s.active g))).advance 3) := by
  rw [execVaddc, h]; rfl

/-- Settles O18: the operands' numbers are below 2^w, so the sum is theirs; the predicate is mixed by the mask of the guard read first. -/
theorem carryChain : Obligations.CarryChain := by
  intro g t x d a b c s hwf hcheck sum
  have hint : t.isInt = true := by
    simp only [Instr.wf, Bool.and_eq_true] at hwf
    obtain ⟨⟨⟨hint, -⟩, -⟩, -⟩ := hwf
    exact hint
  have hsum : sum = carrySum s t (.v a) (srcOf x b) c :=
    funext fun l => by simp only [sum, carrySum, laneBits_toNat s _ hint l]
  rw [hsum]
  refine ⟨_, (exec_vaddc ..).trans (execVaddc_next g c hcheck), fun l hl => ?_⟩
  rw [predMix_getLsbD _ _ _ l hl, active_getLsbD s g hl]

end Sys2Proof.Machine
end

section
/-! PROOFS. Random numbers (R166, R167): the generator function, the draws of a lane, RNG. -/
namespace Sys2Proof.Machine
open Sys2Proof Sys2Proof.Statements

/-- The low 32 bits of the last mix, taken by extraction or by truncation. -/
theorem hashH_eq_generator (key x : W64) : hashH key x = generator key x := (BitVec.setWidth_eq_extractLsb' (by decide)).symm

theorem State.draw_eq_generator (s : State) (n l : Nat) :
    s.draw n l = (generator s.grp.rngk (32 * (s.grp.rngc + BitVec.ofNat 64 n) + BitVec.ofNat 64 l)).toNat :=
  congrArg BitVec.toNat (hashH_eq_generator _ _)

/-- RNG takes draw 0, the one of the counter as it stands. -/
theorem State.draw_zero (s : State) (l : Nat) : s.draw 0 l = (generator s.grp.rngk (32 * s.grp.rngc + BitVec.ofNat 64 l)).toNat := by
  rw [State.draw_eq_generator, BitVec.add_zero]

/-- The unit form rounds ⌊h / 2^8⌋ × 2^-24 (R167). -/
theorem unitOf_eq_roundFp (h : Nat) : unitOf h = (roundFp (fmtOf .f32) .rne 0 (.fin false (h / 2 ^ 8) (-24))).1 := by
  rw [unitOf, roundFp]

/-- RNG's value in a lane, raw or as a unit fraction. -/
theorem drawOf_eq (unit : Bool) (s : State) (l : Nat) : drawOf unit s l = if unit then unitOf (s.draw 0 l) else s.draw 0 l := by
  rw [drawOf, State.draw_zero, unitOf_eq_roundFp]

theorem exec_rng (unit : Bool) (d : VReg) (s : State) : exec (.rng unit d) s = rngOp s 1 none unit d := rfl
theorem exec_rngW1 (g : Option Guard) (unit : Bool) (d : VReg) (s : State) : exec (.rngW1 g unit d) s = rngOp s 3 g unit d := rfl

/-- RNG completes where its checks pass, and the counter goes on by one whichever lanes are active. -/
theorem rngOp_next {s : State} (words : Nat) (g : Option Guard) (unit : Bool) {d : VReg} (h : s.vcheck [] [(d, 1)] = .ok ()) :
    rngOp s words g unit d = .next (((s.vput d 1 (s.active g) (drawOf unit s)).drawn 1).advance words) := by
  simp only [rngOp, h, ok_bind, finish_ok, funext (drawOf_eq unit s)]

/-- Settles O24: both forms of RNG are one operation, which takes draw 0 of each lane and counts one draw. -/
theorem generatorDraws : Obligations.GeneratorDraws := by
  refine ⟨hashH_eq_generator, State.draw_eq_generator, fun i g unit d n s hi hcheck => ?_⟩
  rcases hi with ⟨rfl, rfl, rfl⟩ | ⟨rfl, rfl⟩
  · exact (exec_rng ..).trans (rngOp_next 1 none unit hcheck)
  · exact (exec_rngW1 ..).trans (rngOp_next 3 g unit hcheck)

end Sys2Proof.Machine
end

section
/-! PROOFS. Decoding and encoding (R8 to R20, R42 to R54): what the decoder reads from an instruction's encoding, and back. -/
namespace Sys2Proof

/-! ### Fields side by side -/

/-- The low part of two fields side by side, and the high part. -/
theorem extractLsb'_append_low {v w : Nat} (x : BitVec v) (y : BitVec w) : (x ++ y).extractLsb' 0 w = y := by
  apply BitVec.eq_of_getLsbD_eq
  intro i hi
  simp [BitVec.getLsbD_append, hi]

theorem extractLsb'_append_high {v w : Nat} (x : BitVec v) (y : BitVec w) : (x ++ y).extractLsb' w v = x := by
  apply BitVec.eq_of_getLsbD_eq
  intro i hi
  simp [BitVec.getLsbD_append, hi]

/-- Both parts of a field side by side. -/
theorem append_extractLsb' {v w : Nat} (x : BitVec (v + w)) : x.extractLsb' w v ++ x.extractLsb' 0 w = x := by
  rw [BitVec.extractLsb'_append_extractLsb'_eq_extractLsb' (by omega)]
  exact BitVec.extractLsb'_eq_self

theorem zero_append_of_high {v w : Nat} {x : BitVec (v + w)} (h : x.extractLsb' w v = 0) : 0#v ++ x.extractLsb' 0 w = x := by
  rw [← BitVec.ofNat_eq_ofNat, ← h]; exact append_extractLsb' x

/-- Predicates, futures and other short operands in the low bits of a field (R10): the rest of the field is 0. -/
@[simp] theorem pred_field (x : BitVec 3) : (0#3 ++ x).extractLsb' 3 3 = 0 ∧ (0#3 ++ x).extractLsb' 0 3 = x :=
  ⟨extractLsb'_append_high .., extractLsb'_append_low ..⟩
@[simp] theorem future_field (x : BitVec 4) : (0#2 ++ x).extractLsb' 4 2 = 0 ∧ (0#2 ++ x).extractLsb' 0 4 = x :=
  ⟨extractLsb'_append_high .., extractLsb'_append_low ..⟩
@[simp] theorem type_field (x : BitVec 5) : (0#1 ++ x)[5] = false ∧ (0#1 ++ x).extractLsb' 0 5 = x :=
  ⟨by revert x; decide, extractLsb'_append_low ..⟩
@[simp] theorem quadrants_field (x y : BitVec 2) : (x ++ y).extractLsb' 2 2 = x ∧ (x ++ y).extractLsb' 0 2 = y :=
  ⟨extractLsb'_append_high .., extractLsb'_append_low ..⟩
@[simp] theorem two_bits_field (x : BitVec 2) : (0#2 ++ x)[2] = false ∧ (0#2 ++ x)[3] = false := by
  revert x; decide
@[simp] theorem three_bits_field (x : BitVec 3) : (0#1 ++ x).extractLsb' 3 1 = 0 ∧ (0#1 ++ x).extractLsb' 0 3 = x ∧ (0#1 ++ x)[3] = false :=
  ⟨extractLsb'_append_high .., extractLsb'_append_low .., by revert x; decide⟩

/-- Immediates over M and B (R42). -/
@[simp] theorem imm5_field (x : BitVec 5) : (0#5 ++ x).extractLsb' 5 5 = 0 ∧ (0#5 ++ x).extractLsb' 0 5 = x :=
  ⟨extractLsb'_append_high .., extractLsb'_append_low ..⟩
@[simp] theorem imm6_field (x : BitVec 6) : (0#4 ++ x).extractLsb' 6 4 = 0 ∧ (0#4 ++ x).extractLsb' 0 6 = x :=
  ⟨extractLsb'_append_high .., extractLsb'_append_low ..⟩
@[simp] theorem imm9_field (x : BitVec 9) : (0#1 ++ x).extractLsb' 9 1 = 0 ∧ (0#1 ++ x).extractLsb' 0 9 = x :=
  ⟨extractLsb'_append_high .., extractLsb'_append_low ..⟩
@[simp] theorem imm10_halves (x : BitVec 10) : x.extractLsb' 6 4 ++ x.extractLsb' 0 6 = x := append_extractLsb' (v := 4) (w := 6) x

/-- Single bits of M (R9). -/
@[simp] theorem low_bit_field (x : Bool) :
    (0#3 ++ BitVec.ofBool x)[0] = x ∧ (0#3 ++ BitVec.ofBool x)[1] = false ∧ (0#3 ++ BitVec.ofBool x)[2] = false ∧
      (0#3 ++ BitVec.ofBool x)[3] = false := by revert x; decide
@[simp] theorem high_bit_field (x : Bool) :
    (BitVec.ofBool x ++ 0#3)[0] = false ∧ (BitVec.ofBool x ++ 0#3)[1] = false ∧ (BitVec.ofBool x ++ 0#3)[2] = false ∧
      (BitVec.ofBool x ++ 0#3)[3] = x := by revert x; decide
@[simp] theorem outer_bits_field (x y : Bool) :
    (BitVec.ofBool x ++ 0#2 ++ BitVec.ofBool y)[0] = y ∧ (BitVec.ofBool x ++ 0#2 ++ BitVec.ofBool y)[1] = false ∧
      (BitVec.ofBool x ++ 0#2 ++ BitVec.ofBool y)[2] = false ∧ (BitVec.ofBool x ++ 0#2 ++ BitVec.ofBool y)[3] = x := by revert x y; decide
@[simp] theorem low_bits_field (x y : Bool) :
    (0#2 ++ BitVec.ofBool x ++ BitVec.ofBool y)[0] = y ∧ (0#2 ++ BitVec.ofBool x ++ BitVec.ofBool y)[1] = x ∧
      (0#2 ++ BitVec.ofBool x ++ BitVec.ofBool y)[2] = false ∧ (0#2 ++ BitVec.ofBool x ++ BitVec.ofBool y)[3] = false := by revert x y; decide
@[simp] theorem sign_bits_field (x y z : Bool) :
    (BitVec.ofBool x ++ 0#1 ++ BitVec.ofBool y ++ BitVec.ofBool z)[0] = z ∧ (BitVec.ofBool x ++ 0#1 ++ BitVec.ofBool y ++ BitVec.ofBool z)[1] = y ∧
      (BitVec.ofBool x ++ 0#1 ++ BitVec.ofBool y ++ BitVec.ofBool z)[2] = false ∧
      (BitVec.ofBool x ++ 0#1 ++ BitVec.ofBool y ++ BitVec.ofBool z)[3] = x := by revert x y z; decide

/-- Operands in W2 (R19). -/
@[simp] theorem position_width_word (x y : BitVec 8) :
    (0#16 ++ x ++ y).extractLsb' 16 16 = 0 ∧ (0#16 ++ x ++ y).extractLsb' 8 8 = x ∧ (0#16 ++ x ++ y).extractLsb' 0 8 = y := by
  refine ⟨?_, ?_, ?_⟩ <;> apply BitVec.eq_of_getLsbD_eq <;> intro i hi <;> rw [BitVec.getLsbD_extractLsb'] <;>
    simp only [BitVec.getLsbD_append, hi, decide_true, Bool.true_and]
  · simp [show ¬16 + i < 8 by omega, show ¬16 + i - 8 < 8 by omega]
  · simp [show ¬8 + i < 8 by omega, hi]
  · simp [hi]
@[simp] theorem target_join_word (x y : BitVec 16) : (x ++ y).extractLsb' 16 16 = x ∧ (x ++ y).extractLsb' 0 16 = y :=
  ⟨extractLsb'_append_high .., extractLsb'_append_low ..⟩
@[simp] theorem entry_word (x : BitVec 5) : (0#27 ++ x).extractLsb' 5 27 = 0 ∧ (0#27 ++ x).extractLsb' 0 5 = x :=
  ⟨extractLsb'_append_high .., extractLsb'_append_low ..⟩
@[simp] theorem flag_word (x : Bool) : (0#31 ++ BitVec.ofBool x).extractLsb' 1 31 = 0 ∧ (0#31 ++ BitVec.ofBool x)[0] = x :=
  ⟨extractLsb'_append_high .., by cases x <;> rfl⟩

/-! ### Guards and address modes -/

@[simp] theorem guardOf_with (g : Option Guard) (c rnd sat ty sc ord cp xop) :
    guardOf ⟨c, (extGuard g).pe, (extGuard g).pn, (extGuard g).p, rnd, sat, ty, sc, ord, cp, xop⟩ = some g := guardOf_extGuard g

/-- A guard sets no other field of W1. -/
@[simp] theorem extGuard_rest (g : Option Guard) :
    (extGuard g).c = 0 ∧ (extGuard g).rnd = 0 ∧ (extGuard g).sat = false ∧ (extGuard g).ty = 0 ∧ (extGuard g).sc = 0 ∧
      (extGuard g).ord = 0 ∧ (extGuard g).cp = 0 ∧ (extGuard g).xop = 0 := by cases g <;> simp [extGuard]

theorem idxM_some (s : Bool) (k : BitVec 2) :
    (BitVec.ofBool s ++ 1#1 ++ k).getLsbD 2 = true ∧ (BitVec.ofBool s ++ 1#1 ++ k).getLsbD 3 = s ∧
      (BitVec.ofBool s ++ 1#1 ++ k).extractLsb' 0 2 = k := by revert s k; decide

@[simp] theorem idxOf_idxB_idxM (x : Option Idx) : idxOf (idxB x) (idxM x) = some x := by
  rcases x with _ | ⟨s, k, v⟩
  · rfl
  · obtain ⟨h2, h3, hk⟩ := idxM_some s k
    simp only [idxOf, idxB, idxM, h2, h3, hk, if_true]

/-! ### The tables by LEN and U -/

/-- The length field of each form (R11). -/
def Form.len : Form → BitVec 2
  | .short => 0
  | .ext _ _ => 1
  | .lit _ => 2
  | .extLit _ _ _ => 3

/-- The words of a form after its base word are read back as the form. -/
theorem readWords_pack {b : BaseWord} {f : Form} (rest : List W32) (h : b.len = f.len) :
    readWords (packBase b :: (formWords f ++ rest)) = readForm b f := by
  cases f <;> simp [readWords, formWords, h, Form.len]

@[simp] theorem need_bind {α β : Type} (x : α) (f : α → Except DecodeError β) : (need (some x) >>= f) = f x := rfl

theorem readForm_lit {b : BaseWord} (hu : b.u = false) (l : W64) : readForm b (.lit l) = (decodeScalarLit b l).map .plain := by
  cases b; subst hu; rfl

/-- Opcodes 0x40 to 0x4F with U = 1 are the special functions' and the random numbers' (R42). -/
def BaseWord.isSfu (b : BaseWord) : Bool := b.op.toNat / 2 ^ 4 == 4

theorem BaseWord.isSfu_eq (b : BaseWord) : (b.op.extractLsb' 4 3 == 4) = b.isSfu := by
  have hlt := b.op.isLt
  rw [BaseWord.isSfu, Bool.eq_iff_iff, beq_iff_eq, beq_iff_eq, ← BitVec.toNat_inj, extractLsb'_toNat_div]
  change _ = 4 ↔ _
  omega

theorem readForm_of_vector {b : BaseWord} (hu : b.u = true) (hs : b.isSfu = false) (f : Form) :
    readForm b f = (match f with
      | .short => decodeVector b
      | .ext w w2 => decodeVectorExt b w w2
      | .lit l => decodeVectorLit b l
      | .extLit w w2 l => decodeVectorExtLit b w w2 l).map .plain := by
  unfold readForm
  rw [BaseWord.isSfu_eq, hs, hu]
  cases f <;> rfl

theorem readForm_of_sfu {b : BaseWord} (hu : b.u = true) (hs : b.isSfu = true) (f : Form) :
    readForm b f = match f with
      | .short => (decodeSfu b).map .sfu
      | .ext w w2 => (decodeSfuExt b w w2).map .sfu
      | _ => .error .opcode := by
  unfold readForm
  rw [BaseWord.isSfu_eq, hs, hu]
  cases f <;> rfl

/-- What a table reads is what is read. -/
theorem readForm_plain {b : BaseWord} {f : Form} {i : Instr} {r : Except DecodeError Instr} (hf : readForm b f = r.map .plain) (h : r = .ok i) :
    (readForm b f).map Decoded.instr = .ok i := by rw [hf, h]; rfl

/-! ### From an instruction to its words and back (O1) -/

/-- Whether an encoding has a U and a length field. -/
def fits (u : Bool) (n : BitVec 2) : Option (BaseWord × Form) → Bool
  | some (b, f) => f.len == n && b.u == u
  | none => false

/-- An instruction whose encoding has another U or another length is none of a table's. -/
theorem not_fits {o : Option (BaseWord × Form)} {b : BaseWord} {f : Form} {u : Bool} {p : Prop} (h : o = some (b, f)) (hu : b.u = u)
    (hn : fits u f.len o = false) : p := by
  subst h hu
  simp [fits] at hn

/-- U = 0, the base word alone. -/
theorem readForm_scalarShort_encodeFields {i : Instr} {b : BaseWord} (hw : i.wf = true)
    (h : encodeFields i = some (b, .short)) (hu : b.u = false) : (readForm b .short).map Decoded.instr = .ok i := by
  cases i with
  | sadd | saddImm | ssub | smul | smulh | sand | sandImm | sor | sorImm | sxor | sxorImm | sshl | sshlImm | sshr | sshrImm | ssra | ssraImm
  | smin | smax | smov | sliImm | spopc | sclz | ret | enter | jts | jtv | exit | nop | yield | pand | por | pxor | pnot | pmov | ppack
  | punpk | trap | svc | rett | tget | exget | exset | rdtime | spawn | fwait | ftest | fcancel | fexp | fimp | waitc | sleep | wake | swap
  | talloc | tfree | tzero | barv | bwait | bsync | setleave | rfence | rsopen | rsclose | dfree | xrun | xcal =>
    cases h
    refine readForm_plain (readForm_short rfl) ?_
    show accept _ _ = _
    simp [accept, hw]
  | scmp | sget | sset | waita =>
    cases h
    refine readForm_plain (readForm_short rfl) ?_
    show (need _ >>= _) = _
    simp [accept, hw]
  | calltScalar | calltLane | pany | pall | townThread | townEngine | gpwait | gpwaitT | gpwaitF | gpwaitFT =>
    cases h
    refine readForm_plain (readForm_short rfl) ?_
    simp [decodeScalar, accept, hw]
  | _ => exact not_fits h hu rfl

/-- U = 1, the base word alone. -/
theorem readForm_vectorShort_encodeFields {i : Instr} {b : BaseWord} (hw : i.wf = true)
    (h : encodeFields i = some (b, .short)) (hu : b.u = true) : (readForm b .short).map Decoded.instr = .ok i := by
  cases i with
  | vadd | vaddImm | vsub | vmul | vmulh | vand | vandImm | vor | vxor | vshl | vshlImm | vshr | vshrImm | vsra | vsraImm | vmin | vmax
  | vpopc | vclz | vmov | fadd | fsub | fmul | ffma | fmin | fmax | fclass | pkadd | pkmul | pkfma | vshfl | vrot | vbcast | vballot | vradd
  | vrmin | vrmax | vdot4 | vdot2h =>
    cases h
    refine readForm_plain (readForm_of_vector rfl (by simp [BaseWord.isSfu]) .short) ?_
    show accept _ _ = _
    simp [accept, hw]
  | ld | st | ldg | stg | ldp | stp | pref =>
    cases h
    refine readForm_plain (readForm_of_vector rfl (by simp [BaseWord.isSfu]) .short) ?_
    show (need _ >>= _) = _
    simp [accept, hw]
  | xrcp | xrsq | xsqrt | xexp2 | xlog2 | xsin | xcos | xtanh | rngseed | rng | rngskip =>
    cases h
    refine (congrArg _ (readForm_of_sfu rfl (by simp [BaseWord.isSfu]) .short)).trans ?_
    show ((acceptSfu _ _).map _).map _ = _
    simp [acceptSfu, Except.map, Decoded.instr]
  | _ => exact not_fits h hu rfl

/-- U = 0, with W1 and W2. -/
theorem readForm_scalarExt_encodeFields {i : Instr} {b : BaseWord} {w : ExtWord} {w2 : W32} (hw : i.wf = true)
    (h : encodeFields i = some (b, .ext w w2)) (hu : b.u = false) : (readForm b (.ext w w2)).map Decoded.instr = .ok i := by
  cases i with
  | ssel | sliW2 | sbfe | sbfi | call | tld | dpost =>
    cases h
    refine readForm_plain (readForm_ext rfl _ _) ?_
    show accept _ _ = _
    simp [accept, hw]
  | brd =>
    cases h
    refine readForm_plain (readForm_ext rfl _ _) ?_
    show accept _ _ = _
    simp [accept, hw, extGuard]
  | br | jtvW1 | pandW1 | porW1 | pxorW1 | pnotW1 | pmovW1 | ppackW1 | punpkW1 | waitaW1 | wakeW1 | ldstat | mmq | mmqs | tst | gather
  | tcopy | put | nmcall | ixred | walk | coll =>
    cases h
    refine readForm_plain (readForm_ext rfl _ _) ?_
    show (need _ >>= _) = _
    simp [accept, hw]
  | calltScalarW1 =>
    cases h
    refine readForm_plain (readForm_ext rfl _ _) ?_
    simp [decodeScalarExt, accept, hw]
  | calltLaneW1 =>
    cases h
    refine readForm_plain (readForm_ext rfl _ _) ?_
    show (need _ >>= _) = _
    simp [accept, hw]
  | _ => exact not_fits h hu rfl

/-- U = 1, with W1 and W2. -/
theorem readForm_vectorExt_encodeFields {i : Instr} {b : BaseWord} {w : ExtWord} {w2 : W32} (hw : i.wf = true)
    (h : encodeFields i = some (b, .ext w w2)) (hu : b.u = true) : (readForm b (.ext w w2)).map Decoded.instr = .ok i := by
  cases i with
  | vaddW1 | vsubW1 | vmulW1 | vmulhW1 | vmad | vaddc | vandW1 | vorW1 | vxorW1 | vshlW1 | vshrW1 | vsraW1 | vminW1 | vmaxW1 | vpopcW1
  | vclzW1 | vbfe | vbfi | vsel | vmovW1 | vcmp | faddW1 | fsubW1 | fmulW1 | ffmaW1 | fminW1 | fmaxW1 | fcmp | fclassW1 | frnd | cvt
  | pkaddW1 | pkmulW1 | pkfmaW1 | vshflW1 | vrotW1 | vbcastW1 | vballotW1 | vraddW1 | vrminW1 | vrmaxW1 | vscan | vdot4W1 | vdot2hW1 | ldW1
  | stW1 | ldgW1 | stgW1 | ldpW1 | stpW1 | atom | atomg | red | prefW1 | fence | cctl | remld | remst | rematom | rred | gred =>
    cases h
    refine readForm_plain (readForm_of_vector rfl (by simp [BaseWord.isSfu]) (.ext _ _)) ?_
    show (need _ >>= _) = _
    simp [accept, hw]
  | xrcpW1 | xrsqW1 | xsqrtW1 | xexp2W1 | xlog2W1 | xsinW1 | xcosW1 | xtanhW1 | rngW1 =>
    cases h
    refine (congrArg _ (readForm_of_sfu rfl (by simp [BaseWord.isSfu]) (.ext _ _))).trans ?_
    show (Except.map _ (need _ >>= _)).map _ = _
    simp [acceptSfu, Except.map, Decoded.instr]
  | _ => exact not_fits h hu rfl

/-- U = 0, with a literal. -/
theorem readForm_scalarLit_encodeFields {i : Instr} {b : BaseWord} {l : W64} (hw : i.wf = true)
    (h : encodeFields i = some (b, .lit l)) (hu : b.u = false) : (readForm b (.lit l)).map Decoded.instr = .ok i := by
  cases i with
  | saddLit | ssubLit | smulLit | smulhLit | sandLit | sorLit | sxorLit | sminLit | smaxLit | sliLit =>
    cases h
    refine readForm_plain (readForm_lit rfl _) ?_
    show accept _ _ = _
    simp [accept, hw]
  | scmpLit =>
    cases h
    refine readForm_plain (readForm_lit rfl _) ?_
    show (need _ >>= _) = _
    simp [accept, hw]
  | _ => exact not_fits h hu rfl

/-- U = 1, with a literal. -/
theorem readForm_vectorLit_encodeFields {i : Instr} {b : BaseWord} {l : W64} (hw : i.wf = true)
    (h : encodeFields i = some (b, .lit l)) (hu : b.u = true) : (readForm b (.lit l)).map Decoded.instr = .ok i := by
  cases i with
  | vaddLit | vsubLit | vmulLit | vandLit | vorLit | vxorLit | vminLit | vmaxLit | vmovLit =>
    cases h
    refine readForm_plain (readForm_of_vector rfl (by simp [BaseWord.isSfu]) (.lit _)) ?_
    show accept _ _ = _
    simp [accept, hw]
  | _ => exact not_fits h hu rfl

/-- With W1, W2 and a literal. -/
theorem readForm_vectorExtLit_encodeFields {i : Instr} {b : BaseWord} {w : ExtWord} {w2 : W32} {l : W64} (hw : i.wf = true)
    (h : encodeFields i = some (b, .extLit w w2 l)) : (readForm b (.extLit w w2 l)).map Decoded.instr = .ok i := by
  cases i with
  | vaddLitW1 | vsubLitW1 | vmulLitW1 | vandLitW1 | vorLitW1 | vxorLitW1 | vminLitW1 | vmaxLitW1 | vmovLitW1 =>
    cases h
    refine readForm_plain (readForm_of_vector rfl (by simp [BaseWord.isSfu]) (.extLit _ _ _)) ?_
    show (need _ >>= _) = _
    simp [accept, hw]
  | _ => exact not_fits h rfl rfl

/-- Whether the length field of an encoding is its form's. -/
def lenFits : Option (BaseWord × Form) → Bool
  | some (b, f) => b.len == f.len
  | none => true

theorem lenFits_encodeFields (i : Instr) : lenFits (encodeFields i) = true := by cases i <;> rfl

theorem encodeFields_len {i : Instr} {b : BaseWord} {f : Form} (h : encodeFields i = some (b, f)) : b.len = f.len := by
  have hl := lenFits_encodeFields i
  rw [h] at hl
  exact eq_of_beq hl

/-- The tables read the fields of a well-formed instruction as the instruction. -/
theorem readForm_encodeFields {i : Instr} {b : BaseWord} {f : Form} (hw : i.wf = true) (h : encodeFields i = some (b, f)) :
    (readForm b f).map Decoded.instr = .ok i := by
  cases f with
  | short => cases hu : b.u with
    | false => exact readForm_scalarShort_encodeFields hw h hu
    | true => exact readForm_vectorShort_encodeFields hw h hu
  | ext w w2 => cases hu : b.u with
    | false => exact readForm_scalarExt_encodeFields hw h hu
    | true => exact readForm_vectorExt_encodeFields hw h hu
  | lit l => cases hu : b.u with
    | false => exact readForm_scalarLit_encodeFields hw h hu
    | true => exact readForm_vectorLit_encodeFields hw h hu
  | extLit w w2 l => exact readForm_vectorExtLit_encodeFields hw h

theorem encode_of_encodeFields {i : Instr} {b : BaseWord} {f : Form} (h : encodeFields i = some (b, f)) :
    encode i = packBase b :: formWords f := by simp only [encode, h]

/-- Settles O1: the words unpack to the fields, and the table of their LEN and U reads the fields as the instruction. -/
theorem decodeOfEncode : Obligations.DecodeOfEncode := by
  rintro i ⟨b, f⟩ rest hw h
  rw [encode_of_encodeFields h, List.cons_append, decodeWords, readWords_pack rest (encodeFields_len h)]
  exact readForm_encodeFields hw h

end Sys2Proof
end

section
/-! PROOFS. Encoding what was decoded (R8 to R20, R42 to R54): a word that the decoder accepts holds the fields of the instruction's
encoding, and nothing else. -/
namespace Sys2Proof

/-! ### Arms of the tables -/

theorem accept_eq_ok {z : Bool} {i j : Instr} : accept z i = .ok j ↔ z = true ∧ i.wf = true ∧ i = j := by
  unfold accept; split <;> simp_all
theorem acceptSfu_eq_ok {z : Bool} {i j : SfuInstr} : acceptSfu z i = .ok j ↔ z = true ∧ i = j := by
  unfold acceptSfu; split <;> simp_all
theorem need_bind_eq_ok {α β : Type} {o : Option α} {f : α → Except DecodeError β} {r : β} :
    (need o >>= f) = .ok r ↔ ∃ x, o = some x ∧ f x = .ok r := by
  cases o
  · simp only [reduceCtorEq, false_and, exists_false, iff_false]; exact nofun
  · simp
theorem ite_eq_ok {β : Type} {c : Prop} [Decidable c] {x y : Except DecodeError β} {r : β} :
    (if c then x else y) = .ok r ↔ c ∧ x = .ok r ∨ ¬c ∧ y = .ok r := by split <;> simp_all
theorem op_of_toNat {op : BitVec 7} {k : Nat} (h : op.toNat = k) : op = BitVec.ofNat 7 k := by rw [← h]; simp

/-! ### Codes: each is read from one field value -/

theorem eq_code {w : Nat} {α : Type} {of : BitVec w → Option α} {code : α → BitVec w} (hof : ∀ x, of (code x) = some x)
    (hcode : ∀ c, (of c).all (fun x => code x == c) = true) (c : BitVec w) (x : α) : of c = some x ↔ c = code x := by
  constructor
  · intro h
    have := hcode c
    rw [h] at this
    exact (eq_of_beq this).symm
  · rintro rfl; exact hof x

@[simp] theorem tyOf_eq_some (c : BitVec 5) (x : Ty) : tyOf c = some x ↔ c = tyCode x := eq_code tyOf_tyCode (by decide) c x
@[simp] theorem rndOf_eq_some (c : BitVec 3) (x : Rnd) : rndOf c = some x ↔ c = rndCode x := eq_code rndOf_rndCode (by decide) c x
@[simp] theorem scopeOf_eq_some (c : BitVec 3) (x : Scope) : scopeOf c = some x ↔ c = scopeCode x := eq_code scopeOf_scopeCode (by decide) c x
@[simp] theorem cpOf_eq_some (c : BitVec 3) (x : Cp) : cpOf c = some x ↔ c = cpCode x := eq_code cpOf_cpCode (by decide) c x
@[simp] theorem cmpOf_eq_some (c : BitVec 4) (x : Cmp) : cmpOf c = some x ↔ c = cmpCode x := eq_code cmpOf_cmpCode (by decide) c x
@[simp] theorem fcmpOf_eq_some (c : BitVec 4) (x : FCmp) : fcmpOf c = some x ↔ c = fcmpCode x := eq_code fcmpOf_fcmpCode (by decide) c x
@[simp] theorem atomOf_eq_some (c : BitVec 4) (x : AtomOp) : atomOf c = some x ↔ c = atomCode x := eq_code atomOf_atomCode (by decide) c x
@[simp] theorem scanOf_eq_some (c : BitVec 4) (x : ScanOp) : scanOf c = some x ↔ c = scanCode x := eq_code scanOf_scanCode (by decide) c x
@[simp] theorem sysRegOf_eq_some (c : BitVec 6) (x : SysReg) : sysRegOf c = some x ↔ c = sysRegCode x := eq_code sysRegOf_sysRegCode (by decide) c x
@[simp] theorem orderCode_orderOf (c : BitVec 2) : orderCode (orderOf c) = c := by revert c; decide

@[simp] theorem brOf_eq_some (a : BitVec 6) (m : BitVec 4) (x : BrMode) : brOf a m = some x ↔ a = brA x ∧ m = brM x := by
  constructor
  · unfold brOf
    split <;> rename_i hm <;> intro h
    · split at h <;> cases h
      exact ⟨eq_of_beq ‹_›, BitVec.eq_of_toNat_eq hm⟩
    · cases h; exact ⟨rfl, BitVec.eq_of_toNat_eq hm⟩
    · cases h; exact ⟨rfl, BitVec.eq_of_toNat_eq hm⟩
    · cases h
  · rintro ⟨rfl, rfl⟩; exact brOf_brA x

/-- M of an indexed address is its three fields with bit 2 set (R54). -/
theorem idxM_of_bit (m : BitVec 4) (h : m.getLsbD 2 = true) : BitVec.ofBool (m.getLsbD 3) ++ 1#1 ++ m.extractLsb' 0 2 = m := by
  revert m; decide

@[simp] theorem idxOf_eq_some (b : BitVec 6) (m : BitVec 4) (x : Option Idx) : idxOf b m = some x ↔ b = idxB x ∧ m = idxM x := by
  constructor
  · unfold idxOf
    split <;> intro h
    · cases h; exact ⟨rfl, (idxM_of_bit m ‹_›).symm⟩
    · split at h <;> cases h
      rename_i hz
      rwa [Bool.and_eq_true, beq_iff_eq, beq_iff_eq] at hz
  · rintro ⟨rfl, rfl⟩; exact idxOf_idxB_idxM x

@[simp] theorem guardOf_eq_some (g : Option Guard) (c pe pn p rnd sat ty sc ord cp xop) :
    guardOf ⟨c, pe, pn, p, rnd, sat, ty, sc, ord, cp, xop⟩ = some g ↔ pe = (extGuard g).pe ∧ pn = (extGuard g).pn ∧ p = (extGuard g).p := by
  constructor
  · unfold guardOf
    split <;> intro h
    · cases h; exact ⟨‹_›, rfl, rfl⟩
    · split at h <;> cases h
      simp_all [extGuard]
  · rintro ⟨rfl, rfl, rfl⟩; exact guardOf_with ..

@[simp] theorem extGuard_some (g : Guard) :
    (extGuard (some g)).pe = true ∧ (extGuard (some g)).pn = g.neg ∧ (extGuard (some g)).p = g.p := ⟨rfl, rfl, rfl⟩

/-- W1 that holds a guard alone. -/
@[simp] theorem extGuard_eq_mk (g : Option Guard) (c pe pn p rnd sat ty sc ord cp xop) :
    extGuard g = ⟨c, pe, pn, p, rnd, sat, ty, sc, ord, cp, xop⟩ ↔ (c = 0 ∧ rnd = 0 ∧ sat = false ∧ ty = 0 ∧ sc = 0 ∧ ord = 0 ∧ cp = 0 ∧ xop = 0) ∧
      pe = (extGuard g).pe ∧ pn = (extGuard g).pn ∧ p = (extGuard g).p := by
  rcases g with _ | g <;> simp only [extGuard, ExtWord.mk.injEq] <;> grind

/-! ### Fields put together again -/

theorem append_low_eq_iff {v w : Nat} {n : BitVec v} {x : BitVec (v + w)} : n ++ x.extractLsb' 0 w = x ↔ x.extractLsb' w v = n := by
  constructor
  · intro h; rw [← h, extractLsb'_append_high]
  · rintro rfl; exact append_extractLsb' x

@[simp] theorem pred_field_eq {x : BitVec 6} : 0#3 ++ x.extractLsb' 0 3 = x ↔ x.extractLsb' 3 3 = 0 := append_low_eq_iff
@[simp] theorem future_field_eq {x : BitVec 6} : 0#2 ++ x.extractLsb' 0 4 = x ↔ x.extractLsb' 4 2 = 0 := append_low_eq_iff
@[simp] theorem type_field_eq {x : BitVec 6} {y : BitVec 5} : 0#1 ++ y = x ↔ x[5] = false ∧ x.extractLsb' 0 5 = y := by
  revert x y; decide
@[simp] theorem quadrants_field_eq {x : BitVec 4} : x.extractLsb' 2 2 ++ x.extractLsb' 0 2 = x := append_extractLsb' (v := 2) (w := 2) x
@[simp] theorem two_bits_field_eq {x : BitVec 4} : 0#2 ++ x.extractLsb' 0 2 = x ↔ x[2] = false ∧ x[3] = false := by revert x; decide
@[simp] theorem two_bits_high_eq {x : BitVec 4} : x.extractLsb' 2 2 = 0#2 ↔ x[2] = false ∧ x[3] = false := by revert x; decide
@[simp] theorem three_bits_field_eq {x : BitVec 4} : 0#1 ++ x.extractLsb' 0 3 = x ↔ x[3] = false := by revert x; decide
@[simp] theorem three_bits_high_eq {x : BitVec 4} : x.extractLsb' 3 1 = 0#1 ↔ x[3] = false := by revert x; decide
@[simp] theorem imm5_field_eq {x : BitVec 10} (h : x.extractLsb' 5 5 = 0) : 0#5 ++ x.extractLsb' 0 5 = x := append_low_eq_iff.mpr h
@[simp] theorem imm6_field_eq {x : BitVec 10} (h : x.extractLsb' 6 4 = 0) : 0#4 ++ x.extractLsb' 0 6 = x := append_low_eq_iff.mpr h
@[simp] theorem imm9_field_eq {x : BitVec 10} (h : x.extractLsb' 9 1 = 0) : 0#1 ++ x.extractLsb' 0 9 = x := append_low_eq_iff.mpr h
@[simp] theorem imm10_fields (x : BitVec 4) (y : BitVec 6) : (x ++ y).extractLsb' 6 4 = x ∧ (x ++ y).extractLsb' 0 6 = y :=
  ⟨extractLsb'_append_high .., extractLsb'_append_low ..⟩
@[simp] theorem low_bit_field_eq {x : BitVec 4} : 0#3 ++ BitVec.ofBool x[0] = x ↔ x[1] = false ∧ x[2] = false ∧ x[3] = false := by
  revert x; decide
@[simp] theorem high_bit_field_eq {x : BitVec 4} : BitVec.ofBool x[3] ++ 0#3 = x ↔ x[0] = false ∧ x[1] = false ∧ x[2] = false := by
  revert x; decide
@[simp] theorem outer_bits_field_eq {x : BitVec 4} :
    BitVec.ofBool x[3] ++ 0#2 ++ BitVec.ofBool x[0] = x ↔ x[1] = false ∧ x[2] = false := by revert x; decide
@[simp] theorem low_bits_field_eq {x : BitVec 4} :
    0#2 ++ BitVec.ofBool x[1] ++ BitVec.ofBool x[0] = x ↔ x[2] = false ∧ x[3] = false := by revert x; decide
@[simp] theorem sign_bits_field_eq {x : BitVec 4} :
    BitVec.ofBool x[3] ++ 0#1 ++ BitVec.ofBool x[1] ++ BitVec.ofBool x[0] = x ↔ x[2] = false := by revert x; decide
@[simp] theorem position_width_word_eq {x : W32} :
    0#16 ++ x.extractLsb' 8 8 ++ x.extractLsb' 0 8 = x ↔ x.extractLsb' 16 16 = 0 := by
  constructor
  · intro h; rw [← h]; exact (position_width_word _ _).1
  · intro h
    apply BitVec.eq_of_getLsbD_eq
    intro i hi
    have hk := congrArg (·.getLsbD (i - 16)) h
    simp only [BitVec.getLsbD_append, BitVec.getLsbD_extractLsb'] at hk ⊢
    by_cases h8 : i < 8
    · simp [h8]
    · by_cases h16 : i - 8 < 8
      · simp [h8, h16, show 8 + (i - 8) = i by omega]
      · simpa [h8, h16, show i - 16 < 16 by omega, show 16 + (i - 16) = i by omega] using hk.symm
@[simp] theorem target_join_word_eq {x : W32} : x.extractLsb' 16 16 ++ x.extractLsb' 0 16 = x := append_extractLsb' (v := 16) (w := 16) x
@[simp] theorem entry_word_eq {x : W32} : 0#27 ++ x.extractLsb' 0 5 = x ↔ x.extractLsb' 5 27 = 0 := append_low_eq_iff
theorem ofBool_getElem_zero (x : W32) : BitVec.ofBool x[0] = x.extractLsb' 0 1 := by
  apply BitVec.eq_of_getLsbD_eq
  intro i hi
  obtain rfl : i = 0 := by omega
  simp
@[simp] theorem flag_word_eq {x : W32} : 0#31 ++ BitVec.ofBool x[0] = x ↔ x.extractLsb' 1 31 = 0 := by
  rw [ofBool_getElem_zero]; exact append_low_eq_iff

/-! ### What each table accepts (O2) -/

/-- U = 0, the base word alone. -/
theorem encodeFields_decodeScalar {b : BaseWord} {i : Instr} (hl : b.len = 0) (hu : b.u = false)
    (h : decodeScalar b = .ok i) : i.wf = true ∧ encodeFields i = some (b, .short) := by
  obtain ⟨len, u, op, d, a, b, m⟩ := b
  obtain rfl : len = 0 := hl
  obtain rfl : u = false := hu
  unfold decodeScalar at h
  split at h
  on_goal -1 => cases h
  all_goals
    rename_i hop
    obtain rfl := op_of_toNat hop
    simp only [accept_eq_ok, need_bind_eq_ok, ite_eq_ok, reduceCtorEq, and_false, or_false] at h
    casesm* _ ∧ _, ∃ _, _, _ ∨ _
    all_goals
      subst ‹_ = i›
      refine ⟨‹_›, ?_⟩
      unfold encodeFields
      simp_all

/-- U = 1, the base word alone. -/
theorem encodeFields_decodeVector {b : BaseWord} {i : Instr} (hl : b.len = 0) (hu : b.u = true)
    (h : decodeVector b = .ok i) : i.wf = true ∧ encodeFields i = some (b, .short) := by
  obtain ⟨len, u, op, d, a, b, m⟩ := b
  obtain rfl : len = 0 := hl
  obtain rfl : u = true := hu
  unfold decodeVector at h
  split at h
  on_goal -1 => cases h
  all_goals
    rename_i hop
    obtain rfl := op_of_toNat hop
    simp only [accept_eq_ok, need_bind_eq_ok] at h
    casesm* _ ∧ _, ∃ _, _
    all_goals
      subst ‹_ = i›
      refine ⟨‹_›, ?_⟩
      unfold encodeFields
      simp_all

/-- U = 0, with W1 and W2. -/
theorem encodeFields_decodeScalarExt {b : BaseWord} {w : ExtWord} {w2 : W32} {i : Instr} (hl : b.len = 1) (hu : b.u = false)
    (h : decodeScalarExt b w w2 = .ok i) : i.wf = true ∧ encodeFields i = some (b, .ext w w2) := by
  obtain ⟨len, u, op, d, a, b, m⟩ := b
  obtain rfl : len = 1 := hl
  obtain rfl : u = false := hu
  obtain ⟨c, pe, pn, p, rnd, sat, ty, sc, ord, cp, xop⟩ := w
  unfold decodeScalarExt at h
  split at h
  on_goal -1 => cases h
  all_goals
    rename_i hop
    obtain rfl := op_of_toNat hop
    simp only [accept_eq_ok, need_bind_eq_ok, ite_eq_ok, reduceCtorEq, and_false, or_false] at h
    casesm* _ ∧ _, ∃ _, _, _ ∨ _
    all_goals
      subst ‹_ = i›
      refine ⟨‹_›, ?_⟩
      unfold encodeFields
      simp_all

/-- U = 1, with W1 and W2. -/
theorem encodeFields_decodeVectorExt {b : BaseWord} {w : ExtWord} {w2 : W32} {i : Instr} (hl : b.len = 1) (hu : b.u = true)
    (h : decodeVectorExt b w w2 = .ok i) : i.wf = true ∧ encodeFields i = some (b, .ext w w2) := by
  obtain ⟨len, u, op, d, a, b, m⟩ := b
  obtain rfl : len = 1 := hl
  obtain rfl : u = true := hu
  obtain ⟨c, pe, pn, p, rnd, sat, ty, sc, ord, cp, xop⟩ := w
  unfold decodeVectorExt at h
  split at h
  on_goal -1 => cases h
  all_goals
    rename_i hop
    obtain rfl := op_of_toNat hop
    simp only [accept_eq_ok, need_bind_eq_ok] at h
    casesm* _ ∧ _, ∃ _, _
    all_goals
      subst ‹_ = i›
      refine ⟨‹_›, ?_⟩
      unfold encodeFields
      simp_all

/-- U = 0, with a literal. -/
theorem encodeFields_decodeScalarLit {b : BaseWord} {l : W64} {i : Instr} (hl : b.len = 2) (hu : b.u = false)
    (h : decodeScalarLit b l = .ok i) : i.wf = true ∧ encodeFields i = some (b, .lit l) := by
  obtain ⟨len, u, op, d, a, b, m⟩ := b
  obtain rfl : len = 2 := hl
  obtain rfl : u = false := hu
  unfold decodeScalarLit at h
  split at h
  on_goal -1 => cases h
  all_goals
    rename_i hop
    obtain rfl := op_of_toNat hop
    simp only [accept_eq_ok, need_bind_eq_ok] at h
    casesm* _ ∧ _, ∃ _, _
    all_goals
      subst ‹_ = i›
      refine ⟨‹_›, ?_⟩
      unfold encodeFields
      simp_all

/-- U = 1, with a literal. -/
theorem encodeFields_decodeVectorLit {b : BaseWord} {l : W64} {i : Instr} (hl : b.len = 2) (hu : b.u = true)
    (h : decodeVectorLit b l = .ok i) : i.wf = true ∧ encodeFields i = some (b, .lit l) := by
  obtain ⟨len, u, op, d, a, b, m⟩ := b
  obtain rfl : len = 2 := hl
  obtain rfl : u = true := hu
  unfold decodeVectorLit at h
  split at h
  on_goal -1 => cases h
  all_goals
    rename_i hop
    obtain rfl := op_of_toNat hop
    simp only [accept_eq_ok] at h
    casesm* _ ∧ _, ∃ _, _
    all_goals
      subst ‹_ = i›
      refine ⟨‹_›, ?_⟩
      unfold encodeFields
      simp_all

/-- With W1, W2 and a literal. -/
theorem encodeFields_decodeVectorExtLit {b : BaseWord} {w : ExtWord} {w2 : W32} {l : W64} {i : Instr} (hl : b.len = 3) (hu : b.u = true)
    (h : decodeVectorExtLit b w w2 l = .ok i) : i.wf = true ∧ encodeFields i = some (b, .extLit w w2 l) := by
  obtain ⟨len, u, op, d, a, b, m⟩ := b
  obtain rfl : len = 3 := hl
  obtain rfl : u = true := hu
  obtain ⟨c, pe, pn, p, rnd, sat, ty, sc, ord, cp, xop⟩ := w
  unfold decodeVectorExtLit at h
  split at h
  on_goal -1 => cases h
  all_goals
    rename_i hop
    obtain rfl := op_of_toNat hop
    simp only [accept_eq_ok, need_bind_eq_ok] at h
    casesm* _ ∧ _, ∃ _, _
    all_goals
      subst ‹_ = i›
      refine ⟨‹_›, ?_⟩
      unfold encodeFields
      simp_all

/-- The special functions and random numbers, the base word alone. -/
theorem encodeFields_decodeSfu {b : BaseWord} {i : SfuInstr} (hl : b.len = 0) (hu : b.u = true)
    (h : decodeSfu b = .ok i) : (Decoded.sfu i).instr.wf = true ∧ encodeFields (Decoded.sfu i).instr = some (b, .short) := by
  obtain ⟨len, u, op, d, a, b, m⟩ := b
  obtain rfl : len = 0 := hl
  obtain rfl : u = true := hu
  unfold decodeSfu at h
  split at h
  on_goal -1 => cases h
  all_goals
    rename_i hop
    obtain rfl := op_of_toNat hop
    simp only [acceptSfu_eq_ok] at h
    casesm* _ ∧ _, ∃ _, _
    subst ‹_ = i›
    refine ⟨rfl, ?_⟩
    unfold encodeFields
    simp_all [Decoded.instr]

/-- The special functions and random numbers, with W1 and W2. -/
theorem encodeFields_decodeSfuExt {b : BaseWord} {w : ExtWord} {w2 : W32} {i : SfuInstr} (hl : b.len = 1) (hu : b.u = true)
    (h : decodeSfuExt b w w2 = .ok i) : (Decoded.sfu i).instr.wf = true ∧ encodeFields (Decoded.sfu i).instr = some (b, .ext w w2) := by
  obtain ⟨len, u, op, d, a, b, m⟩ := b
  obtain rfl : len = 1 := hl
  obtain rfl : u = true := hu
  obtain ⟨c, pe, pn, p, rnd, sat, ty, sc, ord, cp, xop⟩ := w
  unfold decodeSfuExt at h
  split at h
  on_goal -1 => cases h
  all_goals
    rename_i hop
    obtain rfl := op_of_toNat hop
    simp only [acceptSfu_eq_ok, need_bind_eq_ok] at h
    casesm* _ ∧ _, ∃ _, _
    subst ‹_ = i›
    refine ⟨rfl, ?_⟩
    unfold encodeFields
    simp_all [Decoded.instr]

/-! ### From the words -/

/-- Settles O3: each word list is decoded by evaluating the decoder on it. -/
theorem decodeSpecWords : Obligations.DecodeSpecWords := ⟨rfl, rfl, rfl, rfl, rfl, rfl, rfl⟩


theorem map_instr_plain_eq_ok {r : Except DecodeError Instr} {i : Instr} :
    (r.map Decoded.plain).map Decoded.instr = .ok i ↔ r = .ok i := by rw [map_plain_instr]

theorem map_instr_sfu_eq_ok {r : Except DecodeError SfuInstr} {i : Instr} :
    (r.map Decoded.sfu).map Decoded.instr = .ok i ↔ ∃ j, r = .ok j ∧ (Decoded.sfu j).instr = i := by
  cases r <;> simp [Except.map]

/-- What is read from a base word and a form of its LEN is well-formed, with these fields. -/
theorem encodeFields_readForm {b : BaseWord} {f : Form} {i : Instr} (hl : b.len = f.len) (h : (readForm b f).map Decoded.instr = .ok i) :
    i.wf = true ∧ encodeFields i = some (b, f) := by
  cases hu : b.u with
  | false => cases f with
    | short => rw [readForm_short hu, map_instr_plain_eq_ok] at h; exact encodeFields_decodeScalar hl hu h
    | ext w w2 => rw [readForm_ext hu, map_instr_plain_eq_ok] at h; exact encodeFields_decodeScalarExt hl hu h
    | lit l => rw [readForm_lit hu, map_instr_plain_eq_ok] at h; exact encodeFields_decodeScalarLit hl hu h
    | extLit w w2 l =>
      cases b; cases hu; cases h
  | true => cases hs : b.isSfu with
    | false =>
      rw [readForm_of_vector hu hs, map_instr_plain_eq_ok] at h
      cases f with
      | short => exact encodeFields_decodeVector hl hu h
      | ext w w2 => exact encodeFields_decodeVectorExt hl hu h
      | lit l => exact encodeFields_decodeVectorLit hl hu h
      | extLit w w2 l => exact encodeFields_decodeVectorExtLit hl hu h
    | true =>
      rw [readForm_of_sfu hu hs] at h
      cases f with
      | short =>
        obtain ⟨j, hj, rfl⟩ := map_instr_sfu_eq_ok.mp h
        exact encodeFields_decodeSfu hl hu hj
      | ext w w2 =>
        obtain ⟨j, hj, rfl⟩ := map_instr_sfu_eq_ok.mp h
        exact encodeFields_decodeSfuExt hl hu hj
      | lit l => cases h
      | extLit w w2 l => cases h

/-- The halves of a literal's two words are the words (R12). -/
theorem words_of_literal (h l : W32) : (h ++ l : W64).extractLsb' 0 32 = l ∧ (h ++ l : W64).extractLsb' 32 32 = h :=
  ⟨extractLsb'_append_low .., extractLsb'_append_high ..⟩

/-- Words that are read are a base word and the words of a form of its LEN. -/
theorem readWords_eq_ok {ws : List W32} {x : Decoded} (h : readWords ws = .ok x) :
    ∃ b f rest, b.len = f.len ∧ ws = packBase b :: (formWords f ++ rest) ∧ readForm b f = .ok x := by
  have len_of {w : W32} {k : Nat} (hk : (unpackBase w).len.toNat = k) : (unpackBase w).len = BitVec.ofNat 2 k := by rw [← hk]; simp
  cases ws with
  | nil => cases h
  | cons w rest =>
    simp only [readWords] at h
    split at h
    · exact ⟨unpackBase w, .short, _, len_of ‹_›, by simp only [formWords, packBase_unpackBase, List.nil_append]; rfl, h⟩
    · exact ⟨unpackBase w, .ext _ _, _, len_of ‹_›, by simp only [formWords, packBase_unpackBase, packExt_unpackExt, List.cons_append]; rfl, h⟩
    · exact ⟨unpackBase w, .lit _, _, len_of ‹_›, by simp only [formWords, packBase_unpackBase, words_of_literal, List.cons_append]; rfl, h⟩
    · exact ⟨unpackBase w, .extLit _ _ _, _, len_of ‹_›,
        by simp only [formWords, packBase_unpackBase, packExt_unpackExt, words_of_literal, List.cons_append]; rfl, h⟩
    · cases h

/-- Settles O2: the words are those of the base word and the form that were read, which are the encoding's fields. -/
theorem encodeOfDecode : Obligations.EncodeOfDecode := by
  intro ws i h
  obtain ⟨x, hx, rfl⟩ : ∃ x, readWords ws = .ok x ∧ x.instr = i := by
    rw [decodeWords] at h
    cases hr : readWords ws with
    | error e => rw [hr] at h; cases h
    | ok x => rw [hr] at h; exact ⟨x, rfl, Except.ok.inj h⟩
  obtain ⟨b, f, rest, hl, rfl, hf⟩ := readWords_eq_ok hx
  obtain ⟨hw, he⟩ := encodeFields_readForm hl (by rw [hf]; rfl)
  refine ⟨hw, by rw [he]; rfl, ?_⟩
  rw [encode_of_encodeFields he, ← List.cons_append, List.take_left]

end Sys2Proof
end

section
/-! PROOFS. Memory (R3): what is read after bytes are written, and that the canonical form is unique. -/
namespace Sys2Proof.Machine
open Sys2Proof

/-- Bytes written read back; the others are as before. -/
theorem memGet_memWrite (m : Mem) (a x : Nat) (bs : List Byte) (h : m.wf = true) :
    memGet (memWrite m a bs) x = if a ≤ x ∧ x < a + bs.length then bs.getD (x - a) 0 else memGet m x := by
  induction bs generalizing m a with
  | nil => rw [if_neg (by simp only [List.length_nil]; omega)]; rfl
  | cons b r ih =>
    rw [memWrite, ih _ _ (memSet_wf m a b h), memGet_memSet m a x b none h]
    rcases lt_trichotomy x a with hlt | rfl | hgt
    · rw [if_neg (by omega), if_neg (by omega), if_neg (by omega)]
    · rw [if_neg (by omega), if_pos rfl, if_pos ⟨le_refl x, by simp⟩]; simp
    · obtain ⟨k, rfl⟩ : ∃ k, x = a + 1 + k := ⟨x - (a + 1), by omega⟩
      have hin : a + 1 + k < a + 1 + r.length ↔ a + 1 + k < a + (b :: r).length := by rw [List.length_cons]; omega
      simp only [hin, show a + 1 ≤ a + 1 + k by omega, show a ≤ a + 1 + k by omega, true_and, show a + 1 + k ≠ a by omega, if_false,
        show a + 1 + k - (a + 1) = k by omega, show a + 1 + k - a = k + 1 by omega, List.getD_cons_succ]

/-- The first cell of a list in the form is not 0, and the rest lies above it. -/
theorem memAbove_cons {lo : Option Nat} {k : Nat} {b : Byte} {r : Mem} (h : memAbove lo ((k, b) :: r) = true) :
    b ≠ 0 ∧ memAbove (some k) r = true := by
  simp only [memAbove, Bool.and_eq_true, bne_iff_ne] at h
  exact ⟨h.1.2, h.2⟩

/-- Below its first cell a list in the form reads as 0. -/
theorem memGet_before {lo : Option Nat} {k a : Nat} {b : Byte} {r : Mem} (h : memAbove lo ((k, b) :: r) = true) (ha : a < k) :
    memGet ((k, b) :: r) a = 0 := by
  rw [memGet, if_neg (by omega)]
  exact memGet_above r k a (memAbove_cons h).2 (by omega)

@[simp] theorem memGet_head (k : Nat) (b : Byte) (r : Mem) : memGet ((k, b) :: r) k = b := if_pos rfl

/-- Where another list reads alike, it does not begin above a list's first cell. -/
theorem head_le_of_memGet_eq {lo hi : Option Nat} {k j : Nat} {b c : Byte} {m n : Mem} (hm : memAbove lo ((k, b) :: m) = true)
    (hn : memAbove hi ((j, c) :: n) = true) (heq : ∀ a, memGet ((k, b) :: m) a = memGet ((j, c) :: n) a) : j ≤ k := by
  by_contra hlt
  exact (memAbove_cons hm).1 ((memGet_head k b m).symm.trans ((heq k).trans (memGet_before hn (by omega))))

/-- Lists in the form that read the same everywhere are equal. -/
theorem mem_ext_above (m n : Mem) (lo hi : Option Nat) (hm : memAbove lo m = true) (hn : memAbove hi n = true)
    (heq : ∀ a, memGet m a = memGet n a) : m = n := by
  induction m generalizing n lo hi with
  | nil =>
    cases n with
    | nil => rfl
    | cons c r => exact absurd ((heq c.1).trans (memGet_head c.1 c.2 r)).symm (memAbove_cons hn).1
  | cons x m ih =>
    obtain ⟨k, b⟩ := x
    cases n with
    | nil => exact absurd ((memGet_head k b m).symm.trans (heq k)) (memAbove_cons hm).1
    | cons y n =>
      obtain ⟨j, c⟩ := y
      obtain rfl : k = j := le_antisymm (head_le_of_memGet_eq hn hm fun a => (heq a).symm) (head_le_of_memGet_eq hm hn heq)
      obtain rfl : b = c := by simpa using heq k
      obtain ⟨-, hm⟩ := memAbove_cons hm
      obtain ⟨-, hn⟩ := memAbove_cons hn
      rw [ih n (some k) (some k) hm hn fun a => ?_]
      by_cases ha : a ≤ k
      · rw [memGet_above m k a hm ha, memGet_above n k a hn ha]
      · simpa only [memGet, show a ≠ k by omega, if_false] using heq a

/-- Settles O8: the laws of the canonical form, a write byte by byte, and the uniqueness of the form cell by cell. -/
theorem memoryOperations : Obligations.MemoryOperations :=
  ⟨memSet_wf, memWrite_wf, memGet_memWrite, fun m n hm hn => mem_ext_above m n none none hm hn⟩

/-- Settles O10: both lists are empty at reset. -/
theorem resetMemoryForm : Obligations.ResetMemoryForm := ⟨reset_mem_wf, reset_hmem_wf⟩

/-- Settles O7: reset's fields, gate by gate and die by die. -/
theorem resetState : Obligations.ResetState := by
  refine ⟨fun k => ?_, fun a => ⟨rfl, rfl⟩, fun d => ?_, rfl, rfl, rfl, rfl, rfl, rfl, rfl, rfl, rfl, rfl⟩
  · constructor <;> exact Vector.getElem_replicate k.isLt
  · exact congrArg Die.present (Vector.getElem_replicate d.isLt)

end Sys2Proof.Machine
end

section
/-! PROOFS. Scalar registers and predicates (R70 to R72, R133 to R136, R162, R215): what each instruction writes, and what it leaves. -/
namespace Sys2Proof.Machine
open Sys2Proof Sys2Proof.Statements

/-! ### Values read from other state -/

theorem append_eq_shift_or (a b : LaneMask) : (a ++ b : W64) = (a.zeroExtend 64 <<< 32) ||| b.zeroExtend 64 := by
  apply BitVec.eq_of_getLsbD_eq
  intro i hi
  refine (BitVec.getLsbD_append (x := a) (y := b) (i := i)).trans ?_
  by_cases h : i < 32
  · simp [h, hi]
  · simp [h, hi, BitVec.getLsbD_of_ge b i (by omega)]

theorem append_two_eq_shift_or (a : W32) : (a ++ 2#32 : W64) = (a.zeroExtend 64 <<< 32) ||| 2 := append_eq_shift_or a 2#32

/-- Two masks share no lane. -/
theorem and_eq_zero_iff (a b : LaneMask) : a &&& b = 0 ↔ ∀ l < 32, (a.getLsbD l && b.getLsbD l) = false := by
  constructor
  · intro h l _
    rw [← BitVec.getLsbD_and, h]; simp
  · intro h
    apply BitVec.eq_of_getLsbD_eq
    intro l hl
    rw [BitVec.getLsbD_and, h l hl]; simp

theorem pany_eq (a m : LaneMask) :
    (if a &&& m ≠ 0 then (1 : W64) else 0) = if (List.range 32).any fun l => a.getLsbD l && m.getLsbD l then 1 else 0 := by
  have h : a &&& m ≠ 0 ↔ ((List.range 32).any fun l => a.getLsbD l && m.getLsbD l) = true := by
    rw [← not_iff_not, not_not, and_eq_zero_iff, Bool.not_eq_true, List.any_eq_false]
    simp only [List.mem_range, Bool.not_eq_true]
  simp only [h]

theorem pall_eq (m a : LaneMask) :
    (if m &&& ~~~a = 0 then (1 : W64) else 0) = if (List.range 32).all fun l => !m.getLsbD l || a.getLsbD l then 1 else 0 := by
  have h : m &&& ~~~a = 0 ↔ ((List.range 32).all fun l => !m.getLsbD l || a.getLsbD l) = true := by
    rw [and_eq_zero_iff, List.all_eq_true]
    refine forall_congr' fun l => ?_
    rw [List.mem_range]
    refine imp_congr_right fun hl => ?_
    rw [BitVec.getLsbD_not]
    cases m.getLsbD l <;> simp [hl]
  simp only [h]

theorem exec_scalarRead {i : Instr} {d : SReg} {n : Nat} {f : State → W64} (h : ScalarRead i d n f) (s : State) :
    exec i s = scalarOp s n d (f s) := by
  cases h with
  | exec | gid | role | gang | core | cluster | die | pkg | sp | sl | tfp | dtb | dtl | rngk | rngc | fmode | time | wcnt | rsd | vballot
  | vballotW1 => rfl
  | exget => exact congrArg (scalarOp s _ d) (append_eq_shift_or ..)
  | pany => exact congrArg (scalarOp s _ d) (pany_eq ..)
  | pall => exact congrArg (scalarOp s _ d) (pall_eq ..)
  | ftestIdle d f =>
    refine congrArg (scalarOp s _ d) ?_
    simp only [append_two_eq_shift_or] <;> rfl

/-- Settles O13: each row is the write of one scalar register. -/
theorem scalarReads : Obligations.ScalarReads := fun _ _ _ _ s h => exec_scalarRead h s

/-! ### Predicates (R136) -/

/-- Lanes of a mask taken from one word, the others from another. -/
theorem mixMask_getLsbD (old v m : LaneMask) (l : Nat) (hl : l < 32) :
    ((old &&& ~~~m) ||| (v &&& m)).getLsbD l = if m.getLsbD l then v.getLsbD l else old.getLsbD l := by
  simp only [BitVec.getLsbD_or, BitVec.getLsbD_and, BitVec.getLsbD_not, hl, decide_true, Bool.true_and]
  cases m.getLsbD l <;> simp

theorem rpInv_getLsbD (s : State) (nb : Bool) (p : PReg) (l : Nat) (hl : l < 32) : (s.rpInv nb p).getLsbD l = ((s.rp p).getLsbD l ^^ nb) := by
  cases nb <;> simp [State.rpInv, hl]

/-- Each row writes one predicate, by the mask of its value. -/
theorem exec_predWrite {i : Instr} {g : Option Guard} {d : PReg} {n : Nat} {f : State → Nat → Bool} (h : PredWrite i g d n f) (s : State) :
    ∃ v, exec i s = predWrite s n g d v ∧ ∀ l < 32, v.getLsbD l = f s l := by
  cases h with
  | pand | pandW1 => exact ⟨_, rfl, fun l hl => by rw [BitVec.getLsbD_and, rpInv_getLsbD s _ _ l hl]⟩
  | por | porW1 => exact ⟨_, rfl, fun l hl => by rw [BitVec.getLsbD_or, rpInv_getLsbD s _ _ l hl]⟩
  | pxor | pxorW1 => exact ⟨_, rfl, fun l hl => by rw [BitVec.getLsbD_xor, rpInv_getLsbD s _ _ l hl]⟩
  | pnot | pnotW1 => exact ⟨_, rfl, fun l hl => by simp [hl]⟩
  | pmov | pmovW1 => exact ⟨_, rfl, fun l _ => rfl⟩

theorem predWrite_next (s : State) (n : Nat) (g : Option Guard) (d : PReg) (v : LaneMask) :
    predWrite s n g d v = .next ((s.setRp d ((s.rp d &&& ~~~s.active g) ||| (v &&& s.active g))).advance n) := rfl

/-- The predicates that PUNPK leaves: bit `k` of each active lane's word in predicate `k`. -/
def unpacked (s : State) (g : Option Guard) (a : VReg) : Vector LaneMask 8 :=
  Vector.ofFn fun k : Fin 8 =>
    (s.grp.p[k] &&& ~~~s.active g) ||| (maskOf (fun l => (s.src (.v a) .b32 l).testBit k) &&& s.active g)

theorem punpkOp_next {s : State} (n : Nat) (g : Option Guard) {a : VReg} (h : s.vcheck [(a, 1)] [] = .ok ()) :
    punpkOp s n g a = .next ((s.setGrp fun x => { x with p := unpacked s g a }).advance n) := by
  simp only [punpkOp, h, ok_bind, finish_ok]; rfl

theorem unpacked_getLsbD (s : State) (g : Option Guard) (a : VReg) (k : Fin 8) (l : Nat) (hl : l < 32) :
    ((unpacked s g a)[k]).getLsbD l = if actsOn s g l then (laneBits s .b32 (.v a) l).getLsbD k else (s.grp.p[k]).getLsbD l := by
  have hbit : (laneBits s .b32 (.v a) l).getLsbD k = (s.src (.v a) .b32 l).testBit k := by
    rw [laneBits, BitVec.getLsbD_ofNat]
    rw [show Ty.b32.width = 32 from rfl, decide_eq_true (show (k : Nat) < 32 by omega), Bool.true_and]
  rw [hbit, ← active_getLsbD s g hl, unpacked, Fin.getElem_fin, Vector.getElem_ofFn, predMix_getLsbD _ _ _ l hl]

/-- Settles O15: each row mixes its value into the predicate by the guard's lanes; PUNPK does so for eight predicates at once. -/
theorem predicateWrites : Obligations.PredicateWrites := by
  refine ⟨fun i g d n f s h => ?_, fun i g a n s hi hcheck => ⟨unpacked s g a, ?_, unpacked_getLsbD s g a⟩⟩
  · obtain ⟨v, hexec, hv⟩ := exec_predWrite h s
    refine ⟨_, hexec.trans (predWrite_next ..), fun l hl => ?_⟩
    rw [mixMask_getLsbD _ _ _ l hl, active_getLsbD s g hl, hv l hl]
  · rcases hi with ⟨rfl, rfl, rfl⟩ | ⟨rfl, rfl⟩ <;> exact punpkOp_next _ _ hcheck

/-! ### Frames -/

/-- A path that goes on changes its place in the bundle and no more. -/
theorem wentOn_advance {s t : State} (n : Nat) (hsel : t.sel = s.sel) (hslot : t.slot = s.slot)
    (hother : t.grp.slot s.sel.other = s.grp.slot s.sel.other) : WentOn s (t.advance n) n := by
  have hne : s.sel.other ≠ s.sel := by cases s.sel <;> simp [SlotId.other]
  have hslot' : (t.advance n).slot = _ := State.slot_setSlot t _
  refine ⟨hsel, ?_, ?_, ?_, ?_⟩
  · rw [hslot', hslot]; split <;> rfl
  · rw [hslot', hslot]; split <;> rfl
  · rw [hslot', hslot]; split <;> rfl
  · refine Eq.trans ?_ hother
    exact Group.slot_setSlot_other _ _ _ _ (hsel ▸ hne)

theorem slot_other_setRs (s : State) (r : SReg) (v : W64) (i : SlotId) : (s.setRs r v).grp.slot i = s.grp.slot i := by cases i <;> rfl
theorem slot_other_setRp (s : State) (p : PReg) (v : LaneMask) (i : SlotId) : (s.setRp p v).grp.slot i = s.grp.slot i := by cases i <;> rfl

theorem Group.setSlot_slots (g : Group) (i : SlotId) (f : Slot → Slot) :
    g.setSlot i f = { g with slotA := (g.setSlot i f).slotA, slotB := (g.setSlot i f).slotB } := by cases i <;> rfl

theorem State.setSlot_slots (s : State) (f : Slot → Slot) :
    (s.setSlot f).grp = { s.grp with slotA := (s.setSlot f).grp.slotA, slotB := (s.setSlot f).grp.slotB } := Group.setSlot_slots s.grp s.sel f

/-- Going on changes the group's slots alone. -/
theorem groupKept_advance {g : Group} {t : State} (n : Nat) (h : groupKept g t.grp) : groupKept g (t.advance n).grp := by
  rw [groupKept] at h ⊢
  have hadv : (t.advance n).grp = { t.grp with slotA := (t.advance n).grp.slotA, slotB := (t.advance n).grp.slotB } :=
    State.setSlot_slots t _
  rw [hadv, h]

theorem outside_of_grp {s t : State} (h : t = { s with grp := t.grp }) : Outside s t := ⟨h, fun _ => by rw [h], fun _ => by rw [h]⟩

theorem scalarWrite_frame (s : State) (d : SReg) (v : W64) (n : Nat) :
    RegsKept s ((s.setRs d v).advance n) [d] ∧ Outside s ((s.setRs d v).advance n) ∧ WentOn s ((s.setRs d v).advance n) n := by
  refine ⟨⟨fun r hr => ?_, fun p => ?_, ?_, ?_, ?_, groupKept_advance n rfl⟩, outside_of_grp rfl,
    wentOn_advance n rfl (State.slot_setRs s d v) (slot_other_setRs ..)⟩
  · rw [State.rs_advance, State.rs_setRs, if_neg fun h => hr (by simp [h])]
  · rw [State.rp_advance, State.rp_setRs]
  all_goals simp

theorem predWrite_frame (s : State) (d : PReg) (v : LaneMask) (n : Nat) :
    PredsKept s ((s.setRp d v).advance n) d ∧ ((s.setRp d v).advance n).grp.fmode = s.grp.fmode ∧
      Outside s ((s.setRp d v).advance n) ∧ WentOn s ((s.setRp d v).advance n) n := by
  refine ⟨⟨fun p hp => ?_, fun r => ?_, ?_, ?_, groupKept_advance n rfl⟩, ?_, outside_of_grp rfl,
    wentOn_advance n rfl (State.slot_setRp s d v) (slot_other_setRp ..)⟩
  · rw [State.rp_advance, State.rp_setRp, if_neg hp]
  · rw [State.rs_advance, State.rs_setRp]
  all_goals simp

/-- Settles O16: every row is the write of one register or predicate and the path's going on, whose frames are above. -/
theorem scalarFrame : Obligations.ScalarFrame := by
  refine ⟨fun i d n f s t h hexec => ?_, fun i g d n f s t h hexec => ?_⟩
  · have hop : exec i s = scalarOp s n d (f s) := h.elim (fun h => exec_scalarArith h s) fun h => exec_scalarRead h s
    cases hop.symm.trans hexec
    exact scalarWrite_frame s d (f s) n
  · obtain ⟨v, hop, -⟩ := exec_predWrite h s
    cases hop.symm.trans hexec
    exact predWrite_frame s d _ n

end Sys2Proof.Machine
end

section
/-! PROOFS. Control flow, calls, dispatches, the end of a path, software traps (R76 to R80, R88 to R92, R118 to R129). -/
namespace Sys2Proof.Machine
open Sys2Proof Sys2Proof.Statements

/-! ### Targets and sequencing -/

theorem State.bundleAt_signExtend {w : Nat} (s : State) (off : BitVec w) : s.bundleAt (off.signExtend 64) = bundle s off.toInt := by
  simp only [State.bundleAt, bundle, BitVec.signExtend, BitVec.ofInt_mul]
  rfl

theorem State.nextBundle_eq (s : State) : s.nextBundle = bundle s 1 := rfl

theorem atBundle_eq (s : State) (a : W64) : atBundle s a = s.jump a := rfl

theorem active_some_eq_taken (s : State) (g : Guard) : s.active (some g) = taken s g := rfl

theorem whenQuiet_of_quiet {s : State} (h : s.quiet = true) (r : Res State) : s.whenQuiet r = r := if_pos h

/-! ### Branches -/

theorem exec_br (m : BrMode) (off : W32) (s : State) :
    exec (.br m off) s = .next (atBundle s (if s.brTaken m then bundle s off.toInt else bundle s 1)) := by
  rw [← State.bundleAt_signExtend]; rfl

theorem brTaken_nz (s : State) (a : SReg) : s.brTaken (.nz a) = true ↔ s.rs a ≠ 0 := bne_iff_ne
theorem brTaken_z (s : State) (a : SReg) : s.brTaken (.z a) = true ↔ s.rs a = 0 := beq_iff_eq

theorem exec_brd (g : Guard) (tgt j : BitVec 16) (s : State) :
    exec (.brd g tgt j) s = if taken s g = 0 then .next (s.jump (bundle s 1))
      else if s.slot.mask &&& ~~~taken s g = 0 then .next (s.jump (bundle s tgt.toInt))
      else finish s (s.splitTwo ⟨bundle s tgt.toInt, taken s g, false⟩ (s.slot.mask &&& ~~~taken s g) (bundle s j.toInt)) := by
  rw [← State.bundleAt_signExtend, ← State.bundleAt_signExtend]; rfl

theorem slotFree_iff (s : State) : s.slotFree = true ↔ (s.grp.slot s.sel.other).occ = false ∧ s.grp.sjoin = none := by
  simp [State.slotFree]

theorem splitTwo_of_free {s : State} (h : s.slotFree = true) (d : Dest) (rest : LaneMask) (j : W64) :
    s.splitTwo d rest j = .ok (((s.copyPath d j).setSlot fun x => { x with mask := rest, pj := some j }).jump (bundle s 1)) := by
  rw [State.splitTwo, if_pos h]; rfl

theorem splitTwo_of_busy {s t : State} (h : s.slotFree = false) (pc : W64) (m rest : LaneMask) (j : W64)
    (push : s.pushAll s.sel [⟨j, s.slot.pj.getD 0, s.slot.mask, .merge, s.slot.depth, s.slot.sp⟩,
      ⟨pc, j, m, .resume, s.slot.depth, s.slot.sp⟩] = .ok t) :
    s.splitTwo ⟨pc, m, false⟩ rest j = .ok ((t.setSlot fun x => { x with mask := rest, pj := some j }).jump (bundle s 1)) := by
  rw [State.splitTwo, if_neg (by simp [h])]
  simp only [Slot.entry, joinWord, push, ok_bind]
  rfl

/-! ### Calls and returns -/

theorem exec_call (off : W32) (s : State) :
    exec (.call off) s = finish s (s.whenQuiet (s.callFrame (bundle s 1) >>= fun t => .ok (t.jump (bundle s off.toInt)))) := by
  rw [← State.bundleAt_signExtend]; rfl

theorem exec_enter (f : BitVec 3) (s : State) :
    exec (.enter f) s = finish s (s.whenQuiet (s.enterFrame (8 * (f.toNat + 1)) >>= fun t => .ok (t.advance 1))) := rfl

/-- RET into a caller whose frame is resident or filled. -/
theorem exec_ret {s t : State} {f : Frame} {rest : List Frame} {link : List (Vector W32 32)} (quiet : s.quiet = true)
    (frames : s.slot.frames = f :: rest) (own : s.joinDepth ≠ some s.slot.depth) (fill : s.fillCaller f = .ok (link, t))
    (ok : (s.returnTo f).toNat % 64 = 0) :
    exec .ret s = .next ((t.setSlot fun x => x.back f rest link).jump (s.returnTo f)) := by
  have hown : (s.joinDepth != some s.slot.depth) = true := bne_iff_ne.mpr own
  have hok : ((s.returnTo f).toNat % 64 == 0) = true := beq_iff_eq.mpr ok
  show execRet s = _
  simp only [execRet, whenQuiet_of_quiet quiet, frames, hown, hok, fill, must_true, ok_bind, finish_ok]

theorem fillCaller_resident {f : Frame} (s : State) (h : f.resident = true) : s.fillCaller f = .ok ([], s) := if_pos h
theorem returnTo_held {f : Frame} (s : State) (h : f.link = []) : s.returnTo f = f.ret := if_pos h

theorem relink_nil (x : Slot) (k : Nat) : x.relink k [] = x := rfl

/-! ### Dispatches -/

theorem exec_jts (a : SReg) (s : State) :
    exec (.jts a) s = finish s (s.dispatch [(0, s.rs a)] false >>= fun (es, t) => .ok (t.jump ((es.head?.map (·.2)).getD 0))) := rfl

/-- A call by a scalar index, with its entry read and room for the frame. -/
theorem calltScalar_next {a : SReg} {s t u : State} {e : W64} (quiet : s.quiet = true)
    (look : s.dispatch [(0, s.rs a)] true = .ok ([(0, e)], t)) (fits : t.callFrame (bundle s 1) = .ok u) :
    calltScalar a s = .next (u.jump e) := by
  rw [← State.nextBundle_eq] at fits
  simp [calltScalar, whenQuiet_of_quiet quiet, look, fits]

/-- The lanes of a mask with the indices that they dispatch by. -/
def State.indices (s : State) (m : LaneMask) (a : VReg) : List (Nat × W64) :=
  (lanesOf m).map fun l => (l, (s.vlane a 1 l).extractLsb' 0 64)

/-- What a dispatch does with the entries that it read: its calls must have room, then the path splits. -/
def splitDests (s t : State) (call : Bool) (es : List (Nat × W64)) : Res State := do
  must (!(t.callsNow (dests s call es) && t.callLimit)) { code := cStackLimit, addr := s.slot.sp - 256 }
  t.splitMany (dests s call es) (bundle s 1)

/-- A dispatch of lanes whose entries are read and whose calls have room. -/
theorem dispatchLanes_next {call : Bool} {g : Option Guard} {a : VReg} {s t u : State} {es : List (Nat × W64)}
    (quiet : call = true → s.quiet = true) (regs : s.vcheck [(a, 1)] [] = .ok ())
    (look : s.dispatch (s.indices (s.active g) a) true = .ok (es, t))
    (room : (t.callsNow (dests s call es) && t.callLimit) = false)
    (split : t.splitMany (dests s call es) (bundle s 1) = .ok u) : dispatchLanes call g a s = .next u := by
  have body : splitDests s t call es = .ok u := by
    rw [splitDests, room, split]
    rfl
  have run : (if call then s.whenQuiet (splitDests s t call es) else splitDests s t call es) = .ok u := by
    cases call with
    | false => exact body
    | true => rw [if_pos rfl, whenQuiet_of_quiet (quiet rfl)]; exact body
  simp only [State.indices] at look
  rw [dispatchLanes]
  simp only [regs, look, ok_bind, State.nextBundle_eq]
  exact (congrArg (finish s) run).trans (finish_ok ..)

/-- No destination of a jump is a call. -/
theorem mem_foldl_distinct {α : Type} [DecidableEq α] (l acc : List α) (x : α)
    (h : x ∈ l.foldl (fun acc x => if x ∈ acc then acc else acc ++ [x]) acc) : x ∈ acc ∨ x ∈ l := by
  induction l generalizing acc with
  | nil => exact .inl h
  | cons y r ih =>
    rw [List.foldl_cons] at h
    rcases ih _ h with h | h
    · split at h
      · exact .inl h
      · rcases List.mem_append.mp h with h | h
        · exact .inl h
        · exact .inr (by simp_all)
    · exact .inr (List.mem_cons_of_mem _ h)

theorem mem_of_mem_distinct {α : Type} [DecidableEq α] {l : List α} {x : α} (h : x ∈ distinct l) : x ∈ l :=
  (mem_foldl_distinct l [] x h).resolve_left List.not_mem_nil

theorem mem_destinations_call {lanes : List (Nat × Dest)} (h : ∀ x ∈ lanes, x.2.call = false) {d : Dest}
    (hd : d ∈ destinations lanes) : d.call = false := by
  obtain ⟨⟨pc, call⟩, hp, rfl⟩ := List.mem_map.mp hd
  obtain ⟨x, hx, he⟩ := List.mem_map.mp (mem_of_mem_distinct hp)
  rw [← h x hx]
  exact (congrArg Prod.snd he).symm

theorem callsNow_jump (s t : State) (es : List (Nat × W64)) : t.callsNow (dests s false es) = false := by
  rw [State.callsNow, List.any_eq_false]
  intro d hd
  rw [Bool.not_eq_true]
  refine mem_destinations_call (fun x hx => ?_) (List.mem_of_mem_take hd)
  obtain ⟨l, -, rfl⟩ := List.mem_map.mp hx
  dsimp only
  split <;> rfl

/-! ### The end of a path -/

theorem inTrap_false {s : State} (h : s.grp.trap = none) : s.inTrap = false := by simp [State.inTrap, h]

theorem inTrap_true {s : State} (h : s.grp.trap ≠ none) : s.inTrap = true := Option.isSome_iff_ne_none.mpr h

theorem exec_exit_last {s : State} (h : s.grp.live &&& ~~~s.slot.mask = 0 ∨ s.inTrap = true) : exec .exit s = .next s.endGroup := if_pos h

theorem exec_exit_more {s : State} (trap : s.grp.trap = none) (more : s.grp.live &&& ~~~s.slot.mask ≠ 0) :
    exec .exit s = .next (match s.slot.pj with
      | some j => ((s.setGrp fun g => { g with live := g.live &&& ~~~s.slot.mask }).setSlot fun x => { x with mask := 0 }).jump j
      | none => ((s.setGrp fun g => { g with live := g.live &&& ~~~s.slot.mask }).setGrp fun g => g.setSlot s.sel fun _ => {}).normalize) := by
  have hn : ¬(s.grp.live &&& ~~~s.slot.mask = 0 ∨ s.inTrap = true) := by
    rw [inTrap_false trap]
    exact not_or.mpr ⟨more, nofun⟩
  show execExit s = _
  rw [execExit]
  simp only [if_neg hn]
  cases s.slot.pj <;> rfl

/-! ### Software traps -/

/-- A trap with a handler and nothing outstanding is taken, where the path resumes. -/
theorem trapTo_taken {s : State} (c : Cause) {resume : State → State} (may : mayTrap s) (outst : (resume s).grp.outst = [])
    (wait : (resume s).mustWait = false) : s.trapTo c resume = (resume s).takeTrap c := by
  obtain ⟨trap, entry, -, -⟩ := may
  have hentry := beq_eq_false_iff_ne.mpr entry
  simp only [State.trapTo, inTrap_false trap, hentry, outst, wait, Bool.or_self, bne_self_eq_false, Bool.false_and,
    Bool.false_eq_true, if_false]

/-- A trap with a handler, and a result at another unit, is held. -/
theorem trapTo_held {s : State} (c : Cause) {resume : State → State} (waits : trapWaits s) (wait : (resume s).mustWait = true) :
    s.trapTo c resume = raisedBy (resume s) c := by
  obtain ⟨trap, entry, -⟩ := waits
  have hentry := beq_eq_false_iff_ne.mpr entry
  simp only [State.trapTo, inTrap_false trap, hentry, wait, raisedBy, Bool.or_self, Bool.true_or, Bool.false_eq_true, if_false, if_true]

theorem outst_jump (s : State) (a : W64) : (s.jump a).grp.outst = s.grp.outst := by
  rw [show (s.jump a).grp = s.grp.setSlot s.sel fun x => x.leave a s.tick from rfl]
  cases s.sel <;> rfl

theorem mustWait_jump (s : State) (a : W64) : (s.jump a).mustWait = s.mustWait := by
  simp only [State.mustWait, State.jump, State.setSlot_rtab]
  rw [show (s.setSlot fun x => x.leave a s.tick).grp = s.grp.setSlot s.sel fun x => x.leave a s.tick from rfl]
  cases s.sel <;> rfl

/-! ### The statement -/

/-- Settles O29, row by row of the table. -/
theorem controlFlow : Obligations.ControlFlow := by
  intro i s t h
  cases h with
  | br off => rw [exec_br]; rfl
  | brNz a off _ h => rw [exec_br, if_pos ((brTaken_nz s a).mpr h)]
  | brNzNot a off _ h => rw [exec_br, if_neg (mt (brTaken_nz s a).mp (not_not.mpr h))]
  | brZ a off _ h => rw [exec_br, if_pos ((brTaken_z s a).mpr h)]
  | brZNot a off _ h => rw [exec_br, if_neg (mt (brTaken_z s a).mp h)]
  | brdNone g tgt j _ h => rw [exec_brd, if_pos h, atBundle_eq]
  | brdAll g tgt j _ h all => rw [exec_brd, if_neg h, if_pos all, atBundle_eq]
  | brdSplit g tgt j _ h part free none =>
    rw [exec_brd, if_neg h, if_neg part, splitTwo_of_free ((slotFree_iff s).mpr ⟨free, none⟩), finish_ok]
  | brdCoil g tgt j _ t h part busy push =>
    have taken : s.slotFree = false := by
      rw [← Bool.not_eq_true, slotFree_iff, not_and_or, Bool.not_eq_false]
      exact busy
    rw [exec_brd, if_neg h, if_neg part, splitTwo_of_busy taken _ _ _ _ push, finish_ok]
  | call off _ t quiet fits => rw [exec_call, whenQuiet_of_quiet quiet, fits, ok_bind, finish_ok]
  | enter f _ t quiet fits => rw [exec_enter, whenQuiet_of_quiet quiet, fits, ok_bind, finish_ok]
  | ret _ f rest quiet frames res held own ok =>
    have back := returnTo_held s held
    rw [← back]
    exact exec_ret quiet frames own (fillCaller_resident s res) (back.symm ▸ ok)
  | retFill _ t link f rest quiet frames own fill ok => exact exec_ret quiet frames own fill ok
  | jts a _ t e look => rw [exec_jts, look]; rfl
  | calltScalar a _ t u e quiet look fits => exact calltScalar_next quiet look fits
  | calltScalarW1 a _ t u e quiet look fits => exact calltScalar_next quiet look fits
  | jtv a _ t u es regs look split =>
    exact dispatchLanes_next (g := none) nofun regs look (by rw [callsNow_jump]; rfl) split
  | jtvW1 g a _ t u es regs look split => exact dispatchLanes_next nofun regs look (by rw [callsNow_jump]; rfl) split
  | calltLane a _ t u es quiet regs look room split =>
    exact dispatchLanes_next (g := none) (fun _ => quiet) regs look (by rw [room, Bool.and_false]) split
  | calltLaneW1 g a _ t u es quiet regs look room split =>
    exact dispatchLanes_next (fun _ => quiet) regs look (by rw [room, Bool.and_false]) split
  | exitLast _ trap last => exact exec_exit_last (.inl last)
  | exitJoin _ j trap more pj => rw [exec_exit_more trap more, pj]
  | exitFree _ trap more pj => rw [exec_exit_more trap more, pj]
  | exitTrap _ trap => exact exec_exit_last (.inr (inTrap_true trap))
  | nop => rfl
  | yield => rfl
  | trap n _ may =>
    have ⟨_, _, outst, wait⟩ := may
    exact congrArg _ (trapTo_taken _ may outst wait)
  | svc n _ may =>
    have ⟨_, _, outst, wait⟩ := may
    exact congrArg _ (trapTo_taken _ may ((outst_jump s _).trans outst) ((mustWait_jump s _).trans wait))
  | trapDrains n _ waits =>
    have ⟨_, _, wait⟩ := waits
    exact congrArg _ (trapTo_held _ waits wait)
  | svcDrains n _ waits =>
    have ⟨_, _, wait⟩ := waits
    exact congrArg _ (trapTo_held _ waits ((mustWait_jump s _).trans wait))

end Sys2Proof.Machine
end

section
/-! PROOFS. System registers, the execution mask, trap-frame reads, RETT, waits, sleep, random-number registers (R70, R130 to R134,
R166, R167, R197). -/
namespace Sys2Proof.Machine
open Sys2Proof Sys2Proof.Statements

/-! ### System registers and the execution mask -/

theorem sysWrite_eq {s t : State} {r : SysReg} {v : W64} (h : SysWrite s r v t) : s.sysWrite r v = .ok t := by
  cases h with
  | sp _ al => simp [State.sysWrite, al]
  | sl _ al above =>
    have hlim : (decide (s.grp.priv + 4096 ≤ v)) = true := decide_eq_true above
    simp only [State.sysWrite, al, hlim, BEq.rfl, must_true, ok_bind]
  | tfp _ al => simp [State.sysWrite, al]
  | rngk => rfl
  | rngc => rfl
  | fmode _ rm res => simp [State.sysWrite, rm, res]

theorem exec_sset (r : SysReg) (a : SReg) (s : State) : exec (.sset r a) s = finish s (s.sysWrite r (s.rs a) >>= fun t => .ok (t.advance 1)) := rfl

theorem exec_exset_same {a : SReg} {s : State} (h : s.slot.mask &&& (s.rs a).extractLsb' 0 32 = s.slot.mask) :
    exec (.exset a) s = .next (s.advance 1) := by
  show execExset a s = _
  rw [execExset, if_pos h, finish_ok]

theorem exec_exset_less {a : SReg} {s t : State} {j : W64} (some' : s.slot.mask &&& (s.rs a).extractLsb' 0 32 ≠ 0)
    (less : s.slot.mask &&& (s.rs a).extractLsb' 0 32 ≠ s.slot.mask) (pj : s.slot.pj = some j)
    (push : s.pushCoil s.sel ⟨j, j, s.slot.mask, .merge, s.slot.depth, s.slot.sp⟩ = .ok t) :
    exec (.exset a) s = .next ((t.setSlot fun x => { x with mask := s.slot.mask &&& (s.rs a).extractLsb' 0 32 }).advance 1) := by
  show execExset a s = _
  simp only [execExset, if_neg less, if_neg some', pj, Slot.entry, push, ok_bind, finish_ok]

/-! ### Trap frames -/

theorem exec_tget {d : SReg} {n : BitVec 9} {s t : State} {c : TrapCtx} {bs : List Byte} (inTrap : s.grp.trap = some c)
    (st : s.cnt .st = 0) (read : s.grpRead (c.fa + BitVec.ofNat 64 (8 * n.toNat)) 8 = (.ok bs, t)) :
    exec (.tget d n) s = .next ((t.setRs d (BitVec.ofNat 64 (natOfBytes bs))).advance 1) := by
  show execTget d n s = _
  simp only [execTget, inTrap, st, ne_eq, not_true, if_false, read, finish_ok]

theorem returnTrap_eq {s : State} {c : TrapCtx} (inTrap : s.grp.trap = some c) (a : s.sel = .a) (b : s.grp.slotB.occ = false)
    (coil : s.slot.coil = []) (depth : s.slot.depth = 0) (mask : s.slot.mask = s.grp.live) (st : s.cnt .st = 0) (sm : s.cnt .sm = 0)
    (far : s.mustWait = false) : s.returnTrap = (s.returnAll fun e => e.tags.a).rettBody c := by
  simp only [State.returnTrap, inTrap, a, b, coil, depth, mask, st, sm, far, ne_eq, not_true, Bool.false_eq_true, or_self, if_false]

/-! ### Waits and sleep -/

theorem not_or_beq_zero_iff (b : Bool) (n : Nat) : (!b || n == 0) = true ↔ (b = true → n = 0) := by cases b <;> simp

theorem countersZero_iff (s : State) (m : BitVec 4) :
    s.countersZero m = true ↔ (m.getLsbD 0 = true → s.cnt .ld = 0) ∧ (m.getLsbD 1 = true → s.cnt .st = 0) ∧
      (m.getLsbD 2 = true → s.cnt .sm = 0) ∧ (m.getLsbD 3 = true → s.cnt .tl = 0) := by
  simp only [State.countersZero, Bool.and_eq_true, not_or_beq_zero_iff, and_assoc]

theorem exec_waitc (m : BitVec 4) (s : State) :
    exec (.waitc m) s = if s.countersZero m then .next (s.advance 1) else .next (s.park .drain) := rfl

theorem exec_sleep (d a : SReg) (s : State) :
    exec (.sleep d a) s = if s.rs a = 0 then .next ((s.setRs d (BitVec.ofNat 64 s.time)).advance 1)
      else .next (s.park (.sleep d (min (s.time + (s.rs a).toNat) (2 ^ 64 - 1)))) := rfl

/-- A sleep whose deadline has come, of a path that holds its bundle. -/
theorem exec_sleepDeadline_due {s : State} {d : SReg} {dl : Nat} (h : s.slot.park = .sleep d dl) (due : dl ≤ s.time)
    (runs : s.stirs = true) (held : s.slot.ibuf ≠ none) : exec .sleepDeadline s = .next (s.wakeUp d) := by
  show execSleepDeadline s = _
  simp only [execSleepDeadline, h, runs, Bool.not_true, Bool.false_eq_true, if_false, if_neg held, if_pos due]

theorem slot_setRs (s : State) (d : SReg) (v : W64) : (s.setRs d v).slot = s.slot := by
  cases hs : s.sel <;> simp only [State.slot, State.setRs_sel, hs] <;> rfl

theorem slot_setSlot (s : State) (f : Slot → Slot) : (s.setSlot f).slot = f s.slot := by
  show (s.grp.setSlot s.sel f).slot s.sel = f (s.grp.slot s.sel)
  cases s.sel <;> rfl

theorem setSlot_setSlot (s : State) (f f' : Slot → Slot) : (s.setSlot f).setSlot f' = s.setSlot (f' ∘ f) := by
  cases hs : s.sel <;> simp only [State.setSlot, State.setGrp, hs, Group.setSlot] <;> rfl

theorem wakeUp_here {s : State} (d : SReg) (here : s.slot.moved = false) :
    s.wakeUp d = (s.setRs d (BitVec.ofNat 64 s.time)).advance 1 := by
  simp only [State.wakeUp, slot_setRs, here, Bool.not_false, if_true]

theorem wakeUp_moved {s : State} (d : SReg) (moved : s.slot.moved = true) :
    s.wakeUp d = let t := (s.setRs d (BitVec.ofNat 64 s.time)).setSlot fun x => { x with moved := false }
      if s.slot.idx = s.slot.ctl % 16 + 1 then t.jump (bundle s 1) else t.park .none := by
  simp only [State.wakeUp, slot_setRs, slot_setSlot, moved, Bool.not_true, Bool.false_eq_true, if_false, State.nextBundle, bundle]
  rfl

/-- Settles O30, row by row of the table. -/
theorem systemRegisters : Obligations.SystemRegisters := by
  intro i s t h
  cases h with
  | sset r a _ t h => rw [exec_sset, sysWrite_eq h, ok_bind, finish_ok]
  | exsetSame a _ h => exact exec_exset_same h
  | exset a _ t j some' less pj push => exact exec_exset_less some' less pj push
  | tget d n _ t c bs inTrap st read => exact exec_tget inTrap st read
  | rett _ t c inTrap a b coil depth mask st sm far body =>
    exact congrArg (finish s) ((returnTrap_eq inTrap a b coil depth mask st sm far).trans body)
  | rdtime d _ h => exact if_pos h
  | waitc m _ ld st sm tl =>
    exact if_pos ((countersZero_iff s m).mpr ⟨ld, st, sm, tl⟩)
  | sleepZero d a _ h => exact if_pos h
  | sleep d a _ h => exact if_neg h
  | wakes d dl _ h due runs held here =>
    rw [exec_sleepDeadline_due h due runs held, wakeUp_here d here]
  | wakesAt d dl _ h due runs held moved word =>
    rw [exec_sleepDeadline_due h due runs held, wakeUp_moved d moved, if_neg word]
    exact congrArg _ (setSlot_setSlot _ _ _)
  | wakesNext d dl _ h due runs held moved past =>
    rw [exec_sleepDeadline_due h due runs held, wakeUp_moved d moved, if_pos past]
  | rngseed => rfl
  | rngskip => rfl
  | rng u d _ regs => exact rngOp_next 1 none u regs
  | rngW1 g u d _ regs => exact rngOp_next 3 g u regs

end Sys2Proof.Machine
end

section
/-! PROOFS. Memory accesses: what each lane reaches (R54, R169 to R171, R175), and how loads, stores, atomics and reductions issue
(R168 to R182). -/
namespace Sys2Proof.Machine
open Sys2Proof Sys2Proof.Statements

/-! ### What a lane reaches -/

theorem tyRegs_eq_memRegs (t : Ty) : tyRegs t = memRegs t := by cases t <;> rfl

theorem tyBytes_eq_memBytes {t : Ty} (h : t.isSub = false) : tyBytes t = memBytes t := by
  cases t with
  | e3m2 | e2m3 | e2m1 => cases h
  | _ => rfl

theorem tyBits_eq_subWidth {t : Ty} (h : t.isSub = true) : tyBits t = subWidth t := by
  cases t with
  | e3m2 | e2m3 | e2m1 => rfl
  | _ => cases h

/-- One register of a lane, as a 32-bit word. -/
theorem toNat_lane_word (s : State) (r : VReg) (l : Nat) : ((s.vlane r 1 l).extractLsb' 0 32).toNat = (s.vlane r 1 l).toNat := by
  have h := s.grp.vgetWide_lt (s.slot.wbase + r.toNat) 1 l
  rw [BitVec.extractLsb'_toNat, Nat.shiftRight_zero]
  exact Nat.mod_eq_of_lt h

/-- The index of a lane before scaling, as a word read signed or unsigned. -/
theorem idxOf_eq (s : State) (x : Option Idx) (l : Nat) :
    s.idxOf x l = match x with
      | none => 0
      | some i => if i.signed then ((s.vlane i.v 1 l).extractLsb' 0 32).toInt else ((s.vlane i.v 1 l).extractLsb' 0 32).toNat := by
  cases x with
  | none => rfl
  | some i => simp only [State.idxOf, ← signedOf_toNat, toNat_lane_word]

theorem idxOf_mul_scale (s : State) (x : Option Idx) (l : Nat) : s.idxOf x l * idxScale x = laneIndex s x l := by
  cases x with
  | none => rfl
  | some i => rw [idxOf_eq]; simp [laneIndex, idxScale]

theorem eaOf_eq_laneEa (s : State) (base : W64) (x : Option Idx) (off : W32) (l : Nat) : s.eaOf base x off l = laneEa s base x off l := by
  rw [State.eaOf, idxOf_mul_scale, laneEa]

theorem reach_eq_accessLane (s : State) (a : SReg) (x : Option Idx) (off : W32) (t : Ty) :
    s.reach (s.rs a) x off t = accessLane a x off t s := by
  funext l
  by_cases h : t.isSub = true
  · simp only [State.reach, accessLane, h, if_true, subLane, wrap, tyBits_eq_subWidth h, idxOf_eq]
    rfl
  · rw [Bool.not_eq_true] at h
    simp only [State.reach, accessLane, h, Bool.false_eq_true, if_false, wholeLane, tyBytes_eq_memBytes h, eaOf_eq_laneEa]

theorem reachRows_eq_rowLane (s : State) (x : Option Idx) (off : W32) (t : Ty) : s.reachRows x off t = rowLane s x off t := by
  funext l
  simp only [State.reachRows, rowLane, eaOf_eq_laneEa, tyRegs_eq_memRegs]

/-! ### Forms of accesses -/

/-- The load of an access, in local memory or elsewhere. -/
def loadAccess (isLocal : Bool) (a : Access) (s : State) : Out :=
  if isLocal then loadLocal s a.words a.guard a.ty a.sc a.ord a.idx a.d (a.reach s)
  else loadGlobal s a.words a.guard a.priv a.ty a.sc a.ord a.cp a.idx a.d (a.reach s)

/-- The store of an access. -/
def storeAccess (isLocal : Bool) (a : Access) (s : State) : Out :=
  if isLocal then storeLocal s a.words a.guard a.ty a.sc a.ord a.idx a.d (a.reach s)
  else storeGlobal s a.words a.guard a.priv a.ty a.sc a.ord a.cp a.idx a.d (a.reach s)

theorem exec_loadForm {i : Instr} {isLocal : Bool} {a : Access} (h : LoadForm i isLocal a) (s : State) : exec i s = loadAccess isLocal a s := by
  cases h with
  | ld m d => show execLd m d s = _; rw [execLd, reach_eq_accessLane]; rfl
  | ldW1 g ty sc ord cp m off d => show execLdW1 g ty sc ord cp m off d s = _; rw [execLdW1, reach_eq_accessLane]; rfl
  | ldp x d => show execLdp x d s = _; rw [execLdp, reachRows_eq_rowLane]; rfl
  | ldpW1 g ty x off d => show execLdpW1 g ty x off d s = _; rw [execLdpW1, reachRows_eq_rowLane]; rfl
  | ldg m d => show execLdg m d s = _; rw [execLdg, reach_eq_accessLane]; rfl
  | ldgW1 g ty sc ord cp m off d => show execLdgW1 g ty sc ord cp m off d s = _; rw [execLdgW1, reach_eq_accessLane]; rfl

theorem exec_storeForm {i : Instr} {isLocal : Bool} {a : Access} (h : StoreForm i isLocal a) (s : State) : exec i s = storeAccess isLocal a s := by
  cases h with
  | st m d => show execSt m d s = _; rw [execSt, reach_eq_accessLane]; rfl
  | stW1 g ty sc ord cp m off d => show execStW1 g ty sc ord cp m off d s = _; rw [execStW1, reach_eq_accessLane]; rfl
  | stp x d => show execStp x d s = _; rw [execStp, reachRows_eq_rowLane]; rfl
  | stpW1 g ty x off d => show execStpW1 g ty x off d s = _; rw [execStpW1, reachRows_eq_rowLane]; rfl
  | stg m d => show execStg m d s = _; rw [execStg, reach_eq_accessLane]; rfl
  | stgW1 g ty sc ord cp m off d => show execStgW1 g ty sc ord cp m off d s = _; rw [execStgW1, reach_eq_accessLane]; rfl

/-! ### Loads -/

theorem loadAccess_next {a : Access} {isLocal : Bool} {s : State} {accs : List LaneAcc}
    (regs : s.vcheck (idxReads a.idx) [(a.d, memRegs a.ty)] = .ok ()) (some' : a.lanes s ≠ 0)
    (room : s.cnt (loadCounter isLocal) < 63) (ok : a.passes isLocal (·.r) anyKind s accs) :
    loadAccess isLocal a s = .next (((addResult s (a.pending s (loadCounter isLocal) accs
      (if isLocal then .loadLocal a.ty else .load a.ty a.sc a.cp (acquires a.ord)))).advance a.words).acquireFor a.ord a.sc) := by
  have hroom := room_ok s _ room
  have hlanes : s.active a.guard ≠ 0 := some'
  cases isLocal with
  | true =>
    have hok : s.checkLocal a.sc (reaches (s.active a.guard) (a.reach s)) = .ok accs := ok
    simp only [loadCounter, if_true] at hroom
    simp only [loadAccess, loadLocal, if_true, tyRegs_eq_memRegs, regs, ok_bind, if_neg hlanes, hroom, hok, finish_ok]
    rfl
  | false =>
    have hok : s.checkGlobal a.priv (reaches (s.active a.guard) (a.reach s)) (·.r) anyKind = .ok accs := ok
    simp only [loadCounter, Bool.false_eq_true, if_false] at hroom
    simp only [loadAccess, loadGlobal, memFinish, Bool.false_eq_true, if_false, tyRegs_eq_memRegs, regs, ok_bind, if_neg hlanes, hroom,
      hok, finish_ok]
    rfl

theorem loadAccess_empty {a : Access} {isLocal : Bool} {s : State} (regs : s.vcheck (idxReads a.idx) [(a.d, memRegs a.ty)] = .ok ())
    (none : a.lanes s = 0) : loadAccess isLocal a s = .next ((s.advance a.words).acquireFor a.ord a.sc) := by
  have hlanes : s.active a.guard = 0 := none
  cases isLocal with
  | true => simp only [loadAccess, loadLocal, if_true, tyRegs_eq_memRegs, regs, ok_bind, if_pos hlanes, finish_ok]
  | false =>
    simp only [loadAccess, loadGlobal, memFinish, Bool.false_eq_true, if_false, tyRegs_eq_memRegs, regs, ok_bind, if_pos hlanes, finish_ok]

/-- Settles O34: both forms of load take the same checks, then their result is outstanding. -/
theorem loadsIssue : Obligations.LoadsIssue := by
  intro i s t h
  cases h with
  | load isLocal a _ accs form regs some' room ok => exact (exec_loadForm form s).trans (loadAccess_next regs some' room ok)
  | empty isLocal a _ form regs none => exact (exec_loadForm form s).trans (loadAccess_empty regs none)

/-! ### Stores -/

theorem overlapsWait_of_unblocked {s : State} {isLocal : Bool} {accs : List LaneAcc} (h : Unblocked s isLocal accs) :
    s.overlapsWait isLocal accs = .ok () := if_neg (Bool.not_eq_true _ ▸ h)

theorem storeAccess_next {a : Access} {isLocal : Bool} {s t : State} {accs : List LaneAcc}
    (regs : s.vcheck ((a.d, memRegs a.ty) :: idxReads a.idx) [] = .ok ()) (some' : a.lanes s ≠ 0)
    (room : s.cnt (storeCounter isLocal) < 63) (ok : a.passes isLocal (·.w) anyKind s accs)
    (order : s.releaseFor a.ord a.sc = .ok t) (clear : Unblocked t isLocal accs) :
    storeAccess isLocal a s = .next (a.stored isLocal accs (t.returnOverlaps isLocal accs)) := by
  have hroom := room_ok s _ room
  have hlanes : s.active a.guard ≠ 0 := some'
  have hclear := overlapsWait_of_unblocked clear
  cases isLocal with
  | true =>
    have hok : s.checkLocal a.sc (reaches (s.active a.guard) (a.reach s)) = .ok accs := ok
    simp only [storeCounter, if_true] at hroom
    simp only [storeAccess, storeLocal, if_true, tyRegs_eq_memRegs, regs, ok_bind, if_neg hlanes, hroom, hok, order, hclear, finish_ok]
    rfl
  | false =>
    have hok : s.checkGlobal a.priv (reaches (s.active a.guard) (a.reach s)) (·.w) anyKind = .ok accs := ok
    simp only [storeCounter, Bool.false_eq_true, if_false] at hroom
    simp only [storeAccess, storeGlobal, memFinish, Bool.false_eq_true, if_false, tyRegs_eq_memRegs, regs, ok_bind, if_neg hlanes, hroom,
      hok, order, hclear, finish_ok]
    rfl

theorem storeAccess_empty {a : Access} {isLocal : Bool} {s t : State}
    (regs : s.vcheck ((a.d, memRegs a.ty) :: idxReads a.idx) [] = .ok ()) (none : a.lanes s = 0)
    (order : s.releaseFor a.ord a.sc = .ok t) : storeAccess isLocal a s = .next (t.advance a.words) := by
  have hlanes : s.active a.guard = 0 := none
  cases isLocal with
  | true => simp only [storeAccess, storeLocal, if_true, tyRegs_eq_memRegs, regs, ok_bind, if_pos hlanes, order, finish_ok]
  | false =>
    simp only [storeAccess, storeGlobal, memFinish, Bool.false_eq_true, if_false, tyRegs_eq_memRegs, regs, ok_bind, if_pos hlanes, order,
      finish_ok]

/-- Settles O35: both forms of store take the same checks, release, and are queued. -/
theorem storesIssue : Obligations.StoresIssue := by
  intro i s t h
  cases h with
  | store isLocal a _ accs t form regs some' room ok order clear =>
    exact (exec_storeForm form s).trans (storeAccess_next regs some' room ok order clear)
  | empty isLocal a _ t form regs none order => exact (exec_storeForm form s).trans (storeAccess_empty regs none order)

/-! ### Atomics and reductions -/

/-- The checks of an atomic in local memory or elsewhere (R172, R181). -/
def atomCheck (isLocal : Bool) (a : Access) (s : State) : Res (List LaneAcc) :=
  if isLocal then s.checkLocal a.sc (a.reaches s) else s.checkGlobal a.priv (a.reaches s) (fun x => x.r && x.w) (atomKind a.sc)

/-- The atomic of an access. -/
def atomAccess (isLocal : Bool) (op : AtomOp) (c : VReg) (a : Access) (s : State) : Out :=
  finish s do
    s.vcheck ((a.d, memRegs a.ty) :: (if op = .cas then [(c, memRegs a.ty)] else []) ++ idxReads a.idx) [(a.d, memRegs a.ty)]
    if a.lanes s = 0 then do
      let t ← s.releaseFor a.ord a.sc
      .ok ((t.advance 3).acquireFor a.ord a.sc)
    else do
      s.room (loadCounter isLocal)
      let accs ← atomCheck isLocal a s
      let t ← s.releaseFor a.ord a.sc
      .ok (a.atomic isLocal op c (a.lanes s) accs t)

theorem exec_atomForm {i : Instr} {isLocal : Bool} {op : AtomOp} {c : VReg} {a : Access} (h : AtomForm i isLocal op c a) (s : State) :
    exec i s = atomAccess isLocal op c a s := by
  cases h with
  | atom g ty sc ord cp _ m off d _ =>
    show execAtom g ty sc ord cp op m off d c s = _
    simp only [execAtom, tyRegs_eq_memRegs, reach_eq_accessLane]
    rfl
  | atomg g ty sc ord _ m off d _ =>
    show execAtomg g ty sc ord op m off d c s = _
    simp only [execAtomg, tyRegs_eq_memRegs, reach_eq_accessLane]
    rfl

/-- The reduction of an access. -/
def redAccess (op : AtomOp) (a : Access) (s : State) : Out :=
  finish s do
    s.vcheck ((a.d, memRegs a.ty) :: idxReads a.idx) []
    if a.lanes s = 0 then do
      let t ← s.releaseFor a.ord a.sc
      .ok (t.advance 3)
    else do
      s.room .st
      let accs ← s.checkGlobal a.priv (a.reaches s) (·.w) (atomKind a.sc)
      let t ← s.releaseFor a.ord a.sc
      t.overlapsWait false accs
      .ok (a.reduced op accs (t.returnOverlaps false accs))

theorem exec_redForm {i : Instr} {op : AtomOp} {a : Access} (h : RedForm i op a) (s : State) : exec i s = redAccess op a s := by
  cases h with
  | red g ty sc ord cp _ m off d =>
    show execRed g ty sc ord cp op m off d s = _
    simp only [execRed, tyRegs_eq_memRegs, reach_eq_accessLane]
    rfl

theorem atomAccess_next {a : Access} {isLocal : Bool} {op : AtomOp} {c : VReg} {s t : State} {accs : List LaneAcc}
    (regs : s.vcheck ((a.d, memRegs a.ty) :: (if op = .cas then [(c, memRegs a.ty)] else []) ++ idxReads a.idx)
      [(a.d, memRegs a.ty)] = .ok ())
    (some' : a.lanes s ≠ 0) (room : s.cnt (loadCounter isLocal) < 63)
    (ok : a.passes isLocal (fun x => x.r && x.w) (atomKind a.sc) s accs) (order : s.releaseFor a.ord a.sc = .ok t) :
    atomAccess isLocal op c a s = .next (a.atomic isLocal op c (a.lanes s) accs t) := by
  have hok : atomCheck isLocal a s = .ok accs := by cases isLocal <;> exact ok
  simp only [atomAccess, regs, ok_bind, if_neg some', room_ok s _ room, hok, order, finish_ok]

theorem redAccess_next {a : Access} {op : AtomOp} {s t : State} {accs : List LaneAcc}
    (regs : s.vcheck ((a.d, memRegs a.ty) :: idxReads a.idx) [] = .ok ()) (some' : a.lanes s ≠ 0) (room : s.cnt .st < 63)
    (ok : a.passes false (·.w) (atomKind a.sc) s accs) (order : s.releaseFor a.ord a.sc = .ok t) (clear : Unblocked t false accs) :
    redAccess op a s = .next (a.reduced op accs (t.returnOverlaps false accs)) := by
  have hok : s.checkGlobal a.priv (a.reaches s) (·.w) (atomKind a.sc) = .ok accs := ok
  simp only [redAccess, regs, ok_bind, if_neg some', room_ok s _ room, hok, order, overlapsWait_of_unblocked clear, finish_ok]

/-- Settles O36, by the outcomes of an atomic and of a reduction. -/
theorem atomicsIssue : Obligations.AtomicsIssue := by
  intro i s t h
  cases h with
  | atomic isLocal op c a _ accs t form regs some' room ok order =>
    exact (exec_atomForm form s).trans (atomAccess_next regs some' room ok order)
  | atomicEmpty isLocal op c a _ t form regs none order =>
    rw [exec_atomForm form]
    simp only [atomAccess, regs, ok_bind, if_pos none, order, finish_ok]
  | red op a _ accs t form regs some' room ok order clear =>
    exact (exec_redForm form s).trans (redAccess_next regs some' room ok order clear)
  | redEmpty op a _ t form regs none order =>
    rw [exec_redForm form]
    simp only [redAccess, regs, ok_bind, if_pos none, order, finish_ok]

end Sys2Proof.Machine
end

section
/-! PROOFS. Fences, cache control, waiting on a word, WAKE (R185 to R188). -/
namespace Sys2Proof.Machine
open Sys2Proof Sys2Proof.Statements

/-! ### What the data side of the machine leaves alone

Stores, fills and write-backs move bytes between the queue, the caches and the memories. Everything else of the state is the machine's
front side. -/

/-- A state without its data side; `host` says whether host memory, with the counters that its writes count, is left out as well. -/
def State.side (host : Bool) (s : State) : State :=
  { s with
    mem := [], poison := [], kills := [], l1 := [], l2 := [], wbuf := [], stackUse := Vector.replicate 12 0, called := [], chq := []
    credits := [], reqs := 0, hmem := if host then [] else s.hmem, vfs := if host then [] else s.vfs }

theorem foldl_side {α : Type} {host : Bool} {f : State → α → State} (l : List α) (hf : ∀ s, ∀ x ∈ l, (f s x).side host = s.side host) (s : State) :
    (l.foldl f s).side host = s.side host := by
  induction l generalizing s with
  | nil => rfl
  | cons x r ih => exact (ih (fun s y hy => hf s y (List.mem_cons_of_mem _ hy)) _).trans (hf s x List.mem_cons_self)

section
variable (host : Bool) (s : State)

@[simp] theorem touch_side (pas : List Nat) : (s.touch pas).side host = s.side host := rfl
@[simp] theorem basePut_side (part pa : Nat) (bs : List Byte) : (s.basePut part pa bs).side host = s.side host := by
  unfold State.basePut
  rfl
@[simp] theorem charge_side (part die n m : Nat) : (s.charge part die n m).side host = s.side host := by rw [charge_frame]; rfl
@[simp] theorem request_side (part die n : Nat) : (s.request part die n).side host = s.side host := charge_side host s part die 2 n
@[simp] theorem l2Set_side (die part sec : Nat) (f : L2Sector → L2Sector) : (s.l2Set die part sec f).side host = s.side host := rfl
@[simp] theorem l2Drop_side (p : L2Sector → Bool) : (s.l2Drop p).side host = s.side host := rfl
@[simp] theorem l1Drop_side (p : L1Sector → Bool) : (s.l1Drop p).side host = s.side host := rfl
@[simp] theorem l2Touch_side (die part sec : Nat) : (s.l2Touch die part sec).side host = s.side host := rfl
@[simp] theorem evictLine_side (die part line : Nat) : (s.evictLine die part line).side host = s.side host := rfl
@[simp] theorem l1Set_side (w : Here) (sec : Nat) (f : List Byte → List Byte) : (s.l1Set w sec f).side host = s.side host := rfl
@[simp] theorem l1DropSec_side (w : Here) (sec : Nat) : (s.l1DropSec w sec).side host = s.side host := rfl
@[simp] theorem l1DropLine_side (w : Here) (line : Nat) : (s.l1DropLine w line).side host = s.side host := rfl

@[simp] theorem basePutMasked_side (part sec : Nat) (bs : List Byte) (mask : LaneMask) :
    (s.basePutMasked part sec bs mask).side host = s.side host :=
  foldl_side _ (fun s i _ => by split <;> rfl) _

@[simp] theorem baseStore_side (die part sec : Nat) (bs : List Byte) (mask : LaneMask) :
    (s.baseStore die part sec bs mask).side host = s.side host :=
  basePutMasked_side host _ part sec bs mask

@[simp] theorem ackEntry_side (w : WbEntry) : (s.ackEntry w).side host = s.side host := by
  have h : ((s.basePutMasked w.part w.sec w.bytes w.mask).charge w.part w.die 2 32).side host = s.side host := by simp
  unfold State.ackEntry
  split
  · exact h
  · exact h

@[simp] theorem ackAll_side (p : WbEntry → Bool) : (s.ackAll p).side host = s.side host :=
  foldl_side (host := host) (f := State.ackEntry) _ (fun s w _ => ackEntry_side host s w) s

@[simp] theorem fetchSector_side (die part sec : Nat) : (s.fetchSector die part sec).2.2.side host = s.side host := by
  unfold State.fetchSector State.chargeFetch
  split <;> simp

@[simp] theorem l2New_side (x : L2Sector) : (s.l2New x).side host = s.side host := by
  unfold State.l2New
  split
  · rfl
  · dsimp only
    split
    · rfl
    · split <;> rfl

@[simp] theorem readDie_side (die part vf sec : Nat) (cp : Cp) : (s.readDie die part vf sec cp).2.2.side host = s.side host := by
  unfold State.readDie
  split
  · dsimp only
    split
    · rfl
    · split
      · rfl
      · split
        · split <;> simp
        · simp
  · dsimp only
    split
    · simp
    · split <;> simp

@[simp] theorem storeDie_side (die part vf sec : Nat) (cp : Cp) (bs : List Byte) (mask : LaneMask) :
    (s.storeDie die part vf sec cp bs mask).side host = s.side host := by
  unfold State.storeDie
  split
  · simp
  · split <;> simp

@[simp] theorem storePkg_side (die part vf sec : Nat) (bs : List Byte) (mask : LaneMask) :
    (s.storePkg die part vf sec bs mask).side host = s.side host := by
  unfold State.storePkg
  dsimp only
  split <;> simp

@[simp] theorem readPkg_side (die part sec : Nat) : (s.readPkg die part sec).2.2.side host = s.side host := by
  have h : ((s.ackAll fun w => w.die == die && w.sec == sec).fetchSector die part sec).2.2.side host = s.side host := by simp
  unfold State.readPkg
  dsimp only
  split
  · split
    · exact h
    · split
      · split
        · exact h
        · exact h
      · exact h
  · exact h

@[simp] theorem cleanPart_side (p : L2Sector → Bool) : (s.cleanPart p).side host = s.side host := by
  refine foldl_side _ (fun s x _ => ?_) s
  split
  · rfl
  · simp [State.cleanSector]

end

/-! ### Entries of the store queue performed -/

/-- No lane of a queued entry writes to host memory. -/
def StoreOp.avoidsHost (o : StoreOp) : Prop :=
  ∀ ls, StoreOp.storedLanes o = some ls → ∀ l ∈ ls, ∀ p ∈ l.pieces, p.kind ≠ .host

theorem storePiece_side {host : Bool} (s : State) (w : Here) (sc : Scope) (cp : Cp) (p : Piece) (bs : List Byte)
    (h : host = false → p.kind ≠ .host) : (s.storePiece w sc cp p bs).side host = s.side host := by
  unfold State.storePiece
  cases hk : p.kind with
  | atomicHome => simp
  | host =>
    cases host with
    | false => exact absurd hk (h rfl)
    | true =>
      dsimp only
      rw [request_side, State.hostWrite]
      split
      · rfl
      · dsimp only
        split <;> rfl
  | normal =>
    dsimp only
    split <;> simp

@[simp] theorem readPiece_side (host : Bool) (s : State) (w : Here) (wide : Bool) (cp : Cp) (p : Piece) :
    (s.readPiece w wide cp p).2.2.side host = s.side host := by
  unfold State.readPiece
  split
  · simp
  · simp
  · dsimp only
    split <;> simp

theorem storeSub_side {host : Bool} (s : State) (w : Here) (p : Piece) (merge : List Byte → List Byte) :
    (s.storeSub w p merge).side host = s.side host := by
  unfold State.storeSub
  rw [request_side, basePut_side, l2Set_side]
  rfl

theorem storeLane_side {host : Bool} (s : State) (w : Here) (sc : Scope) (cp : Cp) (t : Ty) (l : LaneAcc)
    (h : host = false → ∀ p ∈ l.pieces, p.kind ≠ .host) : (s.storeLane w sc cp t l).side host = s.side host := by
  refine foldl_side _ (fun s i _ => ?_) s
  split
  · rfl
  · next p hp =>
    have hkind (hh : host = false) : p.kind ≠ .host := h hh p (List.mem_of_getElem? hp)
    split
    · exact storeSub_side ..
    · split
      · exact (storePiece_side (s.readPiece w false cp p).2.2 w sc cp p _ hkind).trans (readPiece_side host s w false cp p)
      · exact storePiece_side s w sc cp p _ hkind

theorem atomicStep_side {host : Bool} (s : State) (w : Here) (op : AtomOp) (t : Ty) (cp : Cp) (p : Piece) (b c : Nat)
    (h : host = false → p.kind ≠ .host) : (s.atomicStep w op t cp p b c).2.2.side host = s.side host := by
  unfold State.atomicStep
  dsimp only
  split
  · exact readPiece_side host s w false cp p
  · have stored (bs : List Byte) : ((s.readPiece w false cp p).2.2.storePiece w .die cp p bs).side host = s.side host :=
      (storePiece_side _ w .die cp p bs h).trans (readPiece_side host s w false cp p)
    split
    · rw [l1DropSec_side, stored]
    · exact stored _

/-- A queued entry for a gang's local memory. -/
def StoreOp.isTile (o : StoreOp) : Bool :=
  match o.kind with
  | .tile _ _ _ => true
  | _ => false

/-- Performing an entry, but of local memory, moves data alone. -/
theorem performEntry_side {host : Bool} (s : State) (o : StoreOp) (tile : o.isTile = false) (h : host = false → o.avoidsHost) :
    (s.performEntry o).side host = s.side host := by
  simp only [StoreOp.isTile] at tile
  simp only [StoreOp.avoidsHost, StoreOp.storedLanes] at h
  unfold State.performEntry
  dsimp only
  cases hk : o.kind with
  | store sc cp lanes t =>
    simp only [hk, Option.some.injEq, forall_eq'] at h
    exact foldl_side _ (fun s l hl => storeLane_side s _ sc cp t l fun hh => h hh l hl) s
  | red op t sc cp lanes =>
    simp only [hk, Option.some.injEq, forall_eq'] at h
    refine foldl_side _ (fun s l hl => ?_) s
    split
    · next p r hp => exact atomicStep_side s _ op t cp p _ _ fun hh => h hh l hl p (hp ▸ List.mem_cons_self)
    · rfl
  | tile key t lanes => simp [hk] at tile
  | cctl op lines =>
    refine foldl_side _ (fun s line _ => ?_) s
    split <;> simp
  | remote t lanes => rfl

/-- The sectors of an entry are all of memory, or all of local memory. -/
theorem secs_of_memory {o : StoreOp} {x : Nat × Nat} (hx : x ∈ o.secs) (h0 : x.1 = 0) : o.isTile = false ∧ ∀ y ∈ o.secs, y.1 = 0 := by
  have lanes (space : Nat) (ls : List LaneAcc) (y : Nat × Nat) (h : y ∈ ls.flatMap fun l => l.pieces.map fun p => (space, secOf p.pa)) :
      y.1 = space := by
    obtain ⟨l, -, hl⟩ := List.mem_flatMap.mp h
    obtain ⟨p, -, rfl⟩ := List.mem_map.mp hl
    rfl
  simp only [StoreOp.secs, StoreOp.isTile] at hx ⊢
  cases hk : o.kind with
  | store sc cp ls t => exact ⟨rfl, lanes 0 ls⟩
  | red op t sc cp ls => exact ⟨rfl, lanes 0 ls⟩
  | tile key t ls =>
    rw [hk] at hx
    exact absurd ((lanes (key + 1) ls x hx).symm.trans h0) (Nat.succ_ne_zero key)
  | cctl op lines =>
    refine ⟨rfl, fun y hy => ?_⟩
    obtain ⟨l, -, hl⟩ := List.mem_flatMap.mp hy
    obtain ⟨k, -, rfl⟩ := List.mem_map.mp hl
    rfl
  | remote t ls => exact ⟨rfl, nofun⟩

/-- What a split of the queue by sectors of memory keeps true as it goes through the queue from its end. -/
structure DueFor (q : List StoreOp) (r : List StoreOp × List StoreOp × List (Nat × Nat)) : Prop where
  due : ∀ o ∈ r.1, o ∈ q ∧ o.isTile = false
  rest : ∀ o ∈ r.2.1, o ∈ q
  secs : ∀ x ∈ r.2.2, x.1 = 0

/-- One entry of the queue placed among those due or among the rest. -/
def dueStep (p : StoreOp → Bool) (o : StoreOp) (r : List StoreOp × List StoreOp × List (Nat × Nat)) :
    List StoreOp × List StoreOp × List (Nat × Nat) :=
  if p o && o.secs.any (fun x => x ∈ r.2.2) then (o :: r.1, r.2.1, r.2.2 ++ o.secs) else (r.1, o :: r.2.1, r.2.2)

theorem dueEntries_eq (p : StoreOp → Bool) (q : List StoreOp) (secs : List (Nat × Nat)) :
    dueEntries p q secs = ((q.foldr (dueStep p) ([], [], secs)).1, (q.foldr (dueStep p) ([], [], secs)).2.1) := rfl

theorem DueFor.step {q : List StoreOp} {r : List StoreOp × List StoreOp × List (Nat × Nat)} (h : DueFor q r) (p : StoreOp → Bool)
    (o : StoreOp) : DueFor (o :: q) (dueStep p o r) := by
  obtain ⟨hdue, hrest, hsecs⟩ := h
  unfold dueStep
  split
  · next hp =>
    simp only [Bool.and_eq_true, List.any_eq_true, decide_eq_true_eq] at hp
    obtain ⟨-, x, hx, hmem⟩ := hp
    obtain ⟨htile, hall⟩ := secs_of_memory hx (hsecs x hmem)
    refine ⟨?_, fun o' h => List.mem_cons_of_mem _ (hrest o' h), fun y hy => (List.mem_append.mp hy).elim (hsecs y) (hall y)⟩
    rintro o' (_ | ⟨_, h⟩)
    · exact ⟨List.mem_cons_self, htile⟩
    · exact ⟨List.mem_cons_of_mem _ (hdue o' h).1, (hdue o' h).2⟩
  · refine ⟨fun o' h => ⟨List.mem_cons_of_mem _ (hdue o' h).1, (hdue o' h).2⟩, ?_, hsecs⟩
    rintro o' (_ | ⟨_, h⟩)
    · exact List.mem_cons_self
    · exact List.mem_cons_of_mem _ (hrest o' h)

theorem dueFor_foldr (p : StoreOp → Bool) (q : List StoreOp) (secs : List Nat) :
    DueFor q (q.foldr (dueStep p) ([], [], secs.map fun x => (0, x))) := by
  induction q with
  | nil => exact ⟨by simp, by simp, by simp⟩
  | cons o q ih => exact ih.step p o

/-- An entry due before some sectors of memory is not of local memory. -/
theorem dueEntries_spec (p : StoreOp → Bool) (q : List StoreOp) (secs : List Nat) :
    (∀ o ∈ (dueEntries p q (secs.map fun x => (0, x))).1, o ∈ q ∧ o.isTile = false) ∧
      ∀ o ∈ (dueEntries p q (secs.map fun x => (0, x))).2, o ∈ q := by
  rw [dueEntries_eq]
  exact ⟨(dueFor_foldr p q secs).due, (dueFor_foldr p q secs).rest⟩

/-! ### Reads of memory -/

/-- From one state to another, data have moved and entries have left the store queue. -/
def Settled (host : Bool) (s t : State) : Prop := ∃ q, (∀ o ∈ q, o ∈ s.wq) ∧ t.side host = ({ s with wq := q } : State).side host

theorem Settled.of_side {host : Bool} {s t : State} (h : t.side host = s.side host) : Settled host s t := ⟨s.wq, fun _ ho => ho, h⟩

theorem Settled.side {host : Bool} {s t u : State} (h : Settled host s t) (e : u.side host = t.side host) : Settled host s u := by
  obtain ⟨q, hq, ht⟩ := h
  exact ⟨q, hq, e.trans ht⟩

theorem Settled.trans {host : Bool} {s t u : State} (h : Settled host s t) (k : Settled host t u) : Settled host s u := by
  obtain ⟨q, hq, ht⟩ := h
  obtain ⟨r, hr, hu⟩ := k
  have hwq : t.wq = q := congrArg State.wq ht
  refine ⟨r, fun o ho => hq o (hwq ▸ hr o ho), hu.trans ?_⟩
  exact congrArg (fun x : State => { x with wq := r }) ht

theorem Settled.wq {host : Bool} {s t : State} (h : Settled host s t) : ∀ o ∈ t.wq, o ∈ s.wq := by
  obtain ⟨q, hq, ht⟩ := h
  have hwq : t.wq = q := congrArg State.wq ht
  exact hwq ▸ hq

theorem foldl_settled {α : Type} {host : Bool} {f : State → α → State} (l : List α) {P : State → Prop} (s : State) (hs : P s)
    (keeps : ∀ s t, P s → Settled host s t → P t) (hf : ∀ s, P s → ∀ x ∈ l, Settled host s (f s x)) : Settled host s (l.foldl f s) := by
  induction l generalizing s with
  | nil => exact .of_side rfl
  | cons x r ih =>
    have h := hf s hs x List.mem_cons_self
    exact h.trans (ih (f s x) (keeps s _ hs h) fun s hs y hy => hf s hs y (List.mem_cons_of_mem _ hy))

/-- Where host memory is not left out, no queued entry writes to it. -/
def State.HostFree (host : Bool) (s : State) : Prop := host = false → ∀ o ∈ s.wq, o.avoidsHost

theorem State.HostFree.settled {host : Bool} {s t : State} (hs : s.HostFree host) (h : Settled host s t) : t.HostFree host :=
  fun hh o ho => hs hh o (h.wq o ho)

theorem drainSecs_settled {host : Bool} {s : State} (w : Here) (secs : List Nat) (h : s.HostFree host) : Settled host s (s.drainSecs w secs) := by
  obtain ⟨due, rest⟩ := dueEntries_spec (fun o => o.ofCore w) s.wq secs
  exact ⟨_, rest, foldl_side (f := State.performEntry) _ (fun s o ho => performEntry_side s o (due o ho).2 fun hh => h hh o (due o ho).1) _⟩

@[simp] theorem l1Fill_side (host : Bool) (s : State) (w : Here) (cp : Cp) (sec : Nat) (bs : List Byte) :
    (s.l1Fill w cp sec bs).side host = s.side host := by
  have room : (s.l1Room w sec).side host = s.side host := by
    unfold State.l1Room
    dsimp only
    split
    · rfl
    · split <;> rfl
  exact room

/-- A read at L2 or at the base die. -/
theorem readPoint_side (host wide : Bool) (s : State) (die part vf sec : Nat) (cp : Cp) :
    (if wide then s.readPkg die part sec else s.readDie die part vf sec cp).2.2.side host = s.side host := by
  split <;> simp

theorem loadPiece_settled {host : Bool} {s : State} (w : Here) (sc : Scope) (cp : Cp) (p : Piece) (h : s.HostFree host) :
    Settled host s (s.loadPiece w sc cp p).2.2 := by
  have drain (secs : List Nat) : Settled host s (s.drainSecs w secs) := drainSecs_settled w secs h
  have point := readPoint_side host (isWide sc) (s.drainSecs w [secOf p.pa]) w.die w.part w.vf (secOf p.pa) cp
  unfold State.loadPiece
  split
  · exact (drain _).side (readPiece_side host _ w true .dflt p)
  · dsimp only
    split
    · split <;> exact .of_side rfl
    · refine (drain [secOf p.pa]).side ?_
      generalize (if isWide sc then (s.drainSecs w [secOf p.pa]).readPkg w.die w.part (secOf p.pa)
        else (s.drainSecs w [secOf p.pa]).readDie w.die w.part w.vf (secOf p.pa) cp) = r at point
      split
      · exact point
      · split
        · dsimp only
          split
          · exact point
          · exact point
          · exact point
          · rw [l1Fill_side, point]
        · dsimp only
          split
          · exact point
          · split <;> exact point

theorem Settled.grp {host : Bool} {s t : State} (h : Settled host s t) : t.grp = s.grp := by
  obtain ⟨q, -, ht⟩ := h
  exact (congrArg State.grp ht :)

/-! ### PREF (R184) -/

theorem prefLane_settled {host : Bool} {s : State} (cp : Cp) (ea : W64) (lane : Nat) (h : s.HostFree host) :
    Settled host s (s.prefLane cp ea lane) := by
  unfold State.prefLane
  dsimp only
  split
  · split
    · exact .of_side rfl
    · split
      · exact (drainSecs_settled _ _ h).side (readDie_side ..)
      · exact loadPiece_settled _ .grp cp _ h
  · exact .of_side rfl

theorem exec_prefForm {i : Instr} {g : Option Guard} {x : Option Idx} {n : Nat} (h : PrefForm i g x n) (s : State)
    (regs : s.vcheck (idxReads x) [] = .ok ()) : ∃ t, exec i s = .next (t.advance n) ∧ ∀ host, s.HostFree host → Settled host s t := by
  have lanes (cp : Cp) (l : List (Nat × W64)) (host : Bool) (hs : s.HostFree host) :
      Settled host s (l.foldl (fun t (l, ea) => t.prefLane cp ea l) s) :=
    foldl_settled l s hs (fun s t hs ht => hs.settled ht) fun s hs x _ => prefLane_settled cp x.2 x.1 hs
  have fetched (words : Nat) (g : Option Guard) (cp : Cp) (m : MemOp) (off : W32) (hm : s.vcheck (idxReads m.idx) [] = .ok ()) :
      ∃ t, prefetch s words g cp m off = .next (t.advance words) ∧ ∀ host, s.HostFree host → Settled host s t := by
    simp only [prefetch, hm, ok_bind, finish_ok]
    exact ⟨_, rfl, lanes cp _⟩
  cases h with
  | plain m => exact fetched 1 none .dflt m 0 regs
  | w1 g cp m off => exact fetched 3 g cp m off regs

/-- Going on after a prefetch leaves what going on at once leaves. -/
theorem Settled.prefetched {s t : State} (n : Nat) (h : Settled true s t) : Prefetched s (t.advance n) n := by
  obtain ⟨q, -, ht⟩ := h
  have hgrp : (t.advance n).grp = (s.advance n).grp := (congrArg (fun x : State => (x.advance n).grp) ht :)
  exact {
    pc := (congrArg (fun x : State => (x.advance n).slot) ht :)
    regs := hgrp
    others := (congrArg (fun x : State => (x.advance n).groups) ht :)
    gangs := (congrArg (fun x : State => (x.advance n).gangs) ht :)
    launches := (congrArg (fun x : State => (x.advance n).launches) ht :)
    ctxs := (congrArg (fun x : State => (x.advance n).ctxs) ht :) }

/-- Settles O39: a prefetch settles queued stores and fills caches, and the path goes on. -/
theorem prefetches : Obligations.Prefetches := by
  intro i g x n s form regs
  obtain ⟨t, ht, settled⟩ := exec_prefForm form s regs
  refine ⟨_, ht, (settled true nofun).prefetched n, fun free => ?_⟩
  obtain ⟨q, -, hside⟩ := settled false fun _ o ho => free o ho
  exact (congrArg (fun x : State => (x.advance n).hmem) hside :)

/-! ### Fences -/

theorem exec_fence (sc : Scope) (ord : Order) (s : State) :
    exec (.fence sc ord) s = finish s (if ord = .acq then .ok ((s.advance 3).acquire sc)
      else s.release sc >>= fun t => .ok (if ord = .rel then t.advance 3 else (t.advance 3).acquire sc)) := by
  cases ord <;> rfl

/-! ### Cache control -/

/-- What CCTL reaches: the byte at each lane of $exec (R186). -/
def cctlReaches (s : State) (m : MemOp) (off : W32) : List Reach :=
  (lanesOf s.slot.mask).map fun l => ⟨l, laneEa s (s.rs m.a) m.idx off l, true, [(laneEa s (s.rs m.a) m.idx off l, 1)], 0⟩

theorem reaches_cctl (s : State) (m : MemOp) (off : W32) :
    (reaches s.slot.mask fun l =>
      let ea := s.eaOf (s.rs m.a) m.idx off l
      { lane := l, ea, ok := true, parts := [(ea, 1)] }) = cctlReaches s m off := by
  simp only [eaOf_eq_laneEa]
  rfl

theorem exec_cctl_code {m : MemOp} {off : W32} {s : State} {accs : List LaneAcc} (regs : s.vcheck (idxReads m.idx) [] = .ok ())
    (done : s.cnt .st = 0) (ok : s.checkGlobal false (cctlReaches s m off) (fun _ => true) anyKind = .ok accs) :
    exec (.cctl 0 m off) s = .next (((s.settleCode s.grp.here (accs.flatMap (·.pieces))).dropCode s.grp.here
      (distinct ((accs.filter fun a => a.pieces.all fun p => p.kind == .normal).map fun a => a.ea.toNat % 2 ^ 55 / 256))).advance 3) := by
  show execCctl 0 m off s = _
  have hgrp : (s.settleCode s.grp.here (accs.flatMap (·.pieces))).grp = s.grp := (drainSecs_settled (host := true) _ _ nofun).grp
  simp only [execCctl, memFinish, regs, ok_bind, reaches_cctl, done, ne_eq, not_true, and_false, if_false, if_true, ok, hgrp, finish_ok]
  rfl

theorem exec_cctl_data {op : BitVec 2} {m : MemOp} {off : W32} {s : State} {accs : List LaneAcc}
    (regs : s.vcheck (idxReads m.idx) [] = .ok ()) (data : op ≠ 0) (room : s.cnt .st < 63)
    (ok : s.checkGlobal false (cctlReaches s m off) (fun _ => true) anyKind = .ok accs) :
    exec (.cctl op m off) s = .next ((queued s .st (.cctl op.toNat (distinct (accs.flatMap fun a =>
      (a.pieces.filter fun p => p.kind == .normal).map fun p => p.pa / 256)))).advance 3) := by
  show execCctl op m off s = _
  have hwait : ¬(op = 0 ∧ s.cnt .st ≠ 0) := fun h => data h.1
  simp only [execCctl, memFinish, regs, ok_bind, if_neg hwait, if_neg data, if_pos data, room_ok s .st room, reaches_cctl, ok, finish_ok]
  rfl

/-! ### Waiting on a word -/

theorem natOfBytes_lt (bs : List Byte) : natOfBytes bs < 2 ^ (8 * bs.length) := by
  induction bs with
  | nil => exact Nat.one_pos
  | cons b r ih =>
    have hb := b.isLt
    rw [natOfBytes, List.length_cons, Nat.mul_add, Nat.pow_add]
    omega

/-- A word of 8 bytes compared as the number it holds. -/
theorem cmpHolds_word (cc : Cmp) {bs : List Byte} (v : W64) (eight : bs.length = 8) :
    cmpHolds cc 64 (natOfBytes bs) v.toNat = rel64 cc (BitVec.ofNat 64 (natOfBytes bs)) v := by
  have hlt : natOfBytes bs < 2 ^ 64 := by simpa [eight] using natOfBytes_lt bs
  rw [← cmpHolds_eq_rel64, BitVec.toNat_ofNat, Nat.mod_eq_of_lt hlt]

/-- What a WAITA waits for, with its operands as read at issue. -/
def waitingAt (s : State) (cc : Cmp) (sc : Scope) (ord : Order) (off : W32) (d a b : SReg) (n : Nat) : Waiting :=
  { ea := wordEa s a off, v := s.rs b, cc, sc, acq := acquires ord, d, len := n, since := s.time, due := false }

theorem exec_waitForm {i : Instr} {cc : Cmp} {sc : Scope} {ord : Order} {off : W32} {d a b : SReg} {n : Nat}
    (h : WaitForm i cc sc ord off d a b n) (s : State) :
    exec i s = finish s (s.waitRead (waitingAt s cc sc ord off d a b n)) := by
  cases h <;> rfl

/-- One read of a waiting path whose checks pass. -/
theorem waitRead_eq {s t : State} {w : Waiting} {accs : List LaneAcc} {bs : List Byte}
    (ok : s.checkGlobal false [⟨0, w.ea, w.ea.toNat % 8 == 0, [(w.ea, 8)], 0⟩] (·.r) anyKind = .ok accs) (free : s.overlapsWait false accs = .ok ())
    (read : waitBytes (s.returnOverlaps false accs) w.sc (accs.flatMap (·.pieces)) = (bs, false, t)) (eight : bs.length = 8) :
    s.waitRead w = if rel64 w.cc (BitVec.ofNat 64 (natOfBytes bs)) w.v then
        .ok (if w.acq then ((t.setRs w.d (BitVec.ofNat 64 (natOfBytes bs))).advance w.len).acquire w.sc
          else (t.setRs w.d (BitVec.ofNat 64 (natOfBytes bs))).advance w.len)
      else .ok (t.park (.waita { w with
        since := t.time, due := false, miss := false, pa := (accs.flatMap (·.pieces)).head?.map (·.pa)
        host := (accs.flatMap (·.pieces)).any fun p => p.kind == .host })) := by
  have hcheck : s.waitCheck w = .ok accs := by simp only [State.waitCheck, ok]
  have hread : (s.returnOverlaps false accs).loadLane (s.returnOverlaps false accs).grp.here (waitScope w.sc) .dflt (accs.flatMap (·.pieces)) =
      (bs, false, t) := by
    rw [← read]
    unfold waitBytes
    cases w.sc <;> rfl
  simp only [State.waitRead, hcheck, ok_bind, free, ← List.flatMap_def, hread, Bool.not_false, must_true,
    cmpHolds_word _ _ eight]

/-! ### WAKE -/

theorem exec_wakeForm {i : Instr} {sc : Scope} {ord : Order} {off : W32} {a : SReg} {n : Nat} (h : WakeForm i sc ord off a n) (s : State) :
    exec i s = wakeOp s n sc ord off a := by
  cases h <;> rfl

theorem samePoint_iff (sc : Scope) (kind : Kind) (g h : Group) : samePoint sc kind g h = true ↔ sharePoint sc kind g h := by
  have hwide : isWide sc = true ↔ sc = .pkg ∨ sc = .sys := by cases sc <;> simp [isWide]
  simp only [samePoint, Bool.and_eq_true, Bool.or_eq_true, beq_iff_eq, bne_iff_ne, hwide, and_assoc, or_assoc]

theorem wakeOp_next {s t : State} {words : Nat} {sc : Scope} {ord : Order} {off : W32} {a : SReg} {x : LaneAcc} {p : Piece}
    (ok : s.checkGlobal false [⟨0, wordEa s a off, (wordEa s a off).toNat % 8 == 0, [(wordEa s a off, 8)], 0⟩] (fun _ => true) anyKind = .ok [x])
    (word : x.pieces = [p]) (rel : s.releaseFor ord sc = .ok t) :
    wakeOp s words sc ord off a = .next ({ t with grp := wakes s.grp sc p t.grp, groups := t.groups.map (wakes s.grp sc p) }.advance words) := by
  simp only [wordEa] at ok
  have hwakes : wakes s.grp sc p = fun g =>
      if samePoint sc p.kind s.grp g then { g with slotA := g.slotA.wake p.pa, slotB := g.slotB.wake p.pa } else g := by
    funext g
    simp only [wakes, ← samePoint_iff]
    rfl
  simp only [wakeOp, memFinish, ok, rel, ok_bind, finish_ok, hwakes, List.flatMap_cons, List.flatMap_nil, word, List.append_nil,
    List.head?_cons, Option.getD_some]

/-- Settles O38, by the outcomes of each of these instructions. -/
theorem orderingInstructions : Obligations.OrderingInstructions := by
  intro i s t h
  cases h with
  | fenceFull sc ord _ t h rel =>
    rw [exec_fence]
    rcases h with rfl | rfl <;> simp [rel]
  | fenceAcq sc => rfl
  | fenceRel sc _ t rel => simp [exec_fence, rel]
  | icinv m off _ accs regs done ok => exact exec_cctl_code regs done ok
  | cctl op m off _ accs regs data room ok => exact exec_cctl_data regs data room ok
  | waitMet _ cc sc ord off d a b n _ accs bs t form ok clear read eight met =>
    have hread := waitRead_eq (w := waitingAt s cc sc ord off d a b n) ok (overlapsWait_of_unblocked clear) read eight
    exact (exec_waitForm form s).trans (congrArg (finish s) (hread.trans (if_pos met)))
  | waitParks _ cc sc ord off d a b n _ accs bs t form ok clear read eight unmet =>
    have hread := waitRead_eq (w := waitingAt s cc sc ord off d a b n) ok (overlapsWait_of_unblocked clear) read eight
    exact (exec_waitForm form s).trans (congrArg (finish s) (hread.trans (if_neg (unmet ▸ Bool.false_ne_true))))
  | wake _ sc ord off a n _ t x p form ok word rel => exact (exec_wakeForm form s).trans (wakeOp_next ok word rel)

end Sys2Proof.Machine
end

section
/-! PROOFS. What issuing an access leaves alone (R174): the registers that a path reads, through every result that returns and every entry
that is performed on the way. -/
namespace Sys2Proof.Machine
open Sys2Proof Sys2Proof.Statements

/-! ### The registers that a path reads -/

/-- The scalar registers and predicates of the current group as its selected path reads them, its flags and its draw counter: all that
their reads depend on. -/
structure RegView where
  tick : Nat
  sel : SlotId
  s : Vector W64 64
  olds : List (SlotId × Nat × W64)
  occA : Bool
  occB : Bool
  p : Vector LaneMask 8
  fmode : W64
  rngc : W64

def State.regView (s : State) : RegView :=
  ⟨s.tick, s.sel, s.grp.s, s.grp.olds, s.grp.slotA.occ, s.grp.slotB.occ, s.grp.p, s.grp.fmode, s.grp.rngc⟩

/-- A scalar register, from what its read depends on. -/
def RegView.rs (v : RegView) (r : SReg) : W64 :=
  let x := v.s[r.toNat]'(by have := r.isLt; omega)
  let shared := match v.sel with
    | .a => v.occB
    | .b => v.occA
  match if shared then (v.olds.find? fun o => o.1 != v.sel && o.2.1 == r.toNat).map (·.2.2) else none with
  | some o => if Config.choice v.tick (0xD000 + r.toNat) % 2 = 0 then x else o
  | none => x

theorem rs_eq_regView (s : State) (r : SReg) : s.rs r = s.regView.rs r := by
  unfold State.rs State.oldRs State.shared RegView.rs State.regView
  cases s.sel <;> simp only <;> rfl

theorem rs_of_regView {s t : State} (h : t.regView = s.regView) (r : SReg) : t.rs r = s.rs r := by
  rw [rs_eq_regView, rs_eq_regView, h]

theorem rp_of_regView {s t : State} (h : t.regView = s.regView) (p : PReg) : t.rp p = s.rp p :=
  congrArg (fun v : RegView => v.p[p.toNat]'(by have := p.isLt; omega)) h

theorem regView_of_side {host : Bool} {s t : State} (h : t.side host = s.side host) : t.regView = s.regView := (congrArg State.regView h :)

/-! ### Operations that leave them alone -/

@[simp] theorem setSlot_regView {s : State} {f : Slot → Slot} (hf : ∀ x, (f x).occ = x.occ) : (s.setSlot f).regView = s.regView := by
  unfold State.setSlot
  cases hs : s.sel <;> simp [State.regView, State.setGrp, Group.setSlot, hf]

theorem leave_occ (x : Slot) (a : W64) (tick : Nat) : (x.leave a tick).occ = x.occ := rfl

@[simp] theorem advance_regView (s : State) (n : Nat) : (s.advance n).regView = s.regView :=
  setSlot_regView fun x => by split <;> rfl

@[simp] theorem park_regView (s : State) (p : Park) : (s.park p).regView = s.regView := setSlot_regView fun _ => rfl

theorem foldl_regView {α : Type} {f : State → α → State} (l : List α) (hf : ∀ s x, (f s x).regView = s.regView) (s : State) :
    (l.foldl f s).regView = s.regView := by
  induction l generalizing s with
  | nil => rfl
  | cons x r ih => exact (ih _).trans (hf s x)

/-- Performing any entry leaves the registers alone. -/
@[simp] theorem performEntry_regView (s : State) (o : StoreOp) : (s.performEntry o).regView = s.regView := by
  cases h : o.isTile with
  | false => exact regView_of_side (performEntry_side (host := true) s o h nofun)
  | true =>
    unfold State.performEntry
    cases hk : o.kind with
    | tile key t lanes =>
      refine foldl_regView _ (fun s l => ?_) s
      split <;> rfl
    | _ => simp [StoreOp.isTile, hk] at h

@[simp] theorem drainQueue_regView (s : State) (p : StoreOp → Bool) : (s.drainQueue p).regView = s.regView :=
  foldl_regView _ performEntry_regView { s with wq := (splitQueue p s.wq).2 }

@[simp] theorem drainSecs_regView (s : State) (w : Here) (secs : List Nat) : (s.drainSecs w secs).regView = s.regView :=
  foldl_regView _ performEntry_regView _

@[simp] theorem sendMsg_regView (s : State) (cls : Traffic) (part vf die port bytes plane : Nat) (line : Option Nat) (m : NetMsg) :
    (s.sendMsg cls part vf die port bytes plane line m).regView = s.regView := by
  unfold State.sendMsg
  split <;> rfl

@[simp] theorem sendPeer_regView (s : State) (w : Here) (n : Nat) (lanes : List LaneAcc) (kind : LaneAcc → RemKind) :
    (s.sendPeer w n lanes kind).regView = s.regView :=
  foldl_regView _ (fun _ _ => sendMsg_regView ..) s

/-! ### Walks -/

@[simp] theorem readTable_side (host : Bool) (s : State) (die part vf pa : Nat) :
    (s.readTable die part vf pa).2.2.side host = s.side host := readDie_side ..

@[simp] theorem readRoot_side (host : Bool) (s : State) (die part vf pa : Nat) : (s.readRoot die part vf pa).2.side host = s.side host := by
  have h := readTable_side host s die part vf pa
  unfold State.readRoot
  split
  · next heq => rw [heq] at h; exact h
  · next heq => rw [heq] at h; exact h

@[simp] theorem walk2_side (host : Bool) (s : State) (die part vf x n t : Nat) : (s.walk2 die part vf x n t).2.side host = s.side host := by
  induction n generalizing s t with
  | zero => rfl
  | succ n ih =>
    have h := readRoot_side host s die part vf (t + 8 * tableIndex x (3 - n))
    unfold State.walk2
    dsimp only
    split
    · exact h
    · exact h
    · exact (ih _ _).trans h

@[simp] theorem readEntry_side (host : Bool) (s : State) (die part vf : Nat) (kind : Kind) (pa : Nat) :
    (s.readEntry die part vf kind pa).2.2.side host = s.side host := by
  unfold State.readEntry State.chargeFetch
  cases kind <;> simp

@[simp] theorem walk1_side (host : Bool) (s : State) (die part vf root2 x n t : Nat) :
    (s.walk1 die part vf root2 x n t).2.side host = s.side host := by
  induction n generalizing s t with
  | zero => rfl
  | succ n ih =>
    have h := walk2_side host s die part vf (t + 8 * tableIndex x (3 - n)) 3 root2
    unfold State.walk1
    dsimp only
    split
    · next heq => rw [heq] at h; exact h
    · next l2 u heq =>
      rw [heq] at h
      have entry := (readEntry_side host u die part vf l2.kind (l2.map (t + 8 * tableIndex x (3 - n)))).trans h
      split
      · exact h
      · split
        · exact entry
        · split
          · exact entry
          · exact (ih _ _).trans entry
          · next l1 _ =>
            have last := (walk2_side host _ die part vf (l1.map x) 3 root2).trans entry
            split
            · next heq => rw [heq] at last; exact last
            · next heq => rw [heq] at last; exact last

theorem walkVa_side (host : Bool) (s : State) (die part vf va : Nat) : (s.walkVa die part vf va).2.side host = s.side host := by
  unfold State.walkVa
  split
  · rfl
  · exact walk1_side ..

@[simp] theorem translate_regView (s : State) (die part vf : Nat) (a : W64) : (s.translate die part vf a).2.regView = s.regView := by
  have h := regView_of_side (walkVa_side true s die part vf (va55 a))
  unfold State.translate
  split
  · rfl
  · dsimp only
    split
    · rfl
    · split <;> next heq => rw [heq] at h; exact h

@[simp] theorem translateFor_regView (s : State) (die part vf : Nat) (a : W64) (need : Xl → Bool) :
    (s.translateFor die part vf a need).2.regView = s.regView := by
  have h := translate_regView s die part vf a
  unfold State.translateFor
  split
  · next heq => rw [heq] at h; split <;> exact h
  · exact h

/-! ### Remote accesses that this package serves itself -/

theorem exportMap_regView (s : State) (vf part off : Nat) : (s.exportMap vf part off).2.regView = s.regView := by
  unfold State.exportMap
  split
  · rfl
  · exact translateFor_regView ..

theorem serve_regView (s : State) (req : RemReq) : (s.serve req).2.2.2.regView = s.regView := by
  have h := exportMap_regView s req.vf req.part req.off
  unfold State.serve
  split
  · rfl
  · split
    · next heq => rw [heq] at h; exact h
    · next x u heq =>
      rw [heq] at h
      have base (part pa : Nat) (bs : List Byte) := (regView_of_side (basePut_side true u part pa bs)).trans h
      cases hk : req.kind with
      | fill => exact h
      | load => dsimp only; split <;> exact h
      | store data =>
        dsimp only
        split
        · exact h
        · exact base ..
      | atomic op ty b c =>
        dsimp only
        split
        · exact h
        · exact (regView_of_side (atomicStep_side (host := true) u _ op ty .dflt _ _ _ nofun)).trans h

theorem serveOwn_regView (s : State) (w : Here) (l : LaneAcc) (n : Nat) (kind : RemKind) : (s.serveOwn w l n kind).2.2.regView = s.regView :=
  (serve_regView _ _).trans (regView_of_side (request_side true s w.part w.die _))

/-! ### Results that return -/

theorem loadLane_regView (s : State) (w : Here) (sc : Scope) (cp : Cp) (ps : List Piece) : (s.loadLane w sc cp ps).2.2.regView = s.regView := by
  have piece (s : State) (p : Piece) : (s.loadPiece w sc cp p).2.2.regView = s.regView := by
    obtain ⟨q, -, hq⟩ := loadPiece_settled (host := true) (s := s) w sc cp p nofun
    exact (congrArg State.regView hq :)
  have go (l : List Piece) (x : List Byte × Bool × State) :
      (l.foldl (fun (bs, bad, s) p => let (b, e, s) := s.loadPiece w sc cp p; (bs ++ b, bad || e, s)) x).2.2.regView = x.2.2.regView := by
    induction l generalizing x with
    | nil => rfl
    | cons p r ih => exact (ih _).trans (piece x.2.2 p)
  exact go ps ([], false, s)

theorem returnLane_regView (s : State) (e : Outst) (l : LaneAcc) (rem : List RemLane) : (s.returnLane e l rem).2.regView = s.regView := by
  unfold State.returnLane
  dsimp only
  cases e.kind with
  | load t sc cp acq => exact loadLane_regView s _ sc cp l.pieces
  | loadLocal t =>
    dsimp only
    split <;> exact drainQueue_regView ..
  | atomic op t sc cp acq =>
    dsimp only
    split
    · exact (regView_of_side (atomicStep_side (host := true) _ _ op t cp _ _ _ nofun)).trans (drainSecs_regView ..)
    · rfl
  | atomicLocal op t =>
    dsimp only
    split
    · split <;> exact drainQueue_regView s _
    · exact drainQueue_regView ..
  | remote t sc op =>
    dsimp only
    split
    · exact serveOwn_regView ..
    · split
      · exact regView_of_side (charge_side true s _ _ _ _)
      · rfl
  | gred _ => rfl
  | sfu fn inputs => rfl

theorem vsetWide_view (s : State) (pos n lane : Nat) (v : BitVec 128) : (s.setGrp fun g => g.vsetWide pos n lane v).regView = s.regView := by
  have go (l : List Nat) (g : Group) : ∃ rows, l.foldl (fun g i => g.vset (pos + i) lane (v.extractLsb' (32 * i) 32)) g = { g with vrf := rows } := by
    induction l generalizing g with
    | nil => exact ⟨g.vrf, rfl⟩
    | cons i r ih =>
      obtain ⟨rows, h⟩ := ih (g.vset (pos + i) lane (v.extractLsb' (32 * i) 32))
      exact ⟨rows, h⟩
  obtain ⟨rows, h⟩ := go (List.range n) s.grp
  simp only [State.setGrp, Group.vsetWide, h]
  rfl

theorem addErr_view (s : State) (t : Tags) (e : DataErr) : (s.setGrp fun g => g.addErr t e).regView = s.regView := by
  have put (c : Bool) (x : Slot) : (if c && x.derr.isNone then { x with derr := some e } else x : Slot).occ = x.occ := by split <;> rfl
  simp only [State.regView, State.setGrp, Group.addErr, put]

theorem foldl_snd_regView {α β : Type} {f : β × State → α → β × State} (l : List α) (hf : ∀ x a, (f x a).2.regView = x.2.regView)
    (x : β × State) : (l.foldl f x).2.regView = x.2.regView := by
  induction l generalizing x with
  | nil => rfl
  | cons a r ih => exact (ih _).trans (hf x a)

/-- Lanes of a result return one by one. -/
theorem returnEntry_regView (s : State) (before : List Outst) (e : Outst) (lanes : LaneMask) (rem : List RemLane) :
    (s.returnEntry before e lanes rem).2.regView = s.regView := by
  unfold State.returnEntry
  dsimp only
  generalize hr : List.foldl _ (e, s) e.lanes = r
  have h : r.2.regView = s.regView := by
    rw [← hr]
    refine foldl_snd_regView _ (fun x l => ?_) (e, s)
    have lane := returnLane_regView x.2 x.1 l rem
    split
    · rfl
    · split
      · next heq => rw [heq] at lane; exact lane
      · next heq => rw [heq] at lane; exact (vsetWide_view ..).trans lane
      · next heq => rw [heq] at lane; exact lane
  split
  · split
    · exact (addErr_view ..).trans h
    · exact h
  · exact h

theorem sendLoad_regView (s : State) (e e' : Outst) : (s.sendLoad e e').regView = s.regView := by
  unfold State.sendLoad
  split
  · split
    · rfl
    · exact sendPeer_regView ..
  · rfl

theorem returnAt_regView (s : State) (i : Nat) (lanes : LaneMask) (rem : List RemLane) : (s.returnAt i lanes rem).regView = s.regView := by
  unfold State.returnAt
  split
  · rfl
  · next e _ =>
    have h := returnEntry_regView s (s.grp.outst.take i) e lanes rem
    split
    · next heq => rw [heq] at h; exact (sendLoad_regView ..).trans h
    · next heq => rw [heq] at h; exact h

@[simp] theorem returnAll_regView (s : State) (p : Outst → Bool) : (s.returnAll p).regView = s.regView := by
  refine foldl_regView _ (fun s k => ?_) s
  split
  · exact returnAt_regView ..
  · rfl

/-! ### Fences and queued stores -/

theorem acquire_regView (s : State) (sc : Scope) : (s.acquire sc).regView = s.regView := by
  have drop (t : State) (w : Here) : (t.dropClean w sc).regView = t.regView := by
    unfold State.dropClean
    dsimp only
    split <;> split <;> rfl
  unfold State.acquire
  split
  · exact park_regView ..
  · exact (drop _ _).trans (returnAll_regView ..)

@[simp] theorem acquireFor_regView (s : State) (ord : Order) (sc : Scope) : (s.acquireFor ord sc).regView = s.regView := by
  unfold State.acquireFor
  split
  · exact acquire_regView s sc
  · rfl

theorem release_regView {s t : State} {sc : Scope} (h : s.release sc = .ok t) : t.regView = s.regView := by
  have clean (u : State) (p : L2Sector → Bool) (q : WbEntry → Bool) : ((u.cleanPart p).ackAll q).regView = u.regView :=
    (regView_of_side (ackAll_side true _ q)).trans (regView_of_side (cleanPart_side true u p))
  have narrow (u : State) (p : StoreOp → Bool) : (if isNarrow sc then u else u.drainQueue p).regView = u.regView := by
    split
    · rfl
    · exact drainQueue_regView u p
  have wide (u : State) (p : L2Sector → Bool) (q : WbEntry → Bool) :
      (if isWide sc then (u.cleanPart p).ackAll q else u).regView = u.regView := by
    split
    · exact clean u p q
    · rfl
  unfold State.release at h
  dsimp only at h
  split at h
  · cases h
  · split at h
    · cases h
    · cases h
      exact (wide _ _ _).trans ((narrow _ _).trans ((drainQueue_regView _ _).trans (returnAll_regView s _)))

theorem releaseFor_regView {s t : State} {ord : Order} {sc : Scope} (h : s.releaseFor ord sc = .ok t) : t.regView = s.regView := by
  unfold State.releaseFor at h
  split at h
  · exact release_regView h
  · cases h; rfl

theorem enqueueStore_regView (s : State) (o : StoreOp) : (s.enqueueStore o).regView = s.regView := by
  have lane (s : State) (w : Here) (cp : Cp) (t : Ty) (l : LaneAcc) : (s.l1UpdateLane w cp t l).regView = s.regView := by
    refine foldl_regView _ (fun s i => ?_) s
    split
    · rfl
    · unfold State.l1Update
      dsimp only
      split
      · rfl
      · split <;> rfl
  unfold State.enqueueStore
  cases o.kind with
  | store sc cp lanes t => exact foldl_regView lanes (fun s l => lane s ..) s
  | red op t sc cp lanes => exact foldl_regView _ (fun s x => by rfl) s
  | _ => rfl

@[simp] theorem queued_regView (s : State) (c : Counter) (k : StoreKind) : (queued s c k).regView = s.regView := enqueueStore_regView ..

@[simp] theorem addResult_regView (s : State) (e : Outst) : (addResult s e).regView = s.regView := rfl

/-! ### What issuing an access leaves alone -/

theorem stored_regView (a : Access) (isLocal : Bool) (accs : List LaneAcc) (u : State) : (a.stored isLocal accs u).regView = u.regView := by
  simp [Access.stored]

theorem reduced_regView (a : Access) (op : AtomOp) (accs : List LaneAcc) (u : State) : (a.reduced op accs u).regView = u.regView := by
  simp [Access.reduced]

theorem atomic_regView (a : Access) (isLocal : Bool) (op : AtomOp) (c : VReg) (m : LaneMask) (accs : List LaneAcc) (u : State) :
    (a.atomic isLocal op c m accs u).regView = u.regView := by
  simp [Access.atomic]

/-- The next state of an instruction is the one that its table names. -/
theorem eq_of_next {i : Instr} {s t u : State} (h : exec i s = .next t) (k : exec i s = .next u) : t = u :=
  Host.Outcome.next.inj (h.symm.trans k)

theorem loads_regView {i : Instr} {s t : State} (h : Loads i s t) : t.regView = s.regView := by
  cases h <;> simp

theorem stores_regView {i : Instr} {s t : State} (h : Stores i s t) : t.regView = s.regView := by
  cases h with
  | store isLocal a _ accs u form regs some' room ok order clear =>
    exact (stored_regView ..).trans ((returnAll_regView ..).trans (releaseFor_regView order))
  | empty isLocal a _ u form regs none order => exact (advance_regView ..).trans (releaseFor_regView order)

theorem atomics_regView {i : Instr} {s t : State} (h : Atomics i s t) : t.regView = s.regView := by
  cases h with
  | atomic isLocal op c a _ accs u form regs some' room ok order => exact (atomic_regView ..).trans (releaseFor_regView order)
  | atomicEmpty isLocal op c a _ u form regs none order =>
    exact (acquireFor_regView ..).trans ((advance_regView ..).trans (releaseFor_regView order))
  | red op a _ accs u form regs some' room ok order clear =>
    exact (reduced_regView ..).trans ((returnAll_regView ..).trans (releaseFor_regView order))
  | redEmpty op a _ u form regs none order => exact (advance_regView ..).trans (releaseFor_regView order)

/-! ### Accesses without an order -/

/-- What a load or store without an order leaves as it was: vector registers, memory, gangs, L2. -/
def SameData (s t : State) : Prop :=
  t.grp.vrf = s.grp.vrf ∧ (∀ x, memGet t.mem x = memGet s.mem x) ∧ t.gangs = s.gangs ∧ t.l2 = s.l2

theorem vrf_advance (s : State) (n : Nat) : (s.advance n).grp.vrf = s.grp.vrf := by
  unfold State.advance State.setSlot
  cases s.sel <;> rfl

theorem sameData_advance (s : State) (n : Nat) : SameData s (s.advance n) := ⟨vrf_advance s n, fun _ => rfl, rfl, rfl⟩

theorem loadForm_inj {i : Instr} {x y : Bool} {a b : Access} (h : LoadForm i x a) (k : LoadForm i y b) : x = y ∧ a = b := by
  cases h <;> cases k <;> exact ⟨rfl, rfl⟩

theorem storeForm_inj {i : Instr} {x y : Bool} {a b : Access} (h : StoreForm i x a) (k : StoreForm i y b) : x = y ∧ a = b := by
  cases h <;> cases k <;> exact ⟨rfl, rfl⟩

theorem loads_sameData {i : Instr} {s t : State} {isLocal : Bool} {a : Access} (h : Loads i s t) (form : LoadForm i isLocal a)
    (ord : a.ord = .rlx) : SameData s t ∧ t.wq = s.wq := by
  cases h with
  | load isLocal' b _ accs form' regs some' room ok =>
    obtain ⟨-, rfl⟩ := loadForm_inj form form'
    rw [ord]
    exact ⟨⟨vrf_advance .., fun _ => rfl, rfl, rfl⟩, rfl⟩
  | empty isLocal' b _ form' regs none =>
    obtain ⟨-, rfl⟩ := loadForm_inj form form'
    rw [ord]
    exact ⟨sameData_advance .., rfl⟩

theorem foldl_l1 {α : Type} {f : State → α → State} (l : List α) (hf : ∀ s x, f s x = { s with l1 := (f s x).l1 }) (s : State) :
    l.foldl f s = { s with l1 := (l.foldl f s).l1 } := by
  induction l generalizing s with
  | nil => rfl
  | cons x r ih => exact (ih (f s x)).trans (congrArg (fun u : State => { u with l1 := (r.foldl f (f s x)).l1 }) (hf s x))

/-- A store enters the queue, and changes copies in L1. -/
theorem enqueueStore_eq (s : State) (o : StoreOp) : s.enqueueStore o = { s with l1 := (s.enqueueStore o).l1, wq := s.wq ++ [o] } := by
  have lane (s : State) (w : Here) (cp : Cp) (t : Ty) (l : LaneAcc) : s.l1UpdateLane w cp t l = { s with l1 := (s.l1UpdateLane w cp t l).l1 } := by
    refine foldl_l1 _ (fun s i => ?_) s
    split
    · rfl
    · unfold State.l1Update
      dsimp only
      split
      · rfl
      · split <;> rfl
  unfold State.enqueueStore
  cases o.kind with
  | store sc cp lanes t => exact congrArg (fun u : State => { u with wq := u.wq ++ [o] }) (foldl_l1 lanes (fun s l => lane s ..) s)
  | red op t sc cp lanes =>
    exact congrArg (fun u : State => { u with wq := u.wq ++ [o] }) (foldl_l1 (f := fun s (x : Nat × Nat) => s.l1DropSec o.here x.2) _ (fun _ _ => rfl) s)
  | _ => rfl

theorem returnOverlaps_of_no_results {s : State} (h : s.grp.outst = []) (isLocal : Bool) (accs : List LaneAcc) :
    s.returnOverlaps isLocal accs = s := by
  unfold State.returnOverlaps State.returnAll
  rw [h]
  rfl

theorem stores_sameData {i : Instr} {s t : State} {isLocal : Bool} {a : Access} (h : Stores i s t) (form : StoreForm i isLocal a)
    (ord : a.ord = .rlx) (outst : s.grp.outst = []) :
    SameData s t ∧ (a.lanes s ≠ 0 → ∃ o, t.wq = s.wq ++ [o] ∧ o.group = s.grp.key ∧ o.counted = true) := by
  cases h with
  | store isLocal' b _ accs u form' regs some' room ok order clear =>
    obtain ⟨rfl, rfl⟩ := storeForm_inj form form'
    rw [ord] at order
    cases order
    rw [returnOverlaps_of_no_results outst, Access.stored, queued, enqueueStore_eq]
    exact ⟨sameData_advance .., fun _ => ⟨_, rfl, rfl, rfl⟩⟩
  | empty isLocal' b _ u form' regs none order =>
    obtain ⟨rfl, rfl⟩ := storeForm_inj form form'
    rw [ord] at order
    cases order
    exact ⟨sameData_advance .., fun some' => absurd none some'⟩

/-- Settles O40: the registers that a path reads are left alone by everything an access may return or perform as it issues; without an
order, and with nothing outstanding, nothing is returned or performed. -/
theorem memoryIssueFrame : Obligations.MemoryIssueFrame := by
  refine ⟨fun i s t h hexec => ?_, fun i s t isLocal a h form ord hexec => ?_, fun i s t isLocal a h form ord outst hexec => ?_⟩
  · have view : t.regView = s.regView := h.elim loads_regView fun h => h.elim stores_regView atomics_regView
    exact ⟨rs_of_regView view, rp_of_regView view, congrArg RegView.fmode view, congrArg RegView.rngc view⟩
  · obtain ⟨⟨hvrf, hmem, hgangs, hl2⟩, hwq⟩ := loads_sameData h form ord
    exact ⟨hvrf, hmem, hgangs, hl2, hwq⟩
  · obtain ⟨⟨hvrf, hmem, hgangs, hl2⟩, hwq⟩ := stores_sameData h form ord outst
    exact ⟨hvrf, hmem, hgangs, hl2, hwq⟩

end Sys2Proof.Machine
end

section
/-! PROOFS. The codes that instructions raise, without other effect (R5, R25, R70, R92, R124, R172, R194, R197, R215, R218, R252, R338,
R409). -/
namespace Sys2Proof.Machine
open Sys2Proof Sys2Proof.Statements

theorem raise_eq {α : Type} (c : Cause) : (raise c : Res α) = .error (.raise c) := rfl

@[simp] theorem raise_bind {α β : Type} (c : Cause) (f : α → Res β) : (raise c : Res α) >>= f = raise c := rfl

@[simp] theorem finish_raise' (s : State) (c : Cause) : finish s (raise c) = .next (s.trap c) := rfl

@[simp] theorem illegal_eq {α : Type} (s : State) : (s.illegal : Res α) = raise (badOp s) := rfl

/-! ### The lowest lane of a mask -/

theorem find_lanesOf {m : LaneMask} {p : Nat → Bool} {l : Nat} (lane : l < 32 ∧ m.getLsbD l = true) (holds : p l = true)
    (lowest : ∀ k < l, m.getLsbD k = true → p k = false) : (lanesOf m).find? p = some l := by
  rw [lanesOf, List.find?_filter, List.find?_range_eq_some]
  refine ⟨by simp [lane.2, holds], List.mem_range.mpr lane.1, fun k hk => ?_⟩
  by_cases h : m.getLsbD k = true
  · simp [h, lowest k hk h]
  · simp [h]

theorem findSome_lanesOf {α : Type} {m : LaneMask} {f : Nat → Option α} {l : Nat} {x : α} (lane : l < 32 ∧ m.getLsbD l = true)
    (holds : f l = some x) (lowest : ∀ k < l, m.getLsbD k = true → f k = none) : (lanesOf m).findSome? f = some x := by
  have h := find_lanesOf (p := fun k => (f k).isSome) lane (by simp [holds]) fun k hk hm => by simp [lowest k hk hm]
  obtain ⟨-, before, after, hl, hnone⟩ := List.find?_eq_some_iff_append.mp h
  exact List.findSome?_eq_some_iff.mpr ⟨before, l, after, hl, holds, fun k hk => by simpa using hnone k hk⟩

/-! ### Accesses -/

theorem accessLane_lane (r : SReg) (x : Option Idx) (off : W32) (t : Ty) (s : State) (l : Nat) : (accessLane r x off t s l).lane = l := by
  unfold accessLane
  split <;> rfl

theorem loadForm_reach_lane {i : Instr} {isLocal : Bool} {a : Access} (h : LoadForm i isLocal a) (s : State) (l : Nat) :
    (a.reach s l).lane = l := by
  cases h with
  | ldp | ldpW1 => rfl
  | _ => exact accessLane_lane ..

theorem storeForm_reach_lane {i : Instr} {isLocal : Bool} {a : Access} (h : StoreForm i isLocal a) (s : State) (l : Nat) :
    (a.reach s l).lane = l := by
  cases h with
  | stp | stpW1 => rfl
  | _ => exact accessLane_lane ..

/-- An access whose lanes fail the checks of R172 has no other effect. -/
theorem loadAccess_raises {a : Access} {isLocal : Bool} {s : State} {c : Cause}
    (regs : s.vcheck (idxReads a.idx) [(a.d, memRegs a.ty)] = .ok ()) (some' : a.lanes s ≠ 0) (room : s.cnt (loadCounter isLocal) < 63)
    (fails : (if isLocal then s.checkLocal a.sc (a.reaches s) else s.checkGlobal a.priv (a.reaches s) (·.r) anyKind) = raise c) :
    loadAccess isLocal a s = .next (s.trap c) := by
  have hroom := room_ok s _ room
  have hlanes : s.active a.guard ≠ 0 := some'
  cases isLocal with
  | true =>
    have hfails : s.checkLocal a.sc (reaches (s.active a.guard) (a.reach s)) = raise c := fails
    simp only [loadCounter, if_true] at hroom
    simp only [loadAccess, loadLocal, if_true, tyRegs_eq_memRegs, regs, ok_bind, if_neg hlanes, hroom, hfails, raise_bind, finish_raise']
  | false =>
    have hfails : s.checkGlobal a.priv (reaches (s.active a.guard) (a.reach s)) (·.r) anyKind = raise c := fails
    simp only [loadCounter, Bool.false_eq_true, if_false] at hroom
    simp only [loadAccess, loadGlobal, memFinish, Bool.false_eq_true, if_false, tyRegs_eq_memRegs, regs, ok_bind, if_neg hlanes, hroom,
      hfails, raise_bind, finish_raise']

theorem storeAccess_raises {a : Access} {isLocal : Bool} {s : State} {c : Cause}
    (regs : s.vcheck ((a.d, memRegs a.ty) :: idxReads a.idx) [] = .ok ()) (some' : a.lanes s ≠ 0)
    (room : s.cnt (storeCounter isLocal) < 63)
    (fails : (if isLocal then s.checkLocal a.sc (a.reaches s) else s.checkGlobal a.priv (a.reaches s) (·.w) anyKind) = raise c) :
    storeAccess isLocal a s = .next (s.trap c) := by
  have hroom := room_ok s _ room
  have hlanes : s.active a.guard ≠ 0 := some'
  cases isLocal with
  | true =>
    have hfails : s.checkLocal a.sc (reaches (s.active a.guard) (a.reach s)) = raise c := fails
    simp only [storeCounter, if_true] at hroom
    simp only [storeAccess, storeLocal, if_true, tyRegs_eq_memRegs, regs, ok_bind, if_neg hlanes, hroom, hfails, raise_bind, finish_raise']
  | false =>
    have hfails : s.checkGlobal a.priv (reaches (s.active a.guard) (a.reach s)) (·.w) anyKind = raise c := fails
    simp only [storeCounter, Bool.false_eq_true, if_false] at hroom
    simp only [storeAccess, storeGlobal, memFinish, Bool.false_eq_true, if_false, tyRegs_eq_memRegs, regs, ok_bind, if_neg hlanes, hroom,
      hfails, raise_bind, finish_raise']

theorem atomForm_reach_lane {i : Instr} {isLocal : Bool} {op : AtomOp} {c : VReg} {a : Access} (h : AtomForm i isLocal op c a) (s : State)
    (l : Nat) : (a.reach s l).lane = l := by
  cases h <;> exact accessLane_lane ..

theorem redForm_reach_lane {i : Instr} {op : AtomOp} {a : Access} (h : RedForm i op a) (s : State) (l : Nat) : (a.reach s l).lane = l := by
  cases h; exact accessLane_lane ..

theorem atomAccess_raises {a : Access} {op : AtomOp} {d : VReg} {s : State} {c : Cause}
    (regs : s.vcheck ((a.d, memRegs a.ty) :: (if op = .cas then [(d, memRegs a.ty)] else []) ++ idxReads a.idx)
      [(a.d, memRegs a.ty)] = .ok ())
    (some' : a.lanes s ≠ 0) (room : s.cnt .ld < 63)
    (fails : s.checkGlobal a.priv (a.reaches s) (fun x => x.r && x.w) (atomKind a.sc) = raise c) :
    atomAccess false op d a s = .next (s.trap c) := by
  have hfails : atomCheck false a s = raise c := fails
  have hroom : s.room (loadCounter false) = .ok () := room_ok s .ld room
  simp only [atomAccess, regs, ok_bind, if_neg some', hroom, hfails, raise_bind, finish_raise']

theorem redAccess_raises {a : Access} {op : AtomOp} {s : State} {c : Cause}
    (regs : s.vcheck ((a.d, memRegs a.ty) :: idxReads a.idx) [] = .ok ()) (some' : a.lanes s ≠ 0) (room : s.cnt .st < 63)
    (fails : s.checkGlobal a.priv (a.reaches s) (·.w) (atomKind a.sc) = raise c) : redAccess op a s = .next (s.trap c) := by
  simp only [redAccess, regs, ok_bind, if_neg some', room_ok s .st room, fails, raise_bind, finish_raise']

theorem lanes_ne_zero {a : Access} {s : State} {l : Nat} (lane : l < 32 ∧ (a.lanes s).getLsbD l = true) : a.lanes s ≠ 0 := by
  intro h
  have := lane.2
  simp [h] at this

/-- The alignment stage raises at the lowest lane that is not aligned. -/
theorem alignStage_raises {a : Access} {s : State} {l : Nat} (own : (a.reach s l).lane = l) (lane : l < 32 ∧ (a.lanes s).getLsbD l = true)
    (bad : (a.reach s l).ok = false) (lowest : ∀ k < l, (a.lanes s).getLsbD k = true → (a.reach s k).ok = true) :
    alignStage (a.reaches s) = raise { code := 0x09, addr := (a.reach s l).ea, lane := some l } := by
  have h : (a.reaches s).find? (fun r => !r.ok) = some (a.reach s l) := by
    rw [Access.reaches, List.find?_map, find_lanesOf (p := (fun r => !r.ok) ∘ a.reach s) lane (by simp [bad]) (fun k hk hm => by simp [lowest k hk hm])]
    rfl
  rw [alignStage, h]
  simp only [own]
  rfl

theorem checkGlobal_misaligned {s : State} {priv : Bool} {rs : List Reach} {perm : Xl → Bool} {kind : Xl → Option Nat} {c : Cause}
    (h : alignStage rs = raise c) : s.checkGlobal priv rs perm kind = raise c := by
  rw [State.checkGlobal, h, raise_bind]

theorem checkLocal_misaligned {s : State} {sc : Scope} {rs : List Reach} {c : Cause} (h : alignStage rs = raise c) :
    s.checkLocal sc rs = raise c := by
  simp only [State.checkLocal, h, raise_bind]

theorem alignStage_ok {a : Access} {s : State} (aligned : ∀ k < 32, (a.lanes s).getLsbD k = true → (a.reach s k).ok = true) :
    alignStage (a.reaches s) = .ok () := by
  have h : (a.reaches s).find? (fun r => !r.ok) = none := by
    simpa [Access.reaches, mem_lanesOf] using aligned
  rw [alignStage, h]

/-- The first failing piece of a lane, with the code that it raises. -/
def pieceFault (bad : Xl → Option Nat) (r : Reach × List (Piece × Xl)) : Option (Reach × Nat) :=
  r.2.findSome? fun p => (bad p.2).map fun c => (r.1, c)

theorem pieceFault_of_good {perm : Xl → Bool} {r : Reach} {ps : List (Piece × Xl)} (good : ∀ p ∈ ps, perm p.2 = true) :
    pieceFault (fun x => if perm x then none else some cPermission) (r, ps) = none :=
  List.findSome?_eq_none_iff.mpr fun p hp => by simp [good p hp]

theorem pieceFault_of_bad {perm : Xl → Bool} {r : Reach} {ps : List (Piece × Xl)} (bad : ∃ p ∈ ps, perm p.2 = false) :
    pieceFault (fun x => if perm x then none else some cPermission) (r, ps) = some (r, cPermission) := by
  obtain ⟨p, hp, hbad⟩ := bad
  induction ps with
  | nil => cases hp
  | cons q ps ih =>
    rw [pieceFault, List.findSome?_cons]
    cases hq : perm q.2 with
    | false => simp
    | true =>
      have hne : p ≠ q := fun h => by simp [h, hq] at hbad
      simpa [hq, pieceFault] using ih ((List.mem_cons.mp hp).resolve_left hne)

/-- The permission stage raises at the lowest lane with a piece on a page without the permission. -/
theorem checkGlobal_permission {a : Access} {s : State} {l : Nat} {perm : Xl → Bool} (own : (a.reach s l).lane = l)
    (lane : l < 32 ∧ (a.lanes s).getLsbD l = true) (aligned : ∀ k < 32, (a.lanes s).getLsbD k = true → (a.reach s k).ok = true)
    (mapped : s.translateStage a.priv (a.reaches s) = .ok ()) (bad : ∃ p ∈ s.piecesOf (a.reach s l), perm p.2 = false)
    (lowest : ∀ k < l, (a.lanes s).getLsbD k = true → ∀ p ∈ s.piecesOf (a.reach s k), perm p.2 = true) (kind : Xl → Option Nat) :
    s.checkGlobal a.priv (a.reaches s) perm kind = raise { code := 0x08, addr := (a.reach s l).ea, lane := some l } := by
  have stage : pieceStage ((a.reaches s).map fun r => (r, s.piecesOf r)) (fun x => if perm x then none else some cPermission) =
      raise { code := 0x08, addr := (a.reach s l).ea, lane := some l } := by
    have first : ((a.reaches s).map fun r => (r, s.piecesOf r)).findSome? (pieceFault fun x => if perm x then none else some cPermission) =
        some (a.reach s l, cPermission) := by
      rw [Access.reaches, List.findSome?_map, List.findSome?_map]
      exact findSome_lanesOf lane (pieceFault_of_bad bad) fun k hk hm => pieceFault_of_good (lowest k hk hm)
    show (match ((a.reaches s).map fun r => (r, s.piecesOf r)).findSome? (pieceFault fun x => if perm x then none else some cPermission) with
      | some (r, c) => raise { code := c, addr := r.ea, lane := some r.lane }
      | none => .ok ()) = _
    rw [first]
    simp only [own]
    rfl
  simp only [State.checkGlobal, alignStage_ok aligned, mapped, ok_bind, stage, raise_bind]

/-! ### Sets, futures, read sections -/

theorem futureInvalid_eq (s : State) (f : FReg) : s.futureInvalid f = badFuture s f := rfl

theorem isMember_eq_false_iff (e : SetEntry) (gid : Nat) :
    e.isMember gid = false ↔ e.member.getLsbD gid = false ∨ e.left.getLsbD gid = true ∨ e.exited.getLsbD gid = true := by
  simp [SetEntry.isMember, or_assoc, imp_iff_not_or]

/-- BARV, BWAIT, BSYNC or SETLEAVE on a set of which the group is no member. -/
theorem setCheck_foreign {s : State} {a : SReg} (whole : Bool)
    (foreign : ∀ e, (s.gang s.grp.gang).sets[(s.rs a).toNat]? = some e → e.isMember s.grp.gid = false) :
    s.setCheck a whole = raise { code := 0x15, addr := s.pc, aux0 := s.rs a } := by
  unfold State.setCheck
  dsimp only
  split
  · rfl
  · next e he => rw [foreign e he]; rfl

theorem setCheck_part {s : State} {a : SReg} {n : Nat} {e : SetEntry} (own : memberOf s a n e) (part : s.slot.mask ≠ s.grp.live) :
    s.setCheck a true = raise (badOp s) := by
  obtain ⟨rfl, entry, member, left, exited⟩ := own
  have hmember : e.isMember s.grp.gid = true := by simp [SetEntry.isMember, member, left, exited]
  have hpart : (s.slot.mask != s.grp.live) = true := bne_iff_ne.mpr part
  simp only [State.setCheck, entry, hmember, hpart, Bool.not_true, Bool.false_eq_true, if_false, Bool.and_self, if_true, illegal_eq]

theorem exec_setCheck_raises {i : Instr} {a : SReg} {s : State} {c : Cause} (form : i = .bsync a ∨ i = .setleave a ∨ ∃ d, i = .barv d a)
    (h : s.setCheck a true = raise c) : exec i s = .next (s.trap c) := by
  have stops (f : Nat × SetEntry → Res State) : finish s (s.setCheck a true >>= f) = .next (s.trap c) := by rw [h]; rfl
  obtain rfl | rfl | ⟨d, rfl⟩ := form
  · exact stops _
  · exact stops _
  · exact stops _

theorem exec_bwait_raises {a b : SReg} {s : State} {c : Cause} (h : s.setCheck a false = raise c) :
    exec (.bwait a b) s = .next (s.trap c) := by
  show execBwait a b s = _
  simp only [execBwait, h, raise_bind, finish_raise']

theorem gpwaitOp_inside {d : SReg} {f : Option FReg} {t : Option SReg} {s : State} (inside : s.grp.rsd ≠ 0) :
    gpwaitOp d f t s = .next (s.trap (badOp s)) := by
  have hmust : (s.grp.rsd == 0) = false := beq_eq_false_iff_ne.mpr inside
  simp only [gpwaitOp, hmust, must_false, raise_bind, finish_raise']
  rfl

theorem exec_fimp_refused {f : FReg} {a : SReg} {s : State} (h : (s.fut f).state ≠ .idle ∨
    ∀ e ∈ (s.gang s.grp.gang).expo, e.live = true → tokenOf e.entry e.core e.gen (s.gang s.grp.gang).tag ≠ s.rs a) :
    exec (.fimp f a) s = .next (s.trap (badFuture s f)) := by
  show execFimp f a s = _
  unfold execFimp
  dsimp only
  split
  · next e idle hit =>
    obtain held | dead := h
    · exact absurd idle held
    · have hp := List.find?_some hit
      simp only [Bool.and_eq_true, beq_iff_eq] at hp
      exact absurd hp.2 (dead e (List.mem_of_find?_eq_some hit) hp.1)
  · rfl

theorem wakeOp_misaligned {s : State} {words : Nat} {sc : Scope} {ord : Order} {off : W32} {a : SReg}
    (bad : (wordEa s a off).toNat % 8 ≠ 0) :
    wakeOp s words sc ord off a = .next (s.trap { code := 0x09, addr := wordEa s a off, lane := some 0 }) := by
  have hok : ((s.rs a + off.signExtend 64).toNat % 8 == 0) = false := beq_eq_false_iff_ne.mpr bad
  have stage (parts : List (W64 × Nat)) : alignStage [{ lane := 0, ea := s.rs a + off.signExtend 64, ok := false, parts }] =
      raise { code := 0x09, addr := s.rs a + off.signExtend 64, lane := some 0 } := rfl
  simp only [wakeOp, memFinish, hok, checkGlobal_misaligned (stage _), raise_bind, finish_raise']
  rfl

/-! ### System registers -/

theorem sysWrite_readOnly {r : SysReg} (s : State) (v : W64) (ro : r ∉ [SysReg.sp, .sl, .tfp, .rngk, .rngc, .fmode]) :
    s.sysWrite r v = raise (badOp s) := by
  cases r <;> first | rfl | simp at ro

theorem sysWrite_misaligned {r : SysReg} (s : State) {v : W64} (form : r = .sp ∨ r = .sl ∨ r = .tfp) (bad : v.toNat % 128 ≠ 0) :
    s.sysWrite r v = raise { code := 0x09, addr := v } := by
  have h : (v.toNat % 128 == 0) = false := beq_eq_false_iff_ne.mpr bad
  obtain rfl | rfl | rfl := form <;> simp only [State.sysWrite, h, must_false, raise_bind] <;> rfl

theorem sysWrite_low {s : State} {v : W64} (al : v.toNat % 128 = 0) (low : v < s.grp.priv + 4096) :
    s.sysWrite .sl v = raise { code := 0x05, addr := v } := by
  have h : (v.toNat % 128 == 0) = true := beq_iff_eq.mpr al
  have hl : decide (s.grp.priv + 4096 ≤ v) = false := decide_eq_false (BitVec.not_le.mpr low)
  simp only [State.sysWrite, h, must_true, ok_bind, hl, must_false, raise_bind]
  rfl

theorem sysWrite_mode (s : State) {v : W64} (bad : 6 ≤ v.toNat % 8 ∨ 512 ≤ v.toNat) : s.sysWrite .fmode v = raise (badOp s) := by
  have h : (decide (v.toNat % 8 < 6) && decide (v.toNat < 512)) = false := by
    rw [Bool.and_eq_false_iff, decide_eq_false_iff_not, decide_eq_false_iff_not]
    omega
  simp only [State.sysWrite, h, must_false, raise_bind]
  rfl

theorem exec_sset_raises {r : SysReg} {a : SReg} {s : State} {c : Cause} (h : s.sysWrite r (s.rs a) = raise c) :
    exec (.sset r a) s = .next (s.trap c) := by
  rw [exec_sset, h, raise_bind, finish_raise']

theorem exec_exset_refused {a : SReg} {s : State} (less : s.slot.mask &&& (s.rs a).extractLsb' 0 32 ≠ s.slot.mask)
    (bad : s.slot.pj = none ∨ s.slot.mask &&& (s.rs a).extractLsb' 0 32 = 0) : exec (.exset a) s = .next (s.trap (badOp s)) := by
  show execExset a s = _
  rw [execExset, if_neg less]
  cases hpj : s.slot.pj with
  | none => rfl
  | some j =>
    simp only [hpj, reduceCtorEq, false_or] at bad
    simp only [bad, if_true]
    rfl

/-! ### Windows and dispatch tables -/

theorem callFrame_limit {s : State} (ret : W64)
    (bad : s.slot.sp.toNat < 256 ∨ s.slot.sp - 256 < s.grp.sl ∨ 65535 ≤ s.slot.depth) :
    s.callFrame ret = raise { code := 0x05, addr := s.slot.sp - 256 } := by
  have h : s.callLimit = true := by simpa [State.callLimit, or_assoc] using bad
  rw [State.callFrame, if_pos h]
  rfl

theorem enterFrame_limit {s : State} {f : Nat}
    (bad : s.grp.vrf.length < f ∨ (f - 8) * 128 > s.slot.fb.toNat ∨ s.slot.fb - BitVec.ofNat 64 ((f - 8) * 128) < s.grp.sl) :
    s.enterFrame f = raise { code := 0x05, addr := s.slot.fb - BitVec.ofNat 64 ((f - 8) * 128) } := if_pos bad

theorem exec_ret_top {s : State} (quiet : s.quiet = true) (top : s.slot.frames = []) : exec .ret s = .next (s.trap (badOp s)) := by
  show execRet s = _
  simp only [execRet, whenQuiet_of_quiet quiet, top, illegal_eq, finish_raise']

theorem exec_ret_misaligned {s : State} {f : Frame} {rest : List Frame} (quiet : s.quiet = true) (frames : s.slot.frames = f :: rest)
    (res : f.resident = true) (held : f.link = []) (own : s.joinDepth ≠ some s.slot.depth) (bad : f.ret.toNat % 64 ≠ 0) :
    exec .ret s = .next (s.trap { code := 0x02, addr := f.ret }) := by
  have hown : (s.joinDepth != some s.slot.depth) = true := bne_iff_ne.mpr own
  have hbad : (f.ret.toNat % 64 == 0) = false := beq_eq_false_iff_ne.mpr bad
  show execRet s = _
  simp only [execRet, whenQuiet_of_quiet quiet, frames, hown, fillCaller_resident s res, returnTo_held s held, hbad, must_true, must_false,
    ok_bind, raise_bind, finish_raise']
  rfl

theorem dispatch_range {s : State} {a : SReg} {alignLane : Bool} (out : s.grp.dtl ≤ s.rs a) :
    s.dispatch [(0, s.rs a)] alignLane =
      raise { code := 0x03, addr := s.grp.dtb + 8 * s.rs a, aux0 := s.rs a, aux1 := s.grp.dtl, lane := some 0 } := by
  simp only [State.dispatch, List.find?_cons, decide_eq_true out]
  rfl

/-! ### Formats of reduced service -/

theorem takesFormat_eq_false {s : State} {ty : Ty} (none : ¬formatRuns s ty) : s.takesFormat ty = false := by
  rw [formatRuns, not_or, not_or] at none
  obtain ⟨full, f16, bf16⟩ := none
  simp [State.takesFormat, full, f16, bf16]

theorem quarterOp_format {block : Bool} {q fus n : BitVec 2} {ty : Ty} {sn : Bool} {t : SReg} {a : VReg} {b : SReg} {s : State}
    (none : ¬formatRuns s ty) : quarterOp block q fus n ty sn t a b s = .next (s.trap (badOp s)) := by
  simp only [quarterOp, takesFormat_eq_false none, must_false, raise_bind, finish_raise']
  rfl

/-- A check that fails at the start of an operation. -/
theorem finish_mustAlign {s : State} {a : W64} {n : Nat} (bad : a.toNat % n ≠ 0) (f : Unit → Res State) :
    finish s (mustAlign a n >>= f) = .next (s.trap { code := 0x09, addr := a }) := by
  rw [mustAlign, beq_eq_false_iff_ne.mpr bad, must_false, raise_bind]
  rfl

/-- Codes of instructions that are no global access. -/
theorem raises_exec {i : Instr} {s : State} {c : Cause} (h : Raises i s c) : exec i s = .next (s.trap c) := by
  cases h with
  | fwait d f _ idle => show execFwait d f s = _; rw [execFwait, idle]; rfl
  | fexp d f _ idle => exact if_pos idle
  | fimpBusy f a _ held => exact exec_fimp_refused (.inl held)
  | fimp f a _ dead => exact exec_fimp_refused (.inr dead)
  | spawn r d a _ none => show execSpawn r d a s = _; simp only [execSpawn, none]; rfl
  | set _ a _ form foreign =>
    have hf (e) (he : (s.gang s.grp.gang).sets[(s.rs a).toNat]? = some e) := (isMember_eq_false_iff e _).mpr (foreign e he)
    obtain form | form | form | ⟨b, rfl⟩ := form
    · exact exec_setCheck_raises (.inl form) (setCheck_foreign true hf)
    · exact exec_setCheck_raises (.inr (.inl form)) (setCheck_foreign true hf)
    · exact exec_setCheck_raises (.inr (.inr form)) (setCheck_foreign true hf)
    · exact exec_bwait_raises (setCheck_foreign false hf)
  | partSet _ a _ n e form own part => exact exec_setCheck_raises form (setCheck_part own part)
  | noTrap _ _ form out =>
    obtain rfl | ⟨d, n, rfl⟩ := form
    · show finish s s.returnTrap = _; rw [State.returnTrap, out]; rfl
    · show execTget d n s = _; rw [execTget, out]; rfl
  | rsopen _ bad => show execRsopen s = _; rw [execRsopen, if_pos bad]; rfl
  | rsclose _ bad => show execRsclose s = _; rw [execRsclose, if_pos bad]; rfl
  | gpwait _ _ form inside => 
    obtain ⟨d, rfl⟩ | ⟨d, a, rfl⟩ | ⟨f, rfl⟩ | ⟨f, a, rfl⟩ := form
    · exact gpwaitOp_inside (d := d) (f := none) (t := none) inside
    · exact gpwaitOp_inside (d := d) (f := none) (t := some a) inside
    · exact gpwaitOp_inside (d := 0) (f := some f) (t := none) inside
    · exact gpwaitOp_inside (d := 0) (f := some f) (t := some a) inside
  | ssetRead r a _ ro => exact exec_sset_raises (sysWrite_readOnly s _ ro)
  | ssetAlign r a _ form bad => exact exec_sset_raises (sysWrite_misaligned s form bad)
  | ssetLow a _ al low => exact exec_sset_raises (sysWrite_low al low)
  | ssetMode a _ bad => exact exec_sset_raises (sysWrite_mode s bad)
  | exset a _ less bad => exact exec_exset_refused less bad
  | call off _ quiet bad => rw [exec_call, whenQuiet_of_quiet quiet, callFrame_limit _ bad, raise_bind, finish_raise']
  | enter f _ quiet bad => rw [exec_enter, whenQuiet_of_quiet quiet, enterFrame_limit bad, raise_bind, finish_raise']
  | ret _ quiet top => exact exec_ret_top quiet top
  | retAlign _ f rest quiet frames res held own bad => exact exec_ret_misaligned quiet frames res held own bad
  | jts a _ out => rw [exec_jts, dispatch_range out]; rfl
  | loadLocal _ x _ l form regs room lane bad lowest =>
    rw [exec_loadForm form]
    exact loadAccess_raises regs (lanes_ne_zero lane) room
      (checkLocal_misaligned (alignStage_raises (loadForm_reach_lane form s l) lane bad lowest))
  | storeLocal _ x _ l form regs room lane bad lowest =>
    rw [exec_storeForm form]
    exact storeAccess_raises regs (lanes_ne_zero lane) room
      (checkLocal_misaligned (alignStage_raises (storeForm_reach_lane form s l) lane bad lowest))
  | town _ a b _ form some' bad =>
    have h (engine : Bool) : townOp engine a b s = .next (s.trap { code := 0x09, addr := s.rs a }) := by
      rw [townOp, if_neg some']
      exact finish_mustAlign bad _
    obtain rfl | rfl := form
    · exact h false
    · exact h true
  | rfence a _ bad => exact finish_mustAlign bad _
  | wake _ sc ord off a n _ form bad =>
    rw [exec_wakeForm form]
    exact wakeOp_misaligned bad
  | ldstatFormat q ty f a _ none =>
    show execLdstat q ty f a s = _
    simp only [execLdstat, takesFormat_eq_false none, must_false, raise_bind, finish_raise']
    rfl
  | quarterFormat _ block q fus n ty sn t a b _ form none => cases form <;> exact quarterOp_format none

/-- Codes of the stages of global accesses and of those to a lane's own window. -/
theorem memRaises_exec {i : Instr} {s : State} {c : Cause} (h : MemRaises i s c) : exec i s = .next (s.trap c) := by
  cases h with
  | load x _ l form regs room lane bad lowest =>
    rw [exec_loadForm form]
    exact loadAccess_raises regs (lanes_ne_zero lane) room
      (checkGlobal_misaligned (alignStage_raises (loadForm_reach_lane form s l) lane bad lowest))
  | store x _ l form regs room lane bad lowest =>
    rw [exec_storeForm form]
    exact storeAccess_raises regs (lanes_ne_zero lane) room
      (checkGlobal_misaligned (alignStage_raises (storeForm_reach_lane form s l) lane bad lowest))
  | atom op d x _ l form regs room lane bad lowest =>
    rw [exec_atomForm form]
    exact atomAccess_raises regs (lanes_ne_zero lane) room
      (checkGlobal_misaligned (alignStage_raises (atomForm_reach_lane form s l) lane bad lowest))
  | red op x _ l form regs room lane bad lowest =>
    rw [exec_redForm form]
    exact redAccess_raises regs (lanes_ne_zero lane) room
      (checkGlobal_misaligned (alignStage_raises (redForm_reach_lane form s l) lane bad lowest))
  | loadPermission x _ l form regs room lane aligned mapped bad lowest =>
    rw [exec_loadForm form]
    exact loadAccess_raises regs (lanes_ne_zero lane) room (checkGlobal_permission (loadForm_reach_lane form s l) lane aligned mapped bad lowest _)
  | storePermission x _ l form regs room lane aligned mapped bad lowest =>
    rw [exec_storeForm form]
    exact storeAccess_raises regs (lanes_ne_zero lane) room (checkGlobal_permission (storeForm_reach_lane form s l) lane aligned mapped bad lowest _)

/-- Settles O31: each code comes from a check before the instruction's first effect. -/
theorem raisedCodes : Obligations.RaisedCodes := ⟨fun _ _ _ => raises_exec, fun _ _ _ => memRaises_exec⟩

end Sys2Proof.Machine
end

section
/-! PROOFS. Futures and SPAWN (R213 to R220). -/
namespace Sys2Proof.Machine
open Sys2Proof Sys2Proof.Statements

/-! ### Futures -/

theorem orphaned_eq (f : FReg) (x : Slot) : orphaned f x = x.orphan f := by
  rcases x with ⟨⟩
  rfl

theorem idled_eq (s : State) (f : FReg) : idled s f = s.idleFut f := by
  simp only [idled, orphaned_eq]
  rfl

theorem isPost_eq_true_iff (s : State) (f : FReg) : s.isPost (s.fut f).op = true ↔ holdsPost s f := by
  unfold State.isPost holdsPost
  cases s.findOp (s.fut f).op with
  | none => simp
  | some o =>
    rw [Option.any_some]
    split
    · next p q r t u h => exact iff_of_true rfl ⟨o, p, q, r, t, u, rfl, h⟩
    · next h => exact iff_of_false (by simp) fun ⟨_, p, q, r, t, u, he, hk⟩ => h p q r t u (by cases he; exact hk)

theorem find_range_eq_some {p : Nat → Bool} {n b : Nat} (inside : n < b) (holds : p n = true) (lowest : ∀ m < n, p m = false) :
    (List.range b).find? p = some n := by
  rw [List.find?_range_eq_some]
  exact ⟨holds, List.mem_range.mpr inside, fun m hm => by simp [lowest m hm]⟩

theorem futures_exec {i : Instr} {s t : State} (h : Futures i s t) : exec i s = .next t := by
  cases h with
  | fwait d f _ done => show execFwait d f s = _; rw [execFwait, done]
  | fwaitParks d f _ runs => show execFwait d f s = _; rw [execFwait, runs]
  | fcancelIdle f _ idle => show execFcancel f s = _; simp only [execFcancel, idle]
  | fcancelAsks f _ runs other =>
    have hpost : s.isPost (s.fut f).op = false := by rw [← Bool.not_eq_true, isPost_eq_true_iff]; exact other
    show execFcancel f s = _
    simp only [execFcancel, runs, hpost, Bool.false_eq_true, if_false]
    rfl
  | fcancelPost f _ runs post =>
    show execFcancel f s = _
    simp only [execFcancel, runs, (isPost_eq_true_iff s f).mpr post, if_true, idled_eq]
  | fcancelDone f _ done free =>
    have hfree : held (s.fut f).status = false := free
    show execFcancel f s = _
    simp only [execFcancel, done, hfree, Bool.false_eq_true, if_false, idled_eq]
  | fcancelHeld f _ done hold =>
    have hheld : held (s.fut f).status = true := hold
    show execFcancel f s = _
    simp only [execFcancel, done, hheld, if_true, idled_eq]
  | fexpFull d f _ busy full =>
    have hnone : (List.range 128).find? s.expoFree = none := by simpa using full
    show execFexp d f s = _
    simp only [execFexp, if_neg busy, hnone]
    rfl
  | fexp d f _ n gen busy inside free lowest old =>
    have hfirst : (List.range 128).find? s.expoFree = some n := find_range_eq_some inside free lowest
    have htoken (c t : Nat) : tokenOf n c gen t = BitVec.ofNat 64 (n + 2 ^ 7 * c + 2 ^ 9 * gen + 2 ^ 25 * t) := by
      rw [tokenOf]
      congr 1
      ring
    show execFexp d f s = _
    simp only [execFexp, if_neg busy, hfirst, idled_eq, ← old, htoken]
    rfl
  | fimp f a _ e idle live =>
    show execFimp f a s = _
    simp only [execFimp, idle, live]

/-! ### SPAWN -/

theorem spawns_exec {i : Instr} {s t : State} (h : Spawns i s t) : exec i s = .next t := by
  cases h with
  | full r d a _ ro role all =>
    have hall : lowestFree 256 ((s.allGroups.filter fun x => x.gang == s.grp.gang).map (·.gid)) = none := all
    show execSpawn r d a s = _
    simp only [execSpawn, role, hall]
    rfl
  | noSlot r d a _ ro i role index slots =>
    have hindex : lowestFree 256 ((s.allGroups.filter fun x => x.gang == s.grp.gang).map (·.gid)) = some i := index
    show execSpawn r d a s = _
    simp only [execSpawn, role, hindex, if_pos slots]
    rfl
  | noPositions r d a _ ro i role index slots few =>
    have hindex : lowestFree 256 ((s.allGroups.filter fun x => x.gang == s.grp.gang).map (·.gid)) = some i := index
    show execSpawn r d a s = _
    simp only [execSpawn, role, hindex, if_neg slots, if_pos few]
    rfl
  | spawned r d a _ ro i role index slots room =>
    have hindex : lowestFree 256 ((s.allGroups.filter fun x => x.gang == s.grp.gang).map (·.gid)) = some i := index
    show execSpawn r d a s = _
    simp only [execSpawn, role, hindex, if_neg slots, if_neg (Nat.not_lt.mpr room), Nat.mul_comm i]
    rfl

/-- Settles O44: the rows of futures and of SPAWN, and the fields of a group that starts. -/
theorem futuresAndSpawning : Obligations.FuturesAndSpawning := by
  refine ⟨fun _ _ _ => futures_exec, fun _ _ _ => spawns_exec, fun s g key gid r core ro v => ?_⟩
  refine ⟨rfl, rfl, rfl, rfl, rfl, rfl, rfl, rfl, rfl, fun k => ?_, fun k => ?_, fun f => ?_, rfl, rfl, rfl, rfl, rfl, rfl⟩
  · exact Vector.getElem_replicate (i := k.val) k.isLt
  · exact Vector.getElem_ofFn (i := k.val) k.isLt
  · exact Vector.getElem_replicate (i := f.val) f.isLt

end Sys2Proof.Machine
end

section
/-! PROOFS. Barriers and the end of a phase (R252, R253, R304). -/
namespace Sys2Proof.Machine
open Sys2Proof Sys2Proof.Statements

/-! ### The barrier instructions -/

theorem isMember_of_memberOf {s : State} {a : SReg} {n : Nat} {e : SetEntry} (own : memberOf s a n e) : e.isMember s.grp.gid = true := by
  obtain ⟨-, -, member, left, exited⟩ := own
  simp [SetEntry.isMember, member, left, exited]

theorem setCheck_ok {s : State} {a : SReg} {n : Nat} {e : SetEntry} {whole : Bool} (own : memberOf s a n e)
    (full : whole = true → s.slot.mask = s.grp.live) : s.setCheck a whole = .ok (n, e) := by
  have hmember := isMember_of_memberOf own
  have hfull : (whole && s.slot.mask != s.grp.live) = false := by
    cases whole with
    | false => rfl
    | true => simp [full rfl]
  obtain ⟨rfl, entry, -⟩ := own
  simp only [State.setCheck, entry, hmember, hfull, Bool.not_true, Bool.false_eq_true, if_false]

theorem arriveSet_new {s t : State} {n : Nat} {e : SetEntry} (new : e.arrv.getLsbD s.grp.gid = false) (rel : s.release .gang = .ok t) :
    s.arriveSet n e = .ok (t.setGang s.grp.gang fun g => g.setAt n fun e => { e with arrv := e.arrv ||| ownBit s }) := by
  simp only [State.arriveSet, new, Bool.false_eq_true, if_false, rel, ok_bind]
  rfl

theorem arriveSet_old {s : State} {n : Nat} {e : SetEntry} (old : e.arrv.getLsbD s.grp.gid = true) :
    s.arriveSet n e = .error (.hold (s.park (.arrived n e.phase))) := if_pos old

theorem barriers_exec {i : Instr} {s t : State} (h : Statements.Barriers i s t) : exec i s = .next t := by
  cases h with
  | barv d a _ t n e own whole new rel =>
    show execBarv d a s = _
    simp only [execBarv, setCheck_ok own fun _ => whole, ok_bind, arriveSet_new new rel]
    rfl
  | bsync a _ t n e own whole new rel =>
    show execBsync a s = _
    simp only [execBsync, setCheck_ok own fun _ => whole, ok_bind, arriveSet_new new rel]
    rfl
  | setleave a _ t n e own whole new rel =>
    show execSetleave a s = _
    simp only [execSetleave, setCheck_ok own fun _ => whole, ok_bind, new, Bool.false_eq_true, if_false, rel]
    rfl
  | arrived _ a _ n e form own whole old =>
    have check := setCheck_ok (whole := true) own fun _ => whole
    obtain rfl | rfl | ⟨d, rfl⟩ := form
    · show execBsync a s = _
      simp only [execBsync, check, ok_bind, arriveSet_old old]
      rfl
    · show execSetleave a s = _
      simp only [execSetleave, check, ok_bind, old, if_true]
      rfl
    · show execBarv d a s = _
      simp only [execBarv, check, ok_bind, arriveSet_old old]
      rfl
  | bwaitOver a b _ n e own past =>
    show execBwait a b s = _
    simp only [execBwait, setCheck_ok (whole := false) own (by simp), ok_bind, if_pos past]
    rfl
  | bwaitParks a b _ n e own now =>
    show execBwait a b s = _
    simp only [execBwait, setCheck_ok (whole := false) own (by simp), ok_bind, if_neg (not_not_intro now)]
    rfl

/-- Settles O45: the checks pass, and each form arrives, leaves, waits or goes on. -/
theorem barriers : Obligations.Barriers := fun _ _ _ => barriers_exec

/-! ### The end of a phase -/

theorem popCount_eq_ones {n : Nat} (x : BitVec n) : popCount n x.toNat = ones n x := by
  rw [popCount, foldl_count, Nat.zero_add]
  rfl

/-- A set's entry that is not reset by default lies in a gang that the machine has. -/
theorem any_gang_of_set {s : State} {key n : Nat} {e : SetEntry} (entry : (s.gang key).sets[n]? = some e) :
    (s.gangs.any fun g => g.key == key) = true := by
  rw [List.any_eq_true, ← List.find?_isSome (p := fun g : Gang => g.key == key)]
  cases hfind : s.gangs.find? (fun g => g.key == key) with
  | some g => rfl
  | none =>
    have hgang : s.gang key = {} := by rw [State.gang, hfind]; rfl
    rw [hgang] at entry
    simp at entry

theorem sets_setAt (g : Gang) (n m : Nat) (f : SetEntry → SetEntry) :
    (g.setAt n f).sets[m]? = if m = n then (g.sets[m]?).map f else g.sets[m]? := by
  by_cases hm : m < g.sets.length
  · simp [Gang.setAt, hm]
    split <;> rfl
  · simp [Gang.setAt, hm]

theorem unparked_phaseEnds (x : Slot) (n : Nat) : Unparked n x (x.phaseEnds n) := by
  refine ⟨fun b h => ?_, fun b h => ?_, fun h => ?_⟩
  · simp [Slot.phaseEnds, h]
  · simp [Slot.phaseEnds, h]
  · unfold Slot.phaseEnds
    split
    · next m b hp => exact if_neg (by rintro rfl; exact (h _).1 hp)
    · next m b hp => exact if_neg (by rintro rfl; exact (h _).2 hp)
    · rfl

theorem phaseOver_mapSlots (n : Nat) (g : Group) : PhaseOver n g (g.mapSlots fun x => x.phaseEnds n) := by
  refine ⟨unparked_phaseEnds _ n, unparked_phaseEnds _ n, fun c hc => ?_, fun hn => ?_, rfl⟩
  · exact ⟨{ c with slotA := c.slotA.phaseEnds n, slotB := c.slotB.phaseEnds n }, by simp [Group.mapSlots, hc],
      unparked_phaseEnds _ n, unparked_phaseEnds _ n, rfl⟩
  · simp [Group.mapSlots, hn]

theorem phaseOver_ends (key n : Nat) (g : Group) : phaseOver key n g (if g.gang = key then g.mapSlots fun x => x.phaseEnds n else g) := by
  unfold phaseOver
  split
  · exact phaseOver_mapSlots n g
  · rfl

/-- Settles O46: EXPECT and ARRIVED are the counts of the masks, and `completeSet` is the only change. -/
theorem phaseEnds : Obligations.PhaseEnds := by
  intro s key n e _ entry
  have expect : e.expect = ones 256 (e.member &&& ~~~e.left) := popCount_eq_ones _
  have arrived : e.arrived = ones 256 e.arrv := popCount_eq_ones _
  rw [← expect, ← arrived]
  have gangs (k : Nat) : (s.completeSet key n).gang k =
      (s.setGang key fun g => g.setAt n fun e => { e with phase := !e.phase, arrv := 0, since := none }).gang k := rfl
  have own := gang_setGang s key (fun g => g.setAt n fun e => { e with phase := !e.phase, arrv := 0, since := none }) (fun _ => rfl)
    (any_gang_of_set entry)
  split
  · next ends =>
    have complete : s.completeIf key n = s.completeSet key n := by
      simp only [State.completeIf, entry]
      exact if_pos ⟨ends.2, ends.1⟩
    rw [complete]
    refine ⟨?_, phaseOver_ends key n s.grp, ?_, fun m hm => ?_, fun k hk => ?_, rfl⟩
    · rw [gangs, own, sets_setAt, if_pos rfl, entry]
      rfl
    · exact List.forall₂_map_right_iff.mpr (List.forall₂_same.mpr fun g _ => phaseOver_ends key n g)
    · rw [gangs, own, sets_setAt, if_neg hm]
    · exact (gangs k).trans (gang_setGang_other s key k _ (fun _ => rfl) hk)
  · next stays =>
    simp only [State.completeIf, entry]
    exact if_neg fun ends => stays ⟨ends.2, ends.1⟩

end Sys2Proof.Machine
end

section
/-! PROOFS. Read sections, grace periods and deferred frees (R338 to R343). -/
namespace Sys2Proof.Machine
open Sys2Proof Sys2Proof.Statements

theorem setGrp_congr {s : State} {f g : Group → Group} (h : f s.grp = g s.grp) : s.setGrp f = s.setGrp g := by
  rw [State.setGrp, State.setGrp, h]

theorem futReady_open {s : State} {f : FReg} (h : (s.fut f).open = true) : s.futReady f = .ok () := by
  rw [State.futReady, h]
  rfl

theorem mustAlign_ok {a : W64} {n : Nat} (h : a.toNat % n = 0) : mustAlign a n = .ok () := by
  rw [mustAlign, beq_iff_eq.mpr h]
  rfl

theorem mustRange_ok {s : State} {b : Bool} (h : b = true) : s.mustRange b = .ok () := by
  rw [State.mustRange, h]
  rfl

/-- GPWAIT in any form, outside a read section. -/
theorem gpwaitOp_next {d : SReg} {f : Option FReg} {a : Option SReg} {s t : State} {c : Ctx} (outside : s.grp.rsd = 0)
    (fut : ∀ x, f = some x → (s.fut x).open = true) (rel : s.release .pkg = .ok t)
    (ctx : (graceWaiter t d f).ctx s.grp.vf s.grp.part = some c) :
    gpwaitOp d f a s = .next
      (((graceWaiter t d f).openGrace s.grp.vf s.grp.part t.nextId
        (a.map fun a => min (s.time + (s.rs a).toNat) (2 ^ 64 - 1))).graceNow t.nextId) := by
  have hmust : (s.grp.rsd == 0) = true := beq_iff_eq.mpr outside
  have hctx : ((graceWaiter t d f).ctx s.grp.vf s.grp.part).isNone = false := by rw [ctx]; rfl
  cases f with
  | none =>
    have hpark : (({ t with nextId := t.nextId + 1 } : State).park (.gpwait d t.nextId)).ctx s.grp.vf s.grp.part = some c := ctx
    simp only [gpwaitOp, hmust, must_true, ok_bind, rel, State.fresh, hpark]
    rfl
  | some f =>
    have hissued : ((((({ t with nextId := t.nextId + 1 } : State).issueFut f t.nextId).startOp t.nextId (.gpwait t.nextId)).advance 1).ctx
      s.grp.vf s.grp.part) = some c := ctx
    simp only [gpwaitOp, hmust, must_true, ok_bind, futReady_open (fut f rfl), rel, State.fresh, hissued]
    rfl

theorem graceForm_exec {i : Instr} {d : SReg} {f : Option FReg} {a : Option SReg} (form : GraceForm i d f a) (s : State) :
    exec i s = gpwaitOp d f a s := by
  cases form <;> rfl

theorem grace_exec {i : Instr} {s t : State} (h : Grace' i s t) : exec i s = .next t := by
  cases h with
  | rsopenFirst _ whole none =>
    have hok : ¬(s.slot.mask ≠ s.grp.live ∨ s.grp.rsd = 15) := by simp [whole, none]
    have hrsd : (enters s).setGrp (fun g => { g with rsd := g.rsd + 1 }) = (enters s).setGrp fun g => { g with rsd := 1 } :=
      setGrp_congr (congrArg (fun n : BitVec 4 => { s.grp with rsd := n + 1 }) none :)
    show execRsopen s = _
    simp only [execRsopen, if_neg hok, if_pos none, ← hrsd]
    rfl
  | rsopen _ whole some' room =>
    have hok : ¬(s.slot.mask ≠ s.grp.live ∨ s.grp.rsd = 15) := not_or.mpr ⟨not_not_intro whole, room⟩
    show execRsopen s = _
    simp only [execRsopen, if_neg hok, if_neg some']
    rfl
  | rscloseLast _ whole one ld sm =>
    have hok : ¬(s.slot.mask ≠ s.grp.live ∨ s.grp.rsd = 0) := by simp [whole, one]
    have hrsd : (leaves s).setGrp (fun g => { g with rsd := g.rsd - 1 }) = (leaves s).setGrp fun g => { g with rsd := 0 } :=
      setGrp_congr (congrArg (fun n : BitVec 4 => { s.grp with rsd := n - 1 }) one :)
    show execRsclose s = _
    simp only [execRsclose, if_neg hok, ld, sm, ne_eq, not_true_eq_false, or_self, if_false, if_pos one, ← hrsd]
    rfl
  | rsclose _ whole some' more ld sm =>
    have hok : ¬(s.slot.mask ≠ s.grp.live ∨ s.grp.rsd = 0) := not_or.mpr ⟨not_not_intro whole, some'⟩
    show execRsclose s = _
    simp only [execRsclose, if_neg hok, ld, sm, ne_eq, not_true_eq_false, or_self, if_false, if_neg more]
    rfl
  | gpwait _ d f a _ t c form outside fut rel ctx => rw [graceForm_exec form, gpwaitOp_next outside fut rel ctx]
  | dfree a _ accs t lo hi node head ok rel room =>
    have hrange : (decide (4 ≤ (s.rsAt a 1).toNat) && decide ((s.rsAt a 1).toNat ≤ 20)) = true := by simp [lo, hi]
    have hroom : t.freeRoom = true := by
      unfold State.freeRoom
      cases hctx : t.ctx t.grp.vf t.grp.part with
      | none => rfl
      | some c => exact decide_eq_true (room c hctx)
    show execDfree a s = _
    simp only [execDfree, memFinish, mustRange_ok hrange, mustAlign_ok node, mustAlign_ok head, ok_bind]
    erw [ok]
    simp only [ok_bind, rel, hroom, if_true]
    rfl
  | dfreeWaits a _ accs t c lo hi node head ok rel ctx full =>
    have hrange : (decide (4 ≤ (s.rsAt a 1).toNat) && decide ((s.rsAt a 1).toNat ≤ 20)) = true := by simp [lo, hi]
    have hroom : t.freeRoom = false := by
      rw [State.freeRoom, ctx]
      exact decide_eq_false (Nat.not_lt.mpr full)
    show execDfree a s = _
    simp only [execDfree, memFinish, mustRange_ok hrange, mustAlign_ok node, mustAlign_ok head, ok_bind]
    erw [ok]
    simp only [ok_bind, rel, hroom, Bool.false_eq_true, if_false]
    rfl

/-- Settles O47: outside and inside a read section, and for a free entry with room and without. -/
theorem gracePeriods : Obligations.GracePeriods := fun _ _ _ => grace_exec

end Sys2Proof.Machine
end

section
/-! PROOFS. The issue of GATHER, TCOPY, PUT, RFENCE and TOWN (R257, R258, R284 to R296). -/
namespace Sys2Proof.Machine
open Sys2Proof Sys2Proof.Statements

theorem mustLocal_ok {s : State} {a : W64} {n : Nat} (h : (s.gang s.grp.gang).localOk a.toNat n = true) : s.mustLocal a n = .ok () := by
  rw [State.mustLocal, h]
  rfl

theorem mustThread_ok {s : State} {lo n : Nat} (h : threadTiles s lo n) : s.mustThread (localTiles lo n) = .ok () := by
  have hnone : (s.gang s.grp.gang).owned true (localTiles lo n) = none :=
    List.find?_eq_none.mpr fun t ht => by simp [h t ht]
  simp only [State.mustThread, hnone]

/-! ### GATHER -/

/-- The checks of GATHER's own fields pass. -/
theorem gather_fields {s : State} {ty : Ty} {a : SReg} (ok : GatherOk s ty a) :
    (decide ((s.rsAt a 3).toNat < 2 ^ 32) && (s.rsAt a 3).toNat % 32 == 0 && decide (32 ≤ (s.rsAt a 3).toNat) &&
      decide ((s.rsAt a 3).toNat ≤ 8192)) = true ∧ (s.rsAt a 3).toNat % 2 ^ 32 = (s.rsAt a 3).toNat := by
  obtain ⟨row, least, most⟩ := ok.row
  have hlt : (s.rsAt a 3).toNat < 2 ^ 32 := by omega
  refine ⟨?_, Nat.mod_eq_of_lt hlt⟩
  rw [decide_eq_true hlt, decide_eq_true least, decide_eq_true most, beq_iff_eq.mpr row]
  rfl

theorem exec_gather_prefix {s : State} {ty : Ty} {f : FReg} {a : SReg} (fut : (s.fut f).open = true) (ok : GatherOk s ty a)
    {accs : List (List Piece)} (cw : s.checkAll (cwCheck (s.rsAt a 6) noKind) = .ok accs) :
    exec (.gather ty f a) s = memFinish s (
      if (s.rsAt a 2).toNat % 2 ^ 32 = 0 then
        .ok (((s.settleFut f ⟨.resolved, 0, 0⟩).completionWord s.grp.engineHere .die (s.rsAt a 6) (s.rsAt a 7)).advance 3)
      else do
        s.mustThread (localTiles (s.rsAt a 5).toNat ((s.rsAt a 2).toNat % 2 ^ 32 * (s.rsAt a 3).toNat))
        if 16 ≤ (s.gathers s.grp.die s.grp.cluster).length then .error (.hold (s.park .room))
        else .ok (issued s.grp.gang s f (s.rsAt a 5).toNat ((s.rsAt a 2).toNat % 2 ^ 32 * (s.rsAt a 3).toNat) (.gather (gatherOf s ty a)))) := by
  obtain ⟨hrow, hlen⟩ := gather_fields ok
  have hgm : (!(decide (spBase ≤ (s.rsAt a 5).toNat) &&
      decide ((s.rsAt a 5).toNat < spBase + 4096 * (s.gang s.grp.gang).scratch))) = true := by
    have hlow : decide (spBase ≤ (s.rsAt a 5).toNat) = false := decide_eq_false (Nat.not_le.mpr ok.gm)
    rw [hlow]
    rfl
  show execGather ty f a s = _
  simp only [execGather, futReady_open fut, mustAlign_ok ok.base, mustAlign_ok ok.idx, mustRange_ok (decide_eq_true ok.count),
    mustRange_ok hrow, mustAlign_ok ok.stride, mustAlign_ok ok.dst.1, mustRange_ok hgm, mustAlign_ok ok.cw, hlen,
    decide_eq_true ok.dst.2, must_true, cw, ok_bind]
  rfl

/-! ### TOWN -/

theorem townOp_next {engine : Bool} {a b : SReg} {s : State} (some' : s.rs b ≠ 0)
    (al : (s.rs a).toNat % (if (s.rs a).toNat < 0x10000000 then 1024 else 4096) = 0)
    (al' : (s.rs b).toNat % (if (s.rs a).toNat < 0x10000000 then 1024 else 4096) = 0)
    (inside : (s.gang s.grp.gang).localOk (s.rs a).toNat (s.rs b).toNat = true)
    (free : ∀ t ∈ localTiles (s.rs a).toNat (s.rs b).toNat, ∀ k, (s.gang s.grp.gang).owner t ≠ .engine k) :
    townOp engine a b s = .next
      (((if engine then s.settleLocal (s.gang s.grp.gang).key else s).setGang (s.gang s.grp.gang).key fun g =>
        (localTiles (s.rs a).toNat (s.rs b).toNat).foldl (fun g t => g.setOwner t (if engine then .software else .thread)) g).advance 1) := by
  have hfree : (localTiles (s.rs a).toNat (s.rs b).toNat).find? (fun t => match (s.gang s.grp.gang).owner t with
      | .engine _ => true
      | _ => false) = none := by
    refine List.find?_eq_none.mpr fun t ht => ?_
    cases h : (s.gang s.grp.gang).owner t with
    | engine k => exact absurd h (free t ht k)
    | thread => simp
    | software => simp
  have hal : mustAlign (s.rs a) (if (s.rs a).toNat < spBase then 1024 else 4096) = .ok () := mustAlign_ok al
  have hal' : mustAlign (s.rs b) (if (s.rs a).toNat < spBase then 1024 else 4096) = .ok () := mustAlign_ok al'
  simp only [townOp, if_neg some', hal, hal', mustLocal_ok inside, ok_bind]
  erw [hfree]
  rfl

/-! ### TCOPY and PUT -/

theorem tcopy_len {s : State} {a : SReg} (ok : TcopyOk s a) :
    ((s.rsAt a 2).toNat % 32 == 0 && decide (32 ≤ (s.rsAt a 2).toNat) && decide ((s.rsAt a 2).toNat ≤ 1048576)) = true := by
  obtain ⟨al, least, most⟩ := ok.len
  simp [al, least, most]

theorem execPut_eq (sp : Bool) (sc : Scope) (ord : Order) (f : FReg) (a : SReg) (s : State) :
    execPut sp sc ord f a s = memFinish s (do
      let x := putOf s sc a
      s.futReady f
      mustAlign (s.rsAt a 0) 32
      s.mustRange (x.len % 32 == 0 && 32 ≤ x.len && x.len ≤ 1048576)
      s.mustRange (x.die ≤ 5 && x.cluster ≤ 39 && x.tgt < 2 ^ 25)
      mustAlign (s.rsAt a 3) 32
      s.mustRange (decide (spBase ≤ x.dst) == sp)
      mustAlign (s.rsAt a 4) 8
      mustAlign (s.rsAt a 5) 8
      s.mustRange (s.rsAt a 7 == 0)
      s.mustLocal (s.rsAt a 0) x.len
      let _ ← s.checkAll
        (if s.rsAt a 4 = 0 then [] else [⟨s.rsAt a 4, 8, fun x => x.r && x.w, atomKind (engineScope sc)⟩])
      let _ ← s.checkAll (cwCheck (s.rsAt a 5) noKind)
      must (!gateRejects s.gateCopy (quadOf x.die x.cluster) s.grp.part) { code := cBridge, addr := s.pc, aux0 := s.rsAt a 2 }
      s.mustThread x.srcTiles
      if Config.putSlots ≤ s.puts s.grp.die then .error (.hold (s.park .room))
      else
        let t ← s.releaseFor ord (engineScope sc)
        .ok (issued s.grp.gang t f x.src x.len (.put x))) := rfl

theorem engines_exec {i : Instr} {s t : State} (h : Engines i s t) : exec i s = .next t := by
  cases h with
  | gatherNone ty f a _ accs fut ok cw none =>
    rw [exec_gather_prefix fut ok cw, if_pos none]
    rfl
  | gather ty f a _ accs fut ok cw some' tiles room =>
    rw [exec_gather_prefix fut ok cw, if_neg some', mustThread_ok tiles, ok_bind, if_neg (Nat.not_le.mpr room)]
    rfl
  | tcopyCold out sc ord cp f a _ accs t fut ok cw rel cold =>
    show execTcopy out sc ord cp f a s = _
    simp only [execTcopy, futReady_open fut, mustAlign_ok ok.recAddr, mustAlign_ok ok.loc, mustRange_ok (tcopy_len ok), mustAlign_ok ok.cw,
      mustLocal_ok ok.inside, cw, mustThread_ok ok.tiles, rel, ok_bind]
    erw [cold]
    rfl
  | tcopyWarm out sc ord cp f a _ accs t e fut ok cw rel warm =>
    show execTcopy out sc ord cp f a s = _
    simp only [execTcopy, futReady_open fut, mustAlign_ok ok.recAddr, mustAlign_ok ok.loc, mustRange_ok (tcopy_len ok), mustAlign_ok ok.cw,
      mustLocal_ok ok.inside, cw, mustThread_ok ok.tiles, rel, ok_bind]
    erw [warm]
    rfl
  | put sp sc ord f a _ ctr accs t fut ok counter cw gate room rel =>
    obtain ⟨al, least, most⟩ := ok.len
    have hlen : ((putOf s sc a).len % 32 == 0 && decide (32 ≤ (putOf s sc a).len) && decide ((putOf s sc a).len ≤ 1048576)) = true := by
      simp [putOf, al, least, most]
    obtain ⟨small, die, cluster⟩ := ok.tgt
    have htgt : (decide ((putOf s sc a).die ≤ 5) && decide ((putOf s sc a).cluster ≤ 39) && decide ((putOf s sc a).tgt < 2 ^ 25)) = true := by
      simp only [Bool.and_eq_true, decide_eq_true_eq]
      exact ⟨⟨die, cluster⟩, small⟩
    have hspace : (decide (spBase ≤ (putOf s sc a).dst) == sp) = true := beq_iff_eq.mpr ok.space.symm
    have hzero : (s.rsAt a 7 == 0) = true := beq_iff_eq.mpr ok.zero
    have hgate : gateRejects s.gateCopy (quadOf (putOf s sc a).die (putOf s sc a).cluster) s.grp.part = false := gate
    have htiles : s.mustThread (putOf s sc a).srcTiles = .ok () := mustThread_ok ok.tiles
    have hinside : s.mustLocal (s.rsAt a 0) (putOf s sc a).len = .ok () := mustLocal_ok ok.inside
    have hroom : ¬Config.putSlots ≤ s.puts s.grp.die := Nat.not_le.mpr room
    show execPut sp sc ord f a s = _
    rw [execPut_eq]
    simp only [futReady_open fut, mustAlign_ok ok.src, mustRange_ok hlen, mustRange_ok htgt, mustAlign_ok ok.dst, mustRange_ok hspace,
      mustAlign_ok ok.ctr, mustAlign_ok ok.cw, mustRange_ok hzero, hinside, counter, cw, hgate, Bool.not_false, must_true, htiles,
      if_neg hroom, rel, ok_bind]
    rfl
  | rfence a _ al stores atoms =>
    have hstores : (s.wq.any fun o => o.group == s.grp.key && s.earlier o.tags && o.unanswered) = false := by
      simpa using fun o ho hg he => stores o ho hg he
    have hatoms : (s.grp.outst.any fun e => s.earlier e.tags && e.isRemote && e.isAtomic) = false := by
      rw [List.any_eq_false]
      intro e he h
      simp only [Bool.and_eq_true] at h
      obtain ⟨⟨he1, hr⟩, ha⟩ := h
      rw [atoms e he he1 ha] at hr
      cases hr
    show execRfence a s = _
    simp only [execRfence, mustAlign_ok al, hstores, hatoms, Bool.or_self, Bool.false_eq_true, if_false, ok_bind]
    rfl
  | townNone _ a b _ form none =>
    obtain rfl | rfl := form <;> exact congrArg (finish s) (if_pos none)
  | townThread a b _ some' al al' inside free => exact townOp_next some' al al' inside free
  | townEngine a b _ some' al al' inside free => exact townOp_next some' al al' inside free

/-- Settles O48: the limits of the descriptors pass, and the operations start. -/
theorem engineIssue : Obligations.EngineIssue := fun _ _ _ => engines_exec

end Sys2Proof.Machine
end

section
/-! PROOFS. The events of the gather, copy and put engines, and of the barrier watchdog (R256, R258, R259, R268, R285 to R293). -/
namespace Sys2Proof.Machine
open Sys2Proof Sys2Proof.Statements

/-- The end of an operation that nobody has asked to stop and whose issuer still exists. -/
theorem endOp_unflip {s : State} {o : EngineOp} (asked : o.cancel = false) (live : o.live = true) (status : W32) (sc : Scope) (cw cv : W64) :
    (s.unflip o.gang o.id).endOp o status sc cw cv = engineEnds s o status sc cw cv := by
  simp only [State.endOp, asked, live, Bool.false_eq_true, if_false, if_true]
  rfl

theorem statusWord_not_held (code aux : Nat) : held (statusWord code false aux) = false := by
  have h : (code % 256 + 0 + aux % 65536 * 65536) / 2 ^ 8 % 2 = 0 := by omega
  rw [held, statusWord, BitVec.getLsbD_ofNat, Nat.testBit_eq_decide_div_mod_eq]
  simp only [Bool.false_eq_true, if_false, h]
  rfl

/-! ### GATHER -/

/-- A service of the first GATHER of a queue, which runs, is one step of the engine. -/
theorem exec_gatherService {i : Nat} {s : State} {o : EngineOp} {x : GatherOp} (op : s.findOp i = some o) (kind : o.kind = .gather x)
    (first : ((s.gathers o.die x.cluster).head?.map (·.id)) = some i) (asked : o.cancel = false) (runs : x.status = none) (more : x.k < x.n) :
    exec (.gatherService i) s =
      .next (s.paid o.part o.die ((s.gatherStep o x).2.setOp i fun _ => .gather (s.gatherStep o x).1)) := by
  have hgo : ¬(((s.gathers o.die x.cluster).head?.map (·.id)) ≠ some i ∨ x.status.isSome ∨ x.n ≤ x.k ∨ o.cancel) := by
    simp [first, asked, runs, more]
  show execGatherService i s = _
  simp only [execGatherService, op, kind, if_neg hgo]

theorem gatherStep_index {s t : State} {o : EngineOp} {x : GatherOp} {bs : List Byte} (row : x.row = none)
    (read : s.readVa o.here false (x.idx + BitVec.ofNat 64 (x.k * tyBytes x.ty)) (tyBytes x.ty) = (.ok bs, t)) :
    s.gatherStep o x = ({ x with
      row := some (x.rowOf (natOfBytes bs)), clipped := x.clipped + if (x.rowOf (natOfBytes bs)).isNone then 1 else 0 }, t) := by
  simp only [State.gatherStep, row, read]

theorem gatherStep_read {s t : State} {o : EngineOp} {x : GatherOp} {a : W64} {bs : List Byte} (row : x.row = some (some a))
    (part : x.buf.length < x.len) (read : s.readVa o.here false (a + BitVec.ofNat 64 x.buf.length) 32 = (.ok bs, t)) :
    s.gatherStep o x = ({ x with buf := x.buf ++ bs }, t) := by
  simp only [State.gatherStep, row, if_neg (Nat.not_le.mpr part), read]

/-- The state after a sector of a row is written (R303). -/
def sectorAt (s : State) (o : EngineOp) (x : GatherOp) : State :=
  s.setGang o.gang fun g => g.localWrite (x.dst + x.k * x.len + x.wrote) ((x.buf.drop x.wrote).take 32)

theorem gatherStep_write {s : State} {o : EngineOp} {x : GatherOp} {r : Option W64} (row : x.row = some r) (whole : x.len ≤ x.buf.length) :
    s.gatherStep o x =
      if x.len ≤ x.wrote + 32 then ({ x with k := x.k + 1, row := none, buf := [], wrote := 0 }, sectorAt s o x)
      else ({ x with wrote := x.wrote + 32 }, sectorAt s o x) := by
  simp only [State.gatherStep, row, if_pos whole]
  rfl

theorem exec_gatherComplete {i : Nat} {s : State} {o : EngineOp} {x : GatherOp} (op : s.findOp i = some o) (id : o.id = i)
    (kind : o.kind = .gather x) (live : o.live = true) (all : x.n ≤ x.k) (good : x.status = none) (asked : o.cancel = false)
    (credit : 0 < s.creditNow o.part o.die) :
    exec (.gatherComplete i) s = .next
      (engineEnds s o (if x.clipped = 0 then 0 else statusWord 4 false (min x.clipped 65535)) .die x.cw x.cv) := by
  subst id
  have hgo : ¬(x.status.isNone ∧ x.k < x.n ∨ o.cancel) := by simp [asked, Nat.not_lt.mpr all]
  have hfinal : x.final = if x.clipped = 0 then 0 else statusWord 4 false (min x.clipped 65535) := by rw [GatherOp.final, good]
  have hheld : held (if x.clipped = 0 then 0 else statusWord 4 false (min x.clipped 65535)) = false := by
    split
    · rfl
    · exact statusWord_not_held 4 _
  show execGatherComplete o.id s = _
  simp only [execGatherComplete, op, kind, if_neg hgo, hfinal, hheld, Bool.false_eq_true, if_false, endOp_unflip asked live,
    paid_credit _ _ _ _ credit]

/-! ### TCOPY -/

theorem recordSector_next {s t u : State} {o : EngineOp} {x : TcopyOp} {y : Xl} {bs : List Byte}
    (page : s.translateFor o.here.die o.here.part o.here.vf x.recAddr (·.r) = (.ok y, t)) (normal : y.kind = .normal)
    (read : t.readPiece o.here false .dflt ⟨y.pa + x.shape.length, 32, .normal⟩ = (bs, false, u)) :
    s.recordSector o x = ({ x with shape := x.shape ++ bs, filling := decide ((x.shape ++ bs).length < 256) }, u) := by
  simp only [State.recordSector, page, normal, read, ne_eq, not_true_eq_false, if_false, Bool.false_eq_true]

theorem tcopyEnd_ok {s : State} {o : EngineOp} (x : TcopyOp) (asked : o.cancel = false) (live : o.live = true) :
    s.tcopyEnd o x 0 = engineEnds s o 0 x.sc x.cw x.cv := endOp_unflip asked live ..

theorem exec_tcopyComplete {i n : Nat} {s t : State} {o : EngineOp} {x y : TcopyOp} {h : Shape} (op : s.findOp i = some o)
    (kind : o.kind = .tcopy x) (whole : x.filling = false) (asked : o.cancel = false) (good : x.bad = none)
    (shape : shapeOf x.shape = some h) (fits : h.size * h.count ≤ x.len) (moves : State.tcopyMany o h n x s = (none, y, t))
    (credit : 0 < s.creditNow o.part o.die) :
    exec (.tcopyComplete i n) s = .next (if h.count ≤ y.d then t.tcopyEnd o x 0 else t.setOp i fun _ => .tcopy y) := by
  show execTcopyComplete i n s = _
  simp only [execTcopyComplete, op, kind, whole, asked, Bool.false_eq_true, or_self, if_false, good, shape, if_neg (Nat.not_lt.mpr fits),
    moves, paid_credit _ _ _ _ credit]

/-! ### The watchdog -/

theorem findIdx_fires {g : Gang} {n : Nat} {e : SetEntry} {p : SetEntry → Bool} (at_ : g.sets[n]? = some e) (fires : p e = true)
    (lowest : ∀ m < n, ∀ y, g.sets[m]? = some y → p y = false) : g.sets.findIdx? p = some n := by
  obtain ⟨hn, rfl⟩ := List.getElem?_eq_some_iff.mp at_
  rw [List.findIdx?_eq_some_iff_getElem]
  exact ⟨hn, fires, fun m hm => by simp [lowest m hm _ (List.getElem?_eq_getElem (by omega))]⟩

theorem exec_barrierTimeout {key n : Nat} {s : State} {e : SetEntry} (at_ : (s.gang key).sets[n]? = some e)
    (fires : s.fires (s.gang key) e = true)
    (lowest : ∀ m < n, ∀ y, (s.gang key).sets[m]? = some y → s.fires (s.gang key) y = false) :
    exec (.barrierTimeout key n) s = .next
      (s.terminate (s.gang key).vf (s.gang key).part (s.gang key).launch
        ([0x0F, 0, 0, 0, BitVec.ofNat 64 (0x200 + (s.gang key).index % 2 ^ 32 * 2 ^ 32), 0, 0, BitVec.ofNat 64 s.time] ++
          s.setDiagnostic (s.gang key) n e)) := by
  have hfirst := findIdx_fires at_ fires lowest
  have hentry : (s.gang key).sets.getD n {} = e := by rw [List.getD_eq_getElem?_getD, at_]; rfl
  show execBarrierTimeout key n s = _
  simp only [execBarrierTimeout, at_, Option.map_some, fires, hfirst, Option.getD_some, hentry]
  rfl

theorem engineEvents_exec {i : Instr} {s t : State} (h : Statements.EngineEvents i s t) : exec i s = .next t := by
  cases h with
  | index i _ t o x bs op kind first asked runs more row read credit =>
    rw [exec_gatherService op kind first asked runs more, gatherStep_index row read, paid_credit _ _ _ _ credit]
  | rowRead i _ t o x a bs op kind first asked runs more row part read credit =>
    rw [exec_gatherService op kind first asked runs more, gatherStep_read row part read, paid_credit _ _ _ _ credit]
  | sectorWritten i _ o x r op kind first asked runs more row whole part =>
    rw [exec_gatherService op kind first asked runs more, gatherStep_write row whole, if_neg (Nat.not_le.mpr part)]
    exact congrArg _ (paid_free s _ _ _ rfl)
  | rowWritten i _ o x r op kind first asked runs more row whole last =>
    rw [exec_gatherService op kind first asked runs more, gatherStep_write row whole, if_pos last]
    exact congrArg _ (paid_free s _ _ _ rfl)
  | gathered i _ o x op id kind live all good asked credit => exact exec_gatherComplete op id kind live all good asked credit
  | recordMore i _ t u o x y bs op kind runs page normal read more credit =>
    show execRecordFill i s = _
    simp only [execRecordFill, op, kind, runs, recordSector_next page normal read, decide_eq_true more, Bool.not_true, Bool.false_and,
      Bool.false_eq_true, if_false, paid_credit _ _ _ _ credit]
  | recordDone i _ t u o x y bs op kind runs first page normal keep read all credit =>
    show execRecordFill i s = _
    simp only [execRecordFill, op, kind, runs, recordSector_next page normal read, decide_eq_false (Nat.not_lt.mpr all), first, keep,
      Bool.not_true, Bool.not_false, Option.isNone_none, Bool.and_self, Bool.false_eq_true, if_false, if_true, paid_credit _ _ _ _ credit]
  | copied i n _ t o x y h op id kind whole asked live good shape fits moves all credit =>
    rw [exec_tcopyComplete op kind whole asked good shape fits moves credit, if_pos all, tcopyEnd_ok x asked live]
  | copies i n _ t o x y h op kind whole asked good shape fits moves more credit =>
    rw [exec_tcopyComplete op kind whole asked good shape fits moves credit, if_neg (Nat.not_le.mpr more)]
  | arrives i _ o x g op kind runs asked new gate gang inside free =>
    have hfree : (x.dstTiles.any fun t => match g.owner t with
        | .engine k => k != i
        | _ => false) = false := by
      refine List.any_eq_false.mpr fun t ht => ?_
      cases h : g.owner t with
      | engine k => simp [free t ht k h]
      | thread => simp
      | software => simp
    show execPutArrival i s = _
    simp only [execPutArrival, op, kind, runs, asked, Option.isSome_none, Bool.false_eq_true, or_self, if_false, new, gate, gang, inside,
      Bool.not_true]
    exact if_neg fun h => Bool.false_ne_true (hfree.symm.trans h)
  | rejected i _ o x op kind runs asked new gate =>
    show execPutArrival i s = _
    simp only [execPutArrival, op, kind, runs, asked, Option.isSome_none, Bool.false_eq_true, or_self, if_false, new, gate, if_true]
  | lands i _ o x key op kind runs asked landed good credit =>
    show execPutArrival i s = _
    simp only [execPutArrival, op, kind, runs, asked, Option.isSome_none, Bool.false_eq_true, or_self, if_false, landed, good,
      Nat.lt_irrefl]
    exact congrArg _ (paid_credit (s.putCopy o x key (x.len / 32)) _ _ _ credit)
  | putEnds i _ o x st op id kind live done free asked credit =>
    subst id
    have hheld : held st = false := free
    show execPutComplete o.id s = _
    simp only [execPutComplete, op, kind, done, asked, hheld, Bool.false_eq_true, if_false, endOp_unflip asked live,
      paid_credit _ _ _ _ credit]
  | watchdog key n _ e at_ fires lowest => exact exec_barrierTimeout at_ fires lowest

/-- Settles O49: each event finds its operation, and acts once on it. -/
theorem engineEvents : Obligations.EngineEvents := fun _ _ _ => engineEvents_exec

end Sys2Proof.Machine
end

section
/-! PROOFS. Events of outstanding accesses and of the caches (R159, R173, R174, R177, R185, R187, R281, R300, R359). -/
namespace Sys2Proof.Machine
open Sys2Proof Sys2Proof.Statements

/-! ### Results and stores -/

/-- A queue none of whose entries touches the sectors: none is due. -/
theorem dueEntries_none {p : StoreOp → Bool} {q : List StoreOp} {secs : List (Nat × Nat)}
    (clear : ∀ x ∈ q, p x = true → ∀ y ∈ x.secs, y ∉ secs) : dueEntries p q secs = ([], q) := by
  have hfold : q.foldr (dueStep p) ([], [], secs) = ([], q, secs) := by
    induction q with
    | nil => rfl
    | cons o q ih =>
      have hstep : (p o && o.secs.any fun x => x ∈ secs) = false := by
        cases hp : p o with
        | false => rfl
        | true => simpa using fun a b => clear o List.mem_cons_self hp (a, b)
      rw [List.foldr_cons, ih fun x hx => clear x (List.mem_cons_of_mem o hx)]
      simp only [dueStep, hstep, Bool.false_eq_true, if_false]
  rw [dueEntries_eq, hfold]

theorem exec_loadResultReturn {j : Nat} {lanes : LaneMask} {rem : List RemLane} {s : State} {e : Outst} (at_ : s.grp.outst[j]? = some e)
    (sfu : ∀ fn x, e.kind ≠ .sfu fn x) (gred : ∀ o, e.kind ≠ .gred o) (credit : 0 < s.creditNow s.grp.part s.grp.die) :
    exec (.loadResultReturn j lanes rem) s = .next (s.returnAt j lanes rem).finishAcquires := by
  show execLoadResultReturn j lanes rem s = _
  simp only [execLoadResultReturn, at_, paid_credit _ _ _ _ credit]

/-- A result of the special function unit. -/
def Outst.isSfu (x : Outst) : Bool :=
  match x.kind with
  | .sfu _ _ => true
  | _ => false

theorem isSfu_iff (x : Outst) : x.isSfu = true ↔ ∃ fn v, x.kind = .sfu fn v := by
  unfold Outst.isSfu
  split
  · next fn v h => exact iff_of_true rfl ⟨fn, v, h⟩
  · next h => exact iff_of_false Bool.false_ne_true fun ⟨fn, v, hk⟩ => h fn v hk

theorem exec_sfuResult {j : Nat} {s : State} {e : Outst} {fn : ℕ} {v : List W32} (at_ : s.grp.outst[j]? = some e)
    (kind : e.kind = .sfu fn v) (first : ∀ y ∈ s.grp.outst.take j, ∀ fn x, y.kind = .sfu fn x → y.tags.meets e.tags = false) :
    exec (.sfuResult j) s = .next (s.returnAt j s.sfuLanes []) := by
  have hself : e.isSfu = true := (isSfu_iff e).mpr ⟨fn, v, kind⟩
  have hfirst : (s.grp.outst.take j).any (fun x => x.isSfu && x.tags.meets e.tags) = false := by
    refine List.any_eq_false.mpr fun y hy h => ?_
    obtain ⟨hsfu, hmeets⟩ := Bool.and_eq_true_iff.mp h
    obtain ⟨fn', v', hk⟩ := (isSfu_iff y).mp hsfu
    rw [first y hy fn' v' hk] at hmeets
    cases hmeets
  have hgo : ¬((!e.isSfu) = true ∨ (s.grp.outst.take j).any (fun x => x.isSfu && x.tags.meets e.tags) = true) := by
    rw [hself, hfirst]
    simp
  show execSfuResult j s = _
  simp only [execSfuResult, at_]
  exact if_neg hgo

theorem exec_storePerformed_near {j : Nat} {s : State} {o : StoreOp} {sc : Scope} {cp : Cp} {lanes : List LaneAcc} {ty : Ty}
    (at_ : s.wq[j]? = some o) (counts : o.counted = true) (kind : o.kind = .store sc cp lanes ty) (narrow : sc = .grp ∨ sc = .gang)
    (normal : ∀ l ∈ lanes, ∀ p ∈ l.pieces, p.kind = .normal) :
    exec (.storePerformed j) s = .next { s with wq := s.wq.set j { o with counted := false } } := by
  have hnarrow : isNarrow sc = true := by obtain rfl | rfl := narrow <;> rfl
  have hgroup : o.atGroup = true := by
    simp only [StoreOp.atGroup, kind, hnarrow, Bool.true_and, List.all_eq_true, beq_iff_eq]
    exact normal
  show execStorePerformed j s = _
  simp only [execStorePerformed, at_, counts, hgroup, and_self, if_true]

theorem exec_storePerformed_far {j : Nat} {s : State} {o : StoreOp} (at_ : s.wq[j]? = some o) (far : o.atGroup = false ∨ o.counted = false)
    (local' : ∀ ty lanes, o.kind ≠ .remote ty lanes) (first : ∀ x ∈ s.wq.take j, x.ofCore o.here = true → ∀ y ∈ x.secs, y ∉ o.secs)
    (credit : 0 < s.creditNow o.part o.die) :
    exec (.storePerformed j) s = .next (({ s with wq := s.wq.take j ++ s.wq.drop (j + 1) } : State).performEntry o) := by
  have hfar : ¬(o.counted = true ∧ o.atGroup = true) := by
    rintro ⟨hc, hg⟩
    obtain h | h := far
    · rw [hg] at h; cases h
    · rw [hc] at h; cases h
  have hlocal : o.isRemote = false := by
    unfold StoreOp.isRemote
    split
    · next h => exact absurd h (local' _ _)
    · rfl
  show execStorePerformed j s = _
  simp only [execStorePerformed, at_, if_neg hfar, hlocal, Bool.false_eq_true, if_false, dueEntries_none first, List.nil_append,
    List.foldl_cons, List.foldl_nil, paid_credit _ _ _ _ credit]

/-! ### Walks -/

theorem endMiss_mapped (s : State) (j : Nat) (m : Miss) (va : Nat) (l1 l2 : Leaf) :
    s.endMiss j m va (.ok (l1, l2)) = (({ s with misses := s.misses.take j ++ s.misses.drop (j + 1) } : State).tlbAdd
      (combine m.die (some (m.cluster, m.core)) m.part m.vf va l1 l2)).retryCore m none := by
  rw [← dropAt_eq]
  rfl

theorem endMiss_failed (s : State) (j : Nat) (m : Miss) (va : Nat) (f : WalkFault) :
    s.endMiss j m va (.error f) = ({ s with misses := s.misses.take j ++ s.misses.drop (j + 1) } : State).retryCore m (some f) := by
  rw [← dropAt_eq]
  rfl

/-! ### Waiting on a word -/

theorem reread_next {s u : State} {w : Waiting} (walk : w.miss = false) (runs : s.stirs = true) (read : s.waitRead w = .ok u)
    (credit : 0 < s.creditNow s.grp.part s.grp.die) : s.reread w = .next u := by
  have hread : memFinish s (s.waitRead w) = .next u := by rw [read]; rfl
  simp only [State.reread, walk, runs, Bool.not_true, Bool.false_eq_true, or_self, if_false, hread, paid_credit _ _ _ _ credit]

theorem exec_reread {i : Instr} {s : State} {w : Waiting} (form : i = .waitaReread ∧ (w.host = false ∨ w.due = true) ∨
    i = .waitaPollTimeout ∧ w.since + 100000 ≤ s.time) (wait : s.slot.park = .waita w) : exec i s = s.reread w := by
  obtain ⟨rfl, due⟩ | ⟨rfl, late⟩ := form
  · have hdue : ¬(w.host = true ∧ (!w.due) = true) := by
      obtain h | h := due <;> simp [h]
    show execWaitaReread s = _
    simp only [execWaitaReread, wait, if_neg hdue]
  · show execWaitaPollTimeout s = _
    simp only [execWaitaPollTimeout, wait, if_pos late]

/-! ### Releases, evictions, write-backs -/

theorem releaseWaits_eq_false {s : State} {sc : Scope}
    (stores : sc = .sys → ∀ o ∈ s.wq, o.group = s.grp.key → s.earlier o.tags = true → o.unanswered = false)
    (loads : sc = .sys → ∀ e ∈ s.grp.outst, s.earlier e.tags = true → e.isRemote = false)
    (free : s.awaits (fun e => s.earlier e.tags && e.cnt != .sfu && !e.isRemote && !e.isGred) = false) : s.releaseWaits sc = false := by
  have hsys : (sc == .sys && (s.wq.any (fun o => o.group == s.grp.key && s.earlier o.tags && o.unanswered) ||
      s.grp.outst.any fun e => s.earlier e.tags && e.isRemote)) = false := by
    by_cases h : sc = .sys
    · have hs : (s.wq.any fun o => o.group == s.grp.key && s.earlier o.tags && o.unanswered) = false := by
        simpa using fun o ho hg he => stores h o ho hg he
      have hl : (s.grp.outst.any fun e => s.earlier e.tags && e.isRemote) = false := by
        simpa using fun e he h' => loads h e he h'
      rw [hs, hl]
      simp
    · simp [h]
  simp only [State.releaseWaits, hsys, free, Bool.or_self]

theorem evictLine_eq (s : State) (die part line : Nat) : s.evictLine die part line =
    { s with
      l2 := s.l2.filter fun y => !y.ofLine die part line
      wbuf := s.wbuf ++ (s.l2.filter fun y => y.ofLine die part line && y.dirty != 0 && !y.bad).map fun y =>
        ⟨y.die, y.part, y.vf, y.sec, y.bytes, y.dirty, y.dirty == 0xFFFFFFFF⟩
      kills := s.kills ++ (s.l2.filter fun y => y.ofLine die part line && y.dirty != 0 && y.bad).map fun y =>
        (y.vf, y.part, 32 * y.sec) } := by
  simp only [State.evictLine, List.filter_filter, Bool.and_comm]

/-- The oldest write-back of its sector is taken alone. -/
theorem exec_writebackAck {j : Nat} {s : State} {w : WbEntry} (at_ : s.wbuf[j]? = some w)
    (oldest : ∀ x ∈ s.wbuf.take j, ¬(x.die = w.die ∧ x.part = w.part ∧ x.sec = w.sec)) :
    exec (.writebackAck j) s = .next (({ s with wbuf := s.wbuf.take j ++ s.wbuf.drop (j + 1) } : State).ackEntry w) := by
  have hother : ∀ x ∈ s.wbuf.take j, (x.die == w.die && x.part == w.part && x.sec == w.sec) = false := fun x hx => by
    simpa [and_assoc, ← not_and] using oldest x hx
  have hkeep : (s.wbuf.take j).filter (fun x => !(x.die == w.die && x.part == w.part && x.sec == w.sec)) = s.wbuf.take j :=
    List.filter_eq_self.mpr fun x hx => by simp [hother x hx]
  have hnone : (s.wbuf.take j).filter (fun x => x.die == w.die && x.part == w.part && x.sec == w.sec) = [] :=
    List.filter_eq_nil_iff.mpr fun x hx => by simp [hother x hx]
  have hone : (s.wbuf.take (j + 1)).filter (fun x => x.die == w.die && x.part == w.part && x.sec == w.sec) = [w] := by
    rw [List.take_add_one, List.filter_append, hnone, at_]
    simp
  show execWritebackAck j s = _
  simp only [execWritebackAck, at_, hkeep, hone, List.foldl_cons, List.foldl_nil]

theorem accessEvents_exec {i : Instr} {s t : State} (h : AccessEvents i s t) : exec i s = .next t := by
  cases h with
  | result j lanes rem _ e at_ sfu gred credit => exact exec_loadResultReturn at_ sfu gred credit
  | special j _ e fn x at_ kind first => exact exec_sfuResult at_ kind first
  | storeNear j _ o sc cp lanes ty at_ counts kind narrow normal => exact exec_storePerformed_near at_ counts kind narrow normal
  | storePerformed j _ o at_ far local' first credit => exact exec_storePerformed_far at_ far local' first credit
  | walkMapped j _ t m l1 l2 at_ walker here credit walk =>
    show execTranslationWalkDone j s = _
    simp only [execTranslationWalkDone, at_, here, walker, Bool.not_true, Bool.false_eq_true, or_self, if_false, walk,
      paid_credit _ _ _ _ credit, endMiss_mapped]
  | walkFails j _ t m f at_ walker here credit walk =>
    show execTranslationWalkDone j s = _
    simp only [execTranslationWalkDone, at_, here, walker, Bool.not_true, Bool.false_eq_true, or_self, if_false, walk,
      paid_credit _ _ _ _ credit, endMiss_failed]
  | walkToRoot j _ t m f at_ walker here credit walk =>
    show execTranslationWalkDone j s = _
    simp only [execTranslationWalkDone, at_, here, walker, Bool.not_true, Bool.false_eq_true, or_self, if_false, walk,
      paid_credit _ _ _ _ credit]
  | rootMapped j _ t m l1 l2 at_ there credit walk =>
    show execStage2FaultToRoot j s = _
    simp only [execStage2FaultToRoot, at_, there, Bool.not_true, Bool.false_eq_true, if_false, walk, paid_credit _ _ _ _ credit,
      endMiss_mapped]
  | rootFails j _ t m f at_ there credit walk =>
    show execStage2FaultToRoot j s = _
    simp only [execStage2FaultToRoot, at_, there, Bool.not_true, Bool.false_eq_true, if_false, walk, paid_credit _ _ _ _ credit,
      endMiss_failed]
  | rereadMet _ _ w accs bs t form wait walk runs credit ok free read eight met =>
    rw [exec_reread form wait]
    exact reread_next walk runs ((waitRead_eq ok free read eight).trans (if_pos met)) credit
  | rereadParks _ _ w accs bs t form wait walk runs credit ok free read eight unmet =>
    rw [exec_reread form wait]
    exact reread_next walk runs ((waitRead_eq ok free read eight).trans (if_neg (unmet ▸ Bool.false_ne_true))) credit
  | released _ sc wait stores loads free =>
    show execFenceReleaseDone s = _
    simp only [execFenceReleaseDone, wait, releaseWaits_eq_false stores loads free, Bool.false_eq_true, if_false]
  | evict j _ x line at_ chosen =>
    show execL2Eviction j s = _
    simp only [execL2Eviction, at_, chosen, Option.getD_some, evictLine_eq]
  | writeback j _ w at_ oldest part =>
    rw [exec_writebackAck at_ oldest]
    simp only [State.ackEntry, part, Bool.false_eq_true, if_false]
  | writebackWhole j _ w at_ oldest whole =>
    rw [exec_writebackAck at_ oldest]
    simp only [State.ackEntry, whole, if_true]

/-- Settles O41: each event finds what it speaks of, and its guards hold. -/
theorem accessEvents : Obligations.AccessEvents := fun _ _ _ => accessEvents_exec

end Sys2Proof.Machine
end

section
/-! PROOFS. Events of bundles and joins (R28, R31 to R36, R78 to R80, R195). -/
namespace Sys2Proof.Machine
open Sys2Proof Sys2Proof.Statements

theorem mayFetch_of_mayGo {s : State} (h : mayGo s) : s.mayFetch = true := by
  obtain ⟨occ, runs, err, switch⟩ := h
  have hswitch : (s.slot.park != .switch || s.drained) = true := by simpa using switch
  simp only [State.mayFetch, occ, runs, err, hswitch, Option.isNone_none, Bool.and_self]

theorem setSlot_congr {s : State} {f g : Slot → Slot} (h : f s.slot = g s.slot) : s.setSlot f = s.setSlot g := by
  have hgrp : s.grp.setSlot s.sel f = s.grp.setSlot s.sel g := by
    unfold State.slot at h
    cases hsel : s.sel with
    | a => rw [hsel] at h; exact congrArg (fun x => { s.grp with slotA := x }) h
    | b => rw [hsel] at h; exact congrArg (fun x => { s.grp with slotB := x }) h
  exact congrArg (fun g => { s with grp := g }) hgrp

/-! ### Taking a bundle -/

/-- A path that asks for its bundle, with the line in its core. -/
theorem exec_bundleDecode {s : State} {l : ILine} (asks : fetching s) (line : s.cachedLine = some l) :
    exec .bundleDecode s = .next (match l.fault with
      | some r => ({ s with icache := s.icache.erase l } : State).fetchFault r
      | none => if va55 s.slot.pcb % 256 / 64 ∈ l.bad then s.fetchFault 3 else s.hold ⟨s.slot.pcb, bundleIn s l⟩) := by
  have hgo : ¬(s.slot.ibuf.isSome = true ∨ (!s.mayFetch) = true) := by simp [asks.empty, mayFetch_of_mayGo asks.tomayGo]
  show execBundleDecode s = _
  simp only [execBundleDecode, if_neg hgo, line]
  cases l.fault with
  | some r => rfl
  | none => dsimp only; split <;> rfl

theorem hold_valid {s : State} {b : Bundle} (valid : badWord b.words = none) (at_ : startOk b.words s.slot.idx = true)
    (inside : s.slot.idx ≤ (b.words.headD 0).toNat % 16) : s.hold b = s.setSlot fun x => { x with ibuf := some b } := by
  have hinside : ¬((s.setSlot fun x => { x with ibuf := some b }).slot.idx = (s.setSlot fun x => { x with ibuf := some b }).slot.ctl % 16 + 1 ∧
      (!(s.setSlot fun x => { x with ibuf := some b }).slot.isAsleep) = true) := by
    rintro ⟨hidx, -⟩
    rw [State.slot_setSlot] at hidx
    have : s.slot.idx = (b.words.headD 0).toNat % 16 + 1 := hidx
    omega
  simp only [State.hold, valid, at_, Bool.not_true, Bool.false_eq_true, if_false, if_neg hinside]

theorem hold_invalid {s : State} {b : Bundle} {i : Nat} (bad : badWord b.words = some i) :
    s.hold b = s.trap { code := 0x01, addr := s.slot.pcb + BitVec.ofNat 64 (4 * i) } := by
  simp only [State.hold, bad]
  rfl

/-! ### Asking for a line -/

theorem exec_miss {s : State} (asks : fetching s) (miss : s.cachedLine = none) (addr : canonical s.slot.pcb = true) :
    exec .instructionCacheMiss s = match s.translateFor s.grp.die s.grp.part s.grp.vf s.slot.pcb (·.x) with
      | (.ok x, t) => .next (s.paid s.grp.part s.grp.die (t.askLine x).fetchAhead)
      | (.error f, t) => .next (s.paid s.grp.part s.grp.die (t.fetchFault (fetchReason f))) := by
  have hgo : ¬(s.slot.ibuf.isSome = true ∨ (!s.mayFetch) = true ∨ s.cachedLine.isSome = true) := by
    simp [asks.empty, mayFetch_of_mayGo asks.tomayGo, miss]
  show execInstructionCacheMiss s = _
  simp only [execInstructionCacheMiss, if_neg hgo, addr, Bool.not_true, Bool.false_eq_true, if_false] <;>
  rcases s.translateFor s.grp.die s.grp.part s.grp.vf s.slot.pcb (·.x) with ⟨_ | _, t⟩ <;> rfl

theorem askLine_eq {t : State} (x : Xl) (awake : ∀ d w, t.slot.park ≠ .sleep d w) :
    t.askLine x = (t.ask (lineOf t.slot.pcb) x).park .fetch := by
  unfold State.askLine
  dsimp only
  split
  · next h => exact absurd h (awake _ _)
  · rfl

theorem ask_new {t : State} (x : Xl) (new : t.fetchq.any (asksLine t) = false) :
    t.ask (lineOf t.slot.pcb) x = { t with fetchq := t.fetchq ++ [freshLine t x] } :=
  congrArg (fun q => { t with fetchq := q }) (if_neg (Bool.eq_false_iff.mp new))

theorem ask_old {t : State} (x : Xl) (old : t.fetchq.any (asksLine t) = true) :
    t.ask (lineOf t.slot.pcb) x = { t with fetchq := updateFirst (asksLine t) (joins t) t.fetchq } := by
  have hjoins : joins t = fun e => { e with
      cores := if (t.grp.cluster, t.grp.core) ∈ e.cores then e.cores else e.cores ++ [(t.grp.cluster, t.grp.core)] } := by
    funext e
    unfold joins
    split <;> rfl
  rw [hjoins]
  exact congrArg (fun q => { t with fetchq := q }) (if_pos old)

/-! ### A line that is filled -/

/-- The cores of groups that run an entry's kernel. -/
def runsLine (t : State) (e : FetchEntry) (g : Group) : Bool :=
  g.die == e.die && g.part == e.part && g.vf == e.vf && (t.gang g.gang).codeBase == e.codeBase

theorem exec_multicastFill {j : Nat} {s t : State} {e : FetchEntry} {bs : List Byte} {bad : List Nat} (at_ : s.fetchq[j]? = some e)
    (line : ({ s with fetchq := s.fetchq.take j ++ s.fetchq.drop (j + 1) } : State).readLine e = (bs, bad, t))
    (asked : ∀ g ∈ t.allGroups, runsLine t e g = true → (g.cluster, g.core) ∈ e.cores) (credit : 0 < s.creditNow e.part e.die) :
    exec (.multicastFill j) s = .next
      ((e.cores.foldl (fun s c => s.install ⟨e.die, c.1, c.2, e.part, e.vf, e.codeBase, e.line, bs, bad, none⟩) t).forGroups
        (fun g => runsLine t e g && decide ((g.cluster, g.core) ∈ e.cores)) fun s => s.setGrp Group.fetched) := by
  have hothers : ((distinct ((t.allGroups.filter (runsLine t e)).map fun g => (g.cluster, g.core))).filter fun c => c ∉ e.cores).filter
      (fun c => Config.choice t.tick (0x8000 + 4 * c.1 + c.2) % 2 == 0) = [] := by
    have hnone : (distinct ((t.allGroups.filter (runsLine t e)).map fun g => (g.cluster, g.core))).filter (fun c => c ∉ e.cores) = [] := by
      refine List.filter_eq_nil_iff.mpr fun c hc => ?_
      obtain ⟨g, hg, rfl⟩ := List.mem_map.mp (mem_of_mem_distinct hc)
      obtain ⟨hall, hruns⟩ := List.mem_filter.mp hg
      simpa using asked g hall hruns
    rw [hnone]
    rfl
  have hread : ({ s with fetchq := dropAt s.fetchq j } : State).readLine e = (bs, bad, t) := by rw [dropAt_eq]; exact line
  show execMulticastFill j s = _
  simp only [execMulticastFill, at_, hread, paid_credit _ _ _ _ credit]
  exact congrArg (fun l => Host.Outcome.next (((e.cores ++ l).foldl
    (fun s c => s.install ⟨e.die, c.1, c.2, e.part, e.vf, e.codeBase, e.line, bs, bad, none⟩) t).forGroups
      (fun g => runsLine t e g && decide ((g.cluster, g.core) ∈ e.cores)) fun s => s.setGrp Group.fetched)) hothers |>.trans
    (by rw [List.append_nil])

/-! ### Arrivals -/

theorem exec_joinArrival {s : State} (h : arrives s) :
    exec .joinArrival s = finish s (s.arriveLoop (s.slot.coil.length + 2) s.slot.pcb >>= fun t =>
      if t.slot.park = .join ∧ t.mergeReady then t.merge else .ok t) := by
  have hgo : ¬((!s.mayFetch) = true ∨ s.slot.pj ≠ some s.slot.pcb ∨ s.slot.idx ≠ 1 ∨ s.slot.ibuf.isNone = true) := by
    have hnone : s.slot.ibuf.isNone = false := Option.isNone_eq_false_iff.mpr h.has
    simp [mayFetch_of_mayGo h.tomayGo, h.at_, h.first, hnone, -Option.isNone_iff_eq_none]
  show execJoinArrival s = _
  simp only [execJoinArrival, if_neg hgo, State.arrive, h.mark, must_true, ok_bind]

theorem coilTop_empty {s : State} (empty : s.slot.coil = []) : s.coilTop = .ok (none, s) := by
  simp only [State.coilTop, empty]

theorem coilTop_of_topOf {s t : State} {e : CoilEntry} (top : topOf s e t) : s.coilTop = .ok (some e, t) := by
  obtain ⟨r, coil, read⟩ := top
  simp only [State.coilTop, coil, read, if_true]

/-- With no coil entry the path parks at the slot-level join. -/
theorem arriveLoop_empty {s : State} {j : SlotJoin} (n : Nat) (at_ : s.slot.pj = some s.slot.pcb) (empty : s.slot.coil = [])
    (join : s.grp.sjoin = some j) (same : j.depth = s.slot.depth ∧ j.sp = s.slot.sp) :
    s.arriveLoop (n + 1) s.slot.pcb = .ok (s.park .join) := by
  have hmust : (j.depth == s.slot.depth && j.sp == s.slot.sp) = true := by simp [same]
  simp only [State.arriveLoop, at_, ne_eq, not_true_eq_false, if_false, coilTop_empty empty, ok_bind, State.recorded, join, Option.map_some,
    hmust, must_true]

theorem other_slot_park (s : State) (p : Park) : (s.park p).grp.slot s.sel.other = s.grp.slot s.sel.other :=
  Group.slot_setSlot_other _ _ _ _ (by cases s.sel <;> nofun)

/-- The slot that takes part in no merge yet. -/
theorem mergeReady_away {s : State} (other : (s.grp.slot s.sel.other).occ = true) (away : (s.grp.slot s.sel.other).park ≠ .join) :
    (s.park .join).mergeReady = false := by
  have haway : ((s.grp.slot s.sel.other).park == .join) = false := beq_eq_false_iff_ne.mpr away
  unfold State.mergeReady
  show ((!((s.park .join).grp.slot s.sel.other).occ || (((s.park .join).grp.slot s.sel.other).park == .join && _ && _)) && _ && _) = false
  rw [other_slot_park, other, haway]
  rfl

theorem mergeReady_there {s : State} (err : s.slot.derr = none)
    (there : (s.grp.slot s.sel.other).park = .join ∧ (s.grp.slot s.sel.other).pcb = s.slot.pcb ∧ (s.grp.slot s.sel.other).derr = none)
    (room : ∀ c, (c = .ld ∨ c = .st ∨ c = .sm ∨ c = .tl) → s.count (fun t => t.a || t.b) c ≤ 63) :
    (s.park .join).mergeReady = true := by
  obtain ⟨park, pcb, derr⟩ := there
  have hcount (c) : (s.park .join).count (fun t => t.a || t.b) c = s.count (fun t => t.a || t.b) c := by
    simp [State.count]
  have hroom := And.intro (room .ld (by simp)) (And.intro (room .st (by simp)) (And.intro (room .sm (by simp)) (room .tl (by simp))))
  unfold State.mergeReady
  simp only [hcount, decide_eq_true hroom, State.slot_park, err]
  show ((!((s.park .join).grp.slot s.sel.other).occ || (((s.park .join).grp.slot s.sel.other).park == .join &&
    ((s.park .join).grp.slot s.sel.other).pcb == s.slot.pcb && ((s.park .join).grp.slot s.sel.other).derr.isNone)) && _ && _) = true
  simp [other_slot_park, park, pcb, derr]

/-- The group with one path, in slot A. -/
def mergedInto (s : State) (z : Slot) : State :=
  { ((s.setGrp fun g => { g with slotA := z, slotB := {}, sjoin := none }).retag fun t => { t with a := t.a || t.b, b := false }) with sel := .a }

theorem mergedInto_park (s : State) (p : Park) (z : Slot) : mergedInto (s.park p) z = mergedInto s z := by
  have h : ({ s.grp.setSlot s.sel (fun x => { x with park := p }) with slotA := z, slotB := {}, sjoin := none } : Group) =
      { s.grp with slotA := z, slotB := {}, sjoin := none } := by
    cases s.sel <;> rfl
  exact congrArg (fun g => { ({ s with grp := g } : State).retag fun t => { t with a := t.a || t.b, b := false } with sel := .a }) h

theorem merge_flat {s : State} (other : (s.grp.slot s.sel.other).occ = true)
    (flat : s.slot.frames = [] ∧ (s.grp.slot s.sel.other).frames = []) : (s.park .join).merge = .ok (merged s) := by
  have hother : (s.park .join).grp.slot (s.park .join).sel.other = s.grp.slot s.sel.other := other_slot_park s .join
  have hframes (x y : Slot) (hx : x.frames = [] ∨ y.frames = []) : (s.park .join).mergeFrames x y = .ok ([], s.park .join) := by
    have hmin : min x.frames.length y.frames.length = 0 := by obtain h | h := hx <;> simp [h]
    rw [State.mergeFrames, hmin]
    rfl
  have hmerge : (if (s.park .join).sel = .a then (s.park .join).mergeFrames (s.park .join).slot (s.grp.slot s.sel.other)
      else (s.park .join).mergeFrames (s.grp.slot s.sel.other) (s.park .join).slot) = .ok ([], s.park .join) := by
    split
    · exact hframes _ _ (.inr flat.2)
    · exact hframes _ _ (.inl flat.2)
  simp only [State.merge, hother, other, if_true, hmerge, ok_bind]
  simp only [State.slot_park, State.park_grp_live]
  exact congrArg Except.ok (mergedInto_park s .join _)

theorem fetchEvents_exec {i : Instr} {s t : State} (h : Statements.FetchEvents i s t) : exec i s = .next t := by
  cases h with
  | decodes _ l asks line known good valid at_ inside =>
    rw [exec_bundleDecode asks line, known]
    simp only [if_neg good, hold_valid (b := ⟨s.slot.pcb, bundleIn s l⟩) valid at_ inside]
    exact congrArg _ (setSlot_congr rfl)
  | invalid _ l i asks line known good bad =>
    rw [exec_bundleDecode asks line, known]
    simp only [if_neg good, hold_invalid (b := ⟨s.slot.pcb, bundleIn s l⟩) bad]
  | poisoned _ l asks line known bad =>
    rw [exec_bundleDecode asks line, known]
    simp only [if_pos bad]
    rfl
  | ahead _ l r asks line fault =>
    rw [exec_bundleDecode asks line, fault]
    rfl
  | missNew _ t x asks miss addr page new awake credit =>
    rw [exec_miss asks miss addr, page]
    simp only [paid_credit _ _ _ _ credit, askLine_eq x awake, ask_new x new]
  | missMerged _ t x asks miss addr page old awake credit =>
    rw [exec_miss asks miss addr, page]
    simp only [paid_credit _ _ _ _ credit, askLine_eq x awake, ask_old x old]
  | missHigh _ asks miss addr =>
    have hgo : ¬(s.slot.ibuf.isSome = true ∨ (!s.mayFetch) = true ∨ s.cachedLine.isSome = true) := by
      simp [asks.empty, mayFetch_of_mayGo asks.tomayGo, miss]
    show execInstructionCacheMiss s = _
    simp only [execInstructionCacheMiss, if_neg hgo, addr, Bool.not_false, if_true]
    rfl
  | missFault _ t f asks miss addr page credit =>
    simp only [exec_miss asks miss addr, page, paid_credit _ _ _ _ credit]
    refine congrArg (fun r => Host.Outcome.next (t.trap { code := 0x06, addr := t.slot.pcb, reason := r })) ?_
    cases f <;> rfl
  | fill j _ t e bs bad at_ line asked credit =>
    have hasked : ∀ g ∈ t.allGroups, runsLine t e g = true → (g.cluster, g.core) ∈ e.cores := fun g hg hr => by
      simp only [runsLine, Bool.and_eq_true, beq_iff_eq] at hr
      obtain ⟨⟨⟨die, part⟩, vf⟩, code⟩ := hr
      exact asked g hg die part vf code
    exact exec_multicastFill at_ line hasked credit
  | joinParks _ j at_ empty join same other away =>
    rw [exec_joinArrival at_, arriveLoop_empty _ at_.at_ empty join same, ok_bind]
    have hstay : ¬((s.park .join).slot.park = .join ∧ (s.park .join).mergeReady = true) := by simp [mergeReady_away other away]
    rw [if_neg hstay, finish_ok]
  | joinResumes _ t e at_ top same kind here live =>
    have hmust : (e.depth == t.slot.depth && e.sp == t.slot.sp) = true := by simp [same]
    have hkind : e.kind ≠ .merge := by rw [kind]; nofun
    rw [exec_joinArrival at_]
    simp only [State.arriveLoop, at_.at_, ne_eq, not_true_eq_false, if_false, coilTop_of_topOf top, ok_bind, State.recorded, hmust,
      must_true, if_neg hkind, here, if_neg live, if_pos kind]
    exact congrArg (finish s) (if_neg (by simp))
  | joinMerges _ j at_ empty join same other there flat room =>
    have hmerge : (s.park .join).slot.park = .join ∧ (s.park .join).mergeReady = true := ⟨by simp, mergeReady_there at_.err there room⟩
    rw [exec_joinArrival at_, arriveLoop_empty _ at_.at_ empty join same, ok_bind, if_pos hmerge, merge_flat other flat, finish_ok]
  | joinPops _ t e at_ top same kind here live away runs =>
    have hmust : (e.depth == t.slot.depth && e.sp == t.slot.sp) = true := by simp [same]
    rw [exec_joinArrival at_]
    simp only [State.arriveLoop, at_.at_, ne_eq, not_true_eq_false, if_false, coilTop_of_topOf top, ok_bind, State.recorded, hmust,
      must_true, if_pos kind, if_pos here, if_pos live, State.slot_setSlot, away, not_false_eq_true, if_true]
    exact congrArg (finish s) (if_neg (by simp [runs]))
  | dataError _ e normal raised err code quiet now =>
    have hcause : e.cause = { code := 0x10, addr := e.ea, aux0 := e.epc, lane := some e.lane } := by
      have hn : e.code ≠ cNmu := by rw [code]; decide
      rw [DataErr.cause, if_neg hn]
      rfl
    have hentry : ((s.gang s.grp.gang).trapEntry == 0) = false := beq_eq_false_iff_ne.mpr normal.2
    have hwait : (s.setSlot fun x => { x with derr := none }).mustWait = false := by simpa [State.mustWait] using now
    have houtst : (s.setSlot fun x => { x with derr := none }).grp.outst = [] := by simpa using quiet
    show execTrapEntry s = _
    simp only [execTrapEntry, raised, err, State.trapTo, normal.1, hentry, Bool.or_self, Bool.false_eq_true, if_false, hwait, houtst,
      bne_self_eq_false, Bool.false_and, hcause]
  | drained _ j c raised now =>
    show execTrapEntry s = _
    simp only [execTrapEntry, raised, now, Bool.false_eq_true, if_false]

/-- Settles O42: each event's guards hold, and it has the effect of its row. -/
theorem fetchEvents : Obligations.FetchEvents := fun _ _ _ => fetchEvents_exec

end Sys2Proof.Machine
end

section
/-! PROOFS. The matrix engine and the tile store: what issues, and what the reservation table serves (R221 to R242). -/
namespace Sys2Proof.Machine
open Sys2Proof Sys2Proof.Statements

/-! ### Issue -/

theorem takesFormat_eq_true {s : State} {ty : Ty} (h : formatRuns s ty) : s.takesFormat ty = true := by
  obtain h | rfl | rfl := h
  · simp [State.takesFormat, h]
  · rw [State.takesFormat, beq_self_eq_true, Bool.or_true, Bool.true_or]
  · rw [State.takesFormat, beq_self_eq_true, Bool.or_true]

theorem tableRoom_open {s : State} {counts : Bool} (h : tableOpen s counts) : s.tableRoom counts = .ok () := by
  obtain ⟨few, tl⟩ := h
  have hfull : (counts && s.full .tl) = false := by
    cases counts with
    | false => rfl
    | true => exact decide_eq_false (by have := tl rfl; omega)
  simp only [State.tableRoom, hfull, Bool.false_eq_true, or_false, if_neg (Nat.not_le.mpr few)]

theorem tileHandle_own {s : State} {a : SReg} (own : ownTile s a) : s.tileHandle a = .ok (s.rs a).toNat := by
  have h : s.myGang.hasTile (s.rs a).toNat = true := own
  simp only [State.tileHandle, h, must_true, ok_bind]

/-- The checks of LDSTAT pass. -/
theorem exec_ldstat {q : BitVec 2} {ty : Ty} {f : FReg} {a : SReg} {s : State} (format : formatRuns s ty) (fut : (s.fut f).open = true)
    (al : (s.rs a).toNat % 1024 = 0) (inside : (s.rs a).toNat + 1024 * planeTiles ty ≤ (s.gang s.grp.gang).shared)
    (tiles : threadTiles s (s.rs a).toNat (1024 * planeTiles ty)) :
    exec (.ldstat q ty f a) s = finish s (
      if ((pairHere s q.toNat).map fun p => p.gang != s.grp.gang).getD false then
        .ok ((s.settleFut f ⟨.resolved, stQuadrantBusy, 0⟩).advance 3)
      else do
        s.tableRoom false
        let t : State := if (pairHere s q.toNat).isSome then s.fresh.2
          else { s.fresh.2 with planes := s.planes ++ [⟨s.grp.die, s.grp.cluster, s.grp.bank, q.toNat, s.grp.gang, {}, {}⟩] }
        .ok ((((t.flipTiles s.grp.gang s.nextId (localTiles (s.rs a).toNat (1024 * planeTiles ty))).issueFut f s.nextId).enterTable s.nextId
          (.ldstat q.toNat ty (s.rs a).toNat s.nextId s.nextId)).advance 3)) := by
  have hal : ((s.rs a).toNat % 1024 == 0) = true := beq_iff_eq.mpr al
  have hinside : decide ((s.rs a).toNat + 1024 * planeTiles ty ≤ s.myGang.shared) = true := decide_eq_true inside
  have hthread : s.myGang.owned true (localTiles (s.rs a).toNat (1024 * planeTiles ty)) = none :=
    List.find?_eq_none.mpr fun t ht => by
      have := tiles t ht
      simp [State.myGang, this]
  show execLdstat q ty f a s = _
  simp only [execLdstat, takesFormat_eq_true format, futReady_open fut, hal, hinside, must_true, ok_bind, hthread]
  rfl

/-- The handles that T names. -/
theorem quarterTiles_eq (s : State) (t : SReg) (fus : Nat) :
    ((List.range (tilesOf fus)).map fun i => bits (s.rs t).toNat (8 * i) 8) = quarterTiles s t fus := rfl

/-- The checks of a quarter pass. -/
theorem quarterOp_checked {block : Bool} {q fus n : BitVec 2} {ty : Ty} {sn : Bool} {t : SReg} {a : VReg} {b : SReg} {s : State}
    {gens : List Nat} (format : formatRuns s ty) (regs : s.vcheck [(a, aRegs ty (fus == 3))] [] = .ok ())
    (planes : s.planeCheck ty (quadsOf fus.toNat q.toNat) = some gens)
    (tiles : ∀ h ∈ quarterTiles s t fus.toNat, (s.gang s.grp.gang).alloc.getD h false = true) :
    quarterOp block q fus n ty sn t a b s = finish s (
      if quarterRows s n = [] then .ok (s.advance 3)
      else do
        s.tableRoom true
        .ok ((entered s (.mmq block ty fus.toNat (quadsOf fus.toNat q.toNat) gens (quarterRows s n) (quarterTiles s t fus.toNat)
          (if sn then some ((s.rs b).extractLsb' 0 32) else none)
          ((quarterRows s n).map (quarterWords s a (aRegs ty (fus == 3)))))).advance 3)) := by
  have htiles : (quarterTiles s t fus.toNat).find? (fun h => !s.myGang.hasTile h) = none :=
    List.find?_eq_none.mpr fun h hh => by
      have : s.myGang.hasTile h = true := tiles h hh
      simp [this]
  simp only [quarterOp, takesFormat_eq_true format, must_true, regs, planes, quarterTiles_eq, htiles, ok_bind]
  rfl

theorem quarterForm_exec {i : Instr} {block : Bool} {q fus n : BitVec 2} {ty : Ty} {sn : Bool} {t : SReg} {a : VReg} {b : SReg}
    (form : QuarterForm i block q fus n ty sn t a b) (s : State) : exec i s = quarterOp block q fus n ty sn t a b s := by
  cases form <;> rfl

theorem matrices_exec {i : Instr} {s t : State} (h : Matrices i s t) : exec i s = .next t := by
  cases h with
  | ldstat q ty f a _ format fut al inside tiles own room =>
    have hown : ((pairHere s q.toNat).map fun p => p.gang != s.grp.gang).getD false = false := by
      cases hp : pairHere s q.toNat with
      | none => rfl
      | some p => exact bne_eq_false_iff_eq.mpr (own p hp)
    rw [exec_ldstat format fut al inside tiles, hown]
    simp only [Bool.false_eq_true, if_false, tableRoom_open room, ok_bind, finish_ok]
    cases (pairHere s q.toNat).isSome <;> rfl
  | ldstatBusy q ty f a _ p format fut al inside tiles held other =>
    have hother : ((pairHere s q.toNat).map fun p => p.gang != s.grp.gang).getD false = true := by
      rw [held]
      exact bne_iff_ne.mpr other
    rw [exec_ldstat format fut al inside tiles, hother, if_pos rfl]
    rfl
  | swap q _ p own mine room =>
    have hpair : ((s.pair s.grp.die s.grp.cluster s.grp.bank q.toNat).map (·.gang)) = some s.grp.gang := by
      rw [show s.pair s.grp.die s.grp.cluster s.grp.bank q.toNat = some p from own, Option.map_some, mine]
    show execSwap q s = _
    simp only [execSwap, hpair, ne_eq, not_true_eq_false, if_false, tableRoom_open room, ok_bind]
    rfl
  | quarter _ block q fus n ty sn t a b _ gens form format regs rows planes tiles room =>
    rw [quarterForm_exec form, quarterOp_checked format regs planes tiles, if_neg rows, tableRoom_open room, ok_bind, finish_ok]
  | quarterNone _ block q fus n ty sn t a b _ gens form format regs rows planes tiles =>
    rw [quarterForm_exec form, quarterOp_checked format regs planes tiles, if_pos rows, finish_ok]
  | talloc d _ h free new lowest =>
    have hfirst : (List.range (s.gang s.grp.gang).quota).find? (fun k => !(s.gang s.grp.gang).hasTile k) = some h :=
      find_range_eq_some free (by simpa [Gang.hasTile] using new) fun k hk => by simpa [Gang.hasTile] using lowest k hk
    show execTalloc d s = _
    simp only [execTalloc, State.myGang, hfirst]
    rfl
  | tfree a _ own unused =>
    have hunused : (s.rtab.any fun e => e.gang == s.grp.gang && e.kind.names (s.rs a).toNat) = false := by
      simpa using unused
    show execTfree a s = _
    simp only [execTfree, tileHandle_own own, ok_bind, hunused, Bool.false_eq_true, if_false, finish_ok]
  | tzero a _ own room =>
    show execTzero a s = _
    simp only [execTzero, tileHandle_own own, tableRoom_open room, ok_bind]
    rfl
  | tld c d a _ regs own some' room =>
    show execTld c d a s = _
    simp only [execTld, regs, tileHandle_own own, if_neg some', tableRoom_open room, ok_bind]
    rfl
  | tst c ty rnd sat d a _ regs own some' room =>
    show execTst c ty rnd sat d a s = _
    simp only [execTst, regs, tileHandle_own own, if_neg some', tableRoom_open room, ok_bind, finish_ok]
    split <;> rfl

/-- Settles O50: the checks pass, and the entry joins the table. -/
theorem matrixIssue : Obligations.MatrixIssue := fun _ _ _ => matrices_exec

/-! ### The table's events -/

theorem leaveTable_eq (s : State) (j : Nat) : s.leaveTable j = without s j := by
  rw [State.leaveTable, dropAt_eq]
  rfl

theorem exec_tileStoreServe {j : Nat} {s : State} {e : TabEntry} (at_ : s.rtab[j]? = some e) (next : servedNext s j e) :
    exec (.tileStoreServe j) s =
      match e.kind with
      | .tzero h => .next ((without s j).setGang e.gang fun g => { g with tiles := g.tiles.filter fun x => x.1 / 2048 != h })
      | .tst c h lanes vals =>
        .next ((without s j).setGang e.gang fun g =>
          { g with tiles := ((List.range (lanesOf lanes).length).flatMap fun r => (List.range 8).map fun k =>
              (tileIndex h ((lanesOf lanes).getD r 0) (8 * c + k), (vals.getD r []).getD k 0)).foldl (fun x v => tileSet x v.1 v.2) g.tiles })
      | .tld c h lanes pos _ =>
        .next ((without s j).forGroups (fun g => g.key == e.group) fun u => u.setGrp fun g =>
          (List.range 8).foldl (fun g k =>
            { g with vrf := g.vrf.set ((pos + k) % g.vrf.length) (mixLanes (g.vpos (pos + k)) lanes fun l =>
              tileGet (s.gang e.gang).tiles (tileIndex h l (8 * c + k))) }) g)
      | _ => .next s := by
  have hnext : ¬((s.served e.die e.cluster).head?.map (·.1)) ≠ some j := not_not_intro next
  show execTileStoreServe j s = _
  simp only [execTileStoreServe, at_, if_neg hnext, leaveTable_eq] <;> rfl

/-- A group that is named once is found alone. -/
theorem forGroups_current {s : State} {f : State → State} (once : ∀ g ∈ s.groups, g.key ≠ s.grp.key) (runs : s.grp.live ≠ 0) :
    s.forGroups (fun g => g.key == s.grp.key) f = s.within s.grp.key .a f := by
  have hothers : s.groups.filter (fun g => g.key == s.grp.key) = [] :=
    List.filter_eq_nil_iff.mpr fun g hg => by simpa using once g hg
  simp only [State.forGroups, State.allGroups, if_neg runs, List.filter_append, hothers, List.filter_cons, beq_self_eq_true, if_true,
    List.filter_nil, List.append_nil, List.foldl_cons, List.foldl_nil]

/-- A pass that no other quarter fits stays alone. -/
theorem pass_alone {j : Nat} {e : TabEntry} {more : List (Nat × TabEntry)} (alone : ∀ x ∈ more, fuses e [e] x.2 = false) :
    more.foldl (fun (acc : List (Nat × TabEntry)) x =>
      if acc.length < 4 && fuses e (acc.map (·.2)) x.2 then acc ++ [x] else acc) [(j, e)] = [(j, e)] := by
  induction more with
  | nil => rfl
  | cons x more ih =>
    have hx : fuses e ([(j, e)].map (·.2)) x.2 = false := alone x List.mem_cons_self
    rw [List.foldl_cons, hx, Bool.and_false, if_neg Bool.false_ne_true]
    exact ih fun y hy => alone y (List.mem_cons_of_mem x hy)

theorem tableEvents_exec {i : Instr} {s t : State} (h : TableEvents i s t) : exec i s = .next t := by
  cases h with
  | load j _ e q ty src op gen at_ kind live free good plain =>
    show execLdstatLoadEnd j s = _
    simp only [execLdstatLoadEnd, at_, kind, free, Bool.not_true, Bool.false_eq_true, if_false, if_neg live, leaveTable_eq, plain, if_true]
    exact if_neg (by rw [show (without s j).gang e.gang = s.gang e.gang from rfl, good]; exact Bool.false_ne_true)
  | loadBad j _ e q ty src op gen at_ kind live free bad =>
    show execLdstatLoadEnd j s = _
    simp only [execLdstatLoadEnd, at_, kind, free, Bool.not_true, Bool.false_eq_true, if_false, if_neg live, leaveTable_eq]
    exact if_pos bad
  | swap j _ e q at_ kind free =>
    show execSwapEffect j s = _
    simp only [execSwapEffect, at_, kind, free, Bool.not_true, Bool.false_eq_true, if_false, leaveTable_eq]
  | grant j _ e more at_ first alone mine =>
    have hself : more.filter (fun x => x.1 != j) = more := List.filter_eq_self.mpr fun x hx => bne_iff_ne.mpr (mine x hx)
    have hpass : more.foldl (fun (acc : List (Nat × TabEntry)) x =>
        if acc.length < 4 && fuses e (acc.map (·.2)) x.2 then acc ++ [x] else acc) [(j, e)] = [(j, e)] := pass_alone alone
    show execMatrixPassGrant j s = _
    simp only [execMatrixPassGrant, at_, first, List.takeWhile_cons, List.any_cons, List.filter_cons, beq_self_eq_true, bne_self_eq_false,
      Bool.true_or, Bool.not_true, Bool.false_eq_true, if_false, List.any_nil, hself, hpass, Bool.or_false]
  | applied j _ e block ty fus quads gens rows tiles sigma a at_ kind granted =>
    show execMatrixEntryApplied j s = _
    simp only [execMatrixEntryApplied, at_, kind, granted, if_true, leaveTable_eq]
  | tzero j _ e h at_ kind next => rw [exec_tileStoreServe at_ next, kind]
  | tst j _ e c h lanes vals at_ kind next =>
    rw [exec_tileStoreServe at_ next, kind]
    simp only [tileIndex, ← Nat.add_assoc]
  | tld j _ e c h lanes pos pc at_ kind next here once runs =>
    rw [exec_tileStoreServe at_ next, kind]
    simp only [tileIndex, ← Nat.add_assoc, here]
    exact congrArg _ (forGroups_current (s := without s j) once runs)

/-- Settles O51: the entry at issue is the one that the rules of the table choose. -/
theorem matrixEvents : Obligations.MatrixEvents := fun _ _ _ => tableEvents_exec

end Sys2Proof.Machine
end

section
/-! PROOFS. The issue of near-memory commands (R367 to R377). -/
namespace Sys2Proof.Machine
open Sys2Proof Sys2Proof.Statements

/-- A command's release, then its send. -/
theorem sendCommand_ok {s t : State} {sc : Scope} {ord : Order} (rel : s.releaseFor ord sc = .ok t) (f : Option FReg) (ch : Nat)
    (line : Option Nat) (cls : Traffic) (k : OpKind) : s.sendCommand sc ord f 3 ch line cls k = .ok (sent t f k ch cls line) := by
  simp only [State.sendCommand, rel, ok_bind]
  cases f <;> rfl

/-! ### NMCALL -/

theorem nmcall_res {s : State} {e : Nat} {a : SReg} (ok : NmcallOk s e a) :
    (if e = 0 then s.mustRange (s.rsAt a 4 == 0) else if e = 2 then mustAlign (s.rsAt a 4) 8
      else if e < 4 then mustAlign (s.rsAt a 4) 256 else .ok ()) = .ok () := by
  have h := ok.res
  by_cases h0 : e = 0
  · rw [if_pos h0] at h ⊢
    exact mustRange_ok (beq_iff_eq.mpr h)
  · rw [if_neg h0] at h ⊢
    by_cases h2 : e = 2
    · rw [if_pos h2] at h ⊢
      exact mustAlign_ok h
    · rw [if_neg h2] at h ⊢
      by_cases h4 : e < 4
      · rw [if_pos h4]
        exact mustAlign_ok (h h4)
      · rw [if_neg h4]

/-- NMCALL with its words checked. -/
def nmcallGo (sc : Scope) (ord : Order) (entry : BitVec 5) (f : FReg) (a : SReg) (s : State) (ps : List (List Piece)) : Res State :=
  let ch := if entry.toNat < 4 then s.channelOf (firstPa ps) else 0
  if entry.toNat < 4 && !s.nmuRoom ch then .error (.hold (s.park .room))
  else s.sendCommand (nearScope sc) ord (some f) 3 ch (if entry.toNat < 4 then some (firstPa ps / 256) else none) .nmc
    (nmcallOf s entry.toNat sc a ch)

/-- NMCALL from the check of its completion word on. -/
def nmcallTail (sc : Scope) (ord : Order) (entry : BitVec 5) (f : FReg) (a : SReg) (s : State) : Res State := do
  mustAlign (s.rsAt a 5) 8
  s.mustRange (s.rsAt a 7 == 0)
  let ps ← s.checkAll (nmcallChecks s entry.toNat a)
  nmcallGo sc ord entry f a s ps

theorem exec_nmcall {sc : Scope} {ord : Order} {entry : BitVec 5} {f : FReg} {a : SReg} {s : State} {ps : List (List Piece)}
    (fut : (s.fut f).open = true) (ok : NmcallOk s entry.toNat a) (words : s.checkAll (nmcallChecks s entry.toNat a) = .ok ps) :
    exec (.nmcall sc ord entry f a) s = finish s (nmcallGo sc ord entry f a s ps) := by
  have hcount : (decide (1 ≤ (s.rsAt a 1).toNat) && decide ((s.rsAt a 1).toNat ≤ 65536)) = true := by simp [ok.count]
  have hzero : (s.rsAt a 7 == 0) = true := beq_iff_eq.mpr ok.zero
  have htail : nmcallTail sc ord entry f a s = nmcallGo sc ord entry f a s ps := by
    simp only [nmcallTail, mustAlign_ok ok.cw, mustRange_ok hzero, words, ok_bind]
  have hsplit : (if entry.toNat = 0 then s.mustRange (s.rsAt a 4 == 0) >>= fun _ => nmcallTail sc ord entry f a s
      else if entry.toNat = 2 then mustAlign (s.rsAt a 4) 8 >>= fun _ => nmcallTail sc ord entry f a s
      else if entry.toNat < 4 then mustAlign (s.rsAt a 4) 256 >>= fun _ => nmcallTail sc ord entry f a s
      else nmcallTail sc ord entry f a s) = nmcallGo sc ord entry f a s ps := by
    rw [← htail]
    refine Eq.trans ?_ (congrArg (· >>= fun _ => nmcallTail sc ord entry f a s) (nmcall_res ok) : _ = Except.ok () >>= fun _ => _)
    split_ifs <;> rfl
  show execNmcall sc ord entry f a s = _
  unfold execNmcall
  simp only [futReady_open fut, mustAlign_ok ok.addr, mustRange_ok hcount, mustAlign_ok ok.stride, ok_bind]
  exact congrArg (finish s) hsplit

theorem bits_zero (v n : Nat) : bits v 0 n = v % 2 ^ n := congrArg (· % 2 ^ n) (Nat.div_one v)

theorem ixred_form {s : State} {a : SReg} {rb n : Nat} (ok : IxredOk s a rb n) :
    (rb % 32 == 0 && decide (32 ≤ rb) && decide (rb ≤ 4096) && decide (1 ≤ n) && decide (n ≤ 16) && decide ((s.rsAt a 1).toNat < 2 ^ 22)) =
      true := by
  obtain ⟨mod, least, most⟩ := ok.row
  obtain ⟨one, sixteen⟩ := ok.count
  obtain ⟨-, -, small⟩ := ok.fields
  simp only [Bool.and_eq_true, decide_eq_true_eq, beq_iff_eq]
  exact ⟨⟨⟨⟨⟨mod, least⟩, most⟩, one⟩, sixteen⟩, small⟩

theorem ixred_rest {s : State} {a : SReg} {rb n : Nat} (ok : IxredOk s a rb n) :
    ((List.range 16).all fun k => decide (k < n) || s.ixIndex a k == 0) = true := by
  refine List.all_eq_true.mpr fun k hk => ?_
  by_cases h : k < n
  · simp [h]
  · simp [ok.rest k (List.mem_range.mp hk) (Nat.not_lt.mp h)]

theorem coll_form {s : State} {a : SReg} {len n opc : Nat} {ty : Ty} (ok : CollOk s a len n opc ty) :
    (decide ((s.rsAt a 1).toNat < 2 ^ 45) && decide (2 ≤ n) && decide (n ≤ 12) && decide (opc ≤ 2) &&
      ((if ty = .f32 then 9 else 10) == 9 || (if ty = .f32 then 9 else 10) == 10) && decide (256 ≤ len) && decide (len ≤ 2 ^ 31) &&
      len % (if opc = 2 then 256 * n else 256) == 0) = true := by
  obtain ⟨-, -, -, small⟩ := ok.fields
  obtain ⟨least, most, mod⟩ := ok.bytes
  have hcode : ((if ty = .f32 then 9 else 10) == 9 || (if ty = .f32 then 9 else 10) == 10) = true := by split <;> rfl
  rw [decide_eq_true small, decide_eq_true ok.bufs.1, decide_eq_true ok.bufs.2, decide_eq_true ok.op, hcode, decide_eq_true least,
    decide_eq_true most, beq_iff_eq.mpr mod]
  rfl

theorem nears_exec {i : Instr} {s t : State} (h : Nears i s t) : exec i s = .next t := by
  cases h with
  | nmcall sc ord entry f a _ t ps fut ok words named room rel =>
    rw [exec_nmcall fut ok words]
    simp only [nmcallGo, named, if_true, room, Bool.not_true, Bool.and_false, Bool.false_eq_true, if_false, sendCommand_ok rel, finish_ok]
  | nmcallUnnamed sc ord entry f a _ t ps fut ok words unnamed rel =>
    have hn : ¬entry.toNat < 4 := Nat.not_lt.mpr unnamed
    rw [exec_nmcall fut ok words]
    simp only [nmcallGo, hn, decide_false, Bool.false_and, Bool.false_eq_true, if_false, sendCommand_ok rel, finish_ok]
  | ixred ty sc ord a _ t ps rb n wide ok form words room rel =>
    obtain ⟨hrb, hn, -⟩ := ok.fields
    have hform := ixred_form ok
    have hrest := ixred_rest ok
    have hroom : ¬Config.ixredSlots ≤ s.ixreds (s.stackOf (firstPa (ps.drop n))) := Nat.not_le.mpr room
    have hrb' : bits (s.rsAt a 1).toNat 0 16 = rb := bits_zero _ 16 |>.trans hrb.symm
    have hn' : bits (s.rsAt a 1).toNat 16 5 = n := hn.symm
    show execIxred ty sc ord a s = _
    simp only [execIxred, memFinish, hrb', hn', mustAlign_ok ok.base, mustRange_ok hform, mustRange_ok hrest, mustAlign_ok ok.dst,
      mustAlign_ok ok.ctr, ← form, ok_bind]
    erw [words]
    simp only [ok_bind, if_neg hroom, sendCommand_ok rel, finish_ok]
  | walk sc ord f a _ t ps v hops rnlog fut ok words room rel =>
    obtain ⟨hv, hhops, hlog, small⟩ := ok.fields
    have hv' : bits (s.rsAt a 2).toNat 0 32 = v := (bits_zero _ 32).trans hv.symm
    have hhops' : bits (s.rsAt a 2).toNat 32 8 = hops := hhops.symm
    have hlog' : bits (s.rsAt a 2).toNat 40 4 = rnlog := hlog.symm
    have hform : (decide (1 ≤ v) && decide (1 ≤ hops) && decide ((s.rsAt a 2).toNat < 2 ^ 44)) = true := by
      rw [decide_eq_true ok.some'.1, decide_eq_true ok.some'.2, decide_eq_true small]
      rfl
    have hcount : (decide (1 ≤ (s.rsAt a 4).toNat) && decide ((s.rsAt a 4).toNat ≤ 65536)) = true := by simp [ok.count]
    have hzero : (s.rsAt a 7 == 0) = true := beq_iff_eq.mpr ok.zero
    show execWalk sc ord f a s = _
    simp only [execWalk, memFinish, hv', hhops', hlog', futReady_open fut, mustAlign_ok ok.rowptr, mustAlign_ok ok.col, mustRange_ok hform,
      mustAlign_ok ok.start, mustRange_ok hcount, mustAlign_ok ok.ring, mustAlign_ok ok.ctr, mustRange_ok hzero, words, room, Bool.not_true,
      Bool.false_eq_true, if_false, sendCommand_ok rel, ok_bind, finish_ok]
  | coll sc ord f a _ t u v ps len n opc ty bufs stack early lead fut ok words before room' rel read room =>
    obtain ⟨hlen, hn, hopc, -⟩ := ok.fields
    have hlen' : bits (s.rsAt a 1).toNat 0 32 = len := (bits_zero _ 32).trans hlen.symm
    have hn' : bits (s.rsAt a 1).toNat 32 4 + 1 = n := hn.symm
    have hopc' : bits (s.rsAt a 1).toNat 36 4 = opc := hopc.symm
    have hcode : bits (s.rsAt a 1).toNat 40 5 = if ty = .f32 then 9 else 10 := ok.code
    have hty : (if (if ty = .f32 then 9 else 10) = 9 then Ty.f32 else Ty.bf16) = ty := by
      obtain rfl | rfl := ok.type' <;> rfl
    obtain ⟨z4, z5, z6, z7⟩ := ok.zero
    have hzero : (s.rsAt a 4 == 0 && s.rsAt a 5 == 0 && s.rsAt a 6 == 0 && s.rsAt a 7 == 0) = true := by
      simp only [z4, z5, z6, z7, beq_self_eq_true, Bool.and_self]
    have hbefore : s.collLead (s.rsAt a 0) n = (early, lead, v) := before
    have hread : t.collLead (s.rsAt a 0) n = (bufs, stack, u) := read
    show execColl sc ord f a s = _
    simp only [execColl, memFinish, hlen', hn', hopc', hcode, futReady_open fut, mustAlign_ok ok.list, mustRange_ok (coll_form ok),
      mustAlign_ok ok.cw, mustRange_ok hzero, words, ok_bind, hbefore, decide_eq_false (Nat.not_le.mpr room'), Bool.false_eq_true, if_false,
      rel, hread, decide_eq_false (Nat.not_le.mpr room), hty]
    exact congrArg (finish s) (sendCommand_ok (ord := .rlx) rfl ..)
  | gredNone g ty op d a _ regs none =>
    show execGred g ty op d a s = _
    simp only [execGred, memFinish, regs, ok_bind, none, if_true, finish_ok]
  | gred g ty op d a _ accs regs some' room ok queues =>
    have hqueues : ((distinct (accs.map fun x => s.channelOf (firstByte x))).mergeSort.any fun c => !s.nmuRoom c) = false := by
      refine List.any_eq_false.mpr fun c hc => ?_
      simp [queues c (mem_of_mem_distinct ((List.mergeSort_perm _ _).mem_iff.mp hc))]
    show execGred g ty op d a s = _
    simp only [execGred, memFinish, regs, ok_bind, if_neg some', room_ok s .ld room]
    erw [ok]
    simp only [ok_bind]
    exact congrArg (finish s) (if_neg (by erw [hqueues]; exact Bool.false_ne_true))

/-- Settles O52: the descriptor's limits hold, and the command is sent. -/
theorem nearMemoryIssue : Obligations.NearMemoryIssue := fun _ _ _ => nears_exec

end Sys2Proof.Machine
end

section
/-! PROOFS. Events of the near-memory units (R360, R363 to R379). -/
namespace Sys2Proof.Machine
open Sys2Proof Sys2Proof.Statements

/-! ### Packets -/

theorem packetGone_eq (s : State) (j : Nat) : { s with inject := dropAt s.inject j } = packetGone s j := by
  rw [dropAt_eq]
  rfl

theorem blocked_iff (s : State) (p : Packet) : s.blocked p = true ↔ ¬mayEnter s p := by
  have hmetered : p.cls.metered = true ↔ p.cls ≠ .rsp ∧ p.cls ≠ .wb ∧ p.cls ≠ .mgmt := by cases p.cls <;> simp [Traffic.metered]
  simp only [State.blocked, mayEnter, Bool.or_eq_true, Bool.and_eq_true, decide_eq_true_eq, hmetered, not_and_or, Classical.not_imp,
    not_lt, not_not, and_assoc]

theorem charge_target (s : State) (part die packets payload : Nat) (p : Packet) : (s.charge part die packets payload).target p = s.target p := by
  unfold State.charge
  split <;> rfl

theorem toll_target (s : State) (p q : Packet) : (s.toll p).target q = s.target q := by
  unfold State.toll
  split
  · rfl
  · exact charge_target ..

/-- The effect of an arrival is that of its row. -/
theorem deliver_eq {s t : State} {p : Packet} (h : Delivers s p t) : s.deliver p = t := by
  cases h with
  | message m carries => simp only [State.deliver, carries]
  | call o x command what op kind runs =>
    simp only [State.deliver, command, op, kind, what, runs, Option.isNone_none, if_true]
  | share o x command what op kind => simp only [State.deliver, command, op, kind, what]
  | row o x command what op kind => simp only [State.deliver, command, op, kind, what, State.lastOp]
  | coll o x command what op kind => simp only [State.deliver, command, op, kind, what, State.lastOp]
  | token o x w command what op kind => simp only [State.deliver, command, op, kind, what]
  | arrived o x command op kind =>
    obtain ⟨kind, what⟩ | ⟨y, kind, what⟩ := kind
    · simp only [State.deliver, command, op, kind, what]
    · simp only [State.deliver, command, op, kind, what]

theorem forward_there {s t : State} {p : Packet} {stack hop : Nat} (goal : s.target p = some stack) (there : Delivers s p t) :
    s.forward p stack hop = t := by
  rw [State.forward, if_pos goal, deliver_eq there]

theorem forward_onward {s : State} {p : Packet} {stack hop d : Nat} (goal : s.target p = some d) (far : d ≠ stack) :
    s.forward p stack hop = { s with inject := s.inject ++ [{ p with at_ := some (stack, hop) }] } :=
  if_neg (by rw [goal]; exact fun h => far (Option.some.inj h))

/-- The first packet of its queue, at its source. -/
theorem exec_inject_outside {j : Nat} {s : State} {p : Packet} {d : Nat} (next : nextPacket s j p) (outside : p.at_ = none)
    (may : mayEnter s p) (goal : s.target p = some d) :
    exec (.rateLimitedInject j) s = .next ((entered' (packetGone s j) p).forward p p.entry 0) := by
  obtain ⟨at_, first⟩ := next
  have hfirst : ((s.inject.take j).any fun q => q.before p) = false := List.any_eq_false.mpr fun q hq => by simp [first q hq]
  have hmay : s.blocked p = false := by rw [← Bool.not_eq_true, blocked_iff]; exact not_not_intro may
  show execRateLimitedInject j s = _
  simp only [execRateLimitedInject, at_, hfirst, Bool.false_eq_true, if_false, goal, outside, hmay, packetGone_eq]
  rfl

theorem exec_inject_waits {j : Nat} {s : State} {p : Packet} (next : nextPacket s j p) (outside : p.at_ = none) (stays : ¬mayEnter s p) :
    exec (.rateLimitedInject j) s = .next s := by
  obtain ⟨at_, first⟩ := next
  have hfirst : ((s.inject.take j).any fun q => q.before p) = false := List.any_eq_false.mpr fun q hq => by simp [first q hq]
  show execRateLimitedInject j s = _
  simp only [execRateLimitedInject, at_, hfirst, Bool.false_eq_true, if_false, outside, (blocked_iff s p).mpr stays, if_true]
  cases s.target p <;> rfl

theorem exec_inject_inside {j : Nat} {s : State} {p : Packet} {d e h n : Nat} (next : nextPacket s j p) (inside : p.at_ = some (e, h))
    (goal : s.target p = some d) (link : (route e d)[0]? = some n) :
    exec (.rateLimitedInject j) s = .next ((packetGone s j).forward p n (h + 1)) := by
  obtain ⟨at_, first⟩ := next
  have hfirst : ((s.inject.take j).any fun q => q.before p) = false := List.any_eq_false.mpr fun q hq => by simp [first q hq]
  show execRateLimitedInject j s = _
  simp only [execRateLimitedInject, at_, hfirst, Bool.false_eq_true, if_false, goal, inside, link, Option.getD_some, packetGone_eq]

theorem entered_target (s : State) (p q : Packet) : (entered' s p).target q = s.target q := toll_target s p q

/-! ### Steps of NMCALL -/

theorem agentSends_credit {s : State} {o : EngineOp} (credit : 0 < s.creditNow o.part o.die) (packets payload : Nat) (t : State) :
    s.agentSends o packets payload t = sends t o packets payload := paid_credit _ _ _ _ credit

theorem over_eq_false {x : NmcallOp} (runs : x.status = none) (more : x.k < x.count) : x.over = false := by
  simp [NmcallOp.over, runs, more]

theorem nmcallLine_fill {s t : State} {o : EngineOp} {x : NmcallOp} {y : Xl} (fill : x.entry = 0)
    (page : s.translateFor (6 + x.ch / 32) o.part o.vf (x.addr + BitVec.ofNat 64 x.k * x.stride) (fun y => y.w && y.kind != .host) =
      (.ok y, t)) (mine : t.channelOf y.pa = x.ch) :
    s.nmcallLine o x =
      ({ x with k := x.k + 1 }, t.basePut o.part y.pa (List.replicate 32 (bytesOfNat 8 x.arg.toNat)).flatten) := by
  have hpage : s.translateFor (o.agent (x.ch / 32)).die (o.agent (x.ch / 32)).part (o.agent (x.ch / 32)).vf
      (x.addr + BitVec.ofNat 64 x.k * x.stride) (fun y => y.w && y.kind != .host) = (.ok y, t) := page
  simp only [State.nmcallLine, fill, if_true, hpage, mine, ne_eq, not_true_eq_false, if_false]

/-- NM_FILL waits for no accumulator. -/
theorem stepOf_fill {s : State} {ch i : Nat} {o : EngineOp} {x : NmcallOp} (first : (s.nmu ch).queue.head? = some (.call i))
    (op : s.findOp i = some o) (kind : o.kind = .nmcall x) (fill : x.entry = 0) : s.stepOf ch = some (.call i) := by
  obtain ⟨rest, hq⟩ := List.head?_eq_some_iff.mp first
  have hfree : s.awaitsAcc ch (.call i) = false := by
    simp only [State.awaitsAcc, op, Option.map_some, kind, fill, bne_self_eq_false, Bool.false_and]
  rw [State.stepOf, hq, List.find?_cons, hfree]
  rfl

theorem exec_nmuStep_fill {ch i : Nat} {s t : State} {o : EngineOp} {x : NmcallOp} {y : Xl}
    (first : (s.nmu ch).queue.head? = some (.call i)) (idle : (s.nmu ch).paused = none) (op : s.findOp i = some o)
    (kind : o.kind = .nmcall x) (fill : x.entry = 0)
    (page : (s.dropSteps ch (· == .call i)).translateFor (6 + x.ch / 32) o.part o.vf (x.addr + BitVec.ofNat 64 x.k * x.stride)
      (fun y => y.w && y.kind != .host) = (.ok y, t))
    (mine : t.channelOf y.pa = x.ch) (runs : x.status = none) (more : x.k + 1 < x.count) (asked : o.cancel = false)
    (credit : 0 < s.creditNow o.part o.die) :
    exec (.nmuStep ch) s = .next
      (((t.basePut o.part y.pa (List.replicate 32 (bytesOfNat 8 x.arg.toNat)).flatten).setOp i fun _ =>
        .nmcall { x with k := x.k + 1 }).enqueueStep ch (.call i)) := by
  have hstep := stepOf_fill first op kind fill
  have hpaused : s.stepPaused ch (.call i) = false := by
    simp only [State.stepPaused, op, Option.map_some, kind, idle, Option.isSome_none, Bool.and_false]
  have hop : (s.dropSteps ch (· == .call i)).findOp i = some o := op
  have hover : ({ x with k := x.k + 1 } : NmcallOp).over = false := over_eq_false runs more
  show execNmuStep ch s = _
  simp only [execNmuStep, hstep, hpaused, Bool.false_eq_true, if_false, State.runStep, hop, kind, asked, nmcallLine_fill fill page mine,
    hover, NmuStep.op, op, paid_credit _ _ _ _ credit]

theorem exec_nmcallComplete_ok {i : Nat} {s : State} {o : EngineOp} {x : NmcallOp} (op : s.findOp i = some o) (kind : o.kind = .nmcall x)
    (in_ : s.injected i = true) (runs : x.status = none) (done : x.count ≤ x.k) (noRes : x.res = 0) (asked : o.cancel = false) :
    exec (.nmcallComplete i) s = .next (s.endNear o (o.agent (x.ch / 32)) 0 x.sc x.cw x.cv) := by
  have hover : x.over = true := by simp [NmcallOp.over, done]
  show execNmcallComplete i s = _
  simp only [execNmcallComplete, op, kind, hover, in_, asked, Bool.not_true, Bool.false_eq_true, or_self, if_false, runs, noRes, if_true,
    true_or]

theorem exec_nmcallComplete_stop {i : Nat} {s : State} {o : EngineOp} {x : NmcallOp} {st : W32} (op : s.findOp i = some o)
    (kind : o.kind = .nmcall x) (in_ : s.injected i = true) (stop : x.status = some st) (asked : o.cancel = false) :
    exec (.nmcallComplete i) s = .next (s.endNear o (o.agent (x.ch / 32)) st x.sc x.cw x.cv) := by
  have hover : x.over = true := by simp [NmcallOp.over, stop]
  show execNmcallComplete i s = _
  simp only [execNmcallComplete, op, kind, hover, in_, asked, Bool.not_true, Bool.false_eq_true, or_self, if_false, stop,
    Option.isSome_some, or_true, if_true]

theorem tornLine_read {s : State} {ch i : Nat} {o : EngineOp} {x : NmcallOp} (holds : s.stepOf ch = some (.call i))
    (op : s.findOp i = some o) (kind : o.kind = .nmcall x) (reads : x.entry ≠ 0) : s.tornLine ch = s := by
  simp only [State.tornLine, holds, op, kind, if_pos reads]

theorem exec_nmuWatchdog {ch i : Nat} {s : State} {o : EngineOp} {x : NmcallOp} (queue : (s.nmu ch).queue = [.call i])
    (holds : s.stepOf ch = some (.call i)) (since : (s.nmu ch).run = some (.call i)) (idle : (s.nmu ch).paused = none)
    (late : (s.nmu ch).since + 20000 ≤ s.time) (op : s.findOp i = some o) (kind : o.kind = .nmcall x) (reads : x.entry ≠ 0)
    (asked : o.cancel = false) :
    exec (.nmuWatchdog ch) s = .next ((s.setNmu ch fun u => { u with queue := [], since := s.time }).setOp i fun _ =>
      .nmcall { x with status := some (statusWord 0x40 false ch), acc := none }) := by
  have hgo : ¬(s.stepOf ch = none ∨ s.stepOf ch ≠ (s.nmu ch).run ∨ (s.nmu ch).paused.isSome = true ∨ s.time < (s.nmu ch).since + 20000) := by
    simp [holds, since, idle, late]
  have hop : (s.setNmu ch fun u => { u with queue := [], since := s.time }).findOp i = some o := op
  show execNmuWatchdog ch s = _
  simp only [execNmuWatchdog, if_neg hgo, tornLine_read holds op kind reads, queue, List.foldl_cons, List.foldl_nil, State.watchdogOp,
    NmuStep.op, hop, Option.filter_some, asked, Bool.not_false, if_true, kind]

/-! ### IXRED -/

theorem sameDst_iff (x y : IxredOp) : sameDst x y = true ↔ ∃ p ∈ x.dst, ∃ q ∈ y.dst, p.pa < q.pa + q.n ∧ q.pa < p.pa + p.n := by
  simp [sameDst]

theorem exec_ixredComplete {i : Nat} {s : State} {o : EngineOp} {x : IxredOp} (op : s.findOp i = some o) (kind : o.kind = .ixred x)
    (in_ : s.injected i = true)
    (first : ∀ p ∈ s.ops.takeWhile (fun p => p.id != i), ∀ y, p.kind = .ixred y → s.injected p.id = true → ¬contend x y)
    (credit : 0 < s.creditNow o.part o.die) :
    exec (.ixredComplete i) s = .next (sends (match s.pooled x, x.ctr with
      | some bs, none => (opGone (s.touch (x.rows.flatten.map (·.pa))) i).basePutPieces o.part x.dst bs
      | some bs, some (c, _) => ((opGone (s.touch (x.rows.flatten.map (·.pa))) i).basePutPieces o.part x.dst bs).baseIncr o.part c
      | none, some (_, c) => (opGone (s.touch (x.rows.flatten.map (·.pa))) i).baseIncr o.part c
      | none, none => opGone (s.touch (x.rows.flatten.map (·.pa))) i) o (2 * x.rows.length) (x.rows.flatten.map (·.n)).sum) := by
  have hbefore : ((s.ops.takeWhile fun p => p.id != i).any fun p => match p.kind with
      | .ixred y => y.stack == x.stack && sameDst x y && s.injected p.id
      | _ => false) = false := by
    refine List.any_eq_false.mpr fun p hp => ?_
    split
    · next y hk =>
      intro h
      simp only [Bool.and_eq_true, beq_iff_eq] at h
      obtain ⟨⟨stack, dst⟩, there⟩ := h
      exact first p hp y hk there ⟨stack, (sameDst_iff x y).mp dst⟩
    · exact Bool.false_ne_true
  have hgo : ¬(((s.ops.takeWhile fun p => p.id != i).any fun p => match p.kind with
      | .ixred y => y.stack == x.stack && sameDst x y && s.injected p.id
      | _ => false) = true ∨ (!s.injected i) = true) := by
    rw [hbefore, in_]
    simp
  show execIxredComplete i s = _
  simp only [execIxredComplete, op, kind, agentSends_credit credit]
  exact (if_neg hgo).trans rfl

/-! ### GRED -/

theorem focus_self (s : State) : s.focus s.grp.key = s := if_pos rfl

theorem exec_gredShareReturn {i : Nat} {s : State} {o : EngineOp} {x : GredOp} {e : Outst} (op : s.findOp i = some o)
    (kind : o.kind = .gred x) (in_ : ∀ p ∈ s.inject, p.id ≠ i) (all : x.shares.length ≤ x.results.length) (here : x.group = s.grp.key)
    (live : s.grp.live ≠ 0) (once : ∀ g ∈ s.groups, g.key ≠ s.grp.key) (res : s.grp.outst.find? (fun e => e.kind == .gred i) = some e) :
    exec (.gredShareReturn i) s = .next ((opGone s i).within s.grp.key .a fun s => s.gredWrite x e) := by
  have hgo : ¬((s.inject.any fun p => p.id == i) = true ∨ x.results.length < x.shares.length) := by
    simpa [Nat.not_lt.mpr all] using in_
  have hone : (opGone s i).within s.grp.key .a (fun s => match s.grp.outst.find? fun e => e.kind == .gred i with
      | some e => s.gredWrite x e
      | none => s) = (opGone s i).within s.grp.key .a fun s => s.gredWrite x e := by
    have hfocus : (opGone s i).focus s.grp.key = opGone s i := focus_self (opGone s i)
    have hres : ({ opGone s i with sel := .a } : State).grp.outst.find? (fun e => e.kind == .gred i) = some e := res
    simp only [State.within, hfocus, hres]
  show execGredShareReturn i s = _
  simp only [execGredShareReturn, op, kind, if_neg hgo, here]
  exact congrArg _ ((forGroups_current (s := opGone s i) once live).trans hone)

/-! ### WALK -/

theorem exec_walkHop {i w : Nat} {s : State} {o : EngineOp} {x : WalkOp} (op : s.findOp i = some o) (kind : o.kind = .walk x)
    (asked : o.cancel = false) (in_ : s.injected i = true) :
    exec (.walkHop i w) s = match x.live.find? fun k => k.w == w with
      | none =>
        if x.mayStart w then
          .next (s.setOp i fun _ => .walk { x with next := w + 1, live := x.live ++ [⟨w, x.ch, 0, 0, [], .start, none⟩] })
        else .next s
      | some k =>
        if s.walkBusy i w then .next s
        else match s.walkChannel o x k with
          | none => .next (s.paid o.part o.die (s.walkReads o x k))
          | some ch =>
            if ch ≠ k.ch then .next (s.agentPacket o k.ch tokenBytes ch (.token w))
            else if (s.nmu ch).queue.isEmpty then .next (s.paid o.part o.die (s.walkReads o x k))
            else .next (if s.nmuRoom ch then s.enqueueStep ch (.hop i w) else s) := by
  show execWalkHop i w s = _
  simp only [execWalkHop, op, kind, asked, in_, Bool.not_true, Bool.false_eq_true, or_self, if_false] <;> rfl

/-! ### Collectives -/

theorem exec_collLine {stack : Nat} {s t : State} {o : EngineOp} {x : CollOp} {bufs : List W64} {lines : List (Nat × List Byte)}
    (run : s.running stack = some (o, x)) (asked : o.cancel = false) (bufs' : x.bufs = some bufs) (valid : x.invalid bufs = none)
    (read : s.collLines o x bufs = (.ok lines, t)) (idle : t.collPaused lines = false) (credit : 0 < t.creditNow o.part o.die) :
    exec (.collLine stack) s = .next (sends
      (if x.len ≤ 256 * (x.p + 1) then (lines.foldl (fun s l => s.basePut o.part l.1 l.2) t).endColl o x 0
        else (lines.foldl (fun s l => s.basePut o.part l.1 l.2) t).setOp o.id fun _ =>
          .coll { x with p := x.p + 1, since := some t.time })
      o (2 * bufs.length + lines.length) (256 * (bufs.length + lines.length))) := by
  show execCollLine stack s = _
  simp only [execCollLine, run, asked, Bool.false_eq_true, if_false, bufs', valid, read, idle, agentSends_credit credit]

theorem exec_sequencerWatchdog {stack : Nat} {s : State} {o : EngineOp} {x : CollOp} (run : s.running stack = some (o, x))
    (late : ∃ t, x.since = some t ∧ t + 1000000 ≤ s.time) (unread : x.bufs = none)
    (alone : ∀ q ∈ s.ops, q.id ≠ o.id → ∀ y, q.kind = .coll y → y.stack ≠ stack ∨ q.vf ≠ o.vf ∨ q.part ≠ o.part ∨ s.injected q.id = false) :
    exec (.sequencerWatchdog stack) s = .next (s.endColl o x (statusWord 0x45 false x.p)) := by
  obtain ⟨since, hsince, hlate⟩ := late
  have hgo : ¬(s.time < x.since.getD s.time + 1000000 ∨ s.waitsRefresh o x = true) := by
    simp [hsince, hlate, State.waitsRefresh, State.linesNow, unread, State.collPaused]
  have hqueued : (s.ops.filterMap fun (q : EngineOp) => match q.kind with
      | .coll y => if y.stack = stack ∧ q.id ≠ o.id ∧ q.vf = o.vf ∧ q.part = o.part ∧ s.injected q.id then some (q, y) else none
      | _ => none) = [] := by
    refine List.filterMap_eq_nil_iff.mpr fun q hq => ?_
    split
    · next y hk =>
      refine if_neg ?_
      rintro ⟨hs, hid, hvf, hpart, hin⟩
      obtain h | h | h | h := alone q hq hid y hk
      · exact h hs
      · exact h hvf
      · exact h hpart
      · rw [hin] at h; cases h
    · rfl
  show execSequencerWatchdog stack s = _
  simp only [execSequencerWatchdog, run, if_neg hgo, unread]
  exact congrArg (fun l => Host.Outcome.next
    (l.foldl (fun (s : State) (q : EngineOp × CollOp) => s.endColl q.1 q.2 (statusWord 0x45 false 0)) (s.endColl o x (statusWord 0x45 false x.p))))
    hqueued

theorem exec_refreshComplete {ch : Nat} {s : State} {t : Nat} (paused : (s.nmu ch).paused = some t)
    (noColl : ∀ o ∈ s.ops, ∀ x, o.kind ≠ .coll x) :
    exec (.refreshComplete ch) s = .next (s.setNmu ch fun u => { u with paused := none, since := u.since + (s.time - max t u.since) }) := by
  show execRefreshComplete ch s = _
  simp only [execRefreshComplete, paused]
  have hmap (f : EngineOp → EngineOp) (hf : ∀ o ∈ s.ops, f o = o) : s.ops.map f = s.ops := (List.map_congr_left hf).trans (List.map_id _)
  refine congrArg (fun l => Host.Outcome.next
    { s.setNmu ch fun u => { u with paused := none, since := u.since + (s.time - max t u.since) } with ops := l }) (hmap _ fun o ho => ?_)
  split
  · next x hk => exact absurd hk (noColl o ho x)
  · rfl

theorem nearEvents_exec {i : Instr} {s t : State} (h : NearEvents i s t) : exec i s = .next t := by
  cases h with
  | inject j _ p _ next outside may goal there =>
    rw [exec_inject_outside next outside may goal]
    exact congrArg _ (forward_there ((entered_target (packetGone s j) p p).trans goal) there)
  | injectOnward j _ p d next outside may goal far =>
    rw [exec_inject_outside next outside may goal]
    exact congrArg _ (forward_onward ((entered_target (packetGone s j) p p).trans goal) far)
  | hop j _ p d e h n next inside goal link more =>
    rw [exec_inject_inside next inside goal link]
    exact congrArg _ (forward_onward (s := packetGone s j) goal more)
  | hopThere j _ p d e h _ next inside goal link there =>
    rw [exec_inject_inside next inside goal link]
    exact congrArg _ (forward_there (s := packetGone s j) goal there)
  | injectWaits j _ p next outside stays => exact exec_inject_waits next outside stays
  | fill ch _ i o x y t first idle op kind fill page mine runs more asked credit =>
    exact exec_nmuStep_fill first idle op kind fill page mine runs more asked credit
  | callEnds i _ o x op kind in_ runs done noRes asked => exact exec_nmcallComplete_ok op kind in_ runs done noRes asked
  | callStops i _ o x st op kind in_ stop asked => exact exec_nmcallComplete_stop op kind in_ stop asked
  | watchdog ch _ i o x queue holds since idle late op kind reads asked =>
    exact exec_nmuWatchdog queue holds since idle late op kind reads asked
  | ixred i _ o x bs c d op kind in_ first pooled ctr credit =>
    rw [exec_ixredComplete op kind in_ first credit, pooled, ctr]
  | ixredBad i _ o x c d op kind in_ first pooled ctr credit =>
    rw [exec_ixredComplete op kind in_ first credit, pooled, ctr]
  | gred i _ o x e op kind in_ all here live once res => exact exec_gredShareReturn op kind in_ all here live once res
  | walkStarts i w _ o x op kind asked in_ new next more good slot =>
    have hnone : x.live.find? (fun k => k.w == w) = none := List.find?_eq_none.mpr fun k hk => by simp [new k hk]
    have hmay : x.mayStart w = true := by
      simp only [WalkOp.mayStart, ← next, beq_self_eq_true, more, decide_true, good, Option.isNone_none, Bool.and_self, Bool.true_and,
        List.all_eq_true, bne_iff_ne]
      exact slot
    rw [exec_walkHop op kind asked in_, hnone]
    exact if_pos hmay
  | walkMoves i w _ o x k ch op kind asked in_ walk free at_ away =>
    rw [exec_walkHop op kind asked in_, walk]
    simp only [free, Bool.false_eq_true, if_false, at_, if_pos away]
    rfl
  | walkReads i w _ o x k op kind asked in_ walk free at_ credit =>
    rw [exec_walkHop op kind asked in_, walk]
    obtain at_ | ⟨at_, empty⟩ := at_
    · simp only [free, Bool.false_eq_true, if_false, at_, paid_credit _ _ _ _ credit]
    · simp only [free, Bool.false_eq_true, if_false, at_, ne_eq, not_true_eq_false, empty, List.isEmpty_nil, if_true,
        paid_credit _ _ _ _ credit]
  | walkWaits i w _ o x k op kind asked in_ walk free at_ busy room =>
    have hbusy : (s.nmu k.ch).queue.isEmpty = false := by simpa using busy
    rw [exec_walkHop op kind asked in_, walk]
    simp only [free, Bool.false_eq_true, if_false, at_, ne_eq, not_true_eq_false, hbusy, room, if_true]
  | coll stack _ t o x bufs lines run asked bufs' valid read idle more credit =>
    rw [exec_collLine run asked bufs' valid read idle credit, if_neg (Nat.not_le.mpr more)]
  | collLast stack _ t o x bufs lines run asked bufs' valid read idle last credit =>
    rw [exec_collLine run asked bufs' valid read idle credit, if_pos last]
  | sequencer stack _ o x run late unread alone => exact exec_sequencerWatchdog run late unread alone
  | pause ch _ lock idle => exact if_pos ⟨lock, Option.isNone_iff_eq_none.mpr idle⟩
  | refreshed ch _ t paused noColl => exact exec_refreshComplete paused noColl

/-- Settles O53: packets, steps, walks, collectives and refresh, each as its row says. -/
theorem nearMemoryEvents : Obligations.NearMemoryEvents := fun _ _ _ => nearEvents_exec

end Sys2Proof.Machine
end

section
/-! PROOFS. Instructions that reach other packages (R420 to R435). -/
namespace Sys2Proof.Machine
open Sys2Proof Sys2Proof.Statements

/-! ### Remote loads, stores and atomics -/

theorem remoteOp_ok {s : State} {g : Option Guard} {ty : Ty} {off : W32} {a b : VReg} {reads writes : List (VReg × Nat)} {c : Counter}
    {need : RemReply → Bool} {atomic : Bool} {act : List LaneAcc → State → Res State} {accs : List LaneAcc}
    (regs : s.vcheck ((a, 1) :: (b, 2) :: reads) writes = .ok ()) (room : s.cnt c < 63) (ok : FarOk s g ty off a b need atomic accs) :
    remoteOp s g ty off a b reads writes c need atomic act = finish s (act accs s) := by
  obtain ⟨some', al, checks, lanes, free⟩ := ok
  subst lanes
  have hfind : (farOf s g off a b).find? (fun x => x.ea.toNat % tyBytes ty != 0) = none :=
    List.find?_eq_none.mpr fun x hx => by simp [al x hx]
  simp only [remoteOp, regs, ok_bind, if_neg some', room_ok s c room]
  erw [hfind, checks]
  exact congrArg (finish s) (if_neg (by erw [free]; exact Bool.false_ne_true))

/-! ### RRED -/

theorem rred_form {s : State} {b : SReg} {n group num tag idx : Nat} (ok : RredOk s b n group num tag idx) :
    (decide ((s.rsAt b 0).toNat < 2 ^ 48) && group != 0 && decide (2 ≤ num) && decide (num ≤ 4096) && decide ((s.rsAt b 1).toNat < 2 ^ 44) &&
      decide (idx < num) && decide (1000 ≤ (s.rsAt b 3).toNat) && decide ((s.rsAt b 3).toNat ≤ 1000000000)) = true := by
  obtain ⟨-, -, small, -, -, small'⟩ := ok.fields
  obtain ⟨least, most⟩ := ok.number
  obtain ⟨early, late⟩ := ok.timeout
  rw [decide_eq_true small, decide_eq_true small', decide_eq_true least, decide_eq_true most, decide_eq_true ok.index, decide_eq_true early,
    decide_eq_true late, bne_iff_ne.mpr ok.named]
  rfl

/-! ### DPOST -/

theorem dpost_form {s : State} {a : SReg} {group n : Nat} (ok : DpostOk s a group n) :
    (decide ((s.rsAt a 1).toNat < 2 ^ 45) && decide (2 ≤ n) && decide (n ≤ 4096) && decide (20 ≤ (s.rsAt a 3).toNat) &&
      decide ((s.rsAt a 3).toNat ≤ 65535) && s.rsAt a 5 == 0 && s.rsAt a 6 == 0 && s.rsAt a 7 == 0) = true := by
  obtain ⟨-, -, small⟩ := ok.fields
  obtain ⟨least, most⟩ := ok.count
  obtain ⟨z5, z6, z7⟩ := ok.zero
  rw [decide_eq_true small, decide_eq_true least, decide_eq_true most, decide_eq_true ok.tau.1, decide_eq_true ok.tau.2, z5, z6, z7]
  rfl

theorem dpost_counts {s : State} {group round n : Nat} {mt row : List Byte} (may : MayPost s group round n mt row) :
    (((List.range n).map fun j => field row (8 * j) 8).all fun c => decide (c < 2 ^ 44)) = true := by
  simp only [List.all_map, List.all_eq_true, List.mem_range, Function.comp_apply, decide_eq_true_eq]
  exact may.counts

/-- The participants as DPOST reads them from its table. -/
theorem members_eq (mt : List Byte) (n : Nat) :
    (((List.range n).map fun j => field mt (8 * j) 8).map fun w => (bits w 0 9, bits w 9 5, bits w 14 10)) = membersOf mt n := by
  simp only [List.map_map, membersOf]
  refine List.map_congr_left fun j _ => ?_
  simp only [Function.comp_apply, bits_zero]
  rfl

theorem dpost_may {s : State} {group round n : Nat} {mt row : List Byte} (may : MayPost s group round n mt row) :
    (((s.policyOf s.grp.vf).map fun p => decide ((decide (group ∈ p.xgroups) && decide (group ≠ 0)) = true)).getD false &&
      ((List.range n).map fun j => field mt (8 * j) 8).all (fun w => decide (w < 2 ^ 24)) && (distinct (membersOf mt n)).length == n &&
      decide ((s.pkg, s.grp.part, s.grp.vf) ∈ membersOf mt n) && (s.postedOf s.grp.vf s.grp.part group round).isNone &&
      decide ((s.posted.countP fun p => p.vf == s.grp.vf && p.part == s.grp.part) < Config.openRounds)) = true := by
  obtain ⟨p, hp, named, some'⟩ := may.granted
  have hwords : ((List.range n).map fun j => field mt (8 * j) 8).all (fun w => decide (w < 2 ^ 24)) = true := by
    simp only [List.all_map, List.all_eq_true, List.mem_range, Function.comp_apply, decide_eq_true_eq]
    exact may.words
  rw [hp, hwords, beq_iff_eq.mpr may.distinct', decide_eq_true may.self, may.new, decide_eq_true (show _ < Config.openRounds from may.room)]
  simp [named, some']

/-- A demand row's units, as DPOST counts them. -/
theorem units_eq (row : List Byte) (n idx : Nat) :
    ((List.range n).map fun j => if j = idx then 0 else ceilDiv (((List.range n).map fun j => field row (8 * j) 8).getD j 0) 4096) =
      unitsOf row n idx := by
  refine List.map_congr_left fun j hj => ?_
  have hlt := List.mem_range.mp hj
  simp [List.getD_eq_getElem?_getD, hlt, ceilDiv]

/-! ### XRUN -/

/-- The upper half of a 64-bit word. -/
theorem bits_high (w : W64) : bits w.toNat 32 32 = w.toNat / 2 ^ 32 := Nat.mod_eq_of_lt (by omega)

theorem xrun_others {p : Posted} {send recv : List Byte}
    (buffers : ∀ j ∈ (List.range p.members.length).filter (fun j => j != p.idx),
      (BitVec.ofNat 64 (field send (16 * j) 8)).toNat % 32 = 0 ∧ (BitVec.ofNat 64 (field recv (16 * j) 8)).toNat % 32 = 0) :
    (((List.range p.members.length).filter fun j => j != p.idx).flatMap fun j =>
      [BitVec.ofNat 64 (field send (16 * j) 8), BitVec.ofNat 64 (field recv (16 * j) 8)]).find? (fun v => v.toNat % 32 != 0) = none := by
  refine List.find?_eq_none.mpr fun v hv => ?_
  obtain ⟨j, hj, hv⟩ := List.mem_flatMap.mp hv
  obtain ⟨hs, hr⟩ := buffers j hj
  rcases List.mem_pair.mp hv with rfl | rfl
  · simp only [hs, bne_self_eq_false, Bool.false_eq_true, not_false_eq_true]
  · simp only [hr, bne_self_eq_false, Bool.false_eq_true, not_false_eq_true]

/-- Whether an operation is an XRUN. -/
def isXrun (o : EngineOp) : Bool :=
  match o.kind with
  | .xrun _ => true
  | _ => false

theorem no_xrun {s : State} (alone : ∀ o ∈ s.ops, o.vf = s.grp.vf → o.part = s.grp.part → ∀ x, o.kind ≠ .xrun x) :
    (s.ops.any fun o => o.vf == s.grp.vf && o.part == s.grp.part && isXrun o) = false := by
  refine List.any_eq_false.mpr fun o ho h => ?_
  simp only [Bool.and_eq_true, beq_iff_eq, isXrun] at h
  obtain ⟨⟨hvf, hpart⟩, h⟩ := h
  split at h
  · exact alone o ho hvf hpart _ ‹_›
  · cases h

theorem fabrics_exec {i : Instr} {s t : State} (h : Fabrics i s t) : exec i s = .next t := by
  cases h with
  | remld g ty sc ord off d a b _ accs regs room ok =>
    show execRemld g ty sc ord off d a b s = _
    rw [execRemld, remoteOp_ok regs room ok]
    rfl
  | remst g ty sc ord off d a b _ accs u regs room ok rel =>
    show execRemst g ty sc ord off d a b s = _
    simp only [execRemst, remoteOp_ok regs room ok, rel, ok_bind, finish_ok]
    rfl
  | rematom g ty sc ord op off d a b c _ accs u regs room ok rel =>
    have hregs : s.vcheck ((a, 1) :: (b, 2) :: atomReads op none d c (tyRegs ty)) [(d, tyRegs ty)] = .ok () := by
      rw [← regs]
      simp [atomReads, idxReads]
    show execRematom g ty sc ord op off d a b c s = _
    simp only [execRematom, remoteOp_ok hregs room ok, rel, ok_bind, finish_ok]
    rfl
  | rred g ty op f a b _ ps group num tag idx p regs fut ok policy granted words room synced =>
    obtain ⟨hgroup, hnum, -, htag, hidx, -⟩ := ok.fields
    have hgroup' : bits (s.rsAt b 0).toNat 0 32 = group := (bits_zero _ 32).trans hgroup.symm
    have hnum' : bits (s.rsAt b 0).toNat 32 16 = num := hnum.symm
    have htag' : bits (s.rsAt b 1).toNat 0 32 = tag := (bits_zero _ 32).trans htag.symm
    have hidx' : bits (s.rsAt b 1).toNat 32 12 = idx := hidx.symm
    have hroom : ¬Config.rredSlots ≤ s.rredCount s.grp.die := Nat.not_le.mpr room
    have hsynced : ¬(!s.synced) = true := by simp [synced]
    show execRred g ty op f a b s = _
    simp only [execRred, memFinish, hgroup', hnum', htag', hidx', regs, futReady_open fut, mustAlign_ok ok.dst, mustRange_ok (rred_form ok),
      policy, decide_eq_true granted, must_true, words, ok_bind, if_neg hroom, if_neg hsynced]
    rfl
  | dpost round f a _ ps group n mt row t u v fut ok words table demand may synced rel =>
    obtain ⟨hgroup, hn, -⟩ := ok.fields
    have hgroup' : bits (s.rsAt a 1).toNat 0 32 = group := (bits_zero _ 32).trans hgroup.symm
    have hn' : bits (s.rsAt a 1).toNat 32 13 = n := hn.symm
    have hsynced : ¬(!s.synced) = true := by simp [synced]
    show execDpost round f a s = _
    simp only [execDpost, memFinish, hgroup', hn', futReady_open fut, mustAlign_ok ok.table, mustAlign_ok ok.row, mustRange_ok (dpost_form ok),
      words, table, demand, ok_bind, mustRange_ok (dpost_counts may), members_eq, dpost_may may, must_true, if_neg hsynced,
      State.fresh, rel, units_eq]
    rfl
  | xcal f a _ ps p fut al zero round words open' =>
    obtain ⟨z3, z4, z5, z6, z7⟩ := zero
    have hzero : (s.rsAt a 3 == 0 && s.rsAt a 4 == 0 && s.rsAt a 5 == 0 && s.rsAt a 6 == 0 && s.rsAt a 7 == 0) = true := by
      simp only [z3, z4, z5, z6, z7, beq_self_eq_true, Bool.and_self]
    show execXcal f a s = _
    simp only [execXcal, memFinish, bits_zero, bits_high, futReady_open fut, mustAlign_ok al, mustRange_ok hzero, round, words, ok_bind, open']
    rfl
  | xrun f a _ p send recv v ok =>
    obtain ⟨ps, hwords⟩ := ok.words
    obtain ⟨t, u, hsend, hrecv, rel⟩ := ok.read
    have htimeout : (decide (1000 ≤ (s.rsAt a 3).toNat) && decide ((s.rsAt a 3).toNat ≤ 1000000000)) = true := by simp [ok.timeout]
    have hzero : (s.rsAt a 6 == 0 && s.rsAt a 7 == 0) = true := by simp [ok.zero]
    have hran : (!p.ran) = true := by simp [ok.once]
    show execXrun f a s = _
    simp only [execXrun, memFinish, bits_zero, bits_high, futReady_open ok.fut, mustAlign_ok ok.tables.1, mustAlign_ok ok.tables.2,
      mustRange_ok htimeout, mustAlign_ok ok.cw, mustRange_ok hzero, ok.round, hran, must_true, hwords, hsend, hrecv, ok_bind,
      xrun_others ok.buffers]
    erw [no_xrun ok.alone]
    simp only [Bool.false_eq_true, if_false, rel, ok_bind, finish_ok]
    rfl

/-- Settles O54: an instruction that reaches another package passes its checks, and its request is sent or its operation starts. -/
theorem fabricIssue : Obligations.FabricIssue := fun _ _ _ => fabrics_exec

end Sys2Proof.Machine
end

section
/-! PROOFS. Events of the fabric (R425): the row of the last contribution, refuted. -/
namespace Sys2Proof.Machine
open Sys2Proof Sys2Proof.Statements

/-- A contribution of package 1 to an addition of two participants: the value 1. -/
def shareOne (idx : Nat) : RredMsg :=
  { group := 7, tag := 0, n := 2, idx, op := .add, ty := .b32, timeout := 1000, vals := [1], pkg := 1, opId := 0 }

/-- The first contribution has arrived, the second one has not. -/
def awaitingShare : State := { synced := true, rreds := [⟨7, 0, 0, [shareOne 0]⟩] }

/-- The switch combines both contributions, and tells each contributor the sum. -/
theorem lastShare_sends_sum :
    exec (.rredContribution (shareOne 1)) awaitingShare =
      .next { awaitingShare with rreds := [], net := [.rredResult 1 0 0 [2], .rredResult 1 0 0 [2]] } := by
  have hsum : rredResult [shareOne 0, shareOne 1] .add .b32 = [2] := by
    rw [rredResult, List.mergeSort_of_pairwise (by decide)]
    rfl
  show execRredContribution (shareOne 1) awaitingShare = _
  have h : execRredContribution (shareOne 1) awaitingShare = .next ([shareOne 0, shareOne 1].foldl
    (fun s m => s.rredSend m 0 (rredResult [shareOne 0, shareOne 1] .add .b32)) { awaitingShare with rreds := [] }) := rfl
  rw [h, hsum]
  rfl

/-- Where the reduction's record is gone, the row's lookup finds the last contribution alone. -/
theorem alone_sends_one {s : State} (gone : s.rreds = []) (here : s.pkg = 0) (k : Nat) :
    s.rredSend (shareOne k) 0 (rredResult ((instanceOf s (shareOne 1)).msgs ++ [shareOne 1]) .add .b32) =
      { s with net := s.net ++ [.rredResult 1 0 0 [1]] } := by
  have hmsgs : (instanceOf s (shareOne 1)).msgs = [] := by simp [instanceOf, gone]
  have hone : rredResult [shareOne 1] .add .b32 = [1] := by simp [rredResult, shareOne]
  rw [hmsgs, List.nil_append, hone, State.rredSend, if_pos (by rw [here]; exact Nat.one_ne_zero)]
  rfl

/-- Refutes O55, at the last contribution to a reduction: the row `contributionLast` looks the record up again in the state that each
send leaves, where the record is gone, so it has the last contribution alone sent as the result, where the switch sends the sum. -/
theorem not_fabricEvents : ¬ Obligations.FabricEvents := by
  intro h
  have hrow := h _ _ _ (FabricEvents.contributionLast (shareOne 1) awaitingShare (by decide) rfl (by
    intro y hy
    obtain rfl := List.mem_singleton.mp hy
    decide) (by decide))
  have hlist : (instanceOf awaitingShare (shareOne 1)).msgs ++ [shareOne 1] = [shareOne 0, shareOne 1] := rfl
  rw [lastShare_sends_sum, hlist, List.foldl_cons, List.foldl_cons, List.foldl_nil] at hrow
  erw [alone_sends_one rfl rfl, alone_sends_one rfl rfl] at hrow
  have hnet : [NetMsg.rredResult 1 0 0 [2], .rredResult 1 0 0 [2]] = [.rredResult 1 0 0 [1], .rredResult 1 0 0 [1]] :=
    congrArg State.net (Host.Outcome.next.inj hrow)
  exact absurd hnet (by decide)

end Sys2Proof.Machine
end

section
/-! PROOFS. Queues and launches (R319 to R323, R327, R328, R330). -/
namespace Sys2Proof.Machine
open Sys2Proof Sys2Proof.Statements

/-! ### The start of an entry -/

theorem hasWait_eq_true {bs : List Byte} : hasWait bs = true ↔ field bs 48 8 ≠ 0 ∧ field bs 48 8 % 8 = 0 := by
  simp [hasWait]

/-- What the root does with an entry that has started. -/
def entryChecked (t : State) (q : Queue) (bs : Option (List Byte)) : State :=
  match bs with
  | none => launchEntered t fun id => blankLaunch q id q.started t.time 4
  | some b =>
    if hasWait b && (t.waitWord q b).1.isNone then launchEntered t fun id => blankLaunch q id q.started t.time 4
    else if bits (field b 0 8) 0 4 = 1 then t.startLaunch q q.started b
    else if bits (field b 0 8) 0 4 = 2 then t.startInvalidate q q.started b
    else launchEntered t fun id => blankLaunch q id q.started t.time 4

theorem exec_entryStart {s t : State} {j : Nat} {q : Queue} (starts : Starts s j q t) :
    exec (.entryStart j) s = .next (entryChecked t q (s.entryAt q q.started)) := by
  obtain ⟨at_, taken, may, order, wait, after, runs⟩ := starts
  have hwait : ¬((s.entryAt q q.started).any hasWait = true ∧ (!q.waitMet s.time) = true) := by
    rintro ⟨hany, hmet⟩
    obtain ⟨b, hb, hw⟩ : ∃ b, s.entryAt q q.started = some b ∧ hasWait b = true := by
      cases h : s.entryAt q q.started with
      | none => simp [h] at hany
      | some b => exact ⟨b, rfl, by simpa [h] using hany⟩
    obtain ⟨named, aligned⟩ := hasWait_eq_true.mp hw
    rcases wait b hb with h | h | h
    · exact named h
    · exact h aligned
    · simp [h] at hmet
  have hgo : ¬(q.taken ≤ q.started ∨ (!s.mayStart q) = true ∨ (!q.inOrder (s.entryAt q q.started)) = true ∨
      ((s.entryAt q q.started).any hasWait = true ∧ (!q.waitMet s.time) = true)) := by
    simp only [may, order, Bool.not_true, Bool.false_eq_true, false_or, not_or]
    exact ⟨Nat.not_le.mpr taken, hwait⟩
  have hruns : ((t.ctx q.vf q.part).any fun c => c.state == .terminated) = false := by
    cases h : t.ctx q.vf q.part with
    | none => rfl
    | some c => simpa using runs c h
  show execEntryStart j s = _
  simp only [execEntryStart, at_, if_neg hgo, ← after, hruns, Bool.false_eq_true, if_false, entryChecked]
  cases s.entryAt q q.started with
  | none => rfl
  | some b =>
    dsimp only
    split_ifs <;> rfl

/-! ### LAUNCH -/

theorem word_read {t : State} {q : Queue} {bs : List Byte} (word : hasWait bs = false ∨ (t.waitWord q bs).1.isSome = true) :
    (hasWait bs && (t.waitWord q bs).1.isNone) = false := by
  rcases word with h | h
  · rw [h, Bool.false_and]
  · rw [← Option.not_isSome, h, Bool.not_true, Bool.and_false]

theorem entryChecked_launch {t : State} {q : Queue} {bs : List Byte} (fields : LaunchOk t q bs) :
    entryChecked t q (some bs) = t.startLaunch q q.started bs := by
  have htype : bits (field bs 0 8) 0 4 = 1 := (bits_zero _ 4).trans fields.type
  simp only [entryChecked, word_read fields.word, Bool.false_eq_true, if_false, htype, if_true]

theorem launch_fields {t : State} {q : Queue} {bs : List Byte} (fields : LaunchOk t q bs) (diag : field bs 24 8 % 8192 = 0) :
    ¬(bits (field bs 0 8) 5 3 ≠ 0 ∨ bits (field bs 0 8) 8 16 = 0 ∨ bits (field bs 0 8) 24 32 = 0 ∨ bits (field bs 0 8) 56 8 ≠ 0 ∨
      field bs (8 * 1) 8 % 128 ≠ 0 ∨ field bs (8 * 2) 8 % 65536 ≠ 0 ∨ field bs (8 * 3) 8 % 8192 ≠ 0 ∨ field bs (8 * 4) 8 % 8192 ≠ 0 ∨
      field bs (8 * 6) 8 % 8 ≠ 0) := by
  obtain ⟨header, priv, tfb, wait⟩ := fields.aligned
  simp [fields.rsv, fields.region, fields.gangs, header, priv, diag, tfb, wait]

theorem startLaunch_plain {t u : State} {q : Queue} {bs : List Byte} {h : Header} (fields : LaunchOk t q bs) (noDiag : field bs 24 8 = 0)
    (header : HeaderOk { t with nextId := t.nextId + 1 } u q bs h) : t.startLaunch q q.started bs = launched u t.nextId q bs h := by
  have hfields := launch_fields fields (by rw [noDiag])
  have hdiag : field bs (8 * 3) 8 = 0 := noDiag
  have hread := header.read
  unfold State.startLaunch State.fresh
  simp only [if_neg hfields, if_pos hdiag, Bool.not_true, Bool.false_eq_true, if_false]
  erw [hread]
  simp only [header.fits, header.place, Bool.not_true, Bool.false_eq_true, if_false]
  rfl

theorem startLaunch_diag {t v u : State} {q : Queue} {bs : List Byte} {h : Header} {ps : List Piece} (fields : LaunchOk t q bs)
    (diag : field bs 24 8 ≠ 0 ∧ field bs 24 8 % 8192 = 0)
    (area : ({ t with nextId := t.nextId + 1 } : State).mapVa (rootHere q.part q.vf) 65536 (BitVec.ofNat 64 (field bs 24 8)) 8192 (·.w) =
      (.ok ps, v)) (header : HeaderOk v u q bs h) : t.startLaunch q q.started bs = launched u t.nextId q bs h := by
  have hfields := launch_fields fields diag.2
  have hdiag : ¬field bs (8 * 3) 8 = 0 := diag.1
  have hread := header.read
  unfold State.startLaunch State.fresh
  simp only [if_neg hfields, if_neg hdiag]
  erw [area]
  simp only [Bool.not_true, Bool.false_eq_true, if_false]
  erw [hread]
  simp only [header.fits, header.place, Bool.not_true, Bool.false_eq_true, if_false]
  rfl

/-! ### INVALIDATE -/

theorem sendMsg_launches (s : State) (cls : Traffic) (part vf die port bytes plane : Nat) (line : Option Nat) (m : NetMsg) :
    (s.sendMsg cls part vf die port bytes plane line m).launches = s.launches := by
  unfold State.sendMsg
  split <;> rfl

theorem sendFrom_launches (s : State) (stack : Nat) (ms : List NetMsg) : (s.sendFrom stack ms).launches = s.launches := by
  unfold State.sendFrom
  induction ms generalizing s with
  | nil => rfl
  | cons m r ih => exact (ih _).trans (sendMsg_launches ..)

theorem shootdown_launches (s : State) (vf part : Nat) (p : TlbEntry → Bool) : (s.shootdown vf part p).launches = s.launches :=
  sendFrom_launches ..

theorem startInvalidate_ok {t : State} {q : Queue} {bs : List Byte} (fields : InvalOk t q bs) :
    entryChecked t q (some bs) = invalidating t q fun e => field bs 16 8 == 0 || inRange bs e := by
  obtain ⟨type, address, rsv, wait, word⟩ := fields
  have htype : bits (field bs 0 8) 0 4 = 2 := by rw [type]; rfl
  have hgo : ¬(field bs (8 * 0) 8 ≠ 2 ∨ field bs (8 * 1) 8 % 65536 ≠ 0 ∨ field bs (8 * 2) 8 % 65536 ≠ 0 ∨ field bs (8 * 3) 8 ≠ 0 ∨
      field bs (8 * 4) 8 ≠ 0 ∨ field bs (8 * 5) 8 ≠ 0 ∨ field bs (8 * 6) 8 % 8 ≠ 0) := by
    have h3 := rsv 3 (by decide)
    have h4 := rsv 4 (by decide)
    have h5 := rsv 5 (by decide)
    simp only [type, address, h3, h4, h5, wait, ne_eq, not_true_eq_false, or_self, not_false_eq_true]
  simp only [entryChecked, word_read word, Bool.false_eq_true, if_false, htype, OfNat.ofNat_ne_one, if_true]
  unfold State.startInvalidate State.fresh
  simp only [if_neg hgo, invalidating, shootdown_launches]
  rfl

/-! ### Completion -/

theorem oldAccess_plain {s : State} {l : Launch} (plain : l.inval = false) : s.oldAccess l = false := by
  rw [State.oldAccess, plain, Bool.false_and]

theorem oldAccess_none {s : State} {l : Launch} (fetches : ∀ e ∈ s.fetchq, ¬(e.vf = l.vf ∧ e.part = l.part))
    (ops : ∀ o ∈ s.ops, o.vf = l.vf → o.part = l.part → o.id < l.id → (∀ x, o.kind ≠ .ixred x) ∧ ∀ x, o.kind ≠ .gred x) :
    s.oldAccess l = false := by
  have hfetches : (s.fetchq.any fun e => e.vf == l.vf && e.part == l.part) = false :=
    List.any_eq_false.mpr fun e he => by simpa using fetches e he
  simp only [State.oldAccess, hfetches, Bool.false_or]
  rw [Bool.and_eq_false_iff]
  refine .inr (List.any_eq_false.mpr fun o ho h => ?_)
  simp only [Bool.and_eq_true, beq_iff_eq, decide_eq_true_eq] at h
  obtain ⟨⟨⟨hvf, hpart⟩, hold⟩, hkind⟩ := h
  obtain ⟨hix, hgred⟩ := ops o ho hvf hpart hold
  split at hkind
  · exact hix _ ‹_›
  · exact hgred _ ‹_›
  · cases hkind

/-- A launch that is over completes (R327). -/
theorem exec_launchComplete {s v : State} {j : Nat} {l : Launch} {q : Queue} (at_ : s.launches[j]? = some l) (over' : s.launchOver l = true)
    (old : s.oldAccess l = false) (near : ∀ o ∈ s.wq, o.vf = l.vf → o.part = l.part → o.unanswered = false)
    (done : Completed (if l.inval then s.performCtx l.vf l.part else s) l q v) : exec (.launchComplete j) s = .next v := by
  obtain ⟨t, u, ht, hu, hq, hv⟩ := done
  have hnear : (s.wq.any fun o => o.vf == l.vf && o.part == l.part && o.unanswered) = false := by
    simpa using fun o ho hvf hpart => near o ho hvf hpart
  have hgo : ¬((!s.launchOver l) = true ∨ s.oldAccess l = true ∨
      (s.wq.any fun o => o.vf == l.vf && o.part == l.part && o.unanswered) = true) := by
    simp [over', old, hnear]
  show execLaunchComplete j s = _
  simp only [execLaunchComplete, at_, if_neg hgo, ← ht, ← hu, hq]
  have htime : u.time = t.time := by rw [hu]
  rw [hv, htime]

theorem queueEvents_exec {i : Instr} {s t : State} (h : Statements.QueueEvents i s t) : exec i s = .next t := by
  cases h with
  | poll j _ q bs at_ taken due entry =>
    have hgo : ¬(q.taken ≤ q.started ∨ (q.lastPoll ≠ 0 ∧ s.time < q.lastPoll + 100000)) := by omega
    show execWaitConditionPoll j s = _
    simp only [execWaitConditionPoll, at_, if_neg hgo, entry]
  | launch j _ q t u bs h starts entry fields noDiag header =>
    rw [exec_entryStart starts, entry, entryChecked_launch fields, startLaunch_plain fields noDiag header]
  | launchDiag j _ q t v u bs h ps starts entry fields diag area header =>
    rw [exec_entryStart starts, entry, entryChecked_launch fields, startLaunch_diag fields diag area header]
  | bad j _ q t starts fails =>
    rw [exec_entryStart starts]
    cases hentry : s.entryAt q q.started with
    | none => rfl
    | some b =>
      obtain ⟨h1, h2⟩ := fails b hentry
      have h1' : bits (field b 0 8) 0 4 ≠ 1 := fun h => h1 ((bits_zero _ 4).symm.trans h)
      have h2' : bits (field b 0 8) 0 4 ≠ 2 := fun h => h2 ((bits_zero _ 4).symm.trans h)
      simp only [entryChecked, if_neg h1', if_neg h2', ite_self]
  | unreadable j _ q t bs starts entry wait word =>
    rw [exec_entryStart starts, entry]
    simp only [entryChecked, wait, word, Option.isNone_none, Bool.and_self, if_true]
  | invalidate j _ q t bs starts entry fields all =>
    rw [exec_entryStart starts, entry, startInvalidate_ok fields]
    simp only [all, beq_self_eq_true, Bool.true_or]
  | invalidateRange j _ q t bs starts entry fields some' =>
    have hall : (field bs 16 8 == 0) = false := beq_eq_false_iff_ne.mpr some'
    rw [exec_entryStart starts, entry, startInvalidate_ok fields]
    simp only [hall, Bool.false_or]
  | completes j _ l q _ at_ over' plain near done =>
    exact exec_launchComplete at_ over' (oldAccess_plain plain) near (by rw [if_neg (by simp [plain])]; exact done)
  | invalidated j _ l q _ at_ over' inval far fetches ops done =>
    exact exec_launchComplete at_ over' (oldAccess_none fetches ops) far (by rw [if_pos inval]; exact done)

/-- Settles O56: an entry starts and is checked, or a launch that is over completes. -/
theorem queueEvents : Obligations.QueueEvents := fun _ _ _ => queueEvents_exec

end Sys2Proof.Machine
end

section
/-! PROOFS. Contexts and gangs, grace periods and deferred frees (R204 to R209, R324 to R345). -/
namespace Sys2Proof.Machine
open Sys2Proof Sys2Proof.Statements

/-! ### Admission -/

/-- The least number heads a sorted list. -/
theorem head_mergeSort_of_least {l : List Nat} {g : Nat} (mem : g ∈ l) (least : ∀ x ∈ l, g ≤ x) : (l.mergeSort).head? = some g := by
  have hsorted : (l.mergeSort).Pairwise (· ≤ ·) := by
    simpa using List.pairwise_mergeSort (le := fun x y : Nat => decide (x ≤ y)) (fun a b c => by simpa using Nat.le_trans)
      (fun a b => by simpa using Nat.le_total a b) l
  have hmem : ∀ x, x ∈ l.mergeSort ↔ x ∈ l := fun x => (List.mergeSort_perm l _).mem_iff
  cases h : l.mergeSort with
  | nil => exact absurd ((hmem g).mpr mem) (by simp [h])
  | cons x r =>
    have hx : x ∈ l := (hmem x).mp (by rw [h]; exact List.mem_cons_self)
    have hg : g ∈ x :: r := by rw [← h]; exact (hmem g).mpr mem
    rw [h] at hsorted
    have hle : x ≤ g := by
      rcases List.mem_cons.mp hg with rfl | hr
      · exact le_refl _
      · exact List.rel_of_pairwise_cons hsorted hr
    rw [List.head?_cons, Nat.le_antisymm hle (least x hx)]

/-- The gang and the place that a launch offers die `j` (R325). -/
def offer (s : State) (j : Nat) (l : Launch) : Option (Launch × Nat × Nat × Nat) :=
  if !s.holdsBank l.vf l.part then none
  else match (((l.unplaced.filter fun u => u.1 == j).map (·.2)).mergeSort).head?, (s.placesOn l.vf l.part j l.hdr.need).head? with
    | some g, some (cl, k) => some (l, g, cl, k)
    | _, _ => none

theorem offer_first {s : State} {j : Nat} {l : Launch} {g cl k : Nat} (first : Admits s j l g cl k) : offer s j l = some (l, g, cl, k) := by
  obtain ⟨-, bank, waits, lowest, place⟩ := first
  have hhead : (((l.unplaced.filter fun u => u.1 == j).map (·.2)).mergeSort).head? = some g := by
    refine head_mergeSort_of_least ?_ fun x hx => ?_
    · exact List.mem_map.mpr ⟨(j, g), List.mem_filter.mpr ⟨waits, by simp⟩, rfl⟩
    · obtain ⟨u, hu, rfl⟩ := List.mem_map.mp hx
      obtain ⟨hmem, hj⟩ := List.mem_filter.mp hu
      exact lowest u hmem (beq_iff_eq.mp hj)
  simp only [offer, bank, Bool.not_true, Bool.false_eq_true, if_false, hhead, place]

theorem offer_none {s : State} {j : Nat} {m : Launch}
    (h : s.holdsBank m.vf m.part = true → (∀ u ∈ m.unplaced, u.1 ≠ j) ∨ s.placesOn m.vf m.part j m.hdr.need = []) : offer s j m = none := by
  unfold offer
  cases hbank : s.holdsBank m.vf m.part with
  | false => rfl
  | true =>
    rcases h hbank with h | h
    · have hnone : m.unplaced.filter (fun u => u.1 == j) = [] := List.filter_eq_nil_iff.mpr fun u hu => by simpa using h u hu
      simp [hnone]
    · simp only [h, List.head?_nil, Bool.not_true, Bool.false_eq_true, if_false]
      split
      · rename_i heq
        cases heq
      · rfl

theorem exec_gangAdmit {s : State} {j : Nat} {l : Launch} {g cl k : Nat} (first : Admits s j l g cl k) :
    exec (.gangAdmit j) s = .next (s.placeGang l g j cl k) := by
  obtain ⟨pre, post, hranked, hpre⟩ := first.ranked
  have hfirst : s.rankedLaunches.findSome? (offer s j) = some (l, g, cl, k) := by
    rw [hranked, List.findSome?_append, List.findSome?_eq_none_iff.mpr fun m hm => offer_none (hpre m hm), Option.none_or,
      List.findSome?_cons, offer_first first]
  show execGangAdmit j s = _
  unfold execGangAdmit
  erw [hfirst]

/-! ### Stealing -/

theorem rankedLaunches_one {s : State} {l : Launch} (one : s.launches = [l]) : s.rankedLaunches = [l] := by
  rw [State.rankedLaunches, one]
  rfl

theorem foldl_max_le {l : List Nat} {a g : Nat} (start : a ≤ g) (bound : ∀ x ∈ l, x ≤ g) : l.foldl max a ≤ g := by
  induction l generalizing a with
  | nil => exact start
  | cons x r ih =>
    exact ih (Nat.max_le.mpr ⟨start, bound x List.mem_cons_self⟩) fun y hy => bound y (List.mem_cons_of_mem _ hy)

theorem le_foldl_max {l : List Nat} {a g : Nat} (mem : g ≤ a ∨ g ∈ l) : g ≤ l.foldl max a := by
  induction l generalizing a with
  | nil => simpa using mem
  | cons x r ih =>
    rcases mem with h | hmem
    · exact ih (.inl (h.trans (Nat.le_max_left a x)))
    · rcases List.mem_cons.mp hmem with rfl | hr
      · exact ih (.inl (Nat.le_max_right a g))
      · exact ih (.inr hr)

/-- The dies of a partition of two but for the thief's. -/
theorem victim_alone {dies : List Nat} {thief victim : Nat} (two : dies = [thief, victim] ∨ dies = [victim, thief]) (ne : thief ≠ victim) :
    dies.filter (fun d => d != thief) = [victim] := by
  rcases two with rfl | rfl <;> simp [ne.symm]

/-- The last gang of the victim is the highest of those that the victim has not stolen. -/
theorem last_gang {l : Launch} {victim g : Nat} (last : (victim, g) ∈ l.unplaced) (new : l.stolen = []) (top : ∀ u ∈ l.unplaced, u.2 ≤ g) :
    ((l.unplaced.filter fun u => u.1 == victim && decide (u.2 ∉ l.stolen)).map (·.2)).foldl max 0 = g := by
  refine Nat.le_antisymm (foldl_max_le (Nat.zero_le _) fun x hx => ?_) (le_foldl_max (.inr ?_))
  · obtain ⟨u, hu, rfl⟩ := List.mem_map.mp hx
    exact top u (List.mem_filter.mp hu).1
  · exact List.mem_map.mpr ⟨(victim, g), List.mem_filter.mpr ⟨last, by simp [new]⟩, rfl⟩

/-- Whether a launch has gangs of another die for the thief, and room for one there. -/
def wantsGang (s : State) (thief : Nat) (l : Launch) : Bool :=
  s.holdsBank l.vf l.part && decide (thief ∈ s.partDies l.part) && !(s.placesOn l.vf l.part thief l.hdr.need).isEmpty &&
    (s.partDies l.part).any fun d => d != thief && decide (0 < l.unplaced.countP fun u => u.1 == d)

theorem exec_stealRequest {thief victim g : Nat} {s : State} {l : Launch} (one : s.launches = [l]) (bank : s.holdsBank l.vf l.part = true)
    (thief' : thief ∈ s.partDies l.part) (room : s.placesOn l.vf l.part thief l.hdr.need ≠ [])
    (two : s.partDies l.part = [thief, victim] ∨ s.partDies l.part = [victim, thief]) (ne : thief ≠ victim)
    (idle : ∀ u ∈ l.unplaced, u.1 ≠ thief) (many : 1 < l.unplaced.countP fun u => u.1 == victim)
    (last : (victim, g) ∈ l.unplaced) (new : l.stolen = []) (top : ∀ u ∈ l.unplaced, u.2 ≤ g) :
    exec (.stealRequest thief victim l.id) s = .next
      { s with launches := [{ l with unplaced := (l.unplaced.filter (· != (victim, g))) ++ [(thief, g)], stolen := g :: l.stolen }] } := by
  have hothers := victim_alone two ne
  have hroom : (s.placesOn l.vf l.part thief l.hdr.need).isEmpty = false := by simpa using room
  have hheld : 0 < l.unplaced.countP fun u => u.1 == victim := by omega
  have hwants : (s.partDies l.part).any (fun d => d != thief && decide (0 < l.unplaced.countP fun u => u.1 == d)) = true := by
    refine List.any_eq_true.mpr ⟨victim, ?_, by simp [ne.symm, hheld]⟩
    rcases two with h | h <;> simp [h]
  have hpart : ((s.launches.find? fun x => x.id == l.id).map (·.part)) = some l.part := by simp [one]
  have hidle : (l.unplaced.countP fun u => u.1 == thief) = 0 := List.countP_eq_zero.mpr fun u hu => by simpa using idle u hu
  have hmany : ¬(l.unplaced.countP fun u => u.1 == victim) ≤ 1 := Nat.not_le.mpr many
  have hany : l.unplaced.any (fun u => u == (victim, g)) = true := List.any_eq_true.mpr ⟨_, last, beq_self_eq_true _⟩
  have hnew : g ∉ l.stolen := by simp [new]
  have hfind : (s.rankedLaunches.filter fun x => some x.part == (s.launches.find? fun y => y.id == l.id).map (·.part)).find?
      (wantsGang s thief) = some l := by
    have hwants : wantsGang s thief l = true := by
      simp only [wantsGang, bank, decide_eq_true thief', hroom, Bool.not_false, Bool.and_self, hwants]
    simp only [hpart, rankedLaunches_one one, List.filter_cons, List.filter_nil, beq_self_eq_true, if_true, List.find?_cons, hwants]
  show execStealRequest thief victim l.id s = _
  unfold execStealRequest
  dsimp only
  erw [hfind]
  simp only [hothers, List.foldl_cons, List.foldl_nil, one, List.all_cons, List.all_nil, hidle, beq_self_eq_true, Bool.or_true,
    Bool.and_self, Bool.not_true, last_gang last new top, hany, hnew, ne_eq, not_true_eq_false, hmany,
    Bool.false_eq_true, or_self, if_false, updateFirst, if_true]

/-! ### Saving -/

theorem exec_gangSave {key : Nat} {s t u : State} {g : Gang} {c d : Ctx} {h a : Handle}
    (gang : s.gangs.find? (fun g => g.key == key) = some g) (ctx : s.ctx g.vf g.part = some c) (saving : c.state = .saving)
    (area : s.saveArea c = some h) (tiles : s.holdsTile g = false) (table : ∀ e ∈ s.rtab, e.gang ≠ key)
    (quiet : ∀ x ∈ s.allGroups, x.gang = key → x.outst = []) (calm : ∀ x ∈ s.allGroups, x.gang = key → x.trapDue = false)
    (drained : t = ((((s.forGroups (fun x => x.gang == key) fun s => s.returnAll fun _ => true).drainQueue
      fun o => !o.isRemote && o.die == g.die && o.cluster == g.cluster && o.part == g.part &&
        decide (g.core0 ≤ o.core ∧ o.core < g.core0 + g.cores)).cleanPart fun x => x.die == g.die && x.part == g.part).ackAll
        fun x => x.die == g.die && x.part == g.part)) (still : t.ctx g.vf g.part = some d) (has : t.saveArea d = some a)
    (chunk : u = t.writeGang d a) :
    exec (.gangSave key) s = .next ((({ u with
      saved := u.saved ++ [⟨u.gang key, u.allGroups.filter fun x => x.gang == key, u.planes.filter fun p => p.gang == key, []⟩]
      grp := if u.grp.gang == key then {} else u.grp
      groups := u.groups.filter fun x => !(x.gang == key)
      gangs := u.gangs.filter fun x => x.key != key
      planes := u.planes.filter fun p => p.gang != key } : State).finishSaving g.vf g.part).settleMoves) := by
  have hcalm : (s.allGroups.any fun x => x.gang == key && x.trapDue) = false := by
    simpa using fun x hx hkey => calm x hx hkey
  have htable : (s.rtab.any fun e => e.gang == key) = false := List.any_eq_false.mpr fun e he => by simpa using table e he
  have hquiet : ∀ p : Outst → Bool, (s.allGroups.any fun x => x.gang == key && x.outst.any p) = false := fun p =>
    List.any_eq_false.mpr fun x hx h => by
      simp only [Bool.and_eq_true, beq_iff_eq] at h
      obtain ⟨hkey, hany⟩ := h
      rw [quiet x hx hkey] at hany
      cases hany
  show execGangSave key s = _
  simp only [execGangSave, gang, ctx, hcalm, Bool.false_eq_true, and_false, if_false]
  refine (if_neg ?_).trans ?_
  · simp [saving, area, hquiet, tiles, htable]
  · rw [← drained, still]
    simp only [has, Option.map_some, Option.getD_some]
    rw [chunk]

/-! ### Resuming -/

theorem exec_gangResume {j : Nat} {s : State} {v : Saved} {c : Ctx} {d cl k : Nat} (at_ : s.saved[j]? = some v)
    (ctx : s.ctx v.gang.vf v.gang.part = some c) (loading : c.state = .loading)
    (first : ∀ x ∈ s.saved.take j, ¬(x.gang.vf = v.gang.vf ∧ x.gang.part = v.gang.part)) (applied : s.resolutions = [])
    (dies : s.partDies v.gang.part = [d]) (place : s.placesOn v.gang.vf v.gang.part d v.need = [(cl, k)])
    (quads : s.quadsFree v d cl c.bank = true) :
    exec (.gangResume j) s = .next
      (let g := s.bind_ v.gang d cl k
       let t : State := { s with
         saved := s.saved.take j ++ s.saved.drop (j + 1)
         gangs := s.gangs ++ [g]
         planes := s.planes ++ v.planes.map fun p => { p with die := d, cluster := cl, bank := c.bank } }
       v.groups.foldl (fun s y =>
         let z := y.replace g v.gang.core0 (s.freeSlotNo d cl (k + (y.core - v.gang.core0)))
         ({ s with groups := s.groups ++ [z] } : State).dropClean z.here .pkg) t) := by
  have hfirst : ((s.saved.take j).all fun x => !(x.gang.vf == v.gang.vf && x.gang.part == v.gang.part)) = true := by
    simpa using fun x hx => not_and_or.mp (first x hx)
  have hplaces : ((s.partDies v.gang.part).flatMap fun d =>
      ((s.placesOn v.gang.vf v.gang.part d v.need).filter fun p => s.quadsFree v d p.1 c.bank).map fun p => (d, p)) = [(d, cl, k)] := by
    simp [dies, place, quads]
  show execGangResume j s = _
  simp only [execGangResume, at_, ctx, hplaces, List.length_cons, List.length_nil, Nat.zero_add, Nat.max_self, Nat.mod_one,
    List.getElem?_cons_zero, loading, hfirst, applied, List.any_nil, ne_eq, not_true_eq_false, Bool.not_true, Bool.false_eq_true, or_self,
    if_false, dropAt_eq]

theorem contextEvents_exec {i : Instr} {s t : State} (h : Statements.ContextEvents i s t) : exec i s = .next t := by
  cases h with
  | admits j _ l g cl k first => exact exec_gangAdmit first
  | retires key _ g gang groups ops table =>
    have hgo : ¬((s.allGroups.any fun x => x.gang == key) = true ∨ (s.ops.any fun o => o.gang == key) = true ∨
        (s.rtab.any fun e => e.gang == key) = true) := by
      simpa using ⟨groups, ops, table⟩
    show execGangRetire key s = _
    simp only [execGangRetire, gang, if_neg hgo]
  | steals thief victim _ l g one bank thief' room two ne idle many last new top =>
    exact exec_stealRequest one bank thief' room two ne idle many last new top
  | switches part _ c idle up next =>
    have hidle : (s.ctxs.any fun c => c.part == part && c.state == .active) = false := by
      simpa using fun c hc hpart => idle c hc hpart
    show execBankSwitch part c.bank s = _
    simp only [execBankSwitch, hidle, up, Bool.not_true, Bool.or_self, Bool.false_eq_true, if_false, next, ne_eq, not_true_eq_false]
  | sliceGoesOn part _ c b active busy ends alone =>
    have hpart : c.part = part := by
      have h := List.find?_some active
      simp only [Bool.and_eq_true, beq_iff_eq] at h
      exact h.1
    have halone : ((s.ready part).all fun x => x.vf == c.vf) = true := List.all_eq_true.mpr fun x hx => beq_iff_eq.mpr (alone x hx)
    show execSliceEnd part s = _
    simp only [execSliceEnd, active, busy, Bool.not_true, Bool.false_eq_true, if_false, ends, halone, if_true, hpart]
  | sliceEnds part _ c b active busy ends other =>
    obtain ⟨x, hx, hvf⟩ := other
    have hother : ((s.ready part).all fun x => x.vf == c.vf) = false := List.all_eq_false.mpr ⟨x, hx, by simpa using hvf⟩
    show execSliceEnd part s = _
    simp only [execSliceEnd, active, busy, Bool.not_true, Bool.false_eq_true, if_false, ends, hother]
  | loaded j _ c at_ loading keep restored =>
    have hrestored : (s.saved.any fun v => v.gang.vf == c.vf && v.gang.part == c.part) = false := by
      simpa using fun v hv hvf hpart => restored v hv ⟨hvf, hpart⟩
    show execContextLoad j s = _
    simp only [execContextLoad, at_, loading, hrestored, keep, Bool.false_eq_true, if_false]
  | loads j _ _ c h at_ absent free work still up room taken same =>
    show execContextLoad j s = _
    simp only [execContextLoad, at_, absent, free, work, still, up, Bool.not_true, Bool.false_eq_true, or_self, if_false, reduceCtorEq,
      false_and, room, ← taken, same, if_true]
  | saves key _ t u g c h d a gang ctx saving area tiles table quiet calm drained still has chunk =>
    exact exec_gangSave gang ctx saving area tiles table quiet calm drained still has chunk
  | resumes j _ v c d cl k at_ ctx loading first applied dies place quads =>
    exact exec_gangResume at_ ctx loading first applied dies place quads
  | applies j _ r at_ =>
    show execSavedResolutionApply j s = _
    simp only [execSavedResolutionApply, at_, dropAt_eq]
  | syncTakeover _ primary missed =>
    show execSyncEngineTakeover s = _
    simp only [execSyncEngineTakeover, primary, Bool.not_true, Bool.false_eq_true, false_or, if_neg (Nat.not_lt.mpr missed)]

/-! ### Grace periods -/

theorem pushing_first {c : Ctx} {b : Batch} {r : List Batch} (first : c.batches = b :: r) (pushing : b.state = .pushing) :
    c.pushing = some b := by
  simp only [Ctx.pushing, first, pushing, if_true]

theorem regulatorEvents_exec {i : Instr} {s t : State} (h : RegulatorEvents i s t) : exec i s = .next t := by
  cases h with
  | graceEnds j _ c g find started left =>
    show execGracePeriodEnd j s = _
    simp only [execGracePeriodEnd, find, started, left, and_self, if_true]
  | deadline j _ c g d find limit late =>
    show execGpwaitDeadline j s = _
    simp only [execGpwaitDeadline, State.graceNow, find, limit, if_pos late]
    rfl
  | batchCloses j _ c b at_ mem open' due =>
    have hdue : closes s b = true := by simpa [closes, open'] using due
    have hany : ¬(!c.batches.any (closes s)) = true := by simp [List.any_eq_true.mpr ⟨b, mem, hdue⟩]
    have hat : s.ctxAt j = some c := at_
    show execBatchClose j s = _
    simp only [execBatchClose, hat]
    exact if_neg hany
  | pushReads j _ t u c b r x n h rest v p at_ first pushing entry fresh head link =>
    have hat : s.ctxAt j = some c := at_
    show execBatchPush j s = _
    simp only [execBatchPush, hat, Option.bind_some, pushing_first first pushing, Option.map_some, State.pushStep, entry, head, fresh, link]
    rw [State.batchDone, if_pos (List.cons_ne_nil _ _)]
  | pushes j _ t c b r x n h rest v p at_ first pushing entry same more head =>
    have hat : s.ctxAt j = some c := at_
    show execBatchPush j s = _
    simp only [execBatchPush, hat, Option.bind_some, pushing_first first pushing, Option.map_some, State.pushStep, entry, head, same, if_true]
    rw [State.batchDone, if_pos more]
  | takeover _ primary missed =>
    show execRegulatorTakeover s = _
    simp only [execRegulatorTakeover, primary, Bool.not_true, Bool.false_eq_true, false_or, if_neg (Nat.not_lt.mpr missed)]

/-- Settles O57: each event of a context, a gang or a grace period, where its row says that it happens. -/
theorem contextEvents : Obligations.ContextEvents := ⟨fun _ _ _ => contextEvents_exec, fun _ _ _ => regulatorEvents_exec⟩

end Sys2Proof.Machine
end

section
/-! PROOFS. Sessions, and the BARs of the functions (R388, R391 to R405). -/
namespace Sys2Proof.Machine
open Sys2Proof Sys2Proof.Statements

/-! ### Sessions -/

/-- What each request of the handshake does. -/
theorem exec_spdmForm {i : Instr} {pf code : Nat} {req : List Byte} {ok : Pf → Bool} {f : Pf → Pf} (h : SpdmForm i pf req code ok f)
    (s : State) : exec i s = s.spdm pf code req ok f := by
  cases h with
  | capabilities => rfl
  | algorithms => rfl
  | digests => rfl
  | certificate => rfl
  | challenge => rfl
  | measurements => rfl
  | exchange => rfl
  | finish => rfl
  | endSession => rfl

theorem spdm_answers {s : State} {pf code : Nat} {req : List Byte} {ok : Pf → Bool} {f : Pf → Pf} (served : s.portServed pf = true)
    (stage : ok (s.pf pf) = true) (keeps : spdmKeeps code (Config.spdmOptions code req) = true)
    (valid : Config.spdmAccepts code (s.pf pf).transcript req = true) :
    s.spdm pf code req ok f = .next
      (let reply := Config.spdmReply code spdmChosen s.measurements (s.pf pf).transcript req
       (s.setPf pf fun p => f { p with transcript := p.transcript ++ req ++ reply }).tell [.spdm pf false reply]) := by
  simp only [State.spdm, served, stage, keeps, valid, Bool.not_true, Bool.or_self, Bool.false_eq_true, if_false]

theorem portServed_le {s : State} {pf : Nat} (served : s.portServed pf = true) : pf ≤ 1 := by
  simp only [State.portServed, Bool.and_eq_true, decide_eq_true_eq] at served
  exact served.1.1

theorem pf_setPf {s : State} {pf : Nat} (bound : pf ≤ 1) (f : Pf → Pf) : (s.setPf pf f).pf pf = f (s.pf pf) := by
  have hlt : pf < 2 := by omega
  simp [State.setPf, State.pf, List.getD_eq_getElem?_getD, hlt]

theorem setPf_congr {s : State} {pf : Nat} {f g : Pf → Pf} (h : f (s.pf pf) = g (s.pf pf)) : s.setPf pf f = s.setPf pf g := by
  simp only [State.setPf, h]

theorem portServed_setPf {s : State} {pf : Nat} {f : Pf → Pf} (bound : pf ≤ 1) (alive : (f (s.pf pf)).alive = (s.pf pf).alive) :
    (s.setPf pf f).portServed pf = s.portServed pf := by
  simp only [State.portServed, pf_setPf bound, alive]
  rfl

theorem vendor_effect {s t : State} {pf vf : Nat} {f : State → Option (List Byte × State)} {reply : List Byte}
    (served : s.portServed pf = true) (session : (s.pf pf).session = true) (port : portOf vf = pf) (effect : f s = some (reply, t)) :
    s.vendor pf vf f = .next (t.tell [.spdm pf false reply]) := by
  simp only [State.vendor, served, session, port, effect, Bool.not_true, Bool.false_eq_true, ne_eq, not_true_eq_false, or_self, if_false]

theorem vendor_refused {s : State} {pf vf : Nat} {f : State → Option (List Byte × State)} (served : s.portServed pf = true)
    (refused : (s.pf pf).session = false ∨ portOf vf ≠ pf ∨ f s = none) : s.vendor pf vf f = .next (s.tell [.spdm pf true []]) := by
  simp only [State.vendor, served, Bool.not_true, Bool.false_eq_true, if_false]
  split_ifs with h
  · rfl
  · simp only [Bool.not_eq_true', not_or, not_not, ne_eq, Bool.not_eq_false] at h
    obtain ⟨session, port⟩ := h
    rcases refused with h | h | h
    · rw [session] at h
      cases h
    · exact absurd port h
    · rw [h]
      rfl

/-- Whether a VF is bound under another secret. -/
def boundElse (s : State) (vf : Nat) (secret : List Byte) : Bool :=
  match s.vf vf with
  | some v => v.bound.isSome && v.secret.isSome && v.secret != some secret
  | none => false

theorem exec_keySet (pf vf : Nat) (secret : List Byte) (s : State) :
    exec (.keySet pf vf secret) s = s.vendor pf vf fun s =>
      if secret.length ≠ 32 ∨ (s.ctxs.any fun c => c.vf == vf && c.state != .absent) = true ∨ boundElse s vf secret = true then none
      else some ([], s.rekey vf secret) := rfl

theorem all_absent {s : State} {vf : Nat} (absent : ∀ c ∈ s.ctxs, c.vf = vf → c.state = .absent) :
    (s.ctxs.any fun c => c.vf == vf && c.state != .absent) = false := by
  simpa using absent

theorem boundElse_iff {s : State} {vf : Nat} {secret : List Byte} :
    boundElse s vf secret = true ↔ ∃ v k, s.vf vf = some v ∧ v.bound ≠ none ∧ v.secret = some k ∧ k ≠ secret := by
  unfold boundElse
  cases h : s.vf vf with
  | none => simp
  | some v => cases hb : v.bound <;> cases hs : v.secret <;> simp [hb, hs]

theorem rekey_other {s : State} {vf : Nat} {secret : List Byte} (other : ∀ v, s.vf vf = some v → v.secret ≠ some secret) :
    s.rekey vf secret =
      (pagesHeld s vf).foldl (fun u p => u.rereadPage (s.vfPair vf) ((s.setVf vf fun v => { v with secret := some secret }).vfPair vf) p)
        (s.setVf vf fun v => { v with secret := some secret }) := by
  have h : ¬(s.vf vf).bind (·.secret) = some secret := by
    cases hv : s.vf vf with
    | none => simp
    | some v => simpa using other v hv
  exact if_neg h

theorem rekey_same {s : State} {vf : Nat} {secret : List Byte} {v : Vf} (there : s.vf vf = some v) (same : v.secret = some secret) :
    s.rekey vf secret = s.setVf vf fun v => { v with secret := some secret } := if_pos (by rw [there]; exact same)

theorem sessionEvents_exec {i : Instr} {s t : State} (h : SessionEvents i s t) : exec i s = .next t := by
  cases h with
  | answers _ pf req code ok f _ form served stage keeps valid => rw [exec_spdmForm form, spdm_answers served stage keeps valid]
  | refuses _ pf req code ok f _ form served bad =>
    rw [exec_spdmForm form]
    rcases bad with h | h | h <;> simp [State.spdm, served, h, State.spdmError]
  | version pf req _ t served again keeps valid =>
    have hbound := portServed_le served
    have hpf : t.pf pf = { s.pf pf with transcript := [], stage := 0, session := false } := by rw [again, pf_setPf hbound]
    have hserved : t.portServed pf = true := by
      rw [again, portServed_setPf (by exact hbound) rfl]
      exact served
    show execGetVersion pf req s = _
    rw [execGetVersion, ← again, spdm_answers hserved rfl keeps (by rw [hpf]; exact valid)]
    simp only [hpf]
    refine congrArg (fun u : State => Host.Outcome.next (u.tell _)) (setPf_congr ?_)
    simp only [hpf, List.nil_append]
  | keySet pf vf secret _ served session port size absent unbound other =>
    have hbound : ¬boundElse s vf secret = true := by
      rw [boundElse_iff]
      rintro ⟨v, k, hv, hbound, -⟩
      exact hbound (unbound v hv)
    rw [exec_keySet]
    refine vendor_effect served session port ?_
    rw [if_neg (by simp [size, all_absent absent, hbound]), rekey_other other]
  | keySame pf vf secret _ v served session port size absent there same =>
    have hbound : ¬boundElse s vf secret = true := by
      rw [boundElse_iff]
      rintro ⟨w, k, hw, -, hsecret, hne⟩
      rw [there] at hw
      obtain rfl := Option.some.inj hw
      rw [same] at hsecret
      exact hne (Option.some.inj hsecret).symm
    rw [exec_keySet]
    refine vendor_effect served session port ?_
    rw [if_neg (by simp [size, all_absent absent, hbound]), rekey_same there same]
  | keyRefused pf vf secret _ served session port live =>
    rw [exec_keySet]
    refine vendor_refused served (.inr (.inr (if_pos ?_)))
    rcases live with h | ⟨c, hc, hvf, hstate⟩ | h
    · exact .inl h
    · exact .inr (.inl (List.any_eq_true.mpr ⟨c, hc, by simp [hvf, hstate]⟩))
    · exact .inr (.inr (boundElse_iff.mpr h))
  | policySet pf vf policy _ p served session port fields signed key newer positive =>
    have hkey : (((s.vf vf).bind (·.bound)).isNone || ((s.vf vf).bind (·.bound)) == some p.pubkey) = true := by
      cases hv : s.vf vf with
      | none => rfl
      | some v => rcases key v hv with h | h <;> simp [h]
    have hnewer : ¬p.version ≤ ((s.policyOf vf).map (·.version)).getD 0 := by
      cases hq : s.policyOf vf with
      | none => simpa using positive.ne'
      | some q => simpa using newer q hq
    show execPolicySet pf vf policy s = _
    refine vendor_effect served session port ?_
    simp only [fields, signed, hkey, Bool.not_true, Bool.false_eq_true, if_false, if_neg hnewer]
  | policyBad pf vf policy _ served session port fields =>
    show execPolicySet pf vf policy s = _
    refine vendor_refused served (.inr (.inr ?_))
    simp only [fields]
  | query pf vf _ v served session port there =>
    show execVfQuery pf vf s = _
    exact vendor_effect served session port (by rw [there]; rfl)
  | noSession _ pf vf _ form served out =>
    have hout : ∀ f, s.vendor pf vf f = .next (s.tell [.spdm pf true []]) := fun f =>
      vendor_refused served (out.imp_right .inl)
    obtain ⟨k, rfl⟩ | ⟨p, rfl⟩ | rfl := form
    · exact (exec_keySet pf vf k s).trans (hout _)
    · show execPolicySet pf vf p s = _
      exact hout _
    · show execVfQuery pf vf s = _
      exact hout _

/-! ### The BARs -/

/-- A record that a check of R405 fails is rejected. -/
def recordRejected (s : State) (vf : Nat) : State := s.setVf vf fun v => { v with lerr := (v.lerr + 1) % 2 ^ 64 }

/-- The record's form, its counter and its block (R405). -/
def recordBad (s : State) (vf off : Nat) (bytes : List Byte) : Prop :=
  off % 512 ≠ 0 ∨ bytes.length ≠ 512 ∨ field bytes 272 8 ≤ ((s.vf vf).map (·.lstat)).getD 0 ∨ field bytes 288 8 % 256 ≠ 0 ∨
    field bytes 296 216 ≠ 0

theorem exec_loadRecord_bad {s : State} {vf off : Nat} {bytes : List Byte} (serving : s.serving = true) (vfs : vf < 1024)
    (bad : recordBad s vf off bytes) : exec (.loadRecord vf off bytes) s = .next (recordRejected s vf) := by
  have hgo : ¬((!s.serving) = true ∨ 1024 ≤ vf) := by simp [serving, vfs]
  show execLoadRecord vf off bytes s = _
  unfold execLoadRecord
  rw [if_neg hgo]
  exact if_pos bad

theorem exec_loadRecord_foreign {s : State} {vf off : Nat} {bytes : List Byte} (serving : s.serving = true) (vfs : vf < 1024)
    (foreign : ∀ h, s.handle (field bytes 280 8) = some h → h.vf ≠ vf) :
    exec (.loadRecord vf off bytes) s = .next (recordRejected s vf) := by
  by_cases bad : recordBad s vf off bytes
  · exact exec_loadRecord_bad serving vfs bad
  · have hgo : ¬((!s.serving) = true ∨ 1024 ≤ vf) := by simp [serving, vfs]
    show execLoadRecord vf off bytes s = _
    unfold execLoadRecord
    rw [if_neg hgo]
    refine (if_neg bad).trans ?_
    split
    · rename_i h p hh _
      exact if_pos (.inl (foreign h hh))
    · rfl

theorem exec_loadRecord_taken {s : State} {vf off : Nat} {bytes p : List Byte} {h : Handle} (serving : s.serving = true) (vfs : vf < 1024)
    (good : ¬recordBad s vf off bytes) (handle : s.handle (field bytes 280 8) = some h)
    (valid : Config.gcmOpen (s.vfKey vf labelLoad) (bytesOfNat 2 vf ++ [2, 0] ++ bytesOfNat 8 (field bytes 272 8))
      (slice bytes 280 8 ++ slice bytes 288 8 ++ slice bytes 272 8) (slice bytes 0 256) (slice bytes 256 16) = some p)
    (own : h.vf = vf) (inside : field bytes 288 8 + 256 ≤ h.size) :
    exec (.loadRecord vf off bytes) s = .next
      ((s.handleWrite h (field bytes 288 8) (slice p 0 256)).setVf vf fun v => { v with lstat := field bytes 272 8 }) := by
  have hgo : ¬((!s.serving) = true ∨ 1024 ≤ vf) := by simp [serving, vfs]
  have hown : ¬(h.vf ≠ vf ∨ h.size < field bytes 288 8 + 256) := by
    rintro (h | h)
    · exact h own
    · omega
  show execLoadRecord vf off bytes s = _
  unfold execLoadRecord
  rw [if_neg hgo]
  refine (if_neg good).trans ?_
  simp only [handle, valid, if_neg hown]

/-- A read of a VF's BAR0. -/
theorem exec_lstatRead {s : State} {vf off : Nat} (serving : s.serving = true) (vfs : vf < 1024) (small : off < 65536) :
    exec (.lstatRead (65536 * vf + off)) s = .next (s.tell [.readValue vf (s.bar0Read vf off)]) := by
  have hvf : (65536 * vf + off) / 65536 = vf := by omega
  have hoff : (65536 * vf + off) % 65536 = off := by omega
  show execLstatRead (65536 * vf + off) s = _
  simp only [execLstatRead, hvf, hoff, serving, Bool.not_true, Bool.false_eq_true, if_false, if_pos vfs]

theorem bar0Read_qstat {s : State} {vf q : Nat} {x : Queue} (queues : q < 128) (queue : s.queue vf q = some x) :
    s.bar0Read vf (0x800 + 8 * q) = 1 + (if x.overrun then 2 else 0) + 2 ^ 16 * (x.taken % 2 ^ 48) := by
  have hlow : ¬0x800 + 8 * q < 0x800 := by omega
  have hhigh : 0x800 + 8 * q < 0x1000 := by omega
  have hal : ¬(0x800 + 8 * q) % 8 ≠ 0 := by omega
  have hq : (0x800 + 8 * q - 0x800) / 8 = q := by omega
  simp only [State.bar0Read, if_neg hlow, if_pos hhigh, if_neg hal, hq, queue]

/-- A register write to a PF's BAR0. -/
theorem exec_registerWrite_pf {s : State} {pf off : Nat} {bytes : List Byte} (serving : s.serving = true) (ports : pf ≤ 1) :
    exec (.registerWrite (1024 + pf) 0 off bytes) s = s.pfWrite pf off bytes := by
  have hvf : 1024 ≤ 1024 + pf := Nat.le_add_right ..
  have hpf : 1024 + pf ≤ 1025 := by omega
  show execRegisterWrite (1024 + pf) 0 off bytes s = _
  simp only [execRegisterWrite, serving, Bool.not_true, Bool.false_eq_true, if_false, if_pos hvf, hpf, and_self, if_true, Nat.add_sub_cancel_left]

theorem pfWrite_gives (s : State) (pf : Nat) : s.pfWrite pf 0x2080 [1] = s.runMail pf := by
  have h : ¬(0x2000 ≤ 0x2080 ∧ 0x2080 < 0x2040) := by decide
  rw [State.pfWrite, if_neg h, if_pos ⟨rfl, rfl⟩]

/-- The command in the mailbox is the one that its opcode names. -/
theorem runMail_of_form {s : State} {pf op : Nat} {i : Instr} (form : MailForm pf (s.pf pf).command op i)
    (opcode : field (s.pf pf).command 0 1 = op) : s.runMail pf = exec i s := by
  unfold State.runMail
  cases form <;> simp only [opcode] <;> rfl

theorem runMail_unknown {s : State} {pf : Nat} (opcode : field (s.pf pf).command 0 1 = 0 ∨ 16 < field (s.pf pf).command 0 1) :
    s.runMail pf = s.mailbox pf (field (s.pf pf).command 4 4) (field (s.pf pf).command 0 1)
      ((List.range 7).map fun k => field (s.pf pf).command (8 * (k + 1)) 8) fun s => s.no mbArgument := by
  unfold State.runMail
  dsimp only
  split
  case h_17 => rfl
  all_goals omega

theorem barWrites_exec {i : Instr} {s t : State} (h : BarWrites i s t) : exec i s = .next t := by
  cases h with
  | doorbell vf q n _ x serving queue alive more room =>
    have hgo : ¬((!s.serving) = true ∨ n ≤ x.taken ∨ x.dying.isSome = true) := by simp [serving, alive, more]
    show execDoorbell vf q n s = _
    simp only [execDoorbell, queue, if_neg hgo, if_neg (Nat.not_lt.mpr room)]
  | doorbellOver vf q n _ x serving queue alive more over' =>
    have hgo : ¬((!s.serving) = true ∨ n ≤ x.taken ∨ x.dying.isSome = true) := by simp [serving, alive, more]
    show execDoorbell vf q n s = _
    simp only [execDoorbell, queue, if_neg hgo, if_pos over']
  | doorbellOld vf q n _ x queue old =>
    show execDoorbell vf q n s = _
    simp only [execDoorbell, queue, old, true_or, or_true, if_true]
  | qstat vf q v _ serving one =>
    show execQstatWrite vf q v s = _
    simp only [execQstatWrite, serving, one, Bool.and_self, if_true]
  | qstatZero vf q v _ zero =>
    show execQstatWrite vf q v s = _
    simp only [execQstatWrite, zero, Bool.and_false, Bool.false_eq_true, if_false]
  | load vf off bytes _ v h p serving vfs there aligned size newer block rsv handle valid own inside =>
    refine exec_loadRecord_taken serving vfs ?_ handle valid own inside
    rw [recordBad, there]
    rintro (h | h | h | h | h)
    · exact h aligned
    · exact h size
    · exact absurd newer (Nat.not_lt.mpr h)
    · exact h block
    · exact h rsv
  | loadOld vf off bytes _ v serving vfs there old =>
    refine exec_loadRecord_bad serving vfs (.inr (.inr (.inl ?_)))
    rw [there]
    exact old
  | loadForeign vf off bytes _ serving vfs foreign => exact exec_loadRecord_foreign serving vfs foreign
  | lstat vf _ v serving vfs there =>
    rw [exec_lstatRead serving vfs (by decide)]
    simp only [State.bar0Read, there]
    rfl
  | lerr vf _ v serving vfs there =>
    rw [exec_lstatRead serving vfs (by decide)]
    simp only [State.bar0Read, there]
    rfl
  | nothingYet vf off _ serving vfs new which =>
    rcases which with rfl | rfl
    · rw [exec_lstatRead serving vfs (by decide)]
      simp only [State.bar0Read, new]
      rfl
    · rw [exec_lstatRead serving vfs (by decide)]
      simp only [State.bar0Read, new]
      rfl
  | qstatRead vf q _ x serving vfs queues queue => rw [exec_lstatRead serving vfs (by omega), bar0Read_qstat queues queue]
  | service vf _ serving vfs =>
    rw [exec_lstatRead serving vfs (by decide)]
    rfl
  | ring vf off b _ q h serving vfs queue handle inside =>
    have hvf : ¬1024 ≤ vf := Nat.not_le.mpr vfs
    show execRegisterWrite vf 4 off [b] s = _
    simp only [execRegisterWrite, serving, Bool.not_true, Bool.false_eq_true, if_false, if_neg hvf, ne_eq, not_true_eq_false, queue, handle,
      List.length_cons, List.length_nil, Nat.zero_add, List.range_one, List.foldl_cons, List.foldl_nil, Nat.add_zero, inside, if_true]
    rfl
  | dropped vf bar off bytes _ vfs other =>
    show execRegisterWrite vf bar off bytes s = _
    simp only [execRegisterWrite, if_neg (Nat.not_le.mpr vfs), if_pos other, ite_self]
  | command pf k b _ serving ports inside =>
    have hin : 0x2000 ≤ 0x2000 + k ∧ 0x2000 + k < 0x2040 := by omega
    rw [exec_registerWrite_pf serving ports, State.pfWrite, if_pos hin]
    refine congrArg Host.Outcome.next (setPf_congr ?_)
    rw [Pf.writeCommand, Nat.add_sub_cancel_left]
    congr 1
    refine List.map_congr_left fun i _ => ?_
    by_cases h : i = k
    · simp [h]
    · have hout : ¬(k ≤ i ∧ i < k + [b].length) := by simp; omega
      rw [if_neg hout, if_neg h]
  | gives pf op i _ _ serving ports form opcode runs =>
    rw [exec_registerWrite_pf serving ports, pfWrite_gives, runMail_of_form form opcode, runs]
  | unknown pf _ ports served free opcode =>
    have serving : s.serving = true := by
      simp only [State.portServed, Bool.and_eq_true] at served
      exact served.1.2
    rw [exec_registerWrite_pf serving ports, pfWrite_gives, runMail_unknown opcode]
    simp only [State.mailbox, served, free, Bool.not_true, Bool.or_self, Bool.false_eq_true, if_false]
    rfl

/-- Settles O58: sessions by the requests' one responder, the BARs by where each register lies. -/
theorem hostAccess : Obligations.HostAccess := ⟨fun _ _ _ => sessionEvents_exec, fun _ _ _ => barWrites_exec⟩

end Sys2Proof.Machine
end

section
/-! PROOFS. Mailbox commands (R387, R392 to R402). -/
namespace Sys2Proof.Machine
open Sys2Proof Sys2Proof.Statements

/-- A command taken comes to its reply. -/
theorem mailbox_taken {s t u : State} {pf op tag status : Nat} {operands result : List Nat} {f : State → Reply}
    (cmd : commandTaken s pf op tag operands t) (reply : f t = (status, result, u)) :
    s.mailbox pf tag op operands f = .next (u.respond pf tag status result) := by
  obtain ⟨served, free, rfl⟩ := cmd
  simp only [State.mailbox, served, free, Bool.not_true, Bool.or_self, Bool.false_eq_true, if_false, reply]

theorem mailbox_busy {s : State} {pf op tag : Nat} {operands : List Nat} {f : State → Reply} (runs : (s.pf pf).done = false) :
    s.mailbox pf tag op operands f = .next s := by
  simp only [State.mailbox, runs, Bool.not_false, Bool.or_true, if_true]

/-- A command on a context, its checks passed. -/
theorem ctxCommand_ok {s t u : State} {pf op tag vf part bit : Nat} {f : State → State} (cmd : commandTaken s pf op tag [vf, part] t)
    (port : portOf vf = pf) (parts : part < 24) (policy : t.hasPolicy vf = true) (may : t.permits vf bit = true)
    (needed : t.needCtx vf part = some u) : s.ctxCommand pf tag op vf part bit f = .next ((f u).respond pf tag 0) := by
  refine mailbox_taken cmd ?_
  simp only [port, Nat.not_le.mpr parts, policy, may, needed, ne_eq, not_true_eq_false, or_self, Bool.not_true, Bool.false_eq_true, if_false]
  rfl

/-! ### Handles -/

/-- With memory handles alone, a window starts at the aperture. -/
theorem firstFit_first {limit n : Nat} (fits : n ≤ limit) : firstFit limit n [] = some 0 := by
  simp [firstFit, fits]

theorem no_windows {hs : List Handle} (first : ∀ h ∈ hs, h.isMemory = true) :
    (hs.filterMap fun h => match h.kind with
      | .window _ _ n base => some ((base - Config.hostAperture) / 65536, n / 65536)
      | .memory _ => none) = [] := by
  refine List.filterMap_eq_nil_iff.mpr fun h hh => ?_
  have := first h hh
  unfold Handle.isMemory at this
  split
  · rename_i heq
    rw [heq] at this
    cases this
  · rfl

/-! ### MAP -/

theorem kinds_match {h : Handle} {ks : List (Nat × Nat × Kind)} {first n : Nat}
    (kinds : ∀ i < n, (kindAt ks (first + i) = .host ↔ h.isMemory = false)) :
    (((List.range n).map fun i => first + i).all fun p => (kindAt ks p == .host) != h.isMemory) = true := by
  simp only [List.all_map, List.all_eq_true, List.mem_range, Function.comp_apply]
  intro i hi
  have hk := kinds i hi
  cases hm : h.isMemory with
  | false => simp [hk.mpr hm]
  | true =>
    have hne : kindAt ks (first + i) ≠ .host := fun e => by rw [hk.mp e] at hm; cases hm
    simpa using hne

/-- One page of MAP, whose physical page and tables are there. -/
theorem mapPage_ok {s t : State} {vf part : Nat} {h : Handle} {ip page pp : Nat} {k : Kind} {c : Ctx} (ctx : s.ctx vf part = some c)
    (phys : physPage h page = some pp)
    (leaf : (s.unmapPages vf part fun m => m.ipage == ip).installLeaf c.s2root ip pp k = some t) :
    s.mapPage vf part h ip page k = some { t with maps := t.maps ++ [⟨vf, part, h.id, ip, [pp], k⟩] } := by
  unfold State.mapPage
  unfold physPage at phys
  simp only [ctx, Option.bind_eq_bind, Option.bind_some]
  cases hk : h.kind with
  | memory ps =>
    simp only [hk] at phys
    simp only [phys, Option.bind_some, leaf]
  | window db tb n base =>
    simp only [hk, Option.some.injEq] at phys
    subst phys
    simp only [leaf, Option.bind_some]

/-- MAP of pages one after another. -/
theorem mapPages_ok {s u : State} {vf part : Nat} {h : Handle} {ks : List (Nat × Nat × Kind)} {pages : List (Nat × Nat)} {at_ : Nat → Nat}
    (mapped : Mapped vf part h.id ks pages s u) (phys : ∀ x ∈ pages, physPage h (at_ x.1) = some x.2) :
    (pages.map (·.1)).foldl (fun (t : Option State) p => t.bind fun t => t.mapPage vf part h p (at_ p) (kindAt ks p)) (some s) = some u := by
  induction mapped with
  | done s => rfl
  | page ip pp rest s t u c ctx leaf _ ih =>
    rw [List.map_cons, List.foldl_cons, Option.bind_some, mapPage_ok ctx (phys (ip, pp) List.mem_cons_self) leaf]
    exact ih fun x hx => phys x (List.mem_cons_of_mem _ hx)

/-! ### Contexts -/

/-- A RESIDENT context with gangs begins to be saved, and is not saved yet. -/
theorem evict_resident {s : State} {vf part : Nat} {c : Ctx} (there : s.ctx vf part = some c) (resident : c.state = .resident)
    (gangs : ∃ g ∈ s.gangs, g.vf = vf ∧ g.part = part) :
    (s.evict vf part).finishSaving vf part = s.setCtx vf part fun c => { c with state := .saving } := by
  have hevict : s.evict vf part = s.setCtx vf part fun c => { c with state := .saving } := by
    simp only [State.evict, there, resident]
  have hctx : (s.setCtx vf part fun c => { c with state := .saving }).ctx vf part = some { c with state := .saving } := by
    rw [ctx_setCtx s vf part (fun c => { c with state := .saving }) fun c => ⟨rfl, rfl⟩, there]
    rfl
  obtain ⟨g, hg, hvf, hpart⟩ := gangs
  have hany : (s.setCtx vf part fun c => { c with state := .saving }).gangs.any (fun g => g.vf == vf && g.part == part) = true :=
    List.any_eq_true.mpr ⟨g, hg, by simp [hvf, hpart]⟩
  rw [hevict]
  simp only [State.finishSaving, hctx, hany, or_true, if_true]

/-! ### The commands -/

theorem exec_otherPort {i : Instr} {pf tag op vf : Nat} {operands : List Nat} {s t : State}
    (form : (∃ n l k, i = .alloc pf tag vf n l k ∧ op = 1 ∧ operands = [vf, n, (if l then 1 else 0) + 2 * k]) ∨
      (∃ d b n, i = .hwin pf tag vf d b n ∧ op = 2 ∧ operands = [vf, d, b, n]) ∨
      (∃ p h a o n, i = .map pf tag vf p h a o n ∧ op = 4 ∧ operands = [vf, p, h, a, o, n]) ∨
      (∃ p a n, i = .unmap pf tag vf p a n ∧ op = 5 ∧ operands = [vf, p, a, n]) ∨
      (∃ p, i = .pause pf tag vf p ∧ op = 8 ∧ operands = [vf, p]) ∨ (∃ p, i = .unpause pf tag vf p ∧ op = 9 ∧ operands = [vf, p]) ∨
      (∃ p, i = .evict pf tag vf p ∧ op = 10 ∧ operands = [vf, p]) ∨ (∃ p, i = .reset pf tag vf p ∧ op = 13 ∧ operands = [vf, p]) ∨
      (∃ n, i = .setltol pf tag vf n ∧ op = 14 ∧ operands = [vf, n]) ∨ (∃ p h, i = .savearea pf tag vf p h ∧ op = 16 ∧ operands = [vf, p, h]))
    (cmd : commandTaken s pf op tag operands t) (other : portOf vf ≠ pf) : exec i s = .next (t.respond pf tag 2) := by
  have hno : ∀ {f : State → Reply}, f t = t.no mbArgument → s.mailbox pf tag op operands f = .next (t.respond pf tag 2) :=
    fun h => mailbox_taken cmd h
  rcases form with ⟨n, l, k, rfl, rfl, rfl⟩ | ⟨d, b, n, rfl, rfl, rfl⟩ | ⟨p, h, a, o, n, rfl, rfl, rfl⟩ | ⟨p, a, n, rfl, rfl, rfl⟩ |
    ⟨p, rfl, rfl, rfl⟩ | ⟨p, rfl, rfl, rfl⟩ | ⟨p, rfl, rfl, rfl⟩ | ⟨p, rfl, rfl, rfl⟩ | ⟨n, rfl, rfl, rfl⟩ | ⟨p, h, rfl, rfl, rfl⟩
  · show execAlloc pf tag vf n l k s = _
    exact hno (if_pos (Or.inl other))
  · show execHwin pf tag vf d b n s = _
    refine hno ?_
    exact if_pos (Or.inl other)
  · show execMap pf tag vf p h a o n s = _
    refine hno ?_
    exact if_pos (Or.inl other)
  · show execUnmap pf tag vf p a n s = _
    refine hno ?_
    exact if_pos (Or.inl other)
  · show execPause pf tag vf p s = _
    rw [execPause, State.ctxCommand]
    refine hno ?_
    exact if_pos (Or.inl other)
  · show execUnpause pf tag vf p s = _
    rw [execUnpause, State.ctxCommand]
    refine hno ?_
    exact if_pos (Or.inl other)
  · show execEvict pf tag vf p s = _
    rw [execEvict, State.ctxCommand]
    refine hno ?_
    exact if_pos (Or.inl other)
  · show execReset pf tag vf p s = _
    refine hno ?_
    exact if_pos (Or.inl other)
  · show execSetltol pf tag vf n s = _
    refine hno ?_
    exact if_pos other
  · show execSavearea pf tag vf p h s = _
    refine hno ?_
    exact if_pos (Or.inl other)

theorem exec_alloc {pf tag vf size stack : Nat} {loc : Bool} {s t u : State} {p : Policy}
    (cmd : commandTaken s pf 0x01 tag [vf, size, (if loc then 1 else 0) + 2 * stack] t) (port : portOf vf = pf) (some' : size ≠ 0)
    (twelve : stack < 12) (policy : t.hasPolicy vf = true) (inForce : t.policyOf vf = some p)
    (room : t.pagesOf vf + size ≤ p.memq ∧ t.handleCount vf < p.maxHandles)
    (pages : (t.findPages (inMode t loc stack) pageCount 0 size).length = size)
    (after : u = (t.findPages (inMode t loc stack) pageCount 0 size).foldl State.scrub t) :
    exec (.alloc pf tag vf size loc stack) s = .next
      ((({ u with nextId := u.nextId + 1, handles := u.handles ++ [⟨u.nextId, vf,
        .memory (t.findPages (inMode t loc stack) pageCount 0 size), none⟩] } : State).setVf vf fun v => { v with freed := false }).respond
        pf tag 0 [u.nextId]) := by
  have hroom : ¬(p.memq < t.pagesOf vf + size ∨ p.maxHandles ≤ t.handleCount vf) := by omega
  have hargs : ¬(portOf vf ≠ pf ∨ size = 0 ∨ 12 ≤ stack) := by simp [port, some', twelve]
  have hpages : ¬(t.findPages (inMode t loc stack) pageCount 0 size).length < size := by omega
  show execAlloc pf tag vf size loc stack s = _
  refine mailbox_taken cmd ?_
  rw [if_neg hargs]
  simp only [policy, inForce, Bool.not_true, Bool.false_eq_true, if_false, Option.map_some, Option.getD_some, if_neg hroom]
  refine (if_neg hpages).trans ?_
  rw [after]
  rfl

theorem exec_map {pf tag vf part id ia off len : Nat} {s t u v : State} {h : Handle} {pp : Nat → Nat}
    (cmd : commandTaken s pf 0x04 tag [vf, part, id, ia, off, len] t) (port : portOf vf = pf)
    (parts : part < 24) (some' : len ≠ 0) (aligned : len % 65536 = 0 ∧ ia % 65536 = 0 ∧ off % 65536 = 0) (inside : ia + len ≤ 2 ^ 55)
    (own : t.ownHandle vf id = some h) (size : off + len ≤ h.size) (policy : t.hasPolicy vf = true)
    (kinds : ∀ i < len / 65536, (kindAt (t.kindsOf vf part) (ia / 65536 + i) = .host ↔ h.isMemory = false))
    (once : h.part = none ∨ h.part = some part) (needed : t.needCtx vf part = some u)
    (pages : ∀ i < len / 65536, physPage h (off / 65536 + i) = some (pp i))
    (mapped : Mapped vf part h.id (t.kindsOf vf part) ((List.range (len / 65536)).map fun i => (ia / 65536 + i, pp i)) u v) :
    exec (.map pf tag vf part id ia off len) s = .next
      (({ v with handles := updateAll (fun x => x.id == id) (fun x => { x with part := some part }) v.handles } : State).respond pf tag 0) := by
  have hargs : ¬(portOf vf ≠ pf ∨ 24 ≤ part ∨ len = 0 ∨ len % 65536 ≠ 0 ∨ ia % 65536 ≠ 0 ∨ off % 65536 ≠ 0 ∨ 2 ^ 55 < ia + len) := by
    simp only [port, Nat.not_le.mpr parts, some', aligned, Nat.not_lt.mpr inside, ne_eq, not_true_eq_false, or_self, not_false_eq_true]
  have honce : ¬(h.part.isSome = true ∧ h.part ≠ some part) := by rcases once with h | h <;> simp [h]
  have hfold := mapPages_ok (at_ := fun p => off / 65536 + (p - ia / 65536)) mapped (by
    intro x hx
    obtain ⟨i, hi, rfl⟩ := List.mem_map.mp hx
    simp only [Nat.add_sub_cancel_left]
    exact pages i (List.mem_range.mp hi))
  rw [List.map_map] at hfold
  show execMap pf tag vf part id ia off len s = _
  refine mailbox_taken cmd ?_
  simp only [if_neg hargs, own, if_neg (Nat.not_lt.mpr size), policy, Bool.not_true, Bool.false_eq_true, if_false, kinds_match kinds,
    if_neg honce, needed, Option.bind_some]
  erw [hfold]
  rfl

theorem exec_hwin {pf tag vf db tb len : Nat} {s t : State} {p : Policy} (cmd : commandTaken s pf 0x02 tag [vf, db, tb, len] t)
    (port : portOf vf = pf) (some' : len ≠ 0) (policy : t.hasPolicy vf = true) (inForce : t.policyOf vf = some p)
    (kinds : ∃ k ∈ p.kinds, k.2.2 = .host) (room : t.handleCount vf < p.maxHandles) (first : ∀ h ∈ t.handles, h.isMemory = true)
    (fits : len ≤ (2 ^ 40 - Config.hostAperture) / 65536) :
    exec (.hwin pf tag vf db tb len) s = .next
      ((({ t with nextId := t.nextId + 1, handles := t.handles ++
        [⟨t.nextId, vf, .window db tb (65536 * len) Config.hostAperture, none⟩] } : State).setVf vf fun v => { v with freed := false }).respond
          pf tag 0 [t.nextId]) := by
  obtain ⟨k, hk, hhost⟩ := kinds
  have hargs : ¬(portOf vf ≠ pf ∨ len = 0) := by simp [port, some']
  have hkinds : ¬((p.kinds.all fun k => k.2.2 != .host) = true ∨ p.maxHandles ≤ t.handleCount vf) := by
    rintro (h | h)
    · have := List.all_eq_true.mp h k hk
      simp [hhost] at this
    · omega
  show execHwin pf tag vf db tb len s = _
  refine mailbox_taken cmd ?_
  simp only [if_neg hargs, policy, inForce, Bool.not_true, Bool.false_eq_true, if_false, Option.map_some, Option.getD_some, if_neg hkinds]
  erw [no_windows first, firstFit_first fits]
  rfl

theorem exec_free {pf tag id : Nat} {s t u v : State} {h : Handle} {ps : List Nat} (cmd : commandTaken s pf 0x03 tag [id] t)
    (there : t.handle id = some h) (port : portOf h.vf = pf) (policy : t.hasPolicy h.vf = true) (memory : h.kind = .memory ps)
    (unmapped : ∀ m ∈ t.maps, m.handle ≠ id)
    (gone : u = { ps.foldl State.scrub t with handles := (ps.foldl State.scrub t).handles.filter fun x => x.id != id })
    (last : v = if u.handles.any fun x => x.vf == h.vf then u else u.setVf h.vf fun v => { v with freed := true }) :
    exec (.free pf tag id) s = .next ((v.settleBind h.vf).respond pf tag 0) := by
  have hown : (t.handle id).filter (fun h => portOf h.vf == pf) = some h := by simp [there, port]
  have hmaps : (t.maps.filter fun m => m.handle == id) = [] := List.filter_eq_nil_iff.mpr fun m hm => by simpa using unmapped m hm
  show execFree pf tag id s = _
  refine mailbox_taken cmd ?_
  simp only [hown, hmaps, policy, Bool.not_true, Bool.false_eq_true, if_false, List.any_nil, List.map_nil, memory]
  rw [last, gone]
  rfl

theorem exec_qcreate {pf tag vf part q level id logN ctr : Nat} {intr : Bool} {s t u : State} {h : Handle} {p : Policy}
    (cmd : commandTaken s pf 0x06 tag [vf, part, q, level, id, logN, ctr + if intr then 1 else 0] t)
    (port : portOf vf = pf) (parts : part < 24) (queues : q < 128) (levels : level < 4) (sizes : 4 ≤ logN ∧ logN ≤ 12)
    (counter : ctr % 8 = 0 ∧ ctr < 2 ^ 64) (home : t.kindOfVa vf part (BitVec.ofNat 64 ctr) = some .atomicHome)
    (own : t.ownHandle vf id = some h) (memory : h.isMemory = true) (size : 327680 ≤ h.size) (policy : t.hasPolicy vf = true)
    (inForce : t.policyOf vf = some p) (room : (t.queues.countP fun x => x.vf == vf && x.level == level) < p.queues.getD level 0)
    (new : t.queue vf q = none) (needed : t.needCtx vf part = some u) :
    exec (.qcreate pf tag vf part q level id logN ctr intr) s = .next
      (({ u with queues := u.queues ++ [⟨vf, q, part, level, id, logN, ctr, intr, 0, 0, [], false, none, 0, false⟩] } : State).respond
        pf tag 0) := by
  have hown : (t.ownHandle vf id).filter Handle.isMemory = some h := by simp [own, memory]
  have hargs : ¬(portOf vf ≠ pf ∨ 24 ≤ part ∨ 128 ≤ q ∨ 4 ≤ level ∨ logN < 4 ∨ 12 < logN ∨ ctr % 8 ≠ 0 ∨ 2 ^ 64 ≤ ctr ∨
      t.kindOfVa vf part (BitVec.ofNat 64 ctr) ≠ some .atomicHome ∨ ((some h).map fun h => decide (h.size < 327680)) = some true) := by
    simp only [port, Nat.not_le.mpr parts, Nat.not_le.mpr queues, Nat.not_le.mpr levels, Nat.not_lt.mpr sizes.1, Nat.not_lt.mpr sizes.2,
      counter.1, Nat.not_le.mpr counter.2, home, Option.map_some, decide_eq_false (Nat.not_lt.mpr size), Option.some.injEq,
      Bool.false_eq_true, ne_eq, not_true_eq_false, or_self, not_false_eq_true]
  show execQcreate pf tag vf part q level id logN ctr intr s = _
  refine mailbox_taken cmd ?_
  simp only [hown]
  rw [if_neg hargs]
  simp only [Option.isNone_some, policy, inForce, Option.map_some, Option.getD_some, if_neg (Nat.not_le.mpr room), new,
    Option.isSome_none, needed, Bool.not_true, Bool.false_eq_true, if_false]
  rfl

theorem exec_qdestroy {pf tag vf q : Nat} {s t : State} {x : Queue} (served : s.portServed pf = true) (free : (s.pf pf).done = true)
    (cmd : t = s.setPf pf fun p => { p with command := mailWords 0x07 tag [vf, q], done := false }) (port : portOf vf = pf) (queues : q < 128)
    (policy : t.hasPolicy vf = true) (there : t.queue vf q = some x) (all : ∀ n < x.started, n ∈ x.done) :
    exec (.qdestroy pf tag vf q) s = .next
      (({ t with queues := (t.setQueue vf q fun x => { x with dying := some (pf, tag) }).queues.filter fun y => !(y.vf == vf && y.q == q) } :
          State).respond pf tag 0) := by
  have hargs : ¬(portOf vf ≠ pf ∨ 128 ≤ q) := by simp [port, queues]
  have hqueue : (t.setQueue vf q fun x => { x with dying := some (pf, tag) }).queue vf q = some { x with dying := some (pf, tag) } := by
    have h := find_updateFirst_self (fun x : Queue => x.vf == vf && x.q == q) (fun x => { x with dying := some (pf, tag) }) t.queues
      fun x hx => hx
    exact h.trans (congrArg (Option.map _) there)
  have hall : ((List.range x.started).all fun n => decide (n ∈ x.done)) = true := by simpa using all
  show execQdestroy pf tag vf q s = _
  simp only [execQdestroy, served, free, Bool.not_true, Bool.or_self, Bool.false_eq_true, if_false, ← cmd, if_neg hargs, policy, there,
    Option.isNone_some, State.settleQueue, hqueue, hall, if_true]
  rfl

theorem exec_resize {pf tag vf part quota : Nat} {s t u : State} {c : Ctx} {p : Policy} (cmd : commandTaken s pf 0x0B tag [vf, part, quota] t)
    (port : portOf vf = pf) (parts : part < 24) (field' : quota < 2 ^ 58) (limits : (quotaOf quota).le ⟨512, 64, 1024, 256, 256, 2048⟩ = true)
    (policy : t.hasPolicy vf = true) (may : t.permits vf 2 = true) (inForce : t.policyOf vf = some p)
    (fits : (quotaOf quota).le (quotaOf p.quota) = true) (needed : t.needCtx vf part = some u) (there : u.ctx vf part = some c)
    (away : c.state = .absent ∨ c.state = .saved) :
    exec (.resize pf tag vf part quota) s = .next ((u.setCtx vf part fun c => { c with resize := some quota }).respond pf tag 0) := by
  have hargs : ¬(portOf vf ≠ pf ∨ 24 ≤ part ∨ 2 ^ 58 ≤ quota ∨ (!(quotaOf quota).le ⟨512, 64, 1024, 256, 256, 2048⟩) = true) := by
    simp only [port, Nat.not_le.mpr parts, Nat.not_le.mpr field', limits, ne_eq, not_true_eq_false, Bool.not_true, Bool.false_eq_true, or_self,
      not_false_eq_true]
  have hctx : (u.setCtx vf part fun c => { c with resize := some quota }).ctx vf part = some { c with resize := some quota } := by
    rw [ctx_setCtx u vf part (fun c => { c with resize := some quota }) fun c => ⟨rfl, rfl⟩, there]
    rfl
  have haway : ¬c.state = .resident := by rcases away with h | h <;> simp [h]
  show execResize pf tag vf part quota s = _
  refine mailbox_taken cmd ?_
  simp only [if_neg hargs, policy, may, inForce, Option.map_some, Option.getD_some, fits, Bool.not_true, Bool.false_eq_true, or_self, if_false,
    needed, hctx, if_neg haway]
  rfl

/-- A quadrant asked to move from partition `a`: the contexts of both partitions begin to be saved (R387). -/
def quadrantMoves (t : State) (die quad a part : Nat) : State :=
  ((t.ctxs.filter (quits a part)).foldl (fun s c => (s.evict c.vf c.part).finishSaving c.vf c.part)
    ({ t with moving := (t.moving.filter fun m => !(m.1 == die && m.2.1 == quad)) ++ [(die, quad, part)] } : State)).settleMoves

theorem exec_partition {pf tag die quad part a : Nat} {s t : State} (cmd : commandTaken s pf 0x0C tag [die, quad, part] t)
    (dies : die < 6) (quads : quad < 4) (parts : part < 24 ∨ part = 31) (alive : (t.die die).failed = false)
    (here : (t.gates.toList[4 * die + quad]?).map (·.part) = some a) (may : ∀ c ∈ t.ctxs, quits a part c = true → t.permits c.vf 2 = true) :
    exec (.partition pf tag die quad part) s =
      .next ((if a = part then t else quadrantMoves t die quad a part).respond pf tag 0) := by
  have hargs : ¬(6 ≤ die ∨ 4 ≤ quad ∨ (24 ≤ part ∧ part ≠ 31) ∨ (t.die die).failed = true) := by
    simp only [alive, Bool.false_eq_true, or_false]
    omega
  have hmay : ¬(t.ctxs.any fun c => quits a part c && !t.permits c.vf 2) = true := by
    simpa using may
  show execPartition pf tag die quad part s = _
  refine mailbox_taken cmd ?_
  simp only [if_neg hargs, here, Option.getD_some]
  refine (if_neg hmay).trans ?_
  split_ifs <;> rfl

theorem exec_reset {pf tag vf part : Nat} {s t : State} {c : Ctx} (cmd : commandTaken s pf 0x0D tag [vf, part] t) (port : portOf vf = pf)
    (parts : part < 24) (policy : t.hasPolicy vf = true) (there : t.ctx vf part = some c) :
    exec (.reset pf tag vf part) s = .next
      (((((if c.state = .terminated then t else t.endContext vf part).setCtx vf part fun c =>
        { c with state := .absent, paused := false, carry := 0, evict := false, image := [], seals := [] }).shootdown vf part fun _ =>
          true).settleBind vf).respond pf tag 0) := by
  have hargs : ¬(portOf vf ≠ pf ∨ 24 ≤ part) := by simp [port, parts]
  show execReset pf tag vf part s = _
  refine mailbox_taken cmd ?_
  simp only [if_neg hargs, policy, Bool.not_true, Bool.false_eq_true, if_false, there]
  rfl

theorem exec_savearea {pf tag vf part id : Nat} {s t u : State} {h : Handle} {c : Ctx} (cmd : commandTaken s pf 0x10 tag [vf, part, id] t)
    (port : portOf vf = pf) (parts : part < 24) (own : t.ownHandle vf id = some h) (policy : t.hasPolicy vf = true)
    (needed : t.needCtx vf part = some u) (there : u.ctx vf part = some c) (held : c.state ≠ .absent ∧ c.state ≠ .terminated)
    (room : areaNeed c.quota ≤ h.size) :
    exec (.savearea pf tag vf part id) s = .next
      ((((u.setCtx vf part fun c => { c with save := id }).finishSaving vf part).settleMoves).respond pf tag 0) := by
  have hargs : ¬(portOf vf ≠ pf ∨ 24 ≤ part) := by simp [port, parts]
  have hheld : ¬(c.state = .absent ∨ c.state = .terminated) := not_or.mpr held
  show execSavearea pf tag vf part id s = _
  refine mailbox_taken cmd ?_
  simp only [if_neg hargs, own, policy, Bool.not_true, Bool.false_eq_true, if_false, needed, there, Option.map_some, if_neg hheld,
    Option.getD_some, if_neg (Nat.not_lt.mpr room)]
  rfl

theorem commands_exec {i : Instr} {s t : State} (h : Commands i s t) : exec i s = .next t := by
  cases h with
  | alloc pf tag vf size loc stack _ t u p cmd port some' twelve policy inForce room pages after =>
    exact exec_alloc cmd port some' twelve policy inForce room pages after
  | hwin pf tag vf db tb len _ t p cmd port some' policy inForce kinds room first fits =>
    exact exec_hwin cmd port some' policy inForce kinds room first fits
  | free pf tag id _ t u v h ps cmd there port policy memory unmapped gone last =>
    exact exec_free cmd there port policy memory unmapped gone last
  | map pf tag vf part id ia off len _ t u v h pp cmd port parts some' aligned inside own size policy kinds once needed pages mapped =>
    exact exec_map cmd port parts some' aligned inside own size policy kinds once needed pages mapped
  | unmap pf tag vf part ia len _ t cmd port parts some' aligned policy =>
    have hargs : ¬(portOf vf ≠ pf ∨ 24 ≤ part ∨ len = 0 ∨ len % 65536 ≠ 0 ∨ ia % 65536 ≠ 0) := by
      simp [port, parts, some', aligned]
    show execUnmap pf tag vf part ia len s = _
    refine mailbox_taken cmd ?_
    simp only [if_neg hargs, policy, Bool.not_true, Bool.false_eq_true, if_false]
    rfl
  | qcreate pf tag vf part q level id logN ctr intr _ t u h p cmd port parts queues levels sizes counter home own memory size policy inForce
      room new needed =>
    exact exec_qcreate cmd port parts queues levels sizes counter home own memory size policy inForce room new needed
  | qdestroy pf tag vf q _ t x served free cmd port queues policy there all =>
    exact exec_qdestroy served free cmd port queues policy there all
  | pause pf tag vf part _ t u c cmd port parts policy may needed there =>
    show execPause pf tag vf part s = _
    rw [execPause, ctxCommand_ok cmd port parts policy may needed]
    simp only [there]
  | unpause pf tag vf part _ t u cmd port parts policy may needed => exact ctxCommand_ok cmd port parts policy may needed
  | evict pf tag vf part _ t u c cmd port parts policy may needed there resident gangs key =>
    show execEvict pf tag vf part s = _
    rw [execEvict, ctxCommand_ok cmd port parts policy may needed, evict_resident there resident gangs]
  | resize pf tag vf part quota _ t u c p cmd port parts field' limits policy may inForce fits needed there away key =>
    exact exec_resize cmd port parts field' limits policy may inForce fits needed there away
  | partitionStays pf tag die quad part _ t cmd dies quads parts alive here may =>
    rw [exec_partition cmd dies quads parts alive here fun c hc hq => ?_, if_pos rfl]
    simp only [quits, Bool.or_self, Bool.and_eq_true, beq_iff_eq, bne_iff_ne] at hq
    exact may c hc hq.1 hq.2
  | partition pf tag die quad part _ t a cmd dies quads parts alive here away may =>
    rw [exec_partition cmd dies quads parts alive here may, if_neg away]
    rfl
  | reset pf tag vf part _ t c cmd port parts policy there => exact exec_reset cmd port parts policy there
  | setltol pf tag vf ns _ t p cmd port policy inForce fits =>
    show execSetltol pf tag vf ns s = _
    refine mailbox_taken cmd ?_
    simp only [port, ne_eq, not_true_eq_false, policy, Bool.not_true, Bool.false_eq_true, if_false, inForce, Option.map_some,
      Option.getD_some, if_neg (Nat.not_lt.mpr fits)]
    rfl
  | dumpget pf tag sec dest _ t d v bs cmd dump at_ =>
    show execDumpget pf tag sec dest s = _
    refine mailbox_taken cmd ?_
    simp only [dump, Option.map_some, Option.bind_some, at_, Bool.not_true, Bool.false_eq_true, if_false]
    rfl
  | savearea pf tag vf part id _ t u h c cmd port parts own policy needed there held room =>
    exact exec_savearea cmd port parts own policy needed there held room
  | otherPort _ pf tag _ t op vf operands form cmd other => exact exec_otherPort form cmd other
  | busy _ pf tag _ form runs =>
    obtain ⟨vf, n, l, k, rfl⟩ | ⟨h, rfl⟩ | ⟨vf, p, rfl⟩ | ⟨vf, q, rfl⟩ := form
    · show execAlloc pf tag vf n l k s = _
      exact mailbox_busy runs
    · show execFree pf tag h s = _
      exact mailbox_busy runs
    · show execPause pf tag vf p s = _
      rw [execPause, State.ctxCommand, mailbox_busy runs]
    · show execQdestroy pf tag vf q s = _
      simp only [execQdestroy, runs, Bool.not_false, Bool.or_true, if_true]

/-- Settles O59: a command whose checks pass comes to its reply, and the mailbox answers with it. -/
theorem mailboxCommands : Obligations.MailboxCommands := fun _ _ _ => commands_exec

end Sys2Proof.Machine
end

section
/-! PROOFS. Power states, bring-up, failures, fatal errors and reset (R361, R390, R406 to R411). -/
namespace Sys2Proof.Machine
open Sys2Proof Sys2Proof.Statements

/-! ### Dies -/

theorem die_of_lt {s : State} {d : Nat} (h : d < 6) : s.die d = s.dies[d] := by
  simp [State.die, h]

theorem lt_of_present {s : State} {d : Nat} (there : (s.die d).present = true) : d < 6 := by
  by_contra h
  have hnone : s.dies.toList[d]? = none := by simp; omega
  rw [State.die, hnone] at there
  cases there

theorem die_setDie {s : State} {d : Nat} (h : d < 6) (f : Die → Die) : (s.setDie d f).die d = f (s.die d) := by
  rw [die_of_lt h]
  simp [State.setDie]

theorem setDie_congr {s : State} {d : Nat} {f g : Die → Die} (h : f (s.die d) = g (s.die d)) : s.setDie d f = s.setDie d g := by
  simp only [State.setDie, h]

/-! ### A die that fails -/

/-- The gates of a die, locked to no partition. -/
def shutGates (die : Nat) (l : Vector Gate 24) : Vector Gate 24 := (List.range 4).foldl (fun l q => l.setIfInBounds (4 * die + q) ⟨true, 31⟩) l

theorem shutGates_at {die q : Nat} (hd : die < 6) (hq : q < 4) (l : Vector Gate 24) : (shutGates die l).toList[4 * die + q]? = some ⟨true, 31⟩ := by
  have hlt : 4 * die + q < 24 := by omega
  have hrange : List.range 4 = [0, 1, 2, 3] := rfl
  have hfirst : 4 * die < 24 := by omega
  interval_cases q <;> simp [shutGates, hrange, hlt, hfirst]

/-- Resharing changes the launches alone. -/
theorem foldl_reshare {α : Type} (f : State → α) (hf : ∀ s x, f { s with launches := x } = f s) (l : List Nat) (s : State) :
    f (l.foldl State.reshare s) = f s := by
  induction l generalizing s with
  | nil => rfl
  | cons p r ih => exact (ih _).trans (hf s _)

theorem dieFailure_gone {d : Nat} {s : State} (there : (s.die d).present = true) : ∃ t, exec (.dieFailure d) s = .next t ∧ DieGone s t d := by
  have hd := lt_of_present there
  have hgo : ¬(!(s.die d).present) = true := by simp [there]
  refine ⟨_, (show execDieFailure d s = _ from if_neg hgo), ?_, ?_, ?_⟩
  · rw [die_setDie hd]
    exact ⟨rfl, rfl⟩
  · intro q hq
    simp only [State.setDie, foldl_reshare State.gates fun _ _ => rfl, foldl_reshare State.gateCopy fun _ _ => rfl]
    exact ⟨shutGates_at hd hq _, shutGates_at hd hq _⟩
  · intro m hm
    simp only [State.setDie, foldl_reshare State.moving fun _ _ => rfl] at hm
    simpa using (List.mem_filter.mp hm).2

/-! ### The events -/

theorem nominal_fullService (x : Die) :
    Die.nominal { x with fullService := true } = if x.power = .low then 250 else 1000 := by
  unfold Die.nominal
  cases x.power <;> rfl

/-- A package that a fatal error stops, with the sections of its dump (R410, R411). -/
def stopped (s : State) (cls : Nat) (sections : List (Bool × Nat × List Byte)) : State :=
  State.tell { s with
    fatal := true
    mem := memWrite s.mem Config.dumpBase (dumpImage s.time cls s.dumpSections)
    dump := some ⟨cls, s.time, sections⟩
    vfs := s.vfs.map fun (v : Vf) => if (s.ctxs.any fun c => c.vf == v.vf) then { v with saveCtr := v.saveCtr + 1 } else v }
    [.internalError 0, .internalError 1]

theorem exec_rootTakeover {lost : Nat} {s t : State} (inst : lost < 2) (missed : 3 ≤ s.roots.missed) (its : s.roots.primary = (lost == 0))
    (here : (s.pf lost).alive = true) (other : (s.pf (1 - lost)).alive = true)
    (after : t = { (s.setPf lost fun p => { p with alive := false }) with roots := { s.roots with missed := 0 } }) :
    exec (.rootTakeover lost) s = if (s.pf lost).done = true ∨ Config.choice s.tick 0xF200 % 2 = 0 then .next t
      else .next (({ t with queues := updateAll (fun q => q.dying.any fun d => d.1 == lost) (fun q => { q with dying := none }) t.queues } :
        State).respond lost ((((s.queues.find? fun q => q.dying.any fun d => d.1 == lost).bind (·.dying)).map (·.2)).getD 0) 7) := by
  have hgo : ¬(2 ≤ lost ∨ s.roots.missed < 3 ∨ s.roots.primary ≠ (lost == 0) ∨ (!(s.pf lost).alive) = true ∨
      (!(s.pf (1 - lost)).alive) = true) := by
    simp only [here, other, its, Bool.not_true, Bool.false_eq_true, ne_eq, not_true_eq_false, or_false]
    omega
  have hdone : (t.pf lost).done = (s.pf lost).done := by
    have h := congrArg Pf.done (pf_setPf (s := s) (pf := lost) (by omega) fun p => { p with alive := false })
    rw [after]
    exact h
  show execRootTakeover lost s = _
  rw [execRootTakeover, if_neg hgo, ← hdone, after]
  rfl

theorem powerEvents_exec {i : Instr} {s t : State} (h : PowerEvents i s t) : exec i s = .next t := by
  cases h with
  | low d _ up still there works full wants =>
    show execPowerStateChange (.die d) s = _
    simp only [execPowerStateChange, Nat.not_lt.mpr up, still, there, works, wants, full, Bool.not_true, Bool.false_eq_true, or_self,
      reduceCtorEq, false_and, if_false, if_true]
  | dieLeaves d _ up still there works low wants =>
    show execPowerStateChange (.die d) s = _
    simp only [execPowerStateChange, Nat.not_lt.mpr up, still, there, works, wants, low, low.symm, Bool.not_true, Bool.false_eq_true, or_self,
      if_false, State.beginExit]
  | gates d q _ up still there works quad power full wants told =>
    show execPowerStateChange (.quadrant d q) s = _
    simp only [execPowerStateChange, Nat.not_lt.mpr up, still, there, works, wants, full, power, Nat.not_le.mpr quad, told, not_true_eq_false,
      Bool.not_true, Bool.false_eq_true, or_self, reduceCtorEq, if_false, if_true]
  | stackSleeps k _ up still awake twelve idle may =>
    obtain ⟨n, hn, hle⟩ := idle
    have hidle : s.idleStack k = true := by simp [State.idleStack, hn, hle]
    have hmay : s.mayRest k = true := may
    show execPowerStateChange (.stack k) s = _
    simp only [execPowerStateChange, Nat.not_lt.mpr up, still, awake, hidle, hmay, Bool.false_eq_true, or_self, and_self, if_false, if_true]
  | stackLeaves k _ up still asleep short =>
    have hmay : s.mayRest k = false := short
    show execPowerStateChange (.stack k) s = _
    simp only [execPowerStateChange, Nat.not_lt.mpr up, still, asleep, hmay, Bool.false_eq_true, or_self, if_false, if_true, State.beginExit]
  | stackUp k _ leaves =>
    show execPowerExitComplete (.stack k) s = _
    simp only [execPowerExitComplete, leaves, Bool.not_true, Bool.false_eq_true, if_false]
  | quadUp d q _ leaves told =>
    show execPowerExitComplete (.quadrant d q) s = _
    simp only [execPowerExitComplete, leaves, told, Bool.not_true, Bool.false_eq_true, if_false]
  | portStops d q _ there quad stops new =>
    have hstops : (s.dieWants d == .doff || s.quadWants d q == .qgate) = true := by simpa using stops
    show execPowerStateNotice d q true s = _
    simp only [execPowerStateNotice, there, Nat.not_le.mpr quad, hstops, new, not_false_eq_true, decide_true, Bool.and_self, Bool.not_true,
      Bool.false_eq_true, or_self, if_false, if_true]
  | portReturns d q _ there quad leaves =>
    have hleaves : (s.waking (.die d) || s.waking (.quadrant d q)) = true := by simpa using leaves
    show execPowerStateNotice d q false s = _
    simp only [execPowerStateNotice, there, Nat.not_le.mpr quad, hleaves, Bool.true_or, Bool.not_true, Bool.false_eq_true, or_self, if_false,
      if_true]
  | throttles d mhz _ there =>
    show execThrottling d mhz s = _
    simp only [execThrottling, there, if_true]
  | bring0 _ at_ signed =>
    show execPowerGood s = _
    simp only [execPowerGood, at_, signed, if_true]
  | unsigned _ at_ unsigned =>
    show execPowerGood s = _
    simp only [execPowerGood, at_, unsigned, Bool.false_eq_true, if_false]
  | bring1 _ at_ noDump =>
    show execPowerGood s = _
    simp only [execPowerGood, at_, State.zeroMemory, noDump, Option.isSome_none, Bool.false_eq_true, if_false]
  | bring2 _ at_ =>
    show execPowerGood s = _
    simp only [execPowerGood, at_]
  | bring3 _ at_ =>
    show execPowerGood s = _
    simp only [execPowerGood, at_, Die.powered]
  | calibrated d _ up there early =>
    show execCalibrationEnd d s = _
    simp only [execCalibrationEnd, Nat.not_lt.mpr up, there, early, Bool.not_true, Bool.false_eq_true, or_self, if_false,
      nominal_fullService]
  | takeover lost _ inst missed its here other idle =>
    rw [exec_rootTakeover inst missed its here other rfl, if_pos (.inl idle)]
  | takeoverBusy lost _ t q tag inst missed its here other busy after queue dying =>
    rw [exec_rootTakeover inst missed its here other after, queue]
    simp only [busy, Bool.false_eq_true, false_or, Option.bind_some, dying, Option.map_some, Option.getD_some]
    split_ifs <;> rfl
  | fatal cls _ first class' =>
    have hgo : ¬(s.fatal = true ∨ cls = 0 ∨ 3 < cls) := by
      simp only [first, Bool.false_eq_true, false_or]
      omega
    show execFatalError cls s = _
    rw [execFatalError, if_neg hgo]
    refine congrArg (fun l => Host.Outcome.next (stopped s cls l)) (List.map_congr_left fun x _ => ?_)
    obtain ⟨_ | v, n, bs⟩ := x <;> rfl
  | fatalAgain cls _ fatal =>
    show execFatalError cls s = _
    rw [execFatalError, if_pos (.inl fatal)]
  | reset => rfl

/-- Settles O60, by the cases of each event; a die that fails leaves the service with its gates locked. -/
theorem powerAndService : Obligations.PowerAndService := ⟨fun _ _ _ => powerEvents_exec, fun _ _ => dieFailure_gone⟩

end Sys2Proof.Machine
end

section
/-! PROOFS. Vector arithmetic on the lanes of operands (R111, R142, R144, R145, R161): what the model computes on a lane's number is the
spec's rule on its bit string. -/
namespace Sys2Proof.Machine
open Sys2Proof Sys2Proof.Statements

/-! ### Numbers and bit strings of a width -/

theorem wrap_eq_toNat_ofInt (w : Nat) (x : Int) : wrap w x = (BitVec.ofInt w x).toNat := (BitVec.toNat_ofInt ..).symm

theorem signOr_eq_readAs {w : Nat} (u : Bool) (x : BitVec w) : signOr u w x.toNat = readAs (!u) x := by
  rw [signOr_toNat, readAs]; cases u <;> rfl

theorem valueOf_eq_readAs {t : Ty} (h : t.isInt = true) (x : BitVec t.width) : valueOf t x.toNat = readAs (isSigned t) x := by
  cases t with
  | i32 => exact signedOf_toNat (w := 32) x
  | i64 => exact signedOf_toNat (w := 64) x
  | z32 | b32 | z64 | b64 => rfl
  | _ => cases h

theorem clampInt_eq {lo hi : Int} (h : lo ≤ hi) (x : Int) : clampInt (lo, hi) x = max lo (min x hi) := by
  simp only [clampInt]; split
  · omega
  · split <;> omega

theorem intResult_eq_wrap (t : Ty) (sat : Bool) (x : Int) :
    intResult t sat x = wrap t.width (if sat then clampInt (intRange t.width (isSigned t)) x else x) := by cases t <;> rfl

theorem intResult_eq_laneOf (t : Ty) (sat : Bool) (x : Int) : intResult t sat x = laneOf t sat x := by
  have hlow : (1 : Int) ≤ 2 ^ (t.width - 1) := by exact_mod_cast Nat.one_le_two_pow
  have hhigh : (1 : Int) ≤ 2 ^ t.width := by exact_mod_cast Nat.one_le_two_pow
  rw [intResult_eq_wrap, laneOf, wrap_eq_toNat_ofInt]
  cases isSigned t
  · simp [intRange, clampInt_eq (show (0 : Int) ≤ 2 ^ t.width - 1 by omega)]
  · simp [intRange, clampInt_eq (show -(2 ^ (t.width - 1)) ≤ (2 ^ (t.width - 1) : Int) - 1 by omega)]

theorem mulhN_toNat {w : Nat} (u : Bool) (x y : BitVec w) :
    mulhN u w x.toNat y.toNat = (BitVec.ofInt w (Int.fdiv (readAs (!u) x * readAs (!u) y) (2 ^ w))).toNat := by
  rw [mulhN, mulHigh, signOr_eq_readAs, signOr_eq_readAs, wrap_eq_toNat_ofInt, Int.fdiv_eq_ediv_of_nonneg _ (by positivity)]
  norm_cast

theorem shiftArith_toNat {w : Nat} (x : BitVec w) (n : Nat) : shiftArith w x.toNat n =
    if w ≤ n then (if x.msb then (BitVec.allOnes w).toNat else 0) else (BitVec.ofInt w (Int.fdiv x.toInt (2 ^ n))).toNat := by
  rw [shiftArith, signedOf_toNat, BitVec.toNat_allOnes, BitVec.msb_eq_getLsbD_last, wrap_eq_toNat_ofInt,
    Int.fdiv_eq_ediv_of_nonneg _ (by positivity)]
  norm_cast

theorem shiftLeft_toNat {w : Nat} (x : BitVec w) (n : Nat) : shiftLeft w x.toNat n = if w ≤ n then 0 else (x <<< n).toNat := by
  rw [shiftLeft, BitVec.toNat_shiftLeft, Nat.shiftLeft_eq]

theorem shiftRight_toNat {w : Nat} (x : BitVec w) (n : Nat) : shiftRight w x.toNat n = if w ≤ n then 0 else (x >>> n).toNat := by
  rw [shiftRight, BitVec.toNat_ushiftRight, Nat.shiftRight_eq_div_pow]

theorem popCount_toNat {w : Nat} (x : BitVec w) : popCount w x.toNat = (List.range w).countP fun i => x.getLsbD i := by
  rw [popCount, foldl_count, Nat.zero_add]; rfl

/-- Seen from the top down, the highest 1 bit of a number comes first; 0 has none. -/
theorem leadingZeros_toNat {w : Nat} (x : BitVec w) :
    leadingZeros w x.toNat = (List.range w).findIdx fun i => x.getLsbD (w - 1 - i) := by
  rw [leadingZeros, Nat.mod_eq_of_lt x.isLt]
  split
  case isTrue h0 =>
    obtain rfl : x = 0 := BitVec.eq_of_toNat_eq (by simpa using h0)
    exact ((List.findIdx_eq_length.mpr (by simp)).trans List.length_range).symm
  case isFalse h0 =>
    have hlog : x.toNat.log2 < w := (Nat.log2_lt h0).mpr x.isLt
    refine ((List.findIdx_eq (by rw [List.length_range]; omega)).mpr ⟨?_, fun j hj => ?_⟩).symm
    · rw [List.getElem_range, show w - 1 - (w - 1 - x.toNat.log2) = x.toNat.log2 by omega]
      exact Nat.testBit_log2 h0
    · rw [List.getElem_range]
      exact Nat.testBit_lt_two_pow (lt_of_lt_of_le Nat.lt_log2_self (Nat.pow_le_pow_right (by decide) (by omega)))

/-- The mask of a field's low bits. -/
theorem toNat_ofNat_mask {w f : Nat} (h : f ≤ w) : (BitVec.ofNat w (2 ^ f - 1)).toNat = 2 ^ f - 1 := by
  have := Nat.pow_le_pow_right (n := 2) (by decide) h
  have := Nat.two_pow_pos f
  rw [BitVec.toNat_ofNat, Nat.mod_eq_of_lt (by omega)]

theorem extractField_toNat {w : Nat} (sg : Bool) (x : BitVec w) {p f : Nat} (hf : f ≤ w) : extractField w sg x.toNat p f =
    let m := x >>> p &&& BitVec.ofNat w (2 ^ f - 1)
    if sg && m.getLsbD (f - 1) then (BitVec.ofInt w ((m.toNat : Int) - 2 ^ f)).toNat else m.toNat := by
  have hm : (x >>> p &&& BitVec.ofNat w (2 ^ f - 1)).toNat = bits x.toNat p f := by
    rw [BitVec.toNat_and, toNat_ofNat_mask hf, Nat.and_two_pow_sub_one_eq_mod, BitVec.toNat_ushiftRight, Nat.shiftRight_eq_div_pow, bits]
  have hlt : bits x.toNat p f < 2 ^ f := Nat.mod_lt _ (Nat.two_pow_pos f)
  have hw : bits x.toNat p f < 2 ^ w := lt_of_lt_of_le hlt (Nat.pow_le_pow_right (by decide) hf)
  simp only [BitVec.getLsbD, hm, testBit_top hlt, extractField]
  cases sg with
  | false => rfl
  | true =>
    simp only [if_true, Bool.true_and, decide_eq_true_eq, signedOf, Nat.mod_eq_of_lt hlt, wrap_eq_toNat_ofInt]
    split
    · norm_cast
    · rw [BitVec.ofInt_natCast, BitVec.toNat_ofNat, Nat.mod_eq_of_lt hw]

theorem insertField_toNat {w : Nat} (d x : BitVec w) {p f : Nat} (h : p + f ≤ w) : insertField w d.toNat x.toNat p f =
    let m := BitVec.ofNat w (2 ^ f - 1)
    ((d &&& ~~~(m <<< p)) ||| ((x &&& m) <<< p)).toNat := by
  have hlt (k : Nat) (hk : k < 2 ^ f) : k * 2 ^ p < 2 ^ w := calc
    k * 2 ^ p < 2 ^ f * 2 ^ p := Nat.mul_lt_mul_of_pos_right hk (Nat.two_pow_pos p)
    _ = 2 ^ (f + p) := (Nat.pow_add ..).symm
    _ ≤ 2 ^ w := Nat.pow_le_pow_right (by decide) (by omega)
  have hmask : (~~~(BitVec.ofNat w (2 ^ f - 1) <<< p)).toNat = 2 ^ w - 1 - (2 ^ f - 1) * 2 ^ p := by
    rw [BitVec.toNat_not, BitVec.toNat_shiftLeft, toNat_ofNat_mask (by omega), Nat.shiftLeft_eq,
      Nat.mod_eq_of_lt (hlt _ (Nat.sub_lt (Nat.two_pow_pos f) Nat.one_pos))]
  have hplaced : ((x &&& BitVec.ofNat w (2 ^ f - 1)) <<< p).toNat = x.toNat % 2 ^ f * 2 ^ p := by
    rw [BitVec.toNat_shiftLeft, BitVec.toNat_and, toNat_ofNat_mask (by omega), Nat.and_two_pow_sub_one_eq_mod, Nat.shiftLeft_eq,
      Nat.mod_eq_of_lt (hlt _ (Nat.mod_lt _ (Nat.two_pow_pos f)))]
  have hdisj : (d &&& ~~~(BitVec.ofNat w (2 ^ f - 1) <<< p)) &&& ((x &&& BitVec.ofNat w (2 ^ f - 1)) <<< p) = 0#w := by
    rw [BitVec.shiftLeft_and_distrib]
    generalize BitVec.ofNat w (2 ^ f - 1) <<< p = m
    ext i hi
    simp only [BitVec.getElem_and, BitVec.getElem_not, BitVec.getElem_zero]
    cases m[i] <;> simp
  have hor := BitVec.toNat_add_of_and_eq_zero hdisj
  rw [BitVec.add_eq_or_of_and_eq_zero _ _ hdisj] at hor
  simp only [insertField]
  rw [hor, hplaced, BitVec.toNat_and, hmask]

end Sys2Proof.Machine
end

section
/-! PROOFS. Lane instructions that set no flag (R111, R136, R138 to R149, R161): each is one vector shape, with the value of its rule
in the lanes. -/
namespace Sys2Proof.Machine
open Sys2Proof Sys2Proof.Statements

/-! ### Operands -/

/-- The registers of a type that the lane exchanges and VMOV take hold its width (R139). -/
theorem tyRegs_mul_of_isMove {t : Ty} (h : t.isMove = true) : 32 * tyRegs t = t.width := by
  cases t with
  | i32 | z32 | f32 | b32 | i64 | z64 | f64 | b64 => rfl
  | _ => cases h

theorem Ty.isInt_of_isWidth {t : Ty} (h : t.isWidth = true) : t.isInt = true := by
  cases t with
  | i32 | i64 => rfl
  | _ => cases h

/-- A lane of an operand is the number of its bit string, where the registers hold the type's width. -/
theorem src_eq_laneBits (s : State) (x : Src) {t : Ty} (h : 32 * tyRegs t = t.width) (l : Nat) : s.src x t l = (laneBits s t x l).toNat := by
  rw [laneBits, BitVec.toNat_ofNat]
  refine (Nat.mod_eq_of_lt ?_).symm
  cases x with
  | v r => rw [← h]; exact s.grp.vgetWide_lt _ _ l
  | s r => exact Nat.mod_lt _ (Nat.two_pow_pos _)
  | lit v => exact Nat.mod_lt _ (Nat.two_pow_pos _)

theorem valueOf_src (s : State) (x : Src) {t : Ty} (h : t.isInt = true) (l : Nat) : valueOf t (s.src x t l) = laneInt s t x l := by
  rw [src_eq_laneBits s x (tyRegs_mul_of_isInt h), valueOf_eq_readAs h, laneInt]

/-! ### The shapes, with the rule's value in each lane -/

section
variable {s : State} {words : Nat} {g : Option Guard} {t : Ty} {d a b c : VReg} {x : Src}

theorem vecInt_congr {reads : List (VReg × Nat)} {n : Nat} {f f' : Nat → Nat} (h : ∀ l, f l = f' l) :
    vecInt s words g reads d n f = vecInt s words g reads d n f' := congrArg _ (funext h)

theorem vecArith_lanes (h : t.isInt = true) (sat : Bool) (f : Int → Int → Int) : vecArith s words g t sat d a x f =
    vecInt s words g ((a, tyRegs t) :: x.reads (tyRegs t)) d (tyRegs t) fun l => laneOf t sat (f (laneInt s t (.v a) l) (laneInt s t x l)) :=
  vecInt_congr fun l => by rw [intResult_eq_laneOf, valueOf_src s _ h, valueOf_src s _ h]

/-- The shape on bit strings, by what its function computes on their numbers. -/
theorem vecBits_lanes (h : t.isInt = true) {f : Nat → Nat → Nat → Nat} {value : Nat → Nat}
    (hf : ∀ l, f t.width (laneBits s t (.v a) l).toNat (laneBits s t x l).toNat = value l) : vecBits s words g t d a x f =
    vecInt s words g ((a, tyRegs t) :: x.reads (tyRegs t)) d (tyRegs t) value :=
  vecInt_congr fun l => by rw [src_eq_laneBits s _ (tyRegs_mul_of_isInt h), src_eq_laneBits s _ (tyRegs_mul_of_isInt h), hf]

theorem vecCount_lanes (h : t.isInt = true) {f : Nat → Nat → Nat} {value : Nat → Nat}
    (hf : ∀ l, f t.width (laneBits s t (.v a) l).toNat = value l) :
    vecCount s words g t d a f = vecInt s words g [(a, tyRegs t)] d 1 value :=
  vecInt_congr fun l => by rw [src_eq_laneBits s _ (tyRegs_mul_of_isInt h), hf]

theorem vecMove_lanes (h : 32 * tyRegs t = t.width) :
    vecMove s words g t d x = vecInt s words g (x.reads (tyRegs t)) d (tyRegs t) fun l => (laneBits s t x l).toNat :=
  vecInt_congr fun l => src_eq_laneBits s x h l

theorem exchange_lanes (h : 32 * tyRegs t = t.width) (extra : List (VReg × Nat)) (src : Nat → Nat) : exchange s words g t d a extra src =
    vecInt s words g ((a, tyRegs t) :: extra) d (tyRegs t) fun l => laneFrom s t (.v a) l (src l) :=
  vecInt_congr fun l => by rw [src_eq_laneBits s _ h, laneFrom]; split <;> rfl

theorem shuffleLane_eq (m : BitVec 2) (k l : Nat) : shuffleLane m.toNat k l = shflLane m k l := by
  have hm : m = 0 ∨ m = 1 ∨ m = 2 ∨ m = 3 := by revert m; decide
  rcases hm with rfl | rfl | rfl | rfl <;> rfl

theorem shuffle_lanes (h : 32 * tyRegs t = t.width) (m : BitVec 2) : shuffle s words g t m d a b =
    vecInt s words g [(a, tyRegs t), (b, 1)] d (tyRegs t) fun l => laneFrom s t (.v a) l (shflLane m (laneBits s .b32 (.v b) l).toNat l) := by
  rw [shuffle, exchange_lanes h]
  exact vecInt_congr fun l => by rw [shuffleLane_eq, src_eq_laneBits s _ rfl]

theorem byte_eq_laneByte (u : Bool) (j l : Nat) : signOr u 8 (bits (s.src (.v a) .b32 l) (8 * j) 8) = laneByte s u a l j := by
  rw [laneByte, ← signOr_eq_readAs, extractLsb'_toNat_div, ← src_eq_laneBits s _ rfl, bits]

theorem dot4_lanes (sat ua ub : Bool) : dot4 s words g sat ua ub d a b c =
    vecInt s words g [(a, 1), (b, 1), (c, 1)] d 1 fun l => laneDot4 s sat ua ub a b c l := by
  refine vecInt_congr fun l => ?_
  have hsum (p : Nat → Int) (z : Int) : z + ((List.range 4).map p).sum = z + p 0 + p 1 + p 2 + p 3 := by
    simp [List.range_succ]; ring
  simp only [hsum, byte_eq_laneByte, intResult_eq_laneOf, laneDot4, ← valueOf_src s (.v c) (t := .i32) rfl]
  rfl

theorem ppackOp_lanes : ppackOp s words g d =
    vecInt s words g [] d 1 fun l => ((List.range 8).map fun k => if (s.grp.p.toList.getD k 0).getLsbD l then 2 ^ k else 0).sum := by
  refine vecInt_congr fun l => ?_
  have hsum (p : Nat → Bool) (z : Nat) (ks : List Nat) :
      ks.foldl (fun acc k => if p k then acc + 2 ^ k else acc) z = z + (ks.map fun k => if p k then 2 ^ k else 0).sum := by
    induction ks generalizing z with
    | nil => rfl
    | cons k ks ih => rw [List.foldl_cons, ih, List.map_cons, List.sum_cons]; split <;> omega
  rw [hsum, Nat.zero_add]
  simp only [List.getD_eq_getElem?_getD, Vector.getElem?_toList]

end

/-! ### The value of each rule -/

section
variable (s : State) (t : Ty) (x y : Src) (l : Nat)

theorem mulhN_lane (u : Bool) : mulhN u t.width (laneBits s t x l).toNat (laneBits s t y l).toNat = laneHigh s t u x y l := mulhN_toNat u _ _
theorem shiftLeft_lane : shiftLeft t.width (laneBits s t x l).toNat (laneBits s t y l).toNat = laneShl s t x y l := shiftLeft_toNat _ _
theorem shiftRight_lane : shiftRight t.width (laneBits s t x l).toNat (laneBits s t y l).toNat = laneShr s t x y l := shiftRight_toNat _ _
theorem shiftArith_lane : shiftArith t.width (laneBits s t x l).toNat (laneBits s t y l).toNat = laneSra s t x y l := shiftArith_toNat _ _

theorem minBy_lane (u : Bool) : minBy u t.width (laneBits s t x l).toNat (laneBits s t y l).toNat = laneMin s t u x y l := by
  rw [minBy, signOr_eq_readAs, signOr_eq_readAs, laneMin]
theorem maxBy_lane (u : Bool) : maxBy u t.width (laneBits s t x l).toNat (laneBits s t y l).toNat = laneMax s t u x y l := by
  rw [maxBy, signOr_eq_readAs, signOr_eq_readAs, laneMax]

end

/-- Each lane instruction is the vector shape, with the value of its rule in the lanes. -/
theorem exec_laneWrite {i : Instr} {g : Option Guard} {reads : List (VReg × Nat)} {d : VReg} {n words : Nat} {f : State → Nat → Nat}
    (h : LaneWrite i g reads d n words f) (hwf : i.wf = true) (s : State) : exec i s = vecInt s words g reads d n (f s) := by
  cases h with
  | vadd | vaddLit | vaddImm | vsub | vsubLit | vmul | vmulLit => exact vecArith_lanes rfl false _
  | vaddW1 | vsubW1 | vmulW1 | vaddLitW1 | vsubLitW1 | vmulLitW1 =>
    simp only [Instr.wf, Bool.and_eq_true] at hwf
    exact vecArith_lanes (by tauto) _ _
  | vmad g t =>
    simp only [Instr.wf, Bool.and_eq_true] at hwf
    have hint : t.isInt = true := by tauto
    exact vecInt_congr fun l => by simp only [intResult_eq_laneOf, valueOf_src s _ hint]
  | vmulh u => exact vecBits_lanes rfl fun l => mulhN_lane s _ _ _ l u
  | vmulhW1 g t u =>
    simp only [Instr.wf, Bool.and_eq_true] at hwf
    exact vecBits_lanes (Ty.isInt_of_isWidth (by tauto)) fun l => mulhN_lane s _ _ _ l u
  | vand | vandLit | vandImm => exact vecBits_lanes rfl fun l => (BitVec.toNat_and ..).symm
  | vandW1 | vandLitW1 =>
    simp only [Instr.wf, Bool.and_eq_true] at hwf
    exact vecBits_lanes (by tauto) fun l => (BitVec.toNat_and ..).symm
  | vor | vorLit => exact vecBits_lanes rfl fun l => (BitVec.toNat_or ..).symm
  | vorW1 | vorLitW1 =>
    simp only [Instr.wf, Bool.and_eq_true] at hwf
    exact vecBits_lanes (by tauto) fun l => (BitVec.toNat_or ..).symm
  | vxor | vxorLit => exact vecBits_lanes rfl fun l => (BitVec.toNat_xor ..).symm
  | vxorW1 | vxorLitW1 =>
    simp only [Instr.wf, Bool.and_eq_true] at hwf
    exact vecBits_lanes (by tauto) fun l => (BitVec.toNat_xor ..).symm
  | vshl | vshlImm => exact vecBits_lanes rfl (shiftLeft_lane s _ _ _)
  | vshlW1 =>
    simp only [Instr.wf, Bool.and_eq_true] at hwf
    exact vecBits_lanes (by tauto) (shiftLeft_lane s _ _ _)
  | vshr | vshrImm => exact vecBits_lanes rfl (shiftRight_lane s _ _ _)
  | vshrW1 =>
    simp only [Instr.wf, Bool.and_eq_true] at hwf
    exact vecBits_lanes (by tauto) (shiftRight_lane s _ _ _)
  | vsra | vsraImm => exact vecBits_lanes rfl (shiftArith_lane s _ _ _)
  | vsraW1 =>
    simp only [Instr.wf, Bool.and_eq_true] at hwf
    exact vecBits_lanes (by tauto) (shiftArith_lane s _ _ _)
  | vmin | vminLit => exact vecBits_lanes rfl fun l => minBy_lane s _ _ _ l _
  | vminW1 | vminLitW1 =>
    simp only [Instr.wf, Bool.and_eq_true] at hwf
    exact vecBits_lanes (Ty.isInt_of_isWidth (by tauto)) fun l => minBy_lane s _ _ _ l _
  | vmax | vmaxLit => exact vecBits_lanes rfl fun l => maxBy_lane s _ _ _ l _
  | vmaxW1 | vmaxLitW1 =>
    simp only [Instr.wf, Bool.and_eq_true] at hwf
    exact vecBits_lanes (Ty.isInt_of_isWidth (by tauto)) fun l => maxBy_lane s _ _ _ l _
  | vpopc => exact vecCount_lanes rfl fun l => popCount_toNat _
  | vpopcW1 =>
    simp only [Instr.wf, Bool.and_eq_true] at hwf
    exact vecCount_lanes (by tauto) fun l => popCount_toNat _
  | vclz => exact vecCount_lanes rfl fun l => leadingZeros_toNat _
  | vclzW1 =>
    simp only [Instr.wf, Bool.and_eq_true] at hwf
    exact vecCount_lanes (by tauto) fun l => leadingZeros_toNat _
  | vbfe g t sg d a p f legal =>
    simp only [Instr.wf, Bool.and_eq_true] at hwf
    have hreg := tyRegs_mul_of_isInt (t := t) (by tauto)
    exact vecInt_congr fun l => by rw [src_eq_laneBits s _ hreg, extractField_toNat sg _ (by omega)]; rfl
  | vbfi g t d a p f legal =>
    simp only [Instr.wf, Bool.and_eq_true] at hwf
    have hreg := tyRegs_mul_of_isInt (t := t) (by tauto)
    exact vecInt_congr fun l => by rw [src_eq_laneBits s _ hreg, src_eq_laneBits s _ hreg, insertField_toNat _ _ legal.2]; rfl
  | vsel g t =>
    simp only [Instr.wf, Bool.and_eq_true] at hwf
    have hreg := tyRegs_mul_of_isMove (t := t) (by tauto)
    exact vecInt_congr fun l => by rw [src_eq_laneBits s _ hreg, src_eq_laneBits s _ hreg]
  | vmov | vmovLit => exact vecMove_lanes rfl
  | vmovW1 | vmovLitW1 =>
    simp only [Instr.wf, Bool.and_eq_true] at hwf
    exact vecMove_lanes (tyRegs_mul_of_isMove (by tauto))
  | vshfl => exact shuffle_lanes rfl _
  | vshflW1 =>
    simp only [Instr.wf, Bool.and_eq_true] at hwf
    exact shuffle_lanes (tyRegs_mul_of_isMove (by tauto)) _
  | vrot | vbcast => exact exchange_lanes rfl [] _
  | vrotW1 | vbcastW1 =>
    simp only [Instr.wf, Bool.and_eq_true] at hwf
    exact exchange_lanes (tyRegs_mul_of_isMove (by tauto)) [] _
  | vdot4 | vdot4W1 => exact dot4_lanes _ _ _
  | fclass | fclassW1 => rfl
  | ppack | ppackW1 => exact ppackOp_lanes

/-- Settles O17: every row is the vector shape with the rule's value, which completes where its checks pass. -/
theorem laneValues : Obligations.LaneValues := by
  intro i g reads d n words f s h hwf hcheck
  rw [exec_laneWrite h hwf, vecInt_next words g (f s) hcheck]

end Sys2Proof.Machine
end

section
/-! PROOFS. What writing vector registers leaves (R138): the rows outside the destination and the lanes outside the mask, and what a
lane of the destination then holds. -/
namespace Sys2Proof.Machine
open Sys2Proof Sys2Proof.Statements

/-! ### One position -/

/-- One register position with the lanes of a mask replaced, as `vput` writes it. -/
def Group.vmix (g : Group) (m : LaneMask) (pos : Nat) (f : Nat → W32) : Group :=
  { g with vrf := g.vrf.set (pos % g.vrf.length) (mixLanes (g.vpos pos) m f) }

section
variable (g : Group) (m : LaneMask) (pos : Nat) (f : Nat → W32)

@[simp] theorem Group.vmix_length : (g.vmix m pos f).vrf.length = g.vrf.length := List.length_set ..

theorem Group.vmix_getElem?_ne {k : Nat} (h : k ≠ pos % g.vrf.length) : (g.vmix m pos f).vrf[k]? = g.vrf[k]? :=
  List.getElem?_set_ne h.symm

/-- Lanes outside the mask keep their words. -/
theorem Group.vmix_lane (k : Nat) {l : Fin 32} (hl : m.getLsbD l = false) :
    ((g.vmix m pos f).vrf[k]?.map fun (v : Vector W32 32) => v[l]) = g.vrf[k]?.map fun (v : Vector W32 32) => v[l] := by
  by_cases hk : k = pos % g.vrf.length
  · rw [hk, Group.vmix, List.getElem?_set_self']
    cases hrow : g.vrf[pos % g.vrf.length]? with
    | none => rfl
    | some v =>
      have hpos : g.vpos pos = v := by rw [Group.vpos, List.getD_eq_getElem?_getD, hrow]; rfl
      simp only [Option.map_some, hpos, Functor.map, Function.const_apply]
      rw [mixLanes_get, hl]; rfl
  · rw [g.vmix_getElem?_ne m pos f hk]

theorem Group.vpos_eq_of_getElem? {g h : Group} {p : Nat} (hlen : h.vrf.length = g.vrf.length)
    (hrow : h.vrf[p % g.vrf.length]? = g.vrf[p % g.vrf.length]?) : h.vpos p = g.vpos p := by
  rw [Group.vpos, Group.vpos, hlen, List.getD_eq_getElem?_getD, List.getD_eq_getElem?_getD, hrow]

theorem Group.vmix_vpos_self (hpos : 0 < g.vrf.length) : (g.vmix m pos f).vpos pos = mixLanes (g.vpos pos) m f := by
  rw [Group.vpos, List.getD_eq_getElem?_getD, vmix_length, Group.vmix, List.getElem?_set_self (Nat.mod_lt _ hpos)]; rfl

theorem Group.vmix_vpos_ne {p : Nat} (h : p % g.vrf.length ≠ pos % g.vrf.length) : (g.vmix m pos f).vpos p = g.vpos p :=
  Group.vpos_eq_of_getElem? (g.vmix_length m pos f) (g.vmix_getElem?_ne m pos f h)

end

/-! ### Consecutive positions -/

/-- `n` positions from `pos` on, each with the lanes of a mask replaced. -/
def Group.vmixes (g : Group) (m : LaneMask) (pos : Nat) (f : Nat → Nat → W32) : Nat → Group
  | 0 => g
  | n + 1 => (g.vmixes m pos f n).vmix m (pos + n) (f n)

/-- Writing vector registers is that, with the words of the lanes' numbers. -/
theorem vput_eq_vmixes (s : State) (d : VReg) (n : Nat) (m : LaneMask) (f : Nat → Nat) : s.vput d n m f =
    s.setGrp fun g => g.vmixes m (s.slot.wbase + d.toNat) (fun i l => BitVec.ofNat 32 (f l / 2 ^ (32 * i))) n := by
  have hfold (g : Group) : (List.range n).foldl (fun g i => g.vmix m (s.slot.wbase + d.toNat + i) fun l => BitVec.ofNat 32 (f l / 2 ^ (32 * i))) g =
      g.vmixes m (s.slot.wbase + d.toNat) (fun i l => BitVec.ofNat 32 (f l / 2 ^ (32 * i))) n := by
    induction n with
    | zero => rfl
    | succ n ih => rw [List.range_succ, List.foldl_append, ih]; rfl
  exact congrArg (fun g => { s with grp := g }) (hfold s.grp)

section
variable (g : Group) (m : LaneMask) (pos : Nat) (f : Nat → Nat → W32)

@[simp] theorem Group.vmixes_length (n : Nat) : (g.vmixes m pos f n).vrf.length = g.vrf.length := by
  induction n with
  | zero => rfl
  | succ n ih => rw [Group.vmixes, Group.vmix_length, ih]

theorem Group.vmixes_eq (n : Nat) : g.vmixes m pos f n = { g with vrf := (g.vmixes m pos f n).vrf } := by
  induction n with
  | zero => rfl
  | succ n ih => rw [Group.vmixes, Group.vmix, ih]

theorem Group.vmixes_getElem?_ne (n : Nat) {k : Nat} (h : ∀ i < n, k ≠ (pos + i) % g.vrf.length) :
    (g.vmixes m pos f n).vrf[k]? = g.vrf[k]? := by
  induction n with
  | zero => rfl
  | succ n ih =>
    rw [Group.vmixes, Group.vmix_getElem?_ne _ m _ _ (by rw [vmixes_length]; exact h n (Nat.lt_succ_self n))]
    exact ih fun i hi => h i (by omega)

theorem Group.vmixes_lane (n k : Nat) {l : Fin 32} (hl : m.getLsbD l = false) :
    ((g.vmixes m pos f n).vrf[k]?.map fun (v : Vector W32 32) => v[l]) = g.vrf[k]?.map fun (v : Vector W32 32) => v[l] := by
  induction n with
  | zero => rfl
  | succ n ih => rw [Group.vmixes, Group.vmix_lane _ _ _ _ _ hl, ih]

theorem add_mod_ne {p i j n : Nat} (hij : i < j) (hj : j < n) : (p + i) % n ≠ (p + j) % n := fun h => by
  have := Nat.ModEq.add_left_cancel' p h
  rw [Nat.ModEq, Nat.mod_eq_of_lt (hij.trans hj), Nat.mod_eq_of_lt hj] at this
  omega

/-- The positions written hold their words in the lanes of the mask, when no two of them are one. -/
theorem Group.vmixes_vpos {n : Nat} (hn : n ≤ g.vrf.length) {i : Nat} (hi : i < n) {l : Fin 32} (hl : m.getLsbD l = true) :
    ((g.vmixes m pos f n).vpos (pos + i))[l] = f i l := by
  induction n with
  | zero => omega
  | succ n ih =>
    rcases Nat.lt_succ_iff_lt_or_eq.mp hi with hlt | rfl
    · rw [Group.vmixes, Group.vmix_vpos_ne _ m _ _ (by rw [vmixes_length]; exact add_mod_ne hlt hn)]
      exact ih (by omega) hlt
    · rw [Group.vmixes, Group.vmix_vpos_self _ m _ _ (by rw [vmixes_length]; omega), mixLanes_get, hl, if_pos rfl]

end

/-- One more word above `32 * n` bits of a number. -/
theorem ofNat_or_word (v n : Nat) : BitVec.ofNat 128 (v % 2 ^ (32 * n)) ||| ((BitVec.ofNat 32 (v / 2 ^ (32 * n))).zeroExtend 128 <<< (32 * n)) =
    BitVec.ofNat 128 (v % 2 ^ (32 * (n + 1))) := by
  ext j hj
  simp only [← BitVec.getLsbD_eq_getElem hj, BitVec.getLsbD_or, BitVec.getLsbD_ofNat, BitVec.getLsbD_shiftLeft,
    BitVec.getLsbD_setWidth, Nat.testBit_mod_two_pow, Nat.testBit_div_two_pow, hj, decide_true, Bool.true_and]
  by_cases h : j < 32 * n
  · simp [h, show j < 32 * (n + 1) by omega]
  · by_cases h' : j < 32 * (n + 1)
    · simp [h, h', show j - 32 * n < 128 by omega, show j - 32 * n < 32 by omega, show j - 32 * n + 32 * n = j by omega]
    · simp [h, h', show ¬j - 32 * n < 32 by omega]

/-- Registers that hold the words of a number read as the number. -/
theorem Group.vgetWide_words {g : Group} {pos n l v : Nat} (h : ∀ i < n, (g.vpos (pos + i))[l]! = BitVec.ofNat 32 (v / 2 ^ (32 * i))) :
    g.vgetWide pos n l = BitVec.ofNat 128 (v % 2 ^ (32 * n)) := by
  induction n with
  | zero => simp [Group.vgetWide, Nat.mod_one]
  | succ n ih =>
    have hfold : g.vgetWide pos (n + 1) l = g.vgetWide pos n l ||| (((g.vpos (pos + n))[l]!).zeroExtend 128 <<< (32 * n)) := by
      rw [Group.vgetWide, List.range_succ, List.foldl_append]; rfl
    rw [hfold, ih fun i hi => h i (by omega), h n (Nat.lt_succ_self n), ofNat_or_word]

/-! ### The frame of a lane instruction -/

theorem vput_grp (s : State) (d : VReg) (n : Nat) (m : LaneMask) (f : Nat → Nat) : (s.vput d n m f).grp =
    s.grp.vmixes m (s.slot.wbase + d.toNat) (fun i l => BitVec.ofNat 32 (f l / 2 ^ (32 * i))) n := by rw [vput_eq_vmixes]; rfl

/-- Nothing of the group but its rows changes. -/
theorem vput_eq_rows (s : State) (d : VReg) (n : Nat) (m : LaneMask) (f : Nat → Nat) :
    s.vput d n m f = s.setGrp fun g => { g with vrf := (s.vput d n m f).grp.vrf } := by
  obtain ⟨rows, h, -⟩ := vput_rows s d n m f
  rw [h]; rfl


theorem Group.vpos_eq_of_vrf {g h : Group} (hvrf : h.vrf = g.vrf) (p : Nat) : h.vpos p = g.vpos p := by rw [Group.vpos, Group.vpos, hvrf]

/-- Settles O23: the instruction is one write of vector registers, whose positions are distinct below the frame's size, and the path's
going on. -/
theorem laneFrame : Obligations.LaneFrame := by
  intro i g reads d n words f s t h hwf hcheck hsize hexec
  rw [exec_laneWrite h hwf, vecInt_next words g (f s) hcheck] at hexec
  cases hexec
  obtain ⟨hframe, -⟩ := vcheck_eq_ok.mp hcheck
  have hn : n ≤ s.grp.vrf.length := by have := hframe (d, n) (by simp); simp only at this; omega
  have hvrf : ((s.vput d n (s.active g) (f s)).advance words).grp.vrf = (s.grp.vmixes (s.active g) (s.slot.wbase + d.toNat)
      (fun i l => BitVec.ofNat 32 (f s l / 2 ^ (32 * i))) n).vrf := by rw [State.advance_grp_vrf, vput_grp]
  have hrows := vput_eq_rows s d n (s.active g) (f s)
  refine ⟨⟨?_, fun k hk => ?_, fun k l hl => ?_, fun r => ?_, fun p => ?_, groupKept_advance words ?_⟩, ?_, ?_, outside_of_grp ?_,
    wentOn_advance words ?_ ?_ ?_, fun l hl hact => ?_⟩
  · rw [hvrf, Group.vmixes_length]
  · rw [hvrf, Group.vmixes_getElem?_ne _ _ _ _ _ hk]
  · rw [hvrf, Group.vmixes_lane _ _ _ _ _ _ hl]
  · rw [State.rs_advance, rs_vput]
  · rw [State.rp_advance, rp_vput]
  · rw [hrows]; rfl
  · rw [State.advance_grp_fmode, hrows]; rfl
  · rw [State.advance_grp_rngc, hrows]; rfl
  · rw [hrows]; rfl
  · rw [hrows]; rfl
  · rw [hrows]; rfl
  · rw [hrows]; rfl
  · refine Group.vgetWide_words fun i hi => ?_
    have hlane := Group.vmixes_vpos s.grp (s.active g) (s.slot.wbase + d.toNat) (fun i l => BitVec.ofNat 32 (f s l / 2 ^ (32 * i))) hn hi
      (l := ⟨l, hl⟩) hact
    rw [Group.vpos_eq_of_vrf hvrf, getElem!_pos _ l hl]
    exact hlane

end Sys2Proof.Machine
end

section
/-! PROOFS. Floating-point lanes, compares and reductions (R101, R111, R146, R150 to R156, R163, R164): each instruction is one of the
shapes, with the value and flags of its rule. -/
namespace Sys2Proof.Machine
open Sys2Proof Sys2Proof.Statements

/-- Each instruction that rounds is the rounding shape; its exact value and its rounding are the rule's, component by component. -/
theorem exec_roundWrite {i : Instr} {g : Option Guard} {rnd : Rnd} {draws : Nat} {reads : List (VReg × Nat)} {d : VReg} {n words : Nat}
    {f : State → Rnd → (Nat → Nat) → Nat → Nat × Flags} (h : RoundWrite i g rnd draws reads d n words f) (s : State) :
    exec i s = vecRound s words g rnd draws reads d n (f s) := by
  cases h with
  | fadd | faddW1 | fsub | fsubW1 | fmul | fmulW1 => rfl
  | ffma | ffmaW1 => rfl
  | frnd | cvt => rfl
  | pkadd | pkaddW1 | pkmul | pkmulW1 | pkfma | pkfmaW1 => rfl

theorem exec_flagWrite {i : Instr} {g : Option Guard} {reads : List (VReg × Nat)} {d : VReg} {n words : Nat} {f : State → Nat → Nat × Flags}
    (h : FlagWrite i g reads d n words f) (s : State) : exec i s = vecOp s words g reads d n (f s) := by
  cases h with
  | fmin | fminW1 | fmax | fmaxW1 => rfl
  | vdot2h | vdot2hW1 => rfl
  | vscan g t op excl d a =>
    have hbelow (l : Nat) : ((lanesOf (s.active g)).filter fun k => if excl then k < l else k ≤ l) =
        (List.range 32).filter fun k => (s.active g).getLsbD k && decide (if excl then k < l else k ≤ l) := by
      rw [lanesOf, List.filter_filter]
      exact List.filter_congr fun k _ => by cases excl <;> exact Bool.and_comm ..
    refine congrArg (vecOp s 3 g [(a, tyRegs t)] d (tyRegs t)) (funext fun l => ?_)
    have hvalue := congrArg (fun ks => Statements.scanOf t op (ks.map fun k => s.src (.v a) t k)) (hbelow l)
    cases op <;> exact hvalue

/-- Settles O19: every row is one of the two shapes, which complete where their checks pass. -/
theorem roundedLanes : Obligations.RoundedLanes := by
  refine ⟨fun i g rnd draws reads d n words f s h _ hcheck => ?_, fun i g reads d n words f s h _ hcheck => ?_⟩
  · rw [exec_roundWrite h, vecRound_next words g rnd draws (f s) hcheck]
  · rw [exec_flagWrite h, vecOp_next words g (f s) hcheck]

/-! ### Compares (R146, R152) -/

theorem cmpHolds_toNat {w : Nat} (cc : Cmp) (x y : BitVec w) : cmpHolds cc w x.toNat y.toNat = relW cc x y := by
  have heq : (x.toNat == y.toNat) = (x == y) := Bool.eq_iff_iff.mpr (by simp only [beq_iff_eq, BitVec.toNat_inj])
  cases cc <;>
    simp only [cmpHolds, relW, bne, heq, signedOf_toNat, BitVec.slt_eq_decide, BitVec.sle_eq_decide, BitVec.ult_eq_decide, BitVec.ule_eq_decide]

theorem ltFp_asymm {x y : Fp} (h : ltFp x y = true) : ltFp y x = false := by
  cases x with
  | nan => cases h
  | inf a => cases y with
    | nan => cases h
    | inf b => revert h; simp only [ltFp]; cases a <;> cases b <;> decide
    | fin b n e => revert h; simp only [ltFp]; cases a <;> decide
  | fin a m e => cases y with
    | nan => cases h
    | inf b => revert h; simp only [ltFp]; cases b <;> decide
    | fin b n g =>
      simp only [ltFp, decide_eq_true_eq, decide_eq_false_iff_not, min_comm g e] at h ⊢
      omega

/-- A signalling NaN among two values raises NV, once. -/
theorem nvOf_or (x y : Fp) : nvOf x ||| nvOf y = if x == .nan true || y == .nan true then 0x8 else 0 := by
  have hnv (z : Fp) : nvOf z = if z == .nan true then 0x8 else 0 := by
    cases z with
    | nan s => cases s <;> rfl
    | inf | fin => rfl
  rw [hnv, hnv]
  cases x == .nan true <;> cases y == .nan true <;> rfl

/-- Not greater is less or equal, of two numbers. -/
theorem not_ltFp_eq {x y : Fp} (h : (x.isNaN || y.isNaN) = false) : (!ltFp y x) = (ltFp x y || eqFp x y) := by
  rw [Bool.or_eq_false_iff] at h
  rw [eqFp, h.1, h.2]
  cases hlt : ltFp x y with
  | true => rw [ltFp_asymm hlt]; rfl
  | false => simp

theorem eqFp_comm (x y : Fp) : eqFp x y = eqFp y x := by
  rw [eqFp, eqFp]; cases x.isNaN <;> cases y.isNaN <;> simp [Bool.and_comm]

theorem eqFp_of_isNaN {x y : Fp} (h : (x.isNaN || y.isNaN) = true) : eqFp x y = false := by
  rw [eqFp]; cases hx : x.isNaN <;> cases hy : y.isNaN <;> simp_all

theorem compareFp_eq_fpRel (cc : FCmp) (x y : Fp) : compareFp cc x y = fpRel cc x y := by
  simp only [compareFp, fpRel, nvOf_or]
  cases hun : x.isNaN || y.isNaN with
  | true =>
    rw [eqFp_of_isNaN hun]
    cases cc <;> cases x == .nan true || y == .nan true <;> rfl
  | false =>
    have hge := not_ltFp_eq (x := y) (y := x) (by rw [Bool.or_comm, hun])
    rw [not_ltFp_eq hun, hge, eqFp_comm y x]
    cases cc <;> cases x == .nan true || y == .nan true <;> rfl

/-- Each compare is the predicate shape with the rule's relation and flags. -/
theorem exec_predLane {i : Instr} {g : Option Guard} {reads : List (VReg × Nat)} {d : PReg} {f : State → Nat → Bool × Flags}
    (h : PredLane i g reads d f) (hwf : i.wf = true) (s : State) : exec i s = predOp s 3 g reads d (f s) := by
  cases h with
  | vcmp g t cc sc d a b =>
    simp only [Instr.wf, Bool.and_eq_true] at hwf
    have hreg := tyRegs_mul_of_isInt (Ty.isInt_of_isWidth (t := t) (by tauto))
    refine congrArg (predOp s 3 g _ d) (funext fun l => ?_)
    rw [src_eq_laneBits s _ hreg, src_eq_laneBits s _ hreg, cmpHolds_toNat]
  | fcmp g t cc sc d a b => exact congrArg (predOp s 3 g _ d) (funext fun l => compareFp_eq_fpRel cc _ _)

/-! ### Reductions (R163) -/

theorem placeScalar_eq_reduced (t : Ty) (v : Nat) : placeScalar t v = reduced t v := by
  cases t with
  | i32 =>
    show BitVec.ofNat 64 (wrap 64 (signedOf 32 v)) = (BitVec.ofNat 32 v).signExtend 64
    rw [ofNat_wrap, signedOf_eq_toInt, BitVec.signExtend]
  | _ => rfl

theorem reduceOp_next {s : State} (words : Nat) (g : Option Guard) {t : Ty} (d : SReg) {a : VReg} (f : List Nat → Nat × Flags)
    (h : s.vcheck [(a, tyRegs t)] [] = .ok ()) :
    let r := f ((lanesOf (s.active g)).map fun l => s.src (.v a) t l)
    reduceOp s words g t d a f = .next (((s.setRs d (reduced t r.1)).orFlags r.2).advance words) := by
  simp only [reduceOp, h, ok_bind, finish_ok, placeScalar_eq_reduced]

theorem exec_reduce {i : Instr} {g : Option Guard} {t : Ty} {a : VReg} {d : SReg} {words : Nat} {f : List Nat → Nat × Flags}
    (h : Reduce i g t a d words f) (s : State) : exec i s = reduceOp s words g t d a f := by
  cases h with
  | vradd | vraddW1 => rfl
  | vrmin | vrminW1 => rfl
  | vrmax | vrmaxW1 => rfl

/-- Settles O20: a compare mixes its relation into the predicate by the guard's lanes; a reduction is one scalar write. -/
theorem laneResults : Obligations.LaneResults := by
  refine ⟨fun i g reads d f s h hwf hcheck => ?_, fun i g t a d words f s h _ hcheck => ?_⟩
  · refine ⟨_, (exec_predLane h hwf s).trans (predOp_next 3 g d (f s) hcheck), fun l hl => ?_⟩
    rw [predMix_getLsbD _ _ _ l hl, active_getLsbD s g hl]
  · exact (exec_reduce h s).trans (reduceOp_next words g d f hcheck)

/-! ### Special functions (R158 to R160) -/

/-- An SFU instruction whose checks pass leaves its result outstanding, unless no lane is active. -/
theorem sfuIssue_next (fn : Nat) {s : State} (words : Nat) (g : Option Guard) {d a : VReg} (h : s.vcheck [(a, 1)] [(d, 1)] = .ok ()) :
    sfuIssue fn s words g d a = .next (if s.active g = 0 then s.advance words
      else ((addResult s
        { id := s.nextId, tags := s.tags, cnt := .sfu, pos := s.slot.wbase + d.toNat, regs := 1, pc := s.pc, pend := s.active g
          full := s.active g, lanes := (lanesOf (s.active g)).map fun l => { lane := l, ea := 0, pieces := [] }
          kind := .sfu fn ((List.range 32).map fun l => BitVec.ofNat 32 (s.src (.v a) .b32 l)) }).orFlags
        (flagsOver (s.active g) fun l => (sfuResult fn (BitVec.ofNat 32 (s.src (.v a) .b32 l))).2)).advance words) := by
  simp only [sfuIssue, h, ok_bind]
  split <;> rfl

/-- Settles O21: every row is the shape of an SFU instruction. -/
theorem specialFunctions : Obligations.SpecialFunctions := by
  intro i fn g d a words s h hcheck
  have hexec : exec i s = sfuIssue fn s words g d a := by cases h <;> rfl
  exact hexec.trans (sfuIssue_next fn words g hcheck)

/-! ### Special inputs (R160) -/

theorem sfuResult_nan (fn : Nat) : sfuResult fn 0x7F800001 = (0x7FC00000, 0x8) ∧ sfuResult fn 0x7FC00001 = (0x7FC00000, 0) :=
  ⟨rfl, rfl⟩

/-- An encoding between −0 and −∞ is a negative number. -/
theorem decodeFp_f32_negative {v : Nat} (hlow : 0x80000000 < v) (hhigh : v < 0xFF800000) :
    ∃ m e, m ≠ 0 ∧ decodeFp (fmtOf .f32) v = .fin true m e := by
  have hneg : v.testBit 31 = true := by rw [Nat.testBit_eq_decide_div_mod_eq, decide_eq_true_eq]; omega
  have hexp : ¬v / 8388608 % 256 = 255 := by omega
  have hdecode : decodeFp (fmtOf .f32) v = if v / 2 ^ 23 % 2 ^ 8 = 0 then .fin true (v % 2 ^ 23) (1 - 127 - 23)
      else .fin true (2 ^ 23 + v % 2 ^ 23) ((v / 2 ^ 23 % 2 ^ 8 : Nat) - 127 - 23) := by
    simp [decodeFp, fmtOf, bits, hneg, hexp]
  rw [hdecode]
  split
  · exact ⟨_, _, by omega, rfl⟩
  · exact ⟨_, _, by omega, rfl⟩

/-- The functions of a positive argument alone refuse a negative number. -/
theorem sfuResult_negative {fn : Nat} (hfn : fn = 1 ∨ fn = 2 ∨ fn = 4) {x : W32} (hlow : 0x80000000 < x.toNat) (hhigh : x.toNat < 0xFF800000) :
    sfuResult fn x = (0x7FC00000, 0x8) := by
  obtain ⟨m, e, hm, hx⟩ := decodeFp_f32_negative hlow hhigh
  simp only [sfuResult, hx, if_neg hm]
  rcases hfn with rfl | rfl | rfl <;> rfl

/-- Settles O22: zeros and infinities by evaluation; a NaN and a negative number whatever the function. -/
theorem specialInputs : Obligations.SpecialInputs :=
  ⟨by decide, by decide, by decide, by decide, sfuResult_nan, fun _ _ hfn hlow hhigh => sfuResult_negative hfn hlow hhigh⟩

end Sys2Proof.Machine
end

section
/-! PROOFS. Floating-point encodings (R96 to R98, R101 to R103): what the nine formats have in common, the encoding of each kind of
value, and that rounding depends on the number alone and gives an encoding's number its encoding. -/
namespace Sys2Proof.Machine
open Sys2Proof Sys2Proof.Statements

/-! ### The formats -/

/-- What the formats have in common: a sign bit above the exponent and the fraction; the largest finite encoding below the infinity, or
below the one NaN, or all ones. -/
structure Fmt.Regular (f : Fmt) : Prop where
  bits_eq : f.bits = f.e + f.m + 1
  m_pos : 0 < f.m
  e_pos : 0 < f.e
  maxFin_pos : 0 < f.maxFin
  maxFin_inf : f.inf = true → f.maxFin + 1 = (2 ^ f.e - 1) * 2 ^ f.m
  maxFin_nan : f.inf = false → f.nan.isSome = true → f.maxFin + 2 = 2 ^ (f.e + f.m)
  maxFin_all : f.inf = false → f.nan.isSome = false → f.maxFin + 1 = 2 ^ (f.e + f.m)

theorem fmtOf_regular (t : Ty) : (fmtOf t).Regular := by
  cases t <;> constructor <;> decide

section
variable {f : Fmt} (hf : f.Regular)
include hf

/-- No finite encoding reaches the sign bit. -/
theorem Fmt.Regular.maxFin_lt : f.maxFin < 2 ^ (f.e + f.m) := by
  cases hinf : f.inf with
  | true =>
    have := hf.maxFin_inf hinf
    have : (2 ^ f.e - 1) * 2 ^ f.m ≤ 2 ^ f.e * 2 ^ f.m := Nat.mul_le_mul_right _ (Nat.sub_le ..)
    rw [← Nat.pow_add] at this
    omega
  | false =>
    cases hnan : f.nan.isSome with
    | true => have := hf.maxFin_nan hinf hnan; omega
    | false => have := hf.maxFin_all hinf hnan; omega

end

/-! ### Rounding a number -/

/-- The parts dropped and the unit grow together. -/
theorem roundsUp_shift (mode : Rnd) (draw : Nat) (neg : Bool) (m rem s j : Nat) :
    roundsUp mode draw neg m (rem * 2 ^ j) (s + j) = roundsUp mode draw neg m rem s := by
  have hpos := Nat.two_pow_pos j
  have hzero : rem * 2 ^ j = 0 ↔ rem = 0 := by rw [Nat.mul_eq_zero]; omega
  have htwo : 2 * (rem * 2 ^ j) = 2 * rem * 2 ^ j := (Nat.mul_assoc ..).symm
  have hlt : 2 ^ s * 2 ^ j < 2 * rem * 2 ^ j ↔ 2 ^ s < 2 * rem := Nat.mul_lt_mul_right hpos
  have hle : 2 ^ s * 2 ^ j ≤ 2 * rem * 2 ^ j ↔ 2 ^ s ≤ 2 * rem := Nat.mul_le_mul_right_iff hpos
  have heq : (2 * rem * 2 ^ j == 2 ^ s * 2 ^ j) = (2 * rem == 2 ^ s) :=
    Bool.eq_iff_iff.mpr (by simp only [beq_iff_eq, Nat.mul_left_inj hpos.ne'])
  have hdiv : rem * 2 ^ j * 2 ^ 32 / (2 ^ s * 2 ^ j) = rem * 2 ^ 32 / 2 ^ s := by
    rw [Nat.mul_right_comm, Nat.mul_div_mul_right _ _ hpos]
  simp only [roundsUp, hzero, Nat.pow_add, htwo, hlt, hle, heq, hdiv]

/-- Rounding at 2^q sees the number, not how its factor of two is shared out. -/
theorem roundAt_shift (mode : Rnd) (draw : Nat) (neg : Bool) (m j : Nat) (e q : Int) :
    roundAt mode draw neg (m * 2 ^ j) e q = roundAt mode draw neg m (e + j) q := by
  have hpos := Nat.two_pow_pos j
  have hzero (r : Nat) : (r * 2 ^ j != 0) = (r != 0) := Bool.eq_iff_iff.mpr (by simp)
  by_cases hqe : q ≤ e
  · rw [roundAt, roundAt, scaled, scaled, if_pos hqe, if_pos (show q ≤ e + j by omega), Nat.mul_assoc, ← Nat.pow_add,
      show j + (e - q).toNat = (e + j - q).toNat by omega]
  · by_cases hqj : q ≤ e + j
    · obtain ⟨r, rfl⟩ : ∃ r, j = (q - e).toNat + r := ⟨j - (q - e).toNat, by omega⟩
      rw [roundAt, roundAt, scaled, scaled, if_neg hqe, if_pos hqj, Nat.pow_add, Nat.mul_left_comm,
        Nat.mul_div_cancel_left _ (Nat.two_pow_pos _), Nat.mul_mod_right,
        show (e + ((q - e).toNat + r : Nat) - q).toNat = r by omega]
      rfl
    · obtain ⟨r, hr⟩ : ∃ r, (q - e).toNat = r + j := ⟨(q - e).toNat - j, by omega⟩
      rw [roundAt, roundAt, scaled, scaled, if_neg hqe, if_neg hqj, hr, Nat.pow_add, Nat.mul_div_mul_right _ _ hpos, Nat.mul_mod_mul_right,
        show (q - (e + j)).toNat = r by omega]
      simp only [roundsUp_shift, hzero]

theorem log2_mul_two_pow {m : Nat} (hm : m ≠ 0) (j : Nat) : (m * 2 ^ j).log2 = m.log2 + j := by
  have hpos := Nat.two_pow_pos j
  rw [Nat.log2_eq_iff (by positivity), Nat.pow_add, Nat.add_right_comm, Nat.pow_add 2 (m.log2 + 1)]
  exact ⟨Nat.mul_le_mul_right _ (Nat.log2_self_le hm), Nat.mul_lt_mul_of_pos_right Nat.lt_log2_self hpos⟩

/-- So does rounding to a format. -/
theorem roundFin_shift (f : Fmt) (mode : Rnd) (draw : Nat) (sat neg : Bool) (m j : Nat) (e : Int) :
    roundFin f mode draw sat neg (m * 2 ^ j) e = roundFin f mode draw sat neg m (e + j) := by
  by_cases hm : m = 0
  · simp [roundFin, hm]
  · have hlog : (e + (m * 2 ^ j).log2 : Int) = e + j + m.log2 := by
      rw [log2_mul_two_pow hm]; push_cast; ring
    have hm' : m * 2 ^ j ≠ 0 := by positivity
    simp only [roundFin, if_neg hm, if_neg hm', hlog, roundAt_shift]

/-- Fractions brought to a common denominator are their numerators at the lesser exponent, times one power of two. -/
theorem numOf_mul_denOf (e g : Int) : ∃ c : Nat, (∀ m, numOf m e * denOf g = m * 2 ^ (e - min e g).toNat * 2 ^ c) ∧
    ∀ n, numOf n g * denOf e = n * 2 ^ (g - min e g).toNat * 2 ^ c := by
  obtain ⟨c, hc⟩ : ∃ c : Nat, (c : Int) = (-e).toNat + (-g).toNat + min e g := ⟨((-e).toNat + (-g).toNat + min e g).toNat, by omega⟩
  refine ⟨c, fun m => ?_, fun n => ?_⟩
  · rw [numOf, denOf, Nat.mul_assoc, Nat.mul_assoc, ← Nat.pow_add, ← Nat.pow_add,
      show e.toNat + (-g).toNat = (e - min e g).toNat + c by omega]
  · rw [numOf, denOf, Nat.mul_assoc, Nat.mul_assoc, ← Nat.pow_add, ← Nat.pow_add,
      show g.toNat + (-e).toNat = (g - min e g).toNat + c by omega]

/-- Two fractions of one number, at any lower exponent. -/
theorem sameValue_iff (m n : Nat) {e g q : Int} (he : q ≤ e) (hg : q ≤ g) :
    sameValue m e n g ↔ m * 2 ^ (e - q).toNat = n * 2 ^ (g - q).toNat := by
  obtain ⟨c, hm, hn⟩ := numOf_mul_denOf e g
  have hlower (k : Nat) (x : Int) (hx : min e g ≤ x) :
      k * 2 ^ (x - q).toNat = k * 2 ^ (x - min e g).toNat * 2 ^ (min e g - q).toNat := by
    rw [Nat.mul_assoc, ← Nat.pow_add, show (x - q).toNat = (x - min e g).toNat + (min e g - q).toNat by omega]
  rw [sameValue, hm, hn, Nat.mul_left_inj (Nat.two_pow_pos c).ne', hlower m e (by omega), hlower n g (by omega),
    Nat.mul_left_inj (Nat.two_pow_pos _).ne']

/-- Rounding to a format sees the number alone. -/
theorem roundFin_sameValue {m n : Nat} {e g : Int} (h : sameValue m e n g) (f : Fmt) (mode : Rnd) (draw : Nat) (sat neg : Bool) :
    roundFin f mode draw sat neg m e = roundFin f mode draw sat neg n g := by
  rw [sameValue_iff m n (min_le_left e g) (min_le_right e g)] at h
  have hshift (k : Nat) (x : Int) (hx : min e g ≤ x) :
      roundFin f mode draw sat neg (k * 2 ^ (x - min e g).toNat) (min e g) = roundFin f mode draw sat neg k x := by
    rw [roundFin_shift, show min e g + ((x - min e g).toNat : Nat) = x by omega]
  rw [← hshift m e (by omega), h, hshift n g (by omega)]

/-! ### Encodings -/

theorem roundAt_exact (mode : Rnd) (draw : Nat) (neg : Bool) (m : Nat) (e : Int) : roundAt mode draw neg m e e = (m, false) := by
  simp [roundAt, scaled, roundsUp]

/-- A number whose last place is the format's is its own rounding, when its encoding is finite. -/
theorem roundFin_exact (f : Fmt) (mode : Rnd) (draw : Nat) (sat neg : Bool) {m mag : Nat} {e : Int} (hm : m ≠ 0)
    (hplace : max (e + m.log2) (1 - f.bias) - f.m = e)
    (hmag : mag = if m < 2 ^ f.m then m else ((e + f.m + f.bias).toNat - 1) * 2 ^ f.m + m) (hfin : mag ≤ f.maxFin) :
    roundFin f mode draw sat neg m e = (signBit f neg + mag, 0) := by
  simp only [roundFin, if_neg hm, hplace, roundAt_exact, ← hmag, if_neg (Nat.not_lt.mpr hfin)]
  simp [flagIf]

/-- The exponent and the fraction below the sign bit. -/
theorem magnitude_eq (f : Fmt) (v : Nat) : v % 2 ^ (f.e + f.m) = bits v f.m f.e * 2 ^ f.m + bits v 0 f.m := by
  rw [Nat.add_comm, Nat.pow_add, Nat.mod_mul, bits, bits, Nat.pow_zero, Nat.div_one, Nat.mul_comm, Nat.add_comm]

section
variable {f : Fmt} (hf : f.Regular) {v : Nat}
include hf

theorem encoding_eq (hv : v < 2 ^ f.bits) : v = signBit f (v.testBit (f.bits - 1)) + v % 2 ^ (f.e + f.m) := by
  rw [hf.bits_eq, Nat.pow_succ] at hv
  rw [signBit, hf.bits_eq, Nat.add_sub_cancel, Nat.testBit_eq_decide_div_mod_eq]
  generalize hN : 2 ^ (f.e + f.m) = N at hv ⊢
  have hdiv := Nat.div_add_mod v N
  have hlt : v / N < 2 := Nat.div_lt_of_lt_mul (by omega)
  generalize v / N = k at hdiv hlt ⊢
  obtain rfl | rfl : k = 0 ∨ k = 1 := by omega
  · simp only [Nat.mul_zero, Nat.zero_mod, Nat.zero_ne_one, decide_false, Bool.false_eq_true, if_false] at hdiv ⊢; exact hdiv.symm
  · simp only [Nat.mul_one, Nat.one_mod, decide_true, if_true] at hdiv ⊢; exact hdiv.symm

/-- The encoding of a finite value: its sign, and its magnitude below the exponent's step or with it. -/
theorem decodeFp_fin {n : Bool} {m : Nat} {e : Int} (h : decodeFp f v = .fin n m e) :
    n = v.testBit (f.bits - 1) ∧ v % 2 ^ (f.e + f.m) ≤ f.maxFin ∧
    ((v % 2 ^ (f.e + f.m) < 2 ^ f.m ∧ m = v % 2 ^ (f.e + f.m) ∧ e = 1 - f.bias - f.m) ∨
      ∃ k : Nat, 0 < k ∧ v % 2 ^ (f.e + f.m) + 2 ^ f.m = k * 2 ^ f.m + m ∧ 2 ^ f.m ≤ m ∧ m < 2 * 2 ^ f.m ∧ e = k - f.bias - f.m) := by
  have hfrac : bits v 0 f.m < 2 ^ f.m := Nat.mod_lt _ (Nat.two_pow_pos _)
  have hexp : bits v f.m f.e < 2 ^ f.e := Nat.mod_lt _ (Nat.two_pow_pos _)
  have hmag := magnitude_eq f v
  have hmaglt : v % 2 ^ (f.e + f.m) < 2 ^ (f.e + f.m) := Nat.mod_lt _ (Nat.two_pow_pos _)
  simp only [decodeFp, hf.bits_eq, Nat.add_sub_cancel] at h ⊢
  split at h
  · split at h <;> cases h
  next hinf =>
  split at h
  · cases h
  next hnan =>
  have hfin : v % 2 ^ (f.e + f.m) ≤ f.maxFin := by
    have hbits : bits v 0 (f.e + f.m) = v % 2 ^ (f.e + f.m) := by rw [bits, Nat.pow_zero, Nat.div_one]
    cases hi : f.inf with
    | true =>
      have hne : bits v f.m f.e ≠ 2 ^ f.e - 1 := fun hb => hinf (by rw [hi, hb]; simp)
      have hstep : (bits v f.m f.e + 1) * 2 ^ f.m ≤ (2 ^ f.e - 1) * 2 ^ f.m := Nat.mul_le_mul_right _ (by omega)
      rw [← hf.maxFin_inf hi, Nat.succ_mul] at hstep
      omega
    | false =>
      cases hs : f.nan.isSome with
      | true =>
        have hne : v % 2 ^ (f.e + f.m) ≠ f.maxFin + 1 := fun hb => hnan (by rw [hi, hs, hbits, hb]; simp)
        have := hf.maxFin_nan hi hs
        omega
      | false => have := hf.maxFin_all hi hs; omega
  split at h
  next hzero =>
    cases h
    rw [hzero] at hmag
    exact ⟨rfl, hfin, .inl ⟨by omega, by omega, rfl⟩⟩
  next hne =>
    cases h
    exact ⟨rfl, hfin, .inr ⟨bits v f.m f.e, by omega, by omega, by omega, by omega, rfl⟩⟩

/-- Rounding a finite encoding's number gives the encoding back, exactly. -/
theorem roundFin_decodeFp {n : Bool} {m : Nat} {e : Int} (hv : v < 2 ^ f.bits) (h : decodeFp f v = .fin n m e)
    (mode : Rnd) (draw : Nat) (sat : Bool) : roundFin f mode draw sat n m e = (v, 0) := by
  obtain ⟨hn, hfin, hmag⟩ := decodeFp_fin hf h
  have hv' := encoding_eq hf hv
  rw [← hn] at hv'
  generalize v % 2 ^ (f.e + f.m) = mag at *
  by_cases hm : m = 0
  · obtain ⟨-, rfl, -⟩ | ⟨k, -, -, hlow, -⟩ := hmag
    · rw [roundFin, if_pos hm, hv', hm]; rfl
    · have := Nat.two_pow_pos f.m; omega
  · rw [hv']
    obtain ⟨hlt, rfl, rfl⟩ | ⟨k, hk, hsum, hlow, hhigh, rfl⟩ := hmag
    · have hlog : m.log2 < f.m := (Nat.log2_lt hm).mpr hlt
      exact roundFin_exact f mode draw sat n hm (by omega) (if_pos hlt).symm hfin
    · have hlog : m.log2 = f.m := (Nat.log2_eq_iff hm).mpr ⟨hlow, by rw [Nat.pow_succ]; omega⟩
      refine roundFin_exact f mode draw sat n hm (by omega) ?_ hfin
      rw [if_neg (Nat.not_lt.mpr hlow), show ((k : Int) - f.bias - f.m + f.m + f.bias).toNat = k by omega, Nat.sub_mul]
      have : 1 * 2 ^ f.m ≤ k * 2 ^ f.m := Nat.mul_le_mul_right _ hk
      omega

/-- Two encodings of one number with one sign are one. -/
theorem encoding_inj {w : Nat} {n : Bool} {m k : Nat} {e g : Int} (hv : v < 2 ^ f.bits) (hw : w < 2 ^ f.bits)
    (h : decodeFp f v = .fin n m e) (h' : decodeFp f w = .fin n k g) (same : sameValue m e k g) : v = w := by
  have h1 := roundFin_decodeFp hf hv h .rne 0 false
  rw [roundFin_sameValue same, roundFin_decodeFp hf hw h' .rne 0 false] at h1
  exact (congrArg Prod.fst h1).symm

/-- The encoding of an infinity. -/
theorem decodeFp_inf {n : Bool} (hv : v < 2 ^ f.bits) (h : decodeFp f v = .inf n) :
    f.inf = true ∧ v = signBit f n + (2 ^ f.e - 1) * 2 ^ f.m := by
  have hmag := magnitude_eq f v
  have hv' := encoding_eq hf hv
  simp only [decodeFp] at h
  split at h
  next hinf =>
    rw [Bool.and_eq_true, beq_iff_eq] at hinf
    split at h
    next hzero =>
      cases h
      rw [hinf.2, hzero] at hmag
      exact ⟨hinf.1, by rw [← Nat.add_zero ((2 ^ f.e - 1) * 2 ^ f.m), ← hmag]; exact hv'⟩
    · cases h
  · split at h
    · cases h
    · split at h <;> cases h

end

end Sys2Proof.Machine
end

section
/-! PROOFS. Rounding and zeros (R101, R103), conversions (R105, R106, R155), minima, maxima and integral values (R151, R154), by the
numbers that encodings stand for. -/
namespace Sys2Proof.Machine
open Sys2Proof Sys2Proof.Statements

/-! ### Rounding and zeros -/

/-- Rounding the value of an encoding that is not NaN gives the encoding back. -/
theorem roundFp_decodeFp {f : Fmt} (hf : f.Regular) {v : Nat} (hv : v < 2 ^ f.bits) (hnan : (decodeFp f v).isNaN = false)
    (mode : Rnd) (draw : Nat) : roundFp f mode draw (decodeFp f v) = (v, 0) := by
  cases h : decodeFp f v with
  | nan => rw [h] at hnan; cases hnan
  | inf n =>
    obtain ⟨hinf, hv⟩ := decodeFp_inf hf hv h
    rw [roundFp, if_pos hinf, ← hv]
  | fin n m e => exact roundFin_decodeFp hf hv h mode draw false

theorem overflowBits_eq {f : Fmt} (hf : f.Regular) (mode : Rnd) (sat neg : Bool) :
    ∃ mag, mag < 2 ^ (f.e + f.m) ∧ overflowBits f mode sat neg = signBit f neg + mag := by
  have hinf : (2 ^ f.e - 1) * 2 ^ f.m < 2 ^ (f.e + f.m) := by
    rw [Nat.pow_add]
    exact Nat.mul_lt_mul_of_pos_right (Nat.sub_lt (Nat.two_pow_pos _) Nat.one_pos) (Nat.two_pow_pos _)
  obtain ⟨toMax, h⟩ : ∃ toMax : Bool, overflowBits f mode sat neg = signBit f neg + if toMax then f.maxFin else (2 ^ f.e - 1) * 2 ^ f.m := ⟨_, rfl⟩
  rw [h]
  cases toMax with
  | true => exact ⟨f.maxFin, hf.maxFin_lt, rfl⟩
  | false => exact ⟨_, hinf, rfl⟩

/-- What rounding gives is a sign and a magnitude below it. -/
theorem roundFin_fst {f : Fmt} (hf : f.Regular) (mode : Rnd) (draw : Nat) (sat neg : Bool) (m : Nat) (e : Int) :
    ∃ mag, mag < 2 ^ (f.e + f.m) ∧ (roundFin f mode draw sat neg m e).1 = signBit f neg + mag := by
  by_cases hm : m = 0
  · rw [roundFin, if_pos hm]
    exact ⟨0, Nat.two_pow_pos _, rfl⟩
  · obtain ⟨mag, fl, h⟩ : ∃ mag fl, roundFin f mode draw sat neg m e =
        if f.maxFin < mag then (overflowBits f mode sat neg, fOF ||| fNX) else (signBit f neg + mag, fl) := by
      rw [roundFin, if_neg hm]; exact ⟨_, _, rfl⟩
    rw [h]
    split
    · exact overflowBits_eq hf mode sat neg
    next hle => exact ⟨mag, lt_of_le_of_lt (Nat.not_lt.mp hle) hf.maxFin_lt, rfl⟩

theorem signBit_mod {f : Fmt} (hf : f.Regular) {neg : Bool} {mag : Nat} (h : mag < 2 ^ (f.e + f.m)) :
    (signBit f neg + mag) % 2 ^ (f.bits - 1) = mag := by
  rw [signBit, hf.bits_eq, Nat.add_sub_cancel]
  split
  · rw [Nat.add_mod_left, Nat.mod_eq_of_lt h]
  · rw [Nat.zero_add, Nat.mod_eq_of_lt h]

/-- Settles O25: encodings by the number they stand for; the signs by the cases of the sum and of the rounding. -/
theorem roundingAndZeros : Obligations.RoundingAndZeros := by
  refine ⟨fun t m draw v _ hv hnan => roundFp_decodeFp (fmtOf_regular t) hv hnan m draw, fun rdn a b m n e g hab hsum => ?_,
    fun t m draw neg mant exp _ hzero => ?_, fun a b e g => rfl⟩
  · simp only [addFp]
    split
    · rw [if_neg (by simpa using hab)]
    · rfl
  · obtain ⟨mag, hlt, hmag⟩ := roundFin_fst (fmtOf_regular t) m draw false neg mant exp
    rw [hmag, signBit_mod (fmtOf_regular t) hlt] at hzero
    rw [hmag, hzero, Nat.add_zero]

/-! ### Rounding to an integer -/

/-- Rounding at the units, by the fraction's quotient and remainder. -/
theorem roundAt_zero (mode : Rnd) (draw : Nat) (neg : Bool) (m : Nat) (e : Int) : roundAt mode draw neg m e 0 =
    (if roundsUp mode draw neg (numOf m e / denOf e) (numOf m e % denOf e) (-e).toNat then numOf m e / denOf e + 1
      else numOf m e / denOf e, numOf m e % denOf e != 0) := by
  by_cases he : 0 ≤ e
  · have hden : denOf e = 1 := by rw [denOf, show (-e).toNat = 0 by omega, Nat.pow_zero]
    rw [roundAt, scaled, if_pos he, hden, Nat.div_one, Nat.mod_one, numOf, Int.sub_zero]
    simp [roundsUp]
  · have hnum : numOf m e = m := by rw [numOf, show e.toNat = 0 by omega, Nat.pow_zero, Nat.mul_one]
    rw [roundAt, scaled, if_neg he, hnum, denOf, show (0 - e).toNat = (-e).toNat by omega]

section
variable {a r d n k : Nat} (hn : n = a * d + r) (hr : r < d)
include hn hr

theorem floor_unique (hlow : k * d ≤ n) (hhigh : n < (k + 1) * d) : k = a := by
  have := Nat.lt_of_mul_lt_mul_right (show k * d < (a + 1) * d by rw [Nat.succ_mul]; omega)
  have := Nat.lt_of_mul_lt_mul_right (show a * d < (k + 1) * d by omega)
  omega

theorem ceil_unique (hlow : n ≤ k * d) (hhigh : k * d < n + d) : k = if r = 0 then a else a + 1 := by
  split
  next h0 =>
    have := Nat.lt_of_mul_lt_mul_right (show k * d < (a + 1) * d by rw [Nat.succ_mul]; omega)
    have := Nat.le_of_mul_le_mul_right (show a * d ≤ k * d by omega) (by omega)
    omega
  next h0 =>
    have := Nat.lt_of_mul_lt_mul_right (show k * d < (a + 2) * d by rw [Nat.add_mul]; omega)
    have := Nat.lt_of_mul_lt_mul_right (show a * d < k * d by omega)
    omega

/-- A number at most half a unit away is the quotient or the one above. -/
theorem nearest_cases (hlow : 2 * k * d ≤ 2 * n + d) (hhigh : 2 * n ≤ 2 * k * d + d) : k = a ∨ k = a + 1 := by
  have := Nat.lt_of_mul_lt_mul_right (show 2 * k * d < (2 * a + 3) * d by rw [Nat.add_mul, Nat.mul_assoc 2 a]; omega)
  have := Nat.le_of_mul_le_mul_right (show 2 * a * d ≤ (2 * k + 1) * d by rw [Nat.add_mul, Nat.one_mul, Nat.mul_assoc 2 a]; omega) (by omega)
  omega

theorem half_even_unique (hlow : 2 * k * d ≤ 2 * n + d) (hhigh : 2 * n ≤ 2 * k * d + d)
    (heven : 2 * k * d = 2 * n + d ∨ 2 * n = 2 * k * d + d → k % 2 = 0) : k = if d < 2 * r ∨ 2 * r = d ∧ a % 2 = 1 then a + 1 else a := by
  rcases nearest_cases hn hr hlow hhigh with rfl | rfl
  · rw [Nat.mul_assoc] at hlow hhigh heven
    rw [if_neg (by omega)]
  · rw [Nat.mul_assoc, Nat.add_mul a 1 d] at hlow hhigh heven
    rw [if_pos (by omega)]

theorem half_away_unique (hlow : 2 * k * d ≤ 2 * n + d) (hhigh : 2 * n + d < 2 * (k + 1) * d) : k = if d ≤ 2 * r then a + 1 else a := by
  have hhigh' : 2 * n < 2 * k * d + d := by rw [Nat.mul_succ, Nat.add_mul] at hhigh; omega
  rcases nearest_cases hn hr hlow hhigh'.le with rfl | rfl
  · rw [Nat.mul_assoc] at hlow hhigh'
    rw [if_neg (by omega)]
  · rw [Nat.mul_assoc, Nat.add_mul a 1 d] at hlow hhigh'
    rw [if_pos (by omega)]

end

/-- The integer that a mode rounds a fraction to is the quotient, or the one above it where the mode moves up. -/
theorem roundsUp_of_nearest {mode : Rnd} {draw : Nat} {neg : Bool} {n s k : Nat} (h : nearest mode draw neg n (2 ^ s) k) :
    k = if roundsUp mode draw neg (n / 2 ^ s) (n % 2 ^ s) s then n / 2 ^ s + 1 else n / 2 ^ s := by
  have hn : n = n / 2 ^ s * 2 ^ s + n % 2 ^ s := (Nat.div_add_mod' ..).symm
  have hr : n % 2 ^ s < 2 ^ s := Nat.mod_lt n (Nat.two_pow_pos s)
  have hdown (h : k * 2 ^ s ≤ n ∧ n < (k + 1) * 2 ^ s) := floor_unique hn hr h.1 h.2
  have hup (h : n ≤ k * 2 ^ s ∧ k * 2 ^ s < n + 2 ^ s) := ceil_unique hn hr h.1 h.2
  have hzero : n % 2 ^ s = 0 → ¬2 ^ s ≤ 2 * (n % 2 ^ s) := by have := Nat.two_pow_pos s; omega
  cases mode with
  | rtz => simpa [roundsUp] using hdown h
  | rup => cases neg with
    | true => simpa [roundsUp] using hdown h
    | false => rw [hup h]; by_cases h0 : n % 2 ^ s = 0 <;> simp [roundsUp, h0]
  | rdn => cases neg with
    | true => rw [hup h]; by_cases h0 : n % 2 ^ s = 0 <;> simp [roundsUp, h0]
    | false => simpa [roundsUp] using hdown h
  | rne =>
    rw [half_even_unique hn hr h.1 h.2.1 h.2.2]
    by_cases h0 : n % 2 ^ s = 0
    · rw [if_neg (by omega)]; simp [roundsUp, h0]
    · simp [roundsUp, h0]
  | rna =>
    rw [half_away_unique hn hr h.1 h.2]
    by_cases h0 : n % 2 ^ s = 0
    · rw [if_neg (hzero h0)]; simp [roundsUp, h0]
    · simp [roundsUp, h0]
  | sr =>
    obtain ⟨hdraw, hk⟩ := h
    rw [hk]
    by_cases h0 : n % 2 ^ s = 0
    · rw [h0, Nat.zero_mul, Nat.zero_div, Nat.zero_add, if_neg (Nat.not_le.mpr hdraw)]; simp [roundsUp]
    · simp [roundsUp, h0]
  | dyn => exact h.elim

/-- Rounding at the units gives the integer that the mode rounds to, exact when nothing remains. -/
theorem roundAt_of_nearest {mode : Rnd} {draw : Nat} {neg : Bool} {m : Nat} {e : Int} {k : Nat}
    (h : nearest mode draw neg (numOf m e) (denOf e) k) : roundAt mode draw neg m e 0 = (k, numOf m e % denOf e != 0) := by
  rw [roundAt_zero]
  exact congrArg (·, _) (roundsUp_of_nearest h).symm

/-- A fraction that is an integer rounds to it. -/
theorem eq_of_nearest_of_mod {mode : Rnd} {draw : Nat} {neg : Bool} {n s k : Nat} (h : nearest mode draw neg n (2 ^ s) k)
    (hmod : n % 2 ^ s = 0) : k = n / 2 ^ s := by
  rw [roundsUp_of_nearest h, hmod]; rfl

theorem mod_eq_zero_iff_of_nearest {mode : Rnd} {draw : Nat} {neg : Bool} {n s k : Nat} (h : nearest mode draw neg n (2 ^ s) k) :
    n % 2 ^ s = 0 ↔ k * 2 ^ s = n := by
  refine ⟨fun hmod => ?_, fun hk => by rw [← hk, Nat.mul_mod_left]⟩
  rw [eq_of_nearest_of_mod h hmod, Nat.div_mul_cancel (Nat.dvd_of_mod_eq_zero hmod)]

/-! ### Conversions -/

theorem intOf_of_isFloat {t : Ty} (h : Statements.isFloat t) : intOf t = none := by
  simp only [Statements.isFloat, List.mem_cons, List.not_mem_nil, or_false] at h
  rcases h with rfl | rfl | rfl | rfl | rfl | rfl | rfl | rfl | rfl <;> rfl

/-- An integer source, read as its type reads it. -/
theorem source_eq_readAs (w : Nat) (sg : Bool) (v : Nat) : (if sg then signedOf w v else (v % 2 ^ w : Nat) : Int) = readAs sg (BitVec.ofNat w v) := by
  cases sg with
  | true => exact signedOf_eq_toInt w v
  | false => rw [readAs, if_neg Bool.false_ne_true, if_neg Bool.false_ne_true, BitVec.toNat_ofNat]

theorem intRange_eq (w : Nat) (sg : Bool) : intRange w sg = (lowest w sg, highest w sg) := by
  cases sg <;> simp [intRange, lowest, highest]

theorem lowest_le_highest (w : Nat) (sg : Bool) : lowest w sg ≤ highest w sg := by
  have h1 : (1 : Int) ≤ 2 ^ (w - 1) := by exact_mod_cast Nat.one_le_two_pow
  have h2 : (1 : Int) ≤ 2 ^ w := by exact_mod_cast Nat.one_le_two_pow
  cases sg <;> simp only [lowest, highest, Bool.false_eq_true, if_false, if_true] <;> omega

section
variable {src dst : Ty} (mode : Rnd) (draw : Nat) (sat : Bool) (v : Nat)

theorem convert_intInt {ws wd : Nat} {ss sd : Bool} (hs : intOf src = some (ws, ss)) (hd : intOf dst = some (wd, sd)) :
    convert src dst mode draw sat v = (wrap wd (if sat then clampInt (intRange wd sd) (readAs ss (BitVec.ofNat ws v))
      else readAs ss (BitVec.ofNat ws v)), 0) := by
  simp only [convert, hs, hd, source_eq_readAs]

theorem convert_intFloat {ws : Nat} {ss : Bool} (hs : intOf src = some (ws, ss)) (hd : Statements.isFloat dst) :
    convert src dst mode draw sat v = roundFin (fmtOf dst) mode draw (sat && (fmtOf dst).inf)
      (decide (readAs ss (BitVec.ofNat ws v) < 0)) (readAs ss (BitVec.ofNat ws v)).natAbs 0 := by
  simp only [convert, hs, intOf_of_isFloat hd, source_eq_readAs]

theorem convert_floatInt {w : Nat} {sg : Bool} (hs : Statements.isFloat src) (hd : intOf dst = some (w, sg)) :
    convert src dst mode draw sat v = floatToInt w sg mode draw (sourceFp src v) := by
  simp only [convert, hd, intOf_of_isFloat hs, sourceFp]

theorem convert_floatFloat (hs : Statements.isFloat src) (hd : Statements.isFloat dst) :
    convert src dst mode draw sat v = floatToFloat (fmtOf dst) (src == dst) mode draw sat (sourceFp src v) := by
  simp only [convert, intOf_of_isFloat hs, intOf_of_isFloat hd, sourceFp]

end

/-- Rounded to an integer of the type's range, or clamped to it. -/
theorem floatToInt_fin {mode : Rnd} {draw : Nat} {n : Bool} {m k : Nat} {e : Int} (w : Nat) (sg : Bool)
    (h : nearest mode draw n (numOf m e) (denOf e) k) : floatToInt w sg mode draw (.fin n m e) =
      if signedBy n k < lowest w sg ∨ highest w sg < signedBy n k then ((BitVec.ofInt w (clampInt (intRange w sg) (signedBy n k))).toNat, 0x8)
      else ((BitVec.ofInt w (signedBy n k)).toNat, if k * denOf e = numOf m e then 0 else 0x80) := by
  simp only [floatToInt, roundAt_of_nearest h, wrap_eq_toNat_ofInt, intRange_eq]
  have hflag : flagIf (numOf m e % denOf e != 0) fNX = if k * denOf e = numOf m e then 0 else 0x80 := by
    rw [denOf] at h ⊢
    simp only [flagIf, bne_iff_ne, ne_eq, mod_eq_zero_iff_of_nearest h, ite_not]
    rfl
  rw [hflag]
  rfl

theorem float_of_mem_infinite {t : Ty} (h : t ∈ [Ty.f64, .f32, .bf16, .f16, .e5m2]) : Statements.isFloat t ∧ (fmtOf t).inf = true := by
  simp only [List.mem_cons, List.not_mem_nil, or_false] at h
  rcases h with rfl | rfl | rfl | rfl | rfl <;> exact ⟨by simp [Statements.isFloat], rfl⟩

theorem float_of_mem_small {t : Ty} (h : t ∈ [Ty.e3m2, .e2m3, .e2m1]) :
    Statements.isFloat t ∧ (fmtOf t).inf = false ∧ (fmtOf t).nan = none := by
  simp only [List.mem_cons, List.not_mem_nil, or_false] at h
  rcases h with rfl | rfl | rfl <;> exact ⟨by simp [Statements.isFloat], rfl, rfl⟩

/-- A format without infinities has no signalling NaN. -/
theorem decodeFp_nan_quiet {f : Fmt} (hinf : f.inf = false) {v : Nat} {q : Bool} (h : decodeFp f v = .nan q) : q = false := by
  simp only [decodeFp, hinf, Bool.false_and, Bool.false_eq_true, if_false] at h
  split at h
  · cases h; rfl
  · split at h <;> cases h

/-- Each row of R105 and R106 is what the conversion computes. -/
theorem convert_eq {src dst : Ty} {mode : Rnd} {draw : Nat} {sat : Bool} {v : Nat} {r : Nat × Flags} (h : Converts src dst mode draw sat v r) :
    convert src dst mode draw sat v = r := by
  cases h with
  | intInt _ _ ws ss wd sd _ _ _ _ x from' dest value =>
    rw [convert_intInt mode draw sat v from' dest, value, wrap_eq_toNat_ofInt, intRange_eq, clampInt_eq (lowest_le_highest wd sd)]
  | intExact _ _ ws ss _ _ _ _ x r m e from' dest value has same =>
    rw [convert_intFloat mode draw sat v from' dest, ← value, roundFin_sameValue same]
    exact roundFin_decodeFp (fmtOf_regular dst) has.1 has.2 mode draw _
  | intFloat _ _ ws ss _ _ _ _ x from' dest value => rw [convert_intFloat mode draw sat v from' dest, value]
  | floatInt _ _ w sg _ _ _ _ n m e k from' dest value rounds inside =>
    rw [convert_floatInt mode draw sat v from' dest, value, floatToInt_fin w sg rounds, if_neg (by omega)]
  | floatBelow _ _ w sg _ _ _ _ n m e k from' dest value rounds outside =>
    rw [convert_floatInt mode draw sat v from' dest, value, floatToInt_fin w sg rounds, if_pos (.inl outside), intRange_eq, clampInt, if_pos outside]
  | floatAbove _ _ w sg _ _ _ _ n m e k from' dest value rounds outside =>
    have := lowest_le_highest w sg
    rw [convert_floatInt mode draw sat v from' dest, value, floatToInt_fin w sg rounds, if_pos (.inr outside), intRange_eq, clampInt,
      if_neg (show ¬signedBy n k < lowest w sg by omega), if_pos outside]
  | nanInt _ _ w sg _ _ _ _ q from' dest value => rw [convert_floatInt mode draw sat v from' dest, value]; rfl
  | infInt _ _ w sg _ _ _ _ n from' dest value =>
    rw [convert_floatInt mode draw sat v from' dest, value]
    simp only [floatToInt, intRange_eq, wrap_eq_toNat_ofInt]
    rfl
  | exact _ _ _ _ _ _ n m e r k g from' dest value has same =>
    rw [convert_floatFloat mode draw sat v from' dest, value]
    exact (roundFin_sameValue same ..).trans (roundFin_decodeFp (fmtOf_regular dst) has.1 has.2 mode draw _)
  | narrow _ _ _ _ _ _ n m e from' dest value => rw [convert_floatFloat mode draw sat v from' dest, value]; rfl
  | nan _ _ _ _ _ q from' dest value =>
    obtain ⟨hfloat, hinf⟩ := float_of_mem_infinite dest
    rw [convert_floatFloat mode draw false v from' hfloat, value]
    simp only [floatToFloat, hinf]
    rfl
  | nanSat _ _ _ _ _ q from' dest value other =>
    obtain ⟨hfloat, hinf⟩ := float_of_mem_infinite dest
    rw [convert_floatFloat mode draw true v from' hfloat, value]
    simp only [floatToFloat, hinf]
    rfl
  | nanE4m3 _ _ _ _ _ q from' other value =>
    rw [convert_floatFloat mode draw sat v from' (by simp [Statements.isFloat]), value, beq_false_of_ne other]
    cases sat <;> rfl
  | nanSame _ _ _ _ q value =>
    obtain rfl : q = false := decodeFp_nan_quiet (f := fmtOf .e4m3) rfl value
    rw [convert_floatFloat mode draw sat v (by simp [Statements.isFloat]) (by simp [Statements.isFloat]), value]
    cases sat <;> rfl
  | nanSmall _ _ _ _ _ _ q from' dest value =>
    obtain ⟨hfloat, hinf, hnan⟩ := float_of_mem_small dest
    rw [convert_floatFloat mode draw sat v from' hfloat, value]
    simp [floatToFloat, hinf, hnan, fNV]
  | inf _ _ _ _ _ n r from' dest value has =>
    obtain ⟨hinf, rfl⟩ := decodeFp_inf (fmtOf_regular dst) has.1 has.2
    rw [convert_floatFloat mode draw false v from' dest, value]
    simp [floatToFloat, hinf]
  | infMax _ _ _ _ _ _ n from' dest value other none =>
    rw [convert_floatFloat mode draw sat v from' dest, value]
    have hmax : ((fmtOf dst).inf && !sat) = false := by rcases none with rfl | h <;> simp [*]
    simp only [floatToFloat, hmax]
    rfl

/-- Settles O26. -/
theorem conversions : Obligations.Conversions := fun _ _ _ _ _ _ _ h => convert_eq h

end Sys2Proof.Machine
end

section
/-! PROOFS. Minima, maxima and integral values (R151, R154): an order of encodings in which −0 stands below +0, and the rounding of a
value to an integer of its own format. -/
namespace Sys2Proof.Machine
open Sys2Proof Sys2Proof.Statements

/-! ### Numbers at a common place -/

theorem signedBy_mul (neg : Bool) (k c : Nat) : signedBy neg (k * c) = signedBy neg k * c := by
  cases neg <;> simp [signedBy]

/-- A finite value whose last place is at 2^q or above; the other values have none. -/
def Fp.placedAt (q : Int) : Fp → Prop
  | .fin _ _ e => q ≤ e
  | _ => True

theorem unitsAt_lower (x : Fp) {p q : Int} (hpq : p ≤ q) (hx : x.placedAt q) : unitsAt p x = unitsAt q x * (2 ^ (q - p).toNat : Nat) := by
  cases x with
  | nan | inf => exact (zero_mul _).symm
  | fin n m e =>
    have hq : q ≤ e := hx
    rw [unitsAt, unitsAt, ← signedBy_mul, Nat.mul_assoc, ← Nat.pow_add, show (e - q).toNat + (q - p).toNat = (e - p).toNat by omega]

theorem two_pow_pos_int (k : Nat) : (0 : Int) < (2 ^ k : Nat) := by exact_mod_cast Nat.two_pow_pos k

/-- Of two finite values, the lesser has fewer units of a place below both. -/
theorem ltFp_fin {a b : Bool} {m n : Nat} {e g q : Int} (he : q ≤ e) (hg : q ≤ g) :
    ltFp (.fin a m e) (.fin b n g) = decide (unitsAt q (.fin a m e) < unitsAt q (.fin b n g)) := by
  have hmin : q ≤ min e g := le_min he hg
  rw [unitsAt_lower (.fin a m e) hmin (min_le_left e g), unitsAt_lower (.fin b n g) hmin (min_le_right e g)]
  simp only [mul_lt_mul_iff_left₀ (two_pow_pos_int _)]
  rfl

theorem below_iff_ltFp (x y : Fp) : below x y ↔ ltFp x y = true := by
  cases x with
  | nan => simp [below, ltFp]
  | inf a => cases a <;> cases y <;> simp [below, ltFp]
  | fin a m e =>
    cases y with
    | nan => simp [below, ltFp]
    | inf b => simp [below, ltFp]
    | fin b n g =>
      obtain ⟨c, hm, hn⟩ := numOf_mul_denOf e g
      rw [below, hm, hn, signedBy_mul _ _ (2 ^ c), signedBy_mul _ _ (2 ^ c), mul_lt_mul_iff_left₀ (two_pow_pos_int c), ltFp_fin (min_le_left e g) (min_le_right e g),
        decide_eq_true_eq]
      rfl

/-! ### The order of encodings -/

/-- Numbers in order, −0 below +0: twice the units of a place, one less for a negative sign. -/
def rank (q : Int) : Fp → WithBot (WithTop Int)
  | .inf true => ⊥
  | .fin n m e => ((2 * unitsAt q (.fin n m e) - if n then 1 else 0 : Int) : WithTop Int)
  | _ => (⊤ : WithTop Int)

/-- Whether FMIN takes its first operand. -/
def firstIsLess (x y : Fp) : Bool := ltFp x y || (!ltFp y x && x.neg)

theorem rank_le_of_firstIsLess {q : Int} {x y : Fp} (hx : x.isNaN = false) (hy : y.isNaN = false) (px : x.placedAt q) (py : y.placedAt q)
    (h : firstIsLess x y = true) : rank q x ≤ rank q y := by
  cases x with
  | nan => cases hx
  | inf a => cases a with
    | true => exact bot_le
    | false => cases y with
      | nan => cases hy
      | inf b => cases b with
        | true => cases h
        | false => exact le_refl _
      | fin b n g => cases h
  | fin a m e => cases y with
    | nan => cases hy
    | inf b => cases b with
      | true => cases h
      | false => exact WithBot.coe_le_coe.mpr le_top
    | fin b n g =>
      rw [firstIsLess, ltFp_fin px py, ltFp_fin py px] at h
      refine WithBot.coe_le_coe.mpr (WithTop.coe_le_coe.mpr ?_)
      cases a <;> cases b <;> simp [Fp.neg] at h ⊢ <;> omega

theorem rank_le_of_not_firstIsLess {q : Int} {x y : Fp} (hx : x.isNaN = false) (hy : y.isNaN = false) (px : x.placedAt q) (py : y.placedAt q)
    (h : firstIsLess x y = false) : rank q y ≤ rank q x := by
  cases x with
  | nan => cases hx
  | inf a => cases a with
    | true => cases y with
      | nan => cases hy
      | inf b => cases b <;> cases h
      | fin b n g => cases h
    | false => cases y with
      | nan => cases hy
      | inf b => cases b with
        | true => exact bot_le
        | false => exact le_refl _
      | fin b n g => exact WithBot.coe_le_coe.mpr le_top
  | fin a m e => cases y with
    | nan => cases hy
    | inf b => cases b with
      | true => exact bot_le
      | false => cases h
    | fin b n g =>
      rw [firstIsLess, ltFp_fin px py, ltFp_fin py px] at h
      refine WithBot.coe_le_coe.mpr (WithTop.coe_le_coe.mpr ?_)
      cases a <;> cases b <;> simp [Fp.neg] at h ⊢ <;> omega

/-- The units of a finite value have its sign, and are 0 with its fraction. -/
theorem unitsAt_fin (q : Int) (n : Bool) (m : Nat) (e : Int) :
    (n = true → unitsAt q (.fin n m e) ≤ 0) ∧ (n = false → 0 ≤ unitsAt q (.fin n m e)) ∧ (unitsAt q (.fin n m e) = 0 ↔ m = 0) := by
  have hpow := (Nat.two_pow_pos (e - q).toNat).ne'
  cases n <;> simp [unitsAt, signedBy]

theorem rank_fin_lt {q : Int} {a b : Bool} {m n : Nat} {e g : Int} : rank q (.fin a m e) < rank q (.fin b n g) ↔
    2 * unitsAt q (.fin a m e) - (if a then 1 else 0) < 2 * unitsAt q (.fin b n g) - if b then 1 else 0 := by
  rw [rank, rank, WithBot.coe_lt_coe, WithTop.coe_lt_coe]

/-- A number of lower rank is less, or is −0 beside +0. -/
theorem ltFp_of_rank_lt {q : Int} {x y : Fp} (hx : x.isNaN = false) (hy : y.isNaN = false) (px : x.placedAt q) (py : y.placedAt q)
    (h : rank q x < rank q y) : ltFp x y = true ∨ ∃ e g, x = .fin true 0 e ∧ y = .fin false 0 g := by
  cases x with
  | nan => cases hx
  | inf a => cases a with
    | true => cases y with
      | nan => cases hy
      | inf b => cases b with
        | true => exact absurd h (lt_irrefl _)
        | false => exact .inl rfl
      | fin => exact .inl rfl
    | false =>
      have htop : rank q y ≤ (⊤ : WithTop Int) := by cases y <;> simp [rank]
      exact absurd h (not_lt.mpr htop)
  | fin a m e => cases y with
    | nan => cases hy
    | inf b => cases b with
      | true => exact absurd h not_lt_bot
      | false => exact .inl rfl
    | fin b n g =>
      rw [ltFp_fin px py, decide_eq_true_eq]
      rw [rank_fin_lt] at h
      obtain ⟨ha, ha', ha0⟩ := unitsAt_fin q a m e
      obtain ⟨hb, hb', hb0⟩ := unitsAt_fin q b n g
      by_contra hne
      rw [not_or] at hne
      obtain ⟨hlt, hzero⟩ := hne
      cases a <;> cases b <;> simp only [Bool.false_eq_true, if_false, if_true] at h
      · omega
      · omega
      · obtain rfl := ha0.mp (by have := ha rfl; have := hb' rfl; omega)
        obtain rfl := hb0.mp (by have := ha rfl; have := hb' rfl; omega)
        exact hzero ⟨e, g, rfl, rfl⟩
      · omega

/-- Numbers of one rank have one encoding. -/
theorem encoding_eq_of_rank {f : Fmt} (hf : f.Regular) {q : Int} {v w : Nat} (hv : v < 2 ^ f.bits) (hw : w < 2 ^ f.bits)
    (nv : (decodeFp f v).isNaN = false) (nw : (decodeFp f w).isNaN = false) (pv : (decodeFp f v).placedAt q) (pw : (decodeFp f w).placedAt q)
    (h : rank q (decodeFp f v) = rank q (decodeFp f w)) : v = w := by
  cases hx : decodeFp f v with
  | nan => rw [hx] at nv; cases nv
  | inf a =>
    cases hy : decodeFp f w with
    | nan => rw [hy] at nw; cases nw
    | inf b =>
      rw [hx, hy] at h
      obtain rfl : a = b := by cases a <;> cases b <;> simp [rank] at h ⊢
      rw [(decodeFp_inf hf hv hx).2, (decodeFp_inf hf hw hy).2]
    | fin => rw [hx, hy] at h; cases a <;> cases h
  | fin a m e =>
    cases hy : decodeFp f w with
    | nan => rw [hy] at nw; cases nw
    | inf b => rw [hx, hy] at h; cases b <;> cases h
    | fin b n g =>
      rw [hx] at pv h
      rw [hy] at pw h
      rw [rank, rank, WithBot.coe_inj, WithTop.coe_inj] at h
      obtain rfl : a = b := by cases a <;> cases b <;> simp only [Bool.false_eq_true, if_false, if_true] at h ⊢ <;> omega
      have hunits : unitsAt q (.fin a m e) = unitsAt q (.fin a n g) := by omega
      refine encoding_inj hf hv hw hx hy ((sameValue_iff m n pv pw).mpr ?_)
      cases a <;> simp only [unitsAt, signedBy, Bool.false_eq_true, if_false, if_true] at hunits <;> exact_mod_cast (by omega)

/-- An encoding's last place is that of the least step of its format, or above. -/
theorem decodeFp_placedAt {f : Fmt} (hf : f.Regular) (v : Nat) : (decodeFp f v).placedAt (1 - f.bias - f.m) := by
  cases h : decodeFp f v with
  | nan | inf => exact trivial
  | fin n m e =>
    show 1 - (f.bias : Int) - f.m ≤ e
    obtain ⟨-, -, ⟨-, -, rfl⟩ | ⟨k, hk, -, -, -, rfl⟩⟩ := decodeFp_fin hf h <;> omega

/-! ### FMIN and FMAX (R151) -/

theorem nvOf_number {x : Fp} (h : x.isNaN = false) : nvOf x = 0 := by
  cases x with
  | nan => cases h
  | inf | fin => rfl

theorem isNaN_nan (q : Bool) : (Fp.nan q).isNaN = true := rfl

theorem nvOf_nan (q : Bool) : nvOf (.nan q) = if q then 0x8 else 0 := by cases q <;> rfl

theorem numbers_of_ltFp {x y : Fp} (h : ltFp x y = true) : x.isNaN = false ∧ y.isNaN = false := by
  cases x with
  | nan => cases h
  | inf a | fin a m e => cases y with
    | nan => cases h
    | inf | fin => exact ⟨rfl, rfl⟩

section
variable {f : Fmt} {a b : Nat} (isMax num : Bool)

/-- The operand of two numbers that FMIN or FMAX takes. -/
theorem minmaxBits_numbers (ha : (decodeFp f a).isNaN = false) (hb : (decodeFp f b).isNaN = false) :
    minmaxBits f isMax num a b = (if firstIsLess (decodeFp f a) (decodeFp f b) != isMax then a else b, 0) := by
  simp only [minmaxBits, ha, hb, nvOf_number]
  rfl

theorem minmaxBits_first (ha : (decodeFp f a).isNaN = false) (hb : (decodeFp f b).isNaN = false)
    (h : firstIsLess (decodeFp f a) (decodeFp f b) = true) : minmaxBits f isMax num a b = (if isMax then b else a, 0) := by
  rw [minmaxBits_numbers isMax num ha hb, h]; cases isMax <;> rfl

theorem minmaxBits_second (ha : (decodeFp f a).isNaN = false) (hb : (decodeFp f b).isNaN = false)
    (h : firstIsLess (decodeFp f a) (decodeFp f b) = false) : minmaxBits f isMax num a b = (if isMax then a else b, 0) := by
  rw [minmaxBits_numbers isMax num ha hb, h]; cases isMax <;> rfl

theorem firstIsLess_zeros (e g : Int) : firstIsLess (.fin true 0 e) (.fin false 0 g) = true ∧ firstIsLess (.fin false 0 e) (.fin true 0 g) = false := by
  simp [firstIsLess, ltFp, signedAt, Fp.neg]

/-- Each row of R151 is what the model computes. -/
theorem minmaxBits_eq {r : Nat × Flags} (h : MinMax f isMax num a b r) : minmaxBits f isMax num a b = r := by
  cases h with
  | less _ lt =>
    rw [below_iff_ltFp] at lt
    obtain ⟨ha, hb⟩ := numbers_of_ltFp lt
    exact minmaxBits_first isMax num ha hb (by rw [firstIsLess, lt, Bool.true_or])
  | greater _ gt =>
    rw [below_iff_ltFp] at gt
    obtain ⟨hb, ha⟩ := numbers_of_ltFp gt
    exact minmaxBits_second isMax num ha hb (by rw [firstIsLess, ltFp_asymm gt, gt]; rfl)
  | same number => rw [minmaxBits_numbers isMax num number number, ite_self]
  | zeros _ e g neg pos =>
    exact minmaxBits_first isMax num (by rw [neg]; rfl) (by rw [pos]; rfl) (by rw [neg, pos]; exact (firstIsLess_zeros e g).1)
  | zeros' _ e g pos neg =>
    exact minmaxBits_second isMax num (by rw [pos]; rfl) (by rw [neg]; rfl) (by rw [neg, pos]; exact (firstIsLess_zeros e g).2)
  | nanLeft _ q nan number => simp [minmaxBits, nan, number, nvOf_number number, nvOf_nan, isNaN_nan]
  | nanRight _ q number nan => simp [minmaxBits, nan, number, nvOf_number number, nvOf_nan, isNaN_nan]
  | nans _ q r left right =>
    simp only [minmaxBits, left, right, nvOf_nan, isNaN_nan]
    cases q <;> cases r <;> rfl

end

/-! ### FRND (R154) -/

/-- A value that is an integer rounds to itself; another to the integer that the mode gives, whose encoding is the result. -/
theorem integralBits_eq {t : Ty} {mode : Rnd} {draw v : Nat} {r : Nat × Flags} (h : Integral t mode draw v r) :
    integralBits (fmtOf t) mode draw v = r := by
  have hf := fmtOf_regular t
  cases h with
  | nan q form value => simp only [integralBits, value]; rfl
  | inf n form value => simp only [integralBits, value]
  | whole n m e k form value integral =>
    obtain ⟨hv, hvalue⟩ := value
    simp only [integralBits, hvalue]
    split
    · rfl
    next he =>
      have hmod : numOf m e % 2 ^ (-e).toNat = 0 := by rw [integral, denOf, Nat.mul_mod_left]
      have hk : (roundAt mode draw n m e 0).1 = k := by
        rw [roundAt_zero, denOf, hmod, integral, denOf, Nat.mul_div_cancel _ (Nat.two_pow_pos _)]; rfl
      have hsame : sameValue k 0 m e := by rw [sameValue, integral]; simp [numOf, denOf]
      rw [hk, roundFin_sameValue hsame, roundFin_decodeFp hf hv hvalue]
  | rounds n m e k r m' e' form value near result same =>
    obtain ⟨hv, hvalue⟩ := value
    obtain ⟨hr, hresult⟩ := result
    simp only [integralBits, hvalue]
    split
    next he =>
      have hden : denOf e = 2 ^ 0 := by rw [denOf, show (-e).toNat = 0 by omega]
      have hk : k = numOf m e := by
        rw [hden] at near
        rw [eq_of_nearest_of_mod near (by rw [Nat.pow_zero, Nat.mod_one]), Nat.pow_zero, Nat.div_one]
      have hsame : sameValue m e k 0 := by rw [sameValue, hk, hden]; simp [numOf, denOf]
      have hround : roundFin (fmtOf t) .rne 0 false n m e = (r, 0) := by
        rw [roundFin_sameValue hsame, roundFin_sameValue same, roundFin_decodeFp hf hr hresult]
      rw [← hround, roundFin_decodeFp hf hv hvalue]
    next he =>
      rw [roundAt_of_nearest near]
      show ((roundFin (fmtOf t) .rtz 0 false n k 0).1, (0 : Flags)) = (r, 0)
      rw [roundFin_sameValue same, roundFin_decodeFp hf hr hresult]

/-- Settles O27. -/
theorem minimaAndIntegers : Obligations.MinimaAndIntegers :=
  ⟨fun _ isMax num _ _ _ _ h => minmaxBits_eq isMax num h, fun _ _ _ _ _ h => integralBits_eq h⟩

end Sys2Proof.Machine
end

section
/-! PROOFS. Sums and extremes of reductions and scans (R163, R164): the fold of the exact sum, and the fold of the lesser or the greater. -/
namespace Sys2Proof.Machine
open Sys2Proof Sys2Proof.Statements

/-! ### Flags -/

theorem signals_nil : signals [] = 0 := rfl

theorem signals_cons (x : Fp) (xs : List Fp) : signals (x :: xs) = nvOf x ||| signals xs := by
  have hx : nvOf x = if x == .nan true then 0x8 else 0 := by
    cases x with
    | nan q => cases q <;> rfl
    | inf | fin => rfl
  rw [hx, signals, signals, List.any_cons]
  cases x == .nan true <;> cases xs.any (· == .nan true) <;> rfl

theorem signals_numbers {xs : List Fp} (h : ∀ x ∈ xs, x.isNaN = false) : signals xs = 0 := by
  induction xs with
  | nil => rfl
  | cons x xs ih =>
    rw [signals_cons, nvOf_number (h x (by simp)), ih fun y hy => h y (by simp [hy])]; rfl

/-- NV of an exact sum without infinities of both signs is that of its signalling NaNs. -/
theorem sumNv_eq_signals {xs : List Fp} {n : Bool} (h : .inf n ∉ xs) : sumNv xs = signals xs := by
  have hboth : (xs.any (fun x => x == .inf false) && xs.any fun x => x == .inf true) = false := by
    rw [Bool.eq_false_iff, ne_eq, Bool.and_eq_true, List.any_eq_true, List.any_eq_true]
    rintro ⟨⟨x, hx, hx'⟩, y, hy, hy'⟩
    rw [beq_iff_eq] at hx' hy'
    subst hx' hy'
    cases n with
    | true => exact h hy
    | false => exact h hx
  rw [sumNv, hboth, Bool.or_false]
  rfl

theorem sumNv_both {xs : List Fp} (hpos : .inf false ∈ xs) (hneg : .inf true ∈ xs) : sumNv xs = 0x8 := by
  have hboth : (xs.any (fun x => x == .inf false) && xs.any fun x => x == .inf true) = true := by
    rw [Bool.and_eq_true, List.any_eq_true, List.any_eq_true]
    exact ⟨⟨_, hpos, beq_self_eq_true _⟩, _, hneg, beq_self_eq_true _⟩
  rw [sumNv, hboth, Bool.or_true]; rfl

/-! ### The exact sum of two values -/

theorem addFp_isNaN (rdn : Bool) {x y : Fp} (h : (x.isNaN || y.isNaN) = true) : (addFp rdn x y).1 = .nan false := by
  cases x with
  | nan => rfl
  | inf | fin => cases y with
    | nan => rfl
    | inf | fin => cases h

theorem addFp_inf_ne (rdn : Bool) {a b : Bool} (h : a ≠ b) : (addFp rdn (.inf a) (.inf b)).1 = .nan false := by
  simp [addFp, h]

/-- An infinity stays, beside numbers that are not the other one. -/
theorem addFp_inf_left (rdn : Bool) {a : Bool} {y : Fp} (hy : y.isNaN = false) (hne : y ≠ .inf !a) : (addFp rdn (.inf a) y).1 = .inf a := by
  cases y with
  | nan => cases hy
  | inf b =>
    have : a = b := by cases a <;> cases b <;> simp at hne ⊢
    simp [addFp, this]
  | fin => rfl

theorem addFp_comm_inf (rdn : Bool) (a n : Bool) (m : Nat) (e : Int) : (addFp rdn (.fin n m e) (.inf a)).1 = .inf a := rfl

/-- Of two finite values: the sum's units are the sum of the units, at any place below both and below the units'; a zero sum is −0 when
both are. -/
theorem addFp_fin {a b : Bool} {m n : Nat} {e g q : Int} (he : q ≤ e) (hg : q ≤ g) (hq : q ≤ 0) :
    ∃ s k h, (addFp false (.fin a m e) (.fin b n g)).1 = .fin s k h ∧ q ≤ h ∧
      unitsAt q (.fin s k h) = unitsAt q (.fin a m e) + unitsAt q (.fin b n g) ∧ (s && k == 0) = ((a && m == 0) && (b && n == 0)) := by
  by_cases h0 : m = 0 ∧ n = 0
  · refine ⟨a && b, 0, 0, ?_, hq, ?_, ?_⟩
    · simp only [addFp, if_pos h0]; cases a <;> cases b <;> rfl
    · rw [(unitsAt_fin q _ 0 0).2.2.mpr rfl, (unitsAt_fin q a m e).2.2.mpr h0.1, (unitsAt_fin q b n g).2.2.mpr h0.2, add_zero]
    · simp [h0.1, h0.2]
  · have hle : unitsAt q (.fin a m e) + unitsAt q (.fin b n g) =
        (signedAt a m e (min e g) + signedAt b n g (min e g)) * (2 ^ (min e g - q).toNat : Nat) := by
      rw [unitsAt_lower (.fin a m e) (le_min he hg) (min_le_left e g), unitsAt_lower (.fin b n g) (le_min he hg) (min_le_right e g), ← add_mul]
      rfl
    have hzero : ¬((a && m == 0) && (b && n == 0)) = true := by simp; tauto
    rw [Bool.not_eq_true] at hzero
    simp only [addFp, if_neg h0]
    generalize signedAt a m e (min e g) + signedAt b n g (min e g) = t at hle
    rw [hle, hzero]
    split
    next ht =>
      subst ht
      exact ⟨false, 0, 0, rfl, hq, by rw [(unitsAt_fin q _ 0 0).2.2.mpr rfl, zero_mul], rfl⟩
    next ht =>
      refine ⟨decide (t < 0), t.natAbs, min e g, rfl, le_min he hg, ?_, by simp [ht]⟩
      rw [unitsAt, signedBy_mul]
      congr 1
      by_cases hneg : t < 0
      · rw [decide_eq_true hneg, signedBy, if_pos rfl]; omega
      · rw [decide_eq_false hneg, signedBy, if_neg Bool.false_ne_true]; omega

/-! ### The exact sum of a list -/

/-- The fold of the exact sum. -/
def sumFrom (x : Fp) (xs : List Fp) : Fp := xs.foldl (fun acc y => (addFp false acc y).1) x

theorem sumFrom_nan {x : Fp} {xs : List Fp} (h : ∃ y ∈ x :: xs, y.isNaN = true) : (sumFrom x xs).isNaN = true := by
  induction xs generalizing x with
  | nil =>
    obtain ⟨y, hy, hnan⟩ := h
    rw [List.mem_singleton] at hy
    exact hy ▸ hnan
  | cons z zs ih =>
    refine ih ?_
    obtain ⟨y, hy, hnan⟩ := h
    rcases List.mem_cons.mp hy with rfl | hy
    · exact ⟨_, List.mem_cons_self, congrArg Fp.isNaN (addFp_isNaN false (by rw [hnan]; rfl))⟩
    · rcases List.mem_cons.mp hy with rfl | hy
      · exact ⟨_, List.mem_cons_self, congrArg Fp.isNaN (addFp_isNaN false (by rw [hnan, Bool.or_true]))⟩
      · exact ⟨y, List.mem_cons_of_mem _ hy, hnan⟩

theorem sumFrom_infs {x : Fp} {xs : List Fp} (hpos : .inf false ∈ x :: xs) (hneg : .inf true ∈ x :: xs) : (sumFrom x xs).isNaN = true := by
  induction xs generalizing x with
  | nil =>
    rw [List.mem_singleton] at hpos hneg
    exact absurd (hpos.trans hneg.symm) (by simp)
  | cons z zs ih =>
    by_cases hnan : (addFp false x z).1.isNaN = true
    · exact sumFrom_nan (x := (addFp false x z).1) (xs := zs) ⟨_, List.mem_cons_self, hnan⟩
    have hx : x.isNaN = false := by
      by_contra hx; exact hnan (congrArg Fp.isNaN (addFp_isNaN false (by rw [Bool.not_eq_false] at hx; rw [hx]; rfl)))
    have hz : z.isNaN = false := by
      by_contra hz; exact hnan (congrArg Fp.isNaN (addFp_isNaN false (by rw [Bool.not_eq_false] at hz; rw [hz, Bool.or_true])))
    have hkeep (b : Bool) (hb : .inf b ∈ x :: z :: zs) : .inf b ∈ (addFp false x z).1 :: zs := by
      rcases List.mem_cons.mp hb with rfl | hb
      · have hne : z ≠ .inf !b := by rintro rfl; exact hnan (congrArg Fp.isNaN (addFp_inf_ne false (by simp)))
        rw [addFp_inf_left false hz hne]; exact List.mem_cons_self
      · rcases List.mem_cons.mp hb with rfl | hb
        · cases x with
          | nan => cases hx
          | inf a =>
            obtain rfl : a = b := by by_contra hne; exact hnan (congrArg Fp.isNaN (addFp_inf_ne false hne))
            rw [addFp_inf_left false hz (by simp)]; exact List.mem_cons_self
          | fin => exact List.mem_cons_self
        · exact List.mem_cons_of_mem _ hb
    exact ih (hkeep false hpos) (hkeep true hneg)

theorem sumFrom_inf {x : Fp} {xs : List Fp} {n : Bool} (hall : ∀ y ∈ x :: xs, y.isNaN = false) (hmem : .inf n ∈ x :: xs)
    (honly : .inf (!n) ∉ x :: xs) : sumFrom x xs = .inf n := by
  induction xs generalizing x with
  | nil => exact (List.mem_singleton.mp hmem).symm
  | cons z zs ih =>
    have hz := hall z (by simp)
    have hacc : (addFp false x z).1 = .inf n ∨ (∃ a m e, (addFp false x z).1 = .fin a m e) ∧ .inf n ∈ zs := by
      cases x with
      | nan => exact absurd (hall _ List.mem_cons_self) (by simp [Fp.isNaN])
      | inf a =>
        obtain rfl : a = n := by by_contra hne; exact honly (by rw [show (!n) = a by cases a <;> cases n <;> simp at hne ⊢]; exact List.mem_cons_self)
        exact .inl (addFp_inf_left false hz fun h => honly (by simp [h]))
      | fin a m e => cases z with
        | nan => cases hz
        | inf b =>
          obtain rfl : b = n := by by_contra hne; exact honly (by rw [show (!n) = b by cases b <;> cases n <;> simp at hne ⊢]; simp)
          exact .inl rfl
        | fin b k g =>
          obtain ⟨s, j, h, heq, -⟩ := addFp_fin (a := a) (b := b) (m := m) (n := k) (q := min (min e g) 0) (e := e) (g := g) (by omega) (by omega) (by omega)
          exact .inr ⟨⟨s, j, h, heq⟩, by simpa using hmem⟩
    refine ih (x := (addFp false x z).1) (fun y hy => ?_) ?_ fun h => ?_
    · rcases List.mem_cons.mp hy with rfl | hy
      · rcases hacc with h | ⟨⟨a, m, e, h⟩, -⟩ <;> rw [h] <;> rfl
      · exact hall y (by simp [hy])
    · rcases hacc with h | ⟨-, h⟩
      · rw [h]; exact List.mem_cons_self
      · exact List.mem_cons_of_mem _ h
    · rcases List.mem_cons.mp h with h' | h'
      · rcases hacc with h | ⟨⟨a, m, e, h⟩, -⟩ <;> rw [h] at h' <;> cases n <;> cases h'
      · exact honly (by simp [h'])

/-- −0. -/
def negZero : Fp → Bool
  | .fin n m _ => n && m == 0
  | _ => false

theorem sumFrom_fin {x : Fp} {xs : List Fp} {q : Int} (hq : q ≤ 0) (hall : ∀ y ∈ x :: xs, ∃ n m e, y = .fin n m e ∧ q ≤ e) :
    ∃ s k h, sumFrom x xs = .fin s k h ∧ q ≤ h ∧ unitsAt q (.fin s k h) = ((x :: xs).map (unitsAt q)).sum ∧
      (s && k == 0) = (x :: xs).all negZero := by
  induction xs generalizing x with
  | nil =>
    obtain ⟨n, m, e, rfl, he⟩ := hall x List.mem_cons_self
    exact ⟨n, m, e, rfl, he, by simp, by simp [negZero]⟩
  | cons z zs ih =>
    obtain ⟨a, m, e, rfl, he⟩ := hall x List.mem_cons_self
    obtain ⟨b, n, g, rfl, hg⟩ := hall z (by simp)
    obtain ⟨s, k, h, hadd, hh, hunits, hneg⟩ := addFp_fin (a := a) (b := b) (m := m) (n := n) he hg hq
    obtain ⟨s', k', h', hsum, hh', hunits', hneg'⟩ := ih (x := .fin s k h) (fun y hy => by
      rcases List.mem_cons.mp hy with rfl | hy
      · exact ⟨s, k, h, rfl, hh⟩
      · exact hall y (by simp [hy]))
    refine ⟨s', k', h', ?_, hh', ?_, ?_⟩
    · rw [← hsum, ← hadd]; rfl
    · rw [hunits', List.map_cons, List.map_cons, List.map_cons, List.sum_cons, List.sum_cons, List.sum_cons, hunits, add_assoc]
    · rw [hneg', List.all_cons, List.all_cons, List.all_cons, ← Bool.and_assoc]
      exact congrArg (· && _) hneg

/-! ### VRADD (R163) -/

theorem isF_of_form {t : Ty} (h : t = .f32 ∨ t = .f64) : isF t = true := by rcases h with rfl | rfl <;> rfl

theorem sumOf_float {t : Ty} (h : t = .f32 ∨ t = .f64) (v : Nat) (vs : List Nat) : sumOf t (v :: vs) =
    ((roundFp (fmtOf t) .rne 0 (sumFrom (decodeFp (fmtOf t) v) (vs.map (decodeFp (fmtOf t))))).1,
      (roundFp (fmtOf t) .rne 0 (sumFrom (decodeFp (fmtOf t) v) (vs.map (decodeFp (fmtOf t))))).2 |||
        sumNv ((v :: vs).map (decodeFp (fmtOf t)))) := by
  rw [sumOf, if_pos (isF_of_form h)]; rfl

theorem roundFp_nan (f : Fmt) (mode : Rnd) (draw : Nat) {x : Fp} (h : x.isNaN = true) : roundFp f mode draw x = (canonNaN f, 0) := by
  cases x with
  | nan => rfl
  | inf | fin => cases h

/-- The sum modulo 2^w, however the words are read. -/
theorem ofInt_sum_readAs {w : Nat} (sg : Bool) (vs : List Nat) :
    BitVec.ofInt w ((vs.map fun v => readAs sg (BitVec.ofNat w v)).sum) = BitVec.ofNat w vs.sum := by
  have hread (x : BitVec w) : BitVec.ofInt w (readAs sg x) = x := by
    cases sg with
    | true => exact BitVec.ofInt_toInt
    | false => rw [readAs, if_neg Bool.false_ne_true, BitVec.ofInt_natCast, BitVec.ofNat_toNat, BitVec.setWidth_eq]
  induction vs with
  | nil => rfl
  | cons v vs ih => rw [List.map_cons, List.sum_cons, List.sum_cons, BitVec.ofInt_add, ih, hread, BitVec.ofNat_add]

section
variable {t : Ty} (form : t = .f32 ∨ t = .f64) {vs : List Nat}
include form

theorem sumOf_nan (hne : vs ≠ []) (hnan : ∀ v r, vs = v :: r → (sumFrom (decodeFp (fmtOf t) v) (r.map (decodeFp (fmtOf t)))).isNaN = true) :
    sumOf t vs = (canonNaN (fmtOf t), sumNv (vs.map (decodeFp (fmtOf t)))) := by
  cases vs with
  | nil => exact absurd rfl hne
  | cons v r => rw [sumOf_float form, roundFp_nan _ _ _ (hnan v r rfl)]; exact congrArg (_, ·) BitVec.zero_or

/-- A list of finite values: their sum's units at a place below all and below the units', and its sign when it is zero. -/
theorem sumOf_fin {q : Int} (hne : vs ≠ []) (all : ∀ v ∈ vs, ∃ n m e, decodeFp (fmtOf t) v = .fin n m e ∧ q ≤ e) :
    ∃ s k h, sumOf t vs = roundFin (fmtOf t) .rne 0 false s k h ∧ min q 0 ≤ h ∧
      unitsAt (min q 0) (.fin s k h) = ((vs.map (decodeFp (fmtOf t))).map (unitsAt q)).sum * (2 ^ (q - min q 0).toNat : Nat) ∧
      (s && k == 0) = (vs.map (decodeFp (fmtOf t))).all negZero := by
  cases vs with
  | nil => exact absurd rfl hne
  | cons v r =>
    have hfin : ∀ y ∈ (v :: r).map (decodeFp (fmtOf t)), ∃ n m e, y = .fin n m e ∧ q ≤ e := by
      intro y hy
      obtain ⟨w, hw, rfl⟩ := List.mem_map.mp hy
      exact all w hw
    obtain ⟨s, k, h, hsum, hh, hunits, hneg⟩ := sumFrom_fin (min_le_right q 0) (x := decodeFp (fmtOf t) v) (xs := r.map (decodeFp (fmtOf t)))
      fun y hy => by
        obtain ⟨n, m, e, hfin, he⟩ := hfin y hy
        exact ⟨n, m, e, hfin, le_trans (min_le_left q 0) he⟩
    have hnv : sumNv ((v :: r).map (decodeFp (fmtOf t))) = 0 := by
      have hnoinf : .inf false ∉ (v :: r).map (decodeFp (fmtOf t)) := fun h => by
        obtain ⟨n, m, e, h, -⟩ := hfin _ h
        cases h
      rw [sumNv_eq_signals hnoinf, signals_numbers fun y hy => by obtain ⟨n, m, e, h, -⟩ := hfin y hy; rw [h]; rfl]
    refine ⟨s, k, h, ?_, hh, ?_, hneg⟩
    · rw [sumOf_float form, hsum, hnv]; exact congrArg (_, ·) BitVec.or_zero
    · rw [hunits, ← List.map_cons]
      generalize (v :: r).map (decodeFp (fmtOf t)) = xs at hfin
      induction xs with
      | nil => exact (zero_mul _).symm
      | cons x xs ih =>
        obtain ⟨n, m, e, rfl, he⟩ := hfin x List.mem_cons_self
        rw [List.map_cons, List.map_cons, List.sum_cons, List.sum_cons, ih fun y hy => hfin y (List.mem_cons_of_mem _ hy), add_mul,
          unitsAt_lower (.fin n m e) (min_le_left q 0) he]

end

theorem signedBy_natAbs (n : Bool) (k : Nat) : (signedBy n k).natAbs = k := by cases n <;> simp [signedBy]

/-- A finite value is rounded as the signed integer of its units. -/
theorem roundFin_units {s : Bool} {k : Nat} {h p q x : Int} (hh : p ≤ h) (hq : p ≤ q) (hx : x ≠ 0)
    (hunits : unitsAt p (.fin s k h) = x * (2 ^ (q - p).toNat : Nat)) (f : Fmt) (mode : Rnd) (draw : Nat) (sat : Bool) :
    roundFin f mode draw sat s k h = roundFin f mode draw sat (decide (x < 0)) x.natAbs q := by
  have hpos := two_pow_pos_int (q - p).toNat
  obtain ⟨hneg, hnonneg, -⟩ := unitsAt_fin p s k h
  rw [hunits] at hneg hnonneg
  have hs : s = decide (x < 0) := by
    cases s with
    | true => exact (decide_eq_true (lt_of_le_of_ne (nonpos_of_mul_nonpos_left (hneg rfl) hpos) hx)).symm
    | false => exact (decide_eq_false (not_lt.mpr (nonneg_of_mul_nonneg_left (hnonneg rfl) hpos))).symm
  have hsame : sameValue k h x.natAbs q := by
    rw [sameValue_iff k x.natAbs hh hq]
    have habs := congrArg Int.natAbs hunits
    rw [Int.natAbs_mul, Int.natAbs_natCast] at habs
    rw [← habs, unitsAt, signedBy_natAbs]
  rw [hs, roundFin_sameValue hsame]

/-- Each row of VRADD is what the model computes. -/
theorem sumOf_eq {t : Ty} {vs : List Nat} {r : Nat × Flags} (h : Sums t vs r) : sumOf t vs = r := by
  cases h with
  | ints _ form =>
    rw [ofInt_sum_readAs, BitVec.toNat_ofNat]
    simp only [List.mem_cons, List.not_mem_nil, or_false] at form
    rcases form with rfl | rfl | rfl | rfl <;> rfl
  | none form => rcases form with rfl | rfl <;> rfl
  | nan _ v q form mem nan oneSided =>
    obtain ⟨n, hn⟩ := oneSided
    have hside : .inf n ∉ vs.map (decodeFp (fmtOf t)) := fun h => by
      obtain ⟨w, hw, hw'⟩ := List.mem_map.mp h
      exact hn w hw hw'
    rw [sumOf_nan form (List.ne_nil_of_mem mem), sumNv_eq_signals hside]
    rintro w r rfl
    exact sumFrom_nan ⟨_, List.mem_map.mpr ⟨v, mem, rfl⟩, by rw [nan]; rfl⟩
  | infs _ v w form all pos neg =>
    have hpos := List.mem_map.mpr ⟨v, pos⟩
    have hneg := List.mem_map.mpr ⟨w, neg⟩
    rw [sumOf_nan form (List.ne_nil_of_mem pos.1), sumNv_both hpos hneg]
    rintro w r rfl
    exact sumFrom_infs hpos hneg
  | inf _ v n r form all mem only has =>
    have hf := fmtOf_regular t
    obtain ⟨hinf, rfl⟩ := decodeFp_inf hf has.1 has.2
    obtain ⟨w, ws, rfl⟩ := List.exists_cons_of_ne_nil (List.ne_nil_of_mem mem.1)
    have hnum : ∀ y ∈ (w :: ws).map (decodeFp (fmtOf t)), y.isNaN = false := fun y hy => by
      obtain ⟨u, hu, rfl⟩ := List.mem_map.mp hy
      exact all u hu
    have honly : .inf (!n) ∉ (w :: ws).map (decodeFp (fmtOf t)) := fun h => by
      obtain ⟨u, hu, hu'⟩ := List.mem_map.mp h
      exact only u hu hu'
    have hsum := sumFrom_inf (x := decodeFp (fmtOf t) w) (xs := ws.map (decodeFp (fmtOf t))) hnum (List.mem_map.mpr ⟨v, mem⟩) honly
    rw [sumOf_float form, hsum, sumNv_eq_signals honly, signals_numbers hnum, roundFp, if_pos hinf]
    exact congrArg (_, ·) BitVec.or_zero
  | finite _ q form all some' =>
    have hne : vs ≠ [] := by rintro rfl; exact some' rfl
    obtain ⟨s, k, h, hsum, hh, hunits, -⟩ := sumOf_fin form hne all
    rw [hsum]
    generalize ((vs.map (decodeFp (fmtOf t))).map (unitsAt q)).sum = x at *
    exact roundFin_units hh (min_le_left q 0) some' hunits _ _ _ _
  | zero _ q form some' all nothing =>
    obtain ⟨s, k, h, hsum, -, hunits, hneg⟩ := sumOf_fin form some' all
    rw [nothing, zero_mul] at hunits
    obtain rfl := (unitsAt_fin _ s k h).2.2.mp hunits
    rw [beq_self_eq_true, Bool.and_true, List.all_map] at hneg
    rw [hsum, roundFin, if_pos rfl, hneg, signBit]
    rfl

/-! ### Extremes of integers -/

/-- The bound that an extreme of nothing gives. -/
def identityOf (t : Ty) (isMax u : Bool) : Nat :=
  if isMax then (if u then 0 else 2 ^ (t.width - 1)) else (if u then 2 ^ t.width - 1 else 2 ^ (t.width - 1) - 1)

/-- The lesser, or the greater, of two integers. -/
def choose (t : Ty) (isMax u : Bool) (x y : Nat) : Nat := if isMax then maxBy u t.width x y else minBy u t.width x y

section
variable {t : Ty} (form : t ∈ [Ty.i32, .i64, .z32, .z64]) (isMax u : Bool)
include form

theorem extremeOf_int (vs : List Nat) : extremeOf t isMax u vs =
    (vs.foldl (choose t isMax (!(isSigned t && !u))) (identityOf t isMax (!(isSigned t && !u))), 0) := by
  simp only [List.mem_cons, List.not_mem_nil, or_false] at form
  rcases form with rfl | rfl | rfl | rfl <;> cases u <;> rfl

end

theorem orderOf_eq_signOr (t : Ty) (u : Bool) {v : Nat} (h : v < 2 ^ t.width) : Statements.orderOf t u v = signOr (!(isSigned t && !u)) t.width v := by
  have hv : (BitVec.ofNat t.width v).toNat = v := by rw [BitVec.toNat_ofNat, Nat.mod_eq_of_lt h]
  rw [Statements.orderOf, ← Bool.not_not (isSigned t && !u), ← signOr_eq_readAs, hv, Bool.not_not]

/-- Below or above, by the extreme wanted. -/
def atMost {α : Type} [LE α] (isMax : Bool) (x y : α) : Prop := if isMax then y ≤ x else x ≤ y

theorem atMost_refl {α : Type} [Preorder α] (isMax : Bool) (x : α) : atMost isMax x x := by cases isMax <;> exact le_refl x

theorem atMost_trans {α : Type} [Preorder α] {isMax : Bool} {x y z : α} (h : atMost isMax x y) (h' : atMost isMax y z) : atMost isMax x z := by
  cases isMax with
  | true => exact le_trans (show z ≤ y from h') h
  | false => exact le_trans (show x ≤ y from h) h'

theorem atMost_antisymm {α : Type} [PartialOrder α] {isMax : Bool} {x y : α} (h : atMost isMax x y) (h' : atMost isMax y x) : x = y := by
  cases isMax with
  | true => exact le_antisymm h' h
  | false => exact le_antisymm h h'

/-- A choice between two takes one of them, before which neither lies. -/
def Chooses {α : Type} [LE α] (isMax : Bool) (key : Nat → α) (c : Nat → Nat → Nat) (x y : Nat) : Prop :=
  (c x y = x ∨ c x y = y) ∧ atMost isMax (key (c x y)) (key x) ∧ atMost isMax (key (c x y)) (key y)

/-- Choosing along a list takes one of its members, before which none lies. -/
theorem foldl_chooses {α : Type} [Preorder α] {isMax : Bool} {key : Nat → α} {c : Nat → Nat → Nat} {P : Nat → Prop}
    (hc : ∀ x y, P x → P y → Chooses isMax key c x y) (vs : List Nat) {x : Nat} (hP : ∀ v ∈ x :: vs, P v) :
    vs.foldl c x ∈ x :: vs ∧ ∀ v ∈ x :: vs, atMost isMax (key (vs.foldl c x)) (key v) := by
  induction vs generalizing x with
  | nil => exact ⟨List.mem_cons_self, fun v hv => by rw [List.mem_singleton.mp hv]; exact atMost_refl _ _⟩
  | cons y ys ih =>
    obtain ⟨hone, hx, hy⟩ := hc x y (hP x (by simp)) (hP y (by simp))
    have hchosen : c x y ∈ x :: y :: ys := by rcases hone with h | h <;> rw [h] <;> simp
    obtain ⟨hmem, hall⟩ := ih (x := c x y) fun v hv => by
      rcases List.mem_cons.mp hv with rfl | hv
      · exact hP _ hchosen
      · exact hP v (by simp [hv])
    rw [List.foldl_cons]
    refine ⟨?_, fun v hv => ?_⟩
    · rcases List.mem_cons.mp hmem with h | h
      · rw [h]; exact hchosen
      · simp [h]
    · have hfirst := hall _ List.mem_cons_self
      rcases List.mem_cons.mp hv with rfl | hv
      · exact atMost_trans hfirst hx
      · rcases List.mem_cons.mp hv with rfl | hv
        · exact atMost_trans hfirst hy
        · exact hall v (List.mem_cons_of_mem _ hv)

theorem choose_chooses (t : Ty) (isMax u : Bool) (x y : Nat) : Chooses isMax (signOr u t.width) (choose t isMax u) x y := by
  cases isMax <;> simp only [Chooses, choose, minBy, maxBy, atMost, if_true, Bool.false_eq_true, if_false] <;> split <;>
    (refine ⟨by simp, ?_, ?_⟩ <;> omega)

theorem signOr_inj {w : Nat} {u : Bool} {x y : Nat} (hx : x < 2 ^ w) (hy : y < 2 ^ w) (h : signOr u w x = signOr u w y) : x = y := by
  have hnum (v : Nat) (hv : v < 2 ^ w) : (BitVec.ofNat w v).toNat = v := by rw [BitVec.toNat_ofNat, Nat.mod_eq_of_lt hv]
  cases u with
  | true => exact Int.ofNat.inj h
  | false =>
    rw [signOr, signOr, if_neg Bool.false_ne_true, if_neg Bool.false_ne_true, signedOf_eq_toInt, signedOf_eq_toInt, BitVec.toInt_inj] at h
    rw [← hnum x hx, h, hnum y hy]

/-- No number of the width lies beyond the bound. -/
theorem identityOf_spec (t : Ty) (isMax u : Bool) : identityOf t isMax u < 2 ^ t.width ∧
    ∀ v < 2 ^ t.width, atMost isMax (signOr u t.width v) (signOr u t.width (identityOf t isMax u)) := by
  have hwidth : t.width = 64 ∨ t.width = 32 := by rw [Ty.width]; split <;> simp
  rcases hwidth with h | h <;> cases isMax <;> cases u <;> simp [identityOf, atMost, signOr, signedOf, h] <;> omega

/-- The extreme of some integers is the one that none lies before. -/
theorem extremeOf_int_eq {t : Ty} (form : t ∈ [Ty.i32, .i64, .z32, .z64]) {isMax u : Bool} {vs : List Nat} {r : Nat}
    (fits : ∀ v ∈ vs, v < 2 ^ t.width) (mem : r ∈ vs)
    (best : ∀ v ∈ vs, atMost isMax (Statements.orderOf t u r) (Statements.orderOf t u v)) : extremeOf t isMax u vs = (r, 0) := by
  rw [extremeOf_int form]
  obtain ⟨hid, hbound⟩ := identityOf_spec t isMax (!(isSigned t && !u))
  obtain ⟨hmem, hall⟩ := foldl_chooses (P := fun _ => True) (fun x y _ _ => choose_chooses t isMax (!(isSigned t && !u)) x y) vs
    (x := identityOf t isMax (!(isSigned t && !u))) fun _ _ => trivial
  have hr := fits r mem
  refine congrArg (·, 0) (signOr_inj (u := !(isSigned t && !u)) ?_ hr (atMost_antisymm (hall r (List.mem_cons_of_mem _ mem)) ?_))
  · rcases List.mem_cons.mp hmem with h | h
    · rw [h]; exact hid
    · exact fits _ h
  · rcases List.mem_cons.mp hmem with h | h
    · rw [h]; exact hbound r hr
    · have := best _ h
      rwa [orderOf_eq_signOr t u hr, orderOf_eq_signOr t u (fits _ h)] at this

/-! ### Extremes of floating-point values -/

/-- One step of the fold: the lesser or the greater, and its flags with those before. -/
def stepFp (f : Fmt) (isMax : Bool) (p : Nat × Flags) (y : Nat) : Nat × Flags :=
  ((minmaxBits f isMax false p.1 y).1, p.2 ||| (minmaxBits f isMax false p.1 y).2)

theorem extremeOf_float {t : Ty} (form : t = .f32 ∨ t = .f64) (isMax u : Bool) (x y : Nat) (r : List Nat) :
    extremeOf t isMax u (x :: y :: r) = (y :: r).foldl (stepFp (fmtOf t) isMax) (x, 0) := by
  rw [extremeOf, if_pos (isF_of_form form)]; rfl

theorem extremeOf_single {t : Ty} (form : t = .f32 ∨ t = .f64) (isMax u : Bool) (x : Nat) : extremeOf t isMax u [x] =
    (if (decodeFp (fmtOf t) x).isNaN then canonNaN (fmtOf t) else x, nvOf (decodeFp (fmtOf t) x)) := by
  rw [extremeOf, if_pos (isF_of_form form)]

theorem minmaxBits_nan {f : Fmt} {a b : Nat} (isMax : Bool) (h : ((decodeFp f a).isNaN || (decodeFp f b).isNaN) = true) :
    minmaxBits f isMax false a b = (canonNaN f, nvOf (decodeFp f a) ||| nvOf (decodeFp f b)) := by
  simp only [minmaxBits]
  cases ha : (decodeFp f a).isNaN <;> cases hb : (decodeFp f b).isNaN
  · rw [ha, hb] at h; cases h
  all_goals rfl

section
variable {f : Fmt} (hcanon : decodeFp f (canonNaN f) = .nan false) (isMax : Bool)
include hcanon

/-- A NaN stays, and the signalling ones after it raise NV. -/
theorem foldl_stepFp_canonNaN (vs : List Nat) (fl : Flags) :
    vs.foldl (stepFp f isMax) (canonNaN f, fl) = (canonNaN f, fl ||| signals (vs.map (decodeFp f))) := by
  induction vs generalizing fl with
  | nil => exact congrArg (_, ·) (BitVec.or_zero).symm
  | cons y ys ih =>
    rw [List.foldl_cons, stepFp, minmaxBits_nan isMax (by rw [hcanon]; rfl), ih, List.map_cons, signals_cons, hcanon, nvOf_nan]
    simp [BitVec.or_assoc]

/-- A NaN among several values gives the canonical NaN, and NV for the signalling ones. -/
theorem foldl_stepFp_nan (ys : List Nat) {x y : Nat} (fl : Flags) (h : ∃ v ∈ x :: y :: ys, (decodeFp f v).isNaN = true) :
    (y :: ys).foldl (stepFp f isMax) (x, fl) = (canonNaN f, fl ||| signals ((x :: y :: ys).map (decodeFp f))) := by
  induction ys generalizing x y fl with
  | nil =>
    have hxy : ((decodeFp f x).isNaN || (decodeFp f y).isNaN) = true := by simpa using h
    simp [stepFp, minmaxBits_nan isMax hxy, signals_cons, signals_nil]
  | cons z zs ih =>
    rw [List.foldl_cons, stepFp]
    by_cases hxy : ((decodeFp f x).isNaN || (decodeFp f y).isNaN) = true
    · rw [minmaxBits_nan isMax hxy, foldl_stepFp_canonNaN hcanon]
      simp [signals_cons, BitVec.or_assoc]
    · rw [Bool.not_eq_true, Bool.or_eq_false_iff] at hxy
      obtain ⟨hx, hy⟩ := hxy
      obtain ⟨v, hv, hnan⟩ := h
      have hv' : v ∈ z :: zs := by
        rcases List.mem_cons.mp hv with rfl | hv
        · rw [hx] at hnan; cases hnan
        · rcases List.mem_cons.mp hv with rfl | hv
          · rw [hy] at hnan; cases hnan
          · exact hv
      have hchosen : nvOf (decodeFp f (minmaxBits f isMax false x y).1) = 0 := by
        rw [minmaxBits_numbers isMax false hx hy]
        dsimp only
        split
        · exact nvOf_number hx
        · exact nvOf_number hy
      have hdrop {w : Nat} (ws : List Nat) (hw : nvOf (decodeFp f w) = 0) : signals ((w :: ws).map (decodeFp f)) = signals (ws.map (decodeFp f)) := by
        rw [List.map_cons, signals_cons, hw]; exact BitVec.zero_or
      rw [ih _ ⟨v, List.mem_cons_of_mem _ hv', hnan⟩, hdrop _ hchosen, hdrop _ (nvOf_number hx), hdrop _ (nvOf_number hy),
        minmaxBits_numbers isMax false hx hy]
      simp

end

section
variable {f : Fmt} (isMax : Bool)

theorem minmaxBits_chooses (hf : f.Regular) {x y : Nat} (hx : (decodeFp f x).isNaN = false) (hy : (decodeFp f y).isNaN = false) :
    Chooses isMax (fun v => rank (1 - f.bias - f.m) (decodeFp f v)) (fun a b => (minmaxBits f isMax false a b).1) x y := by
  have hrefl (z : Nat) := atMost_refl isMax (rank (1 - f.bias - f.m) (decodeFp f z))
  rw [Chooses]
  cases h : firstIsLess (decodeFp f x) (decodeFp f y) with
  | true =>
    have hle := rank_le_of_firstIsLess hx hy (decodeFp_placedAt hf x) (decodeFp_placedAt hf y) h
    rw [minmaxBits_first isMax false hx hy h]
    cases isMax with
    | true => exact ⟨.inr rfl, hle, hrefl y⟩
    | false => exact ⟨.inl rfl, hrefl x, hle⟩
  | false =>
    have hle := rank_le_of_not_firstIsLess hx hy (decodeFp_placedAt hf x) (decodeFp_placedAt hf y) h
    rw [minmaxBits_second isMax false hx hy h]
    cases isMax with
    | true => exact ⟨.inl rfl, hrefl x, hle⟩
    | false => exact ⟨.inr rfl, hle, hrefl y⟩

/-- Along numbers no flag is raised. -/
theorem foldl_stepFp_numbers (vs : List Nat) {x : Nat} (h : ∀ v ∈ x :: vs, (decodeFp f v).isNaN = false) (fl : Flags) :
    vs.foldl (stepFp f isMax) (x, fl) = (vs.foldl (fun a b => (minmaxBits f isMax false a b).1) x, fl) := by
  induction vs generalizing x with
  | nil => rfl
  | cons y ys ih =>
    have hx := h x (by simp)
    have hy := h y (by simp)
    have hstep : stepFp f isMax (x, fl) y = ((minmaxBits f isMax false x y).1, fl) := by
      rw [stepFp, minmaxBits_numbers isMax false hx hy]
      exact congrArg (_, ·) BitVec.or_zero
    rw [List.foldl_cons, hstep, List.foldl_cons]
    refine ih fun v hv => ?_
    rcases List.mem_cons.mp hv with rfl | hv
    · rw [minmaxBits_numbers isMax false hx hy]
      dsimp only
      split
      · exact hx
      · exact hy
    · exact h v (by simp [hv])

end

/-- The extreme of some numbers is the one that none lies before, −0 below +0. -/
theorem extremeOf_numbers {t : Ty} (form : t = .f32 ∨ t = .f64) {isMax u : Bool} {vs : List Nat} {r : Nat}
    (fits : ∀ v ∈ vs, v < 2 ^ (fmtOf t).bits) (all : numbers (fmtOf t) vs) (mem : r ∈ vs)
    (best : ∀ v ∈ vs, atMost isMax (rank (1 - (fmtOf t).bias - (fmtOf t).m) (decodeFp (fmtOf t) r))
      (rank (1 - (fmtOf t).bias - (fmtOf t).m) (decodeFp (fmtOf t) v))) : extremeOf t isMax u vs = (r, 0) := by
  have hf := fmtOf_regular t
  obtain ⟨x, xs, rfl⟩ := List.exists_cons_of_ne_nil (List.ne_nil_of_mem mem)
  have hfold : extremeOf t isMax u (x :: xs) = (xs.foldl (fun a b => (minmaxBits (fmtOf t) isMax false a b).1) x, 0) := by
    rw [← foldl_stepFp_numbers isMax xs all]
    cases xs with
    | nil =>
      have hx := all x List.mem_cons_self
      rw [extremeOf_single form, hx, nvOf_number hx]; rfl
    | cons y ys => exact extremeOf_float form isMax u x y ys
  obtain ⟨hmem, hall⟩ := foldl_chooses (fun a b ha hb => minmaxBits_chooses isMax hf (x := a) (y := b) ha hb) xs (x := x) all
  rw [hfold]
  exact congrArg (·, 0) (encoding_eq_of_rank hf (fits _ hmem) (fits r mem) (all _ hmem) (all r mem) (decodeFp_placedAt hf _) (decodeFp_placedAt hf _)
    (atMost_antisymm (hall r mem) (best _ hmem)))

/-- Each row of VRMIN and VRMAX is what the model computes. -/
theorem extremeOf_eq {t : Ty} {isMax u : Bool} {vs : List Nat} {r : Nat × Flags} (h : Extremes t isMax u vs r) : extremeOf t isMax u vs = r := by
  have hf := fmtOf_regular t
  have hplace (v : Nat) := decodeFp_placedAt hf v
  cases h with
  | least _ _ r form fits mem low => exact extremeOf_int_eq form fits mem low
  | greatest _ _ r form fits mem high => exact extremeOf_int_eq form fits mem high
  | noLeast u form =>
    rw [extremeOf_int form]
    simp only [List.mem_cons, List.not_mem_nil, or_false] at form
    rcases form with rfl | rfl | rfl | rfl <;> cases u <;> rfl
  | noGreatest u form =>
    rw [extremeOf_int form]
    simp only [List.mem_cons, List.not_mem_nil, or_false] at form
    rcases form with rfl | rfl | rfl | rfl <;> cases u <;> rfl
  | noFloat isMax u r form has =>
    obtain ⟨-, rfl⟩ := decodeFp_inf hf has.1 has.2
    rw [extremeOf, if_pos (isF_of_form form)]; rfl
  | nan isMax u _ v q form mem nan =>
    have hcanon : decodeFp (fmtOf t) (canonNaN (fmtOf t)) = .nan false := by rcases form with rfl | rfl <;> decide
    have hnan : (decodeFp (fmtOf t) v).isNaN = true := by rw [nan]; rfl
    match vs, mem with
    | [x], mem =>
      rw [List.mem_singleton.mp mem] at hnan
      rw [extremeOf_single form, hnan, List.map_cons, signals_cons]
      exact congrArg (_, ·) BitVec.or_zero.symm
    | x :: y :: ys, mem =>
      rw [extremeOf_float form, foldl_stepFp_nan hcanon isMax ys 0 ⟨v, mem, hnan⟩]
      exact congrArg (_, ·) BitVec.zero_or
  | leastFp u _ r form fits all mem low zero =>
    refine extremeOf_numbers form fits all mem fun v hv => not_lt.mp fun hlt => ?_
    rcases ltFp_of_rank_lt (all v hv) (all r mem) (hplace v) (hplace r) hlt with h | ⟨e, g, hv', hr'⟩
    · exact low v hv ((below_iff_ltFp _ _).mpr h)
    · exact zero v hv g e hr' hv'
  | greatestFp u _ r form fits all mem high zero =>
    refine extremeOf_numbers form fits all mem fun v hv => not_lt.mp fun hlt => ?_
    rcases ltFp_of_rank_lt (all r mem) (all v hv) (hplace r) (hplace v) hlt with h | ⟨e, g, hr', hv'⟩
    · exact high v hv ((below_iff_ltFp _ _).mpr h)
    · exact zero v hv e g hr' hv'

/-- Settles O28. -/
theorem sumsAndExtremes : Obligations.SumsAndExtremes := ⟨fun _ _ _ h => sumOf_eq h, fun _ _ _ _ _ h => extremeOf_eq h⟩

end Sys2Proof.Machine
end

section
/-! PROOFS. The value that one step of an atomic leaves (R180): the model computes on numbers what the rule says of bit strings. -/
namespace Sys2Proof.Machine
open Sys2Proof Sys2Proof.Statements

theorem canonNaN_lt {t : Ty} (h : t.isFp = true) : canonNaN (fmtOf t) < 2 ^ (fmtOf t).bits := by
  cases t with
  | f32 | f64 => decide
  | _ => cases h

theorem tyBits_of_isFp {t : Ty} (h : t.isFp = true) : tyBits t = (fmtOf t).bits := by
  cases t with
  | f32 | f64 => rfl
  | _ => cases h

/-- Rounding gives an encoding of the format. -/
theorem roundFp_lt {t : Ty} (h : t.isFp = true) (mode : Rnd) (draw : Nat) (x : Fp) : (roundFp (fmtOf t) mode draw x).1 < 2 ^ tyBits t := by
  rw [tyBits_of_isFp h]
  have hf := fmtOf_regular t
  have hsign {neg : Bool} {mag : Nat} (hmag : mag < 2 ^ ((fmtOf t).e + (fmtOf t).m)) : signBit (fmtOf t) neg + mag < 2 ^ (fmtOf t).bits := by
    rw [signBit, hf.bits_eq, Nat.add_sub_cancel, Nat.pow_succ]
    split <;> omega
  cases x with
  | nan => exact canonNaN_lt h
  | inf n =>
    have hinf : (2 ^ (fmtOf t).e - 1) * 2 ^ (fmtOf t).m < 2 ^ ((fmtOf t).e + (fmtOf t).m) := by
      rw [Nat.pow_add]
      exact Nat.mul_lt_mul_of_pos_right (Nat.sub_lt (Nat.two_pow_pos _) Nat.one_pos) (Nat.two_pow_pos _)
    rw [roundFp]
    dsimp only
    split
    · exact hsign hinf
    · exact hsign hf.maxFin_lt
  | fin n m e =>
    obtain ⟨mag, hmag, hbits⟩ := roundFin_fst hf mode draw false n m e
    rw [roundFp, hbits]
    exact hsign hmag

/-- FMIN and FMAX give one of their operands or the canonical NaN. -/
theorem minmaxBits_lt {t : Ty} (h : t.isFp = true) (isMax : Bool) {a b : Nat} (ha : a < 2 ^ tyBits t) (hb : b < 2 ^ tyBits t) :
    (minmaxBits (fmtOf t) isMax false a b).1 < 2 ^ tyBits t := by
  cases hx : (decodeFp (fmtOf t) a).isNaN || (decodeFp (fmtOf t) b).isNaN with
  | true => rw [minmaxBits_nan isMax hx, tyBits_of_isFp h]; exact canonNaN_lt h
  | false =>
    rw [Bool.or_eq_false_iff] at hx
    rw [minmaxBits_numbers isMax false hx.1 hx.2]
    dsimp only
    split
    · exact ha
    · exact hb

/-- Less, as the type reads its words. -/
theorem atomLess_eq (t : Ty) (x y : BitVec (tyBits t)) :
    (if isSigned t then decide (signedOf (tyBits t) x.toNat < signedOf (tyBits t) y.toNat) else decide (x.toNat < y.toNat)) =
      if isSigned t then decide (x.toInt < y.toInt) else decide (x.toNat < y.toNat) := by rw [signedOf_toNat, signedOf_toNat]

theorem atomNew_min (t : Ty) (old b c : Nat) : atomNew .min t old b c =
    if (if isSigned t then decide (signedOf (tyBits t) b < signedOf (tyBits t) old) else decide (b < old)) then b else old := by
  cases t <;> rfl

theorem atomNew_max (t : Ty) (old b c : Nat) : atomNew .max t old b c =
    if (if isSigned t then decide (signedOf (tyBits t) old < signedOf (tyBits t) b) else decide (old < b)) then b else old := by
  cases t <;> rfl

theorem toNat_one_of_lt {w : Nat} (h : 1 < 2 ^ w) : (1 : BitVec w).toNat = 1 := Nat.mod_eq_of_lt h

/-- Settles O37: operation by operation; a sum and a step stay below the width, and rounding and FMIN give encodings of the format. -/
theorem atomicValues : Obligations.AtomicValues := by
  intro op t old b c haccept
  cases op with
  | add => exact (BitVec.toNat_add ..).symm
  | min => rw [atomNew_min, atomLess_eq, ← apply_ite BitVec.toNat]; rfl
  | max => rw [atomNew_max, atomLess_eq, ← apply_ite BitVec.toNat]; rfl
  | and => exact (BitVec.toNat_and ..).symm
  | or => exact (BitVec.toNat_or ..).symm
  | xor => exact (BitVec.toNat_xor ..).symm
  | exch => rfl
  | cas =>
    show (if old.toNat = c.toNat then b.toNat else old.toNat) = (if old = c then b else old).toNat
    simp only [BitVec.toNat_inj, apply_ite BitVec.toNat]
  | inc =>
    show (if b.toNat ≤ old.toNat then 0 else old.toNat + 1) = (if b.toNat ≤ old.toNat then 0 else old + 1 : BitVec _).toNat
    split
    · rfl
    · have := b.isLt
      rw [BitVec.toNat_add, toNat_one_of_lt (by omega), Nat.mod_eq_of_lt (by omega)]
  | dec =>
    show (if old.toNat = 0 ∨ b.toNat < old.toNat then b.toNat else old.toNat - 1) =
      (if old = 0 ∨ b.toNat < old.toNat then b else old - 1 : BitVec _).toNat
    have hzero : old.toNat = 0 ↔ old = 0 := by rw [← BitVec.toNat_inj]; rfl
    simp only [hzero, apply_ite BitVec.toNat]
    split
    · rfl
    next h =>
      rw [not_or, ← hzero] at h
      have hone : (1 : BitVec (tyBits t)).toNat = 1 := toNat_one_of_lt (by have := old.isLt; omega)
      rw [BitVec.toNat_sub_of_le (by rw [BitVec.le_def]; omega), hone]
  | fadd =>
    have hlt := roundFp_lt haccept .rne 0 (addFp false (decodeFp (fmtOf t) old.toNat) (decodeFp (fmtOf t) b.toNat)).1
    exact (Nat.mod_eq_of_lt hlt).symm
  | fmin | fmax =>
    exact (Nat.mod_eq_of_lt (minmaxBits_lt haccept _ old.isLt b.isLt)).symm

end Sys2Proof.Machine
end

section
/-! PROOFS. After a fatal error (R410), and a step of a path (R23, R210): what a prescribed move runs. -/
namespace Sys2Proof.Machine
open Sys2Proof Sys2Proof.Statements

/-! ### After a fatal error -/

/-- With a move prescribed that is not a package reset, a step after a fatal error passes time. -/
theorem step_fatal {s : State} {m : Move} {more : List Move} (hfatal : s.fatal = true) (hagenda : s.agenda = m :: more)
    (hmove : m.ev ≠ some .packageReset) : step s = .next ({ s with agenda := more } : State).pass := by
  simp only [step, hagenda, hfatal]
  cases hev : m.ev with
  | none => rfl
  | some e =>
    have he : (e != .packageReset) = true := bne_iff_ne.mpr fun h => hmove (by rw [hev, h])
    simp only [he, Bool.and_true, if_true]

theorem ranFor_eq (s : State) (c : Ctx) (dt : Nat) : s.ranFor c dt =
    { c with ran := if c.state = .active then Vector.ofFn fun (i : Fin 6) => c.ran[i] + s.dies[i].mhz * dt else c.ran } := by
  rw [State.ranFor]; split <;> rfl

/-- Settles O6: the step passes time, which meters cycles. -/
theorem fatalHolds : Obligations.FatalHolds := by
  intro s u hfatal hmove hstep
  cases hagenda : s.agenda with
  | nil => simp [step, hagenda, hfatal] at hstep
  | cons m more =>
    rw [step_fatal hfatal hagenda (hmove m more hagenda)] at hstep
    cases hstep
    exact ⟨rfl, Nat.le_max_left .., List.map_congr_left fun c _ => ranFor_eq _ c _⟩

/-! ### A step with a prescribed move -/

theorem focus_called (s : State) (key : Nat) : (s.focus key).called = s.called := by
  rw [State.focus]; split
  · rfl
  · split <;> rfl

/-- When a step's event comes, no stack is called: the root's own calls have roused theirs. -/
theorem begun_called (s : State) (m : Move) : (s.begin_.select m).called = [] := by
  have hcall (r : State) : r.callStacks.called = [] := by
    rw [State.callStacks]; split
    next h => exact List.isEmpty_iff.mp h
    · rfl
  have hbegin : s.begin_.called = [] := hcall _
  rw [State.select]; split
  · exact (focus_called _ _).trans hbegin
  · exact hbegin

theorem reached_next (s t : State) : s.reached (.next t) = .next (if t.called = [] then t else s.rouse t.called) := by
  rw [State.reached]
  by_cases h : t.called = []
  · rw [if_pos h, if_pos (List.isEmpty_iff.mpr h)]
  · rw [if_neg h, if_neg (by simpa using h)]

/-- What starting an instruction changes: the path's slot, and the yield marks of its core. -/
theorem starts_slot (s : State) : s.starts.slot = { s.slot with park := .none, age := s.tick, since := none, yielded := false } := by
  rw [State.starts, State.slot_setSlot]
  simp only [State.slot, and_self, if_true]
  cases s.sel <;> rfl

theorem starts_grp (s : State) : s.starts.grp = { s.grp with slotA := s.starts.grp.slotA, slotB := s.starts.grp.slotB } := by
  have hfresh : s.starts.grp = _ := State.setSlot_slots _ _
  rw [hfresh]
  simp only [and_self, if_true]

theorem starts_pc (s : State) : s.starts.pc = s.pc := by
  rw [State.pc, State.pc, starts_slot]; rfl

/-- What the next move of a path makes of its instruction's outcome. -/
theorem attempt_settles {s u v : State} {run : State → Out} (h : run s.starts = .next u) (hsettles : Settles s u v) (hcalled : s.called = []) :
    s.attempt run = .next v ∧ v.called = [] := by
  simp only [State.attempt, h]
  cases hsettles with
  | issued free paid awake =>
    have hpaid : ¬(s.creditNow s.grp.part s.grp.die ≤ 0 ∧ u.reqs ≠ s.reqs) := by
      rintro ⟨hle, hne⟩
      rcases paid with h | h
      · omega
      · exact hne h
    rw [free, if_neg Bool.false_ne_true, if_neg hpaid, awake]
    exact ⟨rfl, rfl⟩
  | held waits => exact ⟨by rw [if_pos waits], hcalled⟩
  | unpaid free unpaid asks => exact ⟨by rw [free, if_neg Bool.false_ne_true, if_pos ⟨unpaid, asks⟩], hcalled⟩
  | asleep free paid calls =>
    have hpaid : ¬(s.creditNow s.grp.part s.grp.die ≤ 0 ∧ u.reqs ≠ s.reqs) := by
      rintro ⟨hle, hne⟩
      rcases paid with h | h
      · omega
      · exact hne h
    exact ⟨by rw [free, if_neg Bool.false_ne_true, if_neg hpaid, if_pos (by simpa using calls)], rfl⟩

/-- A path that can issue and holds a bundle runs the instruction at its place. -/
theorem issue_attempt {s : State} {b : Bundle} (hissue : s.canIssue = true) (herr : s.slot.derr = none)
    (hpark : s.slot.park = .none ∨ s.slot.park = .room ∨ s.slot.park = .drain) (hbuf : s.slot.ibuf = some b)
    (hjoin : ¬(s.slot.pj = some s.slot.pcb ∧ s.slot.idx = 1)) : s.issue = s.attempt (runWords (b.words.drop s.slot.idx)) := by
  have hraised : ¬(s.grp.raised.isSome = true ∧ s.runs s.grp = true) := by
    rintro ⟨hsome, -⟩
    have hstirs : s.stirs = true := by
      simp only [State.canIssue, Bool.and_eq_true] at hissue
      tauto
    rw [stirs_raised s (by rintro h; rw [h] at hsome; cases hsome)] at hstirs
    cases hstirs
  simp only [State.issue, if_neg hraised, hissue, herr, hbuf]
  rcases hpark with h | h | h <;> simp [h, hjoin]

theorem step_move {s t : State} {m : Move} {more : List Move} (hagenda : s.agenda = m :: more) (hfatal : s.fatal = false)
    (ht : t = ({ s with agenda := more } : State).begin_.select m) :
    step s = match m.ev with
      | some e => t.reached (exec e t)
      | none => t.reached t.issue := by
  subst ht
  simp only [step, hagenda, hfatal, Bool.false_and, Bool.false_eq_true, if_false] <;> cases m.ev <;> rfl

/-- A path that may issue: the step is what the next move makes of its instruction's outcome. -/
theorem step_issue {s t u v : State} {m : Move} {more : List Move} {b : Bundle} (hagenda : s.agenda = m :: more) (hfatal : s.fatal = false)
    (ht : t = ({ s with agenda := more } : State).begin_.select m) (hev : m.ev = none)
    (hissue : t.issue = t.attempt (runWords (b.words.drop t.slot.idx)))
    (hrun : runWords (b.words.drop t.slot.idx) t.starts = .next u) (hsettles : Settles t u v) : step s = .next v := by
  obtain ⟨hattempt, hcalled⟩ := attempt_settles hrun hsettles (ht ▸ begun_called _ m)
  rw [step_move hagenda hfatal ht, hev]
  show t.reached t.issue = _
  rw [hissue, hattempt, reached_next, if_pos hcalled]

/-- Settles O4: an event's outcome stands unless it calls stacks; the path's instruction runs from the state in which it has started, and
no stack is called before it. -/
theorem stepRunsDecoded : Obligations.StepRunsDecoded := by
  intro s t m more hagenda hfatal ht
  refine ⟨fun e u hev hexec => ?_, fun b hev hissue herr hpark hbuf hjoin => ?_⟩
  · rw [step_move hagenda hfatal ht, hev]
    show t.reached (exec e t) = _
    rw [hexec, reached_next]
  · have hgrp := starts_grp t
    have hattempt := issue_attempt hissue herr hpark hbuf hjoin
    refine ⟨fun i u v hdecode hexec hsettles => ?_, ⟨starts_slot t, by rw [hgrp], by rw [hgrp], by rw [hgrp], rfl⟩, fun e u v hdecode hu hsettles => ?_⟩
    · exact step_issue hagenda hfatal ht hev hattempt (by rw [runWords, hdecode]; exact hexec) hsettles
    · refine step_issue hagenda hfatal ht hev hattempt (u := u) ?_ hsettles
      simp only [runWords, hdecode, hu, starts_pc, cIllegal]

end Sys2Proof.Machine
end

section
/-! PROOFS. A code in trap mode, or without a handler, ends the launch context (R190, R198, R329). -/
namespace Sys2Proof.Machine
open Sys2Proof Sys2Proof.Statements

/-! ### Writing a termination record leaves the current group alone -/

theorem grp_of_side {host : Bool} {s t : State} (h : t.side host = s.side host) : t.grp = s.grp := (congrArg State.grp h :)

@[simp] theorem translate_grp (s : State) (die part vf : Nat) (a : W64) : (s.translate die part vf a).2.grp = s.grp := by
  have h := grp_of_side (walkVa_side true s die part vf (va55 a))
  unfold State.translate
  split
  · rfl
  · dsimp only
    split
    · rfl
    · split <;> next heq => rw [heq] at h; exact h

@[simp] theorem translateFor_grp (s : State) (die part vf : Nat) (a : W64) (need : Xl → Bool) :
    (s.translateFor die part vf a need).2.grp = s.grp := by
  have h := translate_grp s die part vf a
  unfold State.translateFor
  split
  · next heq => rw [heq] at h; split <;> exact h
  · exact h

/-- A fold over pairs of a value and a state whose steps leave the group alone. -/
theorem foldl_pair_grp {α β : Type} {f : β × State → α → β × State} (hf : ∀ x a, (f x a).2.grp = x.2.grp) (l : List α) (x : β × State) :
    (l.foldl f x).2.grp = x.2.grp := by
  induction l generalizing x with
  | nil => rfl
  | cons a r ih => exact (ih _).trans (hf x a)

@[simp] theorem mapVa_grp (s : State) (w : Here) (unit : Nat) (a : W64) (n : Nat) (need : Xl → Bool) :
    (s.mapVa w unit a n need).2.grp = s.grp := by
  unfold State.mapVa
  refine foldl_pair_grp (fun x c => ?_) _ _
  obtain ⟨r, u⟩ := x
  cases r with
  | error f => rfl
  | ok ps =>
    have h := translateFor_grp u w.die w.part w.vf (a + BitVec.ofNat 64 c.1) need
    dsimp only
    split <;> next heq => rw [heq] at h; exact h

@[simp] theorem writePieces_grp (s : State) (w : Here) (sc : Scope) (cp : Cp) (ps : List Piece) (bs : List Byte) :
    (s.writePieces w sc cp ps bs).grp = s.grp := by
  unfold State.writePieces
  induction ps generalizing s bs with
  | nil => rfl
  | cons p r ih => exact (ih _ _).trans (grp_of_side (storePiece_side (host := true) s w sc cp p _ nofun))

@[simp] theorem writeVa_grp (s : State) (w : Here) (sc : Scope) (a : W64) (bs : List Byte) (cp : Cp) :
    (s.writeVa w sc a bs cp).2.grp = s.grp := by
  have h := mapVa_grp s w 32 a bs.length (·.w)
  unfold State.writeVa
  split <;> next heq => rw [heq] at h; simpa using h

@[simp] theorem writeWords_grp (w : Here) (a : W64) (vs : List W64) (s : State) : (s.writeWords w a vs).2.grp = s.grp := by
  induction vs generalizing s a with
  | nil => rfl
  | cons v r ih =>
    have h := writeVa_grp s w .pkg a (bytesOfNat 8 v.toNat) .dflt
    unfold State.writeWords
    split
    · next heq =>
      rw [heq] at h
      exact (ih _ _).trans h
    · next heq =>
      rw [heq] at h
      exact h

/-! ### The end of a context -/

/-- What holds once a context has ended (R329). -/
structure Ended (vf part : Nat) (t : State) : Prop where
  live : t.grp.vf = vf → t.grp.part = part → t.grp.live = 0
  groups : ∀ g ∈ t.groups, ¬(g.vf = vf ∧ g.part = part)
  state : ∀ x, t.ctx vf part = some x → x.state = .terminated

/-- A group that is gone. -/
def Group.gone (g : Group) : Group :=
  { g with live := 0, slotA := {}, slotB := {}, sjoin := none, outst := [], raised := none, trap := none }

theorem endContext_grp (s : State) (vf part : Nat) :
    (s.endContext vf part).grp = if s.grp.vf == vf && s.grp.part == part then s.grp.gone else s.grp := by
  have settled (b : Bool) : (if b = true then s.settleCredits part else s).grp = s.grp := by cases b <;> rfl
  unfold State.endContext
  simp only [State.setCtx_grp, settled]
  rfl

theorem endContext_ended (s : State) (vf part : Nat) : Ended vf part (s.endContext vf part) where
  live hv hp := by
    rw [endContext_grp] at hv hp ⊢
    split
    · rfl
    · next h =>
      rw [if_neg h] at hv hp
      exact absurd (by simp [hv, hp]) h
  groups g hg := by
    unfold State.endContext at hg
    simp only [State.setCtx_groups, List.mem_filter] at hg
    simpa only [Bool.not_eq_true', Bool.and_eq_false_iff, beq_eq_false_iff_ne, not_and_or] using hg.2
  state x hx := by
    unfold State.endContext at hx
    rw [ctx_setCtx] at hx
    · obtain ⟨c, -, rfl⟩ := Option.map_eq_some_iff.mp hx
      rfl
    · exact fun _ => ⟨rfl, rfl⟩

theorem endContext_grp_of (s : State) (vf part : Nat) :
    (s.endContext vf part).grp.vf = s.grp.vf ∧ (s.endContext vf part).grp.part = s.grp.part := by
  rw [endContext_grp]
  split <;> exact ⟨rfl, rfl⟩

theorem terminate_ended (s : State) (launch : Nat) (record : List W64) :
    Ended s.grp.vf s.grp.part (s.terminate s.grp.vf s.grp.part launch record) ∧
      (s.terminate s.grp.vf s.grp.part launch record).grp.live = 0 := by
  obtain ⟨u, hu, same⟩ : ∃ u : State, s.terminate s.grp.vf s.grp.part launch record = u.endContext s.grp.vf s.grp.part ∧ u.grp = s.grp := by
    unfold State.terminate
    split
    · split
      · exact ⟨_, rfl, rfl⟩
      · exact ⟨_, rfl, writeWords_grp ..⟩
    · exact ⟨_, rfl, rfl⟩
  have ended := endContext_ended u s.grp.vf s.grp.part
  have own := endContext_grp_of u s.grp.vf s.grp.part
  rw [hu]
  exact ⟨ended, ended.live (own.1.trans (by rw [same])) (own.2.trans (by rw [same]))⟩

theorem trap_terminates (s : State) (c : Cause) (h : s.grp.trap ≠ none ∨ (s.gang s.grp.gang).trapEntry = 0) :
    s.trap c = s.terminateFor c s.inTrap := by
  cases hin : s.inTrap with
  | true => exact trap_inTrap s c hin
  | false => exact trap_noHandler s c hin (h.resolve_left fun hn => by simp [inTrap_true hn] at hin)

/-! ### The cause word -/

/-- SLOT of a cause word. -/
def slotBits (i : SlotId) : Nat := if i = .b then 0x100 else 0

/-- LANE and LV of a cause word. -/
def Cause.laneBits (c : Cause) : Nat :=
  match c.lane with
  | some l => l % 32 * 0x200 + 0x4000
  | none => 0

theorem slotBits_bound (i : SlotId) : slotBits i % 0x100 = 0 ∧ slotBits i < 0x200 := by cases i <;> decide

theorem laneBits_bound (c : Cause) : c.laneBits % 0x200 = 0 ∧ c.laneBits < 0x8000 := by
  unfold Cause.laneBits
  split <;> omega

theorem toNat_word (c : Cause) (i : SlotId) (double : Bool) : (c.word i double).toNat =
    ((if double then cDouble else c.code) + slotBits i + c.laneBits + (if double then c.code % 256 * 2 ^ 16 else 0) + c.reason % 256 * 2 ^ 24 +
      c.n % 512 * 2 ^ 32) % 2 ^ 64 := BitVec.toNat_ofNat ..

theorem word_double (c : Cause) (i : SlotId) (h : c.code < 256) :
    bitsOf (c.word i true) 0 8 = 0x12 ∧ bitsOf (c.word i true) 16 8 = c.code := by
  have slot := slotBits_bound i
  have lane := laneBits_bound c
  unfold bitsOf
  simp only [toNat_word, if_true, cDouble]
  omega

/-- Settles O33: the trap terminates the context for the cause, and the record that is written leaves the group to be ended as it is. -/
theorem doubleFault : Obligations.DoubleFault := by
  refine ⟨fun s t c h ht => ?_, word_double⟩
  subst ht
  rw [trap_terminates s c h]
  obtain ⟨ended, live⟩ := terminate_ended s (s.gang s.grp.gang).launch
    [c.word s.sel s.inTrap, c.addr, c.aux0, c.aux1,
      BitVec.ofNat 64 (s.grp.gid % 256 + (if s.inTrap then 0x100 else 0) + (s.gang s.grp.gang).index % 2 ^ 32 * 2 ^ 32), s.grp.slotA.pcWord,
      s.grp.slotB.pcWord, BitVec.ofNat 64 s.time]
  exact ⟨rfl, live, ended.groups, ended.state⟩

end Sys2Proof.Machine
end

section
/-! PROOFS. Taking a trap (R191 to R193, R195, R196): when a code is held, the words of the trap frame, the state the handler starts in. -/
namespace Sys2Proof.Machine
open Sys2Proof Sys2Proof.Statements

/-! ### Making room for the handler's frame leaves all but the frames alone -/

/-- The same group and selected path. -/
def SameFront (s t : State) : Prop := t.grp = s.grp ∧ t.sel = s.sel

theorem SameFront.trans {s t u : State} (h : SameFront s t) (k : SameFront t u) : SameFront s u :=
  ⟨k.1.trans h.1, k.2.trans h.2⟩

theorem translateFor_front (s : State) (die part vf : Nat) (a : W64) (need : Xl → Bool) :
    SameFront s (s.translateFor die part vf a need).2 :=
  ⟨translateFor_grp .., congrArg RegView.sel (translateFor_regView ..)⟩

theorem enqueueStore_front (s : State) (o : StoreOp) : SameFront s (s.enqueueStore o) := by
  rw [enqueueStore_eq]
  exact ⟨rfl, rfl⟩

theorem rowWrite_front {s t : State} {a : W64} {lanes : LaneMask} {v : Vector W32 32} (h : s.rowWrite a lanes v = .ok t) : SameFront s t := by
  have front := translateFor_front s s.grp.here.die s.grp.here.part s.grp.here.vf a (·.w)
  unfold State.rowWrite at h
  dsimp only at h
  split at h
  · cases h
  · next heq =>
    rw [heq] at front
    cases h
    exact front.trans (enqueueStore_front ..)

theorem rowsWrite_front {lanes : LaneMask} (l : List (Vector W32 32)) {s t : State} {a : W64} (h : s.rowsWrite lanes a l = .ok t) :
    SameFront s t := by
  induction l generalizing s a with
  | nil =>
    cases h
    exact ⟨rfl, rfl⟩
  | cons v r ih =>
    obtain ⟨u, hu, ht⟩ := bind_eq_ok.mp h
    exact (rowWrite_front hu).trans (ih ht)

/-- A slot but for what a spill records in it. -/
def Slot.unspilled (x : Slot) : Slot := { x with frames := [], cur := none }

theorem spillFrame_keeps {s t : State} {x y : Slot} {k : Nat} (h : s.spillFrame x k = .ok (y, t)) :
    SameFront s t ∧ y.unspilled = x.unspilled := by
  unfold State.spillFrame at h
  split at h
  · cases h
    exact ⟨⟨rfl, rfl⟩, rfl⟩
  · obtain ⟨u, hu, h⟩ := bind_eq_ok.mp h
    obtain ⟨v, hv, h⟩ := bind_eq_ok.mp h
    cases h
    exact ⟨(rowsWrite_front _ hu).trans (rowsWrite_front _ hv), rfl⟩

theorem spillInterrupted_keeps {s t : State} {x y : Slot} (h : s.spillInterrupted x = .ok (y, t)) : SameFront s t := by
  unfold State.spillInterrupted at h
  split at h
  · exact (spillFrame_keeps h).1
  · obtain ⟨u, hu, h⟩ := bind_eq_ok.mp h
    obtain ⟨v, hv, h⟩ := bind_eq_ok.mp h
    cases h
    exact (rowsWrite_front _ hu).trans (rowsWrite_front _ hv)

/-- A group but for the frames that its slots and interrupted slots keep. -/
def Group.unspilled (g : Group) : Group :=
  { g with slotA := g.slotA.unspilled, slotB := g.slotB.unspilled, trap := g.trap.map fun c => { c with slotA := {}, slotB := {} } }

theorem fit_keeps (n : Nat) {s t : State} (h : s.fit n = .ok t) : t.grp.unspilled = s.grp.unspilled ∧ t.sel = s.sel := by
  induction n generalizing s with
  | zero =>
    cases h
    exact ⟨rfl, rfl⟩
  | succ n ih =>
    have go {u v : State} (ht : v.fit n = .ok t) (front : SameFront s u) (hg : v.grp.unspilled = u.grp.unspilled) (hsel : v.sel = u.sel) :
        t.grp.unspilled = s.grp.unspilled ∧ t.sel = s.sel := by
      obtain ⟨k, l⟩ := ih ht
      rw [k, l, hg, hsel, front.1, front.2]
      exact ⟨rfl, rfl⟩
    unfold State.fit at h
    dsimp only at h
    split at h
    · split at h
      · cases h
        exact ⟨rfl, rfl⟩
      · split at h
        · obtain ⟨⟨y, u⟩, hy, h⟩ := bind_eq_ok.mp h
          refine go h (spillInterrupted_keeps hy) ?_ rfl
          simp only [State.setGrp, Group.unspilled, Option.map_map, Function.comp_def]
        · obtain ⟨⟨y, u⟩, hy, h⟩ := bind_eq_ok.mp h
          refine go h (spillInterrupted_keeps hy) ?_ rfl
          simp only [State.setGrp, Group.unspilled, Option.map_map, Function.comp_def]
    · split at h
      · cases h
        exact ⟨rfl, rfl⟩
      · split at h
        · cases h
          exact ⟨rfl, rfl⟩
        · obtain ⟨⟨y, u⟩, hy, h⟩ := bind_eq_ok.mp h
          obtain ⟨front, same⟩ := spillFrame_keeps hy
          refine go h front ?_ rfl
          have hslot : u.slot = s.slot := by rw [State.slot, State.slot, front.1, front.2]
          have : (u.setSlot fun _ => y).grp.unspilled = u.grp.unspilled := by
            rw [← hslot] at same
            revert same
            unfold State.setSlot State.slot Group.setSlot Group.slot State.setGrp
            cases u.sel <;> intro same <;> simp only [Group.unspilled, same]
          exact this

theorem putRows_eq (g : Group) (wbase : Nat) (lanes : LaneMask) (rows : List (Vector W32 32)) :
    g.putRows wbase lanes rows = { g with vrf := (g.putRows wbase lanes rows).vrf } := by
  unfold Group.putRows
  generalize List.range rows.length = ks
  induction ks generalizing g with
  | nil => rfl
  | cons k r ih =>
    rw [List.foldl_cons, ih]

/-! ### Entering the handler -/

theorem grpWrite_grp {s t : State} {a : W64} {bs : List Byte} (h : s.grpWrite a bs = .ok t) : t.grp = s.grp := by
  have front := mapVa_grp s s.grp.here 16 a bs.length (·.w)
  unfold State.grpWrite at h
  dsimp only at h
  split at h
  · cases h
  · next heq =>
    rw [heq] at front
    cases h
    exact (enqueueStore_front ..).1.trans front

/-- The group at the start of the handler, before its frame is made to fit (R196). -/
def State.handlerGroup (s : State) (entry : W64) : Group :=
  let g := s.grp
  { g with
    trap := some ⟨g.tfp, g.slotA.dataErr, g.slotB.dataErr, g.sjoin, g.sl⟩
    slotA := s.handlerSlot entry, slotB := {}, sjoin := none, olds := []
    outst := g.outst.map fun e => { e with tags := e.tags.interrupt } }

/-- Entering the handler: the group of `handlerGroup`, but for spilled frames and the rows of the handler's own frame. -/
theorem enterTrap_eq_ok {s t : State} {entry : W64} (h : s.enterTrap entry = .ok t) :
    t.sel = .a ∧ ∃ vrf, { t.grp with vrf := vrf }.unspilled = (s.handlerGroup entry).unspilled := by
  unfold State.enterTrap at h
  obtain ⟨u, hu, h⟩ := bind_eq_ok.mp h
  obtain ⟨hg, hsel⟩ := fit_keeps _ hu
  cases h
  refine ⟨hsel, u.grp.vrf, ?_⟩
  rw [State.setGrp, putRows_eq]
  exact hg

theorem enterTrap_handling {u v t : State} {entry : W64} (same : v.grp = u.grp) (h : v.enterTrap entry = .ok t) : Handling u t entry := by
  obtain ⟨hsel, vrf, hg⟩ := enterTrap_eq_ok h
  have slotA : t.grp.slotA.unspilled = (v.handlerSlot entry).unspilled := congrArg Group.slotA hg
  have slot : t.slot = t.grp.slotA := by rw [State.slot, hsel]; rfl
  have trap : t.grp.trap.map (fun c => { c with slotA := {}, slotB := {} }) =
      some { fa := v.grp.tfp, slotA := {}, slotB := {}, sjoin := v.grp.sjoin, sl := v.grp.sl } := congrArg Group.trap hg
  have scalars : t.grp.s = v.grp.s := (congrArg Group.s hg :)
  have preds : t.grp.p = v.grp.p := (congrArg Group.p hg :)
  obtain ⟨c, hc, saved⟩ := Option.map_eq_some_iff.mp trap
  have own : Handling v t entry :=
    { saved := ⟨c, hc, congrArg TrapCtx.fa saved, congrArg TrapCtx.sjoin saved, congrArg TrapCtx.sl saved⟩
      pc := slot ▸ ⟨congrArg Slot.pcb slotA, congrArg Slot.idx slotA⟩
      sel := ⟨hsel, congrArg (fun g => g.slotB.occ) hg, congrArg Group.sjoin hg⟩
      lanes := slot ▸ ⟨congrArg Slot.mask slotA, congrArg Slot.pj slotA⟩
      frame := slot ▸ ⟨congrArg Slot.fsize slotA, congrArg Slot.depth slotA, congrArg Slot.coil slotA⟩
      scalars := ⟨scalars, preds⟩ }
  exact { own with saved := same ▸ own.saved, lanes := same ▸ own.lanes, scalars := same ▸ own.scalars }

/-! ### The words of the frame -/

/-- A list that stands in another from place `n`. -/
def StandsAt (ws l : List W64) (n : Nat) : Prop := ∃ pre rest, ws = pre ++ l ++ rest ∧ pre.length = n

theorem StandsAt.last {pre l : List W64} {n : Nat} (h : pre.length = n) : StandsAt (pre ++ l) l n := ⟨pre, [], by simp, h⟩

theorem StandsAt.append {ws l : List W64} {n : Nat} (h : StandsAt ws l n) (r : List W64) : StandsAt (ws ++ r) l n := by
  obtain ⟨pre, rest, rfl, hn⟩ := h
  exact ⟨pre, rest ++ r, by simp, hn⟩

theorem StandsAt.getD {ws l : List W64} {n : Nat} (h : StandsAt ws l n) {k : Nat} (hk : k < l.length) : ws.getD (n + k) 0 = l.getD k 0 := by
  obtain ⟨pre, rest, rfl, rfl⟩ := h
  rw [List.append_assoc, List.getD_append_right _ _ _ _ (Nat.le_add_right ..), Nat.add_sub_cancel_left, List.getD_append _ _ _ _ hk]

/-- Words 0 to 4 of the frame: the cause and the live lanes (R192). -/
def State.causeWords (s : State) (c : Cause) : List W64 := [c.word s.sel false, c.addr, c.aux0, c.aux1, s.grp.live.zeroExtend 64]

/-- Words 5 to 7: the slot-level join. -/
def Group.joinWords (g : Group) : List W64 :=
  match g.sjoin with
  | some j => [j.addr, BitVec.ofNat 64 (j.depth % 65536), j.sp]
  | none => [0, 0, 0]

/-- Words 32 to 47: the futures. -/
def Group.futureWords (g : Group) : List W64 := g.f.toList.map Future.word

/-- Word 48 + k: predicates 2k and 2k + 1. -/
def Group.predWord (g : Group) (k : Nat) : W64 :=
  BitVec.ofNat 64 (((g.p[2 * k]?).getD 0).toNat + ((g.p[2 * k + 1]?).getD 0).toNat * 2 ^ 32)

/-- Words 52 to 63: the mode, the random-number registers and the time. -/
def State.modeWords (s : State) : List W64 :=
  [0, 0, 0, 0, s.grp.fmode, s.grp.rngk, s.grp.rngc, s.grp.rsd.zeroExtend 64, BitVec.ofNat 64 s.time, 0, 0, 0]

/-- Words 0 to 127 of the frame. -/
def State.frameHead (s : State) (c : Cause) : List W64 :=
  s.causeWords c ++ s.grp.joinWords ++ s.slotBlock .a ++ s.slotBlock .b ++ s.grp.futureWords ++ (List.range 4).map s.grp.predWord ++
    s.modeWords ++ s.grp.s.toList

@[simp] theorem joinWords_length (g : Group) : g.joinWords.length = 3 := by
  unfold Group.joinWords
  split <;> rfl

@[simp] theorem slotBlock_length (s : State) (i : SlotId) : (s.slotBlock i).length = 12 := by
  unfold State.slotBlock
  dsimp only
  split <;> rfl

@[simp] theorem frameHead_length (s : State) (c : Cause) : (s.frameHead c).length = 128 := by
  simp [State.frameHead, State.causeWords, Group.futureWords, State.modeWords]

theorem frameWords_eq (s : State) (c : Cause) : s.frameWords c = s.frameHead c ++ List.replicate 384 0 := by
  have : s.frameWords c = s.frameHead c ++ List.replicate (512 - (s.frameHead c).length) 0 := rfl
  rw [this, frameHead_length]

theorem frameWords_length (s : State) (c : Cause) : (s.frameWords c).length = 512 := by
  rw [frameWords_eq, List.length_append, frameHead_length, List.length_replicate]

/-- Where each part of the frame stands (R192). -/
structure FrameParts (s : State) (c : Cause) (ws : List W64) : Prop where
  cause : StandsAt ws (s.causeWords c) 0
  join : StandsAt ws s.grp.joinWords 5
  blockA : StandsAt ws (s.slotBlock .a) 8
  blockB : StandsAt ws (s.slotBlock .b) 20
  futures : StandsAt ws s.grp.futureWords 32
  preds : StandsAt ws ((List.range 4).map s.grp.predWord) 48
  mode : StandsAt ws s.modeWords 52
  scalars : StandsAt ws s.grp.s.toList 64
  rest : StandsAt ws (List.replicate 384 0) 128

theorem frameWords_parts (s : State) (c : Cause) : FrameParts s c (s.frameWords c) := by
  rw [frameWords_eq]
  have cause : StandsAt (s.causeWords c) (s.causeWords c) 0 := .last (pre := []) rfl
  refine
    { cause := (((((((cause.append _).append _).append _).append _).append _).append _).append _).append _
      join := ((((((StandsAt.last ?_).append _).append _).append _).append _).append _).append _ |>.append _
      blockA := ((((((StandsAt.last ?_).append _).append _).append _).append _).append _).append _
      blockB := (((((StandsAt.last ?_).append _).append _).append _).append _).append _
      futures := ((((StandsAt.last ?_).append _).append _).append _).append _
      preds := (((StandsAt.last ?_).append _).append _).append _
      mode := ((StandsAt.last ?_).append _).append _
      scalars := (StandsAt.last ?_).append _
      rest := StandsAt.last ?_ }
  all_goals simp [State.causeWords, Group.futureWords, State.modeWords]

/-! ### The words of a slot block and of the cause -/

theorem bitsOf_ofNat (n lo k : Nat) : bitsOf (BitVec.ofNat 64 n) lo k = n % 2 ^ 64 / 2 ^ lo % 2 ^ k := by
  rw [bitsOf, BitVec.toNat_ofNat]

theorem getD_zeros (n k : Nat) : (List.replicate n (0 : W64)).getD k 0 = 0 := by
  rw [List.getD_eq_getElem?_getD, List.getElem?_replicate]
  split <;> rfl

theorem slotBlock_free (s : State) (i : SlotId) (h : (s.grp.slot i).occ = false) (k : Nat) : (s.slotBlock i).getD k 0 = 0 := by
  simp only [State.slotBlock, h, Bool.not_false, if_true]
  exact getD_zeros ..

theorem stateCode_lt (x : Slot) : x.stateCode < 4 := by
  unfold Slot.stateCode
  split
  · decide
  · split <;> decide

theorem stateCode_occ (x : Slot) (h : x.occ = true) : x.stateCode = match x.park with
    | .join => 2
    | .sleep _ _ => 3
    | _ => 1 := by
  simp only [Slot.stateCode, h, Bool.not_true, Bool.false_eq_true, if_false] <;> rfl

/-- IDX, STATE, the data error's bit and the mask of a slot block (R193). -/
def Slot.stateBits (x : Slot) : Nat := x.idx % 16 + x.stateCode * 16 + (if x.derr.isSome then 64 else 0) + x.mask.toNat * 2 ^ 32

/-- The view, the depth, the frame's size and the coil's depth of a slot block. -/
def Slot.frameBits (x : Slot) : Nat := x.view.toNat + x.depth % 65536 * 2 ^ 16 + x.fsize * 2 ^ 32 + x.coil.length * 2 ^ 40

/-- The time until which a sleeping slot sleeps. -/
def Slot.sleepWord (x : Slot) : W64 :=
  match x.park with
  | .sleep _ d => BitVec.ofNat 64 d
  | _ => 0

theorem slotBlock_of_occ (s : State) (i : SlotId) (h : (s.grp.slot i).occ = true) : s.slotBlock i =
    [(s.grp.slot i).pcb, BitVec.ofNat 64 (s.grp.slot i).stateBits, joinWord (s.grp.slot i).pj, s.wcnt (fun t => t.has i),
      BitVec.ofNat 64 (s.grp.slot i).frameBits, (s.grp.slot i).sp, (s.grp.slot i).fb, (s.grp.slot i).sleepWord,
      ((s.grp.slot i).derr.map (·.ea)).getD 0, ((s.grp.slot i).derr.map (·.epc)).getD 0, 0, 0] := by
  simp only [State.slotBlock, h, Bool.not_true, Bool.false_eq_true, if_false]
  rfl

theorem slotBlock_occ (s : State) (i : SlotId) (h : (s.grp.slot i).occ = true) : BlockHolds s i fun k => (s.slotBlock i).getD k 0 := by
  have code := stateCode_lt (s.grp.slot i)
  have err : (if (s.grp.slot i).derr.isSome then 64 else 0) = 64 * if (s.grp.slot i).derr.isSome then 1 else 0 := by split <;> rfl
  have one : (if (s.grp.slot i).derr.isSome then 1 else 0) < 2 := by split <;> decide
  have state (lo n : Nat) : bitsOf (BitVec.ofNat 64 (s.grp.slot i).stateBits) lo n = ((s.grp.slot i).idx % 16 + (s.grp.slot i).stateCode * 16 +
      64 * (if (s.grp.slot i).derr.isSome then 1 else 0) + (s.grp.slot i).mask.toNat * 2 ^ 32) / 2 ^ lo % 2 ^ n := by
    rw [bitsOf_ofNat, Slot.stateBits, err, Nat.mod_eq_of_lt (b := 2 ^ 64) (by omega)]
  have frame (lo n : Nat) : bitsOf (BitVec.ofNat 64 (s.grp.slot i).frameBits) lo n = ((s.grp.slot i).view.toNat +
      (s.grp.slot i).depth % 65536 * 2 ^ 16 + (s.grp.slot i).fsize * 2 ^ 32 + (s.grp.slot i).coil.length * 2 ^ 40) % 2 ^ 64 / 2 ^ lo % 2 ^ n :=
    bitsOf_ofNat ..
  rw [slotBlock_of_occ s i h]
  refine
    { pcb := rfl, idx := (state ..).trans ?_, state := (state ..).trans (.trans ?_ (stateCode_occ _ h)), derr := (state ..).trans ?_
      spare := (state ..).trans ?_, mask := (state ..).trans ?_, pj := rfl, cnt := rfl, view := (frame ..).trans ?_
      depth := (frame ..).trans ?_, frame := fun small => (frame ..).trans ?_
      coil := fun small short => ⟨(frame ..).trans ?_, (frame ..).trans ?_⟩, sp := rfl, fb := rfl, dl := rfl
      error := fun e he => ⟨by simp [he], by simp [he]⟩, noError := fun he => ⟨by simp [he], by simp [he]⟩, last := ⟨rfl, rfl⟩ }
  all_goals omega

theorem word_bits (c : Cause) (i : SlotId) (h : c.code < 256) (lo n : Nat) : bitsOf (c.word i false) lo n =
    (c.code + slotBits i + c.laneBits + c.reason % 256 * 2 ^ 24 + c.n % 512 * 2 ^ 32) / 2 ^ lo % 2 ^ n := by
  have slot := slotBits_bound i
  have lane := laneBits_bound c
  rw [bitsOf, toNat_word]
  simp only [Bool.false_eq_true, if_false, Nat.add_zero]
  rw [Nat.mod_eq_of_lt (b := 2 ^ 64) (by omega)]

/-- The state's code in a future's word (R192). -/
def FutState.code : FutState → Nat
  | .idle => 0
  | .pending => 1
  | .resolved => 2

theorem future_bits (f : Future) : bitsOf f.word 32 32 = f.status.toNat ∧ bitsOf f.word 0 2 = f.state.code ∧ bitsOf f.word 2 30 = 0 := by
  have code : f.state.code < 3 := by cases f.state <;> decide
  have word (lo n : Nat) : bitsOf f.word lo n = (f.state.code + f.status.toNat * 2 ^ 32) % 2 ^ 64 / 2 ^ lo % 2 ^ n := bitsOf_ofNat ..
  simp only [word]
  omega

theorem predWord_bits (g : Group) (k : Fin 8) : bitsOf (g.predWord (k / 2)) (32 * (k % 2)) 32 = (g.p[k]).toNat := by
  have pair : bitsOf (g.predWord (k / 2)) 0 32 = ((g.p[2 * (k.val / 2)]?).getD 0).toNat ∧
      bitsOf (g.predWord (k / 2)) 32 32 = ((g.p[2 * (k.val / 2) + 1]?).getD 0).toNat := by
    simp only [Group.predWord, bitsOf_ofNat]
    omega
  rcases Nat.mod_two_eq_zero_or_one k.val with even | odd
  · have : 2 * (k.val / 2) = k.val := by omega
    rw [this] at pair
    simpa [even] using pair.1
  · have : 2 * (k.val / 2) + 1 = k.val := by omega
    rw [this] at pair
    simpa [odd] using pair.2

/-- The fields of a cause word (R193). -/
structure CauseFields (c : Cause) (i : SlotId) (w : W64) : Prop where
  code : bitsOf w 0 8 = c.code % 256
  slot : bitsOf w 8 1 = if i = .b then 1 else 0
  lane : bitsOf w 9 5 = c.laneBits / 0x200 % 32
  lv : bitsOf w 14 1 = c.laneBits / 0x4000
  spare : bitsOf w 15 1 = 0 ∧ bitsOf w 41 23 = 0
  sec : bitsOf w 16 8 = 0
  reason : bitsOf w 24 8 = c.reason % 256
  operand : bitsOf w 32 9 = c.n % 2 ^ 9

theorem word_fields (c : Cause) (i : SlotId) (h : c.code < 256) : CauseFields c i (c.word i false) := by
  have lane := laneBits_bound c
  have slot : slotBits i = 256 * if i = .b then 1 else 0 := by cases i <;> rfl
  have one : (if i = .b then 1 else 0) < 2 := by split <;> decide
  constructor <;> simp only [word_bits c i h, slot] <;> omega

theorem laneBits_some {c : Cause} {l : Nat} (h : c.lane = some l) : c.laneBits = l % 32 * 0x200 + 0x4000 := by simp [Cause.laneBits, h]

theorem laneBits_none {c : Cause} (h : c.lane = none) : c.laneBits = 0 := by simp [Cause.laneBits, h]

theorem laneBits_lv (c : Cause) : c.laneBits / 0x4000 = if c.lane.isSome then 1 else 0 := by
  cases h : c.lane with
  | none => simp [laneBits_none h]
  | some l =>
    have := laneBits_some h
    simp only [Option.isSome_some, if_true]
    omega

theorem blockHolds_congr {s : State} {i : SlotId} {v w : Nat → W64} (h : BlockHolds s i w) (same : ∀ k < 12, v k = w k) : BlockHolds s i v := by
  have agree : (List.range 12).map v = (List.range 12).map w := List.map_congr_left fun k hk => same k (List.mem_range.mp hk)
  simp only [List.range_succ, List.range_zero, List.map_cons, List.map_nil, List.nil_append, List.cons_append, List.cons.injEq,
    and_true] at agree
  obtain ⟨h0, h1, h2, h3, h4, h5, h6, h7, h8, h9, h10, h11⟩ := agree
  obtain ⟨pcb, idx, state, derr, spare, mask, pj, cnt, view, depth, frame, coil, sp, fb, dl, error, noError, last⟩ := h
  constructor <;> simp only [h0, h1, h2, h3, h4, h5, h6, h7, h8, h9, h10, h11] <;> assumption

theorem slotBlock_holds {s : State} {i : SlotId} {ws : List W64} {n : Nat} (place : StandsAt ws (s.slotBlock i) n)
    (h : (s.grp.slot i).occ = true) : BlockHolds s i fun k => ws.getD (n + k) 0 :=
  blockHolds_congr (slotBlock_occ s i h) fun _ hk => place.getD (by simpa using hk)

theorem frameWords_holds (s : State) (c : Cause) (h : c.code < 256) : FrameHolds s c fun k => (s.frameWords c).getD k 0 := by
  obtain ⟨cause, join, blockA, blockB, futures, preds, mode, scalars, rest⟩ := frameWords_parts s c
  generalize s.frameWords c = ws at *
  have five {k : Nat} (hk : k < 5) : ws.getD k 0 = (s.causeWords c).getD k 0 := by simpa only [Nat.zero_add] using cause.getD hk
  have three {k : Nat} (hk : k < 3) : ws.getD (5 + k) 0 = s.grp.joinWords.getD k 0 := join.getD (by simpa using hk)
  have twelve {k : Nat} (hk : k < 12) : ws.getD (52 + k) 0 = s.modeWords.getD k 0 := mode.getD hk
  have futureWord (k : Fin 16) : ws.getD (32 + k) 0 = (s.grp.f[k]).word := by
    rw [futures.getD (by simp [Group.futureWords])]
    simp [Group.futureWords]
  have predWord (k : Fin 8) : ws.getD (48 + k / 2) 0 = s.grp.predWord (k / 2) := by
    rw [preds.getD (by simp; omega)]
    simp [List.getD_eq_getElem?_getD, show k.val / 2 < 4 by omega]
  have zeros {k : Nat} (lo : 128 ≤ k) (hi : k < 512) : ws.getD k 0 = 0 := by
    obtain ⟨j, rfl⟩ := Nat.exists_eq_add_of_le lo
    rw [rest.getD (by rw [List.length_replicate]; omega), getD_zeros]
  have fields : CauseFields c s.sel (ws.getD 0 0) := (five (k := 0) (by decide)) ▸ word_fields c s.sel h
  refine
    { code := fields.code, slot := fields.slot, lv := fields.lv.trans (laneBits_lv c), sec := fields.sec, operand := fields.operand
      spare := fields.spare, reason := fields.reason
      lane := fun l hl => fields.lane.trans (by rw [laneBits_some hl]; omega)
      noLane := fun hl => fields.lane.trans (by rw [laneBits_none hl])
      addr := five (k := 1) (by decide), aux := ⟨five (k := 2) (by decide), five (k := 3) (by decide)⟩, live := five (k := 4) (by decide)
      join := fun j hj => ?_
      noJoin := fun hj => ?_
      blockA := slotBlock_holds blockA
      blockB := slotBlock_holds blockB
      freeA := fun ho k hk => (blockA.getD (by simpa using hk)).trans (slotBlock_free s .a ho k)
      freeB := fun ho k hk => (blockB.getD (by simpa using hk)).trans (slotBlock_free s .b ho k)
      futures := fun k => (futureWord k) ▸ ⟨(future_bits _).1, (future_bits _).2.1⟩
      futureSpare := fun k hk => (futureWord ⟨k, hk⟩) ▸ (future_bits _).2.2
      preds := fun k => (predWord k) ▸ predWord_bits s.grp k
      mode := ⟨twelve (k := 4) (by decide), twelve (k := 5) (by decide), twelve (k := 6) (by decide)⟩, rsd := twelve (k := 7) (by decide)
      time := twelve (k := 8) (by decide), scalars := fun k => (scalars.getD (by simp)).trans (by simp)
      rest := ⟨fun k lo hi => ?_, fun k lo hi => ?_, fun _ => zeros⟩ }
  · have words : s.grp.joinWords = [j.addr, BitVec.ofNat 64 (j.depth % 65536), j.sp] := by simp [Group.joinWords, hj]
    rw [words] at three
    exact ⟨three (k := 0) (by decide), three (k := 1) (by decide), three (k := 2) (by decide)⟩
  · have words : s.grp.joinWords = [0, 0, 0] := by simp [Group.joinWords, hj]
    rw [words] at three
    exact ⟨three (k := 0) (by decide), three (k := 1) (by decide), three (k := 2) (by decide)⟩
  · obtain rfl | rfl | rfl | rfl : k = 52 ∨ k = 53 ∨ k = 54 ∨ k = 55 := by omega
    · exact twelve (k := 0) (by decide)
    · exact twelve (k := 1) (by decide)
    · exact twelve (k := 2) (by decide)
    · exact twelve (k := 3) (by decide)
  · obtain rfl | rfl | rfl : k = 61 ∨ k = 62 ∨ k = 63 := by omega
    · exact twelve (k := 9) (by decide)
    · exact twelve (k := 10) (by decide)
    · exact twelve (k := 11) (by decide)

/-- Settles O32: a code is held or taken by `trapTo`'s two tests, a code that is held stops its group, and the frame and the handler's state
follow from the parts that the frame is made of and from what making room leaves alone. -/
theorem trapEntry : Obligations.TrapEntry := by
  refine ⟨fun s c free handler => ⟨trap_waits s c (inTrap_false free) handler, fun quiet => ?_⟩, fun s h => ?_, ?_⟩
  · by_cases results : s.grp.outst = []
    · exact .inl (trap_taken s c results quiet)
    · exact (trap_either s c).imp_right fun h => ⟨results, h⟩
  · simp [State.canIssue, stirs_raised s h]
  · intro s u v c free handler code hu written
    subst hu
    refine ⟨fun t entered => ⟨?_, enterTrap_handling (grpWrite_grp written) entered⟩, frameWords_length .., frameWords_holds _ c code⟩
    rw [takeTrap_enters s v c (inTrap_false free) handler written, entered]

end Sys2Proof.Machine
end

section
/-! PROOFS. A performed store entry (R174, R176, R300, R359): a piece of no bytes at the start of a sector counts as outside that sector, yet
its read has the base die take what the write-back buffer holds of it. -/
namespace Sys2Proof.Machine
open Sys2Proof Sys2Proof.Statements

/-- After reset, with one byte of sector 1 in the write-back buffer of die 0. -/
def bufferedByte : State := { State.reset with wbuf := [⟨0, 0, 0, 1, [1], 1, false⟩] }

/-- A lane whose one piece has no bytes, at the start of sector 1. -/
def emptyLane : LaneAcc := { lane := 0, ea := 32, pieces := [⟨32, 0, .normal⟩] }

/-- A queued reduction of that lane, by die 0. -/
def emptyRed : StoreOp :=
  { group := 0, tags := {}, cnt := .st, counted := true, part := 0, vf := 0, die := 0, cluster := 0, core := 0
    kind := .red .add .i32 .die .dflt [emptyLane] }

theorem emptyLane_outside : outsideSectors [emptyLane] 32 := by
  simp [outsideSectors, emptyLane]

theorem emptyRed_writes : memGet (bufferedByte.performEntry emptyRed).mem 32 = 1 := by decide

/-- Refutes O11: address 32 is in sector 1, which the lane's empty piece at 32 does not reach by `outsideSectors`, for (32 + 0 - 1) / 32 < 1;
the reduction reads sector 1, and the buffered byte reaches memory. -/
theorem not_performedStores : ¬ Obligations.PerformedStores := by
  intro h
  have same := h.1 bufferedByte emptyRed [emptyLane] 32 (by decide) rfl (.inr emptyLane_outside)
  rw [emptyRed_writes] at same
  exact absurd same (by decide)

end Sys2Proof.Machine
end

section
/-! PROOFS. The canonical form of both memories through the operations of the model: what each shape of an answer carries. -/
namespace Sys2Proof.Machine
open Sys2Proof Sys2Proof.Statements

/-! ### Carrying the form -/

/-- A state with the memories of another in the form is in the form. -/
theorem form_same {s t : State} (h : memoryForm s) (hm : t.mem = s.mem) (hh : t.hmem = s.hmem) : memoryForm t := by
  obtain ⟨mem, hmem⟩ := h
  exact ⟨hm ▸ mem, hh ▸ hmem⟩

theorem form_foldl {α : Type} {l : List α} {f : State → α → State} {s : State} (hf : ∀ u x, memoryForm u → memoryForm (f u x))
    (h : memoryForm s) : memoryForm (l.foldl f s) := by
  induction l generalizing s with
  | nil => exact h
  | cons x r ih => exact ih (hf s x h)

theorem form_foldl_snd {α β : Type} {l : List α} {f : β × State → α → β × State} {p : β × State}
    (hf : ∀ q x, memoryForm q.2 → memoryForm (f q x).2) (h : memoryForm p.2) : memoryForm (l.foldl f p).2 := by
  induction l generalizing p with
  | nil => exact h
  | cons x r ih => exact ih (hf p x h)

theorem form_foldl_fst {α β : Type} {l : List α} {f : State × β → α → State × β} {p : State × β}
    (hf : ∀ q x, memoryForm q.1 → memoryForm (f q x).1) (h : memoryForm p.1) : memoryForm (l.foldl f p).1 := by
  induction l generalizing p with
  | nil => exact h
  | cons x r ih => exact ih (hf p x h)

theorem form_foldl_thd {α β γ : Type} {l : List α} {f : β × γ × State → α → β × γ × State} {p : β × γ × State}
    (hf : ∀ q x, memoryForm q.2.2 → memoryForm (f q x).2.2) (h : memoryForm p.2.2) : memoryForm (l.foldl f p).2.2 := by
  induction l generalizing p with
  | nil => exact h
  | cons x r ih => exact ih (hf p x h)

theorem of_snd {α : Type} {r : α × State} {a : α} {u : State} (e : r = (a, u)) (h : memoryForm r.2) : memoryForm u := by
  rw [e] at h
  exact h

theorem of_thd {α β : Type} {r : α × β × State} {a : α} {b : β} {u : State} (e : r = (a, b, u)) (h : memoryForm r.2.2) : memoryForm u := by
  rw [e] at h
  exact h

theorem of_fth {α β γ : Type} {r : α × β × γ × State} {a : α} {b : β} {c : γ} {u : State} (e : r = (a, b, c, u)) (h : memoryForm r.2.2.2) :
    memoryForm u := by
  rw [e] at h
  exact h

/-! ### Operations that may stop short -/

/-- An operation's result meets `Q`, and a state in which it holds is in the form. -/
def Keeps {α : Type} (Q : α → Prop) : Res α → Prop
  | .ok a => Q a
  | .error (.raise _) => True
  | .error (.hold t) => memoryForm t

theorem keeps_ok {α : Type} {Q : α → Prop} {a : α} (h : Q a) : Keeps Q (.ok a) := h
theorem keeps_raise {α : Type} {Q : α → Prop} {c : Cause} : Keeps Q (raise c : Res α) := trivial
theorem keeps_illegal {α : Type} {Q : α → Prop} {s : State} : Keeps Q (s.illegal : Res α) := trivial
theorem keeps_error {α : Type} {Q : α → Prop} {c : Cause} : Keeps Q (.error (.raise c) : Res α) := trivial
theorem keeps_hold {α : Type} {Q : α → Prop} {t : State} (h : memoryForm t) : Keeps Q (.error (.hold t) : Res α) := h

theorem keeps_bind {α β : Type} {Q : α → Prop} {R : β → Prop} {x : Res α} {f : α → Res β} (hx : Keeps Q x) (hf : ∀ a, Q a → Keeps R (f a)) :
    Keeps R (x >>= f) := by
  rcases x with (c | t) | a
  · trivial
  · exact hx
  · exact hf a hx

theorem keeps_foldlM {α β : Type} {Q : β → Prop} {l : List α} {f : β → α → Res β} {p : β} (hf : ∀ q x, Q q → Keeps Q (f q x)) (h : Q p) :
    Keeps Q (l.foldlM f p) := by
  induction l generalizing p with
  | nil => exact keeps_ok h
  | cons x r ih => exact keeps_bind (hf p x h) fun _ hq => ih hq

theorem keeps_mono {α : Type} {Q R : α → Prop} {r : Res α} (h : Keeps Q r) (hq : ∀ a, Q a → R a) : Keeps R r := by
  rcases r with (c | t) | a
  · trivial
  · exact h
  · exact hq a h

theorem keeps_must {b : Bool} {c : Cause} : Keeps (fun _ => True) (must b c) := by cases b <;> trivial

theorem of_ok {α : Type} {Q : α → Prop} {r : Res α} {a : α} (e : r = .ok a) (h : Keeps Q r) : Q a := by
  rw [e] at h
  exact h

theorem of_hold {α : Type} {Q : α → Prop} {r : Res α} {t : State} (e : r = .error (.hold t)) (h : Keeps Q r) : memoryForm t := by
  rw [e] at h
  exact h

theorem of_error {α β : Type} {Q : α → Prop} {R : β → Prop} {r : Res α} {x : Stop} (e : r = .error x) (h : Keeps Q r) :
    Keeps R (.error x : Res β) := by
  rw [e] at h
  cases x <;> exact h

/-! ### Operations that may have no result -/

/-- A result, where there is one, meets `Q`. -/
def Gives {α : Type} (Q : α → Prop) : Option α → Prop
  | some a => Q a
  | none => True

theorem gives_none {α : Type} {Q : α → Prop} : Gives Q none := trivial
theorem gives_some {α : Type} {Q : α → Prop} {a : α} (h : Q a) : Gives Q (some a) := h

theorem gives_any {α : Type} {o : Option α} : Gives (fun _ => True) o := by cases o <;> trivial

theorem gives_bind {α β : Type} {Q : α → Prop} {R : β → Prop} {x : Option α} {f : α → Option β} (hx : Gives Q x)
    (hf : ∀ a, Q a → Gives R (f a)) : Gives R (x >>= f) := by
  cases x with
  | none => trivial
  | some a => exact hf a hx

theorem gives_map {α β : Type} {Q : α → Prop} {R : β → Prop} {o : Option α} {f : α → β} (ho : Gives Q o) (hf : ∀ a, Q a → R (f a)) :
    Gives R (o.map f) := by
  cases o with
  | none => trivial
  | some a => exact hf a ho

theorem of_some {α : Type} {Q : α → Prop} {o : Option α} {a : α} (e : o = some a) (h : Gives Q o) : Q a := by
  rw [e] at h
  exact h

/-! ### Answers of instructions and events -/

/-- An instruction or event that answers a next state, in the form where it was before. -/
def Goes (s : State) (o : Out) : Prop := ∃ t, o = .next t ∧ (memoryForm s → memoryForm t)

theorem goes_next {s t : State} (h : memoryForm s → memoryForm t) : Goes s (.next t) := ⟨t, rfl, h⟩

theorem goes_of {s u : State} {o : Out} (h : memoryForm s → memoryForm u) (g : Goes u o) : Goes s o := by
  obtain ⟨t, rfl, ht⟩ := g
  exact ⟨t, rfl, fun hs => ht (h hs)⟩

end Sys2Proof.Machine
end

section
/-! PROOFS. What the model's functions answer and that they keep the form of both memories: the state, memory, translation, the network, accesses and the operations of groups. -/
namespace Sys2Proof.Machine
open Sys2Proof Sys2Proof.Statements

/-! ### State -/

theorem reset_form : memoryForm State.reset := resetMemoryForm

/-! ### Memory, caches and write buffers -/

theorem touch_form {s : State} {pas : List ℕ} (h : memoryForm s) : memoryForm (s.touch pas) :=
  form_same h rfl rfl

theorem rouse_form {s : State} {ks : List ℕ} (h : memoryForm s) : memoryForm (s.rouse ks) :=
  form_same h rfl rfl

theorem basePut_form {s : State} {part pa : ℕ} {bs : List Byte} (h : memoryForm s) : memoryForm (s.basePut part pa bs) :=
  ⟨basePut_wf s part pa bs h.1, h.2⟩

theorem basePutMasked_form {s : State} {part sec : ℕ} {bs : List Byte} {mask : LaneMask} (h : memoryForm s) :
    memoryForm (s.basePutMasked part sec bs mask) := by
  unfold State.basePutMasked
  refine form_foldl (fun u i hu => ?_) (form_same h rfl rfl)
  split
  · exact ⟨memSet_wf _ _ _ hu.1, hu.2⟩
  · exact hu

theorem drainChannel_form {s : State} (h : memoryForm s) : memoryForm s.drainChannel :=
  form_same h rfl rfl

theorem setCredit_form {s : State} {part die : ℕ} {v : ℤ} (h : memoryForm s) : memoryForm (s.setCredit part die v) :=
  form_same h rfl rfl

theorem charge_form {s : State} {part die packets payload : ℕ} (h : memoryForm s) : memoryForm (s.charge part die packets payload) := by
  unfold State.charge
  split
  · exact setCredit_form h
  · exact h

theorem request_form {s : State} {part die payload : ℕ} (h : memoryForm s) : memoryForm (s.request part die payload) :=
  form_same (s := s.charge part die 2 payload) (charge_form h) rfl rfl

theorem paid_form {s : State} {part die : ℕ} {t : State} (h : memoryForm s) (ht : memoryForm t) : memoryForm (s.paid part die t) := by
  unfold State.paid
  split
  · exact h
  · exact ht

theorem settleCredits_form {s : State} {part : ℕ} (h : memoryForm s) : memoryForm (s.settleCredits part) :=
  form_same h rfl rfl

theorem chargeFetch_form {s : State} {part die : ℕ} (h : memoryForm s) : memoryForm (s.chargeFetch part die) :=
  request_form h

theorem baseStore_form {s : State} {die part sec : ℕ} {bs : List Byte} {mask : LaneMask} (h : memoryForm s) :
    memoryForm (s.baseStore die part sec bs mask) :=
  basePutMasked_form (form_same h rfl rfl)

theorem ackEntry_form {s : State} {w : WbEntry} (h : memoryForm s) : memoryForm (s.ackEntry w) := by
  unfold State.ackEntry
  extract_lets s1
  split
  · exact form_same (s := s1) (charge_form (basePutMasked_form h)) rfl rfl
  · exact charge_form (basePutMasked_form h)

theorem ackAll_form {s : State} {p : WbEntry → Bool} (h : memoryForm s) : memoryForm (s.ackAll p) := by
  unfold State.ackAll
  extract_lets s'0
  refine form_same (s := s'0) ?_ rfl rfl
  refine form_foldl (fun u1 x1 h1 => ?_) h
  exact ackEntry_form h1

theorem fetchSector_form {s : State} {die part sec : ℕ} (h : memoryForm s) : memoryForm (s.fetchSector die part sec).2.2 := by
  unfold State.fetchSector
  split
  · exact h
  · exact chargeFetch_form (touch_form (ackAll_form h))

theorem l2Set_form {s : State} {die part sec : ℕ} {f : L2Sector → L2Sector} (h : memoryForm s) : memoryForm (s.l2Set die part sec f) :=
  form_same h rfl rfl

theorem l2Drop_form {s : State} {p : L2Sector → Bool} (h : memoryForm s) : memoryForm (s.l2Drop p) :=
  form_same h rfl rfl

theorem l1Drop_form {s : State} {p : L1Sector → Bool} (h : memoryForm s) : memoryForm (s.l1Drop p) :=
  form_same h rfl rfl

theorem evictLine_form {s : State} {die part line : ℕ} (h : memoryForm s) : memoryForm (s.evictLine die part line) :=
  form_same h rfl rfl

theorem l2Touch_form {s : State} {die part sec : ℕ} (h : memoryForm s) : memoryForm (s.l2Touch die part sec) :=
  form_same h rfl rfl

theorem l2New_form {s : State} {x : L2Sector} (h : memoryForm s) : memoryForm (s.l2New x) := by
  unfold State.l2New
  split
  · exact l2Touch_form (form_same h rfl rfl)
  · extract_lets t1
    refine form_same (s := t1) ?_ rfl rfl
    unfold t1
    split
    · exact h
    · split
      · exact evictLine_form h
      · exact h

theorem readDie_form {s : State} {die part vf sec : ℕ} {cp : Cp} (h : memoryForm s) : memoryForm (s.readDie die part vf sec cp).2.2 := by
  unfold State.readDie
  split
  · extract_lets s1 s2
    split
    · exact form_same h rfl rfl
    · split
      · exact l2Touch_form h
      · split
        · next e1 =>
          extract_lets bs1
          split
          · split
            · exact l2Drop_form (of_thd e1 (fetchSector_form (l2Touch_form h)))
            · exact of_thd e1 (fetchSector_form (l2Touch_form h))
          · exact l2Set_form (of_thd e1 (fetchSector_form (l2Touch_form h)))
  · split
    · next e2 =>
      split
      · exact of_thd e2 (fetchSector_form h)
      · split
        · exact of_thd e2 (fetchSector_form h)
        · exact l2New_form (of_thd e2 (fetchSector_form h))

theorem storeDie_form {s : State} {die part vf sec : ℕ} {cp : Cp} {bs : List Byte} {mask : LaneMask} (h : memoryForm s) :
    memoryForm (s.storeDie die part vf sec cp bs mask) := by
  unfold State.storeDie
  split
  · exact l2Set_form (l2Touch_form h)
  · split
    · exact request_form (baseStore_form h)
    · exact l2New_form h

theorem storePkg_form {s : State} {die part vf sec : ℕ} {bs : List Byte} {mask : LaneMask} (h : memoryForm s) :
    memoryForm (s.storePkg die part vf sec bs mask) := by
  unfold State.storePkg
  extract_lets s1
  split
  · exact l2Set_form (l2Touch_form (request_form (baseStore_form h)))
  · exact l2New_form (request_form (baseStore_form h))

theorem readPkg_form {s : State} {die part sec : ℕ} (h : memoryForm s) : memoryForm (s.readPkg die part sec).2.2 := by
  unfold State.readPkg
  extract_lets s1
  split
  · next e1 =>
    split
    · split
      · exact form_same (of_thd e1 (fetchSector_form (ackAll_form h))) rfl rfl
      · split
        · split
          · exact l2Drop_form (of_thd e1 (fetchSector_form (ackAll_form h)))
          · exact of_thd e1 (fetchSector_form (ackAll_form h))
        · exact l2Set_form (of_thd e1 (fetchSector_form (ackAll_form h)))
    · exact of_thd e1 (fetchSector_form (ackAll_form h))

theorem cleanSector_form {s : State} {x : L2Sector} (h : memoryForm s) : memoryForm (s.cleanSector x) :=
  l2Set_form (charge_form (baseStore_form h))

theorem cleanPart_form {s : State} {p : L2Sector → Bool} (h : memoryForm s) : memoryForm (s.cleanPart p) := by
  unfold State.cleanPart
  refine form_foldl (fun u1 x1 h1 => ?_) h
  split
  · exact form_same h1 rfl rfl
  · exact cleanSector_form h1

theorem rereadPage_hmem {s : State} {old new : List Byte × List Byte} {page : ℕ} : (s.rereadPage old new page).hmem = s.hmem := by
  unfold State.rereadPage
  generalize List.range 2048 = l
  rfl

theorem rereadPage_form {s : State} {old new : List Byte × List Byte} {page : ℕ} (h : memoryForm s) : memoryForm (s.rereadPage old new page) := by
  obtain ⟨hm, hh⟩ := h
  refine And.intro (rereadPage_wf s old new page hm) ?_
  rw [rereadPage_hmem]
  exact hh

theorem hostWrite_form {s : State} {vf pa : ℕ} {bs : List Byte} (h : memoryForm s) : memoryForm (s.hostWrite vf pa bs) := by
  unfold State.hostWrite
  split
  · exact h
  · extract_lets blk old
    clear_value old
    split
    · exact h
    · exact ⟨h.1, memWrite_wf _ _ _ (memWrite_wf _ _ _ h.2)⟩

/-! ### Translation -/

theorem readTable_form {s : State} {die part vf pa : ℕ} (h : memoryForm s) : memoryForm (s.readTable die part vf pa).2.2 := by
  unfold State.readTable
  split
  · next e1 => exact of_thd e1 (readDie_form h)

theorem readRoot_form {s : State} {die part vf pa : ℕ} (h : memoryForm s) : memoryForm (s.readRoot die part vf pa).2 := by
  unfold State.readRoot
  split
  · next e1 => exact of_thd e1 (readTable_form h)
  · next e2 => exact l2Drop_form (form_same (of_thd e2 (readTable_form h)) rfl rfl)

theorem walk2_form {s : State} {die part vf x n n' : ℕ} (h : memoryForm s) : memoryForm (s.walk2 die part vf x n n').2 := by
  induction n generalizing s die part vf x n' with
  | zero => exact h
  | succ m ih =>
    unfold State.walk2
    split
    · next e1 =>
      split
      · exact of_snd e1 (readRoot_form h)
      · exact of_snd e1 (readRoot_form h)
      · exact ih (of_snd e1 (readRoot_form h))

theorem readEntry_form {s : State} {die part vf : ℕ} {kind : Kind} {pa : ℕ} (h : memoryForm s) : memoryForm
    (s.readEntry die part vf kind pa).2.2 := by
  unfold State.readEntry
  split
  · exact readTable_form h
  · exact chargeFetch_form (touch_form h)
  · split
    · exact chargeFetch_form h

theorem walk1_form {s : State} {die part vf root2 x n n' : ℕ} (h : memoryForm s) : memoryForm (s.walk1 die part vf root2 x n n').2 := by
  induction n generalizing s die part vf root2 x n' with
  | zero => exact h
  | succ m ih =>
    unfold State.walk1
    extract_lets ia1
    split
    · next e1 => exact of_snd e1 (walk2_form h)
    · next e2 =>
      split
      · exact of_snd e2 (walk2_form h)
      · split
        · next e3 =>
          split
          · exact of_thd e3 (readEntry_form (of_snd e2 (walk2_form h)))
          · split
            · exact of_thd e3 (readEntry_form (of_snd e2 (walk2_form h)))
            · exact ih (of_thd e3 (readEntry_form (of_snd e2 (walk2_form h))))
            · split
              · next e4 => exact of_snd e4 (walk2_form (of_thd e3 (readEntry_form (of_snd e2 (walk2_form h)))))
              · next e5 => exact of_snd e5 (walk2_form (of_thd e3 (readEntry_form (of_snd e2 (walk2_form h)))))

theorem setCtx_form {s : State} {vf part : ℕ} {f : Ctx → Ctx} (h : memoryForm s) : memoryForm (s.setCtx vf part f) :=
  form_same h rfl rfl

theorem walkVa_form {s : State} {die part vf va : ℕ} (h : memoryForm s) : memoryForm (s.walkVa die part vf va).2 := by
  unfold State.walkVa
  split
  · exact h
  · exact walk1_form h

theorem tlbAdd_form {s : State} {e : TlbEntry} (h : memoryForm s) : memoryForm (s.tlbAdd e) :=
  form_same h rfl rfl

theorem translate_form {s : State} {die part vf : ℕ} {a : W64} (h : memoryForm s) : memoryForm (s.translate die part vf a).2 := by
  unfold State.translate
  split
  · exact h
  · extract_lets va1
    split
    · exact h
    · split
      · next e1 => exact tlbAdd_form (of_snd e1 (walkVa_form h))
      · next e2 => exact of_snd e2 (walkVa_form h)
      · next e3 => exact of_snd e3 (walkVa_form h)

theorem translateFor_form {s : State} {die part vf : ℕ} {a : W64} {need : Xl → Bool} (h : memoryForm s) :
    memoryForm (s.translateFor die part vf a need).2 := by
  unfold State.translateFor
  split
  · next e1 =>
    split
    · exact of_snd e1 (translate_form h)
    · exact of_snd e1 (translate_form h)
  · exact translate_form h

theorem openMiss_form {s : State} {die cluster core part vf page : ℕ} (h : memoryForm s) : memoryForm (s.openMiss die cluster core part vf page) := by
  unfold State.openMiss
  split
  · exact h
  · split
    · exact h
    · exact form_same h rfl rfl

/-! ### The network -/

theorem toll_form {s : State} {p : Packet} (h : memoryForm s) : memoryForm (s.toll p) := by
  unfold State.toll
  split
  · exact h
  · exact charge_form h

theorem putPacket_form {s : State} {p : Packet} (h : memoryForm s) : memoryForm (s.putPacket p) :=
  form_same h rfl rfl

theorem sendMsg_form {s : State} {cls : Traffic} {part vf die port bytes plane : ℕ} {line : Option ℕ} {m : NetMsg} (h : memoryForm s) :
    memoryForm (s.sendMsg cls part vf die port bytes plane line m) := by
  unfold State.sendMsg
  split
  · exact form_same h rfl rfl
  · exact putPacket_form h

theorem sendFrom_form {s : State} {stack : ℕ} {ms : List NetMsg} (h : memoryForm s) : memoryForm (s.sendFrom stack ms) := by
  unfold State.sendFrom
  refine form_foldl (fun u1 x1 h1 => ?_) h
  exact sendMsg_form h1

theorem answerFrom_form {s : State} {stack part vf bytes line : ℕ} {m : NetMsg} (h : memoryForm s) :
    memoryForm (s.answerFrom stack part vf bytes line m) :=
  sendMsg_form h

theorem exportMap_form {s : State} {vf part off : ℕ} (h : memoryForm s) : memoryForm (s.exportMap vf part off).2 := by
  unfold State.exportMap
  split
  · exact h
  · exact translateFor_form h

/-! ### Accesses -/

theorem setGang_form {s : State} {key : ℕ} {f : Gang → Gang} (h : memoryForm s) : memoryForm (s.setGang key f) :=
  form_same h rfl rfl

theorem storeSub_form {s : State} {w : Here} {p : Piece} {merge : List Byte → List Byte} (h : memoryForm s) : memoryForm (s.storeSub w p merge) :=
  request_form (basePut_form (l2Set_form (form_same h rfl rfl)))

theorem storePiece_form {s : State} {w : Here} {sc : Scope} {cp : Cp} {p : Piece} {data : List Byte} (h : memoryForm s) :
    memoryForm (s.storePiece w sc cp p data) := by
  unfold State.storePiece
  split
  · exact request_form (basePut_form h)
  · exact request_form (hostWrite_form h)
  · extract_lets sec1 bs1 m1
    split
    · exact storePkg_form h
    · exact storePkg_form h
    · exact storeDie_form h

theorem readPiece_form {s : State} {w : Here} {wide : Bool} {cp : Cp} {p : Piece} (h : memoryForm s) : memoryForm (s.readPiece w wide cp p).2.2 := by
  unfold State.readPiece
  split
  · exact request_form (touch_form h)
  · split
    · exact request_form h
  · extract_lets sec1
    split
    · next e1 =>
      refine of_thd e1 ?_
      split
      · exact readPkg_form h
      · exact readDie_form h

theorem storeLane_form {s : State} {w : Here} {sc : Scope} {cp : Cp} {t : Ty} {l : LaneAcc} (h : memoryForm s) :
    memoryForm (s.storeLane w sc cp t l) := by
  unfold State.storeLane
  refine form_foldl (fun u1 x1 h1 => ?_) h
  split
  · exact h1
  · split
    · exact storeSub_form h1
    · split
      · split
        · next e1 => exact storePiece_form (of_thd e1 (readPiece_form h1))
      · exact storePiece_form h1

theorem l1DropSec_form {s : State} {w : Here} {sec : ℕ} (h : memoryForm s) : memoryForm (s.l1DropSec w sec) :=
  l1Drop_form h

theorem atomicStep_form {s : State} {w : Here} {op : AtomOp} {t : Ty} {cp : Cp} {p : Piece} {b c : ℕ} (h : memoryForm s) :
    memoryForm (s.atomicStep w op t cp p b c).2.2 := by
  unfold State.atomicStep
  split
  · next e1 =>
    extract_lets old1 s1
    split
    · exact of_thd e1 (readPiece_form h)
    · split
      · exact l1DropSec_form (storePiece_form (of_thd e1 (readPiece_form h)))
      · exact storePiece_form (of_thd e1 (readPiece_form h))

theorem serve_form {s : State} {req : RemReq} (h : memoryForm s) : memoryForm (s.serve req).2.2.2 := by
  unfold State.serve
  split
  · exact h
  · split
    · next e1 => exact of_snd e1 (exportMap_form h)
    · next e2 =>
      extract_lets at_1
      split
      · exact of_snd e2 (exportMap_form h)
      · split
        · exact of_snd e2 (exportMap_form h)
        · exact touch_form (of_snd e2 (exportMap_form h))
      · split
        · exact of_snd e2 (exportMap_form h)
        · exact basePut_form (of_snd e2 (exportMap_form h))
      · split
        · exact of_snd e2 (exportMap_form h)
        · split
          · next e3 => exact of_thd e3 (atomicStep_form (of_snd e2 (exportMap_form h)))

theorem serveOwn_form {s : State} {w : Here} {l : LaneAcc} {n : ℕ} {kind : RemKind} (h : memoryForm s) : memoryForm (s.serveOwn w l n kind).2.2 := by
  unfold State.serveOwn
  split
  · next e1 => exact of_fth e1 (serve_form (request_form h))

theorem sendPeer_form {s : State} {w : Here} {n : ℕ} {lanes : List LaneAcc} {kind : LaneAcc → RemKind} (h : memoryForm s) :
    memoryForm (s.sendPeer w n lanes kind) := by
  unfold State.sendPeer
  refine form_foldl (fun u1 x1 h1 => ?_) h
  exact sendMsg_form h1

theorem performEntry_form {s : State} {o : StoreOp} (h : memoryForm s) : memoryForm (s.performEntry o) := by
  unfold State.performEntry
  extract_lets w1
  split
  · refine form_foldl (fun u1 x1 h1 => ?_) h
    exact storeLane_form h1
  · refine form_foldl (fun u2 x2 h2 => ?_) h
    split
    · exact atomicStep_form h2
    · exact h2
  · refine form_foldl (fun u3 x3 h3 => ?_) h
    split
    · exact setGang_form h3
    · exact h3
  · refine form_foldl (fun u4 x4 h4 => ?_) h
    extract_lets inLine1 mine1 l1 clean1
    split
    · exact ackAll_form (cleanPart_form h4)
    · exact l2Drop_form (l1Drop_form h4)
    · exact l2Drop_form (l1Drop_form (ackAll_form (cleanPart_form h4)))
  · exact h

theorem drainSecs_form {s : State} {w : Here} {secs : List ℕ} (h : memoryForm s) : memoryForm (s.drainSecs w secs) := by
  unfold State.drainSecs
  split
  · refine form_foldl (fun u1 x1 h1 => ?_) (form_same h rfl rfl)
    exact performEntry_form h1

theorem sendStore_form {s : State} {o o' : StoreOp} (h : memoryForm s) : memoryForm (s.sendStore o o') := by
  unfold State.sendStore
  split
  · split
    · exact h
    · exact sendPeer_form h
  · exact h

theorem drainQueue_form {s : State} {p : StoreOp → Bool} (h : memoryForm s) : memoryForm (s.drainQueue p) := by
  unfold State.drainQueue
  refine form_foldl (fun u1 x1 h1 => ?_) (form_same h rfl rfl)
  exact performEntry_form h1

theorem l1Set_form {s : State} {w : Here} {sec : ℕ} {f : List Byte → List Byte} (h : memoryForm s) : memoryForm (s.l1Set w sec f) :=
  form_same h rfl rfl

theorem l1DropLine_form {s : State} {w : Here} {line : ℕ} (h : memoryForm s) : memoryForm (s.l1DropLine w line) :=
  l1Drop_form h

theorem l1Room_form {s : State} {w : Here} {sec : ℕ} (h : memoryForm s) : memoryForm (s.l1Room w sec) := by
  unfold State.l1Room
  extract_lets mine1 lines1 early1 cand1 c1
  split
  · exact h
  · split
    · exact h
    · exact l1DropLine_form h

theorem l1Fill_form {s : State} {w : Here} {cp : Cp} {sec : ℕ} {bs : List Byte} (h : memoryForm s) : memoryForm (s.l1Fill w cp sec bs) :=
  form_same (s := s.l1Room w sec) (l1Room_form h) rfl rfl

theorem loadPiece_form {s : State} {w : Here} {sc : Scope} {cp : Cp} {p : Piece} (h : memoryForm s) : memoryForm (s.loadPiece w sc cp p).2.2 := by
  unfold State.loadPiece
  split
  · exact readPiece_form (drainSecs_form h)
  · extract_lets sec1 cut1 s1
    split
    · split
      · exact l1DropSec_form h
      · exact h
    · split
      · next e1 =>
        split
        · refine of_thd e1 ?_
          split
          · exact readPkg_form (drainSecs_form h)
          · exact readDie_form (drainSecs_form h)
        · split
          · split
            · refine of_thd e1 ?_
              split
              · exact readPkg_form (drainSecs_form h)
              · exact readDie_form (drainSecs_form h)
            · refine of_thd e1 ?_
              split
              · exact readPkg_form (drainSecs_form h)
              · exact readDie_form (drainSecs_form h)
            · refine of_thd e1 ?_
              split
              · exact readPkg_form (drainSecs_form h)
              · exact readDie_form (drainSecs_form h)
            · refine l1Fill_form ?_
              refine of_thd e1 ?_
              split
              · exact readPkg_form (drainSecs_form h)
              · exact readDie_form (drainSecs_form h)
          · split
            · refine l1DropSec_form ?_
              refine of_thd e1 ?_
              split
              · exact readPkg_form (drainSecs_form h)
              · exact readDie_form (drainSecs_form h)
            · split
              · refine l1Set_form ?_
                refine of_thd e1 ?_
                split
                · exact readPkg_form (drainSecs_form h)
                · exact readDie_form (drainSecs_form h)
              · refine of_thd e1 ?_
                split
                · exact readPkg_form (drainSecs_form h)
                · exact readDie_form (drainSecs_form h)

theorem loadLane_form {s : State} {w : Here} {sc : Scope} {cp : Cp} {ps : List Piece} (h : memoryForm s) : memoryForm
    (s.loadLane w sc cp ps).2.2 := by
  unfold State.loadLane
  refine form_foldl_thd (fun p1 x1 h1 => ?_) h
  split
  · split
    · next e1 => exact of_thd e1 (loadPiece_form h1)

theorem l1Update_form {s : State} {w : Here} {cp : Cp} {t : Ty} {l : LaneAcc} {i : ℕ} {p : Piece} (h : memoryForm s) :
    memoryForm (s.l1Update w cp t l i p) := by
  unfold State.l1Update
  split
  · exact h
  · extract_lets sec1 s1
    split
    · exact l1DropSec_form (l1Set_form h)
    · exact l1Set_form h

theorem l1UpdateLane_form {s : State} {w : Here} {cp : Cp} {t : Ty} {l : LaneAcc} (h : memoryForm s) : memoryForm (s.l1UpdateLane w cp t l) := by
  unfold State.l1UpdateLane
  refine form_foldl (fun u1 x1 h1 => ?_) h
  split
  · exact h1
  · exact l1Update_form h1

theorem enqueueStore_form {s : State} {o : StoreOp} (h : memoryForm s) : memoryForm (s.enqueueStore o) := by
  unfold State.enqueueStore
  extract_lets s1
  refine form_same (s := s1) ?_ rfl rfl
  unfold s1
  split
  · refine form_foldl (fun u1 x1 h1 => ?_) h
    exact l1UpdateLane_form h1
  · refine form_foldl (fun u2 x2 h2 => ?_) h
    exact l1DropSec_form h2
  · exact h

theorem setGrp_form {s : State} {f : Group → Group} (h : memoryForm s) : memoryForm (s.setGrp f) :=
  form_same h rfl rfl

theorem sendLoad_form {s : State} {e e' : Outst} (h : memoryForm s) : memoryForm (s.sendLoad e e') := by
  unfold State.sendLoad
  split
  · split
    · exact h
    · exact sendPeer_form h
  · exact h

theorem returnLane_form {s : State} {e : Outst} {l : LaneAcc} {rem : List RemLane} (h : memoryForm s) : memoryForm (s.returnLane e l rem).2 := by
  unfold State.returnLane
  extract_lets w1 s1 g1 s2 g2
  split
  · split
    · next e1 => exact of_thd e1 (loadLane_form h)
  · split
    · exact drainQueue_form h
    · exact drainQueue_form h
  · split
    · extract_lets s3
      split
      · next e2 => exact of_thd e2 (atomicStep_form (drainSecs_form h))
    · exact h
  · split
    · split
      · exact drainQueue_form h
      · exact setGang_form (drainQueue_form h)
    · exact drainQueue_form h
  · extract_lets value1
    split
    · split
      · next e3 => exact of_thd e3 (serveOwn_form h)
    · split
      · exact charge_form h
      · exact h
  · exact h
  · exact h

theorem returnEntry_form {s : State} {before : List Outst} {e : Outst} {lanes : LaneMask} {rem : List RemLane} (h : memoryForm s) :
    memoryForm (s.returnEntry before e lanes rem).2 := by
  unfold State.returnEntry
  split
  · next e1 =>
    split
    · next e2 =>
      split
      · refine setGrp_form ?_
        refine of_snd e1 ?_
        refine form_foldl_snd (fun p1 x1 h1 => ?_) h
        split
        · split
          · exact h1
          · split
            · next e3 => exact of_snd e3 (returnLane_form h1)
            · next e4 => exact setGrp_form (of_snd e4 (returnLane_form h1))
            · next e5 => exact of_snd e5 (returnLane_form h1)
      · refine of_snd e1 ?_
        refine form_foldl_snd (fun p2 x2 h2 => ?_) h
        split
        · split
          · exact h2
          · split
            · next e6 => exact of_snd e6 (returnLane_form h2)
            · next e7 => exact setGrp_form (of_snd e7 (returnLane_form h2))
            · next e8 => exact of_snd e8 (returnLane_form h2)
    · refine of_snd e1 ?_
      refine form_foldl_snd (fun p3 x3 h3 => ?_) h
      split
      · split
        · exact h3
        · split
          · next e9 => exact of_snd e9 (returnLane_form h3)
          · next e10 => exact setGrp_form (of_snd e10 (returnLane_form h3))
          · next e11 => exact of_snd e11 (returnLane_form h3)

theorem returnAt_form {s : State} {i : ℕ} {lanes : LaneMask} {rem : List RemLane} (h : memoryForm s) : memoryForm (s.returnAt i lanes rem) := by
  unfold State.returnAt
  split
  · exact h
  · split
    · next e1 => exact sendLoad_form (setGrp_form (of_snd e1 (returnEntry_form h)))
    · next e2 => exact setGrp_form (of_snd e2 (returnEntry_form h))

theorem returnAll_form {s : State} {p : Outst → Bool} (h : memoryForm s) : memoryForm (s.returnAll p) := by
  unfold State.returnAll
  refine form_foldl (fun u1 x1 h1 => ?_) h
  split
  · exact returnAt_form h1
  · exact h1

/-! ### Operations of groups and paths -/

theorem setSlot_form {s : State} {f : Slot → Slot} (h : memoryForm s) : memoryForm (s.setSlot f) :=
  setGrp_form h

theorem setRs_form {s : State} {r : SReg} {v : W64} (h : memoryForm s) : memoryForm (s.setRs r v) :=
  setGrp_form h

theorem setRp_form {s : State} {p : PReg} {v : LaneMask} (h : memoryForm s) : memoryForm (s.setRp p v) :=
  setGrp_form h

theorem setFut_form {s : State} {f : FReg} {v : Future} (h : memoryForm s) : memoryForm (s.setFut f v) :=
  setGrp_form h

theorem jump_form {s : State} {target : W64} (h : memoryForm s) : memoryForm (s.jump target) :=
  setSlot_form h

theorem advance_form {s : State} {n : ℕ} (h : memoryForm s) : memoryForm (s.advance n) :=
  setSlot_form h

theorem park_form {s : State} {p : Park} (h : memoryForm s) : memoryForm (s.park p) :=
  setSlot_form h

theorem must_keeps {b : Bool} {c : Cause} : Keeps (fun _ => True) (must b c) := by
  unfold must
  split
  · exact keeps_ok trivial
  · exact keeps_raise

theorem focus_form {s : State} {key : ℕ} (h : memoryForm s) : memoryForm (s.focus key) := by
  unfold State.focus
  split
  · exact h
  · split
    · exact h
    · exact form_same h rfl rfl

theorem within_form {s : State} {key : ℕ} {slot : SlotId} {f : State → State} (hf : ∀ u, memoryForm u → memoryForm (f u)) (h : memoryForm s) :
    memoryForm (s.within key slot f) := by
  have inner : memoryForm (f { s.focus key with sel := slot }) := hf _ (form_same (s := s.focus key) (focus_form h) rfl rfl)
  exact form_same (s := (f { s.focus key with sel := slot }).focus s.grp.key) (focus_form inner) rfl rfl

theorem forGroups_form {s : State} {p : Group → Bool} {f : State → State} (hf : ∀ u, memoryForm u → memoryForm (f u)) (h : memoryForm s) :
    memoryForm (s.forGroups p f) :=
  form_foldl (fun _ _ hu => within_form hf hu) h

theorem mapVa_form {s : State} {w : Here} {unit : ℕ} {a : W64} {n : ℕ} {need : Xl → Bool} (h : memoryForm s) :
    memoryForm (s.mapVa w unit a n need).2 := by
  unfold State.mapVa
  refine form_foldl_snd (fun p1 x1 h1 => ?_) h
  split
  · split
    · split
      · exact h1
      · split
        · next e1 => exact of_snd e1 (translateFor_form h1)
        · next e2 => exact of_snd e2 (translateFor_form h1)

theorem readVa_form {s : State} {w : Here} {wide : Bool} {a : W64} {n : ℕ} {cp : Cp} (h : memoryForm s) : memoryForm (s.readVa w wide a n cp).2 := by
  unfold State.readVa
  split
  · next e1 => exact of_snd e1 (mapVa_form h)
  · next e2 =>
    split
    · next e3 =>
      refine of_thd e3 ?_
      refine form_foldl_thd (fun p1 x1 h1 => ?_) (of_snd e2 (mapVa_form h))
      split
      · split
        · next e4 => exact of_thd e4 (readPiece_form h1)

theorem writePieces_form {s : State} {w : Here} {sc : Scope} {cp : Cp} {ps : List Piece} {bs : List Byte} (h : memoryForm s) :
    memoryForm (s.writePieces w sc cp ps bs) := by
  unfold State.writePieces
  refine form_foldl_fst (fun p1 x1 h1 => ?_) h
  split
  · exact storePiece_form h1

theorem writeVa_form {s : State} {w : Here} {sc : Scope} {a : W64} {bs : List Byte} {cp : Cp} (h : memoryForm s) :
    memoryForm (s.writeVa w sc a bs cp).2 := by
  unfold State.writeVa
  split
  · next e1 => exact of_snd e1 (mapVa_form h)
  · next e2 => exact writePieces_form (of_snd e2 (mapVa_form h))

theorem grpRead_form {s : State} {a : W64} {n : ℕ} (h : memoryForm s) : memoryForm (s.grpRead a n).2 := by
  unfold State.grpRead
  extract_lets w1
  split
  · next e1 => exact of_snd e1 (mapVa_form h)
  · next e2 =>
    split
    · next e3 => exact of_thd e3 (loadLane_form (of_snd e2 (mapVa_form h)))

theorem grpWrite_form {s : State} {a : W64} {bs : List Byte} (h : memoryForm s) : ∀ t, s.grpWrite a bs = .ok t → memoryForm t := by
  intro t e
  unfold State.grpWrite at e
  dsimp only at e
  split at e
  · cases e
  · next heq =>
    cases e
    exact enqueueStore_form (of_snd heq (mapVa_form h))

theorem rowWrite_keeps {s : State} {a : W64} {lanes : LaneMask} {v : Vector W32 32} (h : memoryForm s) : Keeps memoryForm (s.rowWrite a lanes v) := by
  unfold State.rowWrite
  extract_lets w1
  split
  · exact keeps_raise
  · next e1 =>
    extract_lets accs1
    exact keeps_ok (enqueueStore_form (of_snd e1 (translateFor_form h)))

theorem rowRead_keeps {s : State} {a : W64} {lanes : LaneMask} (h : memoryForm s) : Keeps (fun r => memoryForm r.2) (s.rowRead a lanes) := by
  unfold State.rowRead
  extract_lets w1
  split
  · exact keeps_raise
  · next e1 =>
    split
    · next e2 =>
      split
      · exact keeps_raise
      · refine keeps_ok ?_
        refine of_thd e2 ?_
        refine form_foldl_thd (fun p1 x1 h1 => ?_) (of_snd e1 (translateFor_form h))
        split
        · split
          · next e3 => exact of_thd e3 (loadLane_form h1)

theorem rowsWrite_keeps {s : State} {lanes : LaneMask} {a : W64} {l : List (Vector W32 32)} (h : memoryForm s) :
    Keeps memoryForm (s.rowsWrite lanes a l) := by
  induction l generalizing s lanes a with
  | nil => exact h
  | cons y ys ih =>
    unfold State.rowsWrite
    refine keeps_bind (rowWrite_keeps h) fun a1 k1 => ?_
    exact ih k1

theorem state_spillFrame_keeps {s : State} {x : Slot} {k : ℕ} (h : memoryForm s) : Keeps (fun r => memoryForm r.2) (s.spillFrame x k) := by
  unfold State.spillFrame
  split
  · exact keeps_ok h
  · extract_lets lanes1 rows1 link1
    refine keeps_bind (rowsWrite_keeps h) fun a1 k1 => ?_
    refine keeps_bind (rowsWrite_keeps k1) fun a2 k2 => ?_
    exact keeps_ok k2

theorem state_spillInterrupted_keeps {s : State} {x : Slot} (h : memoryForm s) : Keeps (fun r => memoryForm r.2) (s.spillInterrupted x) := by
  unfold State.spillInterrupted
  split
  · exact state_spillFrame_keeps h
  · extract_lets rows1
    refine keeps_bind (rowsWrite_keeps h) fun a1 k1 => ?_
    refine keeps_bind (rowsWrite_keeps k1) fun a2 k2 => ?_
    exact keeps_ok k2

theorem state_fit_keeps {n : ℕ} {s : State} (h : memoryForm s) : Keeps memoryForm (State.fit n s) := by
  induction n generalizing s with
  | zero => exact h
  | succ m ih =>
    unfold State.fit
    extract_lets n top1 own1 cap1
    split
    · split
      · exact keeps_ok h
      · split
        · refine keeps_bind (state_spillInterrupted_keeps h) fun a1 k1 => ?_
          split
          · exact ih (setGrp_form k1)
        · refine keeps_bind (state_spillInterrupted_keeps h) fun a2 k2 => ?_
          split
          · exact ih (setGrp_form k2)
    · split
      · exact keeps_ok h
      · split
        · exact keeps_ok h
        · refine keeps_bind (state_spillFrame_keeps h) fun a3 k3 => ?_
          split
          · exact ih (setSlot_form k3)

theorem rowsFill_keeps {s : State} {lanes : LaneMask} {point : ℕ} {a : W64} {l : List (Vector W32 32)} (h : memoryForm s) :
    Keeps (fun r => memoryForm r.2) (s.rowsFill lanes point a l) := by
  induction l generalizing s lanes point a with
  | nil => exact h
  | cons y ys ih =>
    unfold State.rowsFill
    refine keeps_bind (rowRead_keeps h) fun a1 k1 => ?_
    split
    · refine keeps_bind (ih k1) fun a2 k2 => ?_
      split
      · extract_lets word1
        exact keeps_ok k2

theorem enterFrame_keeps {s : State} {f : ℕ} (h : memoryForm s) : Keeps memoryForm (s.enterFrame f) := by
  unfold State.enterFrame
  extract_lets x1 lo1 lanes1 rows1 t1
  split
  · exact keeps_raise
  · refine keeps_bind (state_fit_keeps (setSlot_form h)) fun a1 k1 => ?_
    exact keeps_ok (setGrp_form k1)

theorem callFrame_keeps {s : State} {ret : W64} (h : memoryForm s) : Keeps memoryForm (s.callFrame ret) := by
  unfold State.callFrame
  split
  · exact keeps_raise
  · extract_lets t1
    exact state_fit_keeps (setSlot_form h)

theorem pushCoil_keeps {s : State} {i : SlotId} {e : CoilEntry} (h : memoryForm s) : Keeps memoryForm (s.pushCoil i e) := by
  unfold State.pushCoil
  extract_lets a1
  split
  · exact keeps_raise
  · next e1 => exact keeps_ok (setGrp_form (grpWrite_form h _ e1))

theorem pushAll_keeps {s : State} {i : SlotId} {l : List CoilEntry} (h : memoryForm s) : Keeps memoryForm (s.pushAll i l) := by
  induction l generalizing s i with
  | nil => exact h
  | cons y ys ih =>
    unfold State.pushAll
    refine keeps_bind (pushCoil_keeps h) fun a1 k1 => ?_
    exact ih k1

theorem coilTop_keeps {s : State} (h : memoryForm s) : Keeps (fun r => memoryForm r.2) (s.coilTop) := by
  unfold State.coilTop
  split
  · exact keeps_ok h
  · extract_lets a1
    split
    · next e1 =>
      split
      · refine keeps_ok ?_
        refine of_snd e1 ?_
        split
        · next e2 => exact of_snd e2 (grpRead_form h)
        · next e3 => exact of_snd e3 (grpRead_form h)
      · split
        · split
          · refine keeps_ok ?_
            refine of_snd e1 ?_
            split
            · next e4 => exact of_snd e4 (grpRead_form h)
            · next e5 => exact of_snd e5 (grpRead_form h)
          · exact keeps_raise
        · refine keeps_ok ?_
          refine of_snd e1 ?_
          split
          · next e6 => exact of_snd e6 (grpRead_form h)
          · next e7 => exact of_snd e7 (grpRead_form h)

theorem retag_form {s : State} {f : Tags → Tags} (h : memoryForm s) : memoryForm (s.retag f) :=
  form_same h rfl rfl

theorem copyPath_form {s : State} {d : Dest} {j : W64} (h : memoryForm s) : memoryForm (s.copyPath d j) :=
  retag_form (setGrp_form h)

theorem goDest_keeps {s : State} {d : Dest} {pj : Option W64} {ret : W64} (h : memoryForm s) : Keeps memoryForm (s.goDest d pj ret) := by
  unfold State.goDest
  extract_lets t1 f1
  split
  · refine keeps_bind (callFrame_keeps (setSlot_form h)) fun a1 k1 => ?_
    exact keeps_ok (jump_form k1)
  · refine keeps_bind (Q := memoryForm) ?_ fun a2 k2 => ?_
    · exact keeps_ok (setSlot_form h)
    · exact keeps_ok (jump_form k2)

theorem splitTwo_keeps {s : State} {d : Dest} {rest : LaneMask} {j : W64} (h : memoryForm s) : Keeps memoryForm (s.splitTwo d rest j) := by
  unfold State.splitTwo
  extract_lets x1 next1
  split
  · exact keeps_ok (jump_form (setSlot_form (copyPath_form h)))
  · refine keeps_bind (pushAll_keeps h) fun a1 k1 => ?_
    exact keeps_ok (jump_form (setSlot_form k1))

theorem splitMany_keeps {s : State} {ds : List Dest} {j : W64} (h : memoryForm s) : Keeps memoryForm (s.splitMany ds j) := by
  unfold State.splitMany
  extract_lets x1 o1
  split
  · exact keeps_ok (jump_form h)
  · exact goDest_keeps h
  · extract_lets later1 s1 f1 f2
    split
    · split
      · refine keeps_bind (Q := memoryForm) ?_ fun a1 k1 => ?_
        · exact keeps_ok (copyPath_form h)
        · unfold f2
          split
          · extract_lets i1
            refine keeps_bind (callFrame_keeps (form_same k1 rfl rfl)) fun a2 k2 => ?_
            refine keeps_bind (Q := memoryForm) ?_ fun a3 k3 => ?_
            · exact keeps_ok (form_same k2 rfl rfl)
            · exact goDest_keeps k3
          · refine keeps_bind (Q := memoryForm) ?_ fun a4 k4 => ?_
            · exact keeps_ok k1
            · exact goDest_keeps k4
      · refine keeps_bind (pushAll_keeps (copyPath_form h)) fun a5 k5 => ?_
        unfold f2
        split
        · extract_lets i2
          refine keeps_bind (callFrame_keeps (form_same k5 rfl rfl)) fun a6 k6 => ?_
          refine keeps_bind (Q := memoryForm) ?_ fun a7 k7 => ?_
          · exact keeps_ok (form_same k6 rfl rfl)
          · exact goDest_keeps k7
        · refine keeps_bind (Q := memoryForm) ?_ fun a8 k8 => ?_
          · exact keeps_ok k5
          · exact goDest_keeps k8
    · refine keeps_bind (pushAll_keeps h) fun a9 k9 => ?_
      refine keeps_bind (pushAll_keeps k9) fun a10 k10 => ?_
      exact goDest_keeps k10

theorem mergeFrames_keeps {s : State} {a b : Slot} (h : memoryForm s) : Keeps (fun r => memoryForm r.2) (s.mergeFrames a b) := by
  unfold State.mergeFrames
  refine keeps_foldlM (fun p1 x1 h1 => ?_) h
  split
  · next a1 a2 _ =>
    split
    · next a3 _ _ _ _ _ =>
      extract_lets lb1 f1 f2
      split
      · exact keeps_ok h1
      · split
        · refine keeps_bind (state_spillFrame_keeps h1) fun a4 k1 => ?_
          unfold f2
          split
          · extract_lets ra1 f3
            split
            · refine keeps_bind (state_spillFrame_keeps k1) fun a5 k2 => ?_
              unfold f3
              split
              · extract_lets rb1
                exact keeps_ok k2
            · refine keeps_bind (Q := fun r => memoryForm r.2) ?_ fun a6 k3 => ?_
              · exact keeps_ok k1
              · unfold f3
                split
                · extract_lets rb2
                  exact keeps_ok k3
        · refine keeps_bind (Q := fun r => memoryForm r.2) ?_ fun a7 k4 => ?_
          · exact keeps_ok h1
          · unfold f2
            split
            · extract_lets ra2 f4
              split
              · refine keeps_bind (state_spillFrame_keeps k4) fun a8 k5 => ?_
                unfold f4
                split
                · extract_lets rb3
                  exact keeps_ok k5
              · refine keeps_bind (Q := fun r => memoryForm r.2) ?_ fun a9 k6 => ?_
                · exact keeps_ok k4
                · unfold f4
                  split
                  · extract_lets rb4
                    exact keeps_ok k6
    · exact keeps_ok h1

theorem merge_keeps {s : State} (h : memoryForm s) : Keeps memoryForm s.merge := by
  unfold State.merge
  extract_lets x1 y1 f1
  split
  · refine keeps_bind (Q := fun r => memoryForm r.2) ?_ fun a1 k1 => ?_
    · split
      · exact mergeFrames_keeps h
      · exact mergeFrames_keeps h
    · unfold f1
      split
      · extract_lets z1 s1
        exact keeps_ok (form_same k1 rfl rfl)
  · refine keeps_bind (Q := fun r => memoryForm r.2) ?_ fun a2 k2 => ?_
    · exact keeps_ok h
    · unfold f1
      split
      · extract_lets z2 s2
        exact keeps_ok (form_same k2 rfl rfl)

theorem arriveLoop_keeps {n : ℕ} {s : State} {a : W64} (h : memoryForm s) : Keeps memoryForm (State.arriveLoop n s a) := by
  induction n generalizing s a with
  | zero => exact h
  | succ m ih =>
    unfold State.arriveLoop
    split
    · exact keeps_ok h
    · refine keeps_bind (coilTop_keeps h) fun a1 k1 => ?_
      split
      · next a2 a3 _ =>
        extract_lets x1 pop1 f1
        split
        · refine keeps_bind must_keeps fun a4 k2 => ?_
          unfold f1
          split
          · split
            · split
              · extract_lets t1
                split
                · exact ih (setSlot_form k1)
                · split
                  · exact ih (setSlot_form (setSlot_form k1))
                  · exact keeps_ok (setSlot_form (setSlot_form k1))
              · exact keeps_ok (park_form k1)
            · split
              · exact keeps_ok (park_form k1)
              · split
                · exact ih (setSlot_form k1)
                · split
                  · exact keeps_ok (setSlot_form k1)
                  · split
                    · exact keeps_hold (park_form k1)
                    · extract_lets t2
                      refine keeps_bind (callFrame_keeps (setSlot_form k1)) fun a5 k3 => ?_
                      exact keeps_ok (setSlot_form k3)
          · exact keeps_ok (park_form k1)
        · refine keeps_bind (Q := fun _ => True) ?_ fun a6 k4 => ?_
          · exact keeps_ok trivial
          · unfold f1
            split
            · split
              · split
                · extract_lets t3
                  split
                  · exact ih (setSlot_form k1)
                  · split
                    · exact ih (setSlot_form (setSlot_form k1))
                    · exact keeps_ok (setSlot_form (setSlot_form k1))
                · exact keeps_ok (park_form k1)
              · split
                · exact keeps_ok (park_form k1)
                · split
                  · exact ih (setSlot_form k1)
                  · split
                    · exact keeps_ok (setSlot_form k1)
                    · split
                      · exact keeps_hold (park_form k1)
                      · extract_lets t4
                        refine keeps_bind (callFrame_keeps (setSlot_form k1)) fun a7 k5 => ?_
                        exact keeps_ok (setSlot_form k5)
            · exact keeps_ok (park_form k1)

theorem arrive_keeps {s : State} (h : memoryForm s) : Keeps memoryForm s.arrive := by
  unfold State.arrive
  extract_lets x1
  refine keeps_bind must_keeps fun a1 k1 => ?_
  refine keeps_bind (arriveLoop_keeps h) fun a2 k2 => ?_
  split
  · exact merge_keeps k2
  · exact keeps_ok k2

theorem normalize_form {s : State} (h : memoryForm s) : memoryForm s.normalize := by
  unfold State.normalize
  split
  · exact h
  · extract_lets x1 s1 s2
    split
    · next e1 => exact of_ok e1 (pushAll_keeps (form_same h rfl rfl))
    · exact setGrp_form (form_same h rfl rfl)

theorem issueFut_form {s : State} {f : FReg} {op : ℕ} (h : memoryForm s) : memoryForm (s.issueFut f op) :=
  setGrp_form (setFut_form h)

theorem settleFut_form {s : State} {f : FReg} {v : Future} (h : memoryForm s) : memoryForm (s.settleFut f v) :=
  setGrp_form (setFut_form h)

theorem idleFut_form {s : State} {f : FReg} (h : memoryForm s) : memoryForm (s.idleFut f) :=
  setGrp_form (settleFut_form h)

theorem resolve_form {s : State} {op : ℕ} {status : W32} (h : memoryForm s) : memoryForm (s.resolve op status) := by
  simpa only [State.resolve, memoryForm] using h

theorem writeWords_form {s : State} {w : Here} {a : W64} {l : List W64} (h : memoryForm s) : memoryForm (s.writeWords w a l).2 := by
  induction l generalizing s w a with
  | nil => exact h
  | cons y ys ih =>
    unfold State.writeWords
    split
    · next e1 => exact ih (of_snd e1 (writeVa_form h))
    · next e2 => exact of_snd e2 (writeVa_form h)

theorem endContext_form {s : State} {vf part : ℕ} (h : memoryForm s) : memoryForm (s.endContext vf part) := by
  unfold State.endContext
  extract_lets keys1 mine1 active1 on1 s1 f1 s2
  refine setCtx_form (form_same (s := s1) ?_ rfl rfl)
  unfold s1
  split
  · exact settleCredits_form h
  · exact h

theorem terminate_form {s : State} {vf part launch : ℕ} {record : List W64} (h : memoryForm s) : memoryForm (s.terminate vf part launch record) := by
  unfold State.terminate
  extract_lets s1
  refine endContext_form ?_
  unfold s1
  split
  · split
    · exact h
    · split
      · next e1 => exact form_same (of_snd e1 (writeWords_form h)) rfl rfl
  · exact h

theorem terminateFor_form {s : State} {c : Cause} {double : Bool} (h : memoryForm s) : memoryForm (s.terminateFor c double) := by
  unfold State.terminateFor
  exact terminate_form h

theorem enterTrap_keeps {s : State} {entry : W64} (h : memoryForm s) : Keeps memoryForm (s.enterTrap entry) := by
  unfold State.enterTrap
  extract_lets h1 s1 s2 rows1
  refine keeps_bind (state_fit_keeps (form_same h rfl rfl)) fun a1 k1 => ?_
  exact keeps_ok (setGrp_form k1)

theorem takeTrap_form {s : State} {c : Cause} (h : memoryForm s) : memoryForm (s.takeTrap c) := by
  unfold State.takeTrap
  split
  · exact terminateFor_form h
  · extract_lets entry1 s1
    split
    · exact terminateFor_form h
    · split
      · exact terminateFor_form (drainQueue_form (returnAll_form h))
      · next e1 =>
        split
        · next e2 => exact of_ok e2 (enterTrap_keeps ((grpWrite_form (drainQueue_form (returnAll_form h)) _ e1)))
        · exact terminateFor_form (grpWrite_form (drainQueue_form (returnAll_form h)) _ e1)
        · next e3 => exact of_hold e3 (enterTrap_keeps ((grpWrite_form (drainQueue_form (returnAll_form h)) _ e1)))

theorem trapTo_form {s : State} {c : Cause} {resume : State → State} (hr : ∀ u, memoryForm u → memoryForm (resume u)) (h : memoryForm s) :
    memoryForm (s.trapTo c resume) := by
  unfold State.trapTo
  split
  · exact takeTrap_form h
  · extract_lets t
    split
    · exact form_same (hr s h) rfl rfl
    · exact takeTrap_form (hr s h)

theorem trap_form {s : State} {c : Cause} (h : memoryForm s) : memoryForm (s.trap c) := by
  unfold State.trap
  refine trapTo_form (fun u1 h1 => ?_) h
  exact h1

theorem finish_goes {s v : State} {r : Res State} (hv : memoryForm s → memoryForm v) (hr : memoryForm s → Keeps memoryForm r) :
    Goes s (finish v r) := by
  rcases r with (c | t) | t
  · exact goes_next fun h => trap_form (hv h)
  · exact goes_next hr
  · exact goes_next hr

theorem fillOr_form {s : State} {lanes : LaneMask} {point : ℕ} {a : W64} {rows : List (Vector W32 32)} (h : memoryForm s) :
    memoryForm (s.fillOr lanes point a rows).2 := by
  unfold State.fillOr
  split
  · next e1 => exact of_ok (Q := fun r => memoryForm r.2) e1 (rowsFill_keeps h)
  · exact h

theorem refill_form {s : State} {x : Slot} {area : W64} {wbase : ℕ} {rows : List (Vector W32 32)} {stored : ℕ} (h : memoryForm s) :
    memoryForm (s.refill x area wbase rows stored) := by
  unfold State.refill
  extract_lets lanes1
  split
  · next e1 => exact setGrp_form (of_snd e1 (fillOr_form h))

theorem refillSlot_form {s : State} {x : Slot} (h : memoryForm s) : memoryForm (s.refillSlot x).2 := by
  unfold State.refillSlot
  split
  · next e1 =>
    refine form_foldl_snd (fun p1 x1 h1 => ?_) ?_
    · split
      · split
        · split
          · exact h1
          · extract_lets s1
            split
            · next e2 => exact of_snd e2 (fillOr_form (refill_form h1))
        · exact h1
    · refine of_snd e1 ?_
      split
      · extract_lets s2
        split
        · next e3 => exact of_snd e3 (fillOr_form (refill_form h))
      · exact h

theorem readFrame_keeps {s : State} {fa : W64} {l : List (ℕ × ℕ × Bool)} (h : memoryForm s) :
    Keeps (fun r => memoryForm r.2) (s.readFrame fa l) := by
  induction l generalizing s fa with
  | nil => exact h
  | cons y ys ih =>
    unfold State.readFrame
    extract_lets a1 f1
    split
    · split
      · next e1 =>
        refine keeps_bind (Q := fun r => memoryForm r.2) ?_ fun a2 k1 => ?_
        · exact keeps_ok (of_snd e1 (grpRead_form h))
        · unfold f1
          split
          · refine keeps_bind (ih k1) fun a3 k2 => ?_
            split
            · exact keeps_ok k2
      · refine keeps_bind (Q := fun r => memoryForm r.2) ?_ fun a4 k3 => ?_
        · exact keeps_raise
        · unfold f1
          split
          · refine keeps_bind (ih k3) fun a5 k4 => ?_
            split
            · exact keeps_ok k4
    · refine keeps_bind (Q := fun r => memoryForm r.2) ?_ fun a6 k5 => ?_
      · exact keeps_ok h
      · unfold f1
        split
        · refine keeps_bind (ih k5) fun a7 k6 => ?_
          split
          · exact keeps_ok k6

/-- RETT's checks of one path's block. -/
def rettBlock (s : State) (word : ℕ → W64) (x : Slot) (o : ℕ) : Res Unit :=
  if !x.occ then .ok ()
  else do
    must ((word o).toNat % 64 == 0) { code := cBranchAlign, addr := word o }
    let w1 := word (o + 1)
    let m := w1.extractLsb' 32 32
    must (w1.toNat % 16 != 0 && m != 0 && m &&& ~~~s.grp.live == 0) { code := cIllegal, addr := s.pc }

theorem rettBlock_keeps {s : State} {word : ℕ → W64} {x : Slot} {o : ℕ} : Keeps (fun _ => True) (rettBlock s word x o) := by
  unfold rettBlock
  split
  · exact keeps_ok trivial
  · exact keeps_bind keeps_must fun _ _ => keeps_must

theorem rettBody_keeps {s : State} {t : TrapCtx} (h : memoryForm s) : Keeps memoryForm (s.rettBody t) := by
  unfold State.rettBody
  refine keeps_bind (Q := fun r => memoryForm r.2) (readFrame_keeps h) fun r hr => ?_
  split
  next bs u =>
  extract_lets word fm block u1
  have hb : ∀ x o, Keeps (fun _ => True) (block x o) := fun _ _ => rettBlock_keeps (word := word)
  have h1 : memoryForm u1 := setGrp_form hr
  clear_value word fm block u1
  refine keeps_bind keeps_must fun _ _ => ?_
  refine keeps_bind (hb _ _) fun _ _ => ?_
  refine keeps_bind (hb _ _) fun _ _ => ?_
  refine keeps_bind keeps_must fun _ _ => ?_
  split
  next a u2 e1 =>
  split
  next b u3 e2 =>
  have h3 : memoryForm u3 := of_snd e2 (refillSlot_form (of_snd e1 (refillSlot_form h1)))
  extract_lets u4
  exact keeps_ok (form_same (s := u4) (retag_form (setGrp_form h3)) rfl rfl)

theorem returnTrap_keeps {s : State} (h : memoryForm s) : Keeps memoryForm s.returnTrap := by
  unfold State.returnTrap
  split
  · exact keeps_illegal
  · split
    · exact keeps_illegal
    · split
      · exact keeps_hold (park_form h)
      · split
        · exact keeps_hold (park_form h)
        · exact rettBody_keeps (returnAll_form h)

theorem release_keeps {s : State} {sc : Scope} (h : memoryForm s) : Keeps memoryForm (s.release sc) := by
  unfold State.release
  extract_lets mine1 w1 lost1 s1 s2 s3 s4
  split
  · exact keeps_hold (park_form h)
  · clear_value lost1
    split
    · refine keeps_hold (trapTo_form (fun u1 h1 => ?_) ?_)
      · exact form_same h1 rfl rfl
      · unfold s4
        split
        · refine ackAll_form (cleanPart_form ?_)
          unfold s3
          split
          · exact drainQueue_form (returnAll_form h)
          · exact drainQueue_form (drainQueue_form (returnAll_form h))
        · unfold s3
          split
          · exact drainQueue_form (returnAll_form h)
          · exact drainQueue_form (drainQueue_form (returnAll_form h))
    · refine keeps_ok ?_
      unfold s4
      split
      · refine ackAll_form (cleanPart_form ?_)
        unfold s3
        split
        · exact drainQueue_form (returnAll_form h)
        · exact drainQueue_form (drainQueue_form (returnAll_form h))
      · unfold s3
        split
        · exact drainQueue_form (returnAll_form h)
        · exact drainQueue_form (drainQueue_form (returnAll_form h))

theorem dropClean_form {s : State} {w : Here} {sc : Scope} (h : memoryForm s) : memoryForm (s.dropClean w sc) := by
  unfold State.dropClean
  extract_lets s1
  split
  · refine l2Drop_form ?_
    unfold s1
    split
    · exact h
    · exact l1Drop_form h
  · unfold s1
    split
    · exact h
    · exact l1Drop_form h

theorem acquire_form {s : State} {sc : Scope} (h : memoryForm s) : memoryForm (s.acquire sc) := by
  unfold State.acquire
  split
  · exact park_form h
  · exact dropClean_form (returnAll_form h)

theorem releaseFor_keeps {s : State} {ord : Order} {sc : Scope} (h : memoryForm s) : Keeps memoryForm (s.releaseFor ord sc) := by
  unfold State.releaseFor
  split
  · exact release_keeps h
  · exact keeps_ok h

theorem acquireFor_form {s : State} {ord : Order} {sc : Scope} (h : memoryForm s) : memoryForm (s.acquireFor ord sc) := by
  unfold State.acquireFor
  split
  · exact acquire_form h
  · exact h

theorem fresh_form {s : State} (h : memoryForm s) : memoryForm s.fresh.2 :=
  form_same h rfl rfl

end Sys2Proof.Machine
end

section
/-! PROOFS. What the model's functions answer and that they keep the form of both memories: loads and stores, lanes, control flow, engines, barriers and grace periods. -/
namespace Sys2Proof.Machine
open Sys2Proof Sys2Proof.Statements

/-! ### Operands -/

theorem vcheck_keeps {s : State} {reads writes : List (VReg × ℕ)} (h : memoryForm s) : Keeps (fun _ => True) (s.vcheck reads writes) := by
  unfold State.vcheck
  split
  · exact keeps_illegal
  · split
    · exact keeps_hold (park_form h)
    · exact keeps_ok trivial

theorem vput_form {s : State} {r : VReg} {n : ℕ} {mask : LaneMask} {f : ℕ → ℕ} (h : memoryForm s) : memoryForm (s.vput r n mask f) :=
  setGrp_form h

theorem orFlags_form {s : State} {fl : Flags} (h : memoryForm s) : memoryForm (s.orFlags fl) :=
  setGrp_form h

theorem drawn_form {s : State} {c : ℕ} (h : memoryForm s) : memoryForm (s.drawn c) :=
  setGrp_form h

theorem vecOp_goes {s : State} {words : ℕ} {g : Option Guard} {reads : List (VReg × ℕ)} {d : VReg} {n : ℕ} {f : ℕ → ℕ × Flags} :
    Goes s (vecOp s words g reads d n f) := by
  unfold vecOp
  refine finish_goes id fun h => ?_
  refine keeps_bind (vcheck_keeps h) fun a1 k1 => ?_
  extract_lets m1
  exact keeps_ok (advance_form (orFlags_form (vput_form h)))

theorem vecInt_goes {s : State} {words : ℕ} {g : Option Guard} {reads : List (VReg × ℕ)} {d : VReg} {n : ℕ} {f : ℕ → ℕ} :
    Goes s (vecInt s words g reads d n f) := by
  unfold vecInt
  exact vecOp_goes

theorem vecRound_goes {s : State} {words : ℕ} {g : Option Guard} {rnd : Rnd} {draws : ℕ} {reads : List (VReg × ℕ)} {d : VReg} {n : ℕ}
    {f : Rnd → (ℕ → ℕ) → ℕ → ℕ × Flags} :
    Goes s (vecRound s words g rnd draws reads d n f) := by
  unfold vecRound
  extract_lets mode1 m1 r1 t1
  refine finish_goes id fun h => ?_
  refine keeps_bind (vcheck_keeps h) fun a1 k1 => ?_
  refine keeps_ok (advance_form ?_)
  split
  · exact drawn_form (orFlags_form (vput_form h))
  · exact orFlags_form (vput_form h)

theorem predOp_goes {s : State} {words : ℕ} {g : Option Guard} {reads : List (VReg × ℕ)} {d : PReg} {f : ℕ → Bool × Flags} :
    Goes s (predOp s words g reads d f) := by
  unfold predOp
  refine finish_goes id fun h => ?_
  refine keeps_bind (vcheck_keeps h) fun a1 k1 => ?_
  extract_lets m1 v1
  exact keeps_ok (advance_form (orFlags_form (setRp_form h)))

theorem scalarOp_goes {s : State} {words : ℕ} {d : SReg} {v : W64} : Goes s (scalarOp s words d v) := by
  unfold scalarOp
  exact goes_next fun h => advance_form (setRs_form h)

/-! ### Reach -/

theorem alignStage_keeps {rs : List Reach} : Keeps (fun _ => True) (alignStage rs) := by
  unfold alignStage
  split
  · exact keeps_raise
  · exact keeps_ok trivial

theorem translateStage_keeps {s : State} {isPrivate : Bool} {rs : List Reach} (h : memoryForm s) :
    Keeps (fun _ => True) (s.translateStage isPrivate rs) := by
  unfold State.translateStage
  extract_lets g1 checked1 missing1
  split
  · refine keeps_hold (park_form ?_)
    refine form_foldl (fun u1 x1 h1 => ?_) h
    exact openMiss_form h1
  · split
    · exact keeps_raise
    · exact keeps_ok trivial

theorem pieceStage_keeps {rs : List (Reach × List (Piece × Xl))} {bad : Xl → Option ℕ} : Keeps (fun _ => True) (pieceStage rs bad) := by
  unfold pieceStage
  split
  · exact keeps_raise
  · exact keeps_ok trivial

theorem checkGlobal_keeps {s : State} {isPrivate : Bool} {rs : List Reach} {perm : Xl → Bool} {kind : Xl → Option ℕ} (h : memoryForm s) :
    Keeps (fun _ => True) (s.checkGlobal isPrivate rs perm kind) := by
  unfold State.checkGlobal
  refine keeps_bind alignStage_keeps fun a1 k1 => ?_
  refine keeps_bind (translateStage_keeps h) fun a2 k2 => ?_
  extract_lets ps1
  refine keeps_bind pieceStage_keeps fun a3 k3 => ?_
  refine keeps_bind pieceStage_keeps fun a4 k4 => ?_
  exact keeps_ok trivial

theorem checkLocal_keeps {s : State} {sc : Scope} {rs : List Reach} (_h : memoryForm s) : Keeps (fun _ => True) (s.checkLocal sc rs) := by
  unfold State.checkLocal
  extract_lets g1 fail1
  refine keeps_bind alignStage_keeps fun a1 k1 => ?_
  refine keeps_bind (Q := fun _ => True) ?_ fun a2 k2 => ?_
  · unfold fail1
    split
    · exact keeps_raise
    · exact keeps_ok trivial
  · refine keeps_bind (Q := fun _ => True) ?_ fun a3 k3 => ?_
    · unfold fail1
      split
      · exact keeps_raise
      · exact keeps_ok trivial
    · refine keeps_bind (Q := fun _ => True) ?_ fun a4 k4 => ?_
      · unfold fail1
        split
        · exact keeps_raise
        · exact keeps_ok trivial
      · exact keeps_ok trivial

theorem memFinish_goes {s v : State} {r : Res State} (hv : memoryForm s → memoryForm v) (hr : memoryForm s → Keeps memoryForm r) :
    Goes s (memFinish v r) :=
  finish_goes hv hr

theorem returnOverlaps_form {s : State} {isLocal : Bool} {accs : List LaneAcc} (h : memoryForm s) : memoryForm (s.returnOverlaps isLocal accs) :=
  returnAll_form h

theorem overlapsWait_keeps {s : State} {isLocal : Bool} {accs : List LaneAcc} (h : memoryForm s) :
    Keeps (fun _ => True) (s.overlapsWait isLocal accs) := by
  unfold State.overlapsWait
  split
  · exact keeps_hold (park_form h)
  · exact keeps_ok trivial

/-! ### Loads and stores -/

theorem issueLoad_form {s : State} {words : ℕ} {cnt : Counter} {d : VReg} {n : ℕ} {mask : LaneMask} {accs : List LaneAcc} {kind : OutKind}
    {ord : Order} {sc : Scope} (h : memoryForm s) :
    memoryForm (s.issueLoad words cnt d n mask accs kind ord sc) := by
  unfold State.issueLoad
  split
  · next e1 => exact acquireFor_form (advance_form (setGrp_form (of_snd e1 (fresh_form h))))

theorem room_keeps {s : State} {c : Counter} (h : memoryForm s) : Keeps (fun _ => True) (s.room c) := by
  unfold State.room
  split
  · exact keeps_hold (park_form h)
  · exact keeps_ok trivial

theorem loadGlobal_goes {s : State} {words : ℕ} {g : Option Guard} {isPrivate : Bool} {t : Ty} {sc : Scope} {ord : Order} {cp : Cp}
    {x : Option Idx} {d : VReg} {reach : ℕ → Reach} :
    Goes s (loadGlobal s words g isPrivate t sc ord cp x d reach) := by
  unfold loadGlobal
  refine memFinish_goes id fun h => ?_
  refine keeps_bind (vcheck_keeps h) fun a1 k1 => ?_
  extract_lets m1
  split
  · exact keeps_ok (acquireFor_form (advance_form h))
  · refine keeps_bind (room_keeps h) fun a2 k2 => ?_
    refine keeps_bind (checkGlobal_keeps h) fun a3 k3 => ?_
    exact keeps_ok (issueLoad_form h)

theorem storeGlobal_goes {s : State} {words : ℕ} {g : Option Guard} {isPrivate : Bool} {t : Ty} {sc : Scope} {ord : Order} {cp : Cp}
    {x : Option Idx} {d : VReg} {reach : ℕ → Reach} :
    Goes s (storeGlobal s words g isPrivate t sc ord cp x d reach) := by
  unfold storeGlobal
  refine memFinish_goes id fun h => ?_
  refine keeps_bind (vcheck_keeps h) fun a1 k1 => ?_
  extract_lets m1
  split
  · refine keeps_bind (releaseFor_keeps h) fun a2 k2 => ?_
    exact keeps_ok (advance_form k2)
  · refine keeps_bind (room_keeps h) fun a3 k3 => ?_
    refine keeps_bind (checkGlobal_keeps h) fun a4 k4 => ?_
    refine keeps_bind (releaseFor_keeps h) fun a5 k5 => ?_
    refine keeps_bind (overlapsWait_keeps k5) fun a6 k6 => ?_
    extract_lets s1 accs1
    exact keeps_ok (advance_form (enqueueStore_form (returnOverlaps_form k5)))

theorem loadLocal_goes {s : State} {words : ℕ} {g : Option Guard} {t : Ty} {sc : Scope} {ord : Order} {x : Option Idx} {d : VReg}
    {reach : ℕ → Reach} :
    Goes s (loadLocal s words g t sc ord x d reach) := by
  unfold loadLocal
  refine finish_goes id fun h => ?_
  refine keeps_bind (vcheck_keeps h) fun a1 k1 => ?_
  extract_lets m1
  split
  · exact keeps_ok (acquireFor_form (advance_form h))
  · refine keeps_bind (room_keeps h) fun a2 k2 => ?_
    refine keeps_bind (checkLocal_keeps h) fun a3 k3 => ?_
    exact keeps_ok (issueLoad_form h)

theorem storeLocal_goes {s : State} {words : ℕ} {g : Option Guard} {t : Ty} {sc : Scope} {ord : Order} {x : Option Idx} {d : VReg}
    {reach : ℕ → Reach} :
    Goes s (storeLocal s words g t sc ord x d reach) := by
  unfold storeLocal
  refine finish_goes id fun h => ?_
  refine keeps_bind (vcheck_keeps h) fun a1 k1 => ?_
  extract_lets m1
  split
  · refine keeps_bind (releaseFor_keeps h) fun a2 k2 => ?_
    exact keeps_ok (advance_form k2)
  · refine keeps_bind (room_keeps h) fun a3 k3 => ?_
    refine keeps_bind (checkLocal_keeps h) fun a4 k4 => ?_
    refine keeps_bind (releaseFor_keeps h) fun a5 k5 => ?_
    refine keeps_bind (overlapsWait_keeps k5) fun a6 k6 => ?_
    extract_lets s1 accs1
    exact keeps_ok (advance_form (enqueueStore_form (returnOverlaps_form k5)))

theorem execLd_goes {m : MemOp} {d : VReg} {s : State} : Goes s (execLd m d s) := by
  unfold execLd
  exact loadGlobal_goes

theorem execLdW1_goes {g : Option Guard} {t : Ty} {sc : Scope} {ord : Order} {cp : Cp} {m : MemOp} {off : W32} {d : VReg} {s : State} :
    Goes s (execLdW1 g t sc ord cp m off d s) := by
  unfold execLdW1
  exact loadGlobal_goes

theorem execSt_goes {m : MemOp} {d : VReg} {s : State} : Goes s (execSt m d s) := by
  unfold execSt
  exact storeGlobal_goes

theorem execStW1_goes {g : Option Guard} {t : Ty} {sc : Scope} {ord : Order} {cp : Cp} {m : MemOp} {off : W32} {d : VReg} {s : State} :
    Goes s (execStW1 g t sc ord cp m off d s) := by
  unfold execStW1
  exact storeGlobal_goes

theorem execLdg_goes {m : MemOp} {d : VReg} {s : State} : Goes s (execLdg m d s) := by
  unfold execLdg
  exact loadLocal_goes

theorem execLdgW1_goes {g : Option Guard} {t : Ty} {sc : Scope} {ord : Order} {_cp : Cp} {m : MemOp} {off : W32} {d : VReg} {s : State} :
    Goes s (execLdgW1 g t sc ord _cp m off d s) := by
  unfold execLdgW1
  exact loadLocal_goes

theorem execStg_goes {m : MemOp} {d : VReg} {s : State} : Goes s (execStg m d s) := by
  unfold execStg
  exact storeLocal_goes

theorem execStgW1_goes {g : Option Guard} {t : Ty} {sc : Scope} {ord : Order} {_cp : Cp} {m : MemOp} {off : W32} {d : VReg} {s : State} :
    Goes s (execStgW1 g t sc ord _cp m off d s) := by
  unfold execStgW1
  exact storeLocal_goes

theorem execLdp_goes {x : Option Idx} {d : VReg} {s : State} : Goes s (execLdp x d s) := by
  unfold execLdp
  exact loadGlobal_goes

theorem execLdpW1_goes {g : Option Guard} {t : Ty} {x : Option Idx} {off : W32} {d : VReg} {s : State} : Goes s (execLdpW1 g t x off d s) := by
  unfold execLdpW1
  exact loadGlobal_goes

theorem execStp_goes {x : Option Idx} {d : VReg} {s : State} : Goes s (execStp x d s) := by
  unfold execStp
  exact storeGlobal_goes

theorem execStpW1_goes {g : Option Guard} {t : Ty} {x : Option Idx} {off : W32} {d : VReg} {s : State} : Goes s (execStpW1 g t x off d s) := by
  unfold execStpW1
  exact storeGlobal_goes

theorem prefLane_form {s : State} {cp : Cp} {ea : W64} {lane : ℕ} (h : memoryForm s) : memoryForm (s.prefLane cp ea lane) := by
  unfold State.prefLane
  extract_lets g1 w1
  split
  · split
    · exact h
    · split
      · exact readDie_form (drainSecs_form h)
      · exact loadPiece_form h
  · exact h

theorem prefetch_goes {s : State} {words : ℕ} {g : Option Guard} {cp : Cp} {m : MemOp} {off : W32} : Goes s (prefetch s words g cp m off) := by
  unfold prefetch
  refine finish_goes id fun h => ?_
  refine keeps_bind (vcheck_keeps h) fun a1 k1 => ?_
  extract_lets ls1 eas1
  refine keeps_ok (advance_form ?_)
  refine form_foldl (fun u1 x1 h1 => ?_) h
  split
  · exact prefLane_form h1

theorem execPref_goes {m : MemOp} {s : State} : Goes s (execPref m s) := by
  unfold execPref
  exact prefetch_goes

theorem execPrefW1_goes {g : Option Guard} {cp : Cp} {m : MemOp} {off : W32} {s : State} : Goes s (execPrefW1 g cp m off s) := by
  unfold execPrefW1
  exact prefetch_goes

theorem execFence_goes {sc : Scope} {ord : Order} {s : State} : Goes s (execFence sc ord s) := by
  unfold execFence
  refine finish_goes id fun h => ?_
  extract_lets f1
  split
  · refine keeps_bind (Q := memoryForm) ?_ fun a1 k1 => ?_
    · exact keeps_ok h
    · refine keeps_ok ?_
      split
      · exact advance_form k1
      · exact acquire_form (advance_form k1)
  · refine keeps_bind (release_keeps h) fun a2 k2 => ?_
    refine keeps_ok ?_
    split
    · exact advance_form k2
    · exact acquire_form (advance_form k2)

theorem dropCode_form {s : State} {w : Here} {lines : List ℕ} (h : memoryForm s) : memoryForm (s.dropCode w lines) :=
  form_same h rfl rfl

theorem settleCode_form {s : State} {w : Here} {ps : List Piece} (h : memoryForm s) : memoryForm (s.settleCode w ps) :=
  drainSecs_form h

theorem execCctl_goes {op : BitVec 2} {m : MemOp} {off : W32} {s : State} : Goes s (execCctl op m off s) := by
  unfold execCctl
  refine memFinish_goes id fun h => ?_
  refine keeps_bind (vcheck_keeps h) fun a1 k1 => ?_
  split
  · exact keeps_hold (park_form h)
  · extract_lets rs1 f1
    split
    · refine keeps_bind (room_keeps h) fun a2 k2 => ?_
      refine keeps_bind (checkGlobal_keeps h) fun a3 k3 => ?_
      split
      · extract_lets s1
        exact keeps_ok (advance_form (dropCode_form (settleCode_form h)))
      · extract_lets lines1
        exact keeps_ok (advance_form (enqueueStore_form h))
    · refine keeps_bind (checkGlobal_keeps h) fun a4 k4 => ?_
      split
      · extract_lets s2
        exact keeps_ok (advance_form (dropCode_form (settleCode_form h)))
      · extract_lets lines2
        exact keeps_ok (advance_form (enqueueStore_form h))

/-! ### Atomics -/

theorem execAtom_goes {g : Option Guard} {t : Ty} {sc : Scope} {ord : Order} {cp : Cp} {op : AtomOp} {m : MemOp} {off : W32} {d c : VReg}
    {s : State} :
    Goes s (execAtom g t sc ord cp op m off d c s) := by
  unfold execAtom
  refine memFinish_goes id fun h => ?_
  extract_lets n1 k1
  refine keeps_bind (vcheck_keeps h) fun a1 k2 => ?_
  split
  · refine keeps_bind (releaseFor_keeps h) fun a2 k3 => ?_
    exact keeps_ok (acquireFor_form (advance_form k3))
  · refine keeps_bind (room_keeps h) fun a3 k4 => ?_
    refine keeps_bind (checkGlobal_keeps h) fun a4 k5 => ?_
    refine keeps_bind (releaseFor_keeps h) fun a5 k6 => ?_
    exact keeps_ok (issueLoad_form k6)

theorem execAtomg_goes {g : Option Guard} {t : Ty} {sc : Scope} {ord : Order} {op : AtomOp} {m : MemOp} {off : W32} {d c : VReg} {s : State} :
    Goes s (execAtomg g t sc ord op m off d c s) := by
  unfold execAtomg
  refine finish_goes id fun h => ?_
  extract_lets n1 k1
  refine keeps_bind (vcheck_keeps h) fun a1 k2 => ?_
  split
  · refine keeps_bind (releaseFor_keeps h) fun a2 k3 => ?_
    exact keeps_ok (acquireFor_form (advance_form k3))
  · refine keeps_bind (room_keeps h) fun a3 k4 => ?_
    refine keeps_bind (checkLocal_keeps h) fun a4 k5 => ?_
    refine keeps_bind (releaseFor_keeps h) fun a5 k6 => ?_
    exact keeps_ok (issueLoad_form k6)

theorem execRed_goes {g : Option Guard} {t : Ty} {sc : Scope} {ord : Order} {cp : Cp} {op : AtomOp} {m : MemOp} {off : W32} {d : VReg} {s : State} :
    Goes s (execRed g t sc ord cp op m off d s) := by
  unfold execRed
  refine memFinish_goes id fun h => ?_
  extract_lets n1 k1
  refine keeps_bind (vcheck_keeps h) fun a1 k2 => ?_
  split
  · refine keeps_bind (releaseFor_keeps h) fun a2 k3 => ?_
    exact keeps_ok (advance_form k3)
  · refine keeps_bind (room_keeps h) fun a3 k4 => ?_
    refine keeps_bind (checkGlobal_keeps h) fun a4 k5 => ?_
    refine keeps_bind (releaseFor_keeps h) fun a5 k6 => ?_
    refine keeps_bind (overlapsWait_keeps k6) fun a6 k7 => ?_
    extract_lets s1
    exact keeps_ok (advance_form (enqueueStore_form (returnOverlaps_form k6)))

/-! ### Lanes -/

theorem exchange_goes {s : State} {words : ℕ} {g : Option Guard} {t : Ty} {d a : VReg} {extra : List (VReg × ℕ)} {src : ℕ → ℕ} :
    Goes s (exchange s words g t d a extra src) := by
  unfold exchange
  extract_lets n1
  exact vecInt_goes

theorem shuffle_goes {s : State} {words : ℕ} {g : Option Guard} {t : Ty} {m : BitVec 2} {d a b : VReg} : Goes s (shuffle s words g t m d a b) := by
  unfold shuffle
  exact exchange_goes

theorem execVshfl_goes {m : BitVec 2} {d a b : VReg} {s : State} : Goes s (execVshfl m d a b s) := by
  unfold execVshfl
  exact shuffle_goes

theorem execVshflW1_goes {g : Option Guard} {t : Ty} {m : BitVec 2} {d a b : VReg} {s : State} : Goes s (execVshflW1 g t m d a b s) := by
  unfold execVshflW1
  exact shuffle_goes

theorem execVrot_goes {d a : VReg} {b : SReg} {s : State} : Goes s (execVrot d a b s) := by
  unfold execVrot
  exact exchange_goes

theorem execVrotW1_goes {g : Option Guard} {t : Ty} {d a : VReg} {b : SReg} {s : State} : Goes s (execVrotW1 g t d a b s) := by
  unfold execVrotW1
  exact exchange_goes

theorem execVbcast_goes {d a : VReg} {b : SReg} {s : State} : Goes s (execVbcast d a b s) := by
  unfold execVbcast
  exact exchange_goes

theorem execVbcastW1_goes {g : Option Guard} {t : Ty} {d a : VReg} {b : SReg} {s : State} : Goes s (execVbcastW1 g t d a b s) := by
  unfold execVbcastW1
  exact exchange_goes

theorem execVballot_goes {d : SReg} {a : PReg} {s : State} : Goes s (execVballot d a s) := by
  unfold execVballot
  exact scalarOp_goes

theorem execVballotW1_goes {g : Option Guard} {d : SReg} {a : PReg} {s : State} : Goes s (execVballotW1 g d a s) := by
  unfold execVballotW1
  exact scalarOp_goes

theorem reduceOp_goes {s : State} {words : ℕ} {g : Option Guard} {t : Ty} {d : SReg} {a : VReg} {f : List ℕ → ℕ × Flags} :
    Goes s (reduceOp s words g t d a f) := by
  unfold reduceOp
  refine finish_goes id fun h => ?_
  refine keeps_bind (vcheck_keeps h) fun a1 k1 => ?_
  split
  · exact keeps_ok (advance_form (orFlags_form (setRs_form h)))

theorem execVradd_goes {d : SReg} {a : VReg} {s : State} : Goes s (execVradd d a s) := by
  unfold execVradd
  exact reduceOp_goes

theorem execVraddW1_goes {g : Option Guard} {t : Ty} {d : SReg} {a : VReg} {s : State} : Goes s (execVraddW1 g t d a s) := by
  unfold execVraddW1
  exact reduceOp_goes

theorem execVrmin_goes {u : Bool} {d : SReg} {a : VReg} {s : State} : Goes s (execVrmin u d a s) := by
  unfold execVrmin
  exact reduceOp_goes

theorem execVrminW1_goes {g : Option Guard} {t : Ty} {u : Bool} {d : SReg} {a : VReg} {s : State} : Goes s (execVrminW1 g t u d a s) := by
  unfold execVrminW1
  exact reduceOp_goes

theorem execVrmax_goes {u : Bool} {d : SReg} {a : VReg} {s : State} : Goes s (execVrmax u d a s) := by
  unfold execVrmax
  exact reduceOp_goes

theorem execVrmaxW1_goes {g : Option Guard} {t : Ty} {u : Bool} {d : SReg} {a : VReg} {s : State} : Goes s (execVrmaxW1 g t u d a s) := by
  unfold execVrmaxW1
  exact reduceOp_goes

theorem execVscan_goes {g : Option Guard} {t : Ty} {op : ScanOp} {excl : Bool} {d a : VReg} {s : State} : Goes s (execVscan g t op excl d a s) := by
  unfold execVscan
  extract_lets m1 combine1
  exact vecOp_goes

theorem dot4_goes {s : State} {words : ℕ} {g : Option Guard} {sat ua ub : Bool} {d a b c : VReg} : Goes s (dot4 s words g sat ua ub d a b c) := by
  unfold dot4
  extract_lets byte1
  exact vecInt_goes

theorem dot2_goes {s : State} {words : ℕ} {g : Option Guard} {t : Ty} {d a b c : VReg} : Goes s (dot2 s words g t d a b c) := by
  unfold dot2
  extract_lets fm1 el1
  exact vecOp_goes

theorem execVdot4_goes {ua ub : Bool} {d a b : VReg} {s : State} : Goes s (execVdot4 ua ub d a b s) := by
  unfold execVdot4
  exact dot4_goes

theorem execVdot4W1_goes {g : Option Guard} {sat ua ub : Bool} {d a b c : VReg} {s : State} : Goes s (execVdot4W1 g sat ua ub d a b c s) := by
  unfold execVdot4W1
  exact dot4_goes

theorem execVdot2h_goes {d a b : VReg} {s : State} : Goes s (execVdot2h d a b s) := by
  unfold execVdot2h
  exact dot2_goes

theorem execVdot2hW1_goes {g : Option Guard} {t : Ty} {d a b c : VReg} {s : State} : Goes s (execVdot2hW1 g t d a b c s) := by
  unfold execVdot2hW1
  exact dot2_goes

/-! ### Control flow -/

theorem execBr_goes {m : BrMode} {off : W32} {s : State} : Goes s (execBr m off s) := by
  unfold execBr
  exact goes_next fun h => jump_form h

theorem execBrd_goes {g : Guard} {target join : BitVec 16} {s : State} : Goes s (execBrd g target join s) := by
  unfold execBrd
  extract_lets t1 n1 goal1
  split
  · exact goes_next fun h => jump_form h
  · split
    · exact goes_next fun h => jump_form h
    · refine finish_goes id fun h => ?_
      exact splitTwo_keeps h

theorem whenQuiet_keeps {s : State} {r : Res State} (h : memoryForm s) (hr : Keeps memoryForm r) : Keeps memoryForm (s.whenQuiet r) := by
  unfold State.whenQuiet
  split
  · exact hr
  · exact keeps_hold (park_form h)

theorem execCall_goes {off : W32} {s : State} : Goes s (execCall off s) := by
  unfold execCall
  refine finish_goes id fun h => ?_
  refine whenQuiet_keeps h ?_
  refine keeps_bind (callFrame_keeps h) fun a1 k1 => ?_
  exact keeps_ok (jump_form k1)

theorem execEnter_goes {f : BitVec 3} {s : State} : Goes s (execEnter f s) := by
  unfold execEnter
  refine finish_goes id fun h => ?_
  refine whenQuiet_keeps h ?_
  refine keeps_bind (enterFrame_keeps h) fun a1 k1 => ?_
  exact keeps_ok (advance_form k1)

theorem fillFault_keeps {α : Type} {Q : α → Prop} {s : State} {lanes : LaneMask} {rows : List W64} {r : Res α} (hr : Keeps Q r) :
    Keeps Q (s.fillFault lanes rows r) := by
  unfold State.fillFault
  split
  · split
    · exact keeps_raise
    · exact keeps_raise
  · exact hr

theorem fillCaller_keeps {s : State} {f : Frame} (h : memoryForm s) : Keeps (fun r => memoryForm r.2) (s.fillCaller f) := by
  unfold State.fillCaller
  split
  · exact keeps_ok h
  · extract_lets lanes1 n1 a1 all1
    refine keeps_bind (Q := fun r => memoryForm r.2) ?_ fun a2 k1 => ?_
    · refine fillFault_keeps ?_
      exact rowsFill_keeps h
    · split
      · refine keeps_bind (Q := fun r => memoryForm r.2) ?_ fun a3 k2 => ?_
        · refine fillFault_keeps ?_
          exact rowsFill_keeps k1
        · split
          · exact keeps_ok (setGrp_form k2)

theorem execRet_goes {s : State} : Goes s (execRet s) := by
  unfold execRet
  refine finish_goes id fun h => ?_
  refine whenQuiet_keeps h ?_
  extract_lets x1
  split
  · exact keeps_illegal
  · refine keeps_bind must_keeps fun a1 k1 => ?_
    refine keeps_bind (fillCaller_keeps h) fun a2 k2 => ?_
    split
    · extract_lets ret1
      refine keeps_bind must_keeps fun a3 k3 => ?_
      exact keeps_ok (jump_form (setSlot_form k2))

theorem readEntries_form {s : State} {l : List W64} (h : memoryForm s) : memoryForm (s.readEntries l).2 := by
  induction l generalizing s with
  | nil => exact h
  | cons y ys ih =>
    unfold State.readEntries
    split
    · next e1 =>
      split
      · next e2 =>
        refine of_snd e2 ?_
        refine ih ?_
        refine of_snd e1 ?_
        split
        · next e3 => exact of_snd e3 (grpRead_form h)
        · next e4 => exact of_snd e4 (grpRead_form h)

theorem dispatch_keeps {s : State} {xs : List (ℕ × W64)} {alignLane : Bool} (h : memoryForm s) :
    Keeps (fun r => memoryForm r.2) (s.dispatch xs alignLane) := by
  unfold State.dispatch
  split
  · exact keeps_raise
  · split
    · next e1 =>
      extract_lets look1 failed1 goals1
      clear_value failed1
      split
      · exact keeps_raise
      · exact keeps_raise
      · split
        · exact keeps_raise
        · exact keeps_ok (of_snd e1 (readEntries_form h))

theorem execJts_goes {a : SReg} {s : State} : Goes s (execJts a s) := by
  unfold execJts
  refine finish_goes id fun h => ?_
  refine keeps_bind (dispatch_keeps h) fun a1 k1 => ?_
  split
  · exact keeps_ok (jump_form k1)

theorem calltScalar_goes {a : SReg} {s : State} : Goes s (calltScalar a s) := by
  unfold calltScalar
  refine finish_goes id fun h => ?_
  refine whenQuiet_keeps h ?_
  refine keeps_bind (dispatch_keeps h) fun a1 k1 => ?_
  split
  · refine keeps_bind (callFrame_keeps k1) fun a2 k2 => ?_
    exact keeps_ok (jump_form k2)

theorem execCalltScalar_goes {a : SReg} {s : State} : Goes s (execCalltScalar a s) := by
  unfold execCalltScalar
  exact calltScalar_goes

theorem execCalltScalarW1_goes {a : SReg} {s : State} : Goes s (execCalltScalarW1 a s) := by
  unfold execCalltScalarW1
  exact calltScalar_goes

theorem dispatchLanes_goes {call : Bool} {g : Option Guard} {a : VReg} {s : State} : Goes s (dispatchLanes call g a s) := by
  unfold dispatchLanes
  extract_lets m1 j1 body1
  refine finish_goes id fun h => ?_
  split
  · refine whenQuiet_keeps h ?_
    refine keeps_bind (vcheck_keeps h) fun a1 k1 => ?_
    refine keeps_bind (dispatch_keeps h) fun a2 k2 => ?_
    split
    · extract_lets lanes1 ds1
      refine keeps_bind must_keeps fun a3 k3 => ?_
      exact splitMany_keeps k2
  · refine keeps_bind (vcheck_keeps h) fun a4 k4 => ?_
    refine keeps_bind (dispatch_keeps h) fun a5 k5 => ?_
    split
    · extract_lets lanes2 ds2
      refine keeps_bind must_keeps fun a6 k6 => ?_
      exact splitMany_keeps k5

theorem execJtv_goes {a : VReg} {s : State} : Goes s (execJtv a s) := by
  unfold execJtv
  exact dispatchLanes_goes

theorem execJtvW1_goes {g : Option Guard} {a : VReg} {s : State} : Goes s (execJtvW1 g a s) := by
  unfold execJtvW1
  exact dispatchLanes_goes

theorem execCalltLane_goes {a : VReg} {s : State} : Goes s (execCalltLane a s) := by
  unfold execCalltLane
  exact dispatchLanes_goes

theorem execCalltLaneW1_goes {g : Option Guard} {a : VReg} {s : State} : Goes s (execCalltLaneW1 g a s) := by
  unfold execCalltLaneW1
  exact dispatchLanes_goes

theorem leaveReaders_form {s : State} {vf part key : ℕ} (h : memoryForm s) : memoryForm (s.leaveReaders vf part key) :=
  setCtx_form h

theorem endGroup_form {s : State} (h : memoryForm s) : memoryForm s.endGroup :=
  leaveReaders_form (setGang_form (setGrp_form (returnAll_form h)))

theorem execExit_goes {s : State} : Goes s (execExit s) := by
  unfold execExit
  extract_lets x1 live1 t1
  split
  · exact goes_next fun h => endGroup_form h
  · split
    · exact goes_next fun h => jump_form (setSlot_form (setGrp_form h))
    · exact goes_next fun h => normalize_form (setGrp_form (setGrp_form h))

theorem execNop_goes {s : State} : Goes s (execNop s) := by
  unfold execNop
  exact goes_next fun h => advance_form h

theorem execYield_goes {s : State} : Goes s (execYield s) := by
  unfold execYield
  exact goes_next fun h => setSlot_form (advance_form h)

theorem software_form {s : State} {kind : ℕ} {n : BitVec 9} (h : memoryForm s) : memoryForm (s.software kind n) := by
  unfold State.software
  refine trapTo_form (fun u1 h1 => ?_) h
  split
  · exact jump_form h1
  · exact h1

theorem execTrap_goes {n : BitVec 9} {s : State} : Goes s (execTrap n s) := by
  unfold execTrap
  exact goes_next fun h => software_form h

theorem execSvc_goes {n : BitVec 9} {s : State} : Goes s (execSvc n s) := by
  unfold execSvc
  exact goes_next fun h => software_form h

/-! ### Engines -/

theorem futReady_keeps {s : State} {f : FReg} (_h : memoryForm s) : Keeps (fun _ => True) (s.futReady f) := by
  unfold State.futReady
  exact keeps_must

theorem settleLocal_form {s : State} {gang : ℕ} (h : memoryForm s) : memoryForm (s.settleLocal gang) := by
  unfold State.settleLocal
  extract_lets s1
  refine forGroups_form (fun u1 h1 => ?_) (drainQueue_form h)
  exact returnAll_form h1

theorem flipTiles_form {s : State} {gang op : ℕ} {ts : List (Bool × ℕ)} (h : memoryForm s) : memoryForm (s.flipTiles gang op ts) :=
  setGang_form (settleLocal_form h)

theorem unflip_form {s : State} {gang op : ℕ} (h : memoryForm s) : memoryForm (s.unflip gang op) :=
  setGang_form h

theorem redBase_form {s : State} {w : Here} {a : W64} {v : ℕ} (h : memoryForm s) : memoryForm (s.redBase w a v) := by
  unfold State.redBase
  split
  · next e1 => exact atomicStep_form (of_snd e1 (mapVa_form h))
  · next e2 => exact of_snd e2 (mapVa_form h)

theorem completionWord_form {s : State} {w : Here} {sc : Scope} {cw cv : W64} (h : memoryForm s) : memoryForm (s.completionWord w sc cw cv) := by
  unfold State.completionWord
  split
  · exact h
  · exact writeVa_form h

theorem endOp_form {s : State} {o : EngineOp} {status : W32} {sc : Scope} {cw cv : W64} (h : memoryForm s) :
    memoryForm (s.endOp o status sc cw cv) := by
  unfold State.endOp
  split
  · exact h
  · extract_lets s1
    split
    · exact completionWord_form (resolve_form (form_same h rfl rfl))
    · exact form_same h rfl rfl

theorem endHeld_form {s : State} {o : EngineOp} {status : W32} (h : memoryForm s) : memoryForm (s.endHeld o status) := by
  unfold State.endHeld
  split
  · exact h
  · extract_lets s1
    split
    · exact resolve_form (form_same h rfl rfl)
    · exact form_same h rfl rfl

theorem startOp_form {s : State} {id : ℕ} {kind : OpKind} (h : memoryForm s) : memoryForm (s.startOp id kind) :=
  form_same h rfl rfl

theorem mustAlign_keeps {a : W64} {n : ℕ} : Keeps (fun _ => True) (mustAlign a n) := by
  unfold mustAlign
  exact keeps_must

theorem mustRange_keeps {s : State} {b : Bool} (_h : memoryForm s) : Keeps (fun _ => True) (s.mustRange b) := by
  unfold State.mustRange
  exact keeps_must

theorem mustLocal_keeps {s : State} {a : W64} {n : ℕ} (_h : memoryForm s) : Keeps (fun _ => True) (s.mustLocal a n) := by
  unfold State.mustLocal
  exact keeps_must

theorem checkAll_keeps {s : State} {cs : List Check} (h : memoryForm s) : Keeps (fun _ => True) (s.checkAll cs) := by
  unfold State.checkAll
  extract_lets strip1 rs1 ps1 stage1
  unfold strip1
  split
  · exact keeps_raise
  · refine keeps_bind (translateStage_keeps h) fun a1 k1 => ?_
    refine keeps_bind (Q := fun _ => True) ?_ fun a2 k2 => ?_
    · unfold stage1
      split
      · exact keeps_raise
      · exact keeps_ok trivial
    · refine keeps_bind (Q := fun _ => True) ?_ fun a3 k3 => ?_
      · unfold stage1
        split
        · exact keeps_raise
        · exact keeps_ok trivial
      · exact keeps_ok trivial

theorem mustThread_keeps {s : State} {ts : List (Bool × ℕ)} (_h : memoryForm s) : Keeps (fun _ => True) (s.mustThread ts) := by
  unfold State.mustThread
  split
  · exact keeps_raise
  · exact keeps_ok trivial

theorem setOp_form {s : State} {id : ℕ} {f : OpKind → OpKind} (h : memoryForm s) : memoryForm (s.setOp id f) :=
  form_same h rfl rfl

/-! ### GATHER -/

theorem execGather_goes {ty : Ty} {f : FReg} {a : SReg} {s : State} : Goes s (execGather ty f a s) := by
  unfold execGather
  refine memFinish_goes id fun h => ?_
  extract_lets g1 d1 n1 len1 dst1 ts1 x1
  refine keeps_bind (futReady_keeps h) fun a1 k1 => ?_
  refine keeps_bind mustAlign_keeps fun a2 k2 => ?_
  refine keeps_bind mustAlign_keeps fun a3 k3 => ?_
  refine keeps_bind (mustRange_keeps h) fun a4 k4 => ?_
  refine keeps_bind (mustRange_keeps h) fun a5 k5 => ?_
  refine keeps_bind mustAlign_keeps fun a6 k6 => ?_
  refine keeps_bind mustAlign_keeps fun a7 k7 => ?_
  refine keeps_bind (mustRange_keeps h) fun a8 k8 => ?_
  refine keeps_bind mustAlign_keeps fun a9 k9 => ?_
  refine keeps_bind must_keeps fun a10 k10 => ?_
  refine keeps_bind (checkAll_keeps h) fun a11 k11 => ?_
  split
  · exact keeps_ok (advance_form (completionWord_form (settleFut_form h)))
  · refine keeps_bind (mustThread_keeps h) fun a12 k12 => ?_
    split
    · exact keeps_hold (park_form h)
    · split
      · next e1 => exact keeps_ok (advance_form (startOp_form (issueFut_form (flipTiles_form (of_snd e1 (fresh_form h))))))

theorem gatherStep_form {s : State} {o : EngineOp} {x : GatherOp} (h : memoryForm s) : memoryForm (s.gatherStep o x).2 := by
  unfold State.gatherStep
  extract_lets size1 s1
  split
  · split
    · next e1 => exact of_snd e1 (readVa_form h)
    · next e2 => exact of_snd e2 (readVa_form h)
  · split
    · split
      · exact setGang_form h
      · exact setGang_form h
    · split
      · exact h
      · split
        · next e3 => exact of_snd e3 (readVa_form h)
        · next e4 => exact of_snd e4 (readVa_form h)

theorem execGatherService_goes {i : ℕ} {s : State} : Goes s (execGatherService i s) := by
  unfold execGatherService
  split
  · exact goes_next id
  · split
    · split
      · exact goes_next id
      · split
        · next e1 => exact goes_next fun h => paid_form h (setOp_form (of_snd e1 (gatherStep_form h)))
    · exact goes_next id

theorem execGatherComplete_goes {i : ℕ} {s : State} : Goes s (execGatherComplete i s) := by
  unfold execGatherComplete
  split
  · exact goes_next id
  · split
    · split
      · exact goes_next id
      · split
        · exact goes_next fun h => endHeld_form h
        · exact goes_next fun h => paid_form h (endOp_form (unflip_form h))
    · exact goes_next id

/-! ### TCOPY -/

theorem recTouch_form {s : State} {e : RecEntry} (h : memoryForm s) : memoryForm (s.recTouch e) :=
  form_same h rfl rfl

theorem execTcopy_goes {out : Bool} {sc : Scope} {ord : Order} {cp : Cp} {f : FReg} {a : SReg} {s : State} :
    Goes s (execTcopy out sc ord cp f a s) := by
  unfold execTcopy
  refine memFinish_goes id fun h => ?_
  extract_lets g1 d1 loc1 len1 sc1 ts1 org1 recAddr1 cw1 cv1 x1
  refine keeps_bind (futReady_keeps h) fun a1 k1 => ?_
  refine keeps_bind mustAlign_keeps fun a2 k2 => ?_
  refine keeps_bind mustAlign_keeps fun a3 k3 => ?_
  refine keeps_bind (mustRange_keeps h) fun a4 k4 => ?_
  refine keeps_bind mustAlign_keeps fun a5 k5 => ?_
  refine keeps_bind (mustLocal_keeps h) fun a6 k6 => ?_
  refine keeps_bind (checkAll_keeps h) fun a7 k7 => ?_
  refine keeps_bind (mustThread_keeps h) fun a8 k8 => ?_
  refine keeps_bind (releaseFor_keeps h) fun a9 k9 => ?_
  split
  · next e1 =>
    extract_lets s1
    split
    · exact keeps_ok (advance_form (startOp_form (recTouch_form (issueFut_form (flipTiles_form (of_snd e1 (fresh_form k9)))))))
    · exact keeps_ok (advance_form (startOp_form (issueFut_form (flipTiles_form (of_snd e1 (fresh_form k9))))))

theorem recordSector_form {s : State} {o : EngineOp} {x : TcopyOp} (h : memoryForm s) : memoryForm (s.recordSector o x).2 := by
  unfold State.recordSector
  extract_lets w1
  split
  · next e1 => exact of_snd e1 (translateFor_form h)
  · next e2 =>
    split
    · exact of_snd e2 (translateFor_form h)
    · split
      · next e3 =>
        split
        · exact of_thd e3 (readPiece_form (of_snd e2 (translateFor_form h)))
        · exact of_thd e3 (readPiece_form (of_snd e2 (translateFor_form h)))

theorem execRecordFill_goes {i : ℕ} {s : State} : Goes s (execRecordFill i s) := by
  unfold execRecordFill
  split
  · exact goes_next id
  · split
    · split
      · exact goes_next id
      · split
        · next e1 =>
          extract_lets t1
          refine goes_next fun h => paid_form h (setOp_form ?_)
          unfold t1
          split
          · exact recTouch_form (of_snd e1 (recordSector_form h))
          · exact of_snd e1 (recordSector_form h)
    · exact goes_next id

theorem tcopyPut_form {s : State} {o : EngineOp} {x : TcopyOp} {h' : Shape} {d : ℕ} {bs : List Byte} (h : memoryForm s) :
    memoryForm (s.tcopyPut o x h' d bs).2 := by
  unfold State.tcopyPut
  extract_lets buf1 stop1
  split
  · exact setGang_form h
  · exact h

theorem tcopyFlush_form {s : State} {o : EngineOp} {x : TcopyOp} {h' : Shape} {d : ℕ} (h : memoryForm s) : memoryForm (s.tcopyFlush o x h' d) := by
  unfold State.tcopyFlush
  split
  · exact h
  · exact setGang_form h

theorem tcopyMove_form {s : State} {o : EngineOp} {x : TcopyOp} {h' : Shape} {d : ℕ} (h : memoryForm s) : memoryForm (s.tcopyMove o x h' d).2.2 := by
  unfold State.tcopyMove
  extract_lets at_1 g1
  split
  · split
    · exact h
    · exact tcopyPut_form h
  · split
    · split
      · exact h
      · split
        · next e1 => exact of_snd e1 (writeVa_form h)
        · next e2 => exact of_snd e2 (writeVa_form h)
    · split
      · next e3 => exact of_snd e3 (readVa_form h)
      · next e4 => exact tcopyPut_form (of_snd e4 (readVa_form h))

theorem tcopyMany_form {o : EngineOp} {h' : Shape} {n : ℕ} {y : TcopyOp} {s : State} (h : memoryForm s) :
    memoryForm (State.tcopyMany o h' n y s).2.2 := by
  induction n generalizing o h' y s with
  | zero => exact h
  | succ m ih =>
    unfold State.tcopyMany
    split
    · exact h
    · split
      · next e1 => exact tcopyFlush_form (of_thd e1 (tcopyMove_form h))
      · next e2 => exact ih (of_thd e2 (tcopyMove_form h))

theorem tcopyEnd_form {s : State} {o : EngineOp} {x : TcopyOp} {status : W32} (h : memoryForm s) : memoryForm (s.tcopyEnd o x status) := by
  unfold State.tcopyEnd
  split
  · exact endHeld_form h
  · exact endOp_form (unflip_form h)

theorem execTcopyComplete_goes {i n : ℕ} {s : State} : Goes s (execTcopyComplete i n s) := by
  unfold execTcopyComplete
  split
  · exact goes_next id
  · split
    · split
      · exact goes_next id
      · split
        · exact goes_next fun h => paid_form h (tcopyEnd_form h)
        · exact goes_next fun h => paid_form h (tcopyEnd_form h)
        · split
          · exact goes_next fun h => paid_form h (tcopyEnd_form h)
          · split
            · next e1 => exact goes_next fun h => paid_form h (tcopyEnd_form (of_thd e1 (tcopyMany_form h)))
            · next e2 =>
              refine goes_next fun h => paid_form h ?_
              split
              · exact tcopyEnd_form (of_thd e2 (tcopyMany_form h))
              · exact setOp_form (of_thd e2 (tcopyMany_form h))
    · exact goes_next id

theorem execRfence_goes {a : SReg} {s : State} : Goes s (execRfence a s) := by
  unfold execRfence
  refine finish_goes id fun h => ?_
  extract_lets g1 v1 s1 s2 s3
  refine keeps_bind mustAlign_keeps fun a1 k1 => ?_
  split
  · exact keeps_hold (park_form h)
  · exact keeps_ok (advance_form (form_same (s := s2) (returnAll_form (drainQueue_form h)) rfl rfl))

/-! ### PUT -/

theorem execPut_goes {sp : Bool} {sc : Scope} {ord : Order} {f : FReg} {a : SReg} {s : State} : Goes s (execPut sp sc ord f a s) := by
  unfold execPut
  refine memFinish_goes id fun h => ?_
  extract_lets g1 d1 sc1 x1
  refine keeps_bind (futReady_keeps h) fun a1 k1 => ?_
  refine keeps_bind mustAlign_keeps fun a2 k2 => ?_
  refine keeps_bind (mustRange_keeps h) fun a3 k3 => ?_
  refine keeps_bind (mustRange_keeps h) fun a4 k4 => ?_
  refine keeps_bind mustAlign_keeps fun a5 k5 => ?_
  refine keeps_bind (mustRange_keeps h) fun a6 k6 => ?_
  refine keeps_bind mustAlign_keeps fun a7 k7 => ?_
  refine keeps_bind mustAlign_keeps fun a8 k8 => ?_
  refine keeps_bind (mustRange_keeps h) fun a9 k9 => ?_
  refine keeps_bind (mustLocal_keeps h) fun a10 k10 => ?_
  refine keeps_bind (checkAll_keeps h) fun a11 k11 => ?_
  refine keeps_bind (checkAll_keeps h) fun a12 k12 => ?_
  refine keeps_bind must_keeps fun a13 k13 => ?_
  refine keeps_bind (mustThread_keeps h) fun a14 k14 => ?_
  split
  · exact keeps_hold (park_form h)
  · refine keeps_bind (releaseFor_keeps h) fun a15 k15 => ?_
    split
    · next e1 => exact keeps_ok (advance_form (startOp_form (issueFut_form (flipTiles_form (of_snd e1 (fresh_form k15))))))

theorem putCopy_form {s : State} {o : EngineOp} {x : PutOp} {key n : ℕ} (h : memoryForm s) : memoryForm (s.putCopy o x key n) :=
  setGang_form h

theorem freeDst_form {s : State} {key : ℕ} {x : PutOp} (h : memoryForm s) : memoryForm (s.freeDst key x) :=
  setGang_form h

theorem bump_form {s : State} {w : Here} {ctr : W64} (h : memoryForm s) : memoryForm (s.bump w ctr) := by
  unfold State.bump
  split
  · exact h
  · split
    · next e1 => exact atomicStep_form (of_snd e1 (mapVa_form h))
    · next e2 => exact of_snd e2 (mapVa_form h)

theorem execPutArrival_goes {i : ℕ} {s : State} : Goes s (execPutArrival i s) := by
  unfold execPutArrival
  split
  · exact goes_next id
  · split
    · extract_lets done1 n1
      split
      · exact goes_next id
      · split
        · extract_lets s1
          split
          · exact goes_next fun h => setOp_form (putCopy_form h)
          · exact goes_next fun h => paid_form (putCopy_form h) (setOp_form (bump_form (freeDst_form (putCopy_form h))))
        · split
          · exact goes_next fun h => setOp_form h
          · split
            · exact goes_next fun h => setOp_form h
            · split
              · exact goes_next fun h => setOp_form h
              · split
                · exact goes_next fun h => setOp_form h
                · extract_lets s2
                  exact goes_next fun h => setOp_form (flipTiles_form h)
    · exact goes_next id

theorem execPutComplete_goes {i : ℕ} {s : State} : Goes s (execPutComplete i s) := by
  unfold execPutComplete
  split
  · exact goes_next id
  · split
    · split
      · exact goes_next id
      · split
        · exact goes_next id
        · split
          · exact goes_next fun h => endHeld_form h
          · exact goes_next fun h => paid_form h (endOp_form (unflip_form h))
    · exact goes_next id

theorem townOp_goes {engine : Bool} {a b : SReg} {s : State} : Goes s (townOp engine a b s) := by
  unfold townOp
  refine finish_goes id fun h => ?_
  extract_lets lo1 n1 unit1 g1 ts1 s1
  split
  · exact keeps_ok (advance_form h)
  · refine keeps_bind mustAlign_keeps fun a1 k1 => ?_
    refine keeps_bind mustAlign_keeps fun a2 k2 => ?_
    refine keeps_bind (mustLocal_keeps h) fun a3 k3 => ?_
    split
    · exact keeps_raise
    · refine keeps_ok (advance_form (setGang_form ?_))
      unfold s1
      split
      · exact settleLocal_form h
      · exact h

theorem execTownThread_goes {a b : SReg} {s : State} : Goes s (execTownThread a b s) := by
  unfold execTownThread
  exact townOp_goes

theorem execTownEngine_goes {a b : SReg} {s : State} : Goes s (execTownEngine a b s) := by
  unfold execTownEngine
  exact townOp_goes

/-! ### Barrier sets -/

theorem setCheck_keeps {s : State} {a : SReg} {whole : Bool} (_h : memoryForm s) : Keeps (fun _ => True) (s.setCheck a whole) := by
  unfold State.setCheck
  extract_lets n1
  split
  · exact keeps_raise
  · split
    · exact keeps_raise
    · split
      · exact keeps_illegal
      · exact keeps_ok trivial

theorem completeSet_form {s : State} {gang n : ℕ} (h : memoryForm s) : memoryForm (s.completeSet gang n) :=
  form_same h rfl rfl

theorem completeIf_form {s : State} {gang n : ℕ} (h : memoryForm s) : memoryForm (s.completeIf gang n) := by
  unfold State.completeIf
  split
  · split
    · exact completeSet_form h
    · exact h
  · exact h

theorem arriveSet_keeps {s : State} {n : ℕ} {e : SetEntry} (h : memoryForm s) : Keeps memoryForm (s.arriveSet n e) := by
  unfold State.arriveSet
  split
  · exact keeps_hold (park_form h)
  · refine keeps_bind (release_keeps h) fun a1 k1 => ?_
    exact keeps_ok (setGang_form k1)

theorem execBarv_goes {d a : SReg} {s : State} : Goes s (execBarv d a s) := by
  unfold execBarv
  refine finish_goes id fun h => ?_
  refine keeps_bind (setCheck_keeps h) fun a1 k1 => ?_
  split
  · refine keeps_bind (arriveSet_keeps h) fun a2 k2 => ?_
    exact keeps_ok (completeIf_form (advance_form (setRs_form k2)))

theorem barrierDone_form {s : State} (h : memoryForm s) : memoryForm s.barrierDone :=
  acquire_form (advance_form h)

theorem execBwait_goes {a b : SReg} {s : State} : Goes s (execBwait a b s) := by
  unfold execBwait
  refine finish_goes id fun h => ?_
  refine keeps_bind (setCheck_keeps h) fun a1 k1 => ?_
  split
  · refine keeps_ok ?_
    split
    · exact barrierDone_form h
    · exact park_form h

theorem execBsync_goes {a : SReg} {s : State} : Goes s (execBsync a s) := by
  unfold execBsync
  refine finish_goes id fun h => ?_
  refine keeps_bind (setCheck_keeps h) fun a1 k1 => ?_
  split
  · refine keeps_bind (arriveSet_keeps h) fun a2 k2 => ?_
    exact keeps_ok (completeIf_form (park_form k2))

theorem execSetleave_goes {a : SReg} {s : State} : Goes s (execSetleave a s) := by
  unfold execSetleave
  refine finish_goes id fun h => ?_
  refine keeps_bind (setCheck_keeps h) fun a1 k1 => ?_
  split
  · split
    · exact keeps_hold (park_form h)
    · refine keeps_bind (release_keeps h) fun a2 k2 => ?_
      extract_lets t1
      exact keeps_ok (completeIf_form (advance_form (setGang_form k2)))

theorem watch_form {s : State} (h : memoryForm s) : memoryForm s.watch :=
  form_same h rfl rfl

theorem execBarrierTimeout_goes {key n : ℕ} {s : State} : Goes s (execBarrierTimeout key n s) := by
  unfold execBarrierTimeout
  extract_lets g1 m1 e1 record1
  split
  · exact goes_next fun h => terminate_form h
  · exact goes_next id

/-! ### Grace periods -/

theorem execRsopen_goes {s : State} : Goes s (execRsopen s) := by
  unfold execRsopen
  refine finish_goes id fun h => ?_
  extract_lets g1 s1
  split
  · exact keeps_illegal
  · refine keeps_ok (advance_form (setGrp_form ?_))
    unfold s1
    split
    · exact setCtx_form h
    · exact h

theorem execRsclose_goes {s : State} : Goes s (execRsclose s) := by
  unfold execRsclose
  refine finish_goes id fun h => ?_
  extract_lets g1 s1
  split
  · exact keeps_illegal
  · split
    · exact keeps_hold (park_form h)
    · refine keeps_ok (advance_form (setGrp_form ?_))
      unfold s1
      split
      · exact leaveReaders_form h
      · exact h

theorem graceDrop_form {s : State} {vf part : ℕ} (h : memoryForm s) : memoryForm (s.graceDrop vf part) :=
  l1Drop_form (l2Drop_form h)

theorem startGraces_form {s : State} {vf part : ℕ} (h : memoryForm s) : memoryForm (s.startGraces vf part) := by
  unfold State.startGraces
  split
  · exact h
  · extract_lets room1 ids1
    split
    · exact h
    · exact setCtx_form (graceDrop_form h)

theorem openGrace_form {s : State} {vf part id : ℕ} {deadline : Option ℕ} (h : memoryForm s) : memoryForm (s.openGrace vf part id deadline) :=
  startGraces_form (setCtx_form h)

theorem endGrace_form {s : State} {vf part id : ℕ} {status : W32} (h : memoryForm s) : memoryForm (s.endGrace vf part id status) := by
  unfold State.endGrace
  extract_lets f1 s1 s2
  refine startGraces_form (setCtx_form ?_)
  unfold s2
  split
  · exact endOp_form (form_same h rfl rfl)
  · exact form_same h rfl rfl

theorem graceNow_form {s : State} {id : ℕ} (h : memoryForm s) : memoryForm (s.graceNow id) := by
  unfold State.graceNow
  split
  · split
    · split
      · exact endGrace_form h
      · exact h
    · exact h
  · exact h

theorem gpwaitOp_goes {d : SReg} {f : Option FReg} {t : Option SReg} {s : State} : Goes s (gpwaitOp d f t s) := by
  unfold gpwaitOp
  refine finish_goes id fun h => ?_
  extract_lets g1 deadline1 f1
  refine keeps_bind must_keeps fun a1 k1 => ?_
  split
  · refine keeps_bind (futReady_keeps h) fun a2 k2 => ?_
    refine keeps_bind (release_keeps h) fun a3 k3 => ?_
    split
    · next e1 =>
      extract_lets s1
      split
      · refine keeps_ok (endGrace_form ?_)
        unfold s1
        split
        · exact advance_form (startOp_form (issueFut_form (of_snd e1 (fresh_form k3))))
        · exact park_form (of_snd e1 (fresh_form k3))
      · refine keeps_ok (graceNow_form (openGrace_form ?_))
        unfold s1
        split
        · exact advance_form (startOp_form (issueFut_form (of_snd e1 (fresh_form k3))))
        · exact park_form (of_snd e1 (fresh_form k3))
  · refine keeps_bind (Q := fun _ => True) ?_ fun a4 k4 => ?_
    · exact keeps_ok trivial
    · refine keeps_bind (release_keeps h) fun a5 k5 => ?_
      split
      · next e2 =>
        extract_lets s2
        split
        · refine keeps_ok (endGrace_form ?_)
          unfold s2
          split
          · exact advance_form (startOp_form (issueFut_form (of_snd e2 (fresh_form k5))))
          · exact park_form (of_snd e2 (fresh_form k5))
        · refine keeps_ok (graceNow_form (openGrace_form ?_))
          unfold s2
          split
          · exact advance_form (startOp_form (issueFut_form (of_snd e2 (fresh_form k5))))
          · exact park_form (of_snd e2 (fresh_form k5))

theorem execGpwait_goes {d : SReg} {s : State} : Goes s (execGpwait d s) := by
  unfold execGpwait
  exact gpwaitOp_goes

theorem execGpwaitT_goes {d a : SReg} {s : State} : Goes s (execGpwaitT d a s) := by
  unfold execGpwaitT
  exact gpwaitOp_goes

theorem execGpwaitF_goes {f : FReg} {s : State} : Goes s (execGpwaitF f s) := by
  unfold execGpwaitF
  exact gpwaitOp_goes

theorem execGpwaitFT_goes {f : FReg} {a : SReg} {s : State} : Goes s (execGpwaitFT f a s) := by
  unfold execGpwaitFT
  exact gpwaitOp_goes

theorem execGracePeriodEnd_goes {i : ℕ} {s : State} : Goes s (execGracePeriodEnd i s) := by
  unfold execGracePeriodEnd
  split
  · split
    · exact goes_next fun h => endGrace_form h
    · exact goes_next id
  · exact goes_next id

theorem execGpwaitDeadline_goes {i : ℕ} {s : State} : Goes s (execGpwaitDeadline i s) := by
  unfold execGpwaitDeadline
  exact goes_next fun h => graceNow_form h

theorem freeNow_form {s : State} {n : W64} {c : ℕ} {h' : W64} (h : memoryForm s) : memoryForm (s.freeNow n c h') :=
  advance_form (setCtx_form h)

theorem execDfree_goes {a : SReg} {s : State} : Goes s (execDfree a s) := by
  unfold execDfree
  refine memFinish_goes id fun h => ?_
  extract_lets x1 c1 h1 home1
  refine keeps_bind (mustRange_keeps h) fun a1 k1 => ?_
  refine keeps_bind mustAlign_keeps fun a2 k2 => ?_
  refine keeps_bind mustAlign_keeps fun a3 k3 => ?_
  refine keeps_bind (checkAll_keeps h) fun a4 k4 => ?_
  refine keeps_bind (release_keeps h) fun a5 k5 => ?_
  split
  · exact keeps_ok (freeNow_form k5)
  · exact keeps_hold (park_form k5)

theorem execBatchClose_goes {i : ℕ} {s : State} : Goes s (execBatchClose i s) := by
  unfold execBatchClose
  split
  · exact goes_next id
  · extract_lets due1
    split
    · exact goes_next id
    · split
      · next e1 =>
        extract_lets s1
        exact goes_next fun h => openGrace_form (setCtx_form (of_snd e1 (fresh_form h)))

theorem headOf_form {s : State} {w : Here} {h' : W64} (h : memoryForm s) : memoryForm (s.headOf w h').2 := by
  unfold State.headOf
  split
  · next e1 =>
    split
    · next e2 => exact of_thd e2 (readPiece_form (of_snd e1 (mapVa_form h)))
  · next e3 => exact of_snd e3 (mapVa_form h)

theorem pushStep_form {s : State} {w : Here} {b : Batch} {loseHead : Bool} (h : memoryForm s) : memoryForm (s.pushStep w b loseHead).2 := by
  unfold State.pushStep
  split
  · exact h
  · extract_lets lose1 push1
    split
    · next e1 => exact of_snd e1 (headOf_form h)
    · next e2 =>
      split
      · split
        · next e3 => exact of_snd e3 (writeVa_form (of_snd e2 (headOf_form h)))
        · next e4 => exact of_snd e4 (writeVa_form (of_snd e2 (headOf_form h)))
      · split
        · exact atomicStep_form (of_snd e2 (headOf_form h))
        · split
          · exact of_snd e2 (headOf_form h)
          · split
            · exact of_snd e2 (headOf_form h)
            · exact of_snd e2 (headOf_form h)

theorem batchDone_form {s : State} {w : Here} {c : Ctx} {b : Batch} (h : memoryForm s) : memoryForm (s.batchDone w c b) := by
  unfold State.batchDone
  split
  · exact setCtx_form h
  · exact redBase_form (redBase_form (setCtx_form h))

theorem execBatchPush_goes {i : ℕ} {s : State} : Goes s (execBatchPush i s) := by
  unfold execBatchPush
  split
  · exact goes_next id
  · extract_lets w1
    split
    · next e1 => exact goes_next fun h => batchDone_form (of_snd e1 (pushStep_form h))

theorem takeoverCtx_form {s : State} {c : Ctx} (h : memoryForm s) : memoryForm (s.takeoverCtx c) := by
  unfold State.takeoverCtx
  extract_lets s1 w1
  split
  · split
    · exact setCtx_form (graceDrop_form h)
    · split
      · next e1 => exact batchDone_form (of_snd e1 (pushStep_form (setCtx_form (graceDrop_form h))))
  · exact setCtx_form (graceDrop_form h)

theorem execRegulatorTakeover_goes {s : State} : Goes s (execRegulatorTakeover s) := by
  unfold execRegulatorTakeover
  split
  · exact goes_next id
  · refine goes_next fun h => form_foldl (fun u1 x1 h1 => ?_) (form_same h rfl rfl)
    exact takeoverCtx_form h1

end Sys2Proof.Machine
end

section
/-! PROOFS. What the model's functions answer and that they keep the form of both memories: near-memory units, remote accesses, the weavers and the exchange. -/
namespace Sys2Proof.Machine
open Sys2Proof Sys2Proof.Statements

/-! ### Near-memory units -/

theorem meter_form {s : State} {id bytes ch : ℕ} {cls : Traffic} {line : Option ℕ} (h : memoryForm s) : memoryForm (s.meter id bytes ch cls line) :=
  putPacket_form h

theorem agentPacket_form {s : State} {o : EngineOp} {from_ bytes ch : ℕ} {what : Carry} (h : memoryForm s) :
    memoryForm (s.agentPacket o from_ bytes ch what) :=
  putPacket_form h

theorem setNmu_form {s : State} {ch : ℕ} {f : Nmu → Nmu} (h : memoryForm s) : memoryForm (s.setNmu ch f) :=
  form_same h rfl rfl

theorem enqueueStep_form {s : State} {ch : ℕ} {x : NmuStep} (h : memoryForm s) : memoryForm (s.enqueueStep ch x) :=
  setNmu_form h

theorem dropSteps_form {s : State} {ch : ℕ} {p : NmuStep → Bool} (h : memoryForm s) : memoryForm (s.dropSteps ch p) :=
  setNmu_form h

theorem forget_form {s : State} {id : ℕ} (h : memoryForm s) : memoryForm (s.forget id) :=
  form_same h rfl rfl

theorem beginColl_form {s : State} {stack : ℕ} (h : memoryForm s) : memoryForm (s.beginColl stack) := by
  unfold State.beginColl
  extract_lets mine1
  split
  · exact setOp_form h
  · exact h

theorem lastOp_form {s : State} {o : EngineOp} (h : memoryForm s) : memoryForm (s.lastOp o) :=
  form_same h rfl rfl

theorem deliver_form {s : State} {p : Packet} (h : memoryForm s) : memoryForm (s.deliver p) := by
  unfold State.deliver
  split
  · exact form_same h rfl rfl
  · split
    · exact setOp_form h
    · split
      · exact enqueueStep_form h
      · exact h
    · exact enqueueStep_form h
    · exact lastOp_form h
    · exact beginColl_form (lastOp_form h)
    · exact h
  · exact h

theorem forward_form {s : State} {p : Packet} {stack hop : ℕ} (h : memoryForm s) : memoryForm (s.forward p stack hop) := by
  unfold State.forward
  split
  · exact deliver_form h
  · exact form_same h rfl rfl

theorem execRateLimitedInject_goes {i : ℕ} {s : State} : Goes s (execRateLimitedInject i s) := by
  unfold execRateLimitedInject
  split
  · exact goes_next id
  · split
    · exact goes_next id
    · split
      · exact goes_next id
      · split
        · exact goes_next id
        · exact goes_next fun h => forward_form (toll_form (form_same h rfl rfl))
      · exact goes_next fun h => forward_form (form_same h rfl rfl)

theorem sendCommand_keeps {s : State} {sc : Scope} {ord : Order} {f : Option FReg} {words ch : ℕ} {line : Option ℕ} {cls : Traffic}
    {kind : OpKind} (h : memoryForm s) :
    Keeps memoryForm (s.sendCommand sc ord f words ch line cls kind) := by
  unfold State.sendCommand
  refine keeps_bind (releaseFor_keeps h) fun a1 k1 => ?_
  split
  · next e1 =>
    extract_lets s1
    refine keeps_ok (advance_form (meter_form (startOp_form ?_)))
    unfold s1
    split
    · exact issueFut_form (of_snd e1 (fresh_form k1))
    · exact of_snd e1 (fresh_form k1)

theorem execNmcall_goes {sc : Scope} {ord : Order} {entry : BitVec 5} {f : FReg} {a : SReg} {s : State} : Goes s (execNmcall sc ord entry f a s) := by
  unfold execNmcall
  refine memFinish_goes id fun h => ?_
  extract_lets d1 e1 sc1 line1 res1 f1
  refine keeps_bind (futReady_keeps h) fun a1 k1 => ?_
  refine keeps_bind mustAlign_keeps fun a2 k2 => ?_
  refine keeps_bind (mustRange_keeps h) fun a3 k3 => ?_
  refine keeps_bind mustAlign_keeps fun a4 k4 => ?_
  split
  · refine keeps_bind (mustRange_keeps h) fun a5 k5 => ?_
    refine keeps_bind mustAlign_keeps fun a6 k6 => ?_
    refine keeps_bind (mustRange_keeps h) fun a7 k7 => ?_
    refine keeps_bind (checkAll_keeps h) fun a8 k8 => ?_
    extract_lets ch1
    split
    · exact keeps_hold (park_form h)
    · exact sendCommand_keeps h
  · split
    · refine keeps_bind mustAlign_keeps fun a9 k9 => ?_
      refine keeps_bind mustAlign_keeps fun a10 k10 => ?_
      refine keeps_bind (mustRange_keeps h) fun a11 k11 => ?_
      refine keeps_bind (checkAll_keeps h) fun a12 k12 => ?_
      extract_lets ch2
      split
      · exact keeps_hold (park_form h)
      · exact sendCommand_keeps h
    · split
      · refine keeps_bind mustAlign_keeps fun a13 k13 => ?_
        refine keeps_bind mustAlign_keeps fun a14 k14 => ?_
        refine keeps_bind (mustRange_keeps h) fun a15 k15 => ?_
        refine keeps_bind (checkAll_keeps h) fun a16 k16 => ?_
        extract_lets ch3
        split
        · exact keeps_hold (park_form h)
        · exact sendCommand_keeps h
      · refine keeps_bind (Q := fun _ => True) ?_ fun a17 k17 => ?_
        · exact keeps_ok trivial
        · refine keeps_bind mustAlign_keeps fun a18 k18 => ?_
          refine keeps_bind (mustRange_keeps h) fun a19 k19 => ?_
          refine keeps_bind (checkAll_keeps h) fun a20 k20 => ?_
          extract_lets ch4
          split
          · exact keeps_hold (park_form h)
          · exact sendCommand_keeps h

theorem execIxred_goes {ty : Ty} {sc : Scope} {ord : Order} {a : SReg} {s : State} : Goes s (execIxred ty sc ord a s) := by
  unfold execIxred
  refine memFinish_goes id fun h => ?_
  extract_lets d1 sc1 meta_1 rb1 n1 wide1 rows1 dst1 ctr1
  refine keeps_bind mustAlign_keeps fun a1 k1 => ?_
  refine keeps_bind (mustRange_keeps h) fun a2 k2 => ?_
  refine keeps_bind (mustRange_keeps h) fun a3 k3 => ?_
  refine keeps_bind mustAlign_keeps fun a4 k4 => ?_
  refine keeps_bind mustAlign_keeps fun a5 k5 => ?_
  refine keeps_bind (checkAll_keeps h) fun a6 k6 => ?_
  extract_lets stack1
  split
  · exact keeps_hold (park_form h)
  · exact sendCommand_keeps h

theorem execWalk_goes {sc : Scope} {ord : Order} {f : FReg} {a : SReg} {s : State} : Goes s (execWalk sc ord f a s) := by
  unfold execWalk
  refine memFinish_goes id fun h => ?_
  extract_lets d1 sc1 vh1 v1 hops1 rnlog1 nw1 n1 kw1
  refine keeps_bind (futReady_keeps h) fun a1 k1 => ?_
  refine keeps_bind mustAlign_keeps fun a2 k2 => ?_
  refine keeps_bind mustAlign_keeps fun a3 k3 => ?_
  refine keeps_bind (mustRange_keeps h) fun a4 k4 => ?_
  refine keeps_bind mustAlign_keeps fun a5 k5 => ?_
  refine keeps_bind (mustRange_keeps h) fun a6 k6 => ?_
  refine keeps_bind mustAlign_keeps fun a7 k7 => ?_
  refine keeps_bind mustAlign_keeps fun a8 k8 => ?_
  refine keeps_bind (mustRange_keeps h) fun a9 k9 => ?_
  refine keeps_bind (checkAll_keeps h) fun a10 k10 => ?_
  extract_lets ch1
  split
  · exact keeps_hold (park_form h)
  · exact sendCommand_keeps (drawn_form h)

theorem collLead_form {s : State} {list : W64} {n : ℕ} (h : memoryForm s) : memoryForm (s.collLead list n).2.2 := by
  unfold State.collLead
  extract_lets w1
  split
  · next e1 =>
    extract_lets bufs1
    split
    · next e2 => exact of_snd e2 (translateFor_form (of_snd e1 (readVa_form h)))

theorem execColl_goes {sc : Scope} {ord : Order} {f : FReg} {a : SReg} {s : State} : Goes s (execColl sc ord f a s) := by
  unfold execColl
  refine memFinish_goes id fun h => ?_
  refine keeps_bind (futReady_keeps h) fun _ _ => ?_
  refine keeps_bind mustAlign_keeps fun _ _ => ?_
  refine keeps_bind (mustRange_keeps h) fun _ _ => ?_
  refine keeps_bind mustAlign_keeps fun _ _ => ?_
  refine keeps_bind (mustRange_keeps h) fun _ _ => ?_
  refine keeps_bind (checkAll_keeps h) fun _ _ => ?_
  simp only []
  split
  · exact keeps_hold (park_form h)
  · refine keeps_bind (releaseFor_keeps h) fun t ht => ?_
    have hx : memoryForm (t.collLead (s.rsAt a 0) (bits (s.rsAt a 1).toNat 32 4 + 1)).2.2 := collLead_form ht
    split
    · exact keeps_hold (park_form hx)
    · exact sendCommand_keeps hx

theorem execGred_goes {g : Option Guard} {ty : Ty} {op : AtomOp} {d a : VReg} {s : State} : Goes s (execGred g ty op d a s) := by
  unfold execGred
  refine memFinish_goes id fun h => ?_
  refine keeps_bind (vcheck_keeps h) fun a1 k1 => ?_
  extract_lets m1 e1 rs1 pa1
  split
  · exact keeps_ok (advance_form h)
  · refine keeps_bind (room_keeps h) fun a2 k2 => ?_
    refine keeps_bind (checkGlobal_keeps h) fun a3 k3 => ?_
    extract_lets chans1 shares1
    split
    · exact keeps_hold (park_form h)
    · split
      · next e2 =>
        extract_lets key1 t1 t2
        refine keeps_ok (form_foldl (fun u1 x1 h1 => ?_) (startOp_form (issueLoad_form (of_snd e2 (fresh_form h)))))
        exact meter_form h1

theorem endNear_form {s : State} {o : EngineOp} {w : Here} {status : W32} {sc : Scope} {cw cv : W64} (h : memoryForm s) :
    memoryForm (s.endNear o w status sc cw cv) := by
  unfold State.endNear
  split
  · exact h
  · extract_lets s1
    refine completionWord_form ?_
    split
    · exact resolve_form (forget_form (form_same h rfl rfl))
    · exact forget_form (form_same h rfl rfl)

theorem agentSends_form {s : State} {o : EngineOp} {packets payload : ℕ} {t : State} (h : memoryForm s) (ht : memoryForm t) :
    memoryForm (s.agentSends o packets payload t) :=
  paid_form h (form_same (s := t.charge o.part o.die packets payload) (charge_form ht) rfl rfl)

theorem nmcallLine_form {s : State} {o : EngineOp} {x : NmcallOp} (h : memoryForm s) : memoryForm (s.nmcallLine o x).2 := by
  unfold State.nmcallLine
  extract_lets w1 a1 stop1
  split
  · next e1 => exact of_snd e1 (translateFor_form h)
  · next e2 => exact of_snd e2 (translateFor_form h)
  · next e3 =>
    split
    · exact of_snd e3 (translateFor_form h)
    · split
      · exact basePut_form (of_snd e3 (translateFor_form h))
      · split
        · exact touch_form (of_snd e3 (translateFor_form h))
        · exact touch_form (of_snd e3 (translateFor_form h))

theorem settleNmus_form {s : State} (h : memoryForm s) : memoryForm s.settleNmus :=
  form_same h rfl rfl

theorem walkEnds_form {s : State} {o : EngineOp} {x : WalkOp} {k : Walk} (h : memoryForm s) : memoryForm (s.walkEnds o x k) := by
  unfold State.walkEnds
  extract_lets w1 slot1
  split
  · next e1 =>
    extract_lets s1 f1 s2 x1
    split
    · refine endNear_form (form_same (s := f1) ?_ rfl rfl)
      refine charge_form (redBase_form ?_)
      refine of_snd e1 ?_
      split
      · next e2 => exact writePieces_form (of_snd e2 (mapVa_form h))
      · next e3 => exact of_snd e3 (mapVa_form h)
      · next e4 => exact of_snd e4 (mapVa_form h)
    · refine setOp_form (form_same (s := f1) ?_ rfl rfl)
      refine charge_form (redBase_form ?_)
      refine of_snd e1 ?_
      split
      · next e5 => exact writePieces_form (of_snd e5 (mapVa_form h))
      · next e6 => exact of_snd e6 (mapVa_form h)
      · next e7 => exact of_snd e7 (mapVa_form h)

theorem walkReads_form {s : State} {o : EngineOp} {x : WalkOp} {k : Walk} (h : memoryForm s) : memoryForm (s.walkReads o x k) := by
  unfold State.walkReads
  split
  · next e1 =>
    extract_lets w1
    split
    · next e2 =>
      split
      · refine walkEnds_form ?_
        refine of_snd e2 ?_
        split
        · next e3 => exact of_snd e3 (translateFor_form h)
        · next e4 => exact of_snd e4 (translateFor_form h)
        · next e5 =>
          extract_lets s1
          split
          · exact touch_form (of_snd e5 (translateFor_form h))
          · exact touch_form (of_snd e5 (translateFor_form h))
      · refine setOp_form ?_
        refine of_snd e2 ?_
        split
        · next e6 => exact of_snd e6 (translateFor_form h)
        · next e7 => exact of_snd e7 (translateFor_form h)
        · next e8 =>
          extract_lets s2
          split
          · exact touch_form (of_snd e8 (translateFor_form h))
          · exact touch_form (of_snd e8 (translateFor_form h))

theorem execWalkHop_goes {i w : ℕ} {s : State} : Goes s (execWalkHop i w s) := by
  unfold execWalkHop
  split
  · exact goes_next id
  · split
    · split
      · exact goes_next id
      · split
        · split
          · exact goes_next fun h => setOp_form h
          · exact goes_next id
        · split
          · exact goes_next id
          · split
            · exact goes_next fun h => paid_form h (walkReads_form h)
            · split
              · exact goes_next fun h => agentPacket_form h
              · split
                · exact goes_next fun h => paid_form h (walkReads_form h)
                · refine goes_next fun h => ?_
                  split
                  · exact enqueueStep_form h
                  · exact h
    · exact goes_next id

theorem runStep_form {s : State} {ch : ℕ} {q : NmuStep} (h : memoryForm s) : memoryForm (s.runStep ch q) := by
  unfold State.runStep
  extract_lets s1
  split
  · split
    · split
      · split
        · exact dropSteps_form h
        · split
          · next e1 =>
            extract_lets s2
            split
            · exact setOp_form (of_snd e1 (nmcallLine_form (dropSteps_form h)))
            · exact enqueueStep_form (setOp_form (of_snd e1 (nmcallLine_form (dropSteps_form h))))
      · exact dropSteps_form h
    · exact dropSteps_form h
  · split
    · split
      · split
        · split
          · exact dropSteps_form h
          · exact walkReads_form (dropSteps_form h)
        · exact dropSteps_form h
      · exact dropSteps_form h
    · exact dropSteps_form h
  · split
    · split
      · exact agentPacket_form (setOp_form (touch_form (dropSteps_form h)))
      · exact dropSteps_form h
    · exact dropSteps_form h

theorem execNmuStep_goes {ch : ℕ} {s : State} : Goes s (execNmuStep ch s) := by
  unfold execNmuStep
  split
  · extract_lets t1
    refine goes_next fun h => ?_
    split
    · refine paid_form h ?_
      unfold t1
      split
      · exact h
      · exact runStep_form h
    · unfold t1
      split
      · exact h
      · exact runStep_form h
  · exact goes_next id

theorem execNmcallComplete_goes {i : ℕ} {s : State} : Goes s (execNmcallComplete i s) := by
  unfold execNmcallComplete
  split
  · exact goes_next id
  · next e1 =>
    split
    · split
      · exact goes_next id
      · extract_lets w1 u1 out1
        split
        · next e2 =>
          extract_lets t1
          refine goes_next fun h => ?_
          split
          · refine endNear_form ?_
            refine of_snd e2 ?_
            split
            · exact h
            · split
              · exact h
              · split
                · next e3 => exact writePieces_form (of_snd e3 (mapVa_form h))
                · next e4 => exact of_snd e4 (mapVa_form h)
                · next e5 => exact of_snd e5 (mapVa_form h)
          · refine agentSends_form h (endNear_form ?_)
            refine of_snd e2 ?_
            split
            · exact h
            · split
              · exact h
              · split
                · next e6 => exact writePieces_form (of_snd e6 (mapVa_form h))
                · next e7 => exact of_snd e7 (mapVa_form h)
                · next e8 => exact of_snd e8 (mapVa_form h)
    · exact goes_next id

theorem basePutPieces_form {s : State} {part : ℕ} {ps : List Piece} {bs : List Byte} (h : memoryForm s) : memoryForm
    (s.basePutPieces part ps bs) := by
  unfold State.basePutPieces
  refine form_foldl_fst (fun p1 x1 h1 => ?_) h
  split
  · exact basePut_form h1

theorem baseIncr_form {s : State} {part pa : ℕ} (h : memoryForm s) : memoryForm (s.baseIncr part pa) :=
  basePut_form h

theorem execIxredComplete_goes {i : ℕ} {s : State} : Goes s (execIxredComplete i s) := by
  unfold execIxredComplete
  split
  · exact goes_next id
  · split
    · extract_lets before1 f1 t1
      split
      · exact goes_next id
      · refine goes_next fun h => agentSends_form h ?_
        split
        · exact basePutPieces_form (form_same h rfl rfl)
        · exact baseIncr_form (basePutPieces_form (form_same h rfl rfl))
        · exact baseIncr_form (form_same h rfl rfl)
        · exact form_same h rfl rfl
    · exact goes_next id

theorem gredWrite_form {s : State} {x : GredOp} {e : Outst} (h : memoryForm s) : memoryForm (s.gredWrite x e) := by
  unfold State.gredWrite
  extract_lets s1 bad1 identity1 res1 lanes1
  clear_value bad1
  split
  · exact setGrp_form (setGrp_form h)
  · exact setGrp_form (setGrp_form h)

theorem execGredShareReturn_goes {i : ℕ} {s : State} : Goes s (execGredShareReturn i s) := by
  unfold execGredShareReturn
  split
  · exact goes_next id
  · split
    · split
      · exact goes_next id
      · refine goes_next fun h => forGroups_form (fun u1 h1 => ?_) (form_same h rfl rfl)
        split
        · exact gredWrite_form h1
        · exact h1
    · exact goes_next id

theorem gredWatchdog_form {s : State} {i : ℕ} {x : GredOp} {ch : ℕ} (h : memoryForm s) : memoryForm (s.gredWatchdog i x ch) := by
  unfold State.gredWatchdog
  extract_lets s1 lane1
  refine forGroups_form (fun u1 h1 => ?_) (forget_form (form_same h rfl rfl))
  split
  · exact setGrp_form h1
  · exact h1

theorem watchdogOp_form {s : State} {ch : ℕ} {q : NmuStep} (h : memoryForm s) : memoryForm (s.watchdogOp ch q) := by
  unfold State.watchdogOp
  split
  · split
    · exact setOp_form h
    · exact h
  · split
    · split
      · exact walkEnds_form h
      · exact h
    · exact h
  · split
    · exact gredWatchdog_form h
    · exact h
  · exact h

theorem tornLine_form {s : State} {ch : ℕ} (h : memoryForm s) : memoryForm (s.tornLine ch) := by
  unfold State.tornLine
  split
  · split
    · split
      · extract_lets t1
        split
        · exact h
        · split
          · refine form_foldl (fun u1 x1 h1 => ?_) h
            split
            · exact h1
            · exact basePut_form h1
          · exact h
      · exact h
    · exact h
  · exact h

theorem execNmuWatchdog_goes {ch : ℕ} {s : State} : Goes s (execNmuWatchdog ch s) := by
  unfold execNmuWatchdog
  extract_lets u1 s1 s2
  split
  · exact goes_next id
  · refine goes_next fun h => form_foldl (fun u2 x1 h1 => ?_) (setNmu_form (tornLine_form h))
    exact watchdogOp_form h1

theorem collLines_form {s : State} {o : EngineOp} {x : CollOp} {bufs : List W64} (h : memoryForm s) : memoryForm (s.collLines o x bufs).2 := by
  unfold State.collLines
  extract_lets w1 n1
  split
  · next e1 =>
    split
    · refine of_snd e1 ?_
      refine form_foldl_snd (fun p1 x1 h1 => ?_) h
      split
      · split
        · exact h1
        · split
          · next e2 => exact of_snd e2 (translateFor_form h1)
          · next e3 => exact of_snd e3 (translateFor_form h1)
          · next e4 => exact of_snd e4 (translateFor_form h1)
    · extract_lets s1 lines1 out1
      split
      · refine touch_form ?_
        refine of_snd e1 ?_
        refine form_foldl_snd (fun p2 x2 h2 => ?_) h
        split
        · split
          · exact h2
          · split
            · next e5 => exact of_snd e5 (translateFor_form h2)
            · next e6 => exact of_snd e6 (translateFor_form h2)
            · next e7 => exact of_snd e7 (translateFor_form h2)
      · refine touch_form ?_
        refine of_snd e1 ?_
        refine form_foldl_snd (fun p3 x3 h3 => ?_) h
        split
        · split
          · exact h3
          · split
            · next e8 => exact of_snd e8 (translateFor_form h3)
            · next e9 => exact of_snd e9 (translateFor_form h3)
            · next e10 => exact of_snd e10 (translateFor_form h3)

theorem endColl_form {s : State} {o : EngineOp} {x : CollOp} {status : W32} (h : memoryForm s) : memoryForm (s.endColl o x status) :=
  beginColl_form (endNear_form h)

theorem execCollLine_goes {stack : ℕ} {s : State} : Goes s (execCollLine stack s) := by
  unfold execCollLine
  split
  · exact goes_next id
  · split
    · exact goes_next id
    · split
      · exact goes_next fun h => endColl_form h
      · split
        · exact goes_next fun h => endColl_form h
        · split
          · next e1 => exact goes_next fun h => endColl_form (of_snd e1 (collLines_form h))
          · next e2 =>
            split
            · exact goes_next fun h => (of_snd e2 (collLines_form h))
            · extract_lets n1 t1 t2
              refine goes_next fun h => agentSends_form (of_snd e2 (collLines_form h)) ?_
              unfold t2
              split
              · refine endColl_form ?_
                refine form_foldl (fun u1 x1 h1 => ?_) (of_snd e2 (collLines_form h))
                exact basePut_form h1
              · refine setOp_form ?_
                refine form_foldl (fun u2 x2 h2 => ?_) (of_snd e2 (collLines_form h))
                exact basePut_form h2

theorem execSequencerWatchdog_goes {stack : ℕ} {s : State} : Goes s (execSequencerWatchdog stack s) := by
  unfold execSequencerWatchdog
  split
  · exact goes_next id
  · split
    · exact goes_next id
    · extract_lets s1 queued1 s2
      refine goes_next fun h => form_foldl (fun u1 x1 h1 => ?_) (endColl_form ?_)
      · exact endColl_form h1
      · unfold s1
        split
        · split
          · next e1 =>
            refine form_foldl (fun u2 x2 h2 => ?_) (of_snd e1 (collLines_form h))
            split
            · exact h2
            · exact basePut_form h2
          · next e2 => exact of_snd e2 (collLines_form h)
        · exact h

theorem execRefreshPause_goes {ch : ℕ} {s : State} : Goes s (execRefreshPause ch s) := by
  unfold execRefreshPause
  split
  · exact goes_next fun h => setNmu_form h
  · exact goes_next id

theorem execRefreshComplete_goes {ch : ℕ} {s : State} : Goes s (execRefreshComplete ch s) := by
  unfold execRefreshComplete
  split
  · exact goes_next id
  · extract_lets credit1 ids1 s1
    exact goes_next fun h => form_same h rfl rfl

/-! ### Results that return -/

theorem finishAcquire_form {s : State} {i : SlotId} (h : memoryForm s) : memoryForm (s.finishAcquire i) := by
  unfold State.finishAcquire
  extract_lets j1 s1 s2
  refine form_same (s := s2) ?_ rfl rfl
  unfold s2
  split
  · split
    · exact form_same h rfl rfl
    · exact acquire_form (setSlot_form (form_same h rfl rfl))
  · exact form_same h rfl rfl

theorem finishAcquires_form {s : State} (h : memoryForm s) : memoryForm s.finishAcquires :=
  finishAcquire_form (finishAcquire_form h)

theorem execLoadResultReturn_goes {i : ℕ} {lanes : LaneMask} {rem : List RemLane} {s : State} : Goes s (execLoadResultReturn i lanes rem s) := by
  unfold execLoadResultReturn
  split
  · exact goes_next id
  · split
    · exact goes_next id
    · exact goes_next id
    · exact goes_next fun h => paid_form h (finishAcquires_form (returnAt_form h))

theorem execSfuResult_goes {i : ℕ} {s : State} : Goes s (execSfuResult i s) := by
  unfold execSfuResult
  split
  · exact goes_next id
  · extract_lets sfu1
    split
    · exact goes_next id
    · exact goes_next fun h => returnAt_form h

theorem ackPeer_form {s : State} {i : ℕ} {o : StoreOp} (h : memoryForm s) : memoryForm (s.ackPeer i o) := by
  unfold State.ackPeer
  split
  · extract_lets own1 s1 o'9
    refine sendStore_form (form_same (s := s1) ?_ rfl rfl)
    refine form_foldl (fun u1 x1 h1 => ?_) h
    exact serveOwn_form h1
  · exact h

theorem execStorePerformed_goes {i : ℕ} {s : State} : Goes s (execStorePerformed i s) := by
  unfold execStorePerformed
  split
  · exact goes_next id
  · split
    · exact goes_next fun h => form_same h rfl rfl
    · split
      · exact goes_next fun h => paid_form h (ackPeer_form h)
      · split
        · extract_lets rest1
          refine goes_next fun h => paid_form h ?_
          refine form_foldl (fun u1 x1 h1 => ?_) (form_same h rfl rfl)
          exact performEntry_form h1

theorem retryCore_form {s : State} {m : Miss} {fail : Option WalkFault} (h : memoryForm s) : memoryForm (s.retryCore m fail) :=
  form_same h rfl rfl

theorem endMiss_form {s : State} {i : ℕ} {m : Miss} {va : ℕ} {r : Except WalkFault (Leaf × Leaf)} (h : memoryForm s) :
    memoryForm (s.endMiss i m va r) := by
  unfold State.endMiss
  extract_lets s1
  split
  · exact retryCore_form (tlbAdd_form (form_same h rfl rfl))
  · exact retryCore_form (form_same h rfl rfl)

theorem execTranslationWalkDone_goes {i : ℕ} {s : State} : Goes s (execTranslationWalkDone i s) := by
  unfold execTranslationWalkDone
  split
  · exact goes_next id
  · split
    · exact goes_next id
    · split
      · next e1 => exact goes_next fun h => paid_form h (endMiss_form (of_snd e1 (walkVa_form h)))
      · next e2 => exact goes_next fun h => paid_form h (endMiss_form (of_snd e2 (walkVa_form h)))
      · next e3 => exact goes_next fun h => paid_form h (form_same (of_snd e3 (walkVa_form h)) rfl rfl)

theorem execStage2FaultToRoot_goes {i : ℕ} {s : State} : Goes s (execStage2FaultToRoot i s) := by
  unfold execStage2FaultToRoot
  split
  · exact goes_next id
  · split
    · exact goes_next id
    · split
      · next e1 => exact goes_next fun h => paid_form h (endMiss_form (of_snd e1 (walkVa_form h)))
      · next e2 => exact goes_next fun h => paid_form h (endMiss_form (of_snd e2 (walkVa_form h)))
      · next e3 => exact goes_next fun h => paid_form h (endMiss_form (of_snd e3 (walkVa_form h)))

theorem execL2Eviction_goes {i : ℕ} {s : State} : Goes s (execL2Eviction i s) := by
  unfold execL2Eviction
  split
  · exact goes_next id
  · exact goes_next fun h => evictLine_form h

theorem execWritebackAck_goes {i : ℕ} {s : State} : Goes s (execWritebackAck i s) := by
  unfold execWritebackAck
  split
  · exact goes_next id
  · extract_lets same1 s'7
    refine goes_next fun h => form_foldl (fun u1 x1 h1 => ?_) (form_same h rfl rfl)
    exact ackEntry_form h1

theorem execFenceReleaseDone_goes {s : State} : Goes s (execFenceReleaseDone s) := by
  unfold execFenceReleaseDone
  split
  · split
    · exact goes_next id
    · exact goes_next fun h => park_form h
  · exact goes_next id

/-! ### Remote accesses -/

theorem fillReply_form {s : State} {vf part pkg srcVf srcPart off : ℕ} (h : memoryForm s) :
    memoryForm (s.fillReply vf part pkg srcVf srcPart off).2 := by
  unfold State.fillReply
  split
  · exact h
  · split
    · next e1 => exact of_snd e1 (exportMap_form h)
    · next e2 => exact of_snd e2 (exportMap_form h)

theorem openFill_form {s : State} {peer page : ℕ} (h : memoryForm s) : memoryForm (s.openFill peer page) := by
  unfold State.openFill
  split
  · exact h
  · extract_lets g1 own1 l1 tgt1 s1
    split
    · exact form_same h rfl rfl
    · exact sendMsg_form (form_same h rfl rfl)

theorem retryDie_form {s : State} {e : RemEntry} {far : Option Bool} (h : memoryForm s) : memoryForm (s.retryDie e far) :=
  form_same h rfl rfl

theorem filled_form {s : State} {i : ℕ} {e : RemEntry} {r : RemReply} (h : memoryForm s) : memoryForm (s.filled i e r) := by
  unfold State.filled
  split
  · exact retryDie_form (form_same h rfl rfl)
  · exact retryDie_form (form_same h rfl rfl)

theorem execRemoteTlbFill_goes {i : ℕ} {reply : RemReply} {s : State} : Goes s (execRemoteTlbFill i reply s) := by
  unfold execRemoteTlbFill
  split
  · exact goes_next id
  · split
    · exact goes_next id
    · split
      · next e1 =>
        refine goes_next fun h => filled_form ?_
        refine of_snd e1 ?_
        split
        · exact fillReply_form h
        · exact h

theorem execRemoteTlbTimeout_goes {i : ℕ} {s : State} : Goes s (execRemoteTlbTimeout i s) := by
  unfold execRemoteTlbTimeout
  split
  · exact goes_next id
  · split
    · exact goes_next id
    · exact goes_next fun h => filled_form h

theorem peerRemovals_form {s : State} (h : memoryForm s) : memoryForm s.peerRemovals := by
  unfold State.peerRemovals
  extract_lets c1
  split
  · split
    · exact h
    · exact form_same h rfl rfl
  · exact h

theorem checkFar_keeps {s : State} {xs : List Far} {need : RemReply → Bool} {atomic : Bool} (h : memoryForm s) :
    Keeps (fun _ => True) (s.checkFar xs need atomic) := by
  unfold State.checkFar
  extract_lets open_1 stage1 reply1
  split
  · refine keeps_hold (park_form ?_)
    refine form_foldl (fun u1 x1 h1 => ?_) h
    exact openFill_form h1
  · refine keeps_bind (Q := fun _ => True) ?_ fun a1 k1 => ?_
    · unfold stage1
      split
      · exact keeps_raise
      · exact keeps_ok trivial
    · refine keeps_bind (Q := fun _ => True) ?_ fun a2 k2 => ?_
      · unfold stage1
        split
        · exact keeps_raise
        · exact keeps_ok trivial
      · refine keeps_bind (Q := fun _ => True) ?_ fun a3 k3 => ?_
        · unfold stage1
          split
          · exact keeps_raise
          · exact keeps_ok trivial
        · unfold stage1
          split
          · exact keeps_raise
          · exact keeps_ok trivial

/-- What a remote instruction does once its registers, its counter's room and its alignment are checked. -/
theorem remote_act_keeps {s : State} {xs : List Far} {need : RemReply → Bool} {atomic : Bool} {act : List LaneAcc → State → Res State}
    (ha : ∀ l u, memoryForm u → Keeps memoryForm (act l u)) (h : memoryForm s) :
    Keeps memoryForm (do
      s.checkFar xs need atomic
      if s.farBusy (farLanes xs) then .error (.hold (s.park .room)) else act (farLanes xs) s) := by
  refine keeps_bind (checkFar_keeps h) fun _ _ => ?_
  split
  · exact keeps_hold (park_form h)
  · exact ha _ _ h

theorem remoteOp_goes {s : State} {g : Option Guard} {t : Ty} {off : W32} {a b : VReg} {reads writes : List (VReg × ℕ)} {c : Counter}
    {need : RemReply → Bool} {atomic : Bool} {act : List LaneAcc → State → Res State}
    (ha : ∀ l u, memoryForm u → Keeps memoryForm (act l u)) : Goes s (remoteOp s g t off a b reads writes c need atomic act) := by
  unfold remoteOp
  refine finish_goes id fun h => ?_
  refine keeps_bind (vcheck_keeps h) fun _ _ => ?_
  simp only []
  split
  · exact keeps_ok (advance_form h)
  · refine keeps_bind (room_keeps h) fun _ _ => ?_
    split
    · exact keeps_bind (Q := fun _ => True) keeps_raise fun _ _ => remote_act_keeps ha h
    · exact remote_act_keeps ha h

theorem execRemld_goes {g : Option Guard} {ty : Ty} {_sc : Scope} {ord : Order} {off : W32} {d a b : VReg} {s : State} :
    Goes s (execRemld g ty _sc ord off d a b s) := by
  unfold execRemld
  refine remoteOp_goes fun l1 u1 h1 => ?_
  extract_lets t1
  exact keeps_ok (issueLoad_form (sendPeer_form h1))

theorem execRemst_goes {g : Option Guard} {ty : Ty} {_sc : Scope} {ord : Order} {off : W32} {d a b : VReg} {s : State} :
    Goes s (execRemst g ty _sc ord off d a b s) := by
  unfold execRemst
  refine remoteOp_goes fun l1 u1 h1 => ?_
  refine keeps_bind (releaseFor_keeps h1) fun a1 k1 => ?_
  extract_lets accs1 t1
  exact keeps_ok (advance_form (enqueueStore_form (sendPeer_form k1)))

theorem execRematom_goes {g : Option Guard} {ty : Ty} {_sc : Scope} {ord : Order} {op : AtomOp} {off : W32} {d a b c : VReg} {s : State} :
    Goes s (execRematom g ty _sc ord op off d a b c s) := by
  unfold execRematom
  refine remoteOp_goes fun l1 u1 h1 => ?_
  refine keeps_bind (releaseFor_keeps h1) fun a1 k1 => ?_
  extract_lets accs1 t1
  exact keeps_ok (issueLoad_form (sendPeer_form k1))

theorem execRemoteAccessArrival_goes {req : RemReq} {s : State} : Goes s (execRemoteAccessArrival req s) := by
  unfold execRemoteAccessArrival
  extract_lets answer1
  split
  · split
    · next e1 => exact goes_next fun h => answerFrom_form (of_snd e1 (fillReply_form h))
  · split
    · next e2 => exact goes_next fun h => answerFrom_form (of_fth e2 (serve_form h))

theorem execRred_goes {g : Option Guard} {ty : Ty} {op : AtomOp} {f : FReg} {a : VReg} {b : SReg} {s : State} : Goes s
    (execRred g ty op f a b s) := by
  unfold execRred
  refine memFinish_goes id fun h => ?_
  extract_lets d1 n1 gn1 kc1 group1 num1 idx1 m1 vals1 f1
  refine keeps_bind (vcheck_keeps h) fun a1 k1 => ?_
  refine keeps_bind (futReady_keeps h) fun a2 k2 => ?_
  refine keeps_bind mustAlign_keeps fun a3 k3 => ?_
  refine keeps_bind (mustRange_keeps h) fun a4 k4 => ?_
  split
  · refine keeps_bind must_keeps fun a5 k5 => ?_
    refine keeps_bind (checkAll_keeps h) fun a6 k6 => ?_
    split
    · exact keeps_hold (park_form h)
    · split
      · next e1 =>
        extract_lets t1 msg1
        split
        · exact keeps_ok (advance_form (resolve_form (issueFut_form (of_snd e1 (fresh_form h)))))
        · exact keeps_ok (advance_form (sendMsg_form (startOp_form (issueFut_form (of_snd e1 (fresh_form h))))))
  · refine keeps_bind (Q := fun _ => True) ?_ fun a7 k7 => ?_
    · exact keeps_raise
    · refine keeps_bind (checkAll_keeps h) fun a8 k8 => ?_
      split
      · exact keeps_hold (park_form h)
      · split
        · next e2 =>
          extract_lets t2 msg2
          split
          · exact keeps_ok (advance_form (resolve_form (issueFut_form (of_snd e2 (fresh_form h)))))
          · exact keeps_ok (advance_form (sendMsg_form (startOp_form (issueFut_form (of_snd e2 (fresh_form h))))))

theorem rredSend_form {s : State} {m : RredMsg} {status : W32} {vals : List W64} (h : memoryForm s) : memoryForm (s.rredSend m status vals) := by
  unfold State.rredSend
  split
  · exact form_same h rfl rfl
  · split
    · exact h
    · split
      · extract_lets out1 s1 s2
        split
        · refine resolve_form (form_same (s := s1) ?_ rfl rfl)
          unfold s1
          split
          · exact writeVa_form h
          · exact h
        · refine form_same (s := s1) ?_ rfl rfl
          unfold s1
          split
          · exact writeVa_form h
          · exact h
      · exact h

theorem rredAbort_form {s : State} {x : RredInst} {detail : ℕ} (h : memoryForm s) : memoryForm (s.rredAbort x detail) := by
  unfold State.rredAbort
  extract_lets s1
  refine form_foldl (fun u1 x1 h1 => ?_) (form_same h rfl rfl)
  exact rredSend_form h1

theorem execRredContribution_goes {msg : RredMsg} {s : State} : Goes s (execRredContribution msg s) := by
  unfold execRredContribution
  split
  · exact goes_next id
  · extract_lets s1 mine1 x1 agrees1 y1 s2 s3 vals1
    split
    · exact goes_next fun h => form_same h rfl rfl
    · split
      · exact goes_next fun h => rredAbort_form (form_same h rfl rfl)
      · split
        · exact goes_next fun h => form_same h rfl rfl
        · refine goes_next fun h => form_foldl (fun u1 x2 h1 => ?_) (form_same h rfl rfl)
          exact rredSend_form h1

theorem execRredTimeout_goes {i : ℕ} {s : State} : Goes s (execRredTimeout i s) := by
  unfold execRredTimeout
  split
  · exact goes_next id
  · split
    · exact goes_next id
    · exact goes_next fun h => rredAbort_form h

theorem loseLanes_form {s : State} {pkg : ℕ} (h : memoryForm s) : memoryForm (s.loseLanes pkg) := by
  unfold State.loseLanes
  refine form_foldl (fun u1 x1 h1 => ?_) h
  split
  · exact h1
  · split
    · extract_lets rem1
      split
      · exact h1
      · exact returnAt_form h1
    · exact h1

theorem loseStores_form {s : State} {pkg : ℕ} (h : memoryForm s) : memoryForm (s.loseStores pkg) := by
  unfold State.loseStores
  refine form_foldl (fun u1 x1 h1 => ?_) (form_same h rfl rfl)
  exact sendStore_form (form_same h1 rfl rfl)

theorem execPackageLost_goes {pkg : ℕ} {s : State} : Goes s (execPackageLost pkg s) := by
  unfold execPackageLost
  split
  · exact goes_next id
  · extract_lets s1 s2 due1
    refine goes_next fun h => forGroups_form (fun u1 h1 => ?_) ?_
    · exact finishAcquires_form h1
    · refine form_foldl (fun u2 x1 h2 => ?_) (forGroups_form (fun u3 h3 => ?_) (loseStores_form (form_same h rfl rfl)))
      · exact rredAbort_form h2
      · exact loseLanes_form h3

/-! ### The weavers -/

theorem setWeaver_form {s : State} {pkg : ℕ} {d : Duty} (h : memoryForm s) : memoryForm (s.setWeaver pkg d) :=
  form_same h rfl rfl

theorem decompose_form {s : State} {r : Round} (h : memoryForm s) : memoryForm (s.decompose r).2 := by
  unfold State.decompose
  extract_lets tell1 cals1
  split
  · exact sendFrom_form h
  · split
    · exact h
    · exact sendFrom_form h

theorem takeRow_form {s : State} {standby : Bool} {m : RowMsg} (h : memoryForm s) : memoryForm (s.takeRow standby m) := by
  unfold State.takeRow
  extract_lets mine1 r1 r2
  split
  · exact h
  · split
    · next u1 e1 =>
      refine form_same (s := u1) ?_ rfl rfl
      refine of_snd e1 ?_
      split
      · exact h
      · exact decompose_form h

theorem rowAcked_form {s : State} {standby : Bool} {m : RowMsg} (h : memoryForm s) : memoryForm (s.rowAcked standby m) := by
  unfold State.rowAcked
  extract_lets mine1
  split
  · exact h
  · split
    · extract_lets p1 b1
      split
      · exact endOp_form h
      · exact setOp_form h
    · exact h

theorem execWeaverRowArrival_goes {standby : Bool} {msg : RowMsg} {s : State} : Goes s (execWeaverRowArrival standby msg s) := by
  unfold execWeaverRowArrival
  extract_lets own1 here1 s1 s2
  split
  · exact goes_next id
  · split
    · refine goes_next fun h => ?_
      unfold s1
      split
      · exact form_same h rfl rfl
      · exact h
    · split
      · refine goes_next fun h => rowAcked_form ?_
        unfold s2
        split
        · refine takeRow_form ?_
          unfold s1
          split
          · exact form_same h rfl rfl
          · exact form_same h rfl rfl
        · unfold s1
          split
          · exact form_same h rfl rfl
          · exact form_same h rfl rfl
      · split
        · refine goes_next fun h => answerFrom_form ?_
          unfold s2
          split
          · refine takeRow_form ?_
            unfold s1
            split
            · exact form_same h rfl rfl
            · exact h
          · refine takeRow_form ?_
            unfold s1
            split
            · exact form_same h rfl rfl
            · exact h
        · refine goes_next fun h => ?_
          unfold s2
          split
          · refine takeRow_form ?_
            unfold s1
            split
            · exact form_same h rfl rfl
            · exact h
          · unfold s1
            split
            · exact form_same h rfl rfl
            · exact h

theorem execWeaverCollectTimeout_goes {i : ℕ} {s : State} : Goes s (execWeaverCollectTimeout i s) := by
  unfold execWeaverCollectTimeout
  split
  · exact goes_next id
  · split
    · exact goes_next id
    · exact goes_next fun h => sendFrom_form (form_same h rfl rfl)

theorem execWeaverTakeover_goes {s : State} : Goes s (execWeaverTakeover s) := by
  unfold execWeaverTakeover
  extract_lets lost1 held1
  split
  · exact goes_next id
  · exact goes_next fun h => sendFrom_form (form_same h rfl rfl)

theorem execHeartbeat_goes {agent : Agent} {missed : ℕ} {rounds : List (ℕ × ℕ)} {s : State} : Goes s (execHeartbeat agent missed rounds s) := by
  unfold execHeartbeat
  split
  · exact goes_next fun h => form_same h rfl rfl
  · exact goes_next fun h => form_same h rfl rfl
  · exact goes_next fun h => form_same h rfl rfl
  · extract_lets done1 f1
    exact goes_next fun h => setWeaver_form (form_same h rfl rfl)

/-! ### The exchange -/

theorem setPosted_form {s : State} {vf part group round : ℕ} {f : Posted → Posted} (h : memoryForm s) :
    memoryForm (s.setPosted vf part group round f) :=
  form_same h rfl rfl

theorem closeRound_form {s : State} {vf part group round : ℕ} (h : memoryForm s) : memoryForm (s.closeRound vf part group round) :=
  setCtx_form (form_same h rfl rfl)

theorem loadTable_keeps {s : State} {a : W64} {n : ℕ} (h : memoryForm s) : Keeps (fun r => memoryForm r.2) (s.loadTable a n) := by
  unfold State.loadTable
  split
  · next e1 => exact keeps_ok (of_snd e1 (grpRead_form h))
  · exact keeps_raise

theorem execDpost_goes {round : W32} {f : FReg} {a : SReg} {s : State} : Goes s (execDpost round f a s) := by
  unfold execDpost
  refine memFinish_goes id fun h => ?_
  extract_lets d1 g1 gn1 group1 n1 me1
  refine keeps_bind (futReady_keeps h) fun a1 k1 => ?_
  refine keeps_bind mustAlign_keeps fun a2 k2 => ?_
  refine keeps_bind mustAlign_keeps fun a3 k3 => ?_
  refine keeps_bind (mustRange_keeps h) fun a4 k4 => ?_
  refine keeps_bind (checkAll_keeps h) fun a5 k5 => ?_
  refine keeps_bind (loadTable_keeps h) fun a6 k6 => ?_
  split
  · refine keeps_bind (loadTable_keeps k6) fun a7 k7 => ?_
    split
    · extract_lets counts1 words1 members1 idx1 u1 p1
      refine keeps_bind (mustRange_keeps h) fun a8 k8 => ?_
      refine keeps_bind must_keeps fun a9 k9 => ?_
      split
      · next e1 =>
        split
        · exact keeps_ok (advance_form (resolve_form (issueFut_form (of_snd e1 (fresh_form k7)))))
        · refine keeps_bind (release_keeps ((of_snd e1 (fresh_form k7)))) fun a10 k10 => ?_
          split
          · extract_lets m1 t1 t2 row1
            exact keeps_ok (advance_form (sendMsg_form (sendMsg_form (form_same (s := t2) (setCtx_form (startOp_form (issueFut_form k10))) rfl rfl))))

theorem execDpostAcknowledgeTimeout_goes {i : ℕ} {s : State} : Goes s (execDpostAcknowledgeTimeout i s) := by
  unfold execDpostAcknowledgeTimeout
  split
  · exact goes_next id
  · split
    · split
      · exact goes_next id
      · exact goes_next fun h => endOp_form h
    · exact goes_next id

theorem writeSectors_form {s : State} {w : Here} {sc : Scope} {a : W64} {bs : List Byte} (h : memoryForm s) :
    memoryForm (s.writeSectors w sc a bs).2 := by
  unfold State.writeSectors
  refine form_foldl_snd (fun p1 x1 h1 => ?_) h
  split
  · split
    · split
      · exact h1
      · split
        · next e1 => exact of_snd e1 (writeVa_form h1)
        · next e2 => exact of_snd e2 (writeVa_form h1)

theorem endXcal_form {s : State} {o : EngineOp} {p : Posted} {cal : W64} {cap : ℕ} (h : memoryForm s) : memoryForm (s.endXcal o p cal cap) := by
  unfold State.endXcal
  extract_lets done1
  split
  · exact h
  · exact endOp_form h
  · exact endOp_form h
  · extract_lets e1
    split
    · exact h
    · split
      · exact endOp_form h
      · split
        · exact endOp_form h
        · split
          · next e2 => exact endOp_form (of_snd e2 (writeSectors_form h))
          · next e3 => exact endOp_form (of_snd e3 (writeSectors_form h))

theorem settleXcals_form {s : State} {p : Posted} (h : memoryForm s) : memoryForm (s.settleXcals p) := by
  unfold State.settleXcals
  refine form_foldl (fun u1 x1 h1 => ?_) h
  split
  · split
    · exact endXcal_form h1
    · exact h1
  · exact h1

theorem execXcal_goes {f : FReg} {a : SReg} {s : State} : Goes s (execXcal f a s) := by
  unfold execXcal
  refine memFinish_goes id fun h => ?_
  extract_lets d1 g1 group1 round1
  refine keeps_bind (futReady_keeps h) fun a1 k1 => ?_
  refine keeps_bind mustAlign_keeps fun a2 k2 => ?_
  refine keeps_bind (mustRange_keeps h) fun a3 k3 => ?_
  split
  · exact keeps_raise
  · refine keeps_bind (checkAll_keeps h) fun a4 k4 => ?_
    split
    · next e1 =>
      extract_lets t1
      refine keeps_ok ?_
      split
      · exact settleXcals_form (advance_form (startOp_form (issueFut_form (of_snd e1 (fresh_form h)))))
      · exact advance_form (startOp_form (issueFut_form (of_snd e1 (fresh_form h))))

theorem readBuffer_form {s : State} {o : EngineOp} {va : W64} {off n : ℕ} (h : memoryForm s) : memoryForm (s.readBuffer o va off n).2.2 := by
  unfold State.readBuffer
  refine form_foldl_thd (fun p1 x1 h1 => ?_) h
  split
  · split
    · split
      · exact h1
      · split
        · next e1 => exact of_snd e1 (readVa_form h1)
        · next e2 => exact of_snd e2 (readVa_form h1)

theorem sendMarker_form {s : State} {o : EngineOp} {port : ℕ} {p : Posted} {j : XStream} {cancelled : Bool} (h : memoryForm s) :
    memoryForm (s.sendMarker o port p j cancelled) :=
  sendMsg_form h

theorem mark_form {s : State} {o : EngineOp} {port : ℕ} {p : Posted} {j : XStream} (h : memoryForm s) : memoryForm (s.mark o port p j).2 := by
  unfold State.mark
  split
  · exact h
  · exact sendMarker_form h

theorem inject_form {s : State} {p : Packet} {m : NetMsg} (h : memoryForm s) : memoryForm (s.inject_ p m) := by
  unfold State.inject_
  split
  · exact form_same h rfl rfl
  · exact forward_form h

theorem sendStream_form {s : State} {o : EngineOp} {port : ℕ} {p : Posted} {j : XStream} {n : ℕ} (h : memoryForm s) :
    memoryForm (s.sendStream o port p j n).2 := by
  unfold State.sendStream
  split
  · next e1 =>
    extract_lets n1 f1 s1 s2 j1
    refine mark_form ?_
    refine form_foldl (fun u1 x1 h1 => ?_) (form_same (s := f1) (charge_form (of_thd e1 (readBuffer_form h))) rfl rfl)
    exact inject_form h1

theorem endXrun_form {s : State} {o : EngineOp} {x : XrunOp} {st : W32} (h : memoryForm s) : memoryForm (s.endXrun o x st) := by
  unfold State.endXrun
  split
  · exact h
  · extract_lets s1 s2 s3
    refine closeRound_form ?_
    unfold s3
    split
    · unfold s2
      split
      · exact resolve_form (form_same h rfl rfl)
      · exact form_same h rfl rfl
    · refine completionWord_form ?_
      unfold s2
      split
      · exact resolve_form (form_same h rfl rfl)
      · exact form_same h rfl rfl

theorem putXrun_form {s : State} {o : EngineOp} {x : XrunOp} (h : memoryForm s) : memoryForm (s.putXrun o x) := by
  unfold State.putXrun
  split
  · exact endXrun_form h
  · exact setOp_form h

theorem beginXrun_form {s : State} {o : EngineOp} {x : XrunOp} {p : Posted} (h : memoryForm s) : memoryForm (s.beginXrun o x p) := by
  unfold State.beginXrun
  split
  · exact h
  · exact endXrun_form h
  · exact endXrun_form h
  · split
    · next e1 =>
      refine putXrun_form ?_
      refine of_snd e1 ?_
      refine form_foldl_snd (fun p1 x1 h1 => ?_) h
      split
      · split
        · next e2 =>
          refine of_snd e2 ?_
          split
          · exact mark_form h1
          · exact h1

theorem execXrun_goes {f : FReg} {a : SReg} {s : State} : Goes s (execXrun f a s) := by
  unfold execXrun
  refine memFinish_goes id fun h => ?_
  extract_lets d1 g1 group1 round1 va1 len1
  refine keeps_bind (futReady_keeps h) fun a1 k1 => ?_
  refine keeps_bind mustAlign_keeps fun a2 k2 => ?_
  refine keeps_bind mustAlign_keeps fun a3 k3 => ?_
  refine keeps_bind (mustRange_keeps h) fun a4 k4 => ?_
  refine keeps_bind mustAlign_keeps fun a5 k5 => ?_
  refine keeps_bind (mustRange_keeps h) fun a6 k6 => ?_
  split
  · exact keeps_raise
  · refine keeps_bind must_keeps fun a7 k7 => ?_
    extract_lets n1 others1
    refine keeps_bind (checkAll_keeps h) fun a8 k8 => ?_
    refine keeps_bind (loadTable_keeps h) fun a9 k9 => ?_
    split
    · refine keeps_bind (loadTable_keeps k9) fun a10 k10 => ?_
      split
      · extract_lets x1 f1
        split
        · refine keeps_bind (Q := fun _ => True) ?_ fun a11 k11 => ?_
          · exact keeps_raise
          · unfold f1
            split
            · exact keeps_hold (park_form h)
            · refine keeps_bind (release_keeps k10) fun a12 k12 => ?_
              split
              · next e1 =>
                extract_lets t1 t2
                refine keeps_ok ?_
                split
                · exact beginXrun_form (advance_form (setPosted_form (startOp_form (issueFut_form (of_snd e1 (fresh_form k12))))))
                · exact advance_form (setPosted_form (startOp_form (issueFut_form (of_snd e1 (fresh_form k12)))))
        · refine keeps_bind (Q := fun _ => True) ?_ fun a13 k13 => ?_
          · exact keeps_ok trivial
          · unfold f1
            split
            · exact keeps_hold (park_form h)
            · refine keeps_bind (release_keeps k10) fun a14 k14 => ?_
              split
              · next e2 =>
                extract_lets t3 t4
                refine keeps_ok ?_
                split
                · exact beginXrun_form (advance_form (setPosted_form (startOp_form (issueFut_form (of_snd e2 (fresh_form k14))))))
                · exact advance_form (setPosted_form (startOp_form (issueFut_form (of_snd e2 (fresh_form k14)))))

theorem execXchSlotStart_goes {i k : ℕ} {s : State} : Goes s (execXchSlotStart i k s) := by
  unfold execXchSlotStart
  split
  · exact goes_next id
  · split
    · exact goes_next id
    · split
      · exact goes_next id
      · split
        · exact goes_next id
        · split
          · exact goes_next fun h => setOp_form h
          · extract_lets most1 n1
            split
            · next e1 => exact goes_next fun h => paid_form h (putXrun_form (of_snd e1 (sendStream_form h)))

theorem execXchSlotEnd_goes {i k : ℕ} {s : State} : Goes s (execXchSlotEnd i k s) := by
  unfold execXchSlotEnd
  split
  · exact goes_next id
  · split
    · exact goes_next id
    · split
      · split
        · exact goes_next id
        · extract_lets short1
          exact goes_next fun h => setOp_form h
      · exact goes_next id

theorem execXchOverflowStart_goes {i : ℕ} {s : State} : Goes s (execXchOverflowStart i s) := by
  unfold execXchOverflowStart
  split
  · exact goes_next id
  · split
    · exact goes_next id
    · split
      · exact goes_next id
      · split
        · next e1 =>
          refine goes_next fun h => paid_form h (putXrun_form ?_)
          refine of_snd e1 ?_
          refine form_foldl_snd (fun p1 x1 h1 => ?_) h
          split
          · exact h1
          · split
            · next e2 => exact of_snd e2 (sendStream_form h1)

theorem execXrunTimeout_goes {i : ℕ} {s : State} : Goes s (execXrunTimeout i s) := by
  unfold execXrunTimeout
  split
  · exact goes_next id
  · split
    · exact goes_next id
    · extract_lets missing1
      split
      · exact goes_next id
      · exact goes_next fun h => endXrun_form h

theorem place_form {s : State} {o : EngineOp} {q : XSource} {bs : List Byte} (h : memoryForm s) : memoryForm (s.place_ o q bs).2 := by
  unfold State.place_
  extract_lets take1
  split
  · next e1 =>
    refine of_snd e1 ?_
    split
    · exact h
    · exact writeSectors_form h

theorem backTo_form {s : State} {m : XchMsg} {b : XchBody} (h : memoryForm s) : memoryForm (s.backTo m b) :=
  answerFrom_form h

theorem takeReply_form {s : State} {m : XchMsg} (h : memoryForm s) : memoryForm (s.takeReply m) := by
  unfold State.takeReply
  split
  · exact h
  · split
    · exact h
    · split
      · exact putXrun_form h
      · exact putXrun_form h
      · exact h

theorem takeData_form {s : State} {m : XchMsg} (h : memoryForm s) : memoryForm (s.takeData m) := by
  unfold State.takeData
  split
  · extract_lets closed1
    split
    · exact backTo_form h
    · split
      · exact h
      · exact backTo_form h
    · exact h
  · split
    · exact h
    · extract_lets put1
      split
      · split
        · exact backTo_form h
        · split
          · next e1 => exact backTo_form (putXrun_form (of_snd e1 (place_form h)))
      · split
        · exact backTo_form h
        · exact putXrun_form h
      · exact h

theorem execXchDataArrival_goes {msg : XchMsg} {s : State} : Goes s (execXchDataArrival msg s) := by
  unfold execXchDataArrival
  extract_lets sent1 reply1 s1
  split
  · exact goes_next id
  · split
    · exact goes_next fun h => takeReply_form (form_same h rfl rfl)
    · split
      · exact goes_next fun h => form_same h rfl rfl
      · exact goes_next fun h => takeData_form (form_same h rfl rfl)

theorem acceptCalendar_form {s : State} {m : CalMsg} (h : memoryForm s) : memoryForm (s.acceptCalendar m) := by
  unfold State.acceptCalendar
  split
  · exact h
  · split
    · exact h
    · extract_lets p1 s1
      split
      · exact beginXrun_form (settleXcals_form (setPosted_form h))
      · exact settleXcals_form (setPosted_form h)

theorem delivered_form {s : State} {m : CalMsg} (h : memoryForm s) : memoryForm (s.delivered m) :=
  sendFrom_form (form_same h rfl rfl)

theorem execCalendarArrival_goes {msg : CalMsg} {s : State} : Goes s (execCalendarArrival msg s) := by
  unfold execCalendarArrival
  extract_lets sent1 foreign1 s1
  split
  · exact goes_next id
  · split
    · refine goes_next fun h => acceptCalendar_form ?_
      unfold s1
      split
      · exact delivered_form (form_same h rfl rfl)
      · exact h
    · refine goes_next fun h => ?_
      unfold s1
      split
      · exact delivered_form (form_same h rfl rfl)
      · exact h

theorem noWeaver_form {s : State} {p : Posted} (h : memoryForm s) : memoryForm (s.noWeaver p) := by
  unfold State.noWeaver
  refine form_foldl (fun u1 x1 h1 => ?_) h
  split
  · split
    · exact endOp_form h1
    · exact h1
  · split
    · exact endXrun_form h1
    · exact h1
  · exact h1

theorem execWeaverQuery_goes {i : ℕ} {answered : Bool} {s : State} : Goes s (execWeaverQuery i answered s) := by
  unfold execWeaverQuery
  split
  · exact goes_next id
  · split
    · exact goes_next id
    · extract_lets w1 ok1 s1
      split
      · exact goes_next fun h => form_same (s := s1) (sendFrom_form h) rfl rfl
      · split
        · exact goes_next fun h => form_same (s := s1) (sendFrom_form h) rfl rfl
        · exact goes_next fun h => noWeaver_form (sendFrom_form h)

theorem execClockSync_goes {master : ℕ} {inBound : Bool} {s : State} : Goes s (execClockSync master inBound s) := by
  unfold execClockSync
  exact goes_next fun h => form_same h rfl rfl

theorem execExternalPortChange_goes {port : ℕ} {works : Bool} {s : State} : Goes s (execExternalPortChange port works s) := by
  unfold execExternalPortChange
  split
  · exact goes_next id
  · extract_lets t1 out1
    exact goes_next fun h => form_same h rfl rfl

end Sys2Proof.Machine
end

section
/-! PROOFS. What the model's functions answer and that they keep the form of both memories: cancelling, fetching, groups, futures, the root, scheduling and queues. -/
namespace Sys2Proof.Machine
open Sys2Proof Sys2Proof.Statements

/-! ### Cancelling -/

theorem ackSlot_form {s : State} {i : ℕ} {k : SlotId} (h : memoryForm s) : memoryForm (s.ackSlot i k) := by
  unfold State.ackSlot
  split
  · exact h
  · extract_lets j1 t1 t2
    refine form_same (s := t2) ?_ rfl rfl
    refine advance_form ?_
    split
    · exact idleFut_form (form_same h rfl rfl)
    · exact form_same h rfl rfl

theorem acknowledge_form {s : State} {i : ℕ} (h : memoryForm s) : memoryForm (s.acknowledge i) := by
  unfold State.acknowledge
  extract_lets s1
  refine form_same (s := s1) ?_ rfl rfl
  refine forGroups_form (fun u1 h1 => ?_) h
  exact setGrp_form (ackSlot_form (ackSlot_form h1))

theorem cancelXrun_form {s : State} {o : EngineOp} {x : XrunOp} (h : memoryForm s) : memoryForm (s.cancelXrun o x) := by
  unfold State.cancelXrun
  extract_lets s1
  refine closeRound_form ?_
  unfold s1
  split
  · refine form_foldl (fun u1 x1 h1 => ?_) h
    exact sendMarker_form h1
  · exact h

theorem cancelOp_form {s : State} {o : EngineOp} (h : memoryForm s) : memoryForm (s.cancelOp o) := by
  unfold State.cancelOp
  extract_lets s1 s2
  split
  · exact startGraces_form (setCtx_form (form_same h rfl rfl))
  · exact beginColl_form (form_same h rfl rfl)
  · exact cancelXrun_form (form_same h rfl rfl)
  · exact form_same h rfl rfl

theorem execCancelAcknowledge_goes {i : ℕ} {s : State} : Goes s (execCancelAcknowledge i s) := by
  unfold execCancelAcknowledge
  split
  · exact goes_next id
  · extract_lets s1 s2
    refine goes_next fun h => acknowledge_form ?_
    unfold s2
    split
    · exact cancelOp_form (form_same h rfl rfl)
    · exact form_same h rfl rfl

/-! ### Fetching -/

theorem fetchFault_form {s : State} {reason : ℕ} (h : memoryForm s) : memoryForm (s.fetchFault reason) :=
  trap_form h

theorem hold_form {s : State} {b : Bundle} (h : memoryForm s) : memoryForm (s.hold b) := by
  unfold State.hold
  split
  · exact trap_form h
  · split
    · exact trap_form h
    · extract_lets s1
      split
      · exact jump_form (setSlot_form h)
      · exact setSlot_form h

theorem execBundleDecode_goes {s : State} : Goes s (execBundleDecode s) := by
  unfold execBundleDecode
  split
  · exact goes_next id
  · split
    · exact goes_next id
    · extract_lets o1
      split
      · exact goes_next fun h => fetchFault_form (form_same h rfl rfl)
      · split
        · exact goes_next fun h => fetchFault_form h
        · exact goes_next fun h => hold_form h

theorem ask_form {s : State} {line : ℕ} {x : Xl} (h : memoryForm s) : memoryForm (s.ask line x) :=
  form_same h rfl rfl

theorem askLine_form {s : State} {x : Xl} (h : memoryForm s) : memoryForm (s.askLine x) := by
  unfold State.askLine
  extract_lets t1
  split
  · exact ask_form h
  · exact park_form (ask_form h)

theorem install_form {s : State} {l : ILine} (h : memoryForm s) : memoryForm (s.install l) :=
  form_same h rfl rfl

theorem fetchAhead_form {s : State} (h : memoryForm s) : memoryForm s.fetchAhead := by
  unfold State.fetchAhead
  extract_lets c1 a1 g1
  split
  · exact h
  · split
    · next e1 => exact ask_form (of_snd e1 (translateFor_form h))
    · next e2 => exact install_form (of_snd e2 (translateFor_form h))

theorem execInstructionCacheMiss_goes {s : State} : Goes s (execInstructionCacheMiss s) := by
  unfold execInstructionCacheMiss
  split
  · exact goes_next id
  · split
    · exact goes_next fun h => fetchFault_form h
    · extract_lets g1
      split
      · next e1 => exact goes_next fun h => paid_form h (fetchAhead_form (askLine_form (of_snd e1 (translateFor_form h))))
      · next e2 => exact goes_next fun h => paid_form h (fetchFault_form (of_snd e2 (translateFor_form h)))

theorem readLine_form {s : State} {e : FetchEntry} (h : memoryForm s) : memoryForm (s.readLine e).2.2 := by
  unfold State.readLine
  refine form_foldl_thd (fun p1 x1 h1 => ?_) h
  split
  · split
    · next e1 => exact of_thd e1 (readPiece_form h1)

theorem execMulticastFill_goes {i : ℕ} {s : State} : Goes s (execMulticastFill i s) := by
  unfold execMulticastFill
  split
  · exact goes_next id
  · extract_lets u1
    split
    · next e1 =>
      extract_lets runs1 others1 t1
      refine goes_next fun h => paid_form h (forGroups_form (fun u2 h1 => ?_) ?_)
      · exact setGrp_form h1
      · refine form_foldl (fun u3 x1 h2 => ?_) (of_thd e1 (readLine_form (form_same h rfl rfl)))
        exact install_form h2

theorem execJoinArrival_goes {s : State} : Goes s (execJoinArrival s) := by
  unfold execJoinArrival
  extract_lets x1
  split
  · exact goes_next id
  · refine finish_goes id fun h => ?_
    exact arrive_keeps h

theorem execTrapEntry_goes {s : State} : Goes s (execTrapEntry s) := by
  unfold execTrapEntry
  split
  · split
    · exact goes_next id
    · exact goes_next fun h => takeTrap_form (setGrp_form (form_same h rfl rfl))
  · refine goes_next fun h => trapTo_form (fun u1 h1 => ?_) h
    exact setSlot_form h1
  · exact goes_next id

/-! ### Groups -/

theorem addGroup_form {s : State} {g : Group} (h : memoryForm s) : memoryForm (s.addGroup g) :=
  setGang_form (form_same h rfl rfl)

/-! ### Futures and spawning -/

theorem execFwait_goes {d : SReg} {f : FReg} {s : State} : Goes s (execFwait d f s) := by
  unfold execFwait
  split
  · exact goes_next fun h => trap_form h
  · exact goes_next fun h => park_form h
  · exact goes_next fun h => advance_form (setRs_form h)

theorem execFtest_goes {d : SReg} {f : FReg} {s : State} : Goes s (execFtest d f s) := by
  unfold execFtest
  exact scalarOp_goes

theorem askStop_form {s : State} {i : ℕ} (h : memoryForm s) : memoryForm (s.askStop i) :=
  form_same h rfl rfl

theorem execFcancel_goes {f : FReg} {s : State} : Goes s (execFcancel f s) := by
  unfold execFcancel
  extract_lets x1 s1
  split
  · exact goes_next fun h => advance_form h
  · split
    · exact goes_next fun h => advance_form (idleFut_form (form_same h rfl rfl))
    · exact goes_next fun h => park_form (askStop_form h)
  · refine goes_next fun h => advance_form (idleFut_form ?_)
    unfold s1
    split
    · exact form_same h rfl rfl
    · exact h

theorem execFexp_goes {d : SReg} {f : FReg} {s : State} : Goes s (execFexp d f s) := by
  unfold execFexp
  extract_lets x1 g1 c1
  split
  · exact goes_next fun h => trap_form h
  · split
    · exact scalarOp_goes
    · extract_lets same1 gen1 s1
      exact goes_of (fun h => idleFut_form (setGang_form h)) scalarOp_goes

theorem execFimp_goes {f : FReg} {a : SReg} {s : State} : Goes s (execFimp f a s) := by
  unfold execFimp
  extract_lets g1 hit1 s1
  split
  · exact goes_next fun h => advance_form (setGrp_form (setFut_form (setGang_form h)))
  · exact goes_next fun h => trap_form h

theorem execSpawn_goes {r : BitVec 2} {d a : SReg} {s : State} : Goes s (execSpawn r d a s) := by
  unfold execSpawn
  extract_lets g1 gang1 v1 gids1
  split
  · exact goes_next fun h => trap_form h
  · split
    · exact scalarOp_goes
    · split
      · exact scalarOp_goes
      · split
        · exact scalarOp_goes
        · split
          · next e1 =>
            extract_lets f1 t1
            exact goes_of (fun h => addGroup_form (of_snd e1 (fresh_form h))) scalarOp_goes

/-! ### The root -/

theorem tell_form {s : State} {ms : List HostMsg} (h : memoryForm s) : memoryForm (s.tell ms) :=
  form_same h rfl rfl

theorem respond_form {s : State} {pf tag status : ℕ} {result : List ℕ} (h : memoryForm s) : memoryForm (s.respond pf tag status result) :=
  tell_form (form_same h rfl rfl)

theorem scrub_form {s : State} {p : ℕ} (h : memoryForm s) : memoryForm (s.scrub p) := by
  unfold State.scrub
  generalize List.replicate 65536 (0 : Byte) = zeros
  exact form_same (s := s.basePut 31 (65536 * p) zeros) (basePut_form h) rfl rfl

theorem rootPage_form {s : State} (h : memoryForm s) : Gives (fun r => memoryForm r.2) s.rootPage := by
  unfold State.rootPage
  refine gives_map gives_any fun p _ => ?_
  extract_lets w
  have hw : memoryForm w := scrub_form h
  clear_value w
  show memoryForm { w with rootPages := p :: s.rootPages }
  exact form_same (s := w) hw rfl rfl

theorem needCtx_form {s : State} {vf part : ℕ} (h : memoryForm s) : Gives memoryForm (s.needCtx vf part) := by
  unfold State.needCtx
  split
  · exact gives_some h
  · exact gives_map (rootPage_form h) fun _ k => form_same k rfl rfl

theorem setVf_form {s : State} {v : ℕ} {f : Vf → Vf} (h : memoryForm s) : memoryForm (s.setVf v f) :=
  form_same h rfl rfl

theorem tablePut_form {s : State} {t x level e : ℕ} (h : memoryForm s) : memoryForm (s.tablePut t x level e) :=
  ⟨tablePut_wf s t x level e h.1, h.2⟩

theorem tableUnder_form {s : State} {t x level : ℕ} (h : memoryForm s) : Gives (fun r => memoryForm r.2) (s.tableUnder t x level) := by
  unfold State.tableUnder
  split
  · exact gives_some h
  · exact gives_map (rootPage_form h) fun _ k => tablePut_form k

theorem installLeaf_form {s : State} {root ipage ppage : ℕ} {k : Kind} (h : memoryForm s) : Gives memoryForm (s.installLeaf root ipage ppage k) := by
  unfold State.installLeaf
  extract_lets x1
  refine gives_bind (Q := fun r => memoryForm r.2) ?_ fun a1 k1 => ?_
  · exact tableUnder_form h
  · split
    · refine gives_bind (Q := fun r => memoryForm r.2) ?_ fun a2 k2 => ?_
      · exact tableUnder_form k1
      · split
        · exact gives_some (tablePut_form k2)

theorem uninstall_form {s : State} {root ipage : ℕ} (h : memoryForm s) : memoryForm (s.uninstall root ipage) := by
  unfold State.uninstall
  extract_lets x1
  split
  · split
    · exact tablePut_form h
    · exact h
  · exact h

theorem tellPeers_form {s : State} {vf part : ℕ} (h : memoryForm s) : memoryForm (s.tellPeers vf part) :=
  sendFrom_form h

theorem shootdown_form {s : State} {vf part : ℕ} {p : TlbEntry → Bool} (h : memoryForm s) : memoryForm (s.shootdown vf part p) :=
  tellPeers_form (form_same h rfl rfl)

theorem performCtx_form {s : State} {vf part : ℕ} (h : memoryForm s) : memoryForm (s.performCtx vf part) := by
  unfold State.performCtx
  extract_lets s1 s2
  refine ackAll_form (cleanPart_form (drainQueue_form (forGroups_form (fun u1 h1 => ?_) h)))
  exact returnAll_form h1

theorem handleTouch_form {s : State} {h' : Handle} {off n : ℕ} (h : memoryForm s) : memoryForm (s.handleTouch h' off n) := by
  unfold State.handleTouch
  split
  · exact touch_form h
  · exact h

theorem handleWrite_form {s : State} {h' : Handle} {off : ℕ} {bs : List Byte} (h : memoryForm s) : memoryForm (s.handleWrite h' off bs) := by
  unfold State.handleWrite
  refine form_foldl_fst (fun p1 x1 h1 => ?_) h
  split
  · split
    · split
      · exact basePut_form h1
      · exact hostWrite_form h1

theorem setDie_form {s : State} {d : ℕ} {f : Die → Die} (h : memoryForm s) : memoryForm (s.setDie d f) :=
  form_same h rfl rfl

theorem reshare_form {s : State} {part : ℕ} (h : memoryForm s) : memoryForm (s.reshare part) :=
  form_same h rfl rfl

theorem drainCtx_form {s : State} {vf part : ℕ} (h : memoryForm s) : memoryForm (s.drainCtx vf part) :=
  ackAll_form (cleanPart_form (drainQueue_form h))

theorem beginExit_form {s : State} {u : PowerUnit} (h : memoryForm s) : memoryForm (s.beginExit u) := by
  unfold State.beginExit
  split
  · exact h
  · exact form_same h rfl rfl

theorem wakeUnits_form {s : State} {part : ℕ} (h : memoryForm s) : memoryForm (s.wakeUnits part) := by
  unfold State.wakeUnits
  refine form_foldl (fun u1 x1 h1 => ?_) h
  extract_lets s1
  split
  · unfold s1
    split
    · exact h1
    · exact beginExit_form h1
  · refine beginExit_form ?_
    unfold s1
    split
    · exact h1
    · exact beginExit_form h1

theorem settleBind_form {s : State} {vf : ℕ} (h : memoryForm s) : memoryForm (s.settleBind vf) := by
  unfold State.settleBind
  split
  · exact setVf_form h
  · exact h

/-! ### Scheduling -/

theorem placeGang_form {s : State} {l : Launch} {index die cluster core0 : ℕ} (h : memoryForm s) :
    memoryForm (s.placeGang l index die cluster core0) := by
  unfold State.placeGang
  extract_lets n1 h1 rs1 f1
  split
  · next e1 =>
    extract_lets g1 g2 s1 s2
    refine form_same (s := s2) ?_ rfl rfl
    refine form_foldl (fun u1 x1 h2 => ?_) (form_same (of_snd e1 (fresh_form (form_same h rfl rfl))) rfl rfl)
    extract_lets r1
    split
    · next e2 => exact addGroup_form (of_snd e2 (fresh_form h2))

theorem execGangAdmit_goes {i : ℕ} {s : State} : Goes s (execGangAdmit i s) := by
  unfold execGangAdmit
  extract_lets first1
  clear_value first1
  split
  · exact goes_next fun h => placeGang_form h
  · exact goes_next id

theorem execStealRequest_goes {thief victim launch : ℕ} {s : State} : Goes s (execStealRequest thief victim launch s) := by
  unfold execStealRequest
  extract_lets held1 wants1 part1
  split
  · exact goes_next id
  · extract_lets dies1 best1 idle1 mine1 f1
    split
    · exact goes_next id
    · exact goes_next fun h => form_same h rfl rfl

theorem execGangRetire_goes {key : ℕ} {s : State} : Goes s (execGangRetire key s) := by
  unfold execGangRetire
  split
  · exact goes_next id
  · split
    · exact goes_next id
    · exact goes_next fun h => form_same h rfl rfl

theorem settleCtx_form {s : State} {vf part : ℕ} (h : memoryForm s) : memoryForm (s.settleCtx vf part) := by
  unfold State.settleCtx
  split
  · exact h
  · split
    · exact settleBind_form (setCtx_form (form_same h rfl rfl))
    · exact h

theorem beginSlice_form {s : State} {vf part : ℕ} (h : memoryForm s) : memoryForm (s.beginSlice vf part) :=
  setCtx_form (settleCredits_form h)

theorem stopSlice_form {s : State} {c : Ctx} {kept : Bool} (h : memoryForm s) : memoryForm (s.stopSlice c kept) :=
  setCtx_form (settleCredits_form (form_same h rfl rfl))

theorem evict_form {s : State} {vf part : ℕ} (h : memoryForm s) : memoryForm (s.evict vf part) := by
  unfold State.evict
  split
  · exact h
  · split
    · exact setCtx_form (stopSlice_form h)
    · exact setCtx_form h
    · exact setCtx_form h
    · exact h

theorem writeChunk_form {s : State} {vf part : ℕ} {h' : Handle} (h : memoryForm s) : memoryForm (s.writeChunk vf part h') := by
  unfold State.writeChunk
  split
  · exact h
  · extract_lets k1 v1
    split
    · exact setCtx_form (setVf_form (handleWrite_form h))

theorem writeGang_form {s : State} {c : Ctx} {h' : Handle} (h : memoryForm s) : memoryForm (s.writeGang c h') := by
  unfold State.writeGang
  split
  · exact writeChunk_form h
  · exact h

theorem writeImage_form {s : State} {c : Ctx} {h' : Handle} (h : memoryForm s) : memoryForm (s.writeImage c h') := by
  unfold State.writeImage
  extract_lets n1 t1 table1
  refine setCtx_form (handleWrite_form ?_)
  refine form_foldl (fun u1 x1 h1 => ?_) h
  exact writeChunk_form h1

theorem finishSaving_form {s : State} {vf part : ℕ} (h : memoryForm s) : memoryForm (s.finishSaving vf part) := by
  unfold State.finishSaving
  split
  · exact h
  · split
    · exact h
    · extract_lets done
      have hd : ∀ u, memoryForm u → memoryForm (done u) := by
        intro u hu
        unfold done
        have hw : memoryForm (u.drainCtx vf part) := drainCtx_form hu
        generalize u.drainCtx vf part = w at hw
        exact settleCtx_form (setCtx_form (form_same hw rfl rfl))
      clear_value done
      split
      · exact hd _ (writeImage_form h)
      · exact h

theorem settleSaving_form {s : State} (h : memoryForm s) : memoryForm s.settleSaving := by
  unfold State.settleSaving
  refine form_foldl (fun u1 x1 h1 => ?_) h
  exact finishSaving_form h1

theorem makeRoom_form {s : State} {part : ℕ} (h : memoryForm s) : memoryForm (s.makeRoom part) := by
  unfold State.makeRoom
  split
  · exact h
  · split
    · exact h
    · extract_lets rs1
      split
      · exact evict_form h
      · exact h

theorem execSliceEnd_goes {part : ℕ} {s : State} : Goes s (execSliceEnd part s) := by
  unfold execSliceEnd
  split
  · exact goes_next id
  · split
    · exact goes_next fun h => makeRoom_form (settleCtx_form (stopSlice_form h))
    · split
      · exact goes_next id
      · split
        · extract_lets carry1
          exact goes_next fun h => beginSlice_form (setCtx_form h)
        · exact goes_next fun h => makeRoom_form (stopSlice_form h)

theorem revive_form {s : State} {vf part : ℕ} (h : memoryForm s) : memoryForm (s.revive vf part) :=
  form_same h rfl rfl

theorem execBankSwitch_goes {part bank : ℕ} {s : State} : Goes s (execBankSwitch part bank s) := by
  unfold execBankSwitch
  split
  · exact goes_next id
  · split
    · split
      · exact goes_next id
      · exact goes_next fun h => revive_form (beginSlice_form (form_same h rfl rfl))
    · exact goes_next id

theorem settleMoves_form {s : State} (h : memoryForm s) : memoryForm s.settleMoves := by
  unfold State.settleMoves
  refine form_foldl (fun u1 x1 h1 => ?_) h
  split
  · extract_lets k1 a1 still1 mine1 s1 s2 s3 g1
    split
    · exact h1
    · have h2 : memoryForm s2 := ackAll_form (cleanPart_form (drainQueue_form h1))
      clear_value s2
      have h3 : memoryForm s3 := form_same h2 rfl rfl
      clear_value s3
      exact reshare_form (reshare_form (form_same h3 rfl rfl))

theorem takeDue_form {s : State} (h : memoryForm s) : memoryForm s.takeDue := by
  unfold State.takeDue
  extract_lets one t
  have step : ∀ u i, memoryForm u → memoryForm (one u i) := by
    intro u i hu
    obtain ⟨v, e, hv⟩ := execTrapEntry_goes (s := { u with sel := i })
    unfold one
    extract_lets w
    split
    · rw [show execTrapEntry w = .next v from e]
      exact hv (form_same hu rfl rfl)
    · exact hu
  exact form_same (s := t) (step _ _ (step _ _ h)) rfl rfl

/-- A gang's image written where its context keeps a save area. -/
theorem writeGang_getD_form {s : State} {c : Ctx} (h : memoryForm s) : memoryForm (((s.saveArea c).map (s.writeGang c)).getD s) := by
  cases s.saveArea c with
  | none => exact h
  | some a => exact writeGang_form h

theorem execGangSave_goes {key : ℕ} {s : State} : Goes s (execGangSave key s) := by
  unfold execGangSave
  split
  · exact goes_next id
  · split
    · exact goes_next id
    · extract_lets mine busy s1 s2 s3 s4 v s5
      split
      · exact goes_next fun h => forGroups_form (fun u hu => takeDue_form hu) h
      · split
        · exact goes_next id
        · refine goes_next fun h => settleMoves_form (finishSaving_form ?_)
          have h3 : memoryForm s3 := ackAll_form (cleanPart_form (drainQueue_form (forGroups_form (fun u hu => returnAll_form hu) h)))
          have h4 : memoryForm s4 := by
            unfold s4
            split
            · exact writeGang_getD_form h3
            · exact h3
          clear_value s4
          exact form_same h4 rfl rfl

theorem execContextLoad_goes {i : ℕ} {s : State} : Goes s (execContextLoad i s) := by
  unfold execContextLoad
  split
  · exact goes_next id
  · split
    · split
      · exact goes_next id
      · split
        · exact goes_next fun h => settleMoves_form (finishSaving_form (setCtx_form h))
        · exact goes_next fun h => settleCtx_form (setCtx_form h)
    · split
      · exact goes_next id
      · split
        · exact goes_next fun h => endContext_form h
        · split
          · exact goes_next fun h => makeRoom_form h
          · extract_lets t1 t2
            refine goes_next fun h => ?_
            split
            · exact setCtx_form (form_same h rfl rfl)
            · exact shootdown_form (setCtx_form (form_same h rfl rfl))
    · split
      · exact goes_next id
      · split
        · exact goes_next fun h => endContext_form h
        · split
          · exact goes_next fun h => makeRoom_form h
          · extract_lets t3 t4
            refine goes_next fun h => ?_
            split
            · exact setCtx_form (form_same h rfl rfl)
            · exact shootdown_form (setCtx_form (form_same h rfl rfl))
    · exact goes_next id

theorem execGangResume_goes {i : ℕ} {s : State} : Goes s (execGangResume i s) := by
  unfold execGangResume
  split
  · exact goes_next id
  · extract_lets g1 first1 held1
    split
    · exact goes_next id
    · extract_lets places1
      split
      · exact goes_next id
      · split
        · exact goes_next id
        · extract_lets x1 s1
          refine goes_next fun h => form_foldl (fun u1 x2 h1 => ?_) (form_same h rfl rfl)
          exact dropClean_form (form_same h1 rfl rfl)

theorem applyResolution_form {s : State} {r : ℕ × W32} (h : memoryForm s) : memoryForm (s.applyResolution r) :=
  form_same h rfl rfl

theorem execSavedResolutionApply_goes {i : ℕ} {s : State} : Goes s (execSavedResolutionApply i s) := by
  unfold execSavedResolutionApply
  split
  · exact goes_next id
  · exact goes_next fun h => applyResolution_form (form_same h rfl rfl)

theorem execSyncEngineTakeover_goes {s : State} : Goes s (execSyncEngineTakeover s) := by
  unfold execSyncEngineTakeover
  split
  · exact goes_next id
  · refine goes_next fun h => form_foldl (fun u1 x1 h1 => ?_) (form_same h rfl rfl)
    exact applyResolution_form h1

/-! ### Queues and launches -/

theorem touchEntry_form {s : State} {q : Queue} {n : ℕ} (h : memoryForm s) : memoryForm (s.touchEntry q n) := by
  unfold State.touchEntry
  split
  · exact h
  · exact handleTouch_form (handleTouch_form h)

theorem writeRecord_form {s : State} {q : Queue} {n : ℕ} {bs : List Byte} (h : memoryForm s) : memoryForm (s.writeRecord q n bs) := by
  unfold State.writeRecord
  split
  · exact h
  · extract_lets k1
    split
    · exact handleWrite_form (handleWrite_form h)

theorem setQueue_form {s : State} {vf q : ℕ} {f : Queue → Queue} (h : memoryForm s) : memoryForm (s.setQueue vf q f) :=
  form_same h rfl rfl

theorem readHeader_form {s : State} {vf part : ℕ} {a : W64} (h : memoryForm s) : memoryForm (s.readHeader vf part a).2 := by
  unfold State.readHeader
  split
  · next e1 => exact of_snd e1 (readVa_form h)
  · next e2 =>
    split
    · next e3 => exact of_snd e3 (readVa_form (of_snd e2 (readVa_form h)))
    · next e4 => exact of_snd e4 (readVa_form (of_snd e2 (readVa_form h)))

theorem startLaunch_form {s : State} {q : Queue} {n : ℕ} {bs : List Byte} (h : memoryForm s) : memoryForm (s.startLaunch q n bs) := by
  unfold State.startLaunch
  split
  · next u1 e1 =>
    extract_lets put1 bad1 w1 f1 psize1 gangs1
    split
    · exact form_same (of_snd e1 (fresh_form h)) rfl rfl
    · split
      · next u2 e2 =>
        split
        · refine form_same (s := u2) ?_ rfl rfl
          refine of_snd e2 ?_
          split
          · exact of_snd e1 (fresh_form h)
          · split
            · next e3 => exact of_snd e3 (mapVa_form (of_snd e1 (fresh_form h)))
            · next e4 => exact of_snd e4 (mapVa_form (of_snd e1 (fresh_form h)))
        · split
          · next u3 e5 =>
            refine form_same (s := u3) ?_ rfl rfl
            refine of_snd e5 ?_
            refine readHeader_form ?_
            refine of_snd e2 ?_
            split
            · exact of_snd e1 (fresh_form h)
            · split
              · next e6 => exact of_snd e6 (mapVa_form (of_snd e1 (fresh_form h)))
              · next e7 => exact of_snd e7 (mapVa_form (of_snd e1 (fresh_form h)))
          · next u4 e8 =>
            split
            · refine form_same (s := u4) ?_ rfl rfl
              refine of_snd e8 ?_
              refine readHeader_form ?_
              refine of_snd e2 ?_
              split
              · exact of_snd e1 (fresh_form h)
              · split
                · next e9 => exact of_snd e9 (mapVa_form (of_snd e1 (fresh_form h)))
                · next e10 => exact of_snd e10 (mapVa_form (of_snd e1 (fresh_form h)))
            · split
              · refine form_same (s := u4) ?_ rfl rfl
                refine of_snd e8 ?_
                refine readHeader_form ?_
                refine of_snd e2 ?_
                split
                · exact of_snd e1 (fresh_form h)
                · split
                  · next e11 => exact of_snd e11 (mapVa_form (of_snd e1 (fresh_form h)))
                  · next e12 => exact of_snd e12 (mapVa_form (of_snd e1 (fresh_form h)))
              · extract_lets dies1 f2
                refine form_same (s := u4) ?_ rfl rfl
                refine of_snd e8 ?_
                refine readHeader_form ?_
                refine of_snd e2 ?_
                split
                · exact of_snd e1 (fresh_form h)
                · split
                  · next e13 => exact of_snd e13 (mapVa_form (of_snd e1 (fresh_form h)))
                  · next e14 => exact of_snd e14 (mapVa_form (of_snd e1 (fresh_form h)))

theorem startInvalidate_form {s : State} {q : Queue} {n : ℕ} {bs : List Byte} (h : memoryForm s) : memoryForm (s.startInvalidate q n bs) := by
  unfold State.startInvalidate
  have hf : memoryForm s.fresh.2 := fresh_form h
  generalize s.fresh = r at hf
  split
  next id u =>
  extract_lets f l lo hit w
  split
  · clear_value l
    exact form_same (s := u) hf rfl rfl
  · clear_value l
    exact form_same (s := w) (shootdown_form hf) rfl rfl

theorem acquirePart_form {s : State} {part : ℕ} (h : memoryForm s) : memoryForm (s.acquirePart part) :=
  form_same h rfl rfl

theorem waitWord_form {s : State} {q : Queue} {bs : List Byte} (h : memoryForm s) : memoryForm (s.waitWord q bs).2 := by
  unfold State.waitWord
  split
  · next e1 => exact of_snd e1 (readVa_form h)
  · next e2 => exact of_snd e2 (readVa_form h)

theorem waitHolds_form {s : State} {q : Queue} {bs : List Byte} (h : memoryForm s) : memoryForm (s.waitHolds q bs).2 := by
  unfold State.waitHolds
  split
  · exact h
  · split
    · next e1 => exact of_snd e1 (waitWord_form h)
    · next e2 => exact of_snd e2 (waitWord_form h)

theorem execWaitConditionPoll_goes {i : ℕ} {s : State} : Goes s (execWaitConditionPoll i s) := by
  unfold execWaitConditionPoll
  split
  · exact goes_next id
  · split
    · exact goes_next id
    · split
      · exact goes_next id
      · split
        · next e1 => exact goes_next fun h => setQueue_form (of_snd e1 (waitHolds_form (touchEntry_form h)))

theorem execEntryStart_goes {i : ℕ} {s : State} : Goes s (execEntryStart i s) := by
  unfold execEntryStart
  split
  · exact goes_next id
  · extract_lets n1 bs1 s1 fail1
    split
    · exact goes_next id
    · split
      · unfold fail1
        split
        · next e1 => exact goes_next fun h => form_same (of_snd e1 (fresh_form (acquirePart_form (setQueue_form (touchEntry_form h))))) rfl rfl
      · clear_value bs1
        split
        · unfold fail1
          split
          · next e2 => exact goes_next fun h => form_same (of_snd e2 (fresh_form (acquirePart_form (setQueue_form (touchEntry_form h))))) rfl rfl
        · split
          · unfold fail1
            split
            · next e3 => exact goes_next fun h => form_same (of_snd e3 (fresh_form (acquirePart_form (setQueue_form (touchEntry_form h))))) rfl rfl
          · split
            · exact goes_next fun h => startLaunch_form (acquirePart_form (setQueue_form (touchEntry_form h)))
            · split
              · exact goes_next fun h => startInvalidate_form (acquirePart_form (setQueue_form (touchEntry_form h)))
              · unfold fail1
                split
                · next e4 => exact goes_next fun h => form_same (of_snd e4 (fresh_form (acquirePart_form (setQueue_form
                    (touchEntry_form h))))) rfl rfl

theorem settleQueue_form {s : State} {vf q : ℕ} (h : memoryForm s) : memoryForm (s.settleQueue vf q) := by
  unfold State.settleQueue
  split
  · exact h
  · split
    · split
      · exact respond_form (form_same h rfl rfl)
      · exact h
    · exact h

theorem execLaunchComplete_goes {i : ℕ} {s : State} : Goes s (execLaunchComplete i s) := by
  unfold execLaunchComplete
  split
  · exact goes_next id
  · extract_lets mine s1 s2 s3 s4
    have h3 : memoryForm s → memoryForm s3 := by
      intro h
      refine ackAll_form (cleanPart_form (drainQueue_form ?_))
      unfold s1
      split
      · exact performCtx_form h
      · exact h
    clear_value s3
    have h4 : memoryForm s → memoryForm s4 := fun h => form_same (h3 h) rfl rfl
    clear_value s4
    split
    · exact goes_next id
    · split
      · exact goes_next fun h => settleCtx_form (h4 h)
      · extract_lets s5 s6 s7 s8
        have h6 : memoryForm s → memoryForm s6 := by
          intro h
          unfold s6
          split
          · exact tell_form (redBase_form (writeRecord_form (h4 h)))
          · exact redBase_form (writeRecord_form (h4 h))
        clear_value s6
        have h7 : memoryForm s → memoryForm s7 := fun h => setQueue_form (h6 h)
        clear_value s7
        exact goes_next fun h => settleCtx_form (settleQueue_form (form_same (h7 h) rfl rfl))

theorem execDoorbell_goes {vf q t : ℕ} {s : State} : Goes s (execDoorbell vf q t s) := by
  unfold execDoorbell
  split
  · exact goes_next id
  · split
    · exact goes_next id
    · split
      · exact goes_next fun h => setQueue_form h
      · exact goes_next fun h => wakeUnits_form (setQueue_form h)

theorem execQstatWrite_goes {vf q : ℕ} {v : W64} {s : State} : Goes s (execQstatWrite vf q v s) := by
  unfold execQstatWrite
  refine goes_next fun h => ?_
  split
  · exact setQueue_form h
  · exact h

theorem execLoadRecord_goes {vf off : ℕ} {bytes : List Byte} {s : State} : Goes s (execLoadRecord vf off bytes s) := by
  unfold execLoadRecord
  extract_lets ctr1 id1 o1 reject1
  split
  · exact goes_next id
  · split
    · exact goes_next fun h => setVf_form h
    · split
      · split
        · exact goes_next fun h => setVf_form h
        · exact goes_next fun h => setVf_form (handleWrite_form h)
      · exact goes_next fun h => setVf_form h

theorem execLstatRead_goes {reg : ℕ} {s : State} : Goes s (execLstatRead reg s) := by
  unfold execLstatRead
  extract_lets vf1 off1
  refine goes_next fun h => ?_
  split
  · exact h
  · exact tell_form h

end Sys2Proof.Machine
end

section
/-! PROOFS. What the model's functions answer and that they keep the form of both memories: the host, the matrix units, power, scalars, lanes and waiting. -/
namespace Sys2Proof.Machine
open Sys2Proof Sys2Proof.Statements

/-! ### The host -/

theorem setPf_form {s : State} {i : ℕ} {f : Pf → Pf} (h : memoryForm s) : memoryForm (s.setPf i f) :=
  form_same h rfl rfl

theorem spdmError_form {s : State} {i : ℕ} (h : memoryForm s) : memoryForm (s.spdmError i) :=
  tell_form h

theorem spdm_goes {s : State} {i code : ℕ} {req : List Byte} {ok : Pf → Bool} {f : Pf → Pf} : Goes s (s.spdm i code req ok f) := by
  unfold State.spdm
  split
  · exact goes_next id
  · extract_lets p1 reply1
    split
    · exact goes_next fun h => spdmError_form h
    · exact goes_next fun h => tell_form (setPf_form h)

theorem execGetVersion_goes {pf : ℕ} {req : List Byte} {s : State} : Goes s (execGetVersion pf req s) := by
  unfold execGetVersion
  exact goes_of (fun h => setPf_form h) spdm_goes

theorem execGetCapabilities_goes {pf : ℕ} {req : List Byte} {s : State} : Goes s (execGetCapabilities pf req s) := by
  unfold execGetCapabilities
  exact spdm_goes

theorem execNegotiateAlgorithms_goes {pf : ℕ} {req : List Byte} {s : State} : Goes s (execNegotiateAlgorithms pf req s) := by
  unfold execNegotiateAlgorithms
  exact spdm_goes

theorem execGetDigests_goes {pf : ℕ} {req : List Byte} {s : State} : Goes s (execGetDigests pf req s) := by
  unfold execGetDigests
  exact spdm_goes

theorem execGetCertificate_goes {pf : ℕ} {req : List Byte} {s : State} : Goes s (execGetCertificate pf req s) := by
  unfold execGetCertificate
  exact spdm_goes

theorem execChallenge_goes {pf : ℕ} {req : List Byte} {s : State} : Goes s (execChallenge pf req s) := by
  unfold execChallenge
  exact spdm_goes

theorem execGetMeasurements_goes {pf : ℕ} {req : List Byte} {s : State} : Goes s (execGetMeasurements pf req s) := by
  unfold execGetMeasurements
  exact spdm_goes

theorem execKeyExchange_goes {pf : ℕ} {req : List Byte} {s : State} : Goes s (execKeyExchange pf req s) := by
  unfold execKeyExchange
  exact spdm_goes

theorem execFinish_goes {pf : ℕ} {req : List Byte} {s : State} : Goes s (execFinish pf req s) := by
  unfold execFinish
  exact spdm_goes

theorem execEndSession_goes {pf : ℕ} {req : List Byte} {s : State} : Goes s (execEndSession pf req s) := by
  unfold execEndSession
  exact spdm_goes

theorem vendor_goes {s : State} {i vf : ℕ} {f : State → Option (List Byte × State)}
    (hf : ∀ u, memoryForm u → Gives (fun r => memoryForm r.2) (f u)) : Goes s (s.vendor i vf f) := by
  unfold State.vendor
  split
  · exact goes_next id
  · split
    · exact goes_next fun h => spdmError_form h
    · split
      · next e => exact goes_next fun h => tell_form (of_some (Q := fun r => memoryForm r.2) e (hf s h))
      · exact goes_next fun h => spdmError_form h

theorem rekey_form {s : State} {vf : ℕ} {secret : List Byte} (h : memoryForm s) : memoryForm (s.rekey vf secret) := by
  unfold State.rekey
  extract_lets t1 pages1
  split
  · exact setVf_form h
  · refine form_foldl (fun u1 x1 h1 => ?_) (setVf_form h)
    exact rereadPage_form h1

theorem execKeySet_goes {pf vf : ℕ} {secret : List Byte} {s : State} : Goes s (execKeySet pf vf secret s) := by
  unfold execKeySet
  refine vendor_goes fun u1 h1 => ?_
  extract_lets other1
  split
  · exact gives_none
  · exact gives_some (rekey_form h1)

theorem enforce_form {s : State} {vf : ℕ} {p : Policy} (h : memoryForm s) : memoryForm (s.enforce vf p) := by
  unfold State.enforce
  extract_lets parts1 s1 s2
  refine form_same (s := s2) ?_ rfl rfl
  refine setVf_form ?_
  refine form_foldl (fun u1 x1 h1 => ?_) h
  exact tellPeers_form h1

theorem execPolicySet_goes {pf vf : ℕ} {policy : List Byte} {s : State} : Goes s (execPolicySet pf vf policy s) := by
  unfold execPolicySet
  refine vendor_goes fun u1 h1 => ?_
  split
  · exact gives_none
  · extract_lets bound1
    split
    · exact gives_none
    · split
      · exact gives_none
      · split
        · exact gives_none
        · exact gives_some (enforce_form h1)

theorem execVfQuery_goes {pf vf : ℕ} {s : State} : Goes s (execVfQuery pf vf s) := by
  unfold execVfQuery
  refine vendor_goes fun u1 h1 => ?_
  exact gives_some h1

theorem ok_form {s : State} {result : List ℕ} (h : memoryForm s) : memoryForm (s.ok result).2.2 :=
  h

theorem no_form {s : State} {status : ℕ} (h : memoryForm s) : memoryForm (s.no status).2.2 :=
  h

theorem mailbox_goes {s : State} {pf tag op : ℕ} {operands : List ℕ} {f : State → Reply} (hf : ∀ u, memoryForm u → memoryForm (f u).2.2) :
    Goes s (s.mailbox pf tag op operands f) := by
  unfold State.mailbox
  split
  · exact goes_next id
  · exact goes_next fun h => respond_form (hf _ (setPf_form h))

theorem execAlloc_goes {pf tag vf size : ℕ} {localBand : Bool} {stack : ℕ} {s : State} : Goes s (execAlloc pf tag vf size localBand stack s) := by
  unfold execAlloc
  refine mailbox_goes fun u1 h1 => ?_
  split
  · exact no_form h1
  · split
    · exact no_form h1
    · extract_lets p1 fits1 ps1
      split
      · exact no_form h1
      · split
        · exact no_form h1
        · split
          · next u2 e1 =>
            extract_lets h2
            refine ok_form (setVf_form (form_same (s := u2) ?_ rfl rfl))
            refine of_snd e1 ?_
            refine fresh_form ?_
            refine form_foldl (fun u3 x1 h3 => ?_) h1
            exact scrub_form h3

theorem execHwin_goes {pf tag vf dataBase tagBase len : ℕ} {s : State} : Goes s (execHwin pf tag vf dataBase tagBase len s) := by
  unfold execHwin
  refine mailbox_goes fun u1 h1 => ?_
  split
  · exact no_form h1
  · split
    · exact no_form h1
    · extract_lets p1 taken1
      split
      · exact no_form h1
      · split
        · exact no_form h1
        · split
          · next e1 => exact ok_form (setVf_form (form_same (of_snd e1 (fresh_form h1)) rfl rfl))

theorem unmapPages_form {s : State} {vf part : ℕ} {p : MapRec → Bool} (h : memoryForm s) : memoryForm (s.unmapPages vf part p) := by
  unfold State.unmapPages
  extract_lets mine1
  split
  · exact h
  · extract_lets s1 s2 free1
    refine shootdown_form (form_same (s := s2) ?_ rfl rfl)
    refine form_same (s := s1) ?_ rfl rfl
    refine form_foldl (fun u1 x1 h1 => ?_) h
    exact uninstall_form h1

theorem execFree_goes {pf tag handle : ℕ} {s : State} : Goes s (execFree pf tag handle s) := by
  unfold execFree
  refine mailbox_goes fun u1 h1 => ?_
  split
  · exact no_form h1
  · extract_lets maps1 live1 s1 s2 s3 s4
    split
    · exact no_form h1
    · split
      · exact no_form h1
      · refine ok_form (settleBind_form ?_)
        unfold s4
        split
        · refine form_same (s := s2) ?_ rfl rfl
          unfold s2
          split
          · refine form_foldl (fun u2 x1 h2 => ?_) ?_
            · exact scrub_form h2
            · refine form_foldl (fun u3 x2 h3 => ?_) h1
              exact unmapPages_form h3
          · refine form_foldl (fun u4 x3 h4 => ?_) h1
            exact unmapPages_form h4
        · refine setVf_form (form_same (s := s2) ?_ rfl rfl)
          unfold s2
          split
          · refine form_foldl (fun u5 x4 h5 => ?_) ?_
            · exact scrub_form h5
            · refine form_foldl (fun u6 x5 h6 => ?_) h1
              exact unmapPages_form h6
          · refine form_foldl (fun u7 x6 h7 => ?_) h1
            exact unmapPages_form h7

theorem mapPage_form {s : State} {vf part : ℕ} {h' : Handle} {ipage page : ℕ} {k : Kind} (h : memoryForm s) :
    Gives memoryForm (s.mapPage vf part h' ipage page k) := by
  unfold State.mapPage
  refine gives_bind gives_any fun c _ => ?_
  simp only []
  have body {ppage : ℕ} : Gives memoryForm (do
      let u ← (s.unmapPages vf part fun m => m.ipage == ipage).installLeaf c.s2root ipage ppage k
      some { u with maps := u.maps ++ [⟨vf, part, h'.id, ipage, [ppage], k⟩] }) :=
    gives_bind (installLeaf_form (unmapPages_form h)) fun t ht => gives_some (form_same ht rfl rfl)
  split
  · exact gives_bind gives_any fun _ _ => body
  · exact gives_bind gives_any fun _ _ => body

theorem mapPages_form {s : State} {vf part : ℕ} {h' : Handle} {l : List ℕ} {f : ℕ → ℕ} {k : ℕ → Kind} (h : memoryForm s) :
    Gives memoryForm (l.foldl (fun (t : Option State) p => t.bind fun t => t.mapPage vf part h' p (f p) (k p)) (some s)) := by
  have go : ∀ (o : Option State), Gives memoryForm o →
      Gives memoryForm (l.foldl (fun (t : Option State) p => t.bind fun t => t.mapPage vf part h' p (f p) (k p)) o) := by
    induction l with
    | nil => exact fun _ ho => ho
    | cons p r ih => exact fun o ho => ih _ (gives_bind ho fun t ht => mapPage_form ht)
  exact go _ (gives_some h)

theorem execMap_goes {pf tag vf part handle ia off len : ℕ} {s : State} : Goes s (execMap pf tag vf part handle ia off len s) := by
  unfold execMap
  refine mailbox_goes fun u hu => ?_
  extract_lets n ks pages
  split
  · exact hu
  · split
    · exact hu
    · split
      · exact hu
      · split
        · exact hu
        · split
          · exact hu
          · split
            · exact hu
            · extract_lets r
              have hr : Gives memoryForm r := gives_bind (needCtx_form hu) fun t ht => mapPages_form ht
              clear_value r
              cases r with
              | none => exact hu
              | some t => exact form_same (t := ({ t with handles := _ } : State)) (s := t) hr rfl rfl

theorem execUnmap_goes {pf tag vf part ia len : ℕ} {s : State} : Goes s (execUnmap pf tag vf part ia len s) := by
  unfold execUnmap
  refine mailbox_goes fun u1 h1 => ?_
  split
  · exact no_form h1
  · split
    · exact no_form h1
    · exact ok_form (performCtx_form (unmapPages_form h1))

theorem execQcreate_goes {pf tag vf part q level handle logN ctr : ℕ} {intr : Bool} {s : State} :
    Goes s (execQcreate pf tag vf part q level handle logN ctr intr s) := by
  unfold execQcreate
  refine mailbox_goes fun u1 h1 => ?_
  extract_lets h2 x1
  split
  · exact no_form h1
  · split
    · exact no_form h1
    · split
      · exact no_form h1
      · split
        · exact no_form h1
        · split
          · exact no_form h1
          · split
            · exact no_form h1
            · next e1 => exact ok_form (form_same (of_some e1 (needCtx_form h1)) rfl rfl)

theorem execQdestroy_goes {pf tag vf q : ℕ} {s : State} : Goes s (execQdestroy pf tag vf q s) := by
  unfold execQdestroy
  split
  · exact goes_next id
  · extract_lets s1
    split
    · exact goes_next fun h => respond_form (setPf_form h)
    · split
      · exact goes_next fun h => respond_form (setPf_form h)
      · split
        · exact goes_next fun h => respond_form (setPf_form h)
        · exact goes_next fun h => settleQueue_form (setQueue_form (setPf_form h))

theorem ctxCommand_goes {s : State} {pf tag op vf part bit : ℕ} {f : State → State} (hf : ∀ u, memoryForm u → memoryForm (f u)) :
    Goes s (s.ctxCommand pf tag op vf part bit f) := by
  unfold State.ctxCommand
  refine mailbox_goes fun u h => ?_
  split
  · exact h
  · split
    · exact h
    · split
      · exact h
      · split
        · exact h
        · next e => exact hf _ (of_some e (needCtx_form h))

theorem execPause_goes {pf tag vf part : ℕ} {s : State} : Goes s (execPause pf tag vf part s) := by
  unfold execPause
  refine ctxCommand_goes fun u1 h1 => ?_
  extract_lets s1
  refine settleCtx_form (setCtx_form ?_)
  unfold s1
  split
  · split
    · exact stopSlice_form h1
    · exact h1
  · exact h1

theorem execUnpause_goes {pf tag vf part : ℕ} {s : State} : Goes s (execUnpause pf tag vf part s) := by
  unfold execUnpause
  refine ctxCommand_goes fun u1 h1 => ?_
  exact setCtx_form h1

theorem execEvict_goes {pf tag vf part : ℕ} {s : State} : Goes s (execEvict pf tag vf part s) := by
  unfold execEvict
  refine ctxCommand_goes fun u1 h1 => ?_
  exact finishSaving_form (evict_form h1)

theorem execResize_goes {pf tag vf part quota : ℕ} {s : State} : Goes s (execResize pf tag vf part quota s) := by
  unfold execResize
  refine mailbox_goes fun u1 h1 => ?_
  extract_lets x1
  split
  · exact no_form h1
  · split
    · exact no_form h1
    · split
      · exact no_form h1
      · split
        · exact no_form h1
        · next e1 =>
          extract_lets s1
          refine ok_form ?_
          split
          · split
            · exact finishSaving_form (evict_form (setCtx_form (of_some e1 (needCtx_form h1))))
            · exact setCtx_form (of_some e1 (needCtx_form h1))
          · exact setCtx_form (of_some e1 (needCtx_form h1))

theorem execPartition_goes {pf tag die quad part : ℕ} {s : State} : Goes s (execPartition pf tag die quad part s) := by
  unfold execPartition
  refine mailbox_goes fun u1 h1 => ?_
  extract_lets a1 on1 s1 s2
  split
  · exact no_form h1
  · split
    · exact no_form h1
    · split
      · exact ok_form h1
      · refine ok_form (settleMoves_form ?_)
        refine form_foldl (fun u2 x1 h2 => ?_) (form_same h1 rfl rfl)
        exact finishSaving_form (evict_form h2)

theorem execReset_goes {pf tag vf part : ℕ} {s : State} : Goes s (execReset pf tag vf part s) := by
  unfold execReset
  refine mailbox_goes fun u1 h1 => ?_
  split
  · exact no_form h1
  · split
    · exact no_form h1
    · extract_lets s1
      refine ok_form (settleBind_form (shootdown_form (setCtx_form ?_)))
      unfold s1
      split
      · split
        · exact h1
        · exact endContext_form h1
      · exact h1

theorem execSetltol_goes {pf tag vf ns : ℕ} {s : State} : Goes s (execSetltol pf tag vf ns s) := by
  unfold execSetltol
  refine mailbox_goes fun u1 h1 => ?_
  split
  · exact no_form h1
  · split
    · exact no_form h1
    · split
      · exact no_form h1
      · exact ok_form (setVf_form h1)

theorem execDumpget_goes {pf tag sec dest : ℕ} {s : State} : Goes s (execDumpget pf tag sec dest s) := by
  unfold execDumpget
  refine mailbox_goes fun u h => ?_
  split
  · exact h
  · split
    · exact h
    · exact tell_form ⟨h.1, memWrite_wf _ _ _ h.2⟩

theorem execSavearea_goes {pf tag vf part handle : ℕ} {s : State} : Goes s (execSavearea pf tag vf part handle s) := by
  unfold execSavearea
  refine mailbox_goes fun u1 h1 => ?_
  split
  · exact no_form h1
  · split
    · exact no_form h1
    · split
      · exact no_form h1
      · split
        · exact no_form h1
        · next e1 =>
          extract_lets quota1
          split
          · exact h1
          · exact ok_form (settleMoves_form (finishSaving_form (setCtx_form (of_some e1 (needCtx_form h1)))))

theorem runMail_goes {s : State} {pf : ℕ} : Goes s (s.runMail pf) := by
  unfold State.runMail
  extract_lets b1 tag1 x1
  split
  · exact execAlloc_goes
  · exact execHwin_goes
  · exact execFree_goes
  · exact execMap_goes
  · exact execUnmap_goes
  · exact execQcreate_goes
  · exact execQdestroy_goes
  · exact execPause_goes
  · exact execUnpause_goes
  · exact execEvict_goes
  · exact execResize_goes
  · exact execPartition_goes
  · exact execReset_goes
  · exact execSetltol_goes
  · exact execDumpget_goes
  · exact execSavearea_goes
  · refine mailbox_goes fun u1 h1 => ?_
    exact no_form h1

theorem pfWrite_goes {s : State} {pf off : ℕ} {bytes : List Byte} : Goes s (s.pfWrite pf off bytes) := by
  unfold State.pfWrite
  split
  · exact goes_next fun h => setPf_form h
  · split
    · exact runMail_goes
    · exact goes_next id

theorem execRegisterWrite_goes {vf bar off : ℕ} {bytes : List Byte} {s : State} : Goes s (execRegisterWrite vf bar off bytes s) := by
  unfold execRegisterWrite
  split
  · exact goes_next id
  · split
    · split
      · exact pfWrite_goes
      · exact goes_next id
    · split
      · exact goes_next id
      · split
        · exact goes_next id
        · split
          · exact goes_next id
          · refine goes_next fun h => form_foldl (fun u1 x1 h1 => ?_) h
            extract_lets o1
            split
            · exact handleWrite_form h1
            · exact h1

/-! ### The matrix units -/

theorem setPair_form {s : State} {die cluster bank q : ℕ} {f : PlanePair → PlanePair} (h : memoryForm s) :
    memoryForm (s.setPair die cluster bank q f) :=
  form_same h rfl rfl

theorem tableRoom_keeps {s : State} {counts : Bool} (h : memoryForm s) : Keeps (fun _ => True) (s.tableRoom counts) := by
  unfold State.tableRoom
  extract_lets g1
  split
  · exact keeps_hold (park_form h)
  · exact keeps_ok trivial

theorem enterTable_form {s : State} {id : ℕ} {kind : TabKind} (h : memoryForm s) : memoryForm (s.enterTable id kind) :=
  form_same h rfl rfl

theorem execLdstat_goes {q : BitVec 2} {ty : Ty} {f : FReg} {a : SReg} {s : State} : Goes s (execLdstat q ty f a s) := by
  unfold execLdstat
  refine finish_goes id fun h => ?_
  extract_lets g1 gang1 src1 n1 ts1 p1
  refine keeps_bind must_keeps fun a1 k1 => ?_
  refine keeps_bind (futReady_keeps h) fun a2 k2 => ?_
  refine keeps_bind must_keeps fun a3 k3 => ?_
  refine keeps_bind must_keeps fun a4 k4 => ?_
  split
  · exact keeps_raise
  · split
    · exact keeps_ok (advance_form (settleFut_form h))
    · refine keeps_bind (tableRoom_keeps h) fun a5 k5 => ?_
      split
      · next e1 =>
        extract_lets s1 s2
        refine keeps_ok (advance_form (enterTable_form (issueFut_form (flipTiles_form ?_))))
        unfold s1
        split
        · exact of_snd e1 (fresh_form h)
        · exact form_same (of_snd e1 (fresh_form h)) rfl rfl

theorem execSwap_goes {q : BitVec 2} {s : State} : Goes s (execSwap q s) := by
  unfold execSwap
  refine finish_goes id fun h => ?_
  extract_lets g1
  split
  · exact keeps_illegal
  · refine keeps_bind (tableRoom_keeps h) fun a1 k1 => ?_
    split
    · next e1 => exact keeps_ok (advance_form (enterTable_form (of_snd e1 (fresh_form h))))

theorem quarterOp_goes {block : Bool} {q fus n : BitVec 2} {ty : Ty} {sn : Bool} {t : SReg} {a : VReg} {b : SReg} {s : State} :
    Goes s (quarterOp block q fus n ty sn t a b s) := by
  unfold quarterOp
  refine finish_goes id fun h => ?_
  extract_lets deep1 rows1 regs1 quads1 tiles1 sigma1 words1
  refine keeps_bind must_keeps fun a1 k1 => ?_
  refine keeps_bind (vcheck_keeps h) fun a2 k2 => ?_
  split
  · exact keeps_illegal
  · split
    · exact keeps_raise
    · split
      · exact keeps_ok (advance_form h)
      · refine keeps_bind (tableRoom_keeps h) fun a3 k3 => ?_
        split
        · next e1 => exact keeps_ok (advance_form (enterTable_form (of_snd e1 (fresh_form h))))

theorem execMmq_goes {q fus n : BitVec 2} {ty : Ty} {sn : Bool} {t : SReg} {a : VReg} {b : SReg} {s : State} :
    Goes s (execMmq q fus n ty sn t a b s) := by
  unfold execMmq
  exact quarterOp_goes

theorem execMmqs_goes {q fus n : BitVec 2} {ty : Ty} {sn : Bool} {t : SReg} {a : VReg} {b : SReg} {s : State} :
    Goes s (execMmqs q fus n ty sn t a b s) := by
  unfold execMmqs
  exact quarterOp_goes

theorem execTalloc_goes {d : SReg} {s : State} : Goes s (execTalloc d s) := by
  unfold execTalloc
  extract_lets g1
  split
  · exact goes_next fun h => trap_form h
  · extract_lets s1
    exact goes_of (fun h => setGang_form h) scalarOp_goes

theorem tileHandle_keeps {s : State} {a : SReg} (_h : memoryForm s) : Keeps (fun _ => True) (s.tileHandle a) := by
  unfold State.tileHandle
  refine keeps_bind must_keeps fun a1 k1 => ?_
  exact keeps_ok trivial

theorem execTfree_goes {a : SReg} {s : State} : Goes s (execTfree a s) := by
  unfold execTfree
  refine finish_goes id fun h => ?_
  refine keeps_bind (tileHandle_keeps h) fun a1 k1 => ?_
  split
  · exact keeps_hold (park_form h)
  · exact keeps_ok (advance_form (setGang_form h))

theorem execTzero_goes {a : SReg} {s : State} : Goes s (execTzero a s) := by
  unfold execTzero
  refine finish_goes id fun h => ?_
  refine keeps_bind (tileHandle_keeps h) fun a1 k1 => ?_
  refine keeps_bind (tableRoom_keeps h) fun a2 k2 => ?_
  split
  · next e1 => exact keeps_ok (advance_form (enterTable_form (of_snd e1 (fresh_form h))))

theorem execTld_goes {c : BitVec 3} {d : VReg} {a : SReg} {s : State} : Goes s (execTld c d a s) := by
  unfold execTld
  refine finish_goes id fun h => ?_
  refine keeps_bind (vcheck_keeps h) fun a1 k1 => ?_
  refine keeps_bind (tileHandle_keeps h) fun a2 k2 => ?_
  split
  · exact keeps_ok (advance_form h)
  · refine keeps_bind (tableRoom_keeps h) fun a3 k3 => ?_
    split
    · next e1 => exact keeps_ok (advance_form (enterTable_form (of_snd e1 (fresh_form h))))

theorem execTst_goes {c : BitVec 3} {ty : Ty} {rnd : Rnd} {sat : Bool} {d : VReg} {a : SReg} {s : State} : Goes s (execTst c ty rnd sat d a s) := by
  unfold execTst
  extract_lets mode1 draws1 rs1 fl1
  refine finish_goes id fun h => ?_
  refine keeps_bind (vcheck_keeps h) fun a1 k1 => ?_
  refine keeps_bind (tileHandle_keeps h) fun a2 k2 => ?_
  split
  · refine keeps_ok (advance_form ?_)
    unfold draws1
    split
    · exact drawn_form h
    · exact h
  · refine keeps_bind (tableRoom_keeps h) fun a3 k3 => ?_
    split
    · next e1 =>
      refine keeps_ok (advance_form (enterTable_form (orFlags_form ?_)))
      unfold draws1
      split
      · exact drawn_form (of_snd e1 (fresh_form h))
      · exact of_snd e1 (fresh_form h)

theorem applyQuarter_form {s : State} {e : TabEntry} {ty : Ty} {fus : ℕ} {quads gens rows tiles : List ℕ} {sigma : Option W32} {a : List
    (List W32)} (h : memoryForm s) :
    memoryForm (s.applyQuarter e ty fus quads gens rows tiles sigma a) := by
  unfold State.applyQuarter
  extract_lets sg1 planes1 useOf1 old1 cells1 s1 fl1
  split
  · exact setGang_form h
  · refine forGroups_form (fun u1 h1 => ?_) (setGang_form h)
    exact orFlags_form h1

theorem leaveTable_form {s : State} {i : ℕ} (h : memoryForm s) : memoryForm (s.leaveTable i) :=
  form_same h rfl rfl

theorem execLdstatLoadEnd_goes {i : ℕ} {s : State} : Goes s (execLdstatLoadEnd i s) := by
  unfold execLdstatLoadEnd
  split
  · exact goes_next id
  · split
    · split
      · exact goes_next id
      · extract_lets s1 put1 g1 bytes1 nb1 bad1 s2
        split
        · exact goes_next fun h => setPair_form (leaveTable_form h)
        · split
          · exact goes_next fun h => resolve_form (setPair_form (leaveTable_form h))
          · exact goes_next fun h => resolve_form (unflip_form (setPair_form (leaveTable_form h)))
    · exact goes_next id

theorem execSwapEffect_goes {i : ℕ} {s : State} : Goes s (execSwapEffect i s) := by
  unfold execSwapEffect
  split
  · exact goes_next id
  · split
    · split
      · exact goes_next id
      · exact goes_next fun h => setPair_form (leaveTable_form h)
    · exact goes_next id

theorem execMatrixPassGrant_goes {i : ℕ} {s : State} : Goes s (execMatrixPassGrant i s) := by
  unfold execMatrixPassGrant
  split
  · exact goes_next id
  · extract_lets rank1 before1 pass1
    split
    · exact goes_next id
    · exact goes_next fun h => form_same h rfl rfl

theorem execMatrixEntryApplied_goes {i : ℕ} {s : State} : Goes s (execMatrixEntryApplied i s) := by
  unfold execMatrixEntryApplied
  split
  · exact goes_next id
  · split
    · split
      · exact goes_next fun h => applyQuarter_form (leaveTable_form h)
      · exact goes_next id
    · exact goes_next id

theorem execTileStoreServe_goes {i : ℕ} {s : State} : Goes s (execTileStoreServe i s) := by
  unfold execTileStoreServe
  split
  · exact goes_next id
  · split
    · exact goes_next id
    · extract_lets old1 t1
      split
      · exact goes_next fun h => setGang_form (leaveTable_form h)
      · extract_lets ls1 cells1
        exact goes_next fun h => setGang_form (leaveTable_form h)
      · refine goes_next fun h => forGroups_form (fun u1 h1 => ?_) (leaveTable_form h)
        exact setGrp_form h1
      · exact goes_next id

/-! ### Power and service -/

theorem quiesce_form {s : State} {d : ℕ} (h : memoryForm s) : memoryForm (s.quiesce d) :=
  form_same (s := (s.cleanPart fun x => x.die == d).ackAll fun x => x.die == d) (ackAll_form (cleanPart_form h)) rfl rfl

theorem execPowerStateChange_goes {u : PowerUnit} {s : State} : Goes s (execPowerStateChange u s) := by
  unfold execPowerStateChange
  split
  · exact goes_next id
  · split
    · extract_lets x1 w1 s1
      split
      · exact goes_next id
      · split
        · split
          · exact goes_next id
          · refine goes_next fun h => setDie_form ?_
            unfold s1
            split
            · exact quiesce_form h
            · exact h
        · exact goes_next fun h => beginExit_form h
    · extract_lets x2 now1 w2
      split
      · exact goes_next id
      · split
        · split
          · exact goes_next id
          · exact goes_next fun h => setDie_form h
        · exact goes_next fun h => beginExit_form h
    · split
      · refine goes_next fun h => ?_
        split
        · exact h
        · exact beginExit_form h
      · split
        · exact goes_next fun h => form_same h rfl rfl
        · exact goes_next id

theorem execPowerExitComplete_goes {u : PowerUnit} {s : State} : Goes s (execPowerExitComplete u s) := by
  unfold execPowerExitComplete
  split
  · exact goes_next id
  · extract_lets t1
    split
    · extract_lets x1
      split
      · exact goes_next id
      · exact goes_next fun h => setDie_form (form_same h rfl rfl)
    · split
      · exact goes_next id
      · exact goes_next fun h => setDie_form (form_same h rfl rfl)
    · exact goes_next fun h => form_same h rfl rfl

theorem execPowerStateNotice_goes {die quad : ℕ} {enter : Bool} {s : State} : Goes s (execPowerStateNotice die quad enter s) := by
  unfold execPowerStateNotice
  extract_lets x1 stops1 returns1
  split
  · exact goes_next id
  · split
    · refine goes_next fun h => ?_
      split
      · exact setDie_form h
      · exact h
    · refine goes_next fun h => ?_
      split
      · exact setDie_form h
      · exact h

theorem execThrottling_goes {die mhz : ℕ} {s : State} : Goes s (execThrottling die mhz s) := by
  unfold execThrottling
  refine goes_next fun h => ?_
  split
  · exact setDie_form h
  · exact h

theorem zeroMemory_form {s : State} (h : memoryForm s) : memoryForm s.zeroMemory := by
  refine ⟨?_, h.2⟩
  unfold State.zeroMemory
  dsimp only
  split
  · exact memFilter_wf _ _ h.1
  · rfl

theorem execPowerGood_goes {s : State} : Goes s (execPowerGood s) := by
  unfold execPowerGood
  split
  · refine goes_next fun h => ?_
    split
    · exact form_same h rfl rfl
    · exact h
  · exact goes_next fun h => form_same (s := s.zeroMemory) (zeroMemory_form h) rfl rfl
  · exact goes_next fun h => form_same h rfl rfl
  · exact goes_next fun h => form_same h rfl rfl
  · exact goes_next id

theorem execCalibrationEnd_goes {die : ℕ} {s : State} : Goes s (execCalibrationEnd die s) := by
  unfold execCalibrationEnd
  extract_lets x1
  split
  · exact goes_next id
  · exact goes_next fun h => tell_form (setDie_form h)

theorem terminateBy_form {s : State} {vf part : ℕ} {record : List W64} (h : memoryForm s) : memoryForm (s.terminateBy vf part record) :=
  terminate_form h

theorem execDieFailure_goes {die : ℕ} {s : State} : Goes s (execDieFailure die s) := by
  unfold execDieFailure
  split
  · exact goes_next id
  · extract_lets parts1 held1 hit1 v1 record1 waits1 t1 t2 shut1 t3 t4
    refine goes_next fun h => setDie_form ?_
    refine form_foldl (fun u1 x1 h1 => ?_) (form_same (s := t2) ?_ rfl rfl)
    · exact reshare_form h1
    · refine form_foldl (fun u2 x2 h2 => ?_) (form_same h rfl rfl)
      exact terminateBy_form h2

theorem execRootTakeover_goes {lost : ℕ} {s : State} : Goes s (execRootTakeover lost s) := by
  unfold execRootTakeover
  split
  · exact goes_next id
  · extract_lets s1 f1 s2 mine1 tag1
    split
    · exact goes_next fun h => form_same h rfl rfl
    · exact goes_next fun h => respond_form (form_same h rfl rfl)

/-- Memory written and nothing else of the two memories changed. -/
theorem form_memWrite {s t : State} {a : ℕ} {bs : List Byte} (h : memoryForm s) (hm : t.mem = memWrite s.mem a bs) (hh : t.hmem = s.hmem) :
    memoryForm t := by
  obtain ⟨mem, hmem⟩ := h
  exact ⟨hm ▸ memWrite_wf _ _ _ mem, hh ▸ hmem⟩

theorem execFatalError_goes {cls : ℕ} {s : State} : Goes s (execFatalError cls s) := by
  unfold execFatalError
  split
  · exact goes_next id
  · extract_lets ss may
    generalize dumpImage s.time cls ss = bs
    refine goes_next fun h => tell_form ?_
    exact form_memWrite (s := s) (a := Config.dumpBase) (bs := bs) h rfl rfl

theorem execPackageReset_goes {s : State} : Goes s (execPackageReset s) :=
  goes_next fun h => ⟨memFilter_wf _ _ h.1, h.2⟩

/-! ### Predicates -/

theorem predWrite_goes {s : State} {words : ℕ} {g : Option Guard} {d : PReg} {v : LaneMask} : Goes s (predWrite s words g d v) := by
  unfold predWrite
  extract_lets m1
  exact goes_next fun h => advance_form (setRp_form h)

theorem ppackOp_goes {s : State} {words : ℕ} {g : Option Guard} {d : VReg} : Goes s (ppackOp s words g d) := by
  unfold ppackOp
  exact vecInt_goes

theorem punpkOp_goes {s : State} {words : ℕ} {g : Option Guard} {a : VReg} : Goes s (punpkOp s words g a) := by
  unfold punpkOp
  refine finish_goes id fun h => ?_
  refine keeps_bind (vcheck_keeps h) fun a1 k1 => ?_
  extract_lets m1 v1
  exact keeps_ok (advance_form (setGrp_form h))

theorem execPand_goes {nb : Bool} {d a b : PReg} {s : State} : Goes s (execPand nb d a b s) := by
  unfold execPand
  exact predWrite_goes

theorem execPandW1_goes {g : Option Guard} {nb : Bool} {d a b : PReg} {s : State} : Goes s (execPandW1 g nb d a b s) := by
  unfold execPandW1
  exact predWrite_goes

theorem execPor_goes {nb : Bool} {d a b : PReg} {s : State} : Goes s (execPor nb d a b s) := by
  unfold execPor
  exact predWrite_goes

theorem execPorW1_goes {g : Option Guard} {nb : Bool} {d a b : PReg} {s : State} : Goes s (execPorW1 g nb d a b s) := by
  unfold execPorW1
  exact predWrite_goes

theorem execPxor_goes {nb : Bool} {d a b : PReg} {s : State} : Goes s (execPxor nb d a b s) := by
  unfold execPxor
  exact predWrite_goes

theorem execPxorW1_goes {g : Option Guard} {nb : Bool} {d a b : PReg} {s : State} : Goes s (execPxorW1 g nb d a b s) := by
  unfold execPxorW1
  exact predWrite_goes

theorem execPnot_goes {d a : PReg} {s : State} : Goes s (execPnot d a s) := by
  unfold execPnot
  exact predWrite_goes

theorem execPnotW1_goes {g : Option Guard} {d a : PReg} {s : State} : Goes s (execPnotW1 g d a s) := by
  unfold execPnotW1
  exact predWrite_goes

theorem execPmov_goes {d a : PReg} {s : State} : Goes s (execPmov d a s) := by
  unfold execPmov
  exact predWrite_goes

theorem execPmovW1_goes {g : Option Guard} {d a : PReg} {s : State} : Goes s (execPmovW1 g d a s) := by
  unfold execPmovW1
  exact predWrite_goes

theorem execPpack_goes {d : VReg} {s : State} : Goes s (execPpack d s) := by
  unfold execPpack
  exact ppackOp_goes

theorem execPpackW1_goes {g : Option Guard} {d : VReg} {s : State} : Goes s (execPpackW1 g d s) := by
  unfold execPpackW1
  exact ppackOp_goes

theorem execPunpk_goes {a : VReg} {s : State} : Goes s (execPunpk a s) := by
  unfold execPunpk
  exact punpkOp_goes

theorem execPunpkW1_goes {g : Option Guard} {a : VReg} {s : State} : Goes s (execPunpkW1 g a s) := by
  unfold execPunpkW1
  exact punpkOp_goes

theorem execPany_goes {d : SReg} {a : PReg} {s : State} : Goes s (execPany d a s) := by
  unfold execPany
  exact scalarOp_goes

theorem execPall_goes {d : SReg} {a : PReg} {s : State} : Goes s (execPall d a s) := by
  unfold execPall
  exact scalarOp_goes

/-! ### Random numbers -/

theorem rngOp_goes {s : State} {words : ℕ} {g : Option Guard} {unit : Bool} {d : VReg} : Goes s (rngOp s words g unit d) := by
  unfold rngOp
  refine finish_goes id fun h => ?_
  refine keeps_bind (vcheck_keeps h) fun a1 k1 => ?_
  extract_lets t1
  exact keeps_ok (advance_form (drawn_form (vput_form h)))

theorem execRngseed_goes {a b : SReg} {s : State} : Goes s (execRngseed a b s) := by
  unfold execRngseed
  exact goes_next fun h => advance_form (setGrp_form h)

theorem execRng_goes {unit : Bool} {d : VReg} {s : State} : Goes s (execRng unit d s) := by
  unfold execRng
  exact rngOp_goes

theorem execRngW1_goes {g : Option Guard} {unit : Bool} {d : VReg} {s : State} : Goes s (execRngW1 g unit d s) := by
  unfold execRngW1
  exact rngOp_goes

theorem execRngskip_goes {a : SReg} {s : State} : Goes s (execRngskip a s) := by
  unfold execRngskip
  exact goes_next fun h => advance_form (setGrp_form h)

/-! ### Scalars -/

theorem execSadd_goes {d a b : SReg} {s : State} : Goes s (execSadd d a b s) := by
  unfold execSadd
  exact scalarOp_goes

theorem execSaddLit_goes {d a : SReg} {lit : W64} {s : State} : Goes s (execSaddLit d a lit s) := by
  unfold execSaddLit
  exact scalarOp_goes

theorem execSaddImm_goes {d a : SReg} {i : BitVec 10} {s : State} : Goes s (execSaddImm d a i s) := by
  unfold execSaddImm
  exact scalarOp_goes

theorem execSsub_goes {d a b : SReg} {s : State} : Goes s (execSsub d a b s) := by
  unfold execSsub
  exact scalarOp_goes

theorem execSsubLit_goes {d a : SReg} {lit : W64} {s : State} : Goes s (execSsubLit d a lit s) := by
  unfold execSsubLit
  exact scalarOp_goes

theorem execSmul_goes {d a b : SReg} {s : State} : Goes s (execSmul d a b s) := by
  unfold execSmul
  exact scalarOp_goes

theorem execSmulLit_goes {d a : SReg} {lit : W64} {s : State} : Goes s (execSmulLit d a lit s) := by
  unfold execSmulLit
  exact scalarOp_goes

theorem execSmulh_goes {u : Bool} {d a b : SReg} {s : State} : Goes s (execSmulh u d a b s) := by
  unfold execSmulh
  exact scalarOp_goes

theorem execSmulhLit_goes {u : Bool} {d a : SReg} {lit : W64} {s : State} : Goes s (execSmulhLit u d a lit s) := by
  unfold execSmulhLit
  exact scalarOp_goes

theorem execSand_goes {d a b : SReg} {s : State} : Goes s (execSand d a b s) := by
  unfold execSand
  exact scalarOp_goes

theorem execSandLit_goes {d a : SReg} {lit : W64} {s : State} : Goes s (execSandLit d a lit s) := by
  unfold execSandLit
  exact scalarOp_goes

theorem execSandImm_goes {d a : SReg} {i : BitVec 10} {s : State} : Goes s (execSandImm d a i s) := by
  unfold execSandImm
  exact scalarOp_goes

theorem execSor_goes {d a b : SReg} {s : State} : Goes s (execSor d a b s) := by
  unfold execSor
  exact scalarOp_goes

theorem execSorLit_goes {d a : SReg} {lit : W64} {s : State} : Goes s (execSorLit d a lit s) := by
  unfold execSorLit
  exact scalarOp_goes

theorem execSorImm_goes {d a : SReg} {i : BitVec 10} {s : State} : Goes s (execSorImm d a i s) := by
  unfold execSorImm
  exact scalarOp_goes

theorem execSxor_goes {d a b : SReg} {s : State} : Goes s (execSxor d a b s) := by
  unfold execSxor
  exact scalarOp_goes

theorem execSxorLit_goes {d a : SReg} {lit : W64} {s : State} : Goes s (execSxorLit d a lit s) := by
  unfold execSxorLit
  exact scalarOp_goes

theorem execSxorImm_goes {d a : SReg} {i : BitVec 10} {s : State} : Goes s (execSxorImm d a i s) := by
  unfold execSxorImm
  exact scalarOp_goes

theorem execSshl_goes {d a b : SReg} {s : State} : Goes s (execSshl d a b s) := by
  unfold execSshl
  exact scalarOp_goes

theorem execSshlImm_goes {d a : SReg} {i : BitVec 6} {s : State} : Goes s (execSshlImm d a i s) := by
  unfold execSshlImm
  exact scalarOp_goes

theorem execSshr_goes {d a b : SReg} {s : State} : Goes s (execSshr d a b s) := by
  unfold execSshr
  exact scalarOp_goes

theorem execSshrImm_goes {d a : SReg} {i : BitVec 6} {s : State} : Goes s (execSshrImm d a i s) := by
  unfold execSshrImm
  exact scalarOp_goes

theorem execSsra_goes {d a b : SReg} {s : State} : Goes s (execSsra d a b s) := by
  unfold execSsra
  exact scalarOp_goes

theorem execSsraImm_goes {d a : SReg} {i : BitVec 6} {s : State} : Goes s (execSsraImm d a i s) := by
  unfold execSsraImm
  exact scalarOp_goes

theorem execSmin_goes {u : Bool} {d a b : SReg} {s : State} : Goes s (execSmin u d a b s) := by
  unfold execSmin
  exact scalarOp_goes

theorem execSminLit_goes {u : Bool} {d a : SReg} {lit : W64} {s : State} : Goes s (execSminLit u d a lit s) := by
  unfold execSminLit
  exact scalarOp_goes

theorem execSmax_goes {u : Bool} {d a b : SReg} {s : State} : Goes s (execSmax u d a b s) := by
  unfold execSmax
  exact scalarOp_goes

theorem execSmaxLit_goes {u : Bool} {d a : SReg} {lit : W64} {s : State} : Goes s (execSmaxLit u d a lit s) := by
  unfold execSmaxLit
  exact scalarOp_goes

theorem execScmp_goes {cc : Cmp} {d a b : SReg} {s : State} : Goes s (execScmp cc d a b s) := by
  unfold execScmp
  exact scalarOp_goes

theorem execScmpLit_goes {cc : Cmp} {d a : SReg} {lit : W64} {s : State} : Goes s (execScmpLit cc d a lit s) := by
  unfold execScmpLit
  exact scalarOp_goes

theorem execSsel_goes {d a b c : SReg} {s : State} : Goes s (execSsel d a b c s) := by
  unfold execSsel
  exact scalarOp_goes

theorem execSmov_goes {d a : SReg} {s : State} : Goes s (execSmov d a s) := by
  unfold execSmov
  exact scalarOp_goes

theorem execSliW2_goes {d : SReg} {w : W32} {s : State} : Goes s (execSliW2 d w s) := by
  unfold execSliW2
  exact scalarOp_goes

theorem execSliLit_goes {d : SReg} {lit : W64} {s : State} : Goes s (execSliLit d lit s) := by
  unfold execSliLit
  exact scalarOp_goes

theorem execSliImm_goes {d : SReg} {i : BitVec 10} {s : State} : Goes s (execSliImm d i s) := by
  unfold execSliImm
  exact scalarOp_goes

theorem execSpopc_goes {d a : SReg} {s : State} : Goes s (execSpopc d a s) := by
  unfold execSpopc
  exact scalarOp_goes

theorem execSclz_goes {d a : SReg} {s : State} : Goes s (execSclz d a s) := by
  unfold execSclz
  exact scalarOp_goes

theorem execSbfe_goes {signed : Bool} {d a : SReg} {pos width : BitVec 8} {s : State} : Goes s (execSbfe signed d a pos width s) := by
  unfold execSbfe
  exact scalarOp_goes

theorem execSbfi_goes {d a : SReg} {pos width : BitVec 8} {s : State} : Goes s (execSbfi d a pos width s) := by
  unfold execSbfi
  exact scalarOp_goes

/-! ### Special functions -/

theorem sfuIssue_goes {fn : ℕ} {s : State} {words : ℕ} {g : Option Guard} {d a : VReg} : Goes s (sfuIssue fn s words g d a) := by
  unfold sfuIssue
  refine finish_goes id fun h => ?_
  refine keeps_bind (vcheck_keeps h) fun a1 k1 => ?_
  extract_lets m1 x1
  split
  · exact keeps_ok (advance_form h)
  · split
    · next e1 =>
      extract_lets e2 t1
      exact keeps_ok (advance_form (orFlags_form (setGrp_form (of_snd e1 (fresh_form h)))))

theorem execXrcp_goes {d a : VReg} {s : State} : Goes s (execXrcp d a s) := by
  unfold execXrcp
  exact sfuIssue_goes

theorem execXrcpW1_goes {g : Option Guard} {d a : VReg} {s : State} : Goes s (execXrcpW1 g d a s) := by
  unfold execXrcpW1
  exact sfuIssue_goes

theorem execXrsq_goes {d a : VReg} {s : State} : Goes s (execXrsq d a s) := by
  unfold execXrsq
  exact sfuIssue_goes

theorem execXrsqW1_goes {g : Option Guard} {d a : VReg} {s : State} : Goes s (execXrsqW1 g d a s) := by
  unfold execXrsqW1
  exact sfuIssue_goes

theorem execXsqrt_goes {d a : VReg} {s : State} : Goes s (execXsqrt d a s) := by
  unfold execXsqrt
  exact sfuIssue_goes

theorem execXsqrtW1_goes {g : Option Guard} {d a : VReg} {s : State} : Goes s (execXsqrtW1 g d a s) := by
  unfold execXsqrtW1
  exact sfuIssue_goes

theorem execXexp2_goes {d a : VReg} {s : State} : Goes s (execXexp2 d a s) := by
  unfold execXexp2
  exact sfuIssue_goes

theorem execXexp2W1_goes {g : Option Guard} {d a : VReg} {s : State} : Goes s (execXexp2W1 g d a s) := by
  unfold execXexp2W1
  exact sfuIssue_goes

theorem execXlog2_goes {d a : VReg} {s : State} : Goes s (execXlog2 d a s) := by
  unfold execXlog2
  exact sfuIssue_goes

theorem execXlog2W1_goes {g : Option Guard} {d a : VReg} {s : State} : Goes s (execXlog2W1 g d a s) := by
  unfold execXlog2W1
  exact sfuIssue_goes

theorem execXsin_goes {d a : VReg} {s : State} : Goes s (execXsin d a s) := by
  unfold execXsin
  exact sfuIssue_goes

theorem execXsinW1_goes {g : Option Guard} {d a : VReg} {s : State} : Goes s (execXsinW1 g d a s) := by
  unfold execXsinW1
  exact sfuIssue_goes

theorem execXcos_goes {d a : VReg} {s : State} : Goes s (execXcos d a s) := by
  unfold execXcos
  exact sfuIssue_goes

theorem execXcosW1_goes {g : Option Guard} {d a : VReg} {s : State} : Goes s (execXcosW1 g d a s) := by
  unfold execXcosW1
  exact sfuIssue_goes

theorem execXtanh_goes {d a : VReg} {s : State} : Goes s (execXtanh d a s) := by
  unfold execXtanh
  exact sfuIssue_goes

theorem execXtanhW1_goes {g : Option Guard} {d a : VReg} {s : State} : Goes s (execXtanhW1 g d a s) := by
  unfold execXtanhW1
  exact sfuIssue_goes

/-! ### System registers and traps -/

theorem sysWrite_keeps {s : State} {r : SysReg} {v : W64} (h : memoryForm s) : Keeps memoryForm (s.sysWrite r v) := by
  unfold State.sysWrite
  extract_lets aligned
  have ok : Keeps (fun _ => True) aligned := keeps_must
  clear_value aligned
  cases r with
  | sp => exact keeps_bind ok fun _ _ => keeps_ok (setSlot_form h)
  | sl =>
    refine keeps_bind ok fun _ _ => ?_
    generalize (4096 : W64) = n
    refine keeps_bind keeps_must fun _ _ => ?_
    exact keeps_ok (setGrp_form h)
  | tfp => exact keeps_bind ok fun _ _ => keeps_ok (setGrp_form h)
  | rngk => exact keeps_ok (setGrp_form h)
  | rngc => exact keeps_ok (setGrp_form h)
  | fmode => exact keeps_bind keeps_must fun _ _ => keeps_ok (setGrp_form h)
  | _ => exact keeps_illegal

theorem execSget_goes {d : SReg} {r : SysReg} {s : State} : Goes s (execSget d r s) := by
  unfold execSget
  exact scalarOp_goes

theorem execSset_goes {r : SysReg} {a : SReg} {s : State} : Goes s (execSset r a s) := by
  unfold execSset
  refine finish_goes id fun h => ?_
  refine keeps_bind (sysWrite_keeps h) fun a1 k1 => ?_
  exact keeps_ok (advance_form k1)

theorem execExget_goes {d : SReg} {s : State} : Goes s (execExget d s) := by
  unfold execExget
  exact scalarOp_goes

theorem execExset_goes {a : SReg} {s : State} : Goes s (execExset a s) := by
  unfold execExset
  extract_lets x1 m1
  refine finish_goes id fun h => ?_
  split
  · exact keeps_ok (advance_form h)
  · split
    · exact keeps_illegal
    · split
      · exact keeps_illegal
      · refine keeps_bind (pushCoil_keeps h) fun a1 k1 => ?_
        exact keeps_ok (advance_form (setSlot_form k1))

theorem execTget_goes {d : SReg} {n : BitVec 9} {s : State} : Goes s (execTget d n s) := by
  unfold execTget
  refine finish_goes id fun h => ?_
  split
  · exact keeps_illegal
  · split
    · exact keeps_hold (park_form h)
    · extract_lets a1
      split
      · next e1 => exact keeps_ok (advance_form (setRs_form (of_snd e1 (grpRead_form h))))
      · exact keeps_raise

theorem execRett_goes {s : State} : Goes s (execRett s) := by
  unfold execRett
  refine finish_goes id fun h => ?_
  exact returnTrap_keeps h

theorem execRdtime_goes {d : SReg} {s : State} : Goes s (execRdtime d s) := by
  unfold execRdtime
  split
  · exact goes_next fun h => advance_form (setRs_form h)
  · exact goes_next fun h => park_form h

theorem execWaitc_goes {m : BitVec 4} {s : State} : Goes s (execWaitc m s) := by
  unfold execWaitc
  split
  · exact goes_next fun h => advance_form h
  · exact goes_next fun h => park_form h

theorem execSleep_goes {d a : SReg} {s : State} : Goes s (execSleep d a s) := by
  unfold execSleep
  split
  · exact goes_next fun h => advance_form (setRs_form h)
  · exact goes_next fun h => park_form h

theorem wakeUp_form {s : State} {d : SReg} (h : memoryForm s) : memoryForm (s.wakeUp d) := by
  unfold State.wakeUp
  extract_lets t1 t2
  split
  · exact advance_form (setRs_form h)
  · split
    · exact jump_form (setSlot_form (setRs_form h))
    · exact park_form (setSlot_form (setRs_form h))

theorem execSleepDeadline_goes {s : State} : Goes s (execSleepDeadline s) := by
  unfold execSleepDeadline
  split
  · split
    · exact goes_next id
    · split
      · split
        · exact execBundleDecode_goes
        · exact execInstructionCacheMiss_goes
      · split
        · exact goes_next fun h => wakeUp_form h
        · exact goes_next id
  · exact goes_next id

/-! ### Floating-point lanes -/

theorem fpTwo_goes {s : State} {words : ℕ} {g : Option Guard} {t : Ty} {rnd : Rnd} {d a : VReg} {b : Src} {f : Rnd → Fp → Fp → Fp × Flags} :
    Goes s (fpTwo s words g t rnd d a b f) := by
  unfold fpTwo
  extract_lets n1 fm1
  exact vecRound_goes

theorem fpThree_goes {s : State} {words : ℕ} {g : Option Guard} {t : Ty} {rnd : Rnd} {np na : Bool} {d a : VReg} {b : Src} {c : VReg} :
    Goes s (fpThree s words g t rnd np na d a b c) := by
  unfold fpThree
  extract_lets n1 fm1
  exact vecRound_goes

theorem execFadd_goes {sc : Bool} {d a b : VReg} {s : State} : Goes s (execFadd sc d a b s) := by
  unfold execFadd
  exact fpTwo_goes

theorem execFaddW1_goes {g : Option Guard} {t : Ty} {rnd : Rnd} {sc : Bool} {d a b : VReg} {s : State} : Goes s (execFaddW1 g t rnd sc d a b s) := by
  unfold execFaddW1
  exact fpTwo_goes

theorem execFsub_goes {sc : Bool} {d a b : VReg} {s : State} : Goes s (execFsub sc d a b s) := by
  unfold execFsub
  exact fpTwo_goes

theorem execFsubW1_goes {g : Option Guard} {t : Ty} {rnd : Rnd} {sc : Bool} {d a b : VReg} {s : State} : Goes s (execFsubW1 g t rnd sc d a b s) := by
  unfold execFsubW1
  exact fpTwo_goes

theorem execFmul_goes {sc : Bool} {d a b : VReg} {s : State} : Goes s (execFmul sc d a b s) := by
  unfold execFmul
  exact fpTwo_goes

theorem execFmulW1_goes {g : Option Guard} {t : Ty} {rnd : Rnd} {sc : Bool} {d a b : VReg} {s : State} : Goes s (execFmulW1 g t rnd sc d a b s) := by
  unfold execFmulW1
  exact fpTwo_goes

theorem execFfma_goes {np na sc : Bool} {d a b : VReg} {s : State} : Goes s (execFfma np na sc d a b s) := by
  unfold execFfma
  exact fpThree_goes

theorem execFfmaW1_goes {g : Option Guard} {t : Ty} {rnd : Rnd} {np na sc : Bool} {d a b c : VReg} {s : State} :
    Goes s (execFfmaW1 g t rnd np na sc d a b c s) := by
  unfold execFfmaW1
  exact fpThree_goes

theorem fpMinMax_goes {s : State} {words : ℕ} {g : Option Guard} {t : Ty} {isMax num : Bool} {d a b : VReg} :
    Goes s (fpMinMax s words g t isMax num d a b) := by
  unfold fpMinMax
  extract_lets n1
  exact vecOp_goes

theorem execFmin_goes {num : Bool} {d a b : VReg} {s : State} : Goes s (execFmin num d a b s) := by
  unfold execFmin
  exact fpMinMax_goes

theorem execFminW1_goes {g : Option Guard} {t : Ty} {num : Bool} {d a b : VReg} {s : State} : Goes s (execFminW1 g t num d a b s) := by
  unfold execFminW1
  exact fpMinMax_goes

theorem execFmax_goes {num : Bool} {d a b : VReg} {s : State} : Goes s (execFmax num d a b s) := by
  unfold execFmax
  exact fpMinMax_goes

theorem execFmaxW1_goes {g : Option Guard} {t : Ty} {num : Bool} {d a b : VReg} {s : State} : Goes s (execFmaxW1 g t num d a b s) := by
  unfold execFmaxW1
  exact fpMinMax_goes

theorem execFcmp_goes {g : Option Guard} {t : Ty} {cc : FCmp} {sc : Bool} {d : PReg} {a b : VReg} {s : State} :
    Goes s (execFcmp g t cc sc d a b s) := by
  unfold execFcmp
  extract_lets n1 fm1
  exact predOp_goes

theorem fpClass_goes {s : State} {words : ℕ} {g : Option Guard} {t : Ty} {d a : VReg} : Goes s (fpClass s words g t d a) := by
  unfold fpClass
  exact vecInt_goes

theorem execFclass_goes {d a : VReg} {s : State} : Goes s (execFclass d a s) := by
  unfold execFclass
  exact fpClass_goes

theorem execFclassW1_goes {g : Option Guard} {t : Ty} {d a : VReg} {s : State} : Goes s (execFclassW1 g t d a s) := by
  unfold execFclassW1
  exact fpClass_goes

theorem execFrnd_goes {g : Option Guard} {t : Ty} {rnd : Rnd} {d a : VReg} {s : State} : Goes s (execFrnd g t rnd d a s) := by
  unfold execFrnd
  exact vecRound_goes

theorem execCvt_goes {g : Option Guard} {t : Ty} {rnd : Rnd} {sat : Bool} {src : Ty} {d a : VReg} {s : State} :
    Goes s (execCvt g t rnd sat src d a s) := by
  unfold execCvt
  exact vecRound_goes

theorem packed_goes {s : State} {words : ℕ} {g : Option Guard} {t : Ty} {rnd : Rnd} {d a b : VReg} {c : Option VReg}
    {f : Rnd → Fp → Fp → Fp → Fp × Flags} :
    Goes s (packed s words g t rnd d a b c f) := by
  unfold packed
  extract_lets fm1 reads1 el1
  exact vecRound_goes

theorem execPkadd_goes {d a b : VReg} {s : State} : Goes s (execPkadd d a b s) := by
  unfold execPkadd
  exact packed_goes

theorem execPkaddW1_goes {g : Option Guard} {t : Ty} {rnd : Rnd} {d a b : VReg} {s : State} : Goes s (execPkaddW1 g t rnd d a b s) := by
  unfold execPkaddW1
  exact packed_goes

theorem execPkmul_goes {d a b : VReg} {s : State} : Goes s (execPkmul d a b s) := by
  unfold execPkmul
  exact packed_goes

theorem execPkmulW1_goes {g : Option Guard} {t : Ty} {rnd : Rnd} {d a b : VReg} {s : State} : Goes s (execPkmulW1 g t rnd d a b s) := by
  unfold execPkmulW1
  exact packed_goes

theorem execPkfma_goes {d a b : VReg} {s : State} : Goes s (execPkfma d a b s) := by
  unfold execPkfma
  exact packed_goes

theorem execPkfmaW1_goes {g : Option Guard} {t : Ty} {rnd : Rnd} {d a b c : VReg} {s : State} : Goes s (execPkfmaW1 g t rnd d a b c s) := by
  unfold execPkfmaW1
  exact packed_goes

/-! ### Integer lanes -/

theorem vecArith_goes {s : State} {words : ℕ} {g : Option Guard} {t : Ty} {sat : Bool} {d a : VReg} {b : Src} {f : ℤ → ℤ → ℤ} :
    Goes s (vecArith s words g t sat d a b f) := by
  unfold vecArith
  extract_lets n1
  exact vecInt_goes

theorem vecBits_goes {s : State} {words : ℕ} {g : Option Guard} {t : Ty} {d a : VReg} {b : Src} {f : ℕ → ℕ → ℕ → ℕ} :
    Goes s (vecBits s words g t d a b f) := by
  unfold vecBits
  extract_lets n1
  exact vecInt_goes

theorem execVadd_goes {sc : Bool} {d a b : VReg} {s : State} : Goes s (execVadd sc d a b s) := by
  unfold execVadd
  exact vecArith_goes

theorem execVaddW1_goes {g : Option Guard} {t : Ty} {sat sc : Bool} {d a b : VReg} {s : State} : Goes s (execVaddW1 g t sat sc d a b s) := by
  unfold execVaddW1
  exact vecArith_goes

theorem execVaddLit_goes {d a : VReg} {lit : W64} {s : State} : Goes s (execVaddLit d a lit s) := by
  unfold execVaddLit
  exact vecArith_goes

theorem execVaddLitW1_goes {g : Option Guard} {t : Ty} {sat : Bool} {d a : VReg} {lit : W64} {s : State} :
    Goes s (execVaddLitW1 g t sat d a lit s) := by
  unfold execVaddLitW1
  exact vecArith_goes

theorem execVaddImm_goes {d a : VReg} {i : BitVec 10} {s : State} : Goes s (execVaddImm d a i s) := by
  unfold execVaddImm
  exact vecArith_goes

theorem execVsub_goes {sc : Bool} {d a b : VReg} {s : State} : Goes s (execVsub sc d a b s) := by
  unfold execVsub
  exact vecArith_goes

theorem execVsubW1_goes {g : Option Guard} {t : Ty} {sat sc : Bool} {d a b : VReg} {s : State} : Goes s (execVsubW1 g t sat sc d a b s) := by
  unfold execVsubW1
  exact vecArith_goes

theorem execVsubLit_goes {d a : VReg} {lit : W64} {s : State} : Goes s (execVsubLit d a lit s) := by
  unfold execVsubLit
  exact vecArith_goes

theorem execVsubLitW1_goes {g : Option Guard} {t : Ty} {sat : Bool} {d a : VReg} {lit : W64} {s : State} :
    Goes s (execVsubLitW1 g t sat d a lit s) := by
  unfold execVsubLitW1
  exact vecArith_goes

theorem execVmul_goes {sc : Bool} {d a b : VReg} {s : State} : Goes s (execVmul sc d a b s) := by
  unfold execVmul
  exact vecArith_goes

theorem execVmulW1_goes {g : Option Guard} {t : Ty} {sat sc : Bool} {d a b : VReg} {s : State} : Goes s (execVmulW1 g t sat sc d a b s) := by
  unfold execVmulW1
  exact vecArith_goes

theorem execVmulLit_goes {d a : VReg} {lit : W64} {s : State} : Goes s (execVmulLit d a lit s) := by
  unfold execVmulLit
  exact vecArith_goes

theorem execVmulLitW1_goes {g : Option Guard} {t : Ty} {sat : Bool} {d a : VReg} {lit : W64} {s : State} :
    Goes s (execVmulLitW1 g t sat d a lit s) := by
  unfold execVmulLitW1
  exact vecArith_goes

theorem execVmulh_goes {u sc : Bool} {d a b : VReg} {s : State} : Goes s (execVmulh u sc d a b s) := by
  unfold execVmulh
  exact vecBits_goes

theorem execVmulhW1_goes {g : Option Guard} {t : Ty} {u sc : Bool} {d a b : VReg} {s : State} : Goes s (execVmulhW1 g t u sc d a b s) := by
  unfold execVmulhW1
  exact vecBits_goes

theorem execVmad_goes {g : Option Guard} {t : Ty} {sat sc : Bool} {d a b c : VReg} {s : State} : Goes s (execVmad g t sat sc d a b c s) := by
  unfold execVmad
  extract_lets n1 v1
  exact vecInt_goes

theorem execVaddc_goes {g : Option Guard} {t : Ty} {sc : Bool} {d a b : VReg} {c : PReg} {s : State} : Goes s (execVaddc g t sc d a b c s) := by
  unfold execVaddc
  extract_lets n1 sum1 m1 carry1
  refine finish_goes id fun h => ?_
  refine keeps_bind (vcheck_keeps h) fun a1 k1 => ?_
  exact keeps_ok (advance_form (setRp_form (vput_form h)))

theorem execVand_goes {sc : Bool} {d a b : VReg} {s : State} : Goes s (execVand sc d a b s) := by
  unfold execVand
  exact vecBits_goes

theorem execVandW1_goes {g : Option Guard} {t : Ty} {sc : Bool} {d a b : VReg} {s : State} : Goes s (execVandW1 g t sc d a b s) := by
  unfold execVandW1
  exact vecBits_goes

theorem execVandLit_goes {d a : VReg} {lit : W64} {s : State} : Goes s (execVandLit d a lit s) := by
  unfold execVandLit
  exact vecBits_goes

theorem execVandLitW1_goes {g : Option Guard} {t : Ty} {d a : VReg} {lit : W64} {s : State} : Goes s (execVandLitW1 g t d a lit s) := by
  unfold execVandLitW1
  exact vecBits_goes

theorem execVandImm_goes {d a : VReg} {i : BitVec 10} {s : State} : Goes s (execVandImm d a i s) := by
  unfold execVandImm
  exact vecBits_goes

theorem execVor_goes {sc : Bool} {d a b : VReg} {s : State} : Goes s (execVor sc d a b s) := by
  unfold execVor
  exact vecBits_goes

theorem execVorW1_goes {g : Option Guard} {t : Ty} {sc : Bool} {d a b : VReg} {s : State} : Goes s (execVorW1 g t sc d a b s) := by
  unfold execVorW1
  exact vecBits_goes

theorem execVorLit_goes {d a : VReg} {lit : W64} {s : State} : Goes s (execVorLit d a lit s) := by
  unfold execVorLit
  exact vecBits_goes

theorem execVorLitW1_goes {g : Option Guard} {t : Ty} {d a : VReg} {lit : W64} {s : State} : Goes s (execVorLitW1 g t d a lit s) := by
  unfold execVorLitW1
  exact vecBits_goes

theorem execVxor_goes {sc : Bool} {d a b : VReg} {s : State} : Goes s (execVxor sc d a b s) := by
  unfold execVxor
  exact vecBits_goes

theorem execVxorW1_goes {g : Option Guard} {t : Ty} {sc : Bool} {d a b : VReg} {s : State} : Goes s (execVxorW1 g t sc d a b s) := by
  unfold execVxorW1
  exact vecBits_goes

theorem execVxorLit_goes {d a : VReg} {lit : W64} {s : State} : Goes s (execVxorLit d a lit s) := by
  unfold execVxorLit
  exact vecBits_goes

theorem execVxorLitW1_goes {g : Option Guard} {t : Ty} {d a : VReg} {lit : W64} {s : State} : Goes s (execVxorLitW1 g t d a lit s) := by
  unfold execVxorLitW1
  exact vecBits_goes

theorem execVshl_goes {sc : Bool} {d a b : VReg} {s : State} : Goes s (execVshl sc d a b s) := by
  unfold execVshl
  exact vecBits_goes

theorem execVshlW1_goes {g : Option Guard} {t : Ty} {sc : Bool} {d a b : VReg} {s : State} : Goes s (execVshlW1 g t sc d a b s) := by
  unfold execVshlW1
  exact vecBits_goes

theorem execVshlImm_goes {d a : VReg} {i : BitVec 5} {s : State} : Goes s (execVshlImm d a i s) := by
  unfold execVshlImm
  exact vecBits_goes

theorem execVshr_goes {sc : Bool} {d a b : VReg} {s : State} : Goes s (execVshr sc d a b s) := by
  unfold execVshr
  exact vecBits_goes

theorem execVshrW1_goes {g : Option Guard} {t : Ty} {sc : Bool} {d a b : VReg} {s : State} : Goes s (execVshrW1 g t sc d a b s) := by
  unfold execVshrW1
  exact vecBits_goes

theorem execVshrImm_goes {d a : VReg} {i : BitVec 5} {s : State} : Goes s (execVshrImm d a i s) := by
  unfold execVshrImm
  exact vecBits_goes

theorem execVsra_goes {sc : Bool} {d a b : VReg} {s : State} : Goes s (execVsra sc d a b s) := by
  unfold execVsra
  exact vecBits_goes

theorem execVsraW1_goes {g : Option Guard} {t : Ty} {sc : Bool} {d a b : VReg} {s : State} : Goes s (execVsraW1 g t sc d a b s) := by
  unfold execVsraW1
  exact vecBits_goes

theorem execVsraImm_goes {d a : VReg} {i : BitVec 5} {s : State} : Goes s (execVsraImm d a i s) := by
  unfold execVsraImm
  exact vecBits_goes

theorem execVmin_goes {u sc : Bool} {d a b : VReg} {s : State} : Goes s (execVmin u sc d a b s) := by
  unfold execVmin
  exact vecBits_goes

theorem execVminW1_goes {g : Option Guard} {t : Ty} {u sc : Bool} {d a b : VReg} {s : State} : Goes s (execVminW1 g t u sc d a b s) := by
  unfold execVminW1
  exact vecBits_goes

theorem execVminLit_goes {u : Bool} {d a : VReg} {lit : W64} {s : State} : Goes s (execVminLit u d a lit s) := by
  unfold execVminLit
  exact vecBits_goes

theorem execVminLitW1_goes {g : Option Guard} {t : Ty} {u : Bool} {d a : VReg} {lit : W64} {s : State} : Goes s (execVminLitW1 g t u d a lit s) := by
  unfold execVminLitW1
  exact vecBits_goes

theorem execVmax_goes {u sc : Bool} {d a b : VReg} {s : State} : Goes s (execVmax u sc d a b s) := by
  unfold execVmax
  exact vecBits_goes

theorem execVmaxW1_goes {g : Option Guard} {t : Ty} {u sc : Bool} {d a b : VReg} {s : State} : Goes s (execVmaxW1 g t u sc d a b s) := by
  unfold execVmaxW1
  exact vecBits_goes

theorem execVmaxLit_goes {u : Bool} {d a : VReg} {lit : W64} {s : State} : Goes s (execVmaxLit u d a lit s) := by
  unfold execVmaxLit
  exact vecBits_goes

theorem execVmaxLitW1_goes {g : Option Guard} {t : Ty} {u : Bool} {d a : VReg} {lit : W64} {s : State} : Goes s (execVmaxLitW1 g t u d a lit s) := by
  unfold execVmaxLitW1
  exact vecBits_goes

theorem vecCount_goes {s : State} {words : ℕ} {g : Option Guard} {t : Ty} {d a : VReg} {f : ℕ → ℕ → ℕ} : Goes s (vecCount s words g t d a f) := by
  unfold vecCount
  exact vecInt_goes

theorem execVpopc_goes {d a : VReg} {s : State} : Goes s (execVpopc d a s) := by
  unfold execVpopc
  exact vecCount_goes

theorem execVpopcW1_goes {g : Option Guard} {t : Ty} {d a : VReg} {s : State} : Goes s (execVpopcW1 g t d a s) := by
  unfold execVpopcW1
  exact vecCount_goes

theorem execVclz_goes {d a : VReg} {s : State} : Goes s (execVclz d a s) := by
  unfold execVclz
  exact vecCount_goes

theorem execVclzW1_goes {g : Option Guard} {t : Ty} {d a : VReg} {s : State} : Goes s (execVclzW1 g t d a s) := by
  unfold execVclzW1
  exact vecCount_goes

theorem execVbfe_goes {g : Option Guard} {t : Ty} {signed : Bool} {d a : VReg} {pos width : BitVec 8} {s : State} :
    Goes s (execVbfe g t signed d a pos width s) := by
  unfold execVbfe
  exact vecInt_goes

theorem execVbfi_goes {g : Option Guard} {t : Ty} {d a : VReg} {pos width : BitVec 8} {s : State} : Goes s (execVbfi g t d a pos width s) := by
  unfold execVbfi
  exact vecInt_goes

theorem execVsel_goes {g : Option Guard} {t : Ty} {d a b : VReg} {c : PReg} {s : State} : Goes s (execVsel g t d a b c s) := by
  unfold execVsel
  extract_lets n1
  exact vecInt_goes

theorem vecMove_goes {s : State} {words : ℕ} {g : Option Guard} {t : Ty} {d : VReg} {a : Src} : Goes s (vecMove s words g t d a) := by
  unfold vecMove
  exact vecInt_goes

theorem execVmov_goes {sc : Bool} {d a : VReg} {s : State} : Goes s (execVmov sc d a s) := by
  unfold execVmov
  exact vecMove_goes

theorem execVmovW1_goes {g : Option Guard} {t : Ty} {sc : Bool} {d a : VReg} {s : State} : Goes s (execVmovW1 g t sc d a s) := by
  unfold execVmovW1
  exact vecMove_goes

theorem execVmovLit_goes {d : VReg} {lit : W64} {s : State} : Goes s (execVmovLit d lit s) := by
  unfold execVmovLit
  exact vecMove_goes

theorem execVmovLitW1_goes {g : Option Guard} {t : Ty} {d : VReg} {lit : W64} {s : State} : Goes s (execVmovLitW1 g t d lit s) := by
  unfold execVmovLitW1
  exact vecMove_goes

theorem execVcmp_goes {g : Option Guard} {t : Ty} {cc : Cmp} {sc : Bool} {d : PReg} {a b : VReg} {s : State} :
    Goes s (execVcmp g t cc sc d a b s) := by
  unfold execVcmp
  extract_lets n1
  exact predOp_goes

/-! ### Waiting -/

theorem waitCheck_keeps {s : State} {w : Waiting} (h : memoryForm s) : Keeps (fun _ => True) (s.waitCheck w) := by
  unfold State.waitCheck
  split
  · next e1 => exact keeps_hold (park_form (of_hold e1 (checkGlobal_keeps h)))
  · exact checkGlobal_keeps h

theorem waitRead_keeps {s : State} {w : Waiting} (h : memoryForm s) : Keeps memoryForm (s.waitRead w) := by
  unfold State.waitRead
  refine keeps_bind (waitCheck_keeps h) fun a1 k1 => ?_
  extract_lets ps1 s1
  refine keeps_bind (overlapsWait_keeps h) fun a2 k2 => ?_
  split
  · next e1 =>
    refine keeps_bind must_keeps fun a3 k3 => ?_
    extract_lets x1 t1
    split
    · refine keeps_ok ?_
      split
      · exact acquire_form (advance_form (setRs_form (of_thd e1 (loadLane_form (returnOverlaps_form h)))))
      · exact advance_form (setRs_form (of_thd e1 (loadLane_form (returnOverlaps_form h))))
    · exact keeps_ok (park_form (of_thd e1 (loadLane_form (returnOverlaps_form h))))

theorem waitOp_goes {s : State} {words : ℕ} {cc : Cmp} {sc : Scope} {ord : Order} {off : W32} {d a b : SReg} :
    Goes s (waitOp s words cc sc ord off d a b) := by
  unfold waitOp
  refine memFinish_goes id fun h => ?_
  exact waitRead_keeps h

theorem execWaita_goes {cc : Cmp} {d a b : SReg} {s : State} : Goes s (execWaita cc d a b s) := by
  unfold execWaita
  exact waitOp_goes

theorem execWaitaW1_goes {cc : Cmp} {sc : Scope} {ord : Order} {off : W32} {d a b : SReg} {s : State} :
    Goes s (execWaitaW1 cc sc ord off d a b s) := by
  unfold execWaitaW1
  exact waitOp_goes

theorem reread_goes {s : State} {w : Waiting} : Goes s (s.reread w) := by
  unfold State.reread
  split
  · exact goes_next id
  · obtain ⟨t, e, ht⟩ := memFinish_goes (s := s) (v := s) (r := s.waitRead w) id waitRead_keeps
    rw [e]
    exact goes_next fun h => paid_form h (ht h)

theorem execWaitaReread_goes {s : State} : Goes s (execWaitaReread s) := by
  unfold execWaitaReread
  split
  · split
    · exact goes_next id
    · exact reread_goes
  · exact goes_next id

theorem execWaitaPollTimeout_goes {s : State} : Goes s (execWaitaPollTimeout s) := by
  unfold execWaitaPollTimeout
  split
  · split
    · exact reread_goes
    · exact goes_next id
  · exact goes_next id

theorem wakeOp_goes {s : State} {words : ℕ} {sc : Scope} {ord : Order} {off : W32} {a : SReg} : Goes s (wakeOp s words sc ord off a) := by
  unfold wakeOp
  refine memFinish_goes id fun h => ?_
  extract_lets ea1
  refine keeps_bind (checkGlobal_keeps h) fun a1 k1 => ?_
  extract_lets p1 f1
  refine keeps_bind (releaseFor_keeps h) fun a2 k2 => ?_
  exact keeps_ok (advance_form (form_same k2 rfl rfl))

theorem execWake_goes {a : SReg} {s : State} : Goes s (execWake a s) := by
  unfold execWake
  exact wakeOp_goes

theorem execWakeW1_goes {sc : Scope} {ord : Order} {off : W32} {a : SReg} {s : State} : Goes s (execWakeW1 sc ord off a s) := by
  unfold execWakeW1
  exact wakeOp_goes

end Sys2Proof.Machine
end

section
/-! PROOFS. What the model's functions answer and that they keep the form of both memories: every instruction and event, issuing and one step. -/
namespace Sys2Proof.Machine
open Sys2Proof Sys2Proof.Statements

/-! ### Every instruction and event -/

theorem exec_goes {i : Instr} {s : State} : Goes s (exec i s) := by
  cases i with
  | sadd => exact execSadd_goes
  | saddLit => exact execSaddLit_goes
  | saddImm => exact execSaddImm_goes
  | ssub => exact execSsub_goes
  | ssubLit => exact execSsubLit_goes
  | smul => exact execSmul_goes
  | smulLit => exact execSmulLit_goes
  | smulh => exact execSmulh_goes
  | smulhLit => exact execSmulhLit_goes
  | sand => exact execSand_goes
  | sandLit => exact execSandLit_goes
  | sandImm => exact execSandImm_goes
  | sor => exact execSor_goes
  | sorLit => exact execSorLit_goes
  | sorImm => exact execSorImm_goes
  | sxor => exact execSxor_goes
  | sxorLit => exact execSxorLit_goes
  | sxorImm => exact execSxorImm_goes
  | sshl => exact execSshl_goes
  | sshlImm => exact execSshlImm_goes
  | sshr => exact execSshr_goes
  | sshrImm => exact execSshrImm_goes
  | ssra => exact execSsra_goes
  | ssraImm => exact execSsraImm_goes
  | smin => exact execSmin_goes
  | sminLit => exact execSminLit_goes
  | smax => exact execSmax_goes
  | smaxLit => exact execSmaxLit_goes
  | scmp => exact execScmp_goes
  | scmpLit => exact execScmpLit_goes
  | ssel => exact execSsel_goes
  | smov => exact execSmov_goes
  | sliW2 => exact execSliW2_goes
  | sliLit => exact execSliLit_goes
  | sliImm => exact execSliImm_goes
  | spopc => exact execSpopc_goes
  | sclz => exact execSclz_goes
  | sbfe => exact execSbfe_goes
  | sbfi => exact execSbfi_goes
  | br => exact execBr_goes
  | brd => exact execBrd_goes
  | call => exact execCall_goes
  | calltScalar => exact execCalltScalar_goes
  | calltScalarW1 => exact execCalltScalarW1_goes
  | calltLane => exact execCalltLane_goes
  | calltLaneW1 => exact execCalltLaneW1_goes
  | enter => exact execEnter_goes
  | jts => exact execJts_goes
  | jtv => exact execJtv_goes
  | jtvW1 => exact execJtvW1_goes
  | pand => exact execPand_goes
  | pandW1 => exact execPandW1_goes
  | por => exact execPor_goes
  | porW1 => exact execPorW1_goes
  | pxor => exact execPxor_goes
  | pxorW1 => exact execPxorW1_goes
  | pnot => exact execPnot_goes
  | pnotW1 => exact execPnotW1_goes
  | pmov => exact execPmov_goes
  | pmovW1 => exact execPmovW1_goes
  | ppack => exact execPpack_goes
  | ppackW1 => exact execPpackW1_goes
  | punpk => exact execPunpk_goes
  | punpkW1 => exact execPunpkW1_goes
  | pany => exact execPany_goes
  | pall => exact execPall_goes
  | trap => exact execTrap_goes
  | svc => exact execSvc_goes
  | tget => exact execTget_goes
  | sget => exact execSget_goes
  | sset => exact execSset_goes
  | exget => exact execExget_goes
  | exset => exact execExset_goes
  | rdtime => exact execRdtime_goes
  | spawn => exact execSpawn_goes
  | fwait => exact execFwait_goes
  | ftest => exact execFtest_goes
  | fcancel => exact execFcancel_goes
  | fexp => exact execFexp_goes
  | fimp => exact execFimp_goes
  | waitc => exact execWaitc_goes
  | sleep => exact execSleep_goes
  | waita => exact execWaita_goes
  | waitaW1 => exact execWaitaW1_goes
  | wake => exact execWake_goes
  | wakeW1 => exact execWakeW1_goes
  | ldstat => exact execLdstat_goes
  | swap => exact execSwap_goes
  | mmq => exact execMmq_goes
  | mmqs => exact execMmqs_goes
  | talloc => exact execTalloc_goes
  | tfree => exact execTfree_goes
  | tzero => exact execTzero_goes
  | tld => exact execTld_goes
  | tst => exact execTst_goes
  | barv => exact execBarv_goes
  | bwait => exact execBwait_goes
  | bsync => exact execBsync_goes
  | setleave => exact execSetleave_goes
  | gather => exact execGather_goes
  | tcopy => exact execTcopy_goes
  | rfence => exact execRfence_goes
  | put => exact execPut_goes
  | townThread => exact execTownThread_goes
  | townEngine => exact execTownEngine_goes
  | gpwait => exact execGpwait_goes
  | gpwaitT => exact execGpwaitT_goes
  | gpwaitF => exact execGpwaitF_goes
  | gpwaitFT => exact execGpwaitFT_goes
  | dfree => exact execDfree_goes
  | nmcall => exact execNmcall_goes
  | ixred => exact execIxred_goes
  | walk => exact execWalk_goes
  | coll => exact execColl_goes
  | dpost => exact execDpost_goes
  | xrun => exact execXrun_goes
  | xcal => exact execXcal_goes
  | vadd => exact execVadd_goes
  | vaddW1 => exact execVaddW1_goes
  | vaddLit => exact execVaddLit_goes
  | vaddLitW1 => exact execVaddLitW1_goes
  | vaddImm => exact execVaddImm_goes
  | vsub => exact execVsub_goes
  | vsubW1 => exact execVsubW1_goes
  | vsubLit => exact execVsubLit_goes
  | vsubLitW1 => exact execVsubLitW1_goes
  | vmul => exact execVmul_goes
  | vmulW1 => exact execVmulW1_goes
  | vmulLit => exact execVmulLit_goes
  | vmulLitW1 => exact execVmulLitW1_goes
  | vmulh => exact execVmulh_goes
  | vmulhW1 => exact execVmulhW1_goes
  | vmad => exact execVmad_goes
  | vaddc => exact execVaddc_goes
  | vand => exact execVand_goes
  | vandW1 => exact execVandW1_goes
  | vandLit => exact execVandLit_goes
  | vandLitW1 => exact execVandLitW1_goes
  | vandImm => exact execVandImm_goes
  | vor => exact execVor_goes
  | vorW1 => exact execVorW1_goes
  | vorLit => exact execVorLit_goes
  | vorLitW1 => exact execVorLitW1_goes
  | vxor => exact execVxor_goes
  | vxorW1 => exact execVxorW1_goes
  | vxorLit => exact execVxorLit_goes
  | vxorLitW1 => exact execVxorLitW1_goes
  | vshl => exact execVshl_goes
  | vshlW1 => exact execVshlW1_goes
  | vshlImm => exact execVshlImm_goes
  | vshr => exact execVshr_goes
  | vshrW1 => exact execVshrW1_goes
  | vshrImm => exact execVshrImm_goes
  | vsra => exact execVsra_goes
  | vsraW1 => exact execVsraW1_goes
  | vsraImm => exact execVsraImm_goes
  | vmin => exact execVmin_goes
  | vminW1 => exact execVminW1_goes
  | vminLit => exact execVminLit_goes
  | vminLitW1 => exact execVminLitW1_goes
  | vmax => exact execVmax_goes
  | vmaxW1 => exact execVmaxW1_goes
  | vmaxLit => exact execVmaxLit_goes
  | vmaxLitW1 => exact execVmaxLitW1_goes
  | vpopc => exact execVpopc_goes
  | vpopcW1 => exact execVpopcW1_goes
  | vclz => exact execVclz_goes
  | vclzW1 => exact execVclzW1_goes
  | vbfe => exact execVbfe_goes
  | vbfi => exact execVbfi_goes
  | vsel => exact execVsel_goes
  | vmov => exact execVmov_goes
  | vmovW1 => exact execVmovW1_goes
  | vmovLit => exact execVmovLit_goes
  | vmovLitW1 => exact execVmovLitW1_goes
  | vcmp => exact execVcmp_goes
  | fadd => exact execFadd_goes
  | faddW1 => exact execFaddW1_goes
  | fsub => exact execFsub_goes
  | fsubW1 => exact execFsubW1_goes
  | fmul => exact execFmul_goes
  | fmulW1 => exact execFmulW1_goes
  | ffma => exact execFfma_goes
  | ffmaW1 => exact execFfmaW1_goes
  | fmin => exact execFmin_goes
  | fminW1 => exact execFminW1_goes
  | fmax => exact execFmax_goes
  | fmaxW1 => exact execFmaxW1_goes
  | fcmp => exact execFcmp_goes
  | fclass => exact execFclass_goes
  | fclassW1 => exact execFclassW1_goes
  | frnd => exact execFrnd_goes
  | cvt => exact execCvt_goes
  | pkadd => exact execPkadd_goes
  | pkaddW1 => exact execPkaddW1_goes
  | pkmul => exact execPkmul_goes
  | pkmulW1 => exact execPkmulW1_goes
  | pkfma => exact execPkfma_goes
  | pkfmaW1 => exact execPkfmaW1_goes
  | vshfl => exact execVshfl_goes
  | vshflW1 => exact execVshflW1_goes
  | vrot => exact execVrot_goes
  | vrotW1 => exact execVrotW1_goes
  | vbcast => exact execVbcast_goes
  | vbcastW1 => exact execVbcastW1_goes
  | vballot => exact execVballot_goes
  | vballotW1 => exact execVballotW1_goes
  | vradd => exact execVradd_goes
  | vraddW1 => exact execVraddW1_goes
  | vrmin => exact execVrmin_goes
  | vrminW1 => exact execVrminW1_goes
  | vrmax => exact execVrmax_goes
  | vrmaxW1 => exact execVrmaxW1_goes
  | vscan => exact execVscan_goes
  | vdot4 => exact execVdot4_goes
  | vdot4W1 => exact execVdot4W1_goes
  | vdot2h => exact execVdot2h_goes
  | vdot2hW1 => exact execVdot2hW1_goes
  | ld => exact execLd_goes
  | ldW1 => exact execLdW1_goes
  | st => exact execSt_goes
  | stW1 => exact execStW1_goes
  | ldg => exact execLdg_goes
  | ldgW1 g ty sc ord cp => exact execLdgW1_goes (_cp := cp)
  | stg => exact execStg_goes
  | stgW1 g ty sc ord cp => exact execStgW1_goes (_cp := cp)
  | ldp => exact execLdp_goes
  | ldpW1 => exact execLdpW1_goes
  | stp => exact execStp_goes
  | stpW1 => exact execStpW1_goes
  | atom => exact execAtom_goes
  | atomg => exact execAtomg_goes
  | red => exact execRed_goes
  | pref => exact execPref_goes
  | prefW1 => exact execPrefW1_goes
  | fence => exact execFence_goes
  | cctl => exact execCctl_goes
  | remld g ty sc => exact execRemld_goes (_sc := sc)
  | remst g ty sc => exact execRemst_goes (_sc := sc)
  | rematom g ty sc => exact execRematom_goes (_sc := sc)
  | rred => exact execRred_goes
  | gred => exact execGred_goes
  | ret => exact execRet_goes
  | exit => exact execExit_goes
  | nop => exact execNop_goes
  | yield => exact execYield_goes
  | rett => exact execRett_goes
  | rsopen => exact execRsopen_goes
  | rsclose => exact execRsclose_goes
  | xrcp => exact execXrcp_goes
  | xrcpW1 => exact execXrcpW1_goes
  | xrsq => exact execXrsq_goes
  | xrsqW1 => exact execXrsqW1_goes
  | xsqrt => exact execXsqrt_goes
  | xsqrtW1 => exact execXsqrtW1_goes
  | xexp2 => exact execXexp2_goes
  | xexp2W1 => exact execXexp2W1_goes
  | xlog2 => exact execXlog2_goes
  | xlog2W1 => exact execXlog2W1_goes
  | xsin => exact execXsin_goes
  | xsinW1 => exact execXsinW1_goes
  | xcos => exact execXcos_goes
  | xcosW1 => exact execXcosW1_goes
  | xtanh => exact execXtanh_goes
  | xtanhW1 => exact execXtanhW1_goes
  | rngseed => exact execRngseed_goes
  | rng => exact execRng_goes
  | rngW1 => exact execRngW1_goes
  | rngskip => exact execRngskip_goes
  | bundleDecode => exact execBundleDecode_goes
  | instructionCacheMiss => exact execInstructionCacheMiss_goes
  | multicastFill => exact execMulticastFill_goes
  | joinArrival => exact execJoinArrival_goes
  | loadResultReturn => exact execLoadResultReturn_goes
  | storePerformed => exact execStorePerformed_goes
  | sfuResult => exact execSfuResult_goes
  | translationWalkDone => exact execTranslationWalkDone_goes
  | stage2FaultToRoot => exact execStage2FaultToRoot_goes
  | trapEntry => exact execTrapEntry_goes
  | sleepDeadline => exact execSleepDeadline_goes
  | waitaReread => exact execWaitaReread_goes
  | waitaPollTimeout => exact execWaitaPollTimeout_goes
  | bankSwitch => exact execBankSwitch_goes
  | gangAdmit => exact execGangAdmit_goes
  | gangRetire => exact execGangRetire_goes
  | ldstatLoadEnd => exact execLdstatLoadEnd_goes
  | swapEffect => exact execSwapEffect_goes
  | matrixPassGrant => exact execMatrixPassGrant_goes
  | matrixEntryApplied => exact execMatrixEntryApplied_goes
  | tileStoreServe => exact execTileStoreServe_goes
  | barrierTimeout => exact execBarrierTimeout_goes
  | gatherService => exact execGatherService_goes
  | gatherComplete => exact execGatherComplete_goes
  | recordFill => exact execRecordFill_goes
  | tcopyComplete => exact execTcopyComplete_goes
  | putArrival => exact execPutArrival_goes
  | putComplete => exact execPutComplete_goes
  | l2Eviction => exact execL2Eviction_goes
  | writebackAck => exact execWritebackAck_goes
  | fenceReleaseDone => exact execFenceReleaseDone_goes
  | entryStart => exact execEntryStart_goes
  | waitConditionPoll => exact execWaitConditionPoll_goes
  | launchComplete => exact execLaunchComplete_goes
  | stealRequest => exact execStealRequest_goes
  | sliceEnd => exact execSliceEnd_goes
  | contextLoad => exact execContextLoad_goes
  | gangSave => exact execGangSave_goes
  | gangResume => exact execGangResume_goes
  | savedResolutionApply => exact execSavedResolutionApply_goes
  | syncEngineTakeover => exact execSyncEngineTakeover_goes
  | gracePeriodEnd => exact execGracePeriodEnd_goes
  | gpwaitDeadline => exact execGpwaitDeadline_goes
  | batchClose => exact execBatchClose_goes
  | batchPush => exact execBatchPush_goes
  | regulatorTakeover => exact execRegulatorTakeover_goes
  | nmuStep => exact execNmuStep_goes
  | nmcallComplete => exact execNmcallComplete_goes
  | nmuWatchdog => exact execNmuWatchdog_goes
  | ixredComplete => exact execIxredComplete_goes
  | gredShareReturn => exact execGredShareReturn_goes
  | walkHop => exact execWalkHop_goes
  | collLine => exact execCollLine_goes
  | sequencerWatchdog => exact execSequencerWatchdog_goes
  | refreshPause => exact execRefreshPause_goes
  | rateLimitedInject => exact execRateLimitedInject_goes
  | powerStateNotice => exact execPowerStateNotice_goes
  | dieFailure => exact execDieFailure_goes
  | rootTakeover => exact execRootTakeover_goes
  | getVersion => exact execGetVersion_goes
  | getCapabilities => exact execGetCapabilities_goes
  | negotiateAlgorithms => exact execNegotiateAlgorithms_goes
  | getDigests => exact execGetDigests_goes
  | getCertificate => exact execGetCertificate_goes
  | challenge => exact execChallenge_goes
  | getMeasurements => exact execGetMeasurements_goes
  | keyExchange => exact execKeyExchange_goes
  | finish => exact execFinish_goes
  | endSession => exact execEndSession_goes
  | keySet => exact execKeySet_goes
  | policySet => exact execPolicySet_goes
  | vfQuery => exact execVfQuery_goes
  | alloc => exact execAlloc_goes
  | hwin => exact execHwin_goes
  | free => exact execFree_goes
  | map => exact execMap_goes
  | unmap => exact execUnmap_goes
  | qcreate => exact execQcreate_goes
  | qdestroy => exact execQdestroy_goes
  | pause => exact execPause_goes
  | unpause => exact execUnpause_goes
  | evict => exact execEvict_goes
  | resize => exact execResize_goes
  | partition => exact execPartition_goes
  | reset => exact execReset_goes
  | setltol => exact execSetltol_goes
  | dumpget => exact execDumpget_goes
  | savearea => exact execSavearea_goes
  | doorbell => exact execDoorbell_goes
  | qstatWrite => exact execQstatWrite_goes
  | loadRecord => exact execLoadRecord_goes
  | lstatRead => exact execLstatRead_goes
  | registerWrite => exact execRegisterWrite_goes
  | powerStateChange => exact execPowerStateChange_goes
  | powerExitComplete => exact execPowerExitComplete_goes
  | powerGood => exact execPowerGood_goes
  | calibrationEnd => exact execCalibrationEnd_goes
  | fatalError => exact execFatalError_goes
  | clockSync => exact execClockSync_goes
  | remoteTlbFill => exact execRemoteTlbFill_goes
  | remoteTlbTimeout => exact execRemoteTlbTimeout_goes
  | remoteAccessArrival => exact execRemoteAccessArrival_goes
  | rredContribution => exact execRredContribution_goes
  | rredTimeout => exact execRredTimeout_goes
  | weaverRowArrival => exact execWeaverRowArrival_goes
  | weaverCollectTimeout => exact execWeaverCollectTimeout_goes
  | weaverTakeover => exact execWeaverTakeover_goes
  | calendarArrival => exact execCalendarArrival_goes
  | weaverQuery => exact execWeaverQuery_goes
  | xchSlotStart => exact execXchSlotStart_goes
  | xchOverflowStart => exact execXchOverflowStart_goes
  | xchDataArrival => exact execXchDataArrival_goes
  | xrunTimeout => exact execXrunTimeout_goes
  | cancelAcknowledge => exact execCancelAcknowledge_goes
  | heartbeat => exact execHeartbeat_goes
  | packageReset => exact execPackageReset_goes
  | packageLost => exact execPackageLost_goes
  | externalPortChange => exact execExternalPortChange_goes
  | throttling => exact execThrottling_goes
  | dpostAcknowledgeTimeout => exact execDpostAcknowledgeTimeout_goes
  | xchSlotEnd => exact execXchSlotEnd_goes
  | refreshComplete => exact execRefreshComplete_goes

/-! ### Issuing -/

theorem runWords_goes {ws : List W32} {s : State} : Goes s (runWords ws s) := by
  unfold runWords
  split
  · exact exec_goes
  · exact goes_next fun h => trap_form h

theorem starts_form {s : State} (h : memoryForm s) : memoryForm s.starts :=
  setSlot_form (form_same h rfl rfl)

theorem reached_goes {s u : State} {o : Out} (hu : memoryForm s → memoryForm u) (ho : Goes s o) : Goes s (u.reached o) := by
  obtain ⟨t, rfl, ht⟩ := ho
  unfold State.reached
  dsimp only
  split
  · exact goes_next ht
  · exact goes_next fun h => rouse_form (hu h)

theorem attempt_goes {s : State} {run : State → Out} (hr : ∀ u, Goes u (run u)) : Goes s (s.attempt run) := by
  obtain ⟨t, e, ht⟩ := hr s.starts
  unfold State.attempt
  rw [e]
  dsimp only
  split
  · exact goes_next fun h => park_form h
  · split
    · exact goes_next fun h => park_form h
    · split
      · exact goes_next fun h => park_form (rouse_form h)
      · exact goes_next fun h => ht (starts_form h)

theorem issue_goes {s : State} : Goes s s.issue := by
  unfold State.issue
  extract_lets x1
  split
  · exact execTrapEntry_goes
  · split
    · exact goes_next id
    · split
      · exact execTrapEntry_goes
      · split
        · exact goes_next id
        · split
          · split
            · exact execBundleDecode_goes
            · exact execInstructionCacheMiss_goes
          · split
            · exact goes_next fun h => barrierDone_form (starts_form h)
            · exact goes_next fun h => freeNow_form (starts_form h)
            · exact goes_next fun h => trap_form (starts_form h)
            · exact goes_next fun h => advance_form (setRs_form (starts_form h))
            · split
              · exact execJoinArrival_goes
              · refine attempt_goes fun u1 => ?_
                exact runWords_goes

/-! ### What comes next -/

theorem pass_form {s : State} (h : memoryForm s) : memoryForm s.pass :=
  form_same h rfl rfl

theorem reap_form {s : State} (h : memoryForm s) : memoryForm s.reap := by
  unfold State.reap
  refine form_foldl (fun u1 x1 h1 => ?_) (form_same h rfl rfl)
  split
  · exact h1
  · exact terminateBy_form h1

theorem toPath_form {s : State} {p : ℕ × SlotId} (h : memoryForm s) : memoryForm (s.toPath p) :=
  form_same (s := s.focus p.1) (focus_form h) rfl rfl

theorem stampAll_form {s : State} (h : memoryForm s) : memoryForm s.stampAll :=
  form_same h rfl rfl

theorem failLate_form {s : State} (h : memoryForm s) : memoryForm s.failLate := by
  refine form_foldl (fun u d hu => ?_) h
  obtain ⟨t, e, ht⟩ := execDieFailure_goes (die := d) (s := u)
  rw [e]
  exact ht hu

theorem retune_form {s : State} (h : memoryForm s) : memoryForm s.retune :=
  form_same h rfl rfl

theorem callStacks_form {s : State} (h : memoryForm s) : memoryForm s.callStacks := by
  unfold State.callStacks
  split
  · exact h
  · exact rouse_form h

theorem begin_form {s : State} (h : memoryForm s) : memoryForm s.begin_ :=
  stampAll_form (callStacks_form (settleNmus_form (peerRemovals_form (drainChannel_form (retune_form (failLate_form (pass_form
      (settleMoves_form (settleSaving_form (watch_form (reap_form h)))))))))))

theorem select_form {s : State} {m : Move} (h : memoryForm s) : memoryForm (s.select m) := by
  unfold State.select
  split
  · next a1 _ => exact form_same (s := s.focus a1) (focus_form h) rfl rfl
  · exact form_same h rfl rfl

theorem issueBest_goes {s : State} : Goes s s.issueBest := by
  unfold State.issueBest
  split
  · exact goes_of (fun h => toPath_form h) issue_goes
  · exact goes_next id

/-! ### The events that the device itself may bring -/

/-- Each event of a list answers a next state, in the form where it was before. -/
def AllGo (es : List (State → Out)) : Prop := ∀ f ∈ es, ∀ s, Goes s (f s)

theorem allGo_nil : AllGo [] := fun _ hf => nomatch hf

theorem allGo_cons {f : State → Out} {es : List (State → Out)} (hf : ∀ s, Goes s (f s)) (h : AllGo es) : AllGo (f :: es) := by
  intro g hg
  rcases List.mem_cons.1 hg with rfl | hg
  · exact hf
  · exact h g hg

theorem allGo_one {f : State → Out} (hf : ∀ s, Goes s (f s)) : AllGo [f] := allGo_cons hf allGo_nil

theorem allGo_append {es fs : List (State → Out)} (h : AllGo es) (k : AllGo fs) : AllGo (es ++ fs) := by
  intro g hg
  rcases List.mem_append.1 hg with hg | hg
  · exact h g hg
  · exact k g hg

theorem allGo_map {α : Type} {l : List α} {f : α → State → Out} (h : ∀ x s, Goes s (f x s)) : AllGo (l.map f) := by
  intro g hg
  obtain ⟨x, -, rfl⟩ := List.mem_map.1 hg
  exact h x

theorem allGo_flatMap {α : Type} {l : List α} {f : α → List (State → Out)} (h : ∀ x, AllGo (f x)) : AllGo (l.flatMap f) := by
  intro g hg
  obtain ⟨x, -, hx⟩ := List.mem_flatMap.1 hg
  exact h x g hx

theorem allGo_ite {c : Prop} {_ : Decidable c} {es fs : List (State → Out)} (h : AllGo es) (k : AllGo fs) : AllGo (if c then es else fs) := by
  split
  · exact h
  · exact k

/-- An event of a path, after the path is selected. -/
theorem goes_toPath {s : State} {p : ℕ × SlotId} {f : State → Out} (hf : ∀ u, Goes u (f u)) : Goes s (f (s.toPath p)) :=
  goes_of toPath_form (hf _)

theorem goes_focus {s : State} {key : ℕ} {f : State → Out} (hf : ∀ u, Goes u (f u)) : Goes s (f (s.focus key)) :=
  goes_of focus_form (hf _)

/-- The events of a path that are tried in turn. -/
theorem pathEvents_go : AllGo [execTrapEntry, execBundleDecode, execInstructionCacheMiss, execSleepDeadline, execWaitaReread, execWaitaPollTimeout,
    execFenceReleaseDone] :=
  allGo_cons (fun _ => execTrapEntry_goes) (allGo_cons (fun _ => execBundleDecode_goes) (allGo_cons (fun _ => execInstructionCacheMiss_goes)
    (allGo_cons (fun _ => execSleepDeadline_goes) (allGo_cons (fun _ => execWaitaReread_goes) (allGo_cons (fun _ => execWaitaPollTimeout_goes)
      (allGo_one fun _ => execFenceReleaseDone_goes))))))

theorem groupEvents_go {g : Group} : AllGo g.events := by
  unfold Group.events
  refine allGo_append (allGo_flatMap fun i => ?_) (allGo_flatMap fun k => ?_)
  · intro f hf
    obtain ⟨e, he, rfl⟩ := List.mem_map.1 hf
    exact fun s => goes_toPath (pathEvents_go e he)
  · exact allGo_cons (fun _ => goes_focus fun _ => execSfuResult_goes) (allGo_one fun _ => goes_focus fun _ => execLoadResultReturn_goes)

theorem engineOpEvents_go {o : EngineOp} : AllGo o.events := by
  unfold EngineOp.events
  split
  · exact allGo_cons (fun _ => execGatherService_goes) (allGo_one fun _ => execGatherComplete_goes)
  · exact allGo_cons (fun _ => execRecordFill_goes) (allGo_one fun _ => execTcopyComplete_goes)
  · exact allGo_cons (fun _ => execPutArrival_goes) (allGo_one fun _ => execPutComplete_goes)
  · exact allGo_one fun _ => execNmcallComplete_goes
  · exact allGo_one fun _ => execIxredComplete_goes
  · exact allGo_map fun _ _ => execWalkHop_goes
  · exact allGo_one fun _ => execGredShareReturn_goes
  · exact allGo_one fun _ => execDpostAcknowledgeTimeout_goes
  · refine allGo_append (allGo_cons (fun _ => execXchOverflowStart_goes) (allGo_one fun _ => execXrunTimeout_goes)) (allGo_flatMap fun k => ?_)
    exact allGo_cons (fun _ => execXchSlotStart_goes) (allGo_one fun _ => execXchSlotEnd_goes)
  all_goals exact allGo_nil

theorem netMsgEvents_go {m : NetMsg} : AllGo m.events := by
  cases m with
  | rred m => exact allGo_one fun _ => execRredContribution_goes
  | row standby m => exact allGo_one fun _ => execWeaverRowArrival_goes
  | calendar m => exact allGo_one fun _ => execCalendarArrival_goes
  | xch _ m => exact allGo_one fun _ => execXchDataArrival_goes
  | _ => exact allGo_nil

theorem unitEvents_go {s : State} : AllGo s.unitEvents := by
  unfold State.unitEvents
  refine allGo_append (allGo_append (allGo_append (allGo_append (allGo_append (allGo_append (allGo_append (allGo_append (allGo_append
    (allGo_append (allGo_append (allGo_append (allGo_append (allGo_append ?_ ?_) ?_) ?_) ?_) ?_) ?_) ?_) ?_) ?_) ?_) ?_) ?_) ?_) ?_
  · exact allGo_map fun _ _ => execMulticastFill_goes
  · exact allGo_map fun _ _ => execStorePerformed_goes
  · exact allGo_map fun _ _ => execWritebackAck_goes
  · exact allGo_flatMap fun _ => allGo_cons (fun _ => execTranslationWalkDone_goes) (allGo_one fun _ => execStage2FaultToRoot_goes)
  · exact allGo_flatMap fun _ => allGo_cons (fun _ => execRemoteTlbFill_goes) (allGo_one fun _ => execRemoteTlbTimeout_goes)
  · exact allGo_flatMap fun _ => allGo_cons (fun _ => execLdstatLoadEnd_goes) (allGo_cons (fun _ => execSwapEffect_goes)
      (allGo_cons (fun _ => execMatrixPassGrant_goes) (allGo_cons (fun _ => execMatrixEntryApplied_goes)
        (allGo_one fun _ => execTileStoreServe_goes))))
  · exact allGo_flatMap fun _ => engineOpEvents_go
  · exact allGo_map fun _ _ => execCancelAcknowledge_goes
  · exact allGo_map fun _ _ => execRateLimitedInject_goes
  · exact allGo_flatMap fun _ => allGo_cons (fun _ => execNmuStep_goes) (allGo_cons (fun _ => execNmuWatchdog_goes)
      (allGo_one fun _ => execRefreshComplete_goes))
  · exact allGo_ite allGo_nil (allGo_flatMap fun _ => allGo_cons (fun _ => execCollLine_goes) (allGo_one fun _ => execSequencerWatchdog_goes))
  · exact allGo_map fun _ _ => execRredTimeout_goes
  · exact allGo_map fun _ _ => execWeaverCollectTimeout_goes
  · exact allGo_map fun _ _ => execWeaverQuery_goes
  · exact allGo_flatMap fun _ => netMsgEvents_go

theorem rootEvents_go {s : State} : AllGo s.rootEvents := by
  unfold State.rootEvents
  refine allGo_append (allGo_append (allGo_append (allGo_append (allGo_append (allGo_append (allGo_append (allGo_append (allGo_append
    ?_ ?_) ?_) ?_) ?_) ?_) ?_) ?_) ?_) ?_
  · exact allGo_flatMap fun _ => allGo_cons (fun _ => execWaitConditionPoll_goes) (allGo_one fun _ => execEntryStart_goes)
  · exact allGo_map fun _ _ => execLaunchComplete_goes
  · exact allGo_flatMap fun _ => allGo_cons (fun _ => execContextLoad_goes) (allGo_cons (fun _ => execBatchClose_goes)
      (allGo_one fun _ => execBatchPush_goes))
  · refine allGo_flatMap fun _ => allGo_append (allGo_cons (fun _ => execSliceEnd_goes) (allGo_one fun _ => execBankSwitch_goes))
      (allGo_flatMap fun _ => ?_)
    exact allGo_cons (fun _ => execGracePeriodEnd_goes) (allGo_one fun _ => execGpwaitDeadline_goes)
  · exact allGo_flatMap fun _ => allGo_append (allGo_cons (fun _ => execGangRetire_goes) (allGo_one fun _ => execGangSave_goes))
      (allGo_map fun _ _ => execBarrierTimeout_goes)
  · exact allGo_map fun _ _ => execGangResume_goes
  · exact allGo_map fun _ _ => execSavedResolutionApply_goes
  · exact allGo_flatMap fun _ => allGo_flatMap fun _ => allGo_cons (fun _ => execGangAdmit_goes) (allGo_map fun _ _ => execStealRequest_goes)
  · exact allGo_map fun _ _ => execPowerExitComplete_goes
  · refine allGo_ite allGo_nil (allGo_append (allGo_map fun _ _ => execPowerStateChange_goes) (allGo_flatMap fun _ => ?_))
    refine allGo_cons (fun _ => execPowerStateChange_goes) (allGo_flatMap fun _ => ?_)
    exact allGo_cons (fun _ => execPowerStateNotice_goes) (allGo_cons (fun _ => execPowerStateNotice_goes)
      (allGo_one fun _ => execPowerStateChange_goes))

theorem events_go {s : State} : AllGo s.events :=
  allGo_append (allGo_append (allGo_flatMap fun _ => groupEvents_go) unitEvents_go) rootEvents_go

theorem auto_goes {s : State} : Goes s s.auto := by
  unfold State.auto
  extract_lets es
  split
  · exact issueBest_goes
  · split
    · next f e => exact events_go f (List.mem_of_getElem? e) s
    · exact issueBest_goes

/-! ### One step -/

/-- A step that has a prescribed move, or is not after a fatal error. -/
theorem step_goes {s : State} (hs : s.agenda ≠ [] ∨ s.fatal = false) : Goes s (step s) := by
  unfold step
  split
  · next m rest e =>
    extract_lets t
    have ht : memoryForm s → memoryForm t := fun h => form_same (s := s) h rfl rfl
    have hb : memoryForm s → memoryForm (t.begin_.select m) := fun h => select_form (begin_form (ht h))
    split
    · split
      · exact goes_next fun h => pass_form (ht h)
      · exact reached_goes hb (goes_of hb exec_goes)
    · split
      · exact goes_next fun h => pass_form (ht h)
      · exact reached_goes hb (goes_of hb issue_goes)
  · next e =>
    have hf : s.fatal = false := hs.resolve_left fun hn => hn e
    rw [if_neg (by simp [hf])]
    exact reached_goes begin_form (goes_of begin_form auto_goes)

/-- Settles O5: every instruction answers by `exec_goes`, and every step that a move or a machine without a fatal error brings about by `step_goes`. -/
theorem onlyFatalStops : Obligations.OnlyFatalStops := by
  unfold Obligations.OnlyFatalStops
  refine ⟨fun i s => ?_, fun s => ?_⟩
  · obtain ⟨t, e, -⟩ := exec_goes (i := i) (s := s)
    exact ⟨t, e⟩
  · split
    · next hs =>
      obtain ⟨fatal, none⟩ := hs
      unfold step
      rw [none]
      exact if_pos fatal
    · next hs =>
      have hs : s.agenda ≠ [] ∨ s.fatal = false := by
        cases hf : s.fatal with
        | true => exact Or.inl fun hn => hs ⟨hf, hn⟩
        | false => exact Or.inr rfl
      obtain ⟨t, e, -⟩ := step_goes hs
      exact ⟨t, e⟩

/-- Settles O9: a step that answers a next state has a move or no fatal error before it, and then `step_goes` carries the form. -/
theorem stepKeepsMemoryForm : Obligations.StepKeepsMemoryForm := by
  unfold Obligations.StepKeepsMemoryForm
  intro s t hs e
  have run : s.agenda ≠ [] ∨ s.fatal = false := by
    by_contra hn
    obtain ⟨none, fatal⟩ := not_or.1 hn
    have stop := onlyFatalStops.2 s
    rw [if_pos ⟨by simpa using fatal, not_not.1 none⟩, e] at stop
    exact nomatch stop
  obtain ⟨u, eu, keep⟩ := step_goes run
  obtain rfl : u = t := by simpa [eu] using e
  exact keep hs

end Sys2Proof.Machine
end
